-- ==== Sys2Proof/Word.lean ====
section
/-! DEFINITION. The word types of spec 00_scope.md R7: a byte is 8 bits, a half 16, a word 32, a dword 64. -/

namespace Sys2Proof

/-- 8 bits (00_scope.md R7). -/
abbrev Byte := BitVec 8

/-- 16 bits (00_scope.md R7). -/
abbrev Half := BitVec 16

/-- 32 bits (00_scope.md R7). -/
abbrev Word := BitVec 32

/-- 64 bits (00_scope.md R7). -/
abbrev Dword := BitVec 64

end Sys2Proof
end

