-- ==== Sys2Proof/Machine/Olx.lean ====
section
/-! DEFINITION. The Olxavon instruction as data (05_olxavon_isa.md, Tables 5.4 to 5.13): one constructor per
format-and-table, the table's operation as an inductive. Threads and the Reed processors share it. -/

namespace Sys2Proof.Machine

/-- A register field of an instruction word. -/
abbrev RegNo := BitVec 5

/-- Table 5.6 (05 R138). -/
inductive AluOp where
  | add | sub | and | or | xor | andn | sll | srl | sra | rotr | slt | sltu | min | max | minu | maxu
  | clz | ctz | popc | bswap | sextb | sexth | sextw
deriving DecidableEq, Repr

/-- The I-format operations of Table 5.5 that combine a register with imm16. -/
inductive ImmOp where
  | addi | andi | ori | xori | slti | sltiu
deriving DecidableEq, Repr

/-- The shift operations of SHI (Table 5.5). -/
inductive ShOp where
  | sll | srl | sra | rotr
deriving DecidableEq, Repr

/-- Table 5.7 (05 R139). -/
inductive MulOp where
  | mul | mulh | mulhu | div | divu | rem | remu
deriving DecidableEq, Repr

/-- Loads of Table 5.5, in major order 0x0B to 0x11. -/
inductive LoadOp where
  | lb | lbu | lh | lhu | lw | lwu | ld
deriving DecidableEq, Repr

/-- Stores of Table 5.5, majors 0x12 to 0x15. -/
inductive StoreOp where
  | sb | sh | sw | sd
deriving DecidableEq, Repr

/-- Table 5.8 (05 R141). -/
inductive AmoOp where
  | swap | add | and | or | xor | min | max | minu | maxu | cas
deriving DecidableEq, Repr

/-- The four fences of Table 5.9. -/
inductive FenceOp where
  | acq | rel | full | ifetch
deriving DecidableEq, Repr

/-- Table 5.12 (05 R149). -/
inductive FpOp where
  | add | sub | mul | madd | min | max | div | sqrt | eq | lt | le | abs | neg | cvtN | cvtWl | cvtWh | f2i | i2f
deriving DecidableEq, Repr

/-- Majors 0x1A to 0x1F (05 R142). -/
inductive BrOp where
  | beq | bne | blt | bge | bltu | bgeu
deriving DecidableEq, Repr

/-- Private-bit logic of BLOG (05 R147). -/
inductive BlogOp where
  | and | or | xor | andn
deriving DecidableEq, Repr

/-- Table 5.10 (05 R146). -/
inductive BitOp where
  | set | clr | tog | tas | movt | movf | rd | wr
deriving DecidableEq, Repr

/-- The conditions of SETB (05 R147). -/
inductive SetCond where
  | eq | ne | lt | ge | ltu | geu | tst | tstz
deriving DecidableEq, Repr

/-- Table 5.11 (05 R152, R153). -/
inductive LongOp where
  | movb | fill | scanb | crcb | hashb
deriving DecidableEq, Repr

/-- The register-and-imm42 operations of Table 5.13. -/
inductive ExtOp where
  | addix | andix | orix | xorix
deriving DecidableEq, Repr

/-- The extended loads of Table 5.13. -/
inductive ExtLoad where
  | ldx | lwx | lwux
deriving DecidableEq, Repr

/-- The extended stores of Table 5.13. -/
inductive ExtStore where
  | sdx | swx
deriving DecidableEq, Repr

/-- One Olxavon instruction (05 R135, R136). -/
inductive Olx where
  | alu (op : AluOp) (w : Bool) (rd ra rb : RegNo)
  | imm (op : ImmOp) (rd ra : RegNo) (imm : Half)
  | shi (op : ShOp) (w : Bool) (rd ra : RegNo) (sh : BitVec 6)
  | lui (rd : RegNo) (imm : Half)
  | muldiv (op : MulOp) (w : Bool) (rd ra rb : RegNo)
  | load (op : LoadOp) (rd ra : RegNo) (imm : Half)
  | store (op : StoreOp) (rd ra : RegNo) (imm : Half)
  | amo (op : AmoOp) (dword aq rl : Bool) (rd ra rb : RegNo)
  | fence (k : FenceOp)
  | mfs (rd : RegNo) (n : BitVec 7)
  | mts (ra : RegNo) (n : BitVec 7)
  | swtrap (n : BitVec 7)
  | brk
  | eret
  | fp (op : FpOp) (fmt : BitVec 3) (kind sat src : Bool) (rd ra rb : RegNo)
  | br (op : BrOp) (ra rb : RegNo) (off : Half)
  | jal (off : BitVec 26)
  | j (off : BitVec 26)
  | jalr (rd ra : RegNo) (imm : Half)
  | djnz (ra : RegNo) (off : Half)
  | djnzl (ra : RegNo) (off : BitVec 20)
  | blog (op : BlogOp) (bd ba bb : Byte)
  | bitop (op : BitOp) (bs : BitVec 9) (bp : Byte) (rg : RegNo)
  | setb (cond : SetCond) (bd : Byte) (ra rb : RegNo)
  | bb (sense : Bool) (bs : BitVec 9) (off : Half)
  | wait (all clr : Bool) (rd ra rb : RegNo)
  | chk (sgn : Bool) (rd ra rb : RegNo)
  | chki (ra : RegNo) (imm : BitVec 21)
  | chkd (sgn : Bool) (ra rb : RegNo)
  | long (op : LongOp) (esz : BitVec 2) (dir cond : Bool) (rd ra rb : RegNo)
  | lix (rd : RegNo) (imm : BitVec 42)
  | luix (rd : RegNo) (imm : BitVec 42)
  | ext (op : ExtOp) (rd ra : RegNo) (imm : BitVec 42)
  | extLoad (op : ExtLoad) (rd ra : RegNo) (imm : BitVec 42)
  | extStore (op : ExtStore) (rd ra : RegNo) (imm : BitVec 42)
  | jalx (rd : RegNo) (imm : BitVec 42)
  | cop (unit : BitVec 3) (ver : BitVec 4) (rd rb : RegNo) (func : BitVec 12)
deriving DecidableEq, Repr

end Sys2Proof.Machine
end

