-- ==== Sys2Proof/Names.lean ====
section
/-! DEFINITION. Names that commands and the state share: who makes an access, a thread's number, what an access outside
the device was answered. -/

namespace Sys2Proof

/-- A thread's number (05 Table 5.14 TID): thread in bits 3:0, core in bits 6:4, rafter in bits 12:7. -/
abbrev Tid := BitVec 13

/-- Who makes a control space access (00 R11, 02 R41, 07 R212): a physical or virtual function of an endpoint, or a
thread. -/
inductive Requester where
  | pf (ep : Nat)
  | vf (ep : Nat) (fn : Nat)
  | thread (tid : Tid)
deriving DecidableEq, Repr

/-- What an access that left the device, or that its memory served, was answered: data, a remote status of 06 Table 6.8,
or data with an uncorrectable error (06 R178). -/
inductive Answer where
  | data (v : Dword)
  | failed (status : Nat)
  | memErr
deriving DecidableEq, Repr

/-- A received eave transport packet's base header and circumstances (10 Tables 10.4, 10.6; R291, R309, R317): the
sub-port and the addresses it came by, whether IP marked it CE, and for a secured packet its nonce_ctr and whether its
tag verifies. -/
structure PktHdr where
  conn : Nat
  psn : Nat
  ackreq : Bool
  first : Bool
  last : Bool
  ece : Bool
  ce : Bool
  sec : Bool
  tagOk : Bool
  nonce : Nat
  port : Nat
  srcIp : Nat
  dstIp : Nat
deriving DecidableEq, Repr

/-- The RH extension header (10 Table 10.6). -/
structure RemHdr where
  rkind : Nat
  rref : Word
  offset : Dword
deriving DecidableEq, Repr

/-- The acknowledgement and credit fields of a Nawyn flit header (11 Table 11.3). -/
structure FlitAck where
  ackValid : Bool
  ack : Nat
  crTc : Nat
  crCount : Nat
deriving DecidableEq, Repr

/-- A received Nawyn message's link, class and header (11 Table 11.4), the acknowledgement and credit fields of its last
flit, and how many of its flits the FEC corrected (11 R328). -/
structure NHdr where
  link : Nat
  tc : Nat
  fa : FlitAck
  dst : Nat
  hops : Nat
  src : Nat
  linkLocal : Bool
  crs : Nat
  status : Nat
  tag : Nat
  arg : Nat
  corr : Nat
deriving DecidableEq, Repr

/-- A fetched NVM Express command (14 R408): controller, queue, identifier, the fields a command uses, and the entries of the PRP list
it names, where it needs one. -/
structure NCmd where
  ctrl : Nat
  sq : Nat
  cid : Nat
  nsid : Nat
  prp1 : Nat
  prp2 : Nat
  cdw10 : Nat
  cdw11 : Nat
  cdw12 : Nat
  list : List Nat
deriving DecidableEq, Repr

/-- An SPDM request (14 R422): the session that carries it, if one does, its two parameters and the rest. -/
structure SpdmReq where
  session : Option Nat
  param1 : Byte
  param2 : Byte
  body : List Byte
deriving DecidableEq, Repr

end Sys2Proof
end

