-- ==== Sys2Proof/Syntax.lean ====
section
/-! DEFINITION. The commands: one constructor per row of spec/opcode_table.json, in its order. An operand that a command
carries is what comes from outside the block: who makes an access, a descriptor's fields, a packet, the data that a host, a
peer or an SSD supplies, the outcome of a check that the spec leaves to a published standard. -/

namespace Sys2Proof

open Machine

/-- A command of the block (spec/opcode_table.json). -/
inductive Instr where
  /-- REGISTER_WRITE: A write to a control space register that has no row of its own takes effect field by field under its access codes (R14). -/
  | registerWrite (req : Requester) (off size : Nat) (v : Dword)
  /-- MISALIGNED_CONTROL_ACCESS: A misaligned or wrongly sized control space access reads all ones or is discarded, and is counted in IDENT_MISALIGN_CNT (R11). -/
  | misalignedControlAccess (req : Requester) (off size : Nat) (write : Bool) (v : Dword)
  /-- POWER_ON_RESET_EXIT: 1 ms after the group A rails are in range, the Ridge leaves power-on reset on its internal oscillator and holds the board-facing outputs low (R455). -/
  | powerOnResetExit
  /-- POWER_LOSS: A loss of power, planned or unplanned, ends in a cold reset with DDR contents lost (R457). -/
  | powerLoss
  /-- CRYSTAL_DETECTION_DONE: After the 2 ms edge count, the Ridge either switches to the doubled 25 MHz crystal or stays on its internal oscillator (R33). -/
  | crystalDetectionDone (edges : Nat)
  /-- CRYSTAL_FAIL: After 8 crystal periods without an edge, the Ridge moves to its internal oscillator without a restart (R34). -/
  | crystalFail
  /-- RESET_N_ASSERT: RESET_N held low for 100 Ridge cycles is recognised as a warm reset (R456). -/
  | resetNAssert
  /-- BOARD_PG_FALL: BOARD_PG held low for 100 Ridge cycles acts as RESET_N held low for as long as it stays low (R456). -/
  | boardPgFall
  /-- RESET_N_RISE: When RESET_N rises, a new boot cycle begins at slot 0 within 1 ms, or within 3 ms when crystal detection is repeated (R51). -/
  | resetNRise
  /-- DOZE_ENTRY: A domain whose idle_floor is at least 1 gates its clock as soon as it becomes idle (R37). -/
  | dozeEntry (d : Nat)
  /-- NAP_DELAY_EXPIRY: When a domain has been idle in Doze for nap_delay_us, the Ridge begins its Nap entry (R37). -/
  | napDelayExpiry (d : Nat)
  /-- OFF_ENTRY_START: A domain with a pending off_req begins Off entry once it is idle (R465). -/
  | offEntryStart (d : Nat)
  /-- QUIESCE_DONE: When a domain's purlin ports have quiesced, the Ridge passes the point of no return and commands PLL or rail power-down (R44). -/
  | quiesceDone (d : Nat)
  /-- POWER_DOWN_DONE: When the PLL is off, or the rail is down, the domain reaches Nap or Off (R45). -/
  | powerDownDone (d : Nat)
  /-- DOMAIN_WAKE_DONE: A woken domain reaches Run, and last_wake_src records its first latched source (R43). -/
  | domainWakeDone (d : Nat)
  /-- OFF_REQ: An accepted write of off_req makes an Off request pending; a refused one counts in PWR_DENIED_CNT (R465). -/
  | offReq (req : Requester) (d : Nat) (v : Word)
  /-- WAKE_REQ: A write of wake_req acts as wake source 6 and clears a pending Off request unless off_req is also set (R465). -/
  | wakeReq (req : Requester) (d : Nat) (v : Word)
  /-- ROOF_SLEEP_CONDITIONS_HELD: When the R47 conditions have held for PWR_ROOF_DELAY ms, the Ridge begins Roof Sleep entry (R47). -/
  | roofSleepConditionsHeld
  /-- ROOF_POINT_OF_NO_RETURN: Once HBM and DDR are in self-refresh, the Ridge commands purlin rail-down (R49). -/
  | roofPointOfNoReturn
  /-- ROOF_SLEEP_ENTERED: The device is in Roof Sleep, with only the Ridge powered and DDR in self-refresh (R48). -/
  | roofSleepEntered
  /-- ROOF_WAKE_SOURCE: An enabled Roof Sleep wake source is latched; it either abandons the entry or begins the exit (R49). -/
  | roofWakeSource (bit : Nat) (offDoms : List Nat)
  /-- ROOF_TIMER_EXPIRY: PWR_ROOF_TIMER expires in Roof Sleep, giving the ridge_timer wake source (R49). -/
  | roofTimerExpiry
  /-- ROOF_EXIT_DIGEST_CHECK: The stored thatch digests are checked; a failure discards every bay and restarts the boot loop (R49). -/
  | roofExitDigestCheck (ok : Bool)
  /-- ROOF_EXIT: Every bay has been recommitted under its previous epoch, mode becomes Normal and ROOF_EXIT is raised (R49). -/
  | roofExit
  /-- BAY_RESET: A PF write of PWR_BAY_RST with go resets one bay's rafters (R52). -/
  | bayReset (req : Requester) (bay : Nat) (go : Bool)
  /-- BAY_RESET_DONE: The bay reset completes within 1 ms and its firmware starts with reason 5 (R52). -/
  | bayResetDone (bay : Nat)
  /-- BOOT_SOURCE_TIMEOUT: A boot source's time limit passes; the attempt fails and the cycle goes on to the next slot (R53). -/
  | bootSourceTimeout
  /-- BOOT_HEADER_CHECK: Once the first 128 bytes of a boot image have arrived, its header is checked (R420). -/
  | bootHeaderCheck (hdr : List Byte)
  /-- BOOT_IMAGE_READ_DONE: All image_size bytes of a boot image have been read, and hashing begins (R420). -/
  | bootImageReadDone (image : List Byte)
  /-- BOOT_SIGNATURE_CHECK_DONE: After hashing and signature verification, the svn and embedded thatch checks 1 to 6 decide the attempt (R420). -/
  | bootSignatureCheckDone (bootSigsOk thatchSigsOk : Bool)
  /-- BACKOFF_EXPIRY: The backoff after a failed cycle ends, and a new cycle begins at slot 0 (R55). -/
  | backoffExpiry
  /-- NETWORK_BOOT_TICK: During network boot, a boot request is broadcast on the bare port every 1 s (R54). -/
  | networkBootTick
  /-- NEIGHBOUR_TURN_TIMEOUT: A Nawyn neighbour sends no BOOT_BEGIN within 250 ms of its link's turn, so the next link is tried (R53). -/
  | neighbourTurnTimeout
  /-- BOOT_NOW: A write of PWR_CTL.boot_now ends a running backoff at once (R56). -/
  | bootNow (req : Requester)
  /-- TARP_FORCE_WRITE: A PF write of PWR_CTL.tarp_force enters Tarp mode, or adds the forced bit to tarp_seen (R57). -/
  | tarpForceWrite (req : Requester)
  /-- TARP_ENTRY_DONE: Domains, HBM, DDR and the purlin are down and the bare port is up; a new boot cycle begins unless thermal_hold is set (R60). -/
  | tarpEntryDone
  /-- ASSIGN_QUERY: Unaddressed enabled units answer at 0x6E, and the lowest unit ID wins arbitration (R67). -/
  | assignQuery (enIn : Bool) (others : List Dword)
  /-- ASSIGN_SET: The matching unit takes the chain address and drives RCH_EN_OUT high (R72). -/
  | assignSet (enIn : Bool) (uid : Dword) (address : Nat)
  /-- IDENT: Chain command that returns the unit's identifiers (R70). -/
  | ident (address : Nat)
  /-- STATUS: Chain command that returns PWR_STATE, BOOT_ATTEMPTS and PWR_BOOT_STAT (R70). -/
  | status (address : Nat)
  /-- SENSOR_READ: Chain command that returns one sensor value or PWR_TEMP_MAX (R86). -/
  | sensorRead (address index : Nat)
  /-- MAILBOX_WRITE: Chain command that carries a segment of a Ridge mailbox message (R73). -/
  | mailboxWrite (address flags : Nat) (bytes : List Byte)
  /-- MAILBOX_READ: Chain command that returns a segment of a Ridge mailbox response (R73). -/
  | mailboxRead (address : Nat)
  /-- ACC_POWER: Chain command that requests an accelerator power sequence, subject to ctl_lock (R75). -/
  | accPower (address n request : Nat)
  /-- ACC_STATUS: Chain command that returns the state of accelerators 0 to 15 (R70). -/
  | accStatus (address : Nat)
  /-- WAKE: Chain wake command: a Roof Sleep wake source, or a PME event outside Roof Sleep (R74). -/
  | wake (address : Nat)
  /-- TARP_FORCE: Chain command with the effect of PWR_CTL.tarp_force, subject to ctl_lock (R74). -/
  | tarpForce (address : Nat)
  /-- RESET_WARM: Chain command that warm-resets the device after its stop condition, subject to ctl_lock (R74). -/
  | resetWarm (address c0 c1 : Nat)
  /-- RELEASE: Chain command that clears the unit's address and drives RCH_EN_OUT low (R74). -/
  | release (address : Nat)
  /-- CHAIN_BAD_FRAME: A frame with a bad CRC, an unknown cmd or a wrong len changes nothing and counts in PWR_CHAIN_ERR_CNT (R70). -/
  | chainBadFrame (address : Nat) (why : Nat) (cmd : Nat) (isRead : Bool)
  /-- CHAIN_TIMEOUT: RCH_SCL low for more than 25 ms: the frame in progress is discarded and counted (R71). -/
  | chainTimeout
  /-- CHAIN_RELEASE_WRITE: A write of PWR_CHAIN_CTL.release clears the chain address (R66). -/
  | chainReleaseWrite (req : Requester) (v : Word)
  /-- NODE_ID_WRITE: A host write of PWR_NODE_ID sets the node ID and sets written (R78). -/
  | nodeIdWrite (req : Requester) (v : Word)
  /-- CONSOLE_CHARACTER: A character completes at its stop-bit sample and is delivered to the receive FIFO (R80). -/
  | consoleCharacter (c : Byte) (stopHigh : Bool)
  /-- CONSOLE_BREAK: CON_RXD held low for 20 bit times sets brk, counts a break and raises CON_BREAK (R83). -/
  | consoleBreak
  /-- CON_TX_WRITE: A write of PWR_CON_TX queues a character, or is discarded and counted when the FIFO is full (R84). -/
  | conTxWrite (req : Requester) (c : Byte)
  /-- CONSOLE_TX_CHARACTER_SENT: The transmitter finishes a character and takes the next from the FIFO (R84). -/
  | consoleTxCharacterSent
  /-- CON_RX_READ: A read of PWR_CON_RX returns the FIFO head and loads the next character (R84). -/
  | conRxRead (req : Requester)
  /-- SENSOR_SAMPLE: Every 1 ms, or 10 ms in Roof Sleep, the Ridge reads every sensor and compares the results with the thermal and voltage limits (R87). -/
  | sensorSample (temps : List Half) (mv : List Nat)
  /-- THERMTRIP: A die sensor reaches 125 °C: THERMTRIP_N and every accelerator output go low within 10 µs (R89). -/
  | thermtrip
  /-- THERM_THRESH_WRITE: A write of PWR_THERM_THRESH is taken whole, or ignored and counted if any value is out of range (R88). -/
  | thermThreshWrite (req : Requester) (v : Word)
  /-- ACC_ON_REQUEST: An on request drives ACCn_PWR_EN high, or performs step 3 only for an accelerator held in reset (R91). -/
  | accOnRequest (n : Nat)
  /-- ACC_OFF_REQUEST: An off request drives ACCn_RST_N low and begins the 1 ms wait (R91). -/
  | accOffRequest (n : Nat)
  /-- ACC_RESET_PULSE: A reset pulse request drives ACCn_RST_N low for pulse_ms (R91). -/
  | accResetPulse (n : Nat)
  /-- ACC_PG_RISE: ACCn_PG goes high during power-up, which starts rst_delay_ms (R92). -/
  | accPgRise (n : Nat)
  /-- ACC_RST_DELAY_EXPIRY: rst_delay_ms passes and ACCn_RST_N goes high; the accelerator is running (R92). -/
  | accRstDelayExpiry (n : Nat)
  /-- ACC_OFF_DELAY_EXPIRY: 1 ms after reset asserts, ACCn_PWR_EN goes low and the state becomes off (R92). -/
  | accOffDelayExpiry (n : Nat)
  /-- ACC_PULSE_EXPIRY: pulse_ms passes and ACCn_RST_N goes high again (R92). -/
  | accPulseExpiry (n : Nat)
  /-- ACC_PG_TIMEOUT: ACCn_PG stays low until pg_timeout_ms, so the outputs drop and the state becomes fault (R93). -/
  | accPgTimeout (n : Nat)
  /-- ACC_PG_LOST: ACCn_PG falls while power is enabled, so the outputs drop and the state becomes fault (R93). -/
  | accPgLost (n : Nat)
  /-- THATCH_RELOAD: THATCH_CMD op reload strikes the named bay and starts fetching a bay image (R111). -/
  | thatchReload (req : Requester) (bay : Nat) (auto : Bool)
  /-- THATCH_FETCH_DONE: The image fetch completes, and checks 1 to 4 are made (R107). -/
  | thatchFetchDone (readOk : Bool) (image : List Byte)
  /-- THATCH_SIGNATURES_DONE: Hashing and verification of both signatures finish, giving check 5 (R104). -/
  | thatchSignaturesDone (sigsOk : Bool)
  /-- THATCH_CHECKS_DONE: Checks 6 to 10 finish, and the image passes or fails (R107). -/
  | thatchChecksDone
  /-- STRIKE_LIFT: After a failed check and the quiesce or drain limit, admission reopens and firmware restarts with reason 3 (R115). -/
  | strikeLift
  /-- THATCH_QUIESCE: Bay firmware's write of THATCH_QUIESCE stops every thread of the bay (R113). -/
  | thatchQuiesce (req : Requester) (bay : Nat) (go : Bool)
  /-- DRAIN_LIMIT_EXPIRY: THATCH_DRAIN_LIMIT passes without quiesce: threads stop and admitted operations short of commit end REFUSED_RELOAD (R113). -/
  | drainLimitExpiry
  /-- HOLD_LIMIT_EXPIRY: The bay's hold limit expires before commit, so waiting operations end REFUSED_RELOAD and HOLD_EXPIRED is raised (R114). -/
  | holdLimitExpiry (bay : Nat)
  /-- THATCH_APPLY_START: Once every check has passed and the bay has stopped, the image is applied (R116). -/
  | thatchApplyStart
  /-- THATCH_APPLY_DONE: Apply finishes; commit follows at once with auto_commit, or a failure enters Tarp mode (R116). -/
  | thatchApplyDone (ok : Bool)
  /-- THATCH_COMMIT_OP: THATCH_CMD op commit in phase 3 commits the loaded bay image (R117). -/
  | thatchCommitOp (req : Requester) (bay : Nat)
  /-- THATCH_CANCEL: THATCH_CMD op cancel lifts the strike in phase 1 or reapplies the stored image in phase 2 or 3 (R118). -/
  | thatchCancel (req : Requester) (bay : Nat)
  /-- THATCH_REAPPLY_DONE: The stored image has been reapplied, admission reopens and firmware starts with reason 6 (R118). -/
  | thatchReapplyDone (ok : Bool)
  /-- POWER_BUDGET_TICK: Every 1 ms, the bay's rafter clock cap moves by 100 MHz toward its power budget (R121). -/
  | powerBudgetTick (bay : Nat) (estimate : Nat)
  /-- SLAB_INSTRUCTION: A slab major dispatches a request to an owned, running, version-matched slab, or traps CPABSENT (R122). -/
  | slabInstruction (tid : Tid) (slab : BitVec 2) (ver : BitVec 4) (rd rb : RegNo) (func : BitVec 12)
  /-- SLAB_RESPONSE: A slab response writes its result, or a nonzero status raises CPFAULT (R123). -/
  | slabResponse (tid : Tid) (slab : BitVec 2) (result : Dword) (status : BitVec 4)
  /-- SLAB_TIMEOUT: No response within latency_max slab cycles: CPFAULT status 0xF and the late response is discarded (R123). -/
  | slabTimeout (tid : Tid)
  /-- SLAB_MEMORY_ACCESS: A slab memory access is served through its bay's mapping, or discarded with SLAB_FAULT (R124). -/
  | slabMemoryAccess (slab : BitVec 2) (addr : Dword) (write : Bool) (bytes : List Byte)
  /-- ADD: ALU add (R138). -/
  | add (tid : Tid) (w : Bool) (rd ra rb : RegNo)
  /-- SUB: ALU subtract (R138). -/
  | sub (tid : Tid) (w : Bool) (rd ra rb : RegNo)
  /-- AND: ALU bitwise and (R138). -/
  | and (tid : Tid) (w : Bool) (rd ra rb : RegNo)
  /-- OR: ALU bitwise or (R138). -/
  | or (tid : Tid) (w : Bool) (rd ra rb : RegNo)
  /-- XOR: ALU bitwise exclusive or (R138). -/
  | xor (tid : Tid) (w : Bool) (rd ra rb : RegNo)
  /-- ANDN: ALU and with the complement of g[rb] (R138). -/
  | andn (tid : Tid) (w : Bool) (rd ra rb : RegNo)
  /-- SLL: Shift left (R138). -/
  | sll (tid : Tid) (w : Bool) (rd ra rb : RegNo)
  /-- SRL: Shift right with zero fill (R138). -/
  | srl (tid : Tid) (w : Bool) (rd ra rb : RegNo)
  /-- SRA: Shift right with sign fill (R138). -/
  | sra (tid : Tid) (w : Bool) (rd ra rb : RegNo)
  /-- ROTR: Rotate right (R138). -/
  | rotr (tid : Tid) (w : Bool) (rd ra rb : RegNo)
  /-- SLT: Signed set-less-than (R138). -/
  | slt (tid : Tid) (w : Bool) (rd ra rb : RegNo)
  /-- SLTU: Unsigned set-less-than (R138). -/
  | sltu (tid : Tid) (w : Bool) (rd ra rb : RegNo)
  /-- MIN: Signed minimum (R138). -/
  | min (tid : Tid) (w : Bool) (rd ra rb : RegNo)
  /-- MAX: Signed maximum (R138). -/
  | max (tid : Tid) (w : Bool) (rd ra rb : RegNo)
  /-- MINU: Unsigned minimum (R138). -/
  | minu (tid : Tid) (w : Bool) (rd ra rb : RegNo)
  /-- MAXU: Unsigned maximum (R138). -/
  | maxu (tid : Tid) (w : Bool) (rd ra rb : RegNo)
  /-- CLZ: Count leading zeros (R138). -/
  | clz (tid : Tid) (w : Bool) (rd ra : RegNo)
  /-- CTZ: Count trailing zeros (R138). -/
  | ctz (tid : Tid) (w : Bool) (rd ra : RegNo)
  /-- POPC: Count ones (R138). -/
  | popc (tid : Tid) (w : Bool) (rd ra : RegNo)
  /-- BSWAP: Byte reversal (R138). -/
  | bswap (tid : Tid) (w : Bool) (rd ra : RegNo)
  /-- SEXTB: Sign-extend bits 7:0 (R138). -/
  | sextb (tid : Tid) (rd ra : RegNo)
  /-- SEXTH: Sign-extend bits 15:0 (R138). -/
  | sexth (tid : Tid) (rd ra : RegNo)
  /-- SEXTW: Sign-extend bits 31:0 (R138). -/
  | sextw (tid : Tid) (rd ra : RegNo)
  /-- ADDI: Add a sign-extended immediate (R136). -/
  | addi (tid : Tid) (rd ra : RegNo) (imm : Half)
  /-- ANDI: And with a zero-extended immediate (R136). -/
  | andi (tid : Tid) (rd ra : RegNo) (imm : Half)
  /-- ORI: Or with a zero-extended immediate (R136). -/
  | ori (tid : Tid) (rd ra : RegNo) (imm : Half)
  /-- XORI: Exclusive or with a zero-extended immediate (R136). -/
  | xori (tid : Tid) (rd ra : RegNo) (imm : Half)
  /-- SHI: Shift or rotate by an immediate amount (R136). -/
  | shi (tid : Tid) (op : ShOp) (w : Bool) (rd ra : RegNo) (sh : BitVec 6)
  /-- SLTI: Signed set-less-than against an immediate (R136). -/
  | slti (tid : Tid) (rd ra : RegNo) (imm : Half)
  /-- SLTIU: Unsigned set-less-than against an immediate (R136). -/
  | sltiu (tid : Tid) (rd ra : RegNo) (imm : Half)
  /-- LUI: Load an upper immediate (R136). -/
  | lui (tid : Tid) (rd : RegNo) (imm : Half)
  /-- MUL: Low 64 bits of the product (R139). -/
  | mul (tid : Tid) (w : Bool) (rd ra rb : RegNo)
  /-- MULH: High 64 bits of the signed product (R139). -/
  | mulh (tid : Tid) (w : Bool) (rd ra rb : RegNo)
  /-- MULHU: High 64 bits of the unsigned product (R139). -/
  | mulhu (tid : Tid) (w : Bool) (rd ra rb : RegNo)
  /-- DIV: Signed division without trap; the thread is held (R139). -/
  | div (tid : Tid) (w : Bool) (rd ra rb : RegNo)
  /-- DIVU: Unsigned division without trap (R139). -/
  | divu (tid : Tid) (w : Bool) (rd ra rb : RegNo)
  /-- REM: Signed remainder (R139). -/
  | rem (tid : Tid) (w : Bool) (rd ra rb : RegNo)
  /-- REMU: Unsigned remainder (R139). -/
  | remu (tid : Tid) (w : Bool) (rd ra rb : RegNo)
  /-- LB: Load a sign-extended byte (R140). -/
  | lb (tid : Tid) (rd ra : RegNo) (imm : Half)
  /-- LBU: Load a zero-extended byte (R140). -/
  | lbu (tid : Tid) (rd ra : RegNo) (imm : Half)
  /-- LH: Load a sign-extended half (R140). -/
  | lh (tid : Tid) (rd ra : RegNo) (imm : Half)
  /-- LHU: Load a zero-extended half (R140). -/
  | lhu (tid : Tid) (rd ra : RegNo) (imm : Half)
  /-- LW: Load a sign-extended word (R140). -/
  | lw (tid : Tid) (rd ra : RegNo) (imm : Half)
  /-- LWU: Load a zero-extended word (R140). -/
  | lwu (tid : Tid) (rd ra : RegNo) (imm : Half)
  /-- LD: Load a dword, translated through the pane walk (R140). -/
  | ld (tid : Tid) (rd ra : RegNo) (imm : Half)
  /-- SB: Store a byte (R140). -/
  | sb (tid : Tid) (rd ra : RegNo) (imm : Half)
  /-- SH: Store a half (R140). -/
  | sh (tid : Tid) (rd ra : RegNo) (imm : Half)
  /-- SW: Store a word (R140). -/
  | sw (tid : Tid) (rd ra : RegNo) (imm : Half)
  /-- SD: Store a dword (R140). -/
  | sd (tid : Tid) (rd ra : RegNo) (imm : Half)
  /-- AMOSWAP: Atomic swap (R141). -/
  | amoswap (tid : Tid) (dword aq rl : Bool) (rd ra rb : RegNo)
  /-- AMOADD: Atomic add (R141). -/
  | amoadd (tid : Tid) (dword aq rl : Bool) (rd ra rb : RegNo)
  /-- AMOAND: Atomic and (R141). -/
  | amoand (tid : Tid) (dword aq rl : Bool) (rd ra rb : RegNo)
  /-- AMOOR: Atomic or (R141). -/
  | amoor (tid : Tid) (dword aq rl : Bool) (rd ra rb : RegNo)
  /-- AMOXOR: Atomic exclusive or (R141). -/
  | amoxor (tid : Tid) (dword aq rl : Bool) (rd ra rb : RegNo)
  /-- AMOMIN: Atomic signed minimum (R141). -/
  | amomin (tid : Tid) (dword aq rl : Bool) (rd ra rb : RegNo)
  /-- AMOMAX: Atomic signed maximum (R141). -/
  | amomax (tid : Tid) (dword aq rl : Bool) (rd ra rb : RegNo)
  /-- AMOMINU: Atomic unsigned minimum (R141). -/
  | amominu (tid : Tid) (dword aq rl : Bool) (rd ra rb : RegNo)
  /-- AMOMAXU: Atomic unsigned maximum (R141). -/
  | amomaxu (tid : Tid) (dword aq rl : Bool) (rd ra rb : RegNo)
  /-- CAS: Atomic compare and swap (R141). -/
  | cas (tid : Tid) (dword aq rl : Bool) (rd ra rb : RegNo)
  /-- FENCE_ACQ: Acquire fence (R172). -/
  | fenceAcq (tid : Tid)
  /-- FENCE_REL: Release fence; completes once earlier stores are performed or failed (R176). -/
  | fenceRel (tid : Tid)
  /-- FENCE_FULL: Full fence (R176). -/
  | fenceFull (tid : Tid)
  /-- FENCE_I: Instruction fetch fence (R172). -/
  | fenceI (tid : Tid)
  /-- MFS: Read a system register into a general register (R156). -/
  | mfs (tid : Tid) (rd : RegNo) (n : BitVec 7)
  /-- MTS: Write a system register that has no row of its own (R156). -/
  | mts (tid : Tid) (ra : RegNo) (n : BitVec 7)
  /-- TCTL_START: MTS to TCTL with action start starts a parked thread of the bay (R161). -/
  | tctlStart (tid : Tid) (ra : RegNo)
  /-- TCTL_RESET: MTS to TCTL with action reset puts a thread of the bay in the thread-reset state (R161). -/
  | tctlReset (tid : Tid) (ra : RegNo)
  /-- PANE_INV: MTS to PANE_INV invalidates cached pane entries in every rafter of the bay (R170). -/
  | paneInv (tid : Tid) (ra : RegNo)
  /-- SWTRAP: Software trap with code n (R157). -/
  | swtrap (tid : Tid) (n : BitVec 7)
  /-- BREAK: Breakpoint trap (R157). -/
  | brk (tid : Tid)
  /-- ERET: Return from trap (R181). -/
  | eret (tid : Tid)
  /-- FADD: Floating-point add per lane (R149). -/
  | fadd (tid : Tid) (fmt : BitVec 3) (rd ra rb : RegNo)
  /-- FSUB: Floating-point subtract per lane (R149). -/
  | fsub (tid : Tid) (fmt : BitVec 3) (rd ra rb : RegNo)
  /-- FMUL: Floating-point multiply per lane (R149). -/
  | fmul (tid : Tid) (fmt : BitVec 3) (rd ra rb : RegNo)
  /-- FMADD: Fused multiply-add per lane (R149). -/
  | fmadd (tid : Tid) (fmt : BitVec 3) (rd ra rb : RegNo)
  /-- FMIN: minimumNumber per lane (R149). -/
  | fmin (tid : Tid) (fmt : BitVec 3) (rd ra rb : RegNo)
  /-- FMAX: maximumNumber per lane (R149). -/
  | fmax (tid : Tid) (fmt : BitVec 3) (rd ra rb : RegNo)
  /-- FDIV: fp32 divide (R149). -/
  | fdiv (tid : Tid) (rd ra rb : RegNo)
  /-- FSQRT: fp32 square root (R149). -/
  | fsqrt (tid : Tid) (rd ra : RegNo)
  /-- FEQ: Compare equal per lane (R149). -/
  | feq (tid : Tid) (fmt : BitVec 3) (rd ra rb : RegNo)
  /-- FLT: Compare less than per lane (R149). -/
  | flt (tid : Tid) (fmt : BitVec 3) (rd ra rb : RegNo)
  /-- FLE: Compare less than or equal per lane (R149). -/
  | fle (tid : Tid) (fmt : BitVec 3) (rd ra rb : RegNo)
  /-- FABS: Clear each lane's sign (R149). -/
  | fabs (tid : Tid) (fmt : BitVec 3) (rd ra : RegNo)
  /-- FNEG: Invert each lane's sign (R149). -/
  | fneg (tid : Tid) (fmt : BitVec 3) (rd ra : RegNo)
  /-- CVT_N: Narrowing conversion (R130). -/
  | cvtN (tid : Tid) (fmt : BitVec 3) (kind sat src : Bool) (rd ra rb : RegNo)
  /-- CVT_WL: Widen the low half of the lanes (R149). -/
  | cvtWl (tid : Tid) (fmt : BitVec 3) (kind sat src : Bool) (rd ra : RegNo)
  /-- CVT_WH: Widen the high half of the lanes (R149). -/
  | cvtWh (tid : Tid) (fmt : BitVec 3) (kind sat src : Bool) (rd ra : RegNo)
  /-- F2I: fp32 to i64 conversion (R149). -/
  | f2i (tid : Tid) (rd ra : RegNo)
  /-- I2F: i64 to fp32 conversion (R149). -/
  | i2f (tid : Tid) (rd ra : RegNo)
  /-- BEQ: Branch if equal (R142). -/
  | beq (tid : Tid) (ra rb : RegNo) (off : Half)
  /-- BNE: Branch if unequal (R142). -/
  | bne (tid : Tid) (ra rb : RegNo) (off : Half)
  /-- BLT: Branch if signed less (R142). -/
  | blt (tid : Tid) (ra rb : RegNo) (off : Half)
  /-- BGE: Branch if signed greater or equal (R142). -/
  | bge (tid : Tid) (ra rb : RegNo) (off : Half)
  /-- BLTU: Branch if unsigned less (R142). -/
  | bltu (tid : Tid) (ra rb : RegNo) (off : Half)
  /-- BGEU: Branch if unsigned greater or equal (R142). -/
  | bgeu (tid : Tid) (ra rb : RegNo) (off : Half)
  /-- JAL: Jump and link into g31 (R142). -/
  | jal (tid : Tid) (off : BitVec 26)
  /-- J: Jump (R142). -/
  | j (tid : Tid) (off : BitVec 26)
  /-- JALR: Jump to a register target and link (R143). -/
  | jalr (tid : Tid) (rd ra : RegNo) (imm : Half)
  /-- DJNZ: Decrement and branch if nonzero (R144). -/
  | djnz (tid : Tid) (ra : RegNo) (off : Half)
  /-- DJNZL: Decrement and branch if nonzero, long reach (R144). -/
  | djnzl (tid : Tid) (ra : RegNo) (off : BitVec 20)
  /-- BLOG: Logic on private bits (R147). -/
  | blog (tid : Tid) (op : BlogOp) (bd ba b2 : Byte)
  /-- SETB: Set a private bit from a comparison (R147). -/
  | setb (tid : Tid) (cond : SetCond) (bd : Byte) (ra rb : RegNo)
  /-- BB: Branch on a bit (R147). -/
  | bb (tid : Tid) (sense : Bool) (bs : BitVec 9) (off : Half)
  /-- BSET: Set a bit (R146). -/
  | bset (tid : Tid) (bs : BitVec 9)
  /-- BCLR: Clear a bit (R146). -/
  | bclr (tid : Tid) (bs : BitVec 9)
  /-- BTOG: Toggle a bit (R146). -/
  | btog (tid : Tid) (bs : BitVec 9)
  /-- BTAS: Atomic test and set of a bit (R146). -/
  | btas (tid : Tid) (bs : BitVec 9) (bp : Byte)
  /-- BMOVT: Copy a private bit to a bit (R146). -/
  | bmovt (tid : Tid) (bs : BitVec 9) (bp : Byte)
  /-- BMOVF: Copy a bit to a private bit (R146). -/
  | bmovf (tid : Tid) (bs : BitVec 9) (bp : Byte)
  /-- BRD: Read a bit into a register (R146). -/
  | brd (tid : Tid) (bs : BitVec 9) (rg : RegNo)
  /-- BWR: Write a bit from a register (R146). -/
  | bwr (tid : Tid) (bs : BitVec 9) (rg : RegNo)
  /-- WAIT: Sleep until watched bits are set or the timeout passes (R148). -/
  | wait (tid : Tid) (all clr : Bool) (rd ra rb : RegNo)
  /-- WAIT_SATISFIED: A watched-bit change re-samples a waiting thread and satisfies its wait (R148). -/
  | waitSatisfied (tid : Tid)
  /-- WAIT_TIMEOUT: A WAIT's timeout expires and rd is set to 0 (R148). -/
  | waitTimeout (tid : Tid)
  /-- CHK: Range check against registers (R145). -/
  | chk (tid : Tid) (sgn : Bool) (rd ra rb : RegNo)
  /-- CHKI: Range check against an immediate (R145). -/
  | chki (tid : Tid) (ra : RegNo) (imm : BitVec 21)
  /-- CHKD: Range check against a descriptor in memory (R145). -/
  | chkd (tid : Tid) (sgn : Bool) (ra rb : RegNo)
  /-- MOVB: Memory move micro-routine (R152). -/
  | movb (tid : Tid) (esz : BitVec 2) (dir : Bool) (rd ra rb : RegNo) (steps : Nat)
  /-- FILL: Memory fill micro-routine (R152). -/
  | fill (tid : Tid) (esz : BitVec 2) (dir : Bool) (rd ra rb : RegNo) (steps : Nat)
  /-- SCANB: Memory scan micro-routine (R152). -/
  | scanb (tid : Tid) (esz : BitVec 2) (dir cond : Bool) (rd ra rb : RegNo) (steps : Nat)
  /-- CRCB: CRC32C micro-routine (R152). -/
  | crcb (tid : Tid) (rd ra rb : RegNo) (steps : Nat)
  /-- HASHB: Toeplitz hash micro-routine (R153). -/
  | hashb (tid : Tid) (rd ra rb : RegNo) (steps : Nat)
  /-- LIX: Load a 42-bit immediate (R137). -/
  | lix (tid : Tid) (rd : RegNo) (imm : BitVec 42)
  /-- LUIX: Load an upper 42-bit immediate (R137). -/
  | luix (tid : Tid) (rd : RegNo) (imm : BitVec 42)
  /-- ADDIX: Add an extended immediate (R137). -/
  | addix (tid : Tid) (rd ra : RegNo) (imm : BitVec 42)
  /-- ANDIX: And with an extended immediate (R137). -/
  | andix (tid : Tid) (rd ra : RegNo) (imm : BitVec 42)
  /-- ORIX: Or with an extended immediate (R137). -/
  | orix (tid : Tid) (rd ra : RegNo) (imm : BitVec 42)
  /-- XORIX: Exclusive or with an extended immediate (R137). -/
  | xorix (tid : Tid) (rd ra : RegNo) (imm : BitVec 42)
  /-- LDX: Load a dword at an extended displacement (R137). -/
  | ldx (tid : Tid) (rd ra : RegNo) (imm : BitVec 42)
  /-- LWX: Load a sign-extended word at an extended displacement (R137). -/
  | lwx (tid : Tid) (rd ra : RegNo) (imm : BitVec 42)
  /-- LWUX: Load a zero-extended word at an extended displacement (R137). -/
  | lwux (tid : Tid) (rd ra : RegNo) (imm : BitVec 42)
  /-- SDX: Store a dword at an extended displacement (R137). -/
  | sdx (tid : Tid) (rd ra : RegNo) (imm : BitVec 42)
  /-- SWX: Store a word at an extended displacement (R137). -/
  | swx (tid : Tid) (rd ra : RegNo) (imm : BitVec 42)
  /-- JALX: Jump and link with an extended offset (R137). -/
  | jalx (tid : Tid) (rd : RegNo) (imm : BitVec 42)
  /-- ILLEGAL_INSTRUCTION: A reserved, malformed, fp64 or 128-bit word traps ILLEGAL (R135). -/
  | illegalInstruction (tid : Tid) (w0 w1 : Word)
  /-- NO_COPROCESSOR_FITTED: A word of major 0x3B traps CPABSENT with reason 4 (R154). -/
  | noCoprocessorFitted (tid : Tid) (ver : BitVec 4) (rd rb : RegNo) (func : BitVec 12)
  /-- LEND: Loft coprocessor function that returns a chain's end (R385). -/
  | lend (tid : Tid) (ver : BitVec 4) (rd rb : RegNo)
  /-- LTICKET: Loft coprocessor function that returns LOFT_TICKET (R385). -/
  | lticket (tid : Tid) (ver : BitVec 4) (rd rb : RegNo)
  /-- LRETIRED: Loft coprocessor function that returns LOFT_RETIRED (R385). -/
  | lretired (tid : Tid) (ver : BitVec 4) (rd rb : RegNo)
  /-- LBUCKET: Loft coprocessor function that returns the bias bucket of a distance (R385). -/
  | lbucket (tid : Tid) (ver : BitVec 4) (rd rb : RegNo)
  /-- LPOOL: Loft coprocessor function that returns a pool's level (R385). -/
  | lpool (tid : Tid) (ver : BitVec 4) (rd rb : RegNo)
  /-- CRYPT_FUNCTION: Crypto coprocessor CRYPT under a control block (R428). -/
  | cryptFunction (tid : Tid) (ver : BitVec 4) (rd rb : RegNo)
  /-- RANDOM: Crypto coprocessor function that returns 64 random bits (R428). -/
  | random (tid : Tid) (ver : BitVec 4) (rd rb : RegNo)
  /-- KEYINFO: Crypto coprocessor function that returns a key's kind and permission (R428). -/
  | keyinfo (tid : Tid) (ver : BitVec 4) (rd rb : RegNo)
  /-- SHASH: Shingle coprocessor function that hashes one shingle (R406). -/
  | shash (tid : Tid) (ver : BitVec 4) (rd rb : RegNo)
  /-- SHASH_HI: Shingle coprocessor function that returns the latched hash bytes 8 to 15 (R406). -/
  | shashHi (tid : Tid) (ver : BitVec 4) (rd rb : RegNo)
  /-- SSTAT: Shingle coprocessor function that returns UL_STAT (R406). -/
  | sstat (tid : Tid) (ver : BitVec 4) (rd rb : RegNo)
  /-- ACCESS_COMPLETION: A blocking access, division or coprocessor request completes, and the thread becomes ready (R159). -/
  | accessCompletion (tid : Tid) (ans : Answer)
  /-- NONBLOCKING_LOAD_RETURN: The data of a non-blocking load returns to its destination register (R159). -/
  | nonblockingLoadReturn (tid : Tid) (rd : RegNo) (memErr : Bool)
  /-- POSTED_STORE_FAILURE: A posted store of the thread fails, so INT_STORE_ERR becomes pending (R177). -/
  | postedStoreFailure (tid : Tid) (addr : Nat) (status : Nat)
  /-- TDEADLINE_EXPIRY: FTIME reaches TDEADLINE, so INT_TIMER becomes pending and wakes the rafter (R177). -/
  | tdeadlineExpiry (tid : Tid)
  /-- INTERRUPT_TAKEN: A pending, enabled interrupt is taken at the next interrupt point, lowest code first (R179). -/
  | interruptTaken (tid : Tid)
  /-- EP_LINK_UP: An endpoint link trains up and EP_LINK_UP is raised (R186). -/
  | epLinkUp (ep speed width : Nat) (flit : Bool)
  /-- EP_LINK_DOWN: An endpoint link goes down, which stops every function of the endpoint (R203). -/
  | epLinkDown (ep : Nat)
  /-- LINK_HOT_RESET: A hot reset stops every function of the endpoint and resets its configuration (R203). -/
  | linkHotReset (ep : Nat)
  /-- PERST_ASSERT: PERST_N assertion stops and resets every function of the endpoint (R203). -/
  | perstAssert (ep : Nat)
  /-- PERST_DEASSERT: PERST_N deasserts: the SRIS strap is sampled and WAKE_N is released (R187). -/
  | perstDeassert (ep : Nat) (sris : Bool)
  /-- FLR: A Function Level Reset stops the function (R201). -/
  | flr (ep fn : Nat)
  /-- VF_ENABLE_CLEAR: Clearing VF Enable stops every VF of the PF (R201). -/
  | vfEnableClear (ep : Nat)
  /-- BUS_MASTER_ENABLE_CLEAR: Clearing Bus Master Enable stops the function (R201). -/
  | busMasterEnableClear (ep fn : Nat)
  /-- D3HOT_ENTRY: Entry into D3hot stops the function, and every VF when the function is a PF (R205). -/
  | d3hotEntry (ep fn : Nat)
  /-- D0_RETURN: A function returns to D0, keeping its configuration with its queue pairs disabled, and pending MSI-X messages are sent (R205). -/
  | d0Return (ep fn : Nat)
  /-- FUNCTION_STOP_DONE: The stopped function's operations have ended OK or ABORTED, and FUNC_STOPPED is raised (R201). -/
  | functionStopDone (ep fn : Nat)
  /-- FLR_DONE: An FLR completes within 10 ms with the function at its reset values (R202). -/
  | flrDone (ep fn : Nat)
  /-- CONFIG_WRITE: A configuration write takes effect for implemented fields, and has no effect on options the device does not offer (R189). -/
  | configWrite (ep fn off : Nat) (v : Word) (be : BitVec 4)
  /-- APERTURE_ACCESS: A BAR2/3 TLP reaches device memory through its aperture, or is refused and counted (R193). -/
  | apertureAccess (ep off len : Nat) (write : Bool) (bytes : List Byte)
  /-- VF_DOORBELL_WRITE: A VF doorbell write acts on its owned queue pair, or is discarded and counted (R197). -/
  | vfDoorbellWrite (ep vf off : Nat) (v : Dword)
  /-- MSIX_UNMASK: Unmasking a vector sends its pending message if the function is in D0 (R198). -/
  | msixUnmask (ep fn vec : Nat)
  /-- ATS_INVALIDATE: An ATS invalidate request removes translations from the endpoint (R199). -/
  | atsInvalidate (ep fn addr size : Nat)
  /-- ATS_INVALIDATE_COMPLETION: Once every request that used the invalidated translations is performed, the Invalidate Completion is sent (R199). -/
  | atsInvalidateCompletion (ep : Nat)
  /-- COMPLETION_TIMEOUT: A non-posted request of the endpoint fails with host_timeout (R191). -/
  | completionTimeout (ep : Nat) (tid : Option Tid) (op : Nat)
  /-- PME_RESEND: In D3hot, PM_PME is resent every 100 ms while PME_Status stays set (R206). -/
  | pmeResend (ep fn : Nat)
  /-- L0P_WIDTH_HALVING: Use below 20 % for 1 ms requests halving the link width (R207). -/
  | l0pWidthHalving (ep : Nat)
  /-- L0P_WIDTH_RESTORE: A transmit backlog restores full link width within 1 µs (R207). -/
  | l0pWidthRestore (ep : Nat)
  /-- VF_STORAGE_WRITE: A write of IDENT_EP_VF_STORAGE is accepted only while VF Enable is 0 and the total stays at most 128 (R196). -/
  | vfStorageWrite (req : Requester) (ep : Nat) (v : Word)
  /-- MBX_PING: Mailbox message that returns identity (R209). -/
  | mbxPing
  /-- MBX_STATUS: Mailbox message that returns status registers (R209). -/
  | mbxStatus
  /-- BOOT_BEGIN: A push begins during a source 3 or 4 attempt, or the message returns NOT_NOW or BUSY (R211). -/
  | bootBegin
  /-- BOOT_BLOCK: One in-order block of the pushed boot image (R211). -/
  | bootBlock
  /-- BOOT_END: The push ends, and the image is checked (R211). -/
  | bootEnd
  /-- LOG_READ: Mailbox message that returns the oldest console log bytes (R209). -/
  | logRead
  /-- MBX_TARP_FORCE: Mailbox TARP_FORCE, which obeys ctl_lock only by chain or bare port (R209). -/
  | mbxTarpForce
  /-- MBX_RESET_WARM: Mailbox RESET_WARM warm-resets the device once its response has been sent (R74). -/
  | mbxResetWarm
  /-- MBX_ACC_POWER: Mailbox request for an accelerator power sequence (R209). -/
  | mbxAccPower
  /-- BARE_PORT_FRAME: An EtherType 0x88B5 frame on the bare port carries one mailbox message; other frames are discarded in Tarp mode (R210). -/
  | barePortFrame (etherType src : Nat) (msg : List Byte)
  /-- RP_LINK_UP: A root port link comes up and its device is checked (R213). -/
  | rpLinkUp (port : Nat) (type1 multiFn : Bool) (cls : Nat) (nss : List (Nat × Bool × Nat))
  /-- RP_LINK_DOWN: A root port link goes down, and outstanding SSD commands complete STOR_BACKEND_DOWN (R214). -/
  | rpLinkDown (port : Nat)
  /-- RING_ENABLE: A write of enable = 1 resets the indices and phases and enables the ring (R217). -/
  | ringEnable (req : Requester) (evr : Bool) (n : Nat)
  /-- RING_DISABLE: A write of enable = 0 makes the ring stopping and ends its operations with completions (R218). -/
  | ringDisable (req : Requester) (evr : Bool) (n : Nat)
  /-- RING_STOP_DONE: A stopping ring becomes disabled within 1 ms (R218). -/
  | ringStopDone (evr : Bool) (n : Nat)
  /-- DOORBELL_WRITE: An 8-byte queue pair doorbell makes descriptors available, sets the pending bits and wakes the service rafter (R222). -/
  | doorbellWrite (req : Requester) (n : Nat) (v : Dword)
  /-- EVENT_RING_DOORBELL: An event ring doorbell advances the consumer's head (R220). -/
  | eventRingDoorbell (req : Requester) (n : Nat) (v : Dword)
  /-- DESCRIPTOR_FETCH: The device fetches a descriptor, which becomes an operation, when the fetch conditions hold (R223). -/
  | descriptorFetch (qp : Nat) (host data : List Byte)
  /-- NOP: Completes OK at fetch (R226). -/
  | nop (qp : Nat) (opId : Dword) (flags : Nat)
  /-- ABORT: Ends its target short of the commit point, or completes ABORT_TOO_LATE (R241). -/
  | abort (qp : Nat) (opId : Dword) (flags : Nat) (target : Dword)
  /-- COPY: Moves len bytes from src to dst, drawing on pool 0 (R226). -/
  | copy (qp : Nat) (opId : Dword) (flags : Nat) (src dst : Dword) (len : Word)
  /-- COPY_DONE: A COPY's last write is posted, and it completes OK (R240). -/
  | copyDone (op : Nat) (host : List Byte) (failed : Nat)
  /-- CQ_STALL_TIMEOUT: With no free CQ slot for cq_stall_us, RING_CQ_STALL is raised and cq_full set (R224). -/
  | cqStallTimeout (qp : Nat)
  /-- NOTIFY_COALESCE_TIMEOUT: coal_us passes since the oldest unannounced entry, so a notification is sent (R219). -/
  | notifyCoalesceTimeout (kind n : Nat)
  /-- PARTNER_SYNC: A write of ADM_PREC_SYNC reloads the cached partner records (R230). -/
  | partnerSync (req : Requester) (v : Word)
  /-- PARTNER_RECORD_FILL: A missed partner record arrives from memory (R229). -/
  | partnerRecordFill (index evict : Nat)
  /-- ADMISSION: A waiting operation's bucket and pool allow it, so it is admitted and charged (R232). -/
  | admission (op : Nat)
  /-- ADMISSION_WAIT_EXPIRY: A wait limit expires and the operation is refused (R235). -/
  | admissionWaitExpiry (op : Nat)
  /-- SHEDDING_START: A waiting E operation exceeds e_tgt_us, so waiting S operations are refused (R234). -/
  | sheddingStart (pool : Nat)
  /-- SHEDDING_END: No E operation has exceeded e_tgt_us for 100 µs, so shedding ends (R234). -/
  | sheddingEnd (pool : Nat)
  /-- FRAME_RECEIVED: The eave MAC takes a frame and the switch forwards or floods it (R244). -/
  | frameReceived (port ts : Nat) (frame : List Byte) (fcsOk : Bool)
  /-- TRUSS_PARSE: A copy is parsed on its pipeline, classified and delivered (R252). -/
  | trussParse (copy : Nat)
  /-- REED_DISPATCH: A Reed processor takes a copy and runs its program (R255). -/
  | reedDispatch (copy : Nat)
  /-- REED_RETURN: A Reed program returns by SWTRAP, and Truss checks the return (R259). -/
  | reedReturn (copy : Nat)
  /-- REED_TIMEOUT: A program still running 4 µs after dispatch ends with REED_TIMEOUT (R260). -/
  | reedTimeout (copy : Nat)
  /-- RULE_ADD: Rule op add inserts an entry into staging (R265). -/
  | ruleAdd (req : Requester) (table : Nat)
  /-- RULE_DELETE: Rule op delete removes an entry from staging (R265). -/
  | ruleDelete (req : Requester) (table : Nat)
  /-- RULE_MODIFY: Rule op modify replaces an entry's action (R265). -/
  | ruleModify (req : Requester) (table : Nat)
  /-- RULE_SET_MISS: Rule op set_miss replaces a table's miss action (R265). -/
  | ruleSetMiss (req : Requester) (table : Nat)
  /-- RULE_COMMIT_OP: Rule op commit makes staging current, or waits with VERSION_BUSY (R267). -/
  | ruleCommitOp (req : Requester)
  /-- RULE_DISCARD: Rule op discard returns staging to the current content (R265). -/
  | ruleDiscard (req : Requester)
  /-- RULE_COMMIT_DEFERRED: The last copy under previous leaves flight, and the waiting commit takes effect (R267). -/
  | ruleCommitDeferred
  /-- TX: Sends one frame through the switch, drawing on pool 1 (R270). -/
  | tx (qp : Nat) (opId : Dword) (flags : Nat) (addr : Dword) (len : Word) (ctl tci l3 l4 : Half)
  /-- TX_DONE: The last byte is handed to the eave MAC, and TX completes (R240). -/
  | txDone (op : Nat) (host : List Byte) (failed : Nat)
  /-- RX_POST: Posts a receive buffer (R270). -/
  | rxPost (qp : Nat) (opId : Dword) (flags : Nat) (addr : Dword) (len : Word) (hlen : Half) (haddr : Dword)
  /-- LEARN: The learn pipeline applies a learn, with a move or flap handled under R275 (R274). -/
  | learn
  /-- ENTRY_AGEING: A dynamic entry without a hit for age_s seconds is removed (R276). -/
  | entryAgeing (vlan mac : Nat)
  /-- FDB_ADD_STATIC: SW_FDB_CMD op add_static (R277). -/
  | fdbAddStatic (req : Requester) (vlan : Nat)
  /-- FDB_DELETE: SW_FDB_CMD op delete (R277). -/
  | fdbDelete (req : Requester) (vlan : Nat)
  /-- FDB_LOOKUP: SW_FDB_CMD op lookup (R277). -/
  | fdbLookup (req : Requester) (vlan : Nat)
  /-- FDB_CLEAR_FLAP: SW_FDB_CMD op clear_flap removes the FLAPPING mark and the move history (R276). -/
  | fdbClearFlap (req : Requester) (vlan : Nat)
  /-- FDB_FLUSH: SW_FDB_CMD op 5 flushes the dynamic entries of a port (R277). -/
  | fdbFlush (req : Requester)
  /-- DORMER_OPEN: Opens a free window of the bay under its current generation (R281). -/
  | dormerOpen (qp : Nat) (opId : Dword) (flags : Nat) (conn : Word) (rights : Byte) (base size : Dword) (lifetimeUs : Word)
  /-- DORMER_REVOKE: Advances the window's generation and closes it (R283). -/
  | dormerRevoke (qp : Nat) (opId : Dword) (flags : Nat) (rref : Word)
  /-- DORMER_REVOKE_DONE: Every access accepted under the old generation has completed, and the revoke completes (R283). -/
  | dormerRevokeDone (op : Nat)
  /-- DORMER_EXPIRY: A window's lifetime passes: its generation advances and DORMER_EXPIRED is raised (R284). -/
  | dormerExpiry (w : Nat)
  /-- WINDOW_WRAP_HOLD_EXPIRY: After 1 s, a window whose generation wrapped returns to allocation (R285). -/
  | windowWrapHoldExpiry (w : Nat)
  /-- REGION_REG: Registers a region under a new tag and returns its key (R287). -/
  | regionReg (qp : Nat) (opId : Dword) (flags : Nat) (index : Word) (rights : Byte) (base len : Dword) (conn : Word)
  /-- REGION_DEREG: Clears a region entry's valid bit (R289). -/
  | regionDereg (qp : Nat) (opId : Dword) (flags : Nat) (key : Word)
  /-- REGION_DEREG_DONE: Accesses accepted under the key have completed, and the deregistration completes (R289). -/
  | regionDeregDone (op : Nat)
  /-- SEND_PACKET: A received eave SEND packet is processed under go-back-N (R301). -/
  | sendPacket (h : PktHdr) (payload : List Byte)
  /-- WRITE_PACKET: A received eave WRITE packet is checked and performed (R301). -/
  | writePacket (h : PktHdr) (rh : RemHdr) (payload : List Byte)
  /-- READ_REQ_PACKET: A received READ_REQ is answered with n READ_RESP packets (R294). -/
  | readReqPacket (h : PktHdr) (rh : RemHdr) (len : Word)
  /-- READ_RESP_PACKET: A READ_RESP is written into local memory (R306). -/
  | readRespPacket (h : PktHdr) (payload : List Byte)
  /-- FETCH_ADD_PACKET: A received FETCH_ADD is performed or answered from the replay cache (R302). -/
  | fetchAddPacket (h : PktHdr) (rh : RemHdr) (opnd1 : Dword)
  /-- CMP_SWAP_PACKET: A received CMP_SWAP is performed or answered from the replay cache (R302). -/
  | cmpSwapPacket (h : PktHdr) (rh : RemHdr) (opnd1 opnd2 : Dword)
  /-- ATOMIC_RESP_PACKET: An ATOMIC_RESP ends its atomic with the old value (R306). -/
  | atomicRespPacket (h : PktHdr) (old : Dword)
  /-- WINDOW_NOTIFY_PACKET: A received WINDOW_NOTIFY raises an event on the home ring's event ring (R320). -/
  | windowNotifyPacket (h : PktHdr) (window gen : Half) (rights : Byte) (size1 : Dword) (cookie : Word)
  /-- ACK_PACKET: An ACK advances una and ends operations whose commit point it reaches (R306). -/
  | ackPacket (h : PktHdr)
  /-- NAK_PACKET: A SEQ_NAK triggers a resend, an RNR_NAK a wait, and a terminal NAK ends its operation (R306). -/
  | nakPacket (h : PktHdr) (syndrome : Byte) (value : Half)
  /-- BAD_EAVE_PACKET: A packet with a bad version or opcode is discarded and counted (R293). -/
  | badEavePacket (h : PktHdr) (version opcode : Nat)
  /-- RETRY_TIMEOUT: retry_us passes without an advance, so outstanding packets are resent or the connection enters ERROR (R307). -/
  | retryTimeout (conn : Nat)
  /-- RNR_WAIT_EXPIRY: After the RNR wait, the sender resends from the NAK's PSN (R308). -/
  | rnrWaitExpiry (conn : Nat)
  /-- ACK_COALESCE_TIMEOUT: coal_ns passes since the first unacknowledged packet, so an ACK is sent (R305). -/
  | ackCoalesceTimeout (conn : Nat)
  /-- CONTEXT_FILL_DONE: An uncached connection context arrives, or a failed fill puts the connection in ERROR (R299). -/
  | contextFillDone (conn : Nat) (ok : Bool)
  /-- SEND: Eave transport send of a message (R294). -/
  | send (qp : Nat) (opId : Dword) (flags : Nat) (conn : Word) (len : Word) (laddr : Dword)
  /-- WRITE: Eave transport remote write (R294). -/
  | write (qp : Nat) (opId : Dword) (flags : Nat) (conn : Word) (rkind : Byte) (rref len : Word) (roffset laddr : Dword)
  /-- READ: Eave transport remote read (R294). -/
  | read (qp : Nat) (opId : Dword) (flags : Nat) (conn : Word) (rkind : Byte) (rref len : Word) (roffset laddr : Dword)
  /-- FETCH_ADD: Eave transport remote fetch-add (R302). -/
  | fetchAdd (qp : Nat) (opId : Dword) (flags : Nat) (conn : Word) (rkind : Byte) (rref len : Word) (roffset laddr opnd1 : Dword)
  /-- CMP_SWAP: Eave transport remote compare-swap (R302). -/
  | cmpSwap (qp : Nat) (opId : Dword) (flags : Nat) (conn : Word) (rkind : Byte) (rref len : Word) (roffset laddr opnd1 opnd2 : Dword)
  /-- WINDOW_NOTIFY: Sends a window notification to the peer (R320). -/
  | windowNotify (qp : Nat) (opId : Dword) (flags : Nat) (conn rref cookie : Word)
  /-- RECV_POST: Posts a receive buffer for SEND messages (R319). -/
  | recvPost (qp : Nat) (opId : Dword) (flags : Nat) (conn : Word) (addr : Dword) (len : Word)
  /-- CONN_OPEN: Opens a connection from a parameter block (R295). -/
  | connOpen (qp : Nat) (opId : Dword) (flags : Nat) (conn : Word) (params : Dword)
  /-- CONN_CLOSE: Puts a connection in CLOSING (R298). -/
  | connClose (qp : Nat) (opId : Dword) (flags : Nat) (conn : Word)
  /-- CONN_CLOSE_DONE: Outstanding operations have ended and the connection becomes FREE (R298). -/
  | connCloseDone (conn : Nat)
  /-- CONN_QUERY: Returns the connection's state and PSNs (R298). -/
  | connQuery (qp : Nat) (opId : Dword) (flags : Nat) (conn : Word)
  /-- PFC_FRAME_RECEIVED: A received PFC frame pauses or resumes a priority (R311). -/
  | pfcFrameReceived (port : Nat) (enables : Byte) (quanta : List Half)
  /-- PFC_REFRESH: An asserted XOFF is refreshed at half the pause time (R311). -/
  | pfcRefresh (port q : Nat)
  /-- PFC_STORM_DETECTED: A pause lasts storm_ms, so PFC_STORM is raised and pause is ignored or frames dropped (R312). -/
  | pfcStormDetected (port q : Nat) (own : Bool)
  /-- PFC_STORM_RECOVERY: recover_ms ends, or the storm condition ends, and PFC_STORM is raised with ended set (R312). -/
  | pfcStormRecovery (port q : Nat) (own : Bool)
  /-- RATE_INCREASE_TIMER: Every 55 µs without a decrease, alpha decays and the connection's rate rises (R315). -/
  | rateIncreaseTimer (conn : Nat)
  /-- NAWYN_LINK_ENABLE: Setting enable starts link training at detection (R325). -/
  | nawynLinkEnable (req : Requester) (link : Nat) (v : Word)
  /-- NAWYN_LINK_DISABLE: Clearing enable takes the link down (R326). -/
  | nawynLinkDisable (req : Requester) (link : Nat) (v : Word)
  /-- NAWYN_DETECT_RETRY: With no peer detected, detection repeats every 10 ms (R325). -/
  | nawynDetectRetry (link : Nat)
  /-- NAWYN_PEER_DETECTED: A peer receiver is detected and clock recovery begins (R325). -/
  | nawynPeerDetected (link : Nat)
  /-- NAWYN_ALIGN_DONE: Lanes are aligned and a width is chosen, or training restarts (R325). -/
  | nawynAlignDone (link : Nat) (lanes : BitVec 4)
  /-- NAWYN_EXCHANGE: Parameters are exchanged and the link enters flit mode (R333). -/
  | nawynExchange (link peer : Nat) (peerHalf : Bool) (credits : List Nat) (schedId : Word) (armAt : Dword) (ok : Bool)
  /-- LANE_LOCK_LOSS: A lane loses lock and the link retrains (R326). -/
  | laneLockLoss (link : Nat)
  /-- NAWYN_RETRAIN_DONE: A retraining ends; after three failures within 100 ms the link goes down (R326). -/
  | nawynRetrainDone (link : Nat) (lanes : BitVec 4) (ok : Bool)
  /-- NAK_FLIT: A NAK flit makes the sender replay from its seq (R329). -/
  | nakFlit (link : Nat) (h : FlitAck) (seq : Nat)
  /-- LINK_ACK_RECEIVED: An advancing flit ack frees replay entries and commits the messages it completes (R329). -/
  | linkAckReceived (link : Nat) (h : FlitAck)
  /-- REPLAY_TIMEOUT: replay_ns passes without the ack advancing, so flits are replayed from the oldest unacknowledged (R329). -/
  | replayTimeout (link : Nat)
  /-- TIME_FLIT: A received TIME flit updates delay and offset and checks the peer's schedule (R342). -/
  | timeFlit (link : Nat) (h : FlitAck) (tTx tRxPrev tTxPrev : Dword) (schedId : Word) (armAt : Dword)
  /-- TIME_FLIT_TICK: Every 10 µs, each end of an up link sends a TIME flit (R342). -/
  | timeFlitTick (link : Nat)
  /-- NAWYN_SEND: A SEND message is delivered into an NRECV_POST, or dropped with UNDELIVERED (R339). -/
  | nawynSend (m : NHdr) (payload : List Byte)
  /-- NAWYN_WRITE: A WRITE message is performed through an aperture, or refused (R336). -/
  | nawynWrite (m : NHdr) (payload : List Byte)
  /-- NAWYN_READ_REQ: A READ_REQ message is answered with a READ_RESP (R336). -/
  | nawynReadReq (m : NHdr) (host : List Byte) (failed : Bool)
  /-- NAWYN_READ_RESP: A READ_RESP completes a thread load or an NREAD, or is discarded as late (R337). -/
  | nawynReadResp (m : NHdr) (payload : List Byte)
  /-- UNDELIVERED: An UNDELIVERED message reaches its source, which raises NAWYN_UNDELIVERED (R335). -/
  | undelivered (m : NHdr) (dropped : List Byte)
  /-- BOOT_MESSAGE: A link-local BOOT message carries one Ridge mailbox message (R333). -/
  | bootMessage (m : NHdr) (payload : List Byte)
  /-- PACKET_MESSAGE: A PACKET message is delivered on pkt_qp (R339). -/
  | packetMessage (m : NHdr) (payload : List Byte)
  /-- NAWYN_BAD_MTYPE: A message with an unlisted mtype is discarded and counted (R331). -/
  | nawynBadMtype (m : NHdr) (mtype : Byte) (payload : List Byte)
  /-- NSEND: Sends a Nawyn SEND message (R338). -/
  | nsend (qp : Nat) (opId : Dword) (flags : Nat) (node : Half) (tc : Byte) (dstQp : Half) (laddr : Dword) (len : Word)
  /-- NWRITE: Sends a Nawyn WRITE message (R338). -/
  | nwrite (qp : Nat) (opId : Dword) (flags : Nat) (node : Half) (tc : Byte) (laddr : Dword) (len : Word) (roffset : Dword)
  /-- NREAD: Sends a Nawyn READ_REQ (R338). -/
  | nread (qp : Nat) (opId : Dword) (flags : Nat) (node : Half) (tc : Byte) (laddr : Dword) (len : Word) (roffset : Dword)
  /-- NRECV_POST: Posts a Nawyn receive buffer (R338). -/
  | nrecvPost (qp : Nat) (opId : Dword) (flags : Nat) (addr : Dword) (len : Word)
  /-- READ_TIMEOUT: No READ_RESP arrives within read_timeout_us: node_timeout, or NODE_TIMEOUT (R337). -/
  | readTimeout (tag : Nat)
  /-- MESSAGE_START: A waiting message starts when its window or open time has room for it (R348). -/
  | messageStart (link tc : Nat) (host : List Byte)
  /-- COURSE_ARM: NAWYN_CRS_CMD arm stages a schedule, or sets BAD_SCHEDULE or LATE (R345). -/
  | courseArm (req : Requester) (link : Nat)
  /-- COURSE_ACTIVATION: At arm_at, the staged schedule becomes active and COURSE_ACTIVE is raised (R345). -/
  | courseActivation (link : Nat)
  /-- WINDOW_INSTANCE_END: A window instance ends with no message of its class, and is counted as empty (R352). -/
  | windowInstanceEnd (link w k : Nat)
  /-- TIME_OFS_WRITE: A write of NAWYN_TIME_OFS slews, steps or slows fabric time (R343). -/
  | timeOfsWrite (req : Requester) (v : Dword)
  /-- PTP_TIMESTAMP: A PTP event message on an enabled sub-port is timestamped into the FIFO (R344). -/
  | ptpTimestamp (port : Nat) (tx : Bool) (msgType seqId : Nat)
  /-- PTP_TIME_READ: A read of NAWYN_PTP_TIME returns the head entry and pops it (R344). -/
  | ptpTimeRead (req : Requester)
  /-- LATE_MAX_READ: A read of NAWYN_LATE_MAX returns the largest lateness and clears it (R352). -/
  | lateMaxRead (req : Requester) (link : Nat)
  /-- LOFT_APPEND: A Nawyn append arrives and is checked (R364). -/
  | loftAppend (m : NHdr) (payload : List Byte)
  /-- LAPPEND: Ring append operation (R364). -/
  | lappend (qp : Nat) (opId : Dword) (flags : Nat) (addr : Dword) (len : Word) (host : List Byte)
  /-- LOFT_APPEND_DONE: An append's writes are performed, the chain's end advances and the ack or completion is sent (R365). -/
  | loftAppendDone (op : Nat)
  /-- LOFT_QUERY: A Nawyn query arrives and is checked (R370). -/
  | loftQuery (m : NHdr) (payload : List Byte)
  /-- LQUERY: Ring query operation (R370). -/
  | lquery (qp : Nat) (opId : Dword) (flags : Nat) (addr : Dword) (len : Word) (raddr : Dword) (rlen : Word) (host : List Byte)
  /-- LOFT_QUERY_DONE: A query's rows are formed and its LOFT_RESULT is sent or written (R377). -/
  | loftQueryDone (op : Nat) (memErr : Bool)
  /-- LBIAS_LOAD: Copies a bias set into scratch and checks it (R375). -/
  | lbiasLoad (qp : Nat) (opId : Dword) (flags : Nat) (set : Byte) (addr : Dword) (len : Word) (host : List Byte)
  /-- LBIAS_LOAD_DONE: Earlier queries using the set have ended, and the load completes (R375). -/
  | lbiasLoadDone (op : Nat)
  /-- LOFT_ABORT: Aborts the earliest outstanding request with the tag, or answers ABORT_TOO_LATE (R383). -/
  | loftAbort (m : NHdr)
  /-- LOFT_POOL_TAIL_WRITE: Firmware advances a pool's tail with new free addresses (R362). -/
  | loftPoolTailWrite (req : Requester) (pool : Nat) (v : Word)
  /-- UL_CUT: Arms a cut, takes a slot and sends CUT_REQUEST (R393). -/
  | ulCut (qp : Nat) (opId : Dword) (flags : Nat) (cutId : Word) (rangeCount : Half) (plan : Dword) (readyTimeoutMs : Word) (host : List Byte)
  /-- CUT_READY: A node's CUT_READY starts the copy of its group (R392). -/
  | cutReady (m : NHdr)
  /-- GROUP_COPY_DONE: A group's bytes are performed in the slot and CUT_COPIED is sent (R394). -/
  | groupCopyDone (group : Nat)
  /-- CUT_READY_TIMEOUT: ready_timeout_ms passes with a group not ready, so the cut is abandoned (R396). -/
  | cutReadyTimeout
  /-- CUT_ABANDON_COMPLETE: After outstanding reads end, CUT_ABANDON is sent, the slot is freed and CUT_ABANDONED is raised (R396). -/
  | cutAbandonComplete
  /-- UL_DRAIN: Starts hashing and draining a copied slot (R398). -/
  | ulDrain (qp : Nat) (opId : Dword) (flags : Nat) (cutId : Word) (targetCount manifestTarget dflags : Byte) (table manifestOffset capacity : Dword) (host : List Byte)
  /-- SHINGLE_HASHED: A shingle's hash is compared with the base, and a changed shingle is written (R399). -/
  | shingleHashed
  /-- SHINGLE_WRITE_ACK: A shingle write is acknowledged, or its failure ends the drain (R400). -/
  | shingleWriteAck (index status : Nat)
  /-- MANIFEST_BODY_ACK: The manifest body is acknowledged, and the header is written (R401). -/
  | manifestBodyAck (status : Nat)
  /-- MANIFEST_HEADER_ACK: The header acknowledgement commits the checkpoint and raises CUT_DURABLE (R401). -/
  | manifestHeaderAck (status : Nat)
  /-- UL_DRAIN_TIMEOUT_EXPIRY: drain_limit_s passes, and the drain ends UL_DRAIN_TIMEOUT (R398). -/
  | ulDrainTimeoutExpiry
  /-- UL_RESTORE: Restores shingles from manifests to destination nodes (R404). -/
  | ulRestore (qp : Nat) (opId : Dword) (flags : Nat) (manifestCount : Half) (targetCount : Byte) (mapCount : Word) (manifests targets maps : Dword) (host : List Byte)
  /-- RESTORE_SHINGLE_READ: A restored shingle has been read and its hash is verified before writing (R404). -/
  | restoreShingleRead (op : Nat) (data : List Byte) (status : Nat)
  /-- RESTORE_WRITE_ACK: A restore WRITE is acknowledged; the last one commits the restore (R404). -/
  | restoreWriteAck (op : Nat)
  /-- UL_RELEASE: Frees the slot of a copied cut (R402). -/
  | ulRelease (qp : Nat) (opId : Dword) (flags : Nat) (cutId : Word)
  /-- UL_BASE_INV: A write of UL_BASE_INV clears base_valid unless a drain runs (R389). -/
  | ulBaseInv (req : Requester) (v : Word)
  /-- NVME_SQ_DOORBELL: A submission queue tail doorbell sets the arrival of the commands it covers (R413). -/
  | nvmeSqDoorbell (c sq tail : Nat)
  /-- CREATE_IO_SUBMISSION_QUEUE: NVMe admin command (R408). -/
  | createIoSubmissionQueue (n : NCmd)
  /-- DELETE_IO_SUBMISSION_QUEUE: NVMe admin command (R408). -/
  | deleteIoSubmissionQueue (n : NCmd)
  /-- CREATE_IO_COMPLETION_QUEUE: NVMe admin command (R408). -/
  | createIoCompletionQueue (n : NCmd)
  /-- DELETE_IO_COMPLETION_QUEUE: NVMe admin command (R408). -/
  | deleteIoCompletionQueue (n : NCmd)
  /-- GET_LOG_PAGE: NVMe admin command (R408). -/
  | getLogPage (n : NCmd)
  /-- IDENTIFY: NVMe admin command (R408). -/
  | identify (n : NCmd)
  /-- NVME_ABORT: Aborts the command with the named SQID and CID if it is short of its commit point (R415). -/
  | nvmeAbort (n : NCmd)
  /-- SET_FEATURES: NVMe admin command (R408). -/
  | setFeatures (n : NCmd)
  /-- GET_FEATURES: NVMe admin command (R408). -/
  | getFeatures (n : NCmd)
  /-- ASYNCHRONOUS_EVENT_REQUEST: NVMe admin command (R408). -/
  | asynchronousEventRequest (n : NCmd)
  /-- NVME_FLUSH: Forwards a flush to every back-end of the namespace (R411). -/
  | nvmeFlush (n : NCmd)
  /-- NVME_WRITE: Encrypted write to the back-end (R417). -/
  | nvmeWrite (n : NCmd) (data : List Byte)
  /-- NVME_READ: Read with decryption (R417). -/
  | nvmeRead (n : NCmd)
  /-- WRITE_ZEROES: Writes encrypted zero blocks (R417). -/
  | writeZeroes (n : NCmd)
  /-- DATASET_MANAGEMENT: Deallocate, forwarded to the back-end (R408). -/
  | datasetManagement (n : NCmd) (ranges : List Byte)
  /-- INVALID_COMMAND_OPCODE: A command with an unlisted opcode completes Invalid Command Opcode (R409). -/
  | invalidCommandOpcode (n : NCmd) (opcode : Byte)
  /-- BACKEND_COMPLETION: An SSD completion or final ACK arrives, completing the NVMe command or being discarded (R415). -/
  | backendCompletion (op sct sc : Nat) (dnr : Bool) (data : List Byte)
  /-- NAMESPACE_VALID_WRITE: Setting or clearing STOR_NS valid raises Namespace Attribute Changed (R410). -/
  | namespaceValidWrite (req : Requester) (c k : Nat) (v : Word)
  /-- KEY_LOAD: Loads a key into the lowest free index (R426). -/
  | keyLoad (qp : Nat) (opId : Dword) (flags : Nat) (kind : Byte) (bayMask addr : Dword) (host : List Byte)
  /-- KEY_DESTROY: Ends KEY_BUSY, or waits for users of the key (R426). -/
  | keyDestroy (qp : Nat) (opId : Dword) (flags : Nat) (handle : Word)
  /-- KEY_DESTROY_DONE: Every use of the key has ended and the key is erased (R426). -/
  | keyDestroyDone (op : Nat)
  /-- CRYPT: Crypto engine operation under a control block (R427). -/
  | crypt (qp : Nat) (opId : Dword) (flags : Nat) (addr : Dword) (handle : Word) (host : List Byte)
  /-- FLOOR_ADVANCE: Raises the rollback floor and revokes slots (R427). -/
  | floorAdvance (qp : Nat) (opId : Dword) (flags : Nat) (floor ecdsa mldsa : Byte)
  /-- FLOOR_STEP_BLOWN: A floor step's fuses have been blown after 10 ms (R421). -/
  | floorStepBlown
  /-- GET_VERSION: SPDM request (R422). -/
  | getVersion (ep : Nat) (r : SpdmReq)
  /-- GET_CAPABILITIES: SPDM request (R422). -/
  | getCapabilities (ep : Nat) (r : SpdmReq)
  /-- NEGOTIATE_ALGORITHMS: SPDM request (R422). -/
  | negotiateAlgorithms (ep : Nat) (r : SpdmReq)
  /-- GET_DIGESTS: SPDM request (R422). -/
  | getDigests (ep : Nat) (r : SpdmReq)
  /-- GET_CERTIFICATE: SPDM request that returns the slot 0 chain (R423). -/
  | getCertificate (ep : Nat) (r : SpdmReq)
  /-- CHALLENGE: SPDM request (R422). -/
  | challenge (ep : Nat) (r : SpdmReq)
  /-- GET_MEASUREMENTS: SPDM request that returns the measurements of Table 14.8 (R422). -/
  | getMeasurements (ep : Nat) (r : SpdmReq)
  /-- KEY_EXCHANGE: SPDM request (R422). -/
  | keyExchange (ep : Nat) (r : SpdmReq)
  /-- FINISH: SPDM request (R422). -/
  | finish (ep : Nat) (r : SpdmReq)
  /-- HEARTBEAT: SPDM request (R422). -/
  | heartbeat (ep : Nat) (r : SpdmReq)
  /-- KEY_UPDATE: SPDM request (R422). -/
  | keyUpdate (ep : Nat) (r : SpdmReq)
  /-- END_SESSION: SPDM request (R422). -/
  | endSession (ep : Nat) (r : SpdmReq)
  /-- SPDM_UNSUPPORTED_REQUEST: Any other SPDM request receives ERROR UnsupportedRequest (R422). -/
  | spdmUnsupportedRequest (ep : Nat) (r : SpdmReq) (code : Byte)
  /-- QUERY: IDE_KM query (R424). -/
  | query (ep session portIndex : Nat)
  /-- KEY_PROG: IDE_KM key programming (R424). -/
  | keyProg (ep session stream : Nat) (keySet rx : Bool) (sub : Nat) (key : List Byte)
  /-- K_SET_GO: IDE_KM key set go (R424). -/
  | kSetGo (ep session stream : Nat) (keySet rx : Bool) (sub : Nat)
  /-- K_SET_STOP: IDE_KM key set stop (R424). -/
  | kSetStop (ep session stream : Nat) (keySet rx : Bool) (sub : Nat)
  /-- IDE_CHECK_FAILED: A TLP fails its integrity check, so the stream goes Insecure and IDE_FAIL is raised (R424). -/
  | ideCheckFailed (ep stream : Nat)
  /-- CHANNEL_ENABLE: A write of enable = 1 empties the slice, resets seq and the drain indices, and starts the channel (R433). -/
  | channelEnable (req : Requester) (c : Nat) (v : Word)
  /-- CHANNEL_DISABLE: A write of enable = 0 makes the channel stopping (R439). -/
  | channelDisable (req : Requester) (c : Nat) (v : Word)
  /-- CHANNEL_STOP_DONE: The stopping channel has drained its slice and becomes disabled (R439). -/
  | channelStopDone (c : Nat)
  /-- TRACE_PACKET_OFFERED: A source offers a packet that the channel takes, sheds or marks (R431). -/
  | tracePacketOffered (source typ : Nat) (payload : List Byte)
  /-- DRAIN_WRITE_DONE: A packet is performed in the drain ring and DTAIL advances, freeing slice room (R437). -/
  | drainWriteDone (c : Nat)
  /-- DHEAD_WRITE: The consumer advances DHEAD, which frees ring room (R438). -/
  | dheadWrite (req : Requester) (c : Nat) (v : Word)
  /-- DRAIN_STALL_TIMEOUT: The ring stays full for stall_us, so drain_stall is set and GUT_DRAIN_STALL raised (R438). -/
  | drainStallTimeout (c : Nat)
  /-- DRAIN_WRITE_FAULT: A drain write fails, the drain halts and GUT_DRAIN_FAULT is raised (R438). -/
  | drainWriteFault (c status reason : Nat)
  /-- GUT_MARK: An 8-byte write of GUT_MARK offers a MARK packet from source 46 (R448). -/
  | gutMark (req : Requester) (k : Nat) (v : Dword)
  /-- GSNAP: Snapshots histogram rows, optionally clearing them (R445). -/
  | gsnap (qp : Nat) (opId : Dword) (flags : Nat) (bank sflags : Byte) (first count : Word) (dst : Dword)
  /-- GCONN: Lists connections whose retransmit count is at least the threshold (R446). -/
  | gconn (qp : Nat) (opId : Dword) (flags : Nat) (first count : Word) (threshold dst : Dword) (dstLen : Word) (cflags : Byte)
  /-- GFLUSH: Waits until the channel's packets up to time T are in the drain ring (R447). -/
  | gflush (qp : Nat) (opId : Dword) (flags : Nat) (channel : Byte) (t : Dword) (timeoutUs : Word)
  /-- GFLUSH_DONE: Every packet up to T is covered by DTAIL, and the flush completes (R447). -/
  | gflushDone (op : Nat)
  /-- GFLUSH_TIMEOUT: timeout_us passes first, and the flush ends GUT_FLUSH_TIMEOUT (R447). -/
  | gflushTimeout (op : Nat)
  /-- PLL_LOCK_TIMEOUT: A fast domain's PLL does not lock within 1 ms; the domain stays Off and an apply fails (R459). -/
  | pllLockTimeout (d : Nat)
  /-- SPI_RESET_WAIT_EXPIRY: The 1 ms wait after the SPI reset pulse ends and the SFDP read begins (R461). -/
  | spiResetWaitExpiry
  /-- SFDP_READ_DONE: The SFDP table has been read and the fastest read mode is chosen for the image (R461). -/
  | sfdpReadDone (mode : Nat)
  /-- BOARD_PG_RISE: BOARD_PG rises after a recognised fall, ending the warm reset it held so that a new boot cycle can begin (R456). -/
  | boardPgRise
  /-- BOOT_READ_ERROR: A read error from a boot source ends the attempt with io_error at the moment it occurs (R420). -/
  | bootReadError
  /-- CONSOLE_BREAK_END: CON_RXD goes high after a break, so the receiver regains its footing and delivers characters again (R83). -/
  | consoleBreakEnd
  /-- CONSOLE_LINE_HOLD_EXPIRY: A software line held in the transmit FIFO for more than 10 ms without a line feed loses its protection from Ridge log insertion (R85). -/
  | consoleLineHoldExpiry
  /-- LINK_UP: An Ethernet sub-port comes up, raising LINK_UP, waking a Doze-limited eave or Truss domain and raising the pool 1 floor (R38). -/
  | linkUp (port : Nat)
  /-- LINK_DOWN: An Ethernet sub-port goes down, raising LINK_DOWN, lowering the pool 1 floor, possibly raising POOL_SHORT, and making TX to it complete TX_PORT_DOWN (R231). -/
  | linkDown (port : Nat)
  /-- BAD_FLIT: A received flit fails FEC or CRC, or a DATA flit is out of order, so it is discarded, counted and draws one NAK flit (R329). -/
  | badFlit (link how seq : Nat)
  /-- CONTEXT_WRITE_BACK_FAIL: The write-back of an evicted connection context fails with an uncorrectable error, putting the connection in ERROR (R299). -/
  | contextWriteBackFail (conn : Nat)
  /-- CLKREQ_N_DEASSERT: The endpoint's CLKREQ_N is deasserted while L1 substates are enabled, so the link enters L1.1 or L1.2 (R207). -/
  | clkreqNDeassert (ep : Nat)
deriving DecidableEq, Repr

end Sys2Proof
end

