-- ==== Sys2Proof/Decode.lean ====
section
/-! DEFINITION. Commands spelled by a word. The rows of spec/opcode_table.json give no bits: a command of this block is an
event, a register access or an operation, and no row has an encoding of its own (the Olxavon instruction words are decoded
in Machine/OlxCode.lean). -/

namespace Sys2Proof

/-- The command a word spells by the table's bits: none, for no row has bits. -/
def decodeTableWord (_nbits _w : Nat) : Option Instr := none

end Sys2Proof
end

