-- ==== Sys2Proof/Config.lean ====
section
/-! DEFINITION. What the spec leaves open: free values. Each is an opaque constant without a body, so no proof can see
what it is and a statement about it holds whatever it is. A step reads a fresh one by giving the counter
State.freeCtr (or the operands it depends on). -/

namespace Sys2Proof.Config

/-- A byte of memory that nothing has written since its contents were lost (02 R466): epoch of the loss, address. -/
opaque undefByte : Nat → Nat → Byte

/-- A fresh free 64-bit value. -/
opaque freeDword : Nat → Dword

/-- A fresh free bit: where the spec allows either of two effects (06 R169: the old pane entry or the new one). -/
opaque freeBit : Nat → Bool

/-- Whether tininess is detected before rounding, for the underflow flag (05 R129; IEEE 754-2019 leaves it open). -/
opaque tinyBefore : Bool

/-- Whether FLT and FLE set the invalid flag for a quiet NaN (05 R129, Table 5.12: not stated). -/
opaque quietCompareInvalid : Bool

/-- Whether converting an infinity to fp8 sets the invalid flag (05 R129, R130: not stated). -/
opaque fp8InfInvalid : Bool

/-- The unit's fused 64-bit identifier (03 R67): each unit carries its own. -/
opaque unitId : Dword

/-- Whether the public key in a key block's slot hashes to the digest the fuses hold for it (14 R419): slots 0 to 3 ECDSA, 4
to 7 ML-DSA. The fused digests are each unit's own. -/
opaque keyOk : Nat → List Byte → Bool

/-- The characters of the k-th log line the Ridge writes to the console (03 R85): the spec gives no text. -/
opaque logLine : Nat → List Byte

/-- The ten Reed-Solomon parity bytes of a Nawyn flit (11 R327): the spec names the code and its field, not the roots of its generator
polynomial. -/
opaque rsParity : List Byte → BitVec 80

/-- Which two partial sums the Loft adds next, of a list that is `n` long (12 R379: the order is fixed by the query's shape, its ranges
and its data, and not given). -/
opaque loftPick : List Nat → Nat → Nat × Nat

/-- By how many units in the last place the Loft's exponential or quotient differs from the nearest fp32 number (12 R379: at most 2). -/
opaque loftUlp : List Nat → Int

/-- m and l of a row with a NaN score (12 R378 gives o and the flag only). -/
opaque loftNan : List Nat → BitVec 32

/-- The bus number that the host has given an endpoint, in the routing IDs of its functions (07 R195): the host chooses it
(log 105). -/
opaque epBus : Nat → BitVec 8

/-- Fields of the IP header of an eave transport packet that 10 R291 and R295 do not give (log 161): time to live or hop limit of a
connection, flow label of a connection, and the IPv4 identification and flags of a packet. -/
opaque eaveTtl : Nat → BitVec 8
opaque eaveFlow : Nat → BitVec 20
opaque eaveIpId : List Byte → BitVec 16
opaque eaveDf : Nat → Bool

end Sys2Proof.Config
end

