-- ==== Sys2Proof/Machine/RegMap.lean ====
section
/-! DEFINITION. The control space (00 R11 to R18): every register of spec/ by its name there, where it lies, and its
fields. -/

namespace Sys2Proof.Machine

/-- How software reaches a field (00 R12 to R17). -/
inductive Access where
  | rw | ro | w1c | rc | wo | rwl
deriving DecidableEq, Repr

/-- A field of a register: its bits, its access, its reset value, and the least and the greatest value that is not an
unused encoding (00 R13). -/
structure FieldDesc where
  hi : Nat
  lo : Nat
  acc : Access
  reset : Nat
  min : Nat
  max : Nat
deriving DecidableEq, Repr

/-- A register: offset, the two index ranges with their strides, its width in bits and its fields. -/
structure RegDesc where
  off : Nat
  lo1 : Nat
  hi1 : Nat
  st1 : Nat
  lo2 : Nat
  hi2 : Nat
  st2 : Nat
  width : Nat
  fields : List FieldDesc
deriving DecidableEq, Repr

/-- The registers of the control space, in address order of their first instance. -/
inductive Reg where
  /-- IDENT_ID (00 T0.2). -/
  | identId
  /-- IDENT_FAMILY (00 T0.3). -/
  | identFamily
  /-- IDENT_MISALIGN_CNT (00 R11). -/
  | identMisalignCnt
  /-- IDENT_LOCKED_WR_CNT (00 R17). -/
  | identLockedWrCnt
  /-- IDENT_HOST_DENIED_CNT (07 R212). -/
  | identHostDeniedCnt
  /-- IDENT_EP_LINK (07 T7.11). -/
  | identEpLink
  /-- IDENT_EP_DSTATE (07 T7.11). -/
  | identEpDstate
  /-- IDENT_EP_VF_STORAGE (07 R196). -/
  | identEpVfStorage
  /-- IDENT_EP_WAKE_EN (07 R206). -/
  | identEpWakeEn
  /-- IDENT_EP_APER (07 R193). -/
  | identEpAper
  /-- IDENT_EP_VF_QP (07 R197). -/
  | identEpVfQp
  /-- IDENT_EP_STOP_ABORT_CNT (07 R201). -/
  | identEpStopAbortCnt
  /-- IDENT_EP_APER_FAULT_CNT (07 R193). -/
  | identEpAperFaultCnt
  /-- IDENT_EP_DB_DISCARD_CNT (07 R197). -/
  | identEpDbDiscardCnt
  /-- IDENT_EP_LINK_DOWN_CNT (07 T7.11). -/
  | identEpLinkDownCnt
  /-- IDENT_MBX_CTL (07 R208). -/
  | identMbxCtl
  /-- IDENT_MBX_STAT (07 R208). -/
  | identMbxStat
  /-- IDENT_MBX_REQ (07 T7.8). -/
  | identMbxReq
  /-- IDENT_MBX_RESP (07 T7.8). -/
  | identMbxResp
  /-- THATCH_CMD (04 T4.15). -/
  | thatchCmd
  /-- THATCH_STAT (04 T4.15). -/
  | thatchStat
  /-- THATCH_SRC_LO (04 T4.15). -/
  | thatchSrcLo
  /-- THATCH_SRC_HI (04 T4.15). -/
  | thatchSrcHi
  /-- THATCH_SRC_LEN (04 T4.15). -/
  | thatchSrcLen
  /-- THATCH_DRAIN_LIMIT (04 T4.15). -/
  | thatchDrainLimit
  /-- THATCH_STORE_BASE (04 R108). -/
  | thatchStoreBase
  /-- THATCH_QUIESCE (04 R113). -/
  | thatchQuiesce
  /-- THATCH_LAYOUT_ID_LO (04 R106). -/
  | thatchLayoutIdLo
  /-- THATCH_LAYOUT_ID_HI (04 R106). -/
  | thatchLayoutIdHi
  /-- THATCH_BUILD_ID (04 T4.15). -/
  | thatchBuildId
  /-- THATCH_BAY_EPOCH (04 T4.15). -/
  | thatchBayEpoch
  /-- THATCH_BAY_STAT (04 T4.15). -/
  | thatchBayStat
  /-- THATCH_RELOAD_CNT (04 R117). -/
  | thatchReloadCnt
  /-- THATCH_REFUSE_CNT (04 R115). -/
  | thatchRefuseCnt
  /-- THATCH_HOLD_REFUSED_CNT (04 R114). -/
  | thatchHoldRefusedCnt
  /-- THATCH_FORCED_DRAIN_CNT (04 R113). -/
  | thatchForcedDrainCnt
  /-- THATCH_DENIED_CNT (04 R110). -/
  | thatchDeniedCnt
  /-- THATCH_SLAB_TIMEOUT_CNT (04 R123). -/
  | thatchSlabTimeoutCnt
  /-- THATCH_SLAB_MEM_FAULT_CNT (04 R124). -/
  | thatchSlabMemFaultCnt
  /-- THATCH_BAY_FAULT_CNT (06 R182). -/
  | thatchBayFaultCnt
  /-- QP_DOORBELL (08 R220). -/
  | qpDoorbell
  /-- EVR_DOORBELL (08 R220). -/
  | evrDoorbell
  /-- QP_SQ_BASE_LO (08 T8.1). -/
  | qpSqBaseLo
  /-- QP_SQ_BASE_HI (08 T8.1). -/
  | qpSqBaseHi
  /-- QP_CQ_BASE_LO (08 T8.1). -/
  | qpCqBaseLo
  /-- QP_CQ_BASE_HI (08 T8.1). -/
  | qpCqBaseHi
  /-- QP_CTL (08 T8.2). -/
  | qpCtl
  /-- QP_NOTIFY (08 T8.3). -/
  | qpNotify
  /-- QP_PARTNER (08 T8.1). -/
  | qpPartner
  /-- QP_LIMIT (08 T8.1). -/
  | qpLimit
  /-- QP_SQ_HEAD (08 T8.1). -/
  | qpSqHead
  /-- QP_SQ_TAIL (08 T8.1). -/
  | qpSqTail
  /-- QP_CQ_TAIL (08 T8.1). -/
  | qpCqTail
  /-- QP_CQ_HEAD (08 T8.1). -/
  | qpCqHead
  /-- QP_STAT (08 T8.1). -/
  | qpStat
  /-- EVR_BASE_LO (08). -/
  | evrBaseLo
  /-- EVR_BASE_HI (08). -/
  | evrBaseHi
  /-- EVR_CTL (08). -/
  | evrCtl
  /-- EVR_NOTIFY (08 T8.3). -/
  | evrNotify
  /-- EVR_TAIL (08). -/
  | evrTail
  /-- EVR_HEAD (08). -/
  | evrHead
  /-- EVR_STAT (08 R228). -/
  | evrStat
  /-- ADM_PREC_BASE_LO (08 R229). -/
  | admPrecBaseLo
  /-- ADM_PREC_BASE_HI (08 R229). -/
  | admPrecBaseHi
  /-- ADM_PREC_COUNT (08 R229). -/
  | admPrecCount
  /-- ADM_PREC_SYNC (08 R230). -/
  | admPrecSync
  /-- ADM_STAT (08 R230). -/
  | admStat
  /-- ADM_POOL_CAP (08 T8.11). -/
  | admPoolCap
  /-- ADM_POOL_FLOOR (08 T8.11). -/
  | admPoolFloor
  /-- ADM_POOL_GRES (08 R231). -/
  | admPoolGres
  /-- ADM_POOL_TGT (08 R238). -/
  | admPoolTgt
  /-- ADM_POOL_STGT (08 R238). -/
  | admPoolStgt
  /-- ADM_POOL_WAIT (08 R235). -/
  | admPoolWait
  /-- ADM_POOL_LIVE (08 R231). -/
  | admPoolLive
  /-- ADM_POOL_STAT (08). -/
  | admPoolStat
  /-- ADM_SERVED_CNT (08 T8.14). -/
  | admServedCnt
  /-- ADM_DELAYED_CNT (08 R238). -/
  | admDelayedCnt
  /-- ADM_REF_BUDGET_CNT (08 R239). -/
  | admRefBudgetCnt
  /-- ADM_REF_CAP_CNT (08 R239). -/
  | admRefCapCnt
  /-- ADM_G_OVER_CNT (08 R233). -/
  | admGOverCnt
  /-- ADM_G_SHORT_CNT (08 T8.12). -/
  | admGShortCnt
  /-- ADM_DENIED_CNT (08 R216). -/
  | admDeniedCnt
  /-- ADM_DB_BAD_CNT (08 R221). -/
  | admDbBadCnt
  /-- ADM_EVR_LOST_CNT (08 R228). -/
  | admEvrLostCnt
  /-- ADM_PREC_MISS_CNT (08 R229). -/
  | admPrecMissCnt
  /-- ADM_CQ_STALL_CNT (08 R224). -/
  | admCqStallCnt
  /-- TRUSS_CTL (09 R247). -/
  | trussCtl
  /-- TRUSS_VER (09 R266). -/
  | trussVer
  /-- TRUSS_OLD_INFLIGHT (09 R267). -/
  | trussOldInflight
  /-- TRUSS_EVR (09 R321). -/
  | trussEvr
  /-- TRUSS_REED_LAST (09 R257). -/
  | trussReedLast
  /-- TRUSS_PORT_CFG (09 R247). -/
  | trussPortCfg
  /-- TRUSS_RULE_CMD (09 R265). -/
  | trussRuleCmd
  /-- TRUSS_RULE_STAT (09 R265). -/
  | trussRuleStat
  /-- TRUSS_RULE_ARG (09 T9.10). -/
  | trussRuleArg
  /-- TRUSS_RULE_ACT_LO (09 T9.6). -/
  | trussRuleActLo
  /-- TRUSS_RULE_ACT_HI (09 T9.6). -/
  | trussRuleActHi
  /-- TRUSS_RULE_KEY (09 T9.10). -/
  | trussRuleKey
  /-- TRUSS_RULE_MASK (09 T9.10). -/
  | trussRuleMask
  /-- TRUSS_MAL_ACT (09 R254). -/
  | trussMalAct
  /-- TRUSS_MAL_CNT (09 R254). -/
  | trussMalCnt
  /-- TRUSS_PIPE_PKT_CNT (09 T9.10). -/
  | trussPipePktCnt
  /-- TRUSS_REED_PKT_CNT (09 R255). -/
  | trussReedPktCnt
  /-- TRUSS_STEER_DENIED_CNT (09 R264). -/
  | trussSteerDeniedCnt
  /-- TRUSS_RX_NOBUF_CNT (09 R271). -/
  | trussRxNobufCnt
  /-- TRUSS_VER_BUSY_CNT (09 R267). -/
  | trussVerBusyCnt
  /-- TRUSS_COMMIT_CNT (09 R267). -/
  | trussCommitCnt
  /-- TRUSS_IND_INVALID_CNT (09 R269). -/
  | trussIndInvalidCnt
  /-- TRUSS_NAWYN_REFUSED_CNT (09 R269). -/
  | trussNawynRefusedCnt
  /-- TRUSS_DENIED_CNT (09 R265). -/
  | trussDeniedCnt
  /-- TRUSS_IND_CFG0 (09 R268). -/
  | trussIndCfg0
  /-- TRUSS_IND_CFG1 (09 R268). -/
  | trussIndCfg1
  /-- TRUSS_IND_CFG2 (09 R269). -/
  | trussIndCfg2
  /-- TRUSS_HKEY (09 R268). -/
  | trussHkey
  /-- TRUSS_QP_MODE (09 R272). -/
  | trussQpMode
  /-- TRUSS_RULE_HIT (09 R263). -/
  | trussRuleHit
  /-- TRUSS_IND_ENT (09 R269). -/
  | trussIndEnt
  /-- SW_CTL (09 R276). -/
  | swCtl
  /-- SW_FDB_CMD (09 R277). -/
  | swFdbCmd
  /-- SW_FDB_MAC_LO (09 T9.11). -/
  | swFdbMacLo
  /-- SW_FDB_MAC_HI (09 T9.11). -/
  | swFdbMacHi
  /-- SW_FDB_PORT (09 T9.11). -/
  | swFdbPort
  /-- SW_FDB_STAT (09 T9.11). -/
  | swFdbStat
  /-- SW_PORT_CFG (09 R277). -/
  | swPortCfg
  /-- SW_VPORT_MAC (09 R246). -/
  | swVportMac
  /-- SW_VPORT_CFG (09 R246). -/
  | swVportCfg
  /-- SW_VPORT_RING (09 R246). -/
  | swVportRing
  /-- SW_MOVE_CNT (09 R275). -/
  | swMoveCnt
  /-- SW_FLAP_CNT (09 R275). -/
  | swFlapCnt
  /-- SW_FLAP_IGNORED_CNT (09 R274). -/
  | swFlapIgnoredCnt
  /-- SW_LEARN_FULL_CNT (09 R274). -/
  | swLearnFullCnt
  /-- SW_SPOOF_CNT (09 R274). -/
  | swSpoofCnt
  /-- SW_RX_ERR_CNT (09 R244). -/
  | swRxErrCnt
  /-- SW_RX_DROP_CNT (09 R248). -/
  | swRxDropCnt
  /-- XPT_CTL (10 R291). -/
  | xptCtl
  /-- XPT_RETRY (10 R295). -/
  | xptRetry
  /-- XPT_ACK (10 R305). -/
  | xptAck
  /-- XPT_MAX_OUT (10 R306). -/
  | xptMaxOut
  /-- EVT_DEV_RING (10 R321). -/
  | evtDevRing
  /-- XPT_RNR_US (10 R308). -/
  | xptRnrUs
  /-- XPT_CONN_BASE_LO (10 R299). -/
  | xptConnBaseLo
  /-- XPT_CONN_BASE_HI (10 R299). -/
  | xptConnBaseHi
  /-- XPT_CONN_COUNT (10 R299). -/
  | xptConnCount
  /-- RGN_BASE_LO (10 R286). -/
  | rgnBaseLo
  /-- RGN_BASE_HI (10 R286). -/
  | rgnBaseHi
  /-- RGN_COUNT (10 R286). -/
  | rgnCount
  /-- XPT_STORM (10 R312). -/
  | xptStorm
  /-- XPT_ECN (10 R315). -/
  | xptEcn
  /-- XPT_BAY_CONN_FIRST (10 R295). -/
  | xptBayConnFirst
  /-- XPT_BAY_CONN_COUNT (10 R295). -/
  | xptBayConnCount
  /-- XPT_BAY_WIN_FIRST (10 R281). -/
  | xptBayWinFirst
  /-- XPT_BAY_WIN_COUNT (10 R281). -/
  | xptBayWinCount
  /-- XPT_BAY_RGN_FIRST (10 R287). -/
  | xptBayRgnFirst
  /-- XPT_BAY_RGN_COUNT (10 R287). -/
  | xptBayRgnCount
  /-- XPT_BAY_RMAP_LO (10 R278). -/
  | xptBayRmapLo
  /-- XPT_BAY_RMAP_HI (10 R278). -/
  | xptBayRmapHi
  /-- XPT_BAY_RMAP_COUNT (10 R278). -/
  | xptBayRmapCount
  /-- XPT_PFC_EN (10 R311). -/
  | xptPfcEn
  /-- XPT_PFC_THR (10 R311). -/
  | xptPfcThr
  /-- XPT_PFC_HEAD (10 R311). -/
  | xptPfcHead
  /-- XPT_PFC_STRICT (10 R313). -/
  | xptPfcStrict
  /-- XPT_PFC_W0 (10 R313). -/
  | xptPfcW0
  /-- XPT_PFC_W1 (10 R313). -/
  | xptPfcW1
  /-- XPT_PFC_ECN (10 R314). -/
  | xptPfcEcn
  /-- XPT_RETX_CNT (10 R307). -/
  | xptRetxCnt
  /-- XPT_SEQ_NAK_CNT (10 R303). -/
  | xptSeqNakCnt
  /-- XPT_DUP_CNT (10 R302). -/
  | xptDupCnt
  /-- XPT_STALE_CNT (10 T10.14). -/
  | xptStaleCnt
  /-- XPT_KEY_VIOL_CNT (10 T10.14). -/
  | xptKeyViolCnt
  /-- XPT_AUTH_FAIL_CNT (10 R317). -/
  | xptAuthFailCnt
  /-- XPT_REPLAY_CNT (10 R317). -/
  | xptReplayCnt
  /-- XPT_CTX_MISS_CNT (10 R299). -/
  | xptCtxMissCnt
  /-- XPT_RGN_MISS_CNT (10 R286). -/
  | xptRgnMissCnt
  /-- XPT_STORM_DROP_CNT (10 R312). -/
  | xptStormDropCnt
  /-- XPT_NOCONN_CNT (10 R291). -/
  | xptNoconnCnt
  /-- XPT_BAD_OP_CNT (10 R293). -/
  | xptBadOpCnt
  /-- XPT_ECN_MARK_CNT (10 R314). -/
  | xptEcnMarkCnt
  /-- XPT_EVT_UNROUTED_CNT (10 R321). -/
  | xptEvtUnroutedCnt
  /-- XPT_DENIED_CNT (10 R323). -/
  | xptDeniedCnt
  /-- NAWYN_CTL (11 T11.8). -/
  | nawynCtl
  /-- NAWYN_RETRY (11 R329). -/
  | nawynRetry
  /-- NAWYN_TIME_CTL (11 R341). -/
  | nawynTimeCtl
  /-- NAWYN_TIME_STAT (11 R342). -/
  | nawynTimeStat
  /-- NAWYN_TIME (11 R341). -/
  | nawynTime
  /-- NAWYN_TIME_OFS (11 R343). -/
  | nawynTimeOfs
  /-- NAWYN_TIME_FREQ (11 R341). -/
  | nawynTimeFreq
  /-- NAWYN_PTP_EN (11 R344). -/
  | nawynPtpEn
  /-- NAWYN_PTP_INFO (11 R344). -/
  | nawynPtpInfo
  /-- NAWYN_PTP_TIME (11 R344). -/
  | nawynPtpTime
  /-- NAWYN_LINK_CFG (11 R325). -/
  | nawynLinkCfg
  /-- NAWYN_LINK_STAT (11 R326). -/
  | nawynLinkStat
  /-- NAWYN_LINK_DELAY (11 R342). -/
  | nawynLinkDelay
  /-- NAWYN_LINK_WRR (11 R350). -/
  | nawynLinkWrr
  /-- NAWYN_CRS_CYCLE (11 R345). -/
  | nawynCrsCycle
  /-- NAWYN_CRS_ID (11 R345). -/
  | nawynCrsId
  /-- NAWYN_CRS_ARM_AT (11 R345). -/
  | nawynCrsArmAt
  /-- NAWYN_CRS_CMD (11 R345). -/
  | nawynCrsCmd
  /-- NAWYN_CRS_STAT (11 R345). -/
  | nawynCrsStat
  /-- NAWYN_CRS_ACTIVE_ID (11 R345). -/
  | nawynCrsActiveId
  /-- NAWYN_CRS_LATE_NS (11 R352). -/
  | nawynCrsLateNs
  /-- NAWYN_CRS_WIN (11 R345). -/
  | nawynCrsWin
  /-- NAWYN_ROUTE (11 R334). -/
  | nawynRoute
  /-- NAWYN_APER (11 R336). -/
  | nawynAper
  /-- NAWYN_FLIT_TX_CNT (11 T11.8). -/
  | nawynFlitTxCnt
  /-- NAWYN_FLIT_RX_CNT (11 T11.8). -/
  | nawynFlitRxCnt
  /-- NAWYN_FEC_CORR_CNT (11 R328). -/
  | nawynFecCorrCnt
  /-- NAWYN_FLIT_BAD_CNT (11 R328). -/
  | nawynFlitBadCnt
  /-- NAWYN_REPLAY_CNT (11 R329). -/
  | nawynReplayCnt
  /-- NAWYN_RETRAIN_CNT (11 R325). -/
  | nawynRetrainCnt
  /-- NAWYN_DEFER_CNT (11 R348). -/
  | nawynDeferCnt
  /-- NAWYN_LATE_CNT (11 R352). -/
  | nawynLateCnt
  /-- NAWYN_WIN_EMPTY_CNT (11 R352). -/
  | nawynWinEmptyCnt
  /-- NAWYN_LATE_MAX (11 R352). -/
  | nawynLateMax
  /-- NAWYN_OVERSIZE_CNT (11 R349). -/
  | nawynOversizeCnt
  /-- NAWYN_UNDELIV_CNT (11 R335). -/
  | nawynUndelivCnt
  /-- NAWYN_APER_FAULT_CNT (11 R336). -/
  | nawynAperFaultCnt
  /-- NAWYN_RX_DROP_CNT (11 R339). -/
  | nawynRxDropCnt
  /-- NAWYN_LATE_RESP_CNT (11 R337). -/
  | nawynLateRespCnt
  /-- NAWYN_PTP_OVF_CNT (11 R344). -/
  | nawynPtpOvfCnt
  /-- NAWYN_TIME_STEP_CNT (11 R343). -/
  | nawynTimeStepCnt
  /-- NAWYN_DENIED_CNT (11 R345). -/
  | nawynDeniedCnt
  /-- NAWYN_LINK_LOST_CNT (11 R340). -/
  | nawynLinkLostCnt
  /-- NAWYN_BAD_MTYPE_CNT (11 R331). -/
  | nawynBadMtypeCnt
  /-- LOFT_STAT (12 R354). -/
  | loftStat
  /-- LOFT_MAX_WAIT (12 R381). -/
  | loftMaxWait
  /-- LOFT_BIAS_LOADED_LO (12 R375). -/
  | loftBiasLoadedLo
  /-- LOFT_BIAS_LOADED_HI (12 R375). -/
  | loftBiasLoadedHi
  /-- LOFT_TICKET (12 R367). -/
  | loftTicket
  /-- LOFT_RETIRED (12 R367). -/
  | loftRetired
  /-- LOFT_NODE (12 R381). -/
  | loftNode
  /-- LOFT_POOL_BASE_LO (12 R362). -/
  | loftPoolBaseLo
  /-- LOFT_POOL_BASE_HI (12 R362). -/
  | loftPoolBaseHi
  /-- LOFT_POOL_CFG (12 R362). -/
  | loftPoolCfg
  /-- LOFT_POOL_HEAD (12 R362). -/
  | loftPoolHead
  /-- LOFT_POOL_TAIL (12 R362). -/
  | loftPoolTail
  /-- LOFT_POOL_LEVEL (12 R362). -/
  | loftPoolLevel
  /-- LOFT_QUERY_CNT (12 T12.13). -/
  | loftQueryCnt
  /-- LOFT_APPEND_CNT (12 T12.13). -/
  | loftAppendCnt
  /-- LOFT_TOKEN_CNT (12 T12.13). -/
  | loftTokenCnt
  /-- LOFT_PAD_TOKEN_CNT (12 R376). -/
  | loftPadTokenCnt
  /-- LOFT_MASKED_ROW_CNT (12 R378). -/
  | loftMaskedRowCnt
  /-- LOFT_BAD_SLATE_CNT (12 R372). -/
  | loftBadSlateCnt
  /-- LOFT_NO_SLATE_CNT (12 R365). -/
  | loftNoSlateCnt
  /-- LOFT_RESULT_LOST_CNT (12 R382). -/
  | loftResultLostCnt
  /-- LOFT_DENIED_CNT (12 R386). -/
  | loftDeniedCnt
  /-- UL_CFG (13 R387). -/
  | ulCfg
  /-- UL_BASE_LO (13 R387). -/
  | ulBaseLo
  /-- UL_BASE_HI (13 R387). -/
  | ulBaseHi
  /-- UL_SLOT_SIZE (13 R387). -/
  | ulSlotSize
  /-- UL_CTL (13 R398). -/
  | ulCtl
  /-- UL_STAT (13 R389). -/
  | ulStat
  /-- UL_LAST_CUT (13 R393). -/
  | ulLastCut
  /-- UL_BASE_CUT (13 R401). -/
  | ulBaseCut
  /-- UL_BASE_INV (13 R389). -/
  | ulBaseInv
  /-- UL_CUT_CNT (13 T13.11). -/
  | ulCutCnt
  /-- UL_ABANDON_CNT (13 R396). -/
  | ulAbandonCnt
  /-- UL_COPY_BYTE_CNT (13 T13.11). -/
  | ulCopyByteCnt
  /-- UL_HASHED_CNT (13 T13.11). -/
  | ulHashedCnt
  /-- UL_CHANGED_CNT (13 T13.11). -/
  | ulChangedCnt
  /-- UL_COMMIT_CNT (13 T13.11). -/
  | ulCommitCnt
  /-- UL_DRAIN_FAIL_CNT (13 T13.11). -/
  | ulDrainFailCnt
  /-- UL_RESTORE_CNT (13 T13.11). -/
  | ulRestoreCnt
  /-- UL_TOKEN_BAD_CNT (13 R392). -/
  | ulTokenBadCnt
  /-- UL_DENIED_CNT (13 R387). -/
  | ulDeniedCnt
  /-- STOR_CTL (14 R429). -/
  | storCtl
  /-- SEC_FLOOR (14 R421). -/
  | secFloor
  /-- SEC_SLOT_STAT (14 R419). -/
  | secSlotStat
  /-- SEC_KEY_COUNT (14 R425). -/
  | secKeyCount
  /-- STOR_CTRL (14 R413). -/
  | storCtrl
  /-- STOR_CTRL_ID (14 R407). -/
  | storCtrlId
  /-- STOR_CTRL_OUT (14 R415). -/
  | storCtrlOut
  /-- STOR_NS_CTL (14 T14.4). -/
  | storNsCtl
  /-- STOR_NS_CONN (14 T14.4). -/
  | storNsConn
  /-- STOR_NS_RKEY (14 T14.4). -/
  | storNsRkey
  /-- STOR_NS_KEY (14 T14.4). -/
  | storNsKey
  /-- STOR_NS_BASE (14 T14.4). -/
  | storNsBase
  /-- STOR_NS_LBAS (14 T14.4). -/
  | storNsLbas
  /-- STOR_CMD_CNT (14 T14.12). -/
  | storCmdCnt
  /-- STOR_BYTE_CNT (14 T14.12). -/
  | storByteCnt
  /-- STOR_BACKEND_ERR_CNT (14 R412). -/
  | storBackendErrCnt
  /-- STOR_DENIED_CNT (14 R429). -/
  | storDeniedCnt
  /-- SEC_GCM_FAIL_CNT (14 R427). -/
  | secGcmFailCnt
  /-- SEC_IDE_FAIL_CNT (14 R424). -/
  | secIdeFailCnt
  /-- GUT_CH_CTL (15 R433). -/
  | gutChCtl
  /-- GUT_CH_STAT (15 T15.9). -/
  | gutChStat
  /-- GUT_CH_DBASE_LO (15 R437). -/
  | gutChDbaseLo
  /-- GUT_CH_DBASE_HI (15 R437). -/
  | gutChDbaseHi
  /-- GUT_CH_DSIZE (15 R437). -/
  | gutChDsize
  /-- GUT_CH_DHEAD (15 R438). -/
  | gutChDhead
  /-- GUT_CH_DTAIL (15 R437). -/
  | gutChDtail
  /-- GUT_CH_NOTIFY (15 R437). -/
  | gutChNotify
  /-- GUT_CH_OWNER (15 R437). -/
  | gutChOwner
  /-- GUT_CH_STALL (15 R438). -/
  | gutChStall
  /-- GUT_CH_SEQ (15 R432). -/
  | gutChSeq
  /-- GUT_SRC (15 R430). -/
  | gutSrc
  /-- GUT_MARK (15 R448). -/
  | gutMark
  /-- GUT_DROP_CNT (15 R435). -/
  | gutDropCnt
  /-- GUT_CH_PKT_CNT (15 T15.9). -/
  | gutChPktCnt
  /-- GUT_CH_OVF_CNT (15 R436). -/
  | gutChOvfCnt
  /-- GUT_DENIED_CNT (15 R433). -/
  | gutDeniedCnt
  /-- GUT_DRAIN_FAULT_CNT (15 R438). -/
  | gutDrainFaultCnt
  /-- PWR_STATE (02 T2.12). -/
  | pwrState
  /-- PWR_CTL (02 T2.11). -/
  | pwrCtl
  /-- BOOT_ATTEMPTS (02 R56). -/
  | bootAttempts
  /-- PWR_BOOT_STAT (02 T2.13). -/
  | pwrBootStat
  /-- PWR_BOOT_ORDER (02 R53). -/
  | pwrBootOrder
  /-- PWR_WAKE_PEND (02 R43). -/
  | pwrWakePend
  /-- PWR_ROOF_WAKE_EN (02 T2.14). -/
  | pwrRoofWakeEn
  /-- PWR_ROOF_WAKE_SRC (02 R49). -/
  | pwrRoofWakeSrc
  /-- PWR_ROOF_TIMER (02 T2.11). -/
  | pwrRoofTimer
  /-- PWR_ROOF_DELAY (02 R47). -/
  | pwrRoofDelay
  /-- PWR_BAY_RST (02 R52). -/
  | pwrBayRst
  /-- PWR_NAP_ABORT_CNT (02 R44). -/
  | pwrNapAbortCnt
  /-- PWR_WAKE_AFTER_PNR_CNT (02 R45). -/
  | pwrWakeAfterPnrCnt
  /-- PWR_TARP_ENTRY_CNT (02 R57). -/
  | pwrTarpEntryCnt
  /-- PWR_TARP_DISCARD_CNT (02 R59). -/
  | pwrTarpDiscardCnt
  /-- PWR_ROOF_ENTRY_CNT (02 T2.5). -/
  | pwrRoofEntryCnt
  /-- PWR_ROOF_ABORT_CNT (02 R49). -/
  | pwrRoofAbortCnt
  /-- PWR_CLK_FAIL_CNT (02 R34). -/
  | pwrClkFailCnt
  /-- PWR_DENIED_CNT (02 R38). -/
  | pwrDeniedCnt
  /-- PWR_BOARD_PG_CNT (16 R456). -/
  | pwrBoardPgCnt
  /-- PWR_WARM_RST_CNT (16 R456). -/
  | pwrWarmRstCnt
  /-- PWR_CHAIN_ADDR (03 T3.6). -/
  | pwrChainAddr
  /-- PWR_CHAIN_CTL (03 R75). -/
  | pwrChainCtl
  /-- PWR_UNIT_ID_LO (03 R67). -/
  | pwrUnitIdLo
  /-- PWR_UNIT_ID_HI (03 R67). -/
  | pwrUnitIdHi
  /-- PWR_NODE_ID (03 R77). -/
  | pwrNodeId
  /-- PWR_CON_BAUD (03 R79). -/
  | pwrConBaud
  /-- PWR_CON_TX (03 R84). -/
  | pwrConTx
  /-- PWR_CON_RX (03 R84). -/
  | pwrConRx
  /-- PWR_CON_STAT (03 R83). -/
  | pwrConStat
  /-- PWR_TEMP (03 R86). -/
  | pwrTemp
  /-- PWR_TEMP_MAX (03 R86). -/
  | pwrTempMax
  /-- PWR_THERM_THRESH (03 R88). -/
  | pwrThermThresh
  /-- PWR_THERM_STAT (03 R87). -/
  | pwrThermStat
  /-- PWR_VMON (03 R90). -/
  | pwrVmon
  /-- PWR_VMON_LIM (03 R90). -/
  | pwrVmonLim
  /-- PWR_ACC_CTL (03 R91). -/
  | pwrAccCtl
  /-- PWR_ACC_STAT (03 R93). -/
  | pwrAccStat
  /-- PWR_CHAIN_ERR_CNT (03 R70). -/
  | pwrChainErrCnt
  /-- PWR_CHAIN_TIMEOUT_CNT (03 R71). -/
  | pwrChainTimeoutCnt
  /-- PWR_CON_FRAME_CNT (03 R81). -/
  | pwrConFrameCnt
  /-- PWR_CON_OVERRUN_CNT (03 R84). -/
  | pwrConOverrunCnt
  /-- PWR_CON_BREAK_CNT (03 R83). -/
  | pwrConBreakCnt
  /-- PWR_THROTTLE_CNT (03 R88). -/
  | pwrThrottleCnt
  /-- PWR_ACC_FAULT_CNT (03 R93). -/
  | pwrAccFaultCnt
  /-- PWR_DOM_CTL (02 T2.15). -/
  | pwrDomCtl
  /-- PWR_DOM_STAT (02 T2.16). -/
  | pwrDomStat
deriving DecidableEq, Repr

/-- Where a register lies and what its fields are. A reset value that depends on the instance or on the fuses is 0 here and
given by Reg.special in State.lean. -/
def Reg.desc : Reg → RegDesc
  | .identId => ⟨0x0, 0, 0, 0x0, 0, 0, 0x0, 32, [⟨15, 0, .ro, 0xC7F2, 0, 0xFFFF⟩,
      ⟨31, 16, .ro, 0xA64, 0, 0xFFFF⟩]⟩
  | .identFamily => ⟨0x8, 0, 0, 0x0, 0, 0, 0x0, 32, [⟨6, 0, .ro, 0x40, 0, 0x7F⟩,
      ⟨10, 7, .ro, 0x8, 0, 0xF⟩,
      ⟨15, 11, .ro, 0x10, 0, 0x1F⟩,
      ⟨18, 16, .ro, 0x3, 0, 0x7⟩,
      ⟨19, 19, .ro, 0x1, 0, 0x1⟩,
      ⟨22, 20, .ro, 0x4, 0, 0x7⟩]⟩
  | .identMisalignCnt => ⟨0x40, 0, 0, 0x0, 0, 0, 0x0, 64, [⟨63, 0, .ro, 0x0, 0, 0xFFFFFFFFFFFFFFFF⟩]⟩
  | .identLockedWrCnt => ⟨0x48, 0, 0, 0x0, 0, 0, 0x0, 64, [⟨63, 0, .ro, 0x0, 0, 0xFFFFFFFFFFFFFFFF⟩]⟩
  | .identHostDeniedCnt => ⟨0x50, 0, 0, 0x0, 0, 0, 0x0, 64, [⟨63, 0, .ro, 0x0, 0, 0xFFFFFFFFFFFFFFFF⟩]⟩
  | .identEpLink => ⟨0x1000, 0, 1, 0x1000, 0, 0, 0x0, 32, [⟨2, 0, .ro, 0x0, 0, 0x7⟩,
      ⟨7, 3, .ro, 0x0, 0, 0x1F⟩,
      ⟨8, 8, .ro, 0x0, 0, 0x1⟩,
      ⟨9, 9, .ro, 0x0, 0, 0x1⟩,
      ⟨14, 10, .ro, 0x0, 0, 0x1F⟩]⟩
  | .identEpDstate => ⟨0x1004, 0, 1, 0x1000, 0, 0, 0x0, 32, [⟨1, 0, .ro, 0x0, 0, 0x3⟩,
      ⟨2, 2, .ro, 0x0, 0, 0x1⟩]⟩
  | .identEpVfStorage => ⟨0x1008, 0, 1, 0x1000, 0, 0, 0x0, 32, [⟨7, 0, .rw, 0x0, 1, 0xFF⟩,
      ⟨15, 8, .rw, 0x0, 0, 0xFF⟩]⟩
  | .identEpWakeEn => ⟨0x100C, 0, 1, 0x1000, 0, 0, 0x0, 32, [⟨0, 0, .rw, 0x1, 0, 0x1⟩,
      ⟨1, 1, .rw, 0x0, 0, 0x1⟩,
      ⟨2, 2, .rw, 0x0, 0, 0x1⟩,
      ⟨3, 3, .rw, 0x1, 0, 0x1⟩,
      ⟨4, 4, .rw, 0x1, 0, 0x1⟩]⟩
  | .identEpAper => ⟨0x1100, 0, 1, 0x1000, 0, 255, 0x8, 64, [⟨0, 0, .rw, 0x0, 0, 0x1⟩,
      ⟨1, 1, .rw, 0x0, 0, 0x1⟩,
      ⟨51, 30, .rw, 0x0, 0, 0x3FFFFF⟩]⟩
  | .identEpVfQp => ⟨0x1900, 0, 1, 0x1000, 1, 255, 0x4, 32, [⟨11, 0, .rw, 0x0, 0, 0xFFF⟩,
      ⟨24, 12, .rw, 0x0, 0, 0x1000⟩]⟩
  | .identEpStopAbortCnt => ⟨0x1D00, 0, 1, 0x1000, 0, 0, 0x0, 64, [⟨63, 0, .ro, 0x0, 0, 0xFFFFFFFFFFFFFFFF⟩]⟩
  | .identEpAperFaultCnt => ⟨0x1D08, 0, 1, 0x1000, 0, 0, 0x0, 64, [⟨63, 0, .ro, 0x0, 0, 0xFFFFFFFFFFFFFFFF⟩]⟩
  | .identEpDbDiscardCnt => ⟨0x1D10, 0, 1, 0x1000, 0, 0, 0x0, 64, [⟨63, 0, .ro, 0x0, 0, 0xFFFFFFFFFFFFFFFF⟩]⟩
  | .identEpLinkDownCnt => ⟨0x1D18, 0, 1, 0x1000, 0, 0, 0x0, 64, [⟨63, 0, .ro, 0x0, 0, 0xFFFFFFFFFFFFFFFF⟩]⟩
  | .identMbxCtl => ⟨0x8000, 0, 1, 0x4000, 0, 0, 0x0, 32, [⟨31, 31, .wo, 0x0, 0, 0x1⟩]⟩
  | .identMbxStat => ⟨0x8004, 0, 1, 0x4000, 0, 0, 0x0, 32, [⟨0, 0, .ro, 0x0, 0, 0x1⟩,
      ⟨1, 1, .w1c, 0x0, 0, 0x1⟩,
      ⟨2, 2, .w1c, 0x0, 0, 0x1⟩]⟩
  | .identMbxReq => ⟨0x9000, 0, 1, 0x4000, 0, 1023, 0x4, 32, [⟨31, 0, .rw, 0x0, 0, 0xFFFFFFFF⟩]⟩
  | .identMbxResp => ⟨0xA000, 0, 1, 0x4000, 0, 1023, 0x4, 32, [⟨31, 0, .ro, 0x0, 0, 0xFFFFFFFF⟩]⟩
  | .thatchCmd => ⟨0x10000, 0, 0, 0x0, 0, 0, 0x0, 32, [⟨2, 0, .wo, 0x0, 0, 0x3⟩,
      ⟨13, 8, .wo, 0x0, 0, 0x3F⟩,
      ⟨16, 16, .wo, 0x0, 0, 0x1⟩,
      ⟨31, 31, .wo, 0x0, 0, 0x1⟩]⟩
  | .thatchStat => ⟨0x10004, 0, 0, 0x0, 0, 0, 0x0, 32, [⟨3, 0, .ro, 0x0, 0, 0xF⟩,
      ⟨7, 4, .ro, 0x0, 0, 0xF⟩,
      ⟨13, 8, .ro, 0x0, 0, 0x3F⟩,
      ⟨14, 14, .ro, 0x0, 0, 0x1⟩,
      ⟨15, 15, .ro, 0x0, 0, 0x1⟩]⟩
  | .thatchSrcLo => ⟨0x10008, 0, 0, 0x0, 0, 0, 0x0, 32, [⟨31, 0, .rw, 0x0, 0, 0xFFFFFFFF⟩]⟩
  | .thatchSrcHi => ⟨0x1000C, 0, 0, 0x0, 0, 0, 0x0, 32, [⟨19, 0, .rw, 0x0, 0, 0xFFFFF⟩]⟩
  | .thatchSrcLen => ⟨0x10010, 0, 0, 0x0, 0, 0, 0x0, 32, [⟨31, 0, .rw, 0x0, 0, 0xFFFFFFFF⟩]⟩
  | .thatchDrainLimit => ⟨0x10014, 0, 0, 0x0, 0, 0, 0x0, 32, [⟨31, 0, .rw, 0xA, 1, 0x3E8⟩]⟩
  | .thatchStoreBase => ⟨0x10018, 0, 0, 0x0, 0, 0, 0x0, 32, [⟨31, 0, .ro, 0x0, 0, 0xFFFFFFFF⟩]⟩
  | .thatchQuiesce => ⟨0x1001C, 0, 0, 0x0, 0, 0, 0x0, 32, [⟨5, 0, .wo, 0x0, 0, 0x3F⟩,
      ⟨31, 31, .wo, 0x0, 0, 0x1⟩]⟩
  | .thatchLayoutIdLo => ⟨0x10020, 0, 0, 0x0, 0, 0, 0x0, 32, [⟨31, 0, .ro, 0x0, 0, 0xFFFFFFFF⟩]⟩
  | .thatchLayoutIdHi => ⟨0x10024, 0, 0, 0x0, 0, 0, 0x0, 32, [⟨31, 0, .ro, 0x0, 0, 0xFFFFFFFF⟩]⟩
  | .thatchBuildId => ⟨0x10030, 0, 3, 0x4, 0, 0, 0x0, 32, [⟨31, 0, .ro, 0x0, 0, 0xFFFFFFFF⟩]⟩
  | .thatchBayEpoch => ⟨0x10100, 0, 63, 0x8, 0, 0, 0x0, 32, [⟨31, 0, .ro, 0x0, 0, 0xFFFFFFFF⟩]⟩
  | .thatchBayStat => ⟨0x10104, 0, 63, 0x8, 0, 0, 0x0, 32, [⟨1, 0, .ro, 0x0, 0, 0x3⟩,
      ⟨2, 2, .ro, 0x0, 0, 0x1⟩]⟩
  | .thatchReloadCnt => ⟨0x10400, 0, 0, 0x0, 0, 0, 0x0, 64, [⟨63, 0, .ro, 0x0, 0, 0xFFFFFFFFFFFFFFFF⟩]⟩
  | .thatchRefuseCnt => ⟨0x10408, 0, 0, 0x0, 0, 0, 0x0, 64, [⟨63, 0, .ro, 0x0, 0, 0xFFFFFFFFFFFFFFFF⟩]⟩
  | .thatchHoldRefusedCnt => ⟨0x10410, 0, 0, 0x0, 0, 0, 0x0, 64, [⟨63, 0, .ro, 0x0, 0, 0xFFFFFFFFFFFFFFFF⟩]⟩
  | .thatchForcedDrainCnt => ⟨0x10418, 0, 0, 0x0, 0, 0, 0x0, 64, [⟨63, 0, .ro, 0x0, 0, 0xFFFFFFFFFFFFFFFF⟩]⟩
  | .thatchDeniedCnt => ⟨0x10420, 0, 0, 0x0, 0, 0, 0x0, 64, [⟨63, 0, .ro, 0x0, 0, 0xFFFFFFFFFFFFFFFF⟩]⟩
  | .thatchSlabTimeoutCnt => ⟨0x10428, 0, 0, 0x0, 0, 0, 0x0, 64, [⟨63, 0, .ro, 0x0, 0, 0xFFFFFFFFFFFFFFFF⟩]⟩
  | .thatchSlabMemFaultCnt => ⟨0x10430, 0, 0, 0x0, 0, 0, 0x0, 64, [⟨63, 0, .ro, 0x0, 0, 0xFFFFFFFFFFFFFFFF⟩]⟩
  | .thatchBayFaultCnt => ⟨0x10438, 0, 0, 0x0, 0, 0, 0x0, 64, [⟨63, 0, .ro, 0x0, 0, 0xFFFFFFFFFFFFFFFF⟩]⟩
  | .qpDoorbell => ⟨0x100000, 0, 4095, 0x8, 0, 0, 0x0, 64, [⟨15, 0, .wo, 0x0, 0, 0xFFFF⟩,
      ⟨31, 31, .wo, 0x0, 0, 0x1⟩,
      ⟨47, 32, .wo, 0x0, 0, 0xFFFF⟩,
      ⟨63, 63, .wo, 0x0, 0, 0x1⟩]⟩
  | .evrDoorbell => ⟨0x108000, 0, 255, 0x8, 0, 0, 0x0, 64, [⟨15, 0, .wo, 0x0, 0, 0xFFFF⟩,
      ⟨31, 31, .wo, 0x0, 0, 0x1⟩]⟩
  | .qpSqBaseLo => ⟨0x200000, 0, 4095, 0x40, 0, 0, 0x0, 32, [⟨31, 12, .rw, 0x0, 0, 0xFFFFF⟩]⟩
  | .qpSqBaseHi => ⟨0x200004, 0, 4095, 0x40, 0, 0, 0x0, 32, [⟨19, 0, .rw, 0x0, 0, 0xFFFFF⟩]⟩
  | .qpCqBaseLo => ⟨0x200008, 0, 4095, 0x40, 0, 0, 0x0, 32, [⟨31, 12, .rw, 0x0, 0, 0xFFFFF⟩]⟩
  | .qpCqBaseHi => ⟨0x20000C, 0, 4095, 0x40, 0, 0, 0x0, 32, [⟨19, 0, .rw, 0x0, 0, 0xFFFFF⟩]⟩
  | .qpCtl => ⟨0x200010, 0, 4095, 0x40, 0, 0, 0x0, 32, [⟨0, 0, .rw, 0x0, 0, 0x1⟩,
      ⟨3, 1, .rwl, 0x0, 0, 0x4⟩,
      ⟨8, 4, .rwl, 0x6, 6, 0x10⟩,
      ⟨16, 9, .rwl, 0x0, 0, 0xFF⟩,
      ⟨22, 17, .rwl, 0x0, 0, 0x3F⟩,
      ⟨23, 23, .rw, 0x0, 0, 0x1⟩,
      ⟨31, 24, .rw, 0x0, 0, 0xFF⟩]⟩
  | .qpNotify => ⟨0x200014, 0, 4095, 0x40, 0, 0, 0x0, 32, [⟨1, 0, .rw, 0x0, 0, 0x2⟩,
      ⟨12, 2, .rw, 0x0, 0, 0x7FF⟩,
      ⟨20, 13, .rw, 0x1, 1, 0xFF⟩,
      ⟨31, 21, .rw, 0x0, 0, 0x7FF⟩]⟩
  | .qpPartner => ⟨0x200018, 0, 4095, 0x40, 0, 0, 0x0, 32, [⟨19, 0, .rw, 0x0, 0, 0xFFFFF⟩]⟩
  | .qpLimit => ⟨0x20001C, 0, 4095, 0x40, 0, 0, 0x0, 32, [⟨15, 0, .rw, 0x100, 1, 0xFFFF⟩,
      ⟨31, 16, .rw, 0x3E8, 1, 0xFFFF⟩]⟩
  | .qpSqHead => ⟨0x200020, 0, 4095, 0x40, 0, 0, 0x0, 32, [⟨15, 0, .ro, 0x0, 0, 0xFFFF⟩]⟩
  | .qpSqTail => ⟨0x200024, 0, 4095, 0x40, 0, 0, 0x0, 32, [⟨15, 0, .ro, 0x0, 0, 0xFFFF⟩]⟩
  | .qpCqTail => ⟨0x200028, 0, 4095, 0x40, 0, 0, 0x0, 32, [⟨15, 0, .ro, 0x0, 0, 0xFFFF⟩,
      ⟨16, 16, .ro, 0x0, 0, 0x1⟩]⟩
  | .qpCqHead => ⟨0x20002C, 0, 4095, 0x40, 0, 0, 0x0, 32, [⟨15, 0, .ro, 0x0, 0, 0xFFFF⟩]⟩
  | .qpStat => ⟨0x200030, 0, 4095, 0x40, 0, 0, 0x0, 32, [⟨1, 0, .ro, 0x0, 0, 0x3⟩,
      ⟨2, 2, .ro, 0x0, 0, 0x1⟩,
      ⟨3, 3, .ro, 0x0, 0, 0x1⟩,
      ⟨31, 16, .ro, 0x0, 0, 0xFFFF⟩]⟩
  | .evrBaseLo => ⟨0x240000, 0, 255, 0x40, 0, 0, 0x0, 32, [⟨31, 12, .rw, 0x0, 0, 0xFFFFF⟩]⟩
  | .evrBaseHi => ⟨0x240004, 0, 255, 0x40, 0, 0, 0x0, 32, [⟨19, 0, .rw, 0x0, 0, 0xFFFFF⟩]⟩
  | .evrCtl => ⟨0x240008, 0, 255, 0x40, 0, 0, 0x0, 32, [⟨0, 0, .rw, 0x0, 0, 0x1⟩,
      ⟨5, 1, .rw, 0x6, 6, 0x10⟩,
      ⟨6, 6, .rw, 0x0, 0, 0x1⟩,
      ⟨14, 7, .rw, 0x0, 0, 0xFF⟩,
      ⟨15, 15, .rw, 0x0, 0, 0x1⟩]⟩
  | .evrNotify => ⟨0x24000C, 0, 255, 0x40, 0, 0, 0x0, 32, [⟨1, 0, .rw, 0x0, 0, 0x2⟩,
      ⟨12, 2, .rw, 0x0, 0, 0x7FF⟩,
      ⟨20, 13, .rw, 0x1, 1, 0xFF⟩,
      ⟨31, 21, .rw, 0x0, 0, 0x7FF⟩]⟩
  | .evrTail => ⟨0x240010, 0, 255, 0x40, 0, 0, 0x0, 32, [⟨15, 0, .ro, 0x0, 0, 0xFFFF⟩,
      ⟨16, 16, .ro, 0x0, 0, 0x1⟩]⟩
  | .evrHead => ⟨0x240014, 0, 255, 0x40, 0, 0, 0x0, 32, [⟨15, 0, .ro, 0x0, 0, 0xFFFF⟩]⟩
  | .evrStat => ⟨0x240018, 0, 255, 0x40, 0, 0, 0x0, 32, [⟨0, 0, .ro, 0x0, 0, 0x1⟩,
      ⟨31, 16, .ro, 0x0, 0, 0xFFFF⟩]⟩
  | .admPrecBaseLo => ⟨0x400000, 0, 0, 0x0, 0, 0, 0x0, 32, [⟨31, 12, .rw, 0x0, 0, 0xFFFFF⟩]⟩
  | .admPrecBaseHi => ⟨0x400004, 0, 0, 0x0, 0, 0, 0x0, 32, [⟨19, 0, .rw, 0x0, 0, 0xFFFFF⟩]⟩
  | .admPrecCount => ⟨0x400008, 0, 0, 0x0, 0, 0, 0x0, 32, [⟨20, 0, .rw, 0x0, 0, 0x100000⟩]⟩
  | .admPrecSync => ⟨0x40000C, 0, 0, 0x0, 0, 0, 0x0, 32, [⟨19, 0, .wo, 0x0, 0, 0xFFFFF⟩,
      ⟨30, 30, .wo, 0x0, 0, 0x1⟩,
      ⟨31, 31, .wo, 0x0, 0, 0x1⟩]⟩
  | .admStat => ⟨0x400010, 0, 0, 0x0, 0, 0, 0x0, 32, [⟨0, 0, .ro, 0x0, 0, 0x1⟩]⟩
  | .admPoolCap => ⟨0x400100, 0, 6, 0x20, 0, 0, 0x0, 32, [⟨31, 0, .rw, 0x0, 0, 0xFFFFFFFF⟩]⟩
  | .admPoolFloor => ⟨0x400104, 0, 6, 0x20, 0, 0, 0x0, 32, [⟨31, 0, .ro, 0x0, 0, 0xFFFFFFFF⟩]⟩
  | .admPoolGres => ⟨0x400108, 0, 6, 0x20, 0, 0, 0x0, 32, [⟨31, 0, .rw, 0x0, 0, 0xFFFFFFFF⟩]⟩
  | .admPoolTgt => ⟨0x40010C, 0, 6, 0x20, 0, 0, 0x0, 32, [⟨15, 0, .rw, 0xA, 1, 0xFFFF⟩,
      ⟨31, 16, .rw, 0x3E8, 1, 0xFFFF⟩]⟩
  | .admPoolStgt => ⟨0x400110, 0, 6, 0x20, 0, 0, 0x0, 32, [⟨15, 0, .rw, 0x1F4, 1, 0xFFFF⟩,
      ⟨31, 16, .rw, 0x3E8, 1, 0xFFFF⟩]⟩
  | .admPoolWait => ⟨0x400114, 0, 6, 0x20, 0, 0, 0x0, 32, [⟨15, 0, .rw, 0x32, 1, 0xFFFF⟩,
      ⟨31, 16, .rw, 0x64, 1, 0xFFFF⟩]⟩
  | .admPoolLive => ⟨0x400118, 0, 6, 0x20, 0, 0, 0x0, 32, [⟨31, 0, .ro, 0x0, 0, 0xFFFFFFFF⟩]⟩
  | .admPoolStat => ⟨0x40011C, 0, 6, 0x20, 0, 0, 0x0, 32, [⟨0, 0, .ro, 0x0, 0, 0x1⟩,
      ⟨1, 1, .ro, 0x0, 0, 0x1⟩,
      ⟨2, 2, .ro, 0x0, 0, 0x1⟩]⟩
  | .admServedCnt => ⟨0x401000, 0, 6, 0x40, 0, 0, 0x0, 64, [⟨63, 0, .ro, 0x0, 0, 0xFFFFFFFFFFFFFFFF⟩]⟩
  | .admDelayedCnt => ⟨0x401008, 0, 6, 0x40, 0, 0, 0x0, 64, [⟨63, 0, .ro, 0x0, 0, 0xFFFFFFFFFFFFFFFF⟩]⟩
  | .admRefBudgetCnt => ⟨0x401010, 0, 6, 0x40, 0, 0, 0x0, 64, [⟨63, 0, .ro, 0x0, 0, 0xFFFFFFFFFFFFFFFF⟩]⟩
  | .admRefCapCnt => ⟨0x401018, 0, 6, 0x40, 0, 0, 0x0, 64, [⟨63, 0, .ro, 0x0, 0, 0xFFFFFFFFFFFFFFFF⟩]⟩
  | .admGOverCnt => ⟨0x401020, 0, 6, 0x40, 0, 0, 0x0, 64, [⟨63, 0, .ro, 0x0, 0, 0xFFFFFFFFFFFFFFFF⟩]⟩
  | .admGShortCnt => ⟨0x401028, 0, 6, 0x40, 0, 0, 0x0, 64, [⟨63, 0, .ro, 0x0, 0, 0xFFFFFFFFFFFFFFFF⟩]⟩
  | .admDeniedCnt => ⟨0x402000, 0, 0, 0x0, 0, 0, 0x0, 64, [⟨63, 0, .ro, 0x0, 0, 0xFFFFFFFFFFFFFFFF⟩]⟩
  | .admDbBadCnt => ⟨0x402008, 0, 0, 0x0, 0, 0, 0x0, 64, [⟨63, 0, .ro, 0x0, 0, 0xFFFFFFFFFFFFFFFF⟩]⟩
  | .admEvrLostCnt => ⟨0x402010, 0, 0, 0x0, 0, 0, 0x0, 64, [⟨63, 0, .ro, 0x0, 0, 0xFFFFFFFFFFFFFFFF⟩]⟩
  | .admPrecMissCnt => ⟨0x402018, 0, 0, 0x0, 0, 0, 0x0, 64, [⟨63, 0, .ro, 0x0, 0, 0xFFFFFFFFFFFFFFFF⟩]⟩
  | .admCqStallCnt => ⟨0x402020, 0, 0, 0x0, 0, 0, 0x0, 64, [⟨63, 0, .ro, 0x0, 0, 0xFFFFFFFFFFFFFFFF⟩]⟩
  | .trussCtl => ⟨0x800000, 0, 0, 0x0, 0, 0, 0x0, 32, [⟨2, 0, .rw, 0x7, 0, 0x7⟩,
      ⟨3, 3, .rw, 0x1, 0, 0x1⟩,
      ⟨15, 4, .rw, 0x0, 0, 0xFFF⟩,
      ⟨23, 16, .rw, 0xFF, 0, 0xFF⟩]⟩
  | .trussVer => ⟨0x800004, 0, 0, 0x0, 0, 0, 0x0, 32, [⟨15, 0, .ro, 0x1, 0, 0xFFFF⟩,
      ⟨31, 16, .ro, 0x0, 0, 0xFFFF⟩]⟩
  | .trussOldInflight => ⟨0x800008, 0, 0, 0x0, 0, 0, 0x0, 32, [⟨31, 0, .ro, 0x0, 0, 0xFFFFFFFF⟩]⟩
  | .trussEvr => ⟨0x80000C, 0, 0, 0x0, 0, 0, 0x0, 32, [⟨7, 0, .rw, 0x0, 0, 0xFF⟩]⟩
  | .trussReedLast => ⟨0x800010, 0, 0, 0x0, 0, 0, 0x0, 32, [⟨4, 0, .ro, 0x0, 0, 0x1F⟩,
      ⟨15, 8, .ro, 0x0, 0, 0xFF⟩]⟩
  | .trussPortCfg => ⟨0x800100, 0, 63, 0x8, 0, 0, 0x0, 32, [⟨2, 0, .rw, 0x0, 0, 0x7⟩,
      ⟨3, 3, .rw, 0x1, 0, 0x1⟩,
      ⟨15, 4, .rw, 0x0, 0, 0xFFF⟩,
      ⟨23, 16, .rw, 0xFF, 0, 0xFF⟩]⟩
  | .trussRuleCmd => ⟨0x801000, 0, 0, 0x0, 0, 0, 0x0, 32, [⟨3, 0, .wo, 0x0, 0, 0xF⟩,
      ⟨11, 8, .wo, 0x0, 0, 0xF⟩,
      ⟨31, 31, .wo, 0x0, 0, 0x1⟩]⟩
  | .trussRuleStat => ⟨0x801004, 0, 0, 0x0, 0, 0, 0x0, 32, [⟨0, 0, .ro, 0x0, 0, 0x1⟩,
      ⟨3, 1, .ro, 0x0, 0, 0x7⟩]⟩
  | .trussRuleArg => ⟨0x801008, 0, 0, 0x0, 0, 0, 0x0, 32, [⟨15, 0, .rw, 0x0, 0, 0xFFFF⟩]⟩
  | .trussRuleActLo => ⟨0x801010, 0, 0, 0x0, 0, 0, 0x0, 32, [⟨31, 0, .rw, 0x0, 0, 0xFFFFFFFF⟩]⟩
  | .trussRuleActHi => ⟨0x801014, 0, 0, 0x0, 0, 0, 0x0, 32, [⟨31, 0, .rw, 0x0, 0, 0xFFFFFFFF⟩]⟩
  | .trussRuleKey => ⟨0x801040, 0, 15, 0x4, 0, 0, 0x0, 32, [⟨31, 0, .rw, 0x0, 0, 0xFFFFFFFF⟩]⟩
  | .trussRuleMask => ⟨0x801080, 0, 15, 0x4, 0, 0, 0x0, 32, [⟨31, 0, .rw, 0x0, 0, 0xFFFFFFFF⟩]⟩
  | .trussMalAct => ⟨0x802000, 1, 8, 0x4, 0, 0, 0x0, 32, [⟨1, 0, .rw, 0x0, 0, 0x2⟩,
      ⟨13, 2, .rw, 0x0, 0, 0xFFF⟩]⟩
  | .trussMalCnt => ⟨0x803000, 1, 8, 0x8, 0, 0, 0x0, 64, [⟨63, 0, .ro, 0x0, 0, 0xFFFFFFFFFFFFFFFF⟩]⟩
  | .trussPipePktCnt => ⟨0x803100, 0, 7, 0x8, 0, 0, 0x0, 64, [⟨63, 0, .ro, 0x0, 0, 0xFFFFFFFFFFFFFFFF⟩]⟩
  | .trussReedPktCnt => ⟨0x803140, 0, 0, 0x0, 0, 0, 0x0, 64, [⟨63, 0, .ro, 0x0, 0, 0xFFFFFFFFFFFFFFFF⟩]⟩
  | .trussSteerDeniedCnt => ⟨0x803148, 0, 0, 0x0, 0, 0, 0x0, 64, [⟨63, 0, .ro, 0x0, 0, 0xFFFFFFFFFFFFFFFF⟩]⟩
  | .trussRxNobufCnt => ⟨0x803150, 0, 0, 0x0, 0, 0, 0x0, 64, [⟨63, 0, .ro, 0x0, 0, 0xFFFFFFFFFFFFFFFF⟩]⟩
  | .trussVerBusyCnt => ⟨0x803158, 0, 0, 0x0, 0, 0, 0x0, 64, [⟨63, 0, .ro, 0x0, 0, 0xFFFFFFFFFFFFFFFF⟩]⟩
  | .trussCommitCnt => ⟨0x803160, 0, 0, 0x0, 0, 0, 0x0, 64, [⟨63, 0, .ro, 0x0, 0, 0xFFFFFFFFFFFFFFFF⟩]⟩
  | .trussIndInvalidCnt => ⟨0x803168, 0, 0, 0x0, 0, 0, 0x0, 64, [⟨63, 0, .ro, 0x0, 0, 0xFFFFFFFFFFFFFFFF⟩]⟩
  | .trussNawynRefusedCnt => ⟨0x803170, 0, 0, 0x0, 0, 0, 0x0, 64, [⟨63, 0, .ro, 0x0, 0, 0xFFFFFFFFFFFFFFFF⟩]⟩
  | .trussDeniedCnt => ⟨0x803178, 0, 0, 0x0, 0, 0, 0x0, 64, [⟨63, 0, .ro, 0x0, 0, 0xFFFFFFFFFFFFFFFF⟩]⟩
  | .trussIndCfg0 => ⟨0x804000, 0, 255, 0x10, 0, 0, 0x0, 32, [⟨17, 0, .rw, 0x0, 0, 0x3FFFF⟩,
      ⟨25, 22, .rw, 0x0, 0, 0xC⟩]⟩
  | .trussIndCfg1 => ⟨0x804004, 0, 255, 0x10, 0, 0, 0x0, 32, [⟨6, 0, .rw, 0x0, 0, 0x7F⟩,
      ⟨13, 8, .rw, 0x0, 1, 0x24⟩]⟩
  | .trussIndCfg2 => ⟨0x804008, 0, 255, 0x10, 0, 0, 0x0, 32, [⟨19, 0, .rw, 0x0, 0, 0xFFFFF⟩]⟩
  | .trussHkey => ⟨0x808000, 0, 9, 0x4, 0, 0, 0x0, 32, [⟨31, 0, .rw, 0x0, 0, 0xFFFFFFFF⟩]⟩
  | .trussQpMode => ⟨0x810000, 0, 4095, 0x4, 0, 0, 0x0, 32, [⟨1, 0, .rw, 0x0, 0, 0x2⟩,
      ⟨2, 2, .rw, 0x0, 0, 0x1⟩]⟩
  | .trussRuleHit => ⟨0x900000, 0, 65535, 0x8, 0, 0, 0x0, 64, [⟨63, 0, .ro, 0x0, 0, 0xFFFFFFFFFFFFFFFF⟩]⟩
  | .trussIndEnt => ⟨0xA00000, 0, 262143, 0x4, 0, 0, 0x0, 32, [⟨11, 0, .rw, 0x0, 0, 0xFFF⟩,
      ⟨14, 12, .rw, 0x0, 0, 0x7⟩,
      ⟨31, 30, .rw, 0x0, 0, 0x2⟩]⟩
  | .swCtl => ⟨0xC00000, 0, 0, 0x0, 0, 0, 0x0, 32, [⟨15, 0, .rw, 0x12C, 0, 0xFFFF⟩]⟩
  | .swFdbCmd => ⟨0xC00004, 0, 0, 0x0, 0, 0, 0x0, 32, [⟨3, 0, .wo, 0x0, 0, 0xF⟩,
      ⟨15, 4, .wo, 0x0, 0, 0xFFF⟩,
      ⟨31, 31, .wo, 0x0, 0, 0x1⟩]⟩
  | .swFdbMacLo => ⟨0xC00008, 0, 0, 0x0, 0, 0, 0x0, 32, [⟨31, 0, .rw, 0x0, 0, 0xFFFFFFFF⟩]⟩
  | .swFdbMacHi => ⟨0xC0000C, 0, 0, 0x0, 0, 0, 0x0, 32, [⟨15, 0, .rw, 0x0, 0, 0xFFFF⟩]⟩
  | .swFdbPort => ⟨0xC00010, 0, 0, 0x0, 0, 0, 0x0, 32, [⟨9, 0, .rw, 0x0, 0, 0x3FF⟩]⟩
  | .swFdbStat => ⟨0xC00014, 0, 0, 0x0, 0, 0, 0x0, 32, [⟨0, 0, .ro, 0x0, 0, 0x1⟩,
      ⟨3, 1, .ro, 0x0, 0, 0x7⟩,
      ⟨13, 4, .ro, 0x0, 0, 0x3FF⟩,
      ⟨14, 14, .ro, 0x0, 0, 0x1⟩,
      ⟨15, 15, .ro, 0x0, 0, 0x1⟩]⟩
  | .swPortCfg => ⟨0xC00100, 0, 63, 0x4, 0, 0, 0x0, 32, [⟨0, 0, .rw, 0x1, 0, 0x1⟩,
      ⟨1, 1, .rw, 0x1, 0, 0x1⟩,
      ⟨3, 2, .rw, 0x0, 0, 0x3⟩]⟩
  | .swVportMac => ⟨0xC01000, 64, 639, 0x10, 0, 0, 0x0, 32, [⟨31, 0, .rw, 0x0, 0, 0xFFFFFFFF⟩]⟩
  | .swVportCfg => ⟨0xC01004, 64, 639, 0x10, 0, 0, 0x0, 32, [⟨15, 0, .rw, 0x0, 0, 0xFFFF⟩,
      ⟨16, 16, .rw, 0x0, 0, 0x1⟩,
      ⟨17, 17, .rw, 0x0, 0, 0x1⟩,
      ⟨18, 18, .rw, 0x0, 0, 0x1⟩]⟩
  | .swVportRing => ⟨0xC01008, 64, 639, 0x10, 0, 0, 0x0, 32, [⟨11, 0, .rw, 0x0, 0, 0xFFF⟩]⟩
  | .swMoveCnt => ⟨0xC08000, 0, 0, 0x0, 0, 0, 0x0, 64, [⟨63, 0, .ro, 0x0, 0, 0xFFFFFFFFFFFFFFFF⟩]⟩
  | .swFlapCnt => ⟨0xC08008, 0, 0, 0x0, 0, 0, 0x0, 64, [⟨63, 0, .ro, 0x0, 0, 0xFFFFFFFFFFFFFFFF⟩]⟩
  | .swFlapIgnoredCnt => ⟨0xC08010, 0, 0, 0x0, 0, 0, 0x0, 64, [⟨63, 0, .ro, 0x0, 0, 0xFFFFFFFFFFFFFFFF⟩]⟩
  | .swLearnFullCnt => ⟨0xC08018, 0, 0, 0x0, 0, 0, 0x0, 64, [⟨63, 0, .ro, 0x0, 0, 0xFFFFFFFFFFFFFFFF⟩]⟩
  | .swSpoofCnt => ⟨0xC08020, 0, 0, 0x0, 0, 0, 0x0, 64, [⟨63, 0, .ro, 0x0, 0, 0xFFFFFFFFFFFFFFFF⟩]⟩
  | .swRxErrCnt => ⟨0xC08100, 0, 63, 0x8, 0, 0, 0x0, 64, [⟨63, 0, .ro, 0x0, 0, 0xFFFFFFFFFFFFFFFF⟩]⟩
  | .swRxDropCnt => ⟨0xC08300, 0, 63, 0x8, 0, 0, 0x0, 64, [⟨63, 0, .ro, 0x0, 0, 0xFFFFFFFFFFFFFFFF⟩]⟩
  | .xptCtl => ⟨0x1000000, 0, 0, 0x0, 0, 0, 0x0, 32, [⟨15, 0, .rw, 0xCC9D, 0, 0xFFFF⟩]⟩
  | .xptRetry => ⟨0x1000004, 0, 0, 0x0, 0, 0, 0x0, 32, [⟨15, 0, .rw, 0x20, 0, 0xFFFF⟩,
      ⟨18, 16, .rw, 0x7, 0, 0x7⟩,
      ⟨26, 24, .rw, 0x7, 0, 0x7⟩]⟩
  | .xptAck => ⟨0x1000008, 0, 0, 0x0, 0, 0, 0x0, 32, [⟨7, 0, .rw, 0x10, 1, 0xFF⟩,
      ⟨23, 8, .rw, 0x7D0, 0, 0xFFFF⟩]⟩
  | .xptMaxOut => ⟨0x100000C, 0, 0, 0x0, 0, 0, 0x0, 32, [⟨13, 0, .rw, 0x400, 1, 0x2000⟩]⟩
  | .evtDevRing => ⟨0x1000010, 0, 0, 0x0, 0, 0, 0x0, 32, [⟨7, 0, .rw, 0x0, 0, 0xFF⟩,
      ⟨31, 31, .rw, 0x0, 0, 0x1⟩]⟩
  | .xptRnrUs => ⟨0x1000014, 0, 0, 0x0, 0, 0, 0x0, 32, [⟨15, 0, .rw, 0x64, 0, 0xFFFF⟩]⟩
  | .xptConnBaseLo => ⟨0x1000020, 0, 0, 0x0, 0, 0, 0x0, 32, [⟨31, 12, .rw, 0x0, 0, 0xFFFFF⟩]⟩
  | .xptConnBaseHi => ⟨0x1000024, 0, 0, 0x0, 0, 0, 0x0, 32, [⟨19, 0, .rw, 0x0, 0, 0xFFFFF⟩]⟩
  | .xptConnCount => ⟨0x1000028, 0, 0, 0x0, 0, 0, 0x0, 32, [⟨20, 0, .rw, 0x0, 0, 0x100000⟩]⟩
  | .rgnBaseLo => ⟨0x1000030, 0, 0, 0x0, 0, 0, 0x0, 32, [⟨31, 12, .rw, 0x0, 0, 0xFFFFF⟩]⟩
  | .rgnBaseHi => ⟨0x1000034, 0, 0, 0x0, 0, 0, 0x0, 32, [⟨19, 0, .rw, 0x0, 0, 0xFFFFF⟩]⟩
  | .rgnCount => ⟨0x1000038, 0, 0, 0x0, 0, 0, 0x0, 32, [⟨24, 0, .rw, 0x0, 0, 0x1000000⟩]⟩
  | .xptStorm => ⟨0x1000040, 0, 0, 0x0, 0, 0, 0x0, 32, [⟨15, 0, .rw, 0x64, 10, 0x2710⟩,
      ⟨31, 16, .rw, 0x3E8, 0, 0xFFFF⟩]⟩
  | .xptEcn => ⟨0x1000044, 0, 0, 0x0, 0, 0, 0x0, 32, [⟨7, 0, .rw, 0x14, 0, 0xFF⟩,
      ⟨15, 8, .rw, 0x4, 0, 0xFF⟩,
      ⟨31, 16, .rw, 0x32, 0, 0xFFFF⟩]⟩
  | .xptBayConnFirst => ⟨0x1000400, 0, 63, 0x40, 0, 0, 0x0, 32, [⟨19, 0, .rw, 0x0, 0, 0xFFFFF⟩]⟩
  | .xptBayConnCount => ⟨0x1000404, 0, 63, 0x40, 0, 0, 0x0, 32, [⟨20, 0, .rw, 0x0, 0, 0x1FFFFF⟩]⟩
  | .xptBayWinFirst => ⟨0x1000408, 0, 63, 0x40, 0, 0, 0x0, 32, [⟨15, 0, .rw, 0x0, 0, 0xFFFF⟩]⟩
  | .xptBayWinCount => ⟨0x100040C, 0, 63, 0x40, 0, 0, 0x0, 32, [⟨16, 0, .rw, 0x0, 0, 0x1FFFF⟩]⟩
  | .xptBayRgnFirst => ⟨0x1000410, 0, 63, 0x40, 0, 0, 0x0, 32, [⟨23, 0, .rw, 0x0, 0, 0xFFFFFF⟩]⟩
  | .xptBayRgnCount => ⟨0x1000414, 0, 63, 0x40, 0, 0, 0x0, 32, [⟨24, 0, .rw, 0x0, 0, 0x1FFFFFF⟩]⟩
  | .xptBayRmapLo => ⟨0x1000420, 0, 63, 0x40, 0, 0, 0x0, 32, [⟨31, 12, .rw, 0x0, 0, 0xFFFFF⟩]⟩
  | .xptBayRmapHi => ⟨0x1000424, 0, 63, 0x40, 0, 0, 0x0, 32, [⟨19, 0, .rw, 0x0, 0, 0xFFFFF⟩]⟩
  | .xptBayRmapCount => ⟨0x1000428, 0, 63, 0x40, 0, 0, 0x0, 32, [⟨20, 0, .rw, 0x0, 0, 0x1FFFFF⟩]⟩
  | .xptPfcEn => ⟨0x1001800, 0, 63, 0x20, 0, 0, 0x0, 32, [⟨7, 0, .rw, 0x0, 0, 0xFF⟩]⟩
  | .xptPfcThr => ⟨0x1001804, 0, 63, 0x20, 0, 0, 0x0, 32, [⟨15, 0, .rw, 0x100, 0, 0xFFFF⟩,
      ⟨31, 16, .rw, 0xC0, 0, 0xFFFF⟩]⟩
  | .xptPfcHead => ⟨0x1001808, 0, 63, 0x20, 0, 0, 0x0, 32, [⟨15, 0, .rw, 0xA0, 0, 0xFFFF⟩]⟩
  | .xptPfcStrict => ⟨0x100180C, 0, 63, 0x20, 0, 0, 0x0, 32, [⟨7, 0, .rw, 0x0, 0, 0xFF⟩]⟩
  | .xptPfcW0 => ⟨0x1001810, 0, 63, 0x20, 0, 0, 0x0, 32, [⟨7, 0, .rw, 0x1, 1, 0xFF⟩,
      ⟨15, 8, .rw, 0x1, 1, 0xFF⟩,
      ⟨23, 16, .rw, 0x1, 1, 0xFF⟩,
      ⟨31, 24, .rw, 0x1, 1, 0xFF⟩]⟩
  | .xptPfcW1 => ⟨0x1001814, 0, 63, 0x20, 0, 0, 0x0, 32, [⟨7, 0, .rw, 0x1, 1, 0xFF⟩,
      ⟨15, 8, .rw, 0x1, 1, 0xFF⟩,
      ⟨23, 16, .rw, 0x1, 1, 0xFF⟩,
      ⟨31, 24, .rw, 0x1, 1, 0xFF⟩]⟩
  | .xptPfcEcn => ⟨0x1001818, 0, 63, 0x20, 0, 0, 0x0, 32, [⟨15, 0, .rw, 0x64, 0, 0xFFFF⟩,
      ⟨31, 16, .rw, 0x190, 0, 0xFFFF⟩]⟩
  | .xptRetxCnt => ⟨0x1002000, 0, 0, 0x0, 0, 0, 0x0, 64, [⟨63, 0, .ro, 0x0, 0, 0xFFFFFFFFFFFFFFFF⟩]⟩
  | .xptSeqNakCnt => ⟨0x1002008, 0, 0, 0x0, 0, 0, 0x0, 64, [⟨63, 0, .ro, 0x0, 0, 0xFFFFFFFFFFFFFFFF⟩]⟩
  | .xptDupCnt => ⟨0x1002010, 0, 0, 0x0, 0, 0, 0x0, 64, [⟨63, 0, .ro, 0x0, 0, 0xFFFFFFFFFFFFFFFF⟩]⟩
  | .xptStaleCnt => ⟨0x1002018, 0, 0, 0x0, 0, 0, 0x0, 64, [⟨63, 0, .ro, 0x0, 0, 0xFFFFFFFFFFFFFFFF⟩]⟩
  | .xptKeyViolCnt => ⟨0x1002020, 0, 0, 0x0, 0, 0, 0x0, 64, [⟨63, 0, .ro, 0x0, 0, 0xFFFFFFFFFFFFFFFF⟩]⟩
  | .xptAuthFailCnt => ⟨0x1002028, 0, 0, 0x0, 0, 0, 0x0, 64, [⟨63, 0, .ro, 0x0, 0, 0xFFFFFFFFFFFFFFFF⟩]⟩
  | .xptReplayCnt => ⟨0x1002030, 0, 0, 0x0, 0, 0, 0x0, 64, [⟨63, 0, .ro, 0x0, 0, 0xFFFFFFFFFFFFFFFF⟩]⟩
  | .xptCtxMissCnt => ⟨0x1002038, 0, 0, 0x0, 0, 0, 0x0, 64, [⟨63, 0, .ro, 0x0, 0, 0xFFFFFFFFFFFFFFFF⟩]⟩
  | .xptRgnMissCnt => ⟨0x1002040, 0, 0, 0x0, 0, 0, 0x0, 64, [⟨63, 0, .ro, 0x0, 0, 0xFFFFFFFFFFFFFFFF⟩]⟩
  | .xptStormDropCnt => ⟨0x1002048, 0, 0, 0x0, 0, 0, 0x0, 64, [⟨63, 0, .ro, 0x0, 0, 0xFFFFFFFFFFFFFFFF⟩]⟩
  | .xptNoconnCnt => ⟨0x1002050, 0, 0, 0x0, 0, 0, 0x0, 64, [⟨63, 0, .ro, 0x0, 0, 0xFFFFFFFFFFFFFFFF⟩]⟩
  | .xptBadOpCnt => ⟨0x1002058, 0, 0, 0x0, 0, 0, 0x0, 64, [⟨63, 0, .ro, 0x0, 0, 0xFFFFFFFFFFFFFFFF⟩]⟩
  | .xptEcnMarkCnt => ⟨0x1002060, 0, 0, 0x0, 0, 0, 0x0, 64, [⟨63, 0, .ro, 0x0, 0, 0xFFFFFFFFFFFFFFFF⟩]⟩
  | .xptEvtUnroutedCnt => ⟨0x1002068, 0, 0, 0x0, 0, 0, 0x0, 64, [⟨63, 0, .ro, 0x0, 0, 0xFFFFFFFFFFFFFFFF⟩]⟩
  | .xptDeniedCnt => ⟨0x1002070, 0, 0, 0x0, 0, 0, 0x0, 64, [⟨63, 0, .ro, 0x0, 0, 0xFFFFFFFFFFFFFFFF⟩]⟩
  | .nawynCtl => ⟨0x1800000, 0, 0, 0x0, 0, 0, 0x0, 32, [⟨2, 0, .rw, 0x0, 0, 0x7⟩,
      ⟨15, 4, .rw, 0x0, 0, 0xFFF⟩,
      ⟨31, 16, .rw, 0x64, 1, 0xFFFF⟩]⟩
  | .nawynRetry => ⟨0x1800004, 0, 0, 0x0, 0, 0, 0x0, 32, [⟨15, 0, .rw, 0x7D0, 0, 0xFFFF⟩,
      ⟨19, 16, .rw, 0x8, 1, 0xF⟩]⟩
  | .nawynTimeCtl => ⟨0x1800010, 0, 0, 0x0, 0, 0, 0x0, 32, [⟨0, 0, .rw, 0x0, 0, 0x1⟩,
      ⟨4, 1, .rw, 0x0, 0, 0xF⟩,
      ⟨5, 5, .rw, 0x0, 0, 0x1⟩]⟩
  | .nawynTimeStat => ⟨0x1800014, 0, 0, 0x0, 0, 0, 0x0, 32, [⟨1, 0, .ro, 0x0, 0, 0x3⟩,
      ⟨31, 16, .ro, 0x0, 0, 0xFFFF⟩]⟩
  | .nawynTime => ⟨0x1800018, 0, 0, 0x0, 0, 0, 0x0, 64, [⟨63, 0, .ro, 0x0, 0, 0xFFFFFFFFFFFFFFFF⟩]⟩
  | .nawynTimeOfs => ⟨0x1800020, 0, 0, 0x0, 0, 0, 0x0, 64, [⟨63, 0, .wo, 0x0, 0, 0xFFFFFFFFFFFFFFFF⟩]⟩
  | .nawynTimeFreq => ⟨0x1800028, 0, 0, 0x0, 0, 0, 0x0, 32, [⟨31, 0, .rw, 0x0, 0, 0xFFFFFFFF⟩]⟩
  | .nawynPtpEn => ⟨0x1800030, 0, 0, 0x0, 0, 0, 0x0, 64, [⟨63, 0, .rw, 0x0, 0, 0xFFFFFFFFFFFFFFFF⟩]⟩
  | .nawynPtpInfo => ⟨0x1800038, 0, 0, 0x0, 0, 0, 0x0, 32, [⟨0, 0, .ro, 0x0, 0, 0x1⟩,
      ⟨1, 1, .ro, 0x0, 0, 0x1⟩,
      ⟨7, 2, .ro, 0x0, 0, 0x3F⟩,
      ⟨11, 8, .ro, 0x0, 0, 0xF⟩,
      ⟨31, 16, .ro, 0x0, 0, 0xFFFF⟩]⟩
  | .nawynPtpTime => ⟨0x1800040, 0, 0, 0x0, 0, 0, 0x0, 64, [⟨63, 0, .rc, 0x0, 0, 0xFFFFFFFFFFFFFFFF⟩]⟩
  | .nawynLinkCfg => ⟨0x1800100, 0, 15, 0x40, 0, 0, 0x0, 32, [⟨0, 0, .rw, 0x1, 0, 0x1⟩,
      ⟨2, 1, .rw, 0x2, 0, 0x2⟩,
      ⟨3, 3, .rw, 0x0, 0, 0x1⟩,
      ⟨4, 4, .rw, 0x0, 0, 0x1⟩]⟩
  | .nawynLinkStat => ⟨0x1800104, 0, 15, 0x40, 0, 0, 0x0, 32, [⟨2, 0, .ro, 0x0, 0, 0x7⟩,
      ⟨4, 3, .ro, 0x0, 0, 0x3⟩,
      ⟨5, 5, .ro, 0x0, 0, 0x1⟩,
      ⟨17, 6, .ro, 0x0, 0, 0xFFF⟩,
      ⟨18, 18, .ro, 0x0, 0, 0x1⟩,
      ⟨19, 19, .ro, 0x0, 0, 0x1⟩,
      ⟨20, 20, .ro, 0x0, 0, 0x1⟩]⟩
  | .nawynLinkDelay => ⟨0x1800108, 0, 15, 0x40, 0, 0, 0x0, 32, [⟨15, 0, .ro, 0x0, 0, 0xFFFF⟩]⟩
  | .nawynLinkWrr => ⟨0x180010C, 0, 15, 0x40, 0, 0, 0x0, 32, [⟨3, 0, .rw, 0x1, 1, 0xF⟩,
      ⟨7, 4, .rw, 0x1, 1, 0xF⟩,
      ⟨11, 8, .rw, 0x1, 1, 0xF⟩,
      ⟨15, 12, .rw, 0x1, 1, 0xF⟩,
      ⟨19, 16, .rw, 0x1, 1, 0xF⟩,
      ⟨23, 20, .rw, 0x1, 1, 0xF⟩,
      ⟨27, 24, .rw, 0x1, 1, 0xF⟩,
      ⟨31, 28, .rw, 0x1, 1, 0xF⟩]⟩
  | .nawynCrsCycle => ⟨0x1800110, 0, 15, 0x40, 0, 0, 0x0, 32, [⟨19, 0, .rw, 0x2710, 0, 0xFFFFF⟩,
      ⟨26, 20, .rw, 0x0, 0, 0x40⟩]⟩
  | .nawynCrsId => ⟨0x1800114, 0, 15, 0x40, 0, 0, 0x0, 32, [⟨31, 0, .rw, 0x0, 0, 0xFFFFFFFF⟩]⟩
  | .nawynCrsArmAt => ⟨0x1800118, 0, 15, 0x40, 0, 0, 0x0, 64, [⟨63, 0, .rw, 0x0, 0, 0xFFFFFFFFFFFFFFFF⟩]⟩
  | .nawynCrsCmd => ⟨0x1800120, 0, 15, 0x40, 0, 0, 0x0, 32, [⟨31, 31, .wo, 0x0, 0, 0x1⟩]⟩
  | .nawynCrsStat => ⟨0x1800124, 0, 15, 0x40, 0, 0, 0x0, 32, [⟨1, 0, .ro, 0x0, 0, 0x3⟩]⟩
  | .nawynCrsActiveId => ⟨0x1800128, 0, 15, 0x40, 0, 0, 0x0, 32, [⟨31, 0, .ro, 0x0, 0, 0xFFFFFFFF⟩]⟩
  | .nawynCrsLateNs => ⟨0x180012C, 0, 15, 0x40, 0, 0, 0x0, 32, [⟨31, 0, .rw, 0x3E8, 0, 0xFFFFFFFF⟩]⟩
  | .nawynCrsWin => ⟨0x1800800, 0, 15, 0x200, 0, 63, 0x8, 64, [⟨19, 0, .rw, 0x0, 0, 0xFFFFF⟩,
      ⟨39, 20, .rw, 0x0, 0, 0xFFFFF⟩,
      ⟨42, 40, .rw, 0x0, 0, 0x7⟩]⟩
  | .nawynRoute => ⟨0x1810000, 0, 4095, 0x4, 0, 0, 0x0, 32, [⟨3, 0, .rw, 0x0, 0, 0xF⟩,
      ⟨4, 4, .rw, 0x0, 0, 0x1⟩,
      ⟨8, 5, .rw, 0x0, 0, 0xF⟩,
      ⟨9, 9, .rw, 0x0, 0, 0x1⟩]⟩
  | .nawynAper => ⟨0x1818000, 0, 255, 0x8, 0, 0, 0x0, 64, [⟨0, 0, .rw, 0x0, 0, 0x1⟩,
      ⟨1, 1, .rw, 0x0, 0, 0x1⟩,
      ⟨2, 2, .rw, 0x0, 0, 0x1⟩,
      ⟨14, 3, .rw, 0x0, 0, 0xFFF⟩,
      ⟨51, 30, .rw, 0x0, 0, 0x3FFFFF⟩]⟩
  | .nawynFlitTxCnt => ⟨0x1820000, 0, 15, 0x80, 0, 0, 0x0, 64, [⟨63, 0, .ro, 0x0, 0, 0xFFFFFFFFFFFFFFFF⟩]⟩
  | .nawynFlitRxCnt => ⟨0x1820008, 0, 15, 0x80, 0, 0, 0x0, 64, [⟨63, 0, .ro, 0x0, 0, 0xFFFFFFFFFFFFFFFF⟩]⟩
  | .nawynFecCorrCnt => ⟨0x1820010, 0, 15, 0x80, 0, 0, 0x0, 64, [⟨63, 0, .ro, 0x0, 0, 0xFFFFFFFFFFFFFFFF⟩]⟩
  | .nawynFlitBadCnt => ⟨0x1820018, 0, 15, 0x80, 0, 0, 0x0, 64, [⟨63, 0, .ro, 0x0, 0, 0xFFFFFFFFFFFFFFFF⟩]⟩
  | .nawynReplayCnt => ⟨0x1820020, 0, 15, 0x80, 0, 0, 0x0, 64, [⟨63, 0, .ro, 0x0, 0, 0xFFFFFFFFFFFFFFFF⟩]⟩
  | .nawynRetrainCnt => ⟨0x1820028, 0, 15, 0x80, 0, 0, 0x0, 64, [⟨63, 0, .ro, 0x0, 0, 0xFFFFFFFFFFFFFFFF⟩]⟩
  | .nawynDeferCnt => ⟨0x1820030, 0, 15, 0x80, 0, 0, 0x0, 64, [⟨63, 0, .ro, 0x0, 0, 0xFFFFFFFFFFFFFFFF⟩]⟩
  | .nawynLateCnt => ⟨0x1820038, 0, 15, 0x80, 0, 0, 0x0, 64, [⟨63, 0, .ro, 0x0, 0, 0xFFFFFFFFFFFFFFFF⟩]⟩
  | .nawynWinEmptyCnt => ⟨0x1820040, 0, 15, 0x80, 0, 0, 0x0, 64, [⟨63, 0, .ro, 0x0, 0, 0xFFFFFFFFFFFFFFFF⟩]⟩
  | .nawynLateMax => ⟨0x1820048, 0, 15, 0x80, 0, 0, 0x0, 32, [⟨31, 0, .rc, 0x0, 0, 0xFFFFFFFF⟩]⟩
  | .nawynOversizeCnt => ⟨0x1821000, 0, 0, 0x0, 0, 0, 0x0, 64, [⟨63, 0, .ro, 0x0, 0, 0xFFFFFFFFFFFFFFFF⟩]⟩
  | .nawynUndelivCnt => ⟨0x1821008, 0, 0, 0x0, 0, 0, 0x0, 64, [⟨63, 0, .ro, 0x0, 0, 0xFFFFFFFFFFFFFFFF⟩]⟩
  | .nawynAperFaultCnt => ⟨0x1821010, 0, 0, 0x0, 0, 0, 0x0, 64, [⟨63, 0, .ro, 0x0, 0, 0xFFFFFFFFFFFFFFFF⟩]⟩
  | .nawynRxDropCnt => ⟨0x1821018, 0, 0, 0x0, 0, 0, 0x0, 64, [⟨63, 0, .ro, 0x0, 0, 0xFFFFFFFFFFFFFFFF⟩]⟩
  | .nawynLateRespCnt => ⟨0x1821020, 0, 0, 0x0, 0, 0, 0x0, 64, [⟨63, 0, .ro, 0x0, 0, 0xFFFFFFFFFFFFFFFF⟩]⟩
  | .nawynPtpOvfCnt => ⟨0x1821028, 0, 0, 0x0, 0, 0, 0x0, 64, [⟨63, 0, .ro, 0x0, 0, 0xFFFFFFFFFFFFFFFF⟩]⟩
  | .nawynTimeStepCnt => ⟨0x1821030, 0, 0, 0x0, 0, 0, 0x0, 64, [⟨63, 0, .ro, 0x0, 0, 0xFFFFFFFFFFFFFFFF⟩]⟩
  | .nawynDeniedCnt => ⟨0x1821038, 0, 0, 0x0, 0, 0, 0x0, 64, [⟨63, 0, .ro, 0x0, 0, 0xFFFFFFFFFFFFFFFF⟩]⟩
  | .nawynLinkLostCnt => ⟨0x1821040, 0, 0, 0x0, 0, 0, 0x0, 64, [⟨63, 0, .ro, 0x0, 0, 0xFFFFFFFFFFFFFFFF⟩]⟩
  | .nawynBadMtypeCnt => ⟨0x1821048, 0, 0, 0x0, 0, 0, 0x0, 64, [⟨63, 0, .ro, 0x0, 0, 0xFFFFFFFFFFFFFFFF⟩]⟩
  | .loftStat => ⟨0x2000000, 0, 0, 0x0, 0, 0, 0x0, 32, [⟨0, 0, .ro, 0x0, 0, 0x1⟩,
      ⟨6, 1, .ro, 0x0, 0, 0x3F⟩]⟩
  | .loftMaxWait => ⟨0x2000004, 0, 0, 0x0, 0, 0, 0x0, 32, [⟨15, 0, .rw, 0x400, 1, 0xFFFF⟩]⟩
  | .loftBiasLoadedLo => ⟨0x2000008, 0, 0, 0x0, 0, 0, 0x0, 32, [⟨31, 0, .ro, 0x0, 0, 0xFFFFFFFF⟩]⟩
  | .loftBiasLoadedHi => ⟨0x200000C, 0, 0, 0x0, 0, 0, 0x0, 32, [⟨31, 0, .ro, 0x0, 0, 0xFFFFFFFF⟩]⟩
  | .loftTicket => ⟨0x2000010, 0, 0, 0x0, 0, 0, 0x0, 64, [⟨63, 0, .ro, 0x0, 0, 0xFFFFFFFFFFFFFFFF⟩]⟩
  | .loftRetired => ⟨0x2000018, 0, 0, 0x0, 0, 0, 0x0, 64, [⟨63, 0, .ro, 0x0, 0, 0xFFFFFFFFFFFFFFFF⟩]⟩
  | .loftNode => ⟨0x2001000, 0, 4095, 0x4, 0, 0, 0x0, 32, [⟨19, 0, .rw, 0x0, 0, 0xFFFFF⟩,
      ⟨31, 31, .rw, 0x0, 0, 0x1⟩]⟩
  | .loftPoolBaseLo => ⟨0x2008000, 0, 63, 0x20, 0, 0, 0x0, 32, [⟨31, 3, .rw, 0x0, 0, 0x1FFFFFFF⟩]⟩
  | .loftPoolBaseHi => ⟨0x2008004, 0, 63, 0x20, 0, 0, 0x0, 32, [⟨19, 0, .rw, 0x0, 0, 0xFFFFF⟩]⟩
  | .loftPoolCfg => ⟨0x2008008, 0, 63, 0x20, 0, 0, 0x0, 32, [⟨4, 0, .rw, 0x0, 4, 0x14⟩,
      ⟨8, 8, .rw, 0x0, 0, 0x1⟩,
      ⟨31, 16, .rw, 0x0, 0, 0xFFFF⟩]⟩
  | .loftPoolHead => ⟨0x200800C, 0, 63, 0x20, 0, 0, 0x0, 32, [⟨19, 0, .ro, 0x0, 0, 0xFFFFF⟩]⟩
  | .loftPoolTail => ⟨0x2008010, 0, 63, 0x20, 0, 0, 0x0, 32, [⟨19, 0, .rw, 0x0, 0, 0xFFFFF⟩]⟩
  | .loftPoolLevel => ⟨0x2008014, 0, 63, 0x20, 0, 0, 0x0, 32, [⟨19, 0, .ro, 0x0, 0, 0xFFFFF⟩]⟩
  | .loftQueryCnt => ⟨0x2009000, 0, 0, 0x0, 0, 0, 0x0, 64, [⟨63, 0, .ro, 0x0, 0, 0xFFFFFFFFFFFFFFFF⟩]⟩
  | .loftAppendCnt => ⟨0x2009008, 0, 0, 0x0, 0, 0, 0x0, 64, [⟨63, 0, .ro, 0x0, 0, 0xFFFFFFFFFFFFFFFF⟩]⟩
  | .loftTokenCnt => ⟨0x2009010, 0, 0, 0x0, 0, 0, 0x0, 64, [⟨63, 0, .ro, 0x0, 0, 0xFFFFFFFFFFFFFFFF⟩]⟩
  | .loftPadTokenCnt => ⟨0x2009018, 0, 0, 0x0, 0, 0, 0x0, 64, [⟨63, 0, .ro, 0x0, 0, 0xFFFFFFFFFFFFFFFF⟩]⟩
  | .loftMaskedRowCnt => ⟨0x2009020, 0, 0, 0x0, 0, 0, 0x0, 64, [⟨63, 0, .ro, 0x0, 0, 0xFFFFFFFFFFFFFFFF⟩]⟩
  | .loftBadSlateCnt => ⟨0x2009028, 0, 0, 0x0, 0, 0, 0x0, 64, [⟨63, 0, .ro, 0x0, 0, 0xFFFFFFFFFFFFFFFF⟩]⟩
  | .loftNoSlateCnt => ⟨0x2009030, 0, 0, 0x0, 0, 0, 0x0, 64, [⟨63, 0, .ro, 0x0, 0, 0xFFFFFFFFFFFFFFFF⟩]⟩
  | .loftResultLostCnt => ⟨0x2009038, 0, 0, 0x0, 0, 0, 0x0, 64, [⟨63, 0, .ro, 0x0, 0, 0xFFFFFFFFFFFFFFFF⟩]⟩
  | .loftDeniedCnt => ⟨0x2009040, 0, 0, 0x0, 0, 0, 0x0, 64, [⟨63, 0, .ro, 0x0, 0, 0xFFFFFFFFFFFFFFFF⟩]⟩
  | .ulCfg => ⟨0x2800000, 0, 0, 0x0, 0, 0, 0x0, 32, [⟨5, 0, .rw, 0x0, 0, 0x3F⟩,
      ⟨31, 31, .rw, 0x0, 0, 0x1⟩]⟩
  | .ulBaseLo => ⟨0x2800008, 0, 0, 0x0, 0, 0, 0x0, 32, [⟨31, 21, .rw, 0x0, 0, 0x7FF⟩]⟩
  | .ulBaseHi => ⟨0x280000C, 0, 0, 0x0, 0, 0, 0x0, 32, [⟨19, 0, .rw, 0x0, 0, 0xFFFFF⟩]⟩
  | .ulSlotSize => ⟨0x2800010, 0, 0, 0x0, 0, 0, 0x0, 32, [⟨15, 0, .rw, 0x0, 0, 0xFFFF⟩]⟩
  | .ulCtl => ⟨0x2800014, 0, 0, 0x0, 0, 0, 0x0, 32, [⟨2, 0, .rw, 0x6, 0, 0x7⟩,
      ⟨31, 16, .rw, 0x258, 1, 0xFFFF⟩]⟩
  | .ulStat => ⟨0x2800018, 0, 0, 0x0, 0, 0, 0x0, 32, [⟨1, 0, .ro, 0x0, 0, 0x3⟩,
      ⟨3, 2, .ro, 0x0, 0, 0x3⟩,
      ⟨4, 4, .ro, 0x0, 0, 0x1⟩,
      ⟨5, 5, .ro, 0x0, 0, 0x1⟩]⟩
  | .ulLastCut => ⟨0x280001C, 0, 0, 0x0, 0, 0, 0x0, 32, [⟨31, 0, .ro, 0x0, 0, 0xFFFFFFFF⟩]⟩
  | .ulBaseCut => ⟨0x2800020, 0, 0, 0x0, 0, 0, 0x0, 32, [⟨31, 0, .ro, 0x0, 0, 0xFFFFFFFF⟩]⟩
  | .ulBaseInv => ⟨0x2800024, 0, 0, 0x0, 0, 0, 0x0, 32, [⟨31, 31, .wo, 0x0, 0, 0x1⟩]⟩
  | .ulCutCnt => ⟨0x2801000, 0, 0, 0x0, 0, 0, 0x0, 64, [⟨63, 0, .ro, 0x0, 0, 0xFFFFFFFFFFFFFFFF⟩]⟩
  | .ulAbandonCnt => ⟨0x2801008, 0, 0, 0x0, 0, 0, 0x0, 64, [⟨63, 0, .ro, 0x0, 0, 0xFFFFFFFFFFFFFFFF⟩]⟩
  | .ulCopyByteCnt => ⟨0x2801010, 0, 0, 0x0, 0, 0, 0x0, 64, [⟨63, 0, .ro, 0x0, 0, 0xFFFFFFFFFFFFFFFF⟩]⟩
  | .ulHashedCnt => ⟨0x2801018, 0, 0, 0x0, 0, 0, 0x0, 64, [⟨63, 0, .ro, 0x0, 0, 0xFFFFFFFFFFFFFFFF⟩]⟩
  | .ulChangedCnt => ⟨0x2801020, 0, 0, 0x0, 0, 0, 0x0, 64, [⟨63, 0, .ro, 0x0, 0, 0xFFFFFFFFFFFFFFFF⟩]⟩
  | .ulCommitCnt => ⟨0x2801028, 0, 0, 0x0, 0, 0, 0x0, 64, [⟨63, 0, .ro, 0x0, 0, 0xFFFFFFFFFFFFFFFF⟩]⟩
  | .ulDrainFailCnt => ⟨0x2801030, 0, 0, 0x0, 0, 0, 0x0, 64, [⟨63, 0, .ro, 0x0, 0, 0xFFFFFFFFFFFFFFFF⟩]⟩
  | .ulRestoreCnt => ⟨0x2801038, 0, 0, 0x0, 0, 0, 0x0, 64, [⟨63, 0, .ro, 0x0, 0, 0xFFFFFFFFFFFFFFFF⟩]⟩
  | .ulTokenBadCnt => ⟨0x2801040, 0, 0, 0x0, 0, 0, 0x0, 64, [⟨63, 0, .ro, 0x0, 0, 0xFFFFFFFFFFFFFFFF⟩]⟩
  | .ulDeniedCnt => ⟨0x2801048, 0, 0, 0x0, 0, 0, 0x0, 64, [⟨63, 0, .ro, 0x0, 0, 0xFFFFFFFFFFFFFFFF⟩]⟩
  | .storCtl => ⟨0x3000000, 0, 0, 0x0, 0, 0, 0x0, 32, [⟨5, 0, .rw, 0x0, 0, 0x3F⟩,
      ⟨31, 31, .rw, 0x0, 0, 0x1⟩]⟩
  | .secFloor => ⟨0x3000004, 0, 0, 0x0, 0, 0, 0x0, 32, [⟨7, 0, .ro, 0x0, 0, 0xFF⟩]⟩
  | .secSlotStat => ⟨0x3000008, 0, 0, 0x0, 0, 0, 0x0, 32, [⟨3, 0, .ro, 0x0, 0, 0xF⟩,
      ⟨7, 4, .ro, 0x0, 0, 0xF⟩,
      ⟨11, 8, .ro, 0x0, 0, 0xF⟩,
      ⟨15, 12, .ro, 0x0, 0, 0xF⟩]⟩
  | .secKeyCount => ⟨0x300000C, 0, 0, 0x0, 0, 0, 0x0, 32, [⟨31, 0, .ro, 0x0, 0, 0xFFFFFFFF⟩]⟩
  | .storCtrl => ⟨0x3001000, 0, 127, 0x10, 0, 0, 0x0, 32, [⟨19, 0, .rw, 0x0, 0, 0xFFFFF⟩]⟩
  | .storCtrlId => ⟨0x3001004, 0, 127, 0x10, 0, 0, 0x0, 32, [⟨7, 0, .ro, 0x0, 0, 0xFF⟩,
      ⟨8, 8, .ro, 0x0, 0, 0x1⟩,
      ⟨9, 9, .ro, 0x0, 0, 0x1⟩]⟩
  | .storCtrlOut => ⟨0x3001008, 0, 127, 0x10, 0, 0, 0x0, 32, [⟨31, 0, .ro, 0x0, 0, 0xFFFFFFFF⟩]⟩
  | .storNsCtl => ⟨0x3010000, 0, 127, 0x200, 0, 15, 0x20, 32, [⟨0, 0, .rw, 0x0, 0, 0x1⟩,
      ⟨1, 1, .rw, 0x0, 0, 0x1⟩,
      ⟨2, 2, .rw, 0x0, 0, 0x1⟩,
      ⟨3, 3, .rw, 0x0, 0, 0x1⟩,
      ⟨10, 8, .rw, 0x0, 0, 0x7⟩,
      ⟨16, 16, .rw, 0x0, 0, 0x1⟩]⟩
  | .storNsConn => ⟨0x3010004, 0, 127, 0x200, 0, 15, 0x20, 32, [⟨31, 0, .rw, 0x0, 0, 0xFFFFFFFF⟩]⟩
  | .storNsRkey => ⟨0x3010008, 0, 127, 0x200, 0, 15, 0x20, 32, [⟨31, 0, .rw, 0x0, 0, 0xFFFFFFFF⟩]⟩
  | .storNsKey => ⟨0x301000C, 0, 127, 0x200, 0, 15, 0x20, 32, [⟨31, 0, .rw, 0x0, 0, 0xFFFFFFFF⟩]⟩
  | .storNsBase => ⟨0x3010010, 0, 127, 0x200, 0, 15, 0x20, 64, [⟨63, 0, .rw, 0x0, 0, 0xFFFFFFFFFFFFFFFF⟩]⟩
  | .storNsLbas => ⟨0x3010018, 0, 127, 0x200, 0, 15, 0x20, 64, [⟨63, 0, .rw, 0x0, 0, 0xFFFFFFFFFFFFFFFF⟩]⟩
  | .storCmdCnt => ⟨0x3020000, 0, 0, 0x0, 0, 0, 0x0, 64, [⟨63, 0, .ro, 0x0, 0, 0xFFFFFFFFFFFFFFFF⟩]⟩
  | .storByteCnt => ⟨0x3020008, 0, 0, 0x0, 0, 0, 0x0, 64, [⟨63, 0, .ro, 0x0, 0, 0xFFFFFFFFFFFFFFFF⟩]⟩
  | .storBackendErrCnt => ⟨0x3020010, 0, 0, 0x0, 0, 0, 0x0, 64, [⟨63, 0, .ro, 0x0, 0, 0xFFFFFFFFFFFFFFFF⟩]⟩
  | .storDeniedCnt => ⟨0x3020018, 0, 0, 0x0, 0, 0, 0x0, 64, [⟨63, 0, .ro, 0x0, 0, 0xFFFFFFFFFFFFFFFF⟩]⟩
  | .secGcmFailCnt => ⟨0x3020020, 0, 0, 0x0, 0, 0, 0x0, 64, [⟨63, 0, .ro, 0x0, 0, 0xFFFFFFFFFFFFFFFF⟩]⟩
  | .secIdeFailCnt => ⟨0x3020028, 0, 0, 0x0, 0, 0, 0x0, 64, [⟨63, 0, .ro, 0x0, 0, 0xFFFFFFFFFFFFFFFF⟩]⟩
  | .gutChCtl => ⟨0x3800000, 0, 3, 0x40, 0, 0, 0x0, 32, [⟨0, 0, .rw, 0x0, 0, 0x1⟩,
      ⟨1, 1, .rw, 0x0, 0, 0x1⟩,
      ⟨15, 8, .rw, 0x0, 0, 0xFF⟩,
      ⟨24, 16, .rw, 0x0, 0, 0x1FF⟩]⟩
  | .gutChStat => ⟨0x3800004, 0, 3, 0x40, 0, 0, 0x0, 32, [⟨1, 0, .ro, 0x0, 0, 0x3⟩,
      ⟨3, 2, .ro, 0x0, 0, 0x3⟩,
      ⟨4, 4, .ro, 0x0, 0, 0x1⟩,
      ⟨5, 5, .ro, 0x0, 0, 0x1⟩,
      ⟨6, 6, .ro, 0x0, 0, 0x1⟩,
      ⟨31, 16, .ro, 0x0, 0, 0xFFFF⟩]⟩
  | .gutChDbaseLo => ⟨0x3800008, 0, 3, 0x40, 0, 0, 0x0, 32, [⟨31, 16, .rw, 0x0, 0, 0xFFFF⟩]⟩
  | .gutChDbaseHi => ⟨0x380000C, 0, 3, 0x40, 0, 0, 0x0, 32, [⟨19, 0, .rw, 0x0, 0, 0xFFFFF⟩]⟩
  | .gutChDsize => ⟨0x3800010, 0, 3, 0x40, 0, 0, 0x0, 32, [⟨5, 0, .rw, 0x10, 16, 0x20⟩]⟩
  | .gutChDhead => ⟨0x3800014, 0, 3, 0x40, 0, 0, 0x0, 32, [⟨31, 0, .rw, 0x0, 0, 0xFFFFFFFF⟩]⟩
  | .gutChDtail => ⟨0x3800018, 0, 3, 0x40, 0, 0, 0x0, 32, [⟨31, 0, .ro, 0x0, 0, 0xFFFFFFFF⟩]⟩
  | .gutChNotify => ⟨0x380001C, 0, 3, 0x40, 0, 0, 0x0, 32, [⟨1, 0, .rw, 0x0, 0, 0x2⟩,
      ⟨12, 2, .rw, 0x0, 0, 0x7FF⟩,
      ⟨20, 13, .rw, 0x1, 1, 0xFF⟩,
      ⟨31, 21, .rw, 0x0, 0, 0x7FF⟩]⟩
  | .gutChOwner => ⟨0x3800020, 0, 3, 0x40, 0, 0, 0x0, 32, [⟨0, 0, .rw, 0x0, 0, 0x1⟩,
      ⟨13, 8, .rw, 0x0, 0, 0x3F⟩]⟩
  | .gutChStall => ⟨0x3800024, 0, 3, 0x40, 0, 0, 0x0, 32, [⟨19, 0, .rw, 0x3E8, 1, 0xF4240⟩]⟩
  | .gutChSeq => ⟨0x3800028, 0, 3, 0x40, 0, 0, 0x0, 32, [⟨31, 0, .ro, 0x0, 0, 0xFFFFFFFF⟩]⟩
  | .gutSrc => ⟨0x3800400, 0, 47, 0x4, 0, 0, 0x0, 32, [⟨0, 0, .rw, 0x0, 0, 0x1⟩,
      ⟨2, 1, .rw, 0x0, 0, 0x3⟩,
      ⟨4, 3, .rw, 0x0, 0, 0x3⟩,
      ⟨8, 8, .rw, 0x0, 0, 0x1⟩,
      ⟨9, 9, .rw, 0x0, 0, 0x1⟩,
      ⟨10, 10, .rw, 0x0, 0, 0x1⟩,
      ⟨23, 16, .rw, 0x0, 0, 0xFF⟩]⟩
  | .gutMark => ⟨0x3800500, 0, 15, 0x8, 0, 0, 0x0, 64, [⟨63, 0, .wo, 0x0, 0, 0xFFFFFFFFFFFFFFFF⟩]⟩
  | .gutDropCnt => ⟨0x3801000, 0, 47, 0x8, 0, 0, 0x0, 64, [⟨63, 0, .ro, 0x0, 0, 0xFFFFFFFFFFFFFFFF⟩]⟩
  | .gutChPktCnt => ⟨0x3801200, 0, 3, 0x8, 0, 0, 0x0, 64, [⟨63, 0, .ro, 0x0, 0, 0xFFFFFFFFFFFFFFFF⟩]⟩
  | .gutChOvfCnt => ⟨0x3801220, 0, 3, 0x8, 0, 0, 0x0, 64, [⟨63, 0, .ro, 0x0, 0, 0xFFFFFFFFFFFFFFFF⟩]⟩
  | .gutDeniedCnt => ⟨0x3801240, 0, 0, 0x0, 0, 0, 0x0, 64, [⟨63, 0, .ro, 0x0, 0, 0xFFFFFFFFFFFFFFFF⟩]⟩
  | .gutDrainFaultCnt => ⟨0x3801248, 0, 0, 0x0, 0, 0, 0x0, 64, [⟨63, 0, .ro, 0x0, 0, 0xFFFFFFFFFFFFFFFF⟩]⟩
  | .pwrState => ⟨0x3C00000, 0, 0, 0x0, 0, 0, 0x0, 32, [⟨2, 0, .ro, 0x0, 0, 0x7⟩,
      ⟨6, 3, .ro, 0x0, 0, 0xF⟩,
      ⟨12, 7, .ro, 0x0, 0, 0x3F⟩,
      ⟨13, 13, .ro, 0x0, 0, 0x1⟩,
      ⟨14, 14, .ro, 0x0, 0, 0x1⟩,
      ⟨15, 15, .ro, 0x0, 0, 0x1⟩]⟩
  | .pwrCtl => ⟨0x3C00004, 0, 0, 0x0, 0, 0, 0x0, 32, [⟨0, 0, .wo, 0x0, 0, 0x1⟩,
      ⟨1, 1, .wo, 0x0, 0, 0x1⟩]⟩
  | .bootAttempts => ⟨0x3C00008, 0, 0, 0x0, 0, 0, 0x0, 32, [⟨31, 0, .ro, 0x0, 0, 0xFFFFFFFF⟩]⟩
  | .pwrBootStat => ⟨0x3C0000C, 0, 0, 0x0, 0, 0, 0x0, 32, [⟨2, 0, .ro, 0x0, 0, 0x7⟩,
      ⟨5, 3, .ro, 0x0, 0, 0x7⟩,
      ⟨8, 6, .ro, 0x0, 0, 0x7⟩,
      ⟨9, 9, .ro, 0x0, 0, 0x1⟩,
      ⟨16, 10, .ro, 0x1, 0, 0x7F⟩]⟩
  | .pwrBootOrder => ⟨0x3C00010, 0, 0, 0x0, 0, 0, 0x0, 32, [⟨2, 0, .ro, 0x0, 0, 0x7⟩,
      ⟨5, 3, .ro, 0x0, 0, 0x7⟩,
      ⟨8, 6, .ro, 0x0, 0, 0x7⟩,
      ⟨11, 9, .ro, 0x0, 0, 0x7⟩,
      ⟨14, 12, .ro, 0x0, 0, 0x7⟩]⟩
  | .pwrWakePend => ⟨0x3C00020, 0, 2, 0x4, 0, 0, 0x0, 32, [⟨31, 0, .ro, 0x0, 0, 0xFFFFFFFF⟩]⟩
  | .pwrRoofWakeEn => ⟨0x3C00030, 0, 0, 0x0, 0, 0, 0x0, 32, [⟨0, 0, .rw, 0x0, 0, 0x1⟩,
      ⟨1, 1, .rw, 0x1, 0, 0x1⟩,
      ⟨2, 2, .rw, 0x0, 0, 0x1⟩,
      ⟨3, 3, .rw, 0x0, 0, 0x1⟩,
      ⟨4, 4, .rw, 0x1, 0, 0x1⟩,
      ⟨5, 5, .rw, 0x1, 0, 0x1⟩,
      ⟨6, 6, .rw, 0x0, 0, 0x1⟩,
      ⟨8, 8, .rw, 0x1, 0, 0x1⟩,
      ⟨9, 9, .rw, 0x1, 0, 0x1⟩]⟩
  | .pwrRoofWakeSrc => ⟨0x3C00034, 0, 0, 0x0, 0, 0, 0x0, 32, [⟨6, 0, .w1c, 0x0, 0, 0x7F⟩]⟩
  | .pwrRoofTimer => ⟨0x3C00038, 0, 0, 0x0, 0, 0, 0x0, 32, [⟨31, 0, .rw, 0x0, 0, 0xFFFFFFFF⟩]⟩
  | .pwrRoofDelay => ⟨0x3C0003C, 0, 0, 0x0, 0, 0, 0x0, 32, [⟨31, 0, .rw, 0x64, 0, 0xFFFFFFFF⟩]⟩
  | .pwrBayRst => ⟨0x3C00048, 0, 0, 0x0, 0, 0, 0x0, 32, [⟨5, 0, .wo, 0x0, 0, 0x3F⟩,
      ⟨31, 31, .wo, 0x0, 0, 0x1⟩]⟩
  | .pwrNapAbortCnt => ⟨0x3C00080, 0, 0, 0x0, 0, 0, 0x0, 64, [⟨63, 0, .ro, 0x0, 0, 0xFFFFFFFFFFFFFFFF⟩]⟩
  | .pwrWakeAfterPnrCnt => ⟨0x3C00088, 0, 0, 0x0, 0, 0, 0x0, 64, [⟨63, 0, .ro, 0x0, 0, 0xFFFFFFFFFFFFFFFF⟩]⟩
  | .pwrTarpEntryCnt => ⟨0x3C00090, 0, 0, 0x0, 0, 0, 0x0, 64, [⟨63, 0, .ro, 0x0, 0, 0xFFFFFFFFFFFFFFFF⟩]⟩
  | .pwrTarpDiscardCnt => ⟨0x3C00098, 0, 0, 0x0, 0, 0, 0x0, 64, [⟨63, 0, .ro, 0x0, 0, 0xFFFFFFFFFFFFFFFF⟩]⟩
  | .pwrRoofEntryCnt => ⟨0x3C000A0, 0, 0, 0x0, 0, 0, 0x0, 64, [⟨63, 0, .ro, 0x0, 0, 0xFFFFFFFFFFFFFFFF⟩]⟩
  | .pwrRoofAbortCnt => ⟨0x3C000A8, 0, 0, 0x0, 0, 0, 0x0, 64, [⟨63, 0, .ro, 0x0, 0, 0xFFFFFFFFFFFFFFFF⟩]⟩
  | .pwrClkFailCnt => ⟨0x3C000B0, 0, 0, 0x0, 0, 0, 0x0, 64, [⟨63, 0, .ro, 0x0, 0, 0xFFFFFFFFFFFFFFFF⟩]⟩
  | .pwrDeniedCnt => ⟨0x3C000B8, 0, 0, 0x0, 0, 0, 0x0, 64, [⟨63, 0, .ro, 0x0, 0, 0xFFFFFFFFFFFFFFFF⟩]⟩
  | .pwrBoardPgCnt => ⟨0x3C000C0, 0, 0, 0x0, 0, 0, 0x0, 64, [⟨63, 0, .ro, 0x0, 0, 0xFFFFFFFFFFFFFFFF⟩]⟩
  | .pwrWarmRstCnt => ⟨0x3C000C8, 0, 0, 0x0, 0, 0, 0x0, 64, [⟨63, 0, .ro, 0x0, 0, 0xFFFFFFFFFFFFFFFF⟩]⟩
  | .pwrChainAddr => ⟨0x3C00200, 0, 0, 0x0, 0, 0, 0x0, 32, [⟨6, 0, .ro, 0x0, 0, 0x7F⟩,
      ⟨7, 7, .ro, 0x0, 0, 0x1⟩,
      ⟨8, 8, .ro, 0x0, 0, 0x1⟩,
      ⟨9, 9, .ro, 0x0, 0, 0x1⟩]⟩
  | .pwrChainCtl => ⟨0x3C00204, 0, 0, 0x0, 0, 0, 0x0, 32, [⟨0, 0, .rw, 0x0, 0, 0x1⟩,
      ⟨1, 1, .wo, 0x0, 0, 0x1⟩]⟩
  | .pwrUnitIdLo => ⟨0x3C00208, 0, 0, 0x0, 0, 0, 0x0, 32, [⟨31, 0, .ro, 0x0, 0, 0xFFFFFFFF⟩]⟩
  | .pwrUnitIdHi => ⟨0x3C0020C, 0, 0, 0x0, 0, 0, 0x0, 32, [⟨31, 0, .ro, 0x0, 0, 0xFFFFFFFF⟩]⟩
  | .pwrNodeId => ⟨0x3C00210, 0, 0, 0x0, 0, 0, 0x0, 32, [⟨11, 0, .rw, 0xFFF, 0, 0xFFE⟩,
      ⟨12, 12, .ro, 0x0, 0, 0x1⟩]⟩
  | .pwrConBaud => ⟨0x3C00300, 0, 0, 0x0, 0, 0, 0x0, 32, [⟨23, 0, .rw, 0x25BFB, 0, 0xFFFFFF⟩]⟩
  | .pwrConTx => ⟨0x3C00304, 0, 0, 0x0, 0, 0, 0x0, 32, [⟨7, 0, .wo, 0x0, 0, 0xFF⟩]⟩
  | .pwrConRx => ⟨0x3C00308, 0, 0, 0x0, 0, 0, 0x0, 32, [⟨7, 0, .rc, 0x0, 0, 0xFF⟩,
      ⟨8, 8, .rc, 0x0, 0, 0x1⟩,
      ⟨9, 9, .rc, 0x0, 0, 0x1⟩]⟩
  | .pwrConStat => ⟨0x3C0030C, 0, 0, 0x0, 0, 0, 0x0, 32, [⟨6, 0, .ro, 0x0, 0, 0x7F⟩,
      ⟨14, 8, .ro, 0x0, 0, 0x7F⟩,
      ⟨16, 16, .w1c, 0x0, 0, 0x1⟩,
      ⟨17, 17, .w1c, 0x0, 0, 0x1⟩]⟩
  | .pwrTemp => ⟨0x3C00400, 0, 15, 0x4, 0, 0, 0x0, 32, [⟨15, 0, .ro, 0x8000, 0, 0xFFFF⟩]⟩
  | .pwrTempMax => ⟨0x3C00440, 0, 0, 0x0, 0, 0, 0x0, 32, [⟨15, 0, .ro, 0x8000, 0, 0xFFFF⟩]⟩
  | .pwrThermThresh => ⟨0x3C00444, 0, 0, 0x0, 0, 0, 0x0, 32, [⟨7, 0, .rw, 0x5F, 0, 0xFF⟩,
      ⟨15, 8, .rw, 0x69, 0, 0xFF⟩,
      ⟨23, 16, .rw, 0x6E, 0, 0xFF⟩,
      ⟨31, 24, .rw, 0x64, 0, 0xFF⟩]⟩
  | .pwrThermStat => ⟨0x3C00448, 0, 0, 0x0, 0, 0, 0x0, 32, [⟨1, 0, .ro, 0x0, 0, 0x3⟩,
      ⟨2, 2, .ro, 0x0, 0, 0x1⟩]⟩
  | .pwrVmon => ⟨0x3C00480, 0, 7, 0x4, 0, 0, 0x0, 32, [⟨15, 0, .ro, 0x0, 0, 0xFFFF⟩,
      ⟨16, 16, .w1c, 0x0, 0, 0x1⟩,
      ⟨17, 17, .w1c, 0x0, 0, 0x1⟩]⟩
  | .pwrVmonLim => ⟨0x3C004A0, 0, 7, 0x4, 0, 0, 0x0, 32, [⟨15, 0, .rw, 0x0, 0, 0xFFFF⟩,
      ⟨31, 16, .rw, 0x0, 0, 0xFFFF⟩]⟩
  | .pwrAccCtl => ⟨0x3C00500, 0, 15, 0x8, 0, 0, 0x0, 32, [⟨1, 0, .wo, 0x0, 0, 0x3⟩,
      ⟨9, 2, .rw, 0xA, 1, 0xFF⟩,
      ⟨17, 10, .rw, 0x32, 1, 0xFF⟩,
      ⟨25, 18, .rw, 0xA, 1, 0xFF⟩]⟩
  | .pwrAccStat => ⟨0x3C00504, 0, 15, 0x8, 0, 0, 0x0, 32, [⟨2, 0, .ro, 0x0, 0, 0x7⟩,
      ⟨3, 3, .ro, 0x0, 0, 0x1⟩,
      ⟨4, 4, .ro, 0x0, 0, 0x1⟩,
      ⟨5, 5, .ro, 0x0, 0, 0x1⟩,
      ⟨7, 6, .ro, 0x0, 0, 0x3⟩]⟩
  | .pwrChainErrCnt => ⟨0x3C00600, 0, 0, 0x0, 0, 0, 0x0, 64, [⟨63, 0, .ro, 0x0, 0, 0xFFFFFFFFFFFFFFFF⟩]⟩
  | .pwrChainTimeoutCnt => ⟨0x3C00608, 0, 0, 0x0, 0, 0, 0x0, 64, [⟨63, 0, .ro, 0x0, 0, 0xFFFFFFFFFFFFFFFF⟩]⟩
  | .pwrConFrameCnt => ⟨0x3C00610, 0, 0, 0x0, 0, 0, 0x0, 64, [⟨63, 0, .ro, 0x0, 0, 0xFFFFFFFFFFFFFFFF⟩]⟩
  | .pwrConOverrunCnt => ⟨0x3C00618, 0, 0, 0x0, 0, 0, 0x0, 64, [⟨63, 0, .ro, 0x0, 0, 0xFFFFFFFFFFFFFFFF⟩]⟩
  | .pwrConBreakCnt => ⟨0x3C00620, 0, 0, 0x0, 0, 0, 0x0, 64, [⟨63, 0, .ro, 0x0, 0, 0xFFFFFFFFFFFFFFFF⟩]⟩
  | .pwrThrottleCnt => ⟨0x3C00628, 0, 0, 0x0, 0, 0, 0x0, 64, [⟨63, 0, .ro, 0x0, 0, 0xFFFFFFFFFFFFFFFF⟩]⟩
  | .pwrAccFaultCnt => ⟨0x3C00630, 0, 0, 0x0, 0, 0, 0x0, 64, [⟨63, 0, .ro, 0x0, 0, 0xFFFFFFFFFFFFFFFF⟩]⟩
  | .pwrDomCtl => ⟨0x3C01000, 0, 78, 0x8, 0, 0, 0x0, 32, [⟨1, 0, .rw, 0x1, 0, 0x2⟩,
      ⟨2, 2, .wo, 0x0, 0, 0x1⟩,
      ⟨3, 3, .wo, 0x0, 0, 0x1⟩,
      ⟨19, 4, .rw, 0x64, 0, 0xFFFF⟩]⟩
  | .pwrDomStat => ⟨0x3C01004, 0, 78, 0x8, 0, 0, 0x0, 32, [⟨1, 0, .ro, 0x3, 0, 0x3⟩,
      ⟨2, 2, .ro, 0x0, 0, 0x1⟩,
      ⟨5, 3, .ro, 0x0, 0, 0x7⟩,
      ⟨6, 6, .w1c, 0x0, 0, 0x1⟩,
      ⟨7, 7, .ro, 0x0, 0, 0x1⟩]⟩

/-- Every register, part 0. -/
def Reg.all0 : List Reg :=
  [.identId, .identFamily, .identMisalignCnt, .identLockedWrCnt, .identHostDeniedCnt, .identEpLink, .identEpDstate, .identEpVfStorage, .identEpWakeEn, .identEpAper, .identEpVfQp, .identEpStopAbortCnt, .identEpAperFaultCnt, .identEpDbDiscardCnt, .identEpLinkDownCnt, .identMbxCtl, .identMbxStat, .identMbxReq, .identMbxResp, .thatchCmd, .thatchStat, .thatchSrcLo, .thatchSrcHi, .thatchSrcLen, .thatchDrainLimit, .thatchStoreBase, .thatchQuiesce, .thatchLayoutIdLo, .thatchLayoutIdHi, .thatchBuildId, .thatchBayEpoch, .thatchBayStat, .thatchReloadCnt, .thatchRefuseCnt, .thatchHoldRefusedCnt, .thatchForcedDrainCnt, .thatchDeniedCnt, .thatchSlabTimeoutCnt, .thatchSlabMemFaultCnt, .thatchBayFaultCnt]

/-- Every register, part 1. -/
def Reg.all1 : List Reg :=
  [.qpDoorbell, .evrDoorbell, .qpSqBaseLo, .qpSqBaseHi, .qpCqBaseLo, .qpCqBaseHi, .qpCtl, .qpNotify, .qpPartner, .qpLimit, .qpSqHead, .qpSqTail, .qpCqTail, .qpCqHead, .qpStat, .evrBaseLo, .evrBaseHi, .evrCtl, .evrNotify, .evrTail, .evrHead, .evrStat, .admPrecBaseLo, .admPrecBaseHi, .admPrecCount, .admPrecSync, .admStat, .admPoolCap, .admPoolFloor, .admPoolGres, .admPoolTgt, .admPoolStgt, .admPoolWait, .admPoolLive, .admPoolStat, .admServedCnt, .admDelayedCnt, .admRefBudgetCnt, .admRefCapCnt, .admGOverCnt]

/-- Every register, part 2. -/
def Reg.all2 : List Reg :=
  [.admGShortCnt, .admDeniedCnt, .admDbBadCnt, .admEvrLostCnt, .admPrecMissCnt, .admCqStallCnt, .trussCtl, .trussVer, .trussOldInflight, .trussEvr, .trussReedLast, .trussPortCfg, .trussRuleCmd, .trussRuleStat, .trussRuleArg, .trussRuleActLo, .trussRuleActHi, .trussRuleKey, .trussRuleMask, .trussMalAct, .trussMalCnt, .trussPipePktCnt, .trussReedPktCnt, .trussSteerDeniedCnt, .trussRxNobufCnt, .trussVerBusyCnt, .trussCommitCnt, .trussIndInvalidCnt, .trussNawynRefusedCnt, .trussDeniedCnt, .trussIndCfg0, .trussIndCfg1, .trussIndCfg2, .trussHkey, .trussQpMode, .trussRuleHit, .trussIndEnt, .swCtl, .swFdbCmd, .swFdbMacLo]

/-- Every register, part 3. -/
def Reg.all3 : List Reg :=
  [.swFdbMacHi, .swFdbPort, .swFdbStat, .swPortCfg, .swVportMac, .swVportCfg, .swVportRing, .swMoveCnt, .swFlapCnt, .swFlapIgnoredCnt, .swLearnFullCnt, .swSpoofCnt, .swRxErrCnt, .swRxDropCnt, .xptCtl, .xptRetry, .xptAck, .xptMaxOut, .evtDevRing, .xptRnrUs, .xptConnBaseLo, .xptConnBaseHi, .xptConnCount, .rgnBaseLo, .rgnBaseHi, .rgnCount, .xptStorm, .xptEcn, .xptBayConnFirst, .xptBayConnCount, .xptBayWinFirst, .xptBayWinCount, .xptBayRgnFirst, .xptBayRgnCount, .xptBayRmapLo, .xptBayRmapHi, .xptBayRmapCount, .xptPfcEn, .xptPfcThr, .xptPfcHead]

/-- Every register, part 4. -/
def Reg.all4 : List Reg :=
  [.xptPfcStrict, .xptPfcW0, .xptPfcW1, .xptPfcEcn, .xptRetxCnt, .xptSeqNakCnt, .xptDupCnt, .xptStaleCnt, .xptKeyViolCnt, .xptAuthFailCnt, .xptReplayCnt, .xptCtxMissCnt, .xptRgnMissCnt, .xptStormDropCnt, .xptNoconnCnt, .xptBadOpCnt, .xptEcnMarkCnt, .xptEvtUnroutedCnt, .xptDeniedCnt, .nawynCtl, .nawynRetry, .nawynTimeCtl, .nawynTimeStat, .nawynTime, .nawynTimeOfs, .nawynTimeFreq, .nawynPtpEn, .nawynPtpInfo, .nawynPtpTime, .nawynLinkCfg, .nawynLinkStat, .nawynLinkDelay, .nawynLinkWrr, .nawynCrsCycle, .nawynCrsId, .nawynCrsArmAt, .nawynCrsCmd, .nawynCrsStat, .nawynCrsActiveId, .nawynCrsLateNs]

/-- Every register, part 5. -/
def Reg.all5 : List Reg :=
  [.nawynCrsWin, .nawynRoute, .nawynAper, .nawynFlitTxCnt, .nawynFlitRxCnt, .nawynFecCorrCnt, .nawynFlitBadCnt, .nawynReplayCnt, .nawynRetrainCnt, .nawynDeferCnt, .nawynLateCnt, .nawynWinEmptyCnt, .nawynLateMax, .nawynOversizeCnt, .nawynUndelivCnt, .nawynAperFaultCnt, .nawynRxDropCnt, .nawynLateRespCnt, .nawynPtpOvfCnt, .nawynTimeStepCnt, .nawynDeniedCnt, .nawynLinkLostCnt, .nawynBadMtypeCnt, .loftStat, .loftMaxWait, .loftBiasLoadedLo, .loftBiasLoadedHi, .loftTicket, .loftRetired, .loftNode, .loftPoolBaseLo, .loftPoolBaseHi, .loftPoolCfg, .loftPoolHead, .loftPoolTail, .loftPoolLevel, .loftQueryCnt, .loftAppendCnt, .loftTokenCnt, .loftPadTokenCnt]

/-- Every register, part 6. -/
def Reg.all6 : List Reg :=
  [.loftMaskedRowCnt, .loftBadSlateCnt, .loftNoSlateCnt, .loftResultLostCnt, .loftDeniedCnt, .ulCfg, .ulBaseLo, .ulBaseHi, .ulSlotSize, .ulCtl, .ulStat, .ulLastCut, .ulBaseCut, .ulBaseInv, .ulCutCnt, .ulAbandonCnt, .ulCopyByteCnt, .ulHashedCnt, .ulChangedCnt, .ulCommitCnt, .ulDrainFailCnt, .ulRestoreCnt, .ulTokenBadCnt, .ulDeniedCnt, .storCtl, .secFloor, .secSlotStat, .secKeyCount, .storCtrl, .storCtrlId, .storCtrlOut, .storNsCtl, .storNsConn, .storNsRkey, .storNsKey, .storNsBase, .storNsLbas, .storCmdCnt, .storByteCnt, .storBackendErrCnt]

/-- Every register, part 7. -/
def Reg.all7 : List Reg :=
  [.storDeniedCnt, .secGcmFailCnt, .secIdeFailCnt, .gutChCtl, .gutChStat, .gutChDbaseLo, .gutChDbaseHi, .gutChDsize, .gutChDhead, .gutChDtail, .gutChNotify, .gutChOwner, .gutChStall, .gutChSeq, .gutSrc, .gutMark, .gutDropCnt, .gutChPktCnt, .gutChOvfCnt, .gutDeniedCnt, .gutDrainFaultCnt, .pwrState, .pwrCtl, .bootAttempts, .pwrBootStat, .pwrBootOrder, .pwrWakePend, .pwrRoofWakeEn, .pwrRoofWakeSrc, .pwrRoofTimer, .pwrRoofDelay, .pwrBayRst, .pwrNapAbortCnt, .pwrWakeAfterPnrCnt, .pwrTarpEntryCnt, .pwrTarpDiscardCnt, .pwrRoofEntryCnt, .pwrRoofAbortCnt, .pwrClkFailCnt, .pwrDeniedCnt]

/-- Every register, part 8. -/
def Reg.all8 : List Reg :=
  [.pwrBoardPgCnt, .pwrWarmRstCnt, .pwrChainAddr, .pwrChainCtl, .pwrUnitIdLo, .pwrUnitIdHi, .pwrNodeId, .pwrConBaud, .pwrConTx, .pwrConRx, .pwrConStat, .pwrTemp, .pwrTempMax, .pwrThermThresh, .pwrThermStat, .pwrVmon, .pwrVmonLim, .pwrAccCtl, .pwrAccStat, .pwrChainErrCnt, .pwrChainTimeoutCnt, .pwrConFrameCnt, .pwrConOverrunCnt, .pwrConBreakCnt, .pwrThrottleCnt, .pwrAccFaultCnt, .pwrDomCtl, .pwrDomStat]

/-- Every register. -/
def Reg.all : List Reg :=
  Reg.all0 ++ (Reg.all1 ++ (Reg.all2 ++ (Reg.all3 ++ (Reg.all4 ++ (Reg.all5 ++ (Reg.all6 ++ (Reg.all7 ++ (Reg.all8))))))))


/-- A field of a register, by its bits. -/
structure Fld where
  reg : Reg
  hi : Nat
  lo : Nat
deriving DecidableEq, Repr

/-- IDENT_ID.vendor_id (00 T0.2). -/
abbrev Fld.identIdVendorId : Fld := ⟨.identId, 15, 0⟩
/-- IDENT_ID.device_id (00 T0.2). -/
abbrev Fld.identIdDeviceId : Fld := ⟨.identId, 31, 16⟩
/-- IDENT_FAMILY.rafter_count (00 T0.3). -/
abbrev Fld.identFamilyRafterCount : Fld := ⟨.identFamily, 6, 0⟩
/-- IDENT_FAMILY.eth_ports (00 T0.3). -/
abbrev Fld.identFamilyEthPorts : Fld := ⟨.identFamily, 10, 7⟩
/-- IDENT_FAMILY.nawyn_links (00 T0.3). -/
abbrev Fld.identFamilyNawynLinks : Fld := ⟨.identFamily, 15, 11⟩
/-- IDENT_FAMILY.mem_config (00 T0.3). -/
abbrev Fld.identFamilyMemConfig : Fld := ⟨.identFamily, 18, 16⟩
/-- IDENT_FAMILY.loft_present (00 T0.3). -/
abbrev Fld.identFamilyLoftPresent : Fld := ⟨.identFamily, 19, 19⟩
/-- IDENT_FAMILY.slabs (00 T0.3). -/
abbrev Fld.identFamilySlabs : Fld := ⟨.identFamily, 22, 20⟩
/-- IDENT_MISALIGN_CNT (00 R11). -/
abbrev Fld.identMisalignCnt : Fld := ⟨.identMisalignCnt, 63, 0⟩
/-- IDENT_LOCKED_WR_CNT (00 R17). -/
abbrev Fld.identLockedWrCnt : Fld := ⟨.identLockedWrCnt, 63, 0⟩
/-- IDENT_HOST_DENIED_CNT (07 R212). -/
abbrev Fld.identHostDeniedCnt : Fld := ⟨.identHostDeniedCnt, 63, 0⟩
/-- IDENT_EP_LINK.speed (07 T7.11). -/
abbrev Fld.identEpLinkSpeed : Fld := ⟨.identEpLink, 2, 0⟩
/-- IDENT_EP_LINK.width (07 T7.11). -/
abbrev Fld.identEpLinkWidth : Fld := ⟨.identEpLink, 7, 3⟩
/-- IDENT_EP_LINK.flit_mode (07 T7.11). -/
abbrev Fld.identEpLinkFlitMode : Fld := ⟨.identEpLink, 8, 8⟩
/-- IDENT_EP_LINK.link_up (07 T7.11). -/
abbrev Fld.identEpLinkLinkUp : Fld := ⟨.identEpLink, 9, 9⟩
/-- IDENT_EP_LINK.l0p_width (07 T7.11). -/
abbrev Fld.identEpLinkL0pWidth : Fld := ⟨.identEpLink, 14, 10⟩
/-- IDENT_EP_DSTATE.dstate (07 T7.11). -/
abbrev Fld.identEpDstateDstate : Fld := ⟨.identEpDstate, 1, 0⟩
/-- IDENT_EP_DSTATE.perst (07 T7.11). -/
abbrev Fld.identEpDstatePerst : Fld := ⟨.identEpDstate, 2, 2⟩
/-- IDENT_EP_VF_STORAGE.first (07 R196). -/
abbrev Fld.identEpVfStorageFirst : Fld := ⟨.identEpVfStorage, 7, 0⟩
/-- IDENT_EP_VF_STORAGE.count (07 R196). -/
abbrev Fld.identEpVfStorageCount : Fld := ⟨.identEpVfStorage, 15, 8⟩
/-- IDENT_EP_WAKE_EN.chain_wake (07 R206). -/
abbrev Fld.identEpWakeEnChainWake : Fld := ⟨.identEpWakeEn, 0, 0⟩
/-- IDENT_EP_WAKE_EN.bare_port (07 R206). -/
abbrev Fld.identEpWakeEnBarePort : Fld := ⟨.identEpWakeEn, 1, 1⟩
/-- IDENT_EP_WAKE_EN.host_event (07 R206). -/
abbrev Fld.identEpWakeEnHostEvent : Fld := ⟨.identEpWakeEn, 2, 2⟩
/-- IDENT_EP_WAKE_EN.tarp (07 R206). -/
abbrev Fld.identEpWakeEnTarp : Fld := ⟨.identEpWakeEn, 3, 3⟩
/-- IDENT_EP_WAKE_EN.wake_n (07 R206). -/
abbrev Fld.identEpWakeEnWakeN : Fld := ⟨.identEpWakeEn, 4, 4⟩
/-- IDENT_EP_APER.rd_en (07 R193). -/
abbrev Fld.identEpAperRdEn : Fld := ⟨.identEpAper, 0, 0⟩
/-- IDENT_EP_APER.wr_en (07 R193). -/
abbrev Fld.identEpAperWrEn : Fld := ⟨.identEpAper, 1, 1⟩
/-- IDENT_EP_APER.base (07 R193). -/
abbrev Fld.identEpAperBase : Fld := ⟨.identEpAper, 51, 30⟩
/-- IDENT_EP_VF_QP.first (07 R197). -/
abbrev Fld.identEpVfQpFirst : Fld := ⟨.identEpVfQp, 11, 0⟩
/-- IDENT_EP_VF_QP.count (07 R197). -/
abbrev Fld.identEpVfQpCount : Fld := ⟨.identEpVfQp, 24, 12⟩
/-- IDENT_EP_STOP_ABORT_CNT (07 R201). -/
abbrev Fld.identEpStopAbortCnt : Fld := ⟨.identEpStopAbortCnt, 63, 0⟩
/-- IDENT_EP_APER_FAULT_CNT (07 R193). -/
abbrev Fld.identEpAperFaultCnt : Fld := ⟨.identEpAperFaultCnt, 63, 0⟩
/-- IDENT_EP_DB_DISCARD_CNT (07 R197). -/
abbrev Fld.identEpDbDiscardCnt : Fld := ⟨.identEpDbDiscardCnt, 63, 0⟩
/-- IDENT_EP_LINK_DOWN_CNT (07 T7.11). -/
abbrev Fld.identEpLinkDownCnt : Fld := ⟨.identEpLinkDownCnt, 63, 0⟩
/-- IDENT_MBX_CTL.go (07 R208). -/
abbrev Fld.identMbxCtlGo : Fld := ⟨.identMbxCtl, 31, 31⟩
/-- IDENT_MBX_STAT.busy (07 R208). -/
abbrev Fld.identMbxStatBusy : Fld := ⟨.identMbxStat, 0, 0⟩
/-- IDENT_MBX_STAT.resp_ready (07 R208). -/
abbrev Fld.identMbxStatRespReady : Fld := ⟨.identMbxStat, 1, 1⟩
/-- IDENT_MBX_STAT.overrun (07 R208). -/
abbrev Fld.identMbxStatOverrun : Fld := ⟨.identMbxStat, 2, 2⟩
/-- IDENT_MBX_REQ (07 T7.8). -/
abbrev Fld.identMbxReq : Fld := ⟨.identMbxReq, 31, 0⟩
/-- IDENT_MBX_RESP (07 T7.8). -/
abbrev Fld.identMbxResp : Fld := ⟨.identMbxResp, 31, 0⟩
/-- THATCH_CMD.op (04 T4.15). -/
abbrev Fld.thatchCmdOp : Fld := ⟨.thatchCmd, 2, 0⟩
/-- THATCH_CMD.bay (04 T4.15). -/
abbrev Fld.thatchCmdBay : Fld := ⟨.thatchCmd, 13, 8⟩
/-- THATCH_CMD.auto_commit (04 T4.15). -/
abbrev Fld.thatchCmdAutoCommit : Fld := ⟨.thatchCmd, 16, 16⟩
/-- THATCH_CMD.go (04 T4.15). -/
abbrev Fld.thatchCmdGo : Fld := ⟨.thatchCmd, 31, 31⟩
/-- THATCH_STAT.phase (04 T4.15). -/
abbrev Fld.thatchStatPhase : Fld := ⟨.thatchStat, 3, 0⟩
/-- THATCH_STAT.result (04 T4.15). -/
abbrev Fld.thatchStatResult : Fld := ⟨.thatchStat, 7, 4⟩
/-- THATCH_STAT.bay (04 T4.15). -/
abbrev Fld.thatchStatBay : Fld := ⟨.thatchStat, 13, 8⟩
/-- THATCH_STAT.hold_expired (04 T4.15). -/
abbrev Fld.thatchStatHoldExpired : Fld := ⟨.thatchStat, 14, 14⟩
/-- THATCH_STAT.forced_drain (04 T4.15). -/
abbrev Fld.thatchStatForcedDrain : Fld := ⟨.thatchStat, 15, 15⟩
/-- THATCH_SRC_LO (04 T4.15). -/
abbrev Fld.thatchSrcLo : Fld := ⟨.thatchSrcLo, 31, 0⟩
/-- THATCH_SRC_HI (04 T4.15). -/
abbrev Fld.thatchSrcHi : Fld := ⟨.thatchSrcHi, 19, 0⟩
/-- THATCH_SRC_LEN (04 T4.15). -/
abbrev Fld.thatchSrcLen : Fld := ⟨.thatchSrcLen, 31, 0⟩
/-- THATCH_DRAIN_LIMIT (04 T4.15). -/
abbrev Fld.thatchDrainLimit : Fld := ⟨.thatchDrainLimit, 31, 0⟩
/-- THATCH_STORE_BASE (04 R108). -/
abbrev Fld.thatchStoreBase : Fld := ⟨.thatchStoreBase, 31, 0⟩
/-- THATCH_QUIESCE.bay (04 R113). -/
abbrev Fld.thatchQuiesceBay : Fld := ⟨.thatchQuiesce, 5, 0⟩
/-- THATCH_QUIESCE.go (04 R113). -/
abbrev Fld.thatchQuiesceGo : Fld := ⟨.thatchQuiesce, 31, 31⟩
/-- THATCH_LAYOUT_ID_LO (04 R106). -/
abbrev Fld.thatchLayoutIdLo : Fld := ⟨.thatchLayoutIdLo, 31, 0⟩
/-- THATCH_LAYOUT_ID_HI (04 R106). -/
abbrev Fld.thatchLayoutIdHi : Fld := ⟨.thatchLayoutIdHi, 31, 0⟩
/-- THATCH_BUILD_ID (04 T4.15). -/
abbrev Fld.thatchBuildId : Fld := ⟨.thatchBuildId, 31, 0⟩
/-- THATCH_BAY_EPOCH (04 T4.15). -/
abbrev Fld.thatchBayEpoch : Fld := ⟨.thatchBayEpoch, 31, 0⟩
/-- THATCH_BAY_STAT.state (04 T4.15). -/
abbrev Fld.thatchBayStatState : Fld := ⟨.thatchBayStat, 1, 0⟩
/-- THATCH_BAY_STAT.hold_expired (04 T4.15). -/
abbrev Fld.thatchBayStatHoldExpired : Fld := ⟨.thatchBayStat, 2, 2⟩
/-- THATCH_RELOAD_CNT (04 R117). -/
abbrev Fld.thatchReloadCnt : Fld := ⟨.thatchReloadCnt, 63, 0⟩
/-- THATCH_REFUSE_CNT (04 R115). -/
abbrev Fld.thatchRefuseCnt : Fld := ⟨.thatchRefuseCnt, 63, 0⟩
/-- THATCH_HOLD_REFUSED_CNT (04 R114). -/
abbrev Fld.thatchHoldRefusedCnt : Fld := ⟨.thatchHoldRefusedCnt, 63, 0⟩
/-- THATCH_FORCED_DRAIN_CNT (04 R113). -/
abbrev Fld.thatchForcedDrainCnt : Fld := ⟨.thatchForcedDrainCnt, 63, 0⟩
/-- THATCH_DENIED_CNT (04 R110). -/
abbrev Fld.thatchDeniedCnt : Fld := ⟨.thatchDeniedCnt, 63, 0⟩
/-- THATCH_SLAB_TIMEOUT_CNT (04 R123). -/
abbrev Fld.thatchSlabTimeoutCnt : Fld := ⟨.thatchSlabTimeoutCnt, 63, 0⟩
/-- THATCH_SLAB_MEM_FAULT_CNT (04 R124). -/
abbrev Fld.thatchSlabMemFaultCnt : Fld := ⟨.thatchSlabMemFaultCnt, 63, 0⟩
/-- THATCH_BAY_FAULT_CNT (06 R182). -/
abbrev Fld.thatchBayFaultCnt : Fld := ⟨.thatchBayFaultCnt, 63, 0⟩
/-- QP_DOORBELL.sq_tail (08 R220). -/
abbrev Fld.qpDoorbellSqTail : Fld := ⟨.qpDoorbell, 15, 0⟩
/-- QP_DOORBELL.sq_valid (08 R220). -/
abbrev Fld.qpDoorbellSqValid : Fld := ⟨.qpDoorbell, 31, 31⟩
/-- QP_DOORBELL.cq_head (08 R220). -/
abbrev Fld.qpDoorbellCqHead : Fld := ⟨.qpDoorbell, 47, 32⟩
/-- QP_DOORBELL.cq_valid (08 R220). -/
abbrev Fld.qpDoorbellCqValid : Fld := ⟨.qpDoorbell, 63, 63⟩
/-- EVR_DOORBELL.head (08 R220). -/
abbrev Fld.evrDoorbellHead : Fld := ⟨.evrDoorbell, 15, 0⟩
/-- EVR_DOORBELL.valid (08 R220). -/
abbrev Fld.evrDoorbellValid : Fld := ⟨.evrDoorbell, 31, 31⟩
/-- QP_SQ_BASE_LO (08 T8.1). -/
abbrev Fld.qpSqBaseLo : Fld := ⟨.qpSqBaseLo, 31, 12⟩
/-- QP_SQ_BASE_HI (08 T8.1). -/
abbrev Fld.qpSqBaseHi : Fld := ⟨.qpSqBaseHi, 19, 0⟩
/-- QP_CQ_BASE_LO (08 T8.1). -/
abbrev Fld.qpCqBaseLo : Fld := ⟨.qpCqBaseLo, 31, 12⟩
/-- QP_CQ_BASE_HI (08 T8.1). -/
abbrev Fld.qpCqBaseHi : Fld := ⟨.qpCqBaseHi, 19, 0⟩
/-- QP_CTL.enable (08 T8.2). -/
abbrev Fld.qpCtlEnable : Fld := ⟨.qpCtl, 0, 0⟩
/-- QP_CTL.kind (08 T8.2). -/
abbrev Fld.qpCtlKind : Fld := ⟨.qpCtl, 3, 1⟩
/-- QP_CTL.log2_depth (08 T8.2). -/
abbrev Fld.qpCtlLog2Depth : Fld := ⟨.qpCtl, 8, 4⟩
/-- QP_CTL.event_ring (08 T8.2). -/
abbrev Fld.qpCtlEventRing : Fld := ⟨.qpCtl, 16, 9⟩
/-- QP_CTL.service_rafter (08 T8.2). -/
abbrev Fld.qpCtlServiceRafter : Fld := ⟨.qpCtl, 22, 17⟩
/-- QP_CTL.ep (08 T8.2). -/
abbrev Fld.qpCtlEp : Fld := ⟨.qpCtl, 23, 23⟩
/-- QP_CTL.func (08 T8.2). -/
abbrev Fld.qpCtlFunc : Fld := ⟨.qpCtl, 31, 24⟩
/-- QP_NOTIFY.mode (08 T8.3). -/
abbrev Fld.qpNotifyMode : Fld := ⟨.qpNotify, 1, 0⟩
/-- QP_NOTIFY.target (08 T8.3). -/
abbrev Fld.qpNotifyTarget : Fld := ⟨.qpNotify, 12, 2⟩
/-- QP_NOTIFY.coal_count (08 T8.3). -/
abbrev Fld.qpNotifyCoalCount : Fld := ⟨.qpNotify, 20, 13⟩
/-- QP_NOTIFY.coal_us (08 T8.3). -/
abbrev Fld.qpNotifyCoalUs : Fld := ⟨.qpNotify, 31, 21⟩
/-- QP_PARTNER (08 T8.1). -/
abbrev Fld.qpPartner : Fld := ⟨.qpPartner, 19, 0⟩
/-- QP_LIMIT.max_wait_ops (08 T8.1). -/
abbrev Fld.qpLimitMaxWaitOps : Fld := ⟨.qpLimit, 15, 0⟩
/-- QP_LIMIT.cq_stall_us (08 T8.1). -/
abbrev Fld.qpLimitCqStallUs : Fld := ⟨.qpLimit, 31, 16⟩
/-- QP_SQ_HEAD (08 T8.1). -/
abbrev Fld.qpSqHead : Fld := ⟨.qpSqHead, 15, 0⟩
/-- QP_SQ_TAIL (08 T8.1). -/
abbrev Fld.qpSqTail : Fld := ⟨.qpSqTail, 15, 0⟩
/-- QP_CQ_TAIL (08 T8.1). -/
abbrev Fld.qpCqTail : Fld := ⟨.qpCqTail, 15, 0⟩
/-- QP_CQ_TAIL.phase (08 T8.1). -/
abbrev Fld.qpCqTailPhase : Fld := ⟨.qpCqTail, 16, 16⟩
/-- QP_CQ_HEAD (08 T8.1). -/
abbrev Fld.qpCqHead : Fld := ⟨.qpCqHead, 15, 0⟩
/-- QP_STAT.state (08 T8.1). -/
abbrev Fld.qpStatState : Fld := ⟨.qpStat, 1, 0⟩
/-- QP_STAT.backpressure (08 T8.1). -/
abbrev Fld.qpStatBackpressure : Fld := ⟨.qpStat, 2, 2⟩
/-- QP_STAT.cq_full (08 T8.1). -/
abbrev Fld.qpStatCqFull : Fld := ⟨.qpStat, 3, 3⟩
/-- QP_STAT.waiting (08 T8.1). -/
abbrev Fld.qpStatWaiting : Fld := ⟨.qpStat, 31, 16⟩
/-- EVR_BASE_LO (08). -/
abbrev Fld.evrBaseLo : Fld := ⟨.evrBaseLo, 31, 12⟩
/-- EVR_BASE_HI (08). -/
abbrev Fld.evrBaseHi : Fld := ⟨.evrBaseHi, 19, 0⟩
/-- EVR_CTL.enable (08). -/
abbrev Fld.evrCtlEnable : Fld := ⟨.evrCtl, 0, 0⟩
/-- EVR_CTL.log2_depth (08). -/
abbrev Fld.evrCtlLog2Depth : Fld := ⟨.evrCtl, 5, 1⟩
/-- EVR_CTL.ep (08). -/
abbrev Fld.evrCtlEp : Fld := ⟨.evrCtl, 6, 6⟩
/-- EVR_CTL.func (08). -/
abbrev Fld.evrCtlFunc : Fld := ⟨.evrCtl, 14, 7⟩
/-- EVR_CTL.host (08). -/
abbrev Fld.evrCtlHost : Fld := ⟨.evrCtl, 15, 15⟩
/-- EVR_NOTIFY.mode (08 T8.3). -/
abbrev Fld.evrNotifyMode : Fld := ⟨.evrNotify, 1, 0⟩
/-- EVR_NOTIFY.target (08 T8.3). -/
abbrev Fld.evrNotifyTarget : Fld := ⟨.evrNotify, 12, 2⟩
/-- EVR_NOTIFY.coal_count (08 T8.3). -/
abbrev Fld.evrNotifyCoalCount : Fld := ⟨.evrNotify, 20, 13⟩
/-- EVR_NOTIFY.coal_us (08 T8.3). -/
abbrev Fld.evrNotifyCoalUs : Fld := ⟨.evrNotify, 31, 21⟩
/-- EVR_TAIL (08). -/
abbrev Fld.evrTail : Fld := ⟨.evrTail, 15, 0⟩
/-- EVR_TAIL.phase (08). -/
abbrev Fld.evrTailPhase : Fld := ⟨.evrTail, 16, 16⟩
/-- EVR_HEAD (08). -/
abbrev Fld.evrHead : Fld := ⟨.evrHead, 15, 0⟩
/-- EVR_STAT.full (08 R228). -/
abbrev Fld.evrStatFull : Fld := ⟨.evrStat, 0, 0⟩
/-- EVR_STAT.lost (08 R228). -/
abbrev Fld.evrStatLost : Fld := ⟨.evrStat, 31, 16⟩
/-- ADM_PREC_BASE_LO (08 R229). -/
abbrev Fld.admPrecBaseLo : Fld := ⟨.admPrecBaseLo, 31, 12⟩
/-- ADM_PREC_BASE_HI (08 R229). -/
abbrev Fld.admPrecBaseHi : Fld := ⟨.admPrecBaseHi, 19, 0⟩
/-- ADM_PREC_COUNT (08 R229). -/
abbrev Fld.admPrecCount : Fld := ⟨.admPrecCount, 20, 0⟩
/-- ADM_PREC_SYNC.index (08 R230). -/
abbrev Fld.admPrecSyncIndex : Fld := ⟨.admPrecSync, 19, 0⟩
/-- ADM_PREC_SYNC.all (08 R230). -/
abbrev Fld.admPrecSyncAll : Fld := ⟨.admPrecSync, 30, 30⟩
/-- ADM_PREC_SYNC.go (08 R230). -/
abbrev Fld.admPrecSyncGo : Fld := ⟨.admPrecSync, 31, 31⟩
/-- ADM_STAT.sync_busy (08 R230). -/
abbrev Fld.admStatSyncBusy : Fld := ⟨.admStat, 0, 0⟩
/-- ADM_POOL_CAP (08 T8.11). -/
abbrev Fld.admPoolCap : Fld := ⟨.admPoolCap, 31, 0⟩
/-- ADM_POOL_FLOOR (08 T8.11). -/
abbrev Fld.admPoolFloor : Fld := ⟨.admPoolFloor, 31, 0⟩
/-- ADM_POOL_GRES (08 R231). -/
abbrev Fld.admPoolGres : Fld := ⟨.admPoolGres, 31, 0⟩
/-- ADM_POOL_TGT.g_tgt_us (08 R238). -/
abbrev Fld.admPoolTgtGTgtUs : Fld := ⟨.admPoolTgt, 15, 0⟩
/-- ADM_POOL_TGT.e_tgt_us (08 R238). -/
abbrev Fld.admPoolTgtETgtUs : Fld := ⟨.admPoolTgt, 31, 16⟩
/-- ADM_POOL_STGT.s_tgt_us (08 R238). -/
abbrev Fld.admPoolStgtSTgtUs : Fld := ⟨.admPoolStgt, 15, 0⟩
/-- ADM_POOL_STGT.s_wait_us (08 R238). -/
abbrev Fld.admPoolStgtSWaitUs : Fld := ⟨.admPoolStgt, 31, 16⟩
/-- ADM_POOL_WAIT.e_wait_ms (08 R235). -/
abbrev Fld.admPoolWaitEWaitMs : Fld := ⟨.admPoolWait, 15, 0⟩
/-- ADM_POOL_WAIT.budget_wait_ms (08 R235). -/
abbrev Fld.admPoolWaitBudgetWaitMs : Fld := ⟨.admPoolWait, 31, 16⟩
/-- ADM_POOL_LIVE (08 R231). -/
abbrev Fld.admPoolLive : Fld := ⟨.admPoolLive, 31, 0⟩
/-- ADM_POOL_STAT.short (08). -/
abbrev Fld.admPoolStatShort : Fld := ⟨.admPoolStat, 0, 0⟩
/-- ADM_POOL_STAT.shedding (08). -/
abbrev Fld.admPoolStatShedding : Fld := ⟨.admPoolStat, 1, 1⟩
/-- ADM_POOL_STAT.capped (08). -/
abbrev Fld.admPoolStatCapped : Fld := ⟨.admPoolStat, 2, 2⟩
/-- ADM_SERVED_CNT (08 T8.14). -/
abbrev Fld.admServedCnt : Fld := ⟨.admServedCnt, 63, 0⟩
/-- ADM_DELAYED_CNT (08 R238). -/
abbrev Fld.admDelayedCnt : Fld := ⟨.admDelayedCnt, 63, 0⟩
/-- ADM_REF_BUDGET_CNT (08 R239). -/
abbrev Fld.admRefBudgetCnt : Fld := ⟨.admRefBudgetCnt, 63, 0⟩
/-- ADM_REF_CAP_CNT (08 R239). -/
abbrev Fld.admRefCapCnt : Fld := ⟨.admRefCapCnt, 63, 0⟩
/-- ADM_G_OVER_CNT (08 R233). -/
abbrev Fld.admGOverCnt : Fld := ⟨.admGOverCnt, 63, 0⟩
/-- ADM_G_SHORT_CNT (08 T8.12). -/
abbrev Fld.admGShortCnt : Fld := ⟨.admGShortCnt, 63, 0⟩
/-- ADM_DENIED_CNT (08 R216). -/
abbrev Fld.admDeniedCnt : Fld := ⟨.admDeniedCnt, 63, 0⟩
/-- ADM_DB_BAD_CNT (08 R221). -/
abbrev Fld.admDbBadCnt : Fld := ⟨.admDbBadCnt, 63, 0⟩
/-- ADM_EVR_LOST_CNT (08 R228). -/
abbrev Fld.admEvrLostCnt : Fld := ⟨.admEvrLostCnt, 63, 0⟩
/-- ADM_PREC_MISS_CNT (08 R229). -/
abbrev Fld.admPrecMissCnt : Fld := ⟨.admPrecMissCnt, 63, 0⟩
/-- ADM_CQ_STALL_CNT (08 R224). -/
abbrev Fld.admCqStallCnt : Fld := ⟨.admCqStallCnt, 63, 0⟩
/-- TRUSS_CTL.loop_pipe (09 R247). -/
abbrev Fld.trussCtlLoopPipe : Fld := ⟨.trussCtl, 2, 0⟩
/-- TRUSS_CTL.loop_mode (09 R247). -/
abbrev Fld.trussCtlLoopMode : Fld := ⟨.trussCtl, 3, 3⟩
/-- TRUSS_CTL.loop_start (09 R247). -/
abbrev Fld.trussCtlLoopStart : Fld := ⟨.trussCtl, 15, 4⟩
/-- TRUSS_CTL.loop_first_table (09 R247). -/
abbrev Fld.trussCtlLoopFirstTable : Fld := ⟨.trussCtl, 23, 16⟩
/-- TRUSS_VER.current (09 R266). -/
abbrev Fld.trussVerCurrent : Fld := ⟨.trussVer, 15, 0⟩
/-- TRUSS_VER.previous (09 R266). -/
abbrev Fld.trussVerPrevious : Fld := ⟨.trussVer, 31, 16⟩
/-- TRUSS_OLD_INFLIGHT (09 R267). -/
abbrev Fld.trussOldInflight : Fld := ⟨.trussOldInflight, 31, 0⟩
/-- TRUSS_EVR (09 R321). -/
abbrev Fld.trussEvr : Fld := ⟨.trussEvr, 7, 0⟩
/-- TRUSS_REED_LAST.cause (09 R257). -/
abbrev Fld.trussReedLastCause : Fld := ⟨.trussReedLast, 4, 0⟩
/-- TRUSS_REED_LAST.program (09 R257). -/
abbrev Fld.trussReedLastProgram : Fld := ⟨.trussReedLast, 15, 8⟩
/-- TRUSS_PORT_CFG.pipe (09 R247). -/
abbrev Fld.trussPortCfgPipe : Fld := ⟨.trussPortCfg, 2, 0⟩
/-- TRUSS_PORT_CFG.mode (09 R247). -/
abbrev Fld.trussPortCfgMode : Fld := ⟨.trussPortCfg, 3, 3⟩
/-- TRUSS_PORT_CFG.start_node (09 R247). -/
abbrev Fld.trussPortCfgStartNode : Fld := ⟨.trussPortCfg, 15, 4⟩
/-- TRUSS_PORT_CFG.first_table (09 R247). -/
abbrev Fld.trussPortCfgFirstTable : Fld := ⟨.trussPortCfg, 23, 16⟩
/-- TRUSS_RULE_CMD.op (09 R265). -/
abbrev Fld.trussRuleCmdOp : Fld := ⟨.trussRuleCmd, 3, 0⟩
/-- TRUSS_RULE_CMD.table (09 R265). -/
abbrev Fld.trussRuleCmdTable : Fld := ⟨.trussRuleCmd, 11, 8⟩
/-- TRUSS_RULE_CMD.go (09 R265). -/
abbrev Fld.trussRuleCmdGo : Fld := ⟨.trussRuleCmd, 31, 31⟩
/-- TRUSS_RULE_STAT.busy (09 R265). -/
abbrev Fld.trussRuleStatBusy : Fld := ⟨.trussRuleStat, 0, 0⟩
/-- TRUSS_RULE_STAT.status (09 R265). -/
abbrev Fld.trussRuleStatStatus : Fld := ⟨.trussRuleStat, 3, 1⟩
/-- TRUSS_RULE_ARG (09 T9.10). -/
abbrev Fld.trussRuleArg : Fld := ⟨.trussRuleArg, 15, 0⟩
/-- TRUSS_RULE_ACT_LO (09 T9.6). -/
abbrev Fld.trussRuleActLo : Fld := ⟨.trussRuleActLo, 31, 0⟩
/-- TRUSS_RULE_ACT_HI (09 T9.6). -/
abbrev Fld.trussRuleActHi : Fld := ⟨.trussRuleActHi, 31, 0⟩
/-- TRUSS_RULE_KEY (09 T9.10). -/
abbrev Fld.trussRuleKey : Fld := ⟨.trussRuleKey, 31, 0⟩
/-- TRUSS_RULE_MASK (09 T9.10). -/
abbrev Fld.trussRuleMask : Fld := ⟨.trussRuleMask, 31, 0⟩
/-- TRUSS_MAL_ACT.act (09 R254). -/
abbrev Fld.trussMalActAct : Fld := ⟨.trussMalAct, 1, 0⟩
/-- TRUSS_MAL_ACT.ring (09 R254). -/
abbrev Fld.trussMalActRing : Fld := ⟨.trussMalAct, 13, 2⟩
/-- TRUSS_MAL_CNT (09 R254). -/
abbrev Fld.trussMalCnt : Fld := ⟨.trussMalCnt, 63, 0⟩
/-- TRUSS_PIPE_PKT_CNT (09 T9.10). -/
abbrev Fld.trussPipePktCnt : Fld := ⟨.trussPipePktCnt, 63, 0⟩
/-- TRUSS_REED_PKT_CNT (09 R255). -/
abbrev Fld.trussReedPktCnt : Fld := ⟨.trussReedPktCnt, 63, 0⟩
/-- TRUSS_STEER_DENIED_CNT (09 R264). -/
abbrev Fld.trussSteerDeniedCnt : Fld := ⟨.trussSteerDeniedCnt, 63, 0⟩
/-- TRUSS_RX_NOBUF_CNT (09 R271). -/
abbrev Fld.trussRxNobufCnt : Fld := ⟨.trussRxNobufCnt, 63, 0⟩
/-- TRUSS_VER_BUSY_CNT (09 R267). -/
abbrev Fld.trussVerBusyCnt : Fld := ⟨.trussVerBusyCnt, 63, 0⟩
/-- TRUSS_COMMIT_CNT (09 R267). -/
abbrev Fld.trussCommitCnt : Fld := ⟨.trussCommitCnt, 63, 0⟩
/-- TRUSS_IND_INVALID_CNT (09 R269). -/
abbrev Fld.trussIndInvalidCnt : Fld := ⟨.trussIndInvalidCnt, 63, 0⟩
/-- TRUSS_NAWYN_REFUSED_CNT (09 R269). -/
abbrev Fld.trussNawynRefusedCnt : Fld := ⟨.trussNawynRefusedCnt, 63, 0⟩
/-- TRUSS_DENIED_CNT (09 R265). -/
abbrev Fld.trussDeniedCnt : Fld := ⟨.trussDeniedCnt, 63, 0⟩
/-- TRUSS_IND_CFG0.base (09 R268). -/
abbrev Fld.trussIndCfg0Base : Fld := ⟨.trussIndCfg0, 17, 0⟩
/-- TRUSS_IND_CFG0.log2_size (09 R268). -/
abbrev Fld.trussIndCfg0Log2Size : Fld := ⟨.trussIndCfg0, 25, 22⟩
/-- TRUSS_IND_CFG1.hash_off (09 R268). -/
abbrev Fld.trussIndCfg1HashOff : Fld := ⟨.trussIndCfg1, 6, 0⟩
/-- TRUSS_IND_CFG1.hash_len (09 R268). -/
abbrev Fld.trussIndCfg1HashLen : Fld := ⟨.trussIndCfg1, 13, 8⟩
/-- TRUSS_IND_CFG2.partner (09 R269). -/
abbrev Fld.trussIndCfg2Partner : Fld := ⟨.trussIndCfg2, 19, 0⟩
/-- TRUSS_HKEY (09 R268). -/
abbrev Fld.trussHkey : Fld := ⟨.trussHkey, 31, 0⟩
/-- TRUSS_QP_MODE.rx_mode (09 R272). -/
abbrev Fld.trussQpModeRxMode : Fld := ⟨.trussQpMode, 1, 0⟩
/-- TRUSS_QP_MODE.tx_csum (09 R272). -/
abbrev Fld.trussQpModeTxCsum : Fld := ⟨.trussQpMode, 2, 2⟩
/-- TRUSS_RULE_HIT (09 R263). -/
abbrev Fld.trussRuleHit : Fld := ⟨.trussRuleHit, 63, 0⟩
/-- TRUSS_IND_ENT.target (09 R269). -/
abbrev Fld.trussIndEntTarget : Fld := ⟨.trussIndEnt, 11, 0⟩
/-- TRUSS_IND_ENT.class (09 R269). -/
abbrev Fld.trussIndEntClass : Fld := ⟨.trussIndEnt, 14, 12⟩
/-- TRUSS_IND_ENT.kind (09 R269). -/
abbrev Fld.trussIndEntKind : Fld := ⟨.trussIndEnt, 31, 30⟩
/-- SW_CTL.age_s (09 R276). -/
abbrev Fld.swCtlAgeS : Fld := ⟨.swCtl, 15, 0⟩
/-- SW_FDB_CMD.op (09 R277). -/
abbrev Fld.swFdbCmdOp : Fld := ⟨.swFdbCmd, 3, 0⟩
/-- SW_FDB_CMD.vlan (09 R277). -/
abbrev Fld.swFdbCmdVlan : Fld := ⟨.swFdbCmd, 15, 4⟩
/-- SW_FDB_CMD.go (09 R277). -/
abbrev Fld.swFdbCmdGo : Fld := ⟨.swFdbCmd, 31, 31⟩
/-- SW_FDB_MAC_LO (09 T9.11). -/
abbrev Fld.swFdbMacLo : Fld := ⟨.swFdbMacLo, 31, 0⟩
/-- SW_FDB_MAC_HI (09 T9.11). -/
abbrev Fld.swFdbMacHi : Fld := ⟨.swFdbMacHi, 15, 0⟩
/-- SW_FDB_PORT (09 T9.11). -/
abbrev Fld.swFdbPort : Fld := ⟨.swFdbPort, 9, 0⟩
/-- SW_FDB_STAT.busy (09 T9.11). -/
abbrev Fld.swFdbStatBusy : Fld := ⟨.swFdbStat, 0, 0⟩
/-- SW_FDB_STAT.status (09 T9.11). -/
abbrev Fld.swFdbStatStatus : Fld := ⟨.swFdbStat, 3, 1⟩
/-- SW_FDB_STAT.port (09 T9.11). -/
abbrev Fld.swFdbStatPort : Fld := ⟨.swFdbStat, 13, 4⟩
/-- SW_FDB_STAT.static (09 T9.11). -/
abbrev Fld.swFdbStatStatic : Fld := ⟨.swFdbStat, 14, 14⟩
/-- SW_FDB_STAT.flapping (09 T9.11). -/
abbrev Fld.swFdbStatFlapping : Fld := ⟨.swFdbStat, 15, 15⟩
/-- SW_PORT_CFG.learn (09 R277). -/
abbrev Fld.swPortCfgLearn : Fld := ⟨.swPortCfg, 0, 0⟩
/-- SW_PORT_CFG.flood (09 R277). -/
abbrev Fld.swPortCfgFlood : Fld := ⟨.swPortCfg, 1, 1⟩
/-- SW_PORT_CFG.breakout (09 R277). -/
abbrev Fld.swPortCfgBreakout : Fld := ⟨.swPortCfg, 3, 2⟩
/-- SW_VPORT_MAC (09 R246). -/
abbrev Fld.swVportMac : Fld := ⟨.swVportMac, 31, 0⟩
/-- SW_VPORT_CFG.mac_hi (09 R246). -/
abbrev Fld.swVportCfgMacHi : Fld := ⟨.swVportCfg, 15, 0⟩
/-- SW_VPORT_CFG.bcast (09 R246). -/
abbrev Fld.swVportCfgBcast : Fld := ⟨.swVportCfg, 16, 16⟩
/-- SW_VPORT_CFG.anti_spoof (09 R246). -/
abbrev Fld.swVportCfgAntiSpoof : Fld := ⟨.swVportCfg, 17, 17⟩
/-- SW_VPORT_CFG.valid (09 R246). -/
abbrev Fld.swVportCfgValid : Fld := ⟨.swVportCfg, 18, 18⟩
/-- SW_VPORT_RING.default_ring (09 R246). -/
abbrev Fld.swVportRingDefaultRing : Fld := ⟨.swVportRing, 11, 0⟩
/-- SW_MOVE_CNT (09 R275). -/
abbrev Fld.swMoveCnt : Fld := ⟨.swMoveCnt, 63, 0⟩
/-- SW_FLAP_CNT (09 R275). -/
abbrev Fld.swFlapCnt : Fld := ⟨.swFlapCnt, 63, 0⟩
/-- SW_FLAP_IGNORED_CNT (09 R274). -/
abbrev Fld.swFlapIgnoredCnt : Fld := ⟨.swFlapIgnoredCnt, 63, 0⟩
/-- SW_LEARN_FULL_CNT (09 R274). -/
abbrev Fld.swLearnFullCnt : Fld := ⟨.swLearnFullCnt, 63, 0⟩
/-- SW_SPOOF_CNT (09 R274). -/
abbrev Fld.swSpoofCnt : Fld := ⟨.swSpoofCnt, 63, 0⟩
/-- SW_RX_ERR_CNT (09 R244). -/
abbrev Fld.swRxErrCnt : Fld := ⟨.swRxErrCnt, 63, 0⟩
/-- SW_RX_DROP_CNT (09 R248). -/
abbrev Fld.swRxDropCnt : Fld := ⟨.swRxDropCnt, 63, 0⟩
/-- XPT_CTL.udp_port (10 R291). -/
abbrev Fld.xptCtlUdpPort : Fld := ⟨.xptCtl, 15, 0⟩
/-- XPT_RETRY.retry_us (10 R295). -/
abbrev Fld.xptRetryRetryUs : Fld := ⟨.xptRetry, 15, 0⟩
/-- XPT_RETRY.retry_limit (10 R295). -/
abbrev Fld.xptRetryRetryLimit : Fld := ⟨.xptRetry, 18, 16⟩
/-- XPT_RETRY.rnr_limit (10 R295). -/
abbrev Fld.xptRetryRnrLimit : Fld := ⟨.xptRetry, 26, 24⟩
/-- XPT_ACK.coal_pkts (10 R305). -/
abbrev Fld.xptAckCoalPkts : Fld := ⟨.xptAck, 7, 0⟩
/-- XPT_ACK.coal_ns (10 R305). -/
abbrev Fld.xptAckCoalNs : Fld := ⟨.xptAck, 23, 8⟩
/-- XPT_MAX_OUT (10 R306). -/
abbrev Fld.xptMaxOut : Fld := ⟨.xptMaxOut, 13, 0⟩
/-- EVT_DEV_RING.ring (10 R321). -/
abbrev Fld.evtDevRingRing : Fld := ⟨.evtDevRing, 7, 0⟩
/-- EVT_DEV_RING.enable (10 R321). -/
abbrev Fld.evtDevRingEnable : Fld := ⟨.evtDevRing, 31, 31⟩
/-- XPT_RNR_US (10 R308). -/
abbrev Fld.xptRnrUs : Fld := ⟨.xptRnrUs, 15, 0⟩
/-- XPT_CONN_BASE_LO (10 R299). -/
abbrev Fld.xptConnBaseLo : Fld := ⟨.xptConnBaseLo, 31, 12⟩
/-- XPT_CONN_BASE_HI (10 R299). -/
abbrev Fld.xptConnBaseHi : Fld := ⟨.xptConnBaseHi, 19, 0⟩
/-- XPT_CONN_COUNT (10 R299). -/
abbrev Fld.xptConnCount : Fld := ⟨.xptConnCount, 20, 0⟩
/-- RGN_BASE_LO (10 R286). -/
abbrev Fld.rgnBaseLo : Fld := ⟨.rgnBaseLo, 31, 12⟩
/-- RGN_BASE_HI (10 R286). -/
abbrev Fld.rgnBaseHi : Fld := ⟨.rgnBaseHi, 19, 0⟩
/-- RGN_COUNT (10 R286). -/
abbrev Fld.rgnCount : Fld := ⟨.rgnCount, 24, 0⟩
/-- XPT_STORM.storm_ms (10 R312). -/
abbrev Fld.xptStormStormMs : Fld := ⟨.xptStorm, 15, 0⟩
/-- XPT_STORM.recover_ms (10 R312). -/
abbrev Fld.xptStormRecoverMs : Fld := ⟨.xptStorm, 31, 16⟩
/-- XPT_ECN.pmax (10 R315). -/
abbrev Fld.xptEcnPmax : Fld := ⟨.xptEcn, 7, 0⟩
/-- XPT_ECN.g_shift (10 R315). -/
abbrev Fld.xptEcnGShift : Fld := ⟨.xptEcn, 15, 8⟩
/-- XPT_ECN.ai (10 R315). -/
abbrev Fld.xptEcnAi : Fld := ⟨.xptEcn, 31, 16⟩
/-- XPT_BAY_CONN_FIRST (10 R295). -/
abbrev Fld.xptBayConnFirst : Fld := ⟨.xptBayConnFirst, 19, 0⟩
/-- XPT_BAY_CONN_COUNT (10 R295). -/
abbrev Fld.xptBayConnCount : Fld := ⟨.xptBayConnCount, 20, 0⟩
/-- XPT_BAY_WIN_FIRST (10 R281). -/
abbrev Fld.xptBayWinFirst : Fld := ⟨.xptBayWinFirst, 15, 0⟩
/-- XPT_BAY_WIN_COUNT (10 R281). -/
abbrev Fld.xptBayWinCount : Fld := ⟨.xptBayWinCount, 16, 0⟩
/-- XPT_BAY_RGN_FIRST (10 R287). -/
abbrev Fld.xptBayRgnFirst : Fld := ⟨.xptBayRgnFirst, 23, 0⟩
/-- XPT_BAY_RGN_COUNT (10 R287). -/
abbrev Fld.xptBayRgnCount : Fld := ⟨.xptBayRgnCount, 24, 0⟩
/-- XPT_BAY_RMAP_LO (10 R278). -/
abbrev Fld.xptBayRmapLo : Fld := ⟨.xptBayRmapLo, 31, 12⟩
/-- XPT_BAY_RMAP_HI (10 R278). -/
abbrev Fld.xptBayRmapHi : Fld := ⟨.xptBayRmapHi, 19, 0⟩
/-- XPT_BAY_RMAP_COUNT (10 R278). -/
abbrev Fld.xptBayRmapCount : Fld := ⟨.xptBayRmapCount, 20, 0⟩
/-- XPT_PFC_EN.pfc_en (10 R311). -/
abbrev Fld.xptPfcEnPfcEn : Fld := ⟨.xptPfcEn, 7, 0⟩
/-- XPT_PFC_THR.xoff_kib (10 R311). -/
abbrev Fld.xptPfcThrXoffKib : Fld := ⟨.xptPfcThr, 15, 0⟩
/-- XPT_PFC_THR.xon_kib (10 R311). -/
abbrev Fld.xptPfcThrXonKib : Fld := ⟨.xptPfcThr, 31, 16⟩
/-- XPT_PFC_HEAD.headroom_kib (10 R311). -/
abbrev Fld.xptPfcHeadHeadroomKib : Fld := ⟨.xptPfcHead, 15, 0⟩
/-- XPT_PFC_STRICT.strict (10 R313). -/
abbrev Fld.xptPfcStrictStrict : Fld := ⟨.xptPfcStrict, 7, 0⟩
/-- XPT_PFC_W0.w0 (10 R313). -/
abbrev Fld.xptPfcW0W0 : Fld := ⟨.xptPfcW0, 7, 0⟩
/-- XPT_PFC_W0.w1 (10 R313). -/
abbrev Fld.xptPfcW0W1 : Fld := ⟨.xptPfcW0, 15, 8⟩
/-- XPT_PFC_W0.w2 (10 R313). -/
abbrev Fld.xptPfcW0W2 : Fld := ⟨.xptPfcW0, 23, 16⟩
/-- XPT_PFC_W0.w3 (10 R313). -/
abbrev Fld.xptPfcW0W3 : Fld := ⟨.xptPfcW0, 31, 24⟩
/-- XPT_PFC_W1.w4 (10 R313). -/
abbrev Fld.xptPfcW1W4 : Fld := ⟨.xptPfcW1, 7, 0⟩
/-- XPT_PFC_W1.w5 (10 R313). -/
abbrev Fld.xptPfcW1W5 : Fld := ⟨.xptPfcW1, 15, 8⟩
/-- XPT_PFC_W1.w6 (10 R313). -/
abbrev Fld.xptPfcW1W6 : Fld := ⟨.xptPfcW1, 23, 16⟩
/-- XPT_PFC_W1.w7 (10 R313). -/
abbrev Fld.xptPfcW1W7 : Fld := ⟨.xptPfcW1, 31, 24⟩
/-- XPT_PFC_ECN.kmin_kib (10 R314). -/
abbrev Fld.xptPfcEcnKminKib : Fld := ⟨.xptPfcEcn, 15, 0⟩
/-- XPT_PFC_ECN.kmax_kib (10 R314). -/
abbrev Fld.xptPfcEcnKmaxKib : Fld := ⟨.xptPfcEcn, 31, 16⟩
/-- XPT_RETX_CNT (10 R307). -/
abbrev Fld.xptRetxCnt : Fld := ⟨.xptRetxCnt, 63, 0⟩
/-- XPT_SEQ_NAK_CNT (10 R303). -/
abbrev Fld.xptSeqNakCnt : Fld := ⟨.xptSeqNakCnt, 63, 0⟩
/-- XPT_DUP_CNT (10 R302). -/
abbrev Fld.xptDupCnt : Fld := ⟨.xptDupCnt, 63, 0⟩
/-- XPT_STALE_CNT (10 T10.14). -/
abbrev Fld.xptStaleCnt : Fld := ⟨.xptStaleCnt, 63, 0⟩
/-- XPT_KEY_VIOL_CNT (10 T10.14). -/
abbrev Fld.xptKeyViolCnt : Fld := ⟨.xptKeyViolCnt, 63, 0⟩
/-- XPT_AUTH_FAIL_CNT (10 R317). -/
abbrev Fld.xptAuthFailCnt : Fld := ⟨.xptAuthFailCnt, 63, 0⟩
/-- XPT_REPLAY_CNT (10 R317). -/
abbrev Fld.xptReplayCnt : Fld := ⟨.xptReplayCnt, 63, 0⟩
/-- XPT_CTX_MISS_CNT (10 R299). -/
abbrev Fld.xptCtxMissCnt : Fld := ⟨.xptCtxMissCnt, 63, 0⟩
/-- XPT_RGN_MISS_CNT (10 R286). -/
abbrev Fld.xptRgnMissCnt : Fld := ⟨.xptRgnMissCnt, 63, 0⟩
/-- XPT_STORM_DROP_CNT (10 R312). -/
abbrev Fld.xptStormDropCnt : Fld := ⟨.xptStormDropCnt, 63, 0⟩
/-- XPT_NOCONN_CNT (10 R291). -/
abbrev Fld.xptNoconnCnt : Fld := ⟨.xptNoconnCnt, 63, 0⟩
/-- XPT_BAD_OP_CNT (10 R293). -/
abbrev Fld.xptBadOpCnt : Fld := ⟨.xptBadOpCnt, 63, 0⟩
/-- XPT_ECN_MARK_CNT (10 R314). -/
abbrev Fld.xptEcnMarkCnt : Fld := ⟨.xptEcnMarkCnt, 63, 0⟩
/-- XPT_EVT_UNROUTED_CNT (10 R321). -/
abbrev Fld.xptEvtUnroutedCnt : Fld := ⟨.xptEvtUnroutedCnt, 63, 0⟩
/-- XPT_DENIED_CNT (10 R323). -/
abbrev Fld.xptDeniedCnt : Fld := ⟨.xptDeniedCnt, 63, 0⟩
/-- NAWYN_CTL.thread_tc (11 T11.8). -/
abbrev Fld.nawynCtlThreadTc : Fld := ⟨.nawynCtl, 2, 0⟩
/-- NAWYN_CTL.pkt_qp (11 T11.8). -/
abbrev Fld.nawynCtlPktQp : Fld := ⟨.nawynCtl, 15, 4⟩
/-- NAWYN_CTL.read_timeout_us (11 T11.8). -/
abbrev Fld.nawynCtlReadTimeoutUs : Fld := ⟨.nawynCtl, 31, 16⟩
/-- NAWYN_RETRY.replay_ns (11 R329). -/
abbrev Fld.nawynRetryReplayNs : Fld := ⟨.nawynRetry, 15, 0⟩
/-- NAWYN_RETRY.replay_limit (11 R329). -/
abbrev Fld.nawynRetryReplayLimit : Fld := ⟨.nawynRetry, 19, 16⟩
/-- NAWYN_TIME_CTL.root (11 R341). -/
abbrev Fld.nawynTimeCtlRoot : Fld := ⟨.nawynTimeCtl, 0, 0⟩
/-- NAWYN_TIME_CTL.up_link (11 R341). -/
abbrev Fld.nawynTimeCtlUpLink : Fld := ⟨.nawynTimeCtl, 4, 1⟩
/-- NAWYN_TIME_CTL.up_en (11 R341). -/
abbrev Fld.nawynTimeCtlUpEn : Fld := ⟨.nawynTimeCtl, 5, 5⟩
/-- NAWYN_TIME_STAT.state (11 R342). -/
abbrev Fld.nawynTimeStatState : Fld := ⟨.nawynTimeStat, 1, 0⟩
/-- NAWYN_TIME_STAT.offset_mag (11 R342). -/
abbrev Fld.nawynTimeStatOffsetMag : Fld := ⟨.nawynTimeStat, 31, 16⟩
/-- NAWYN_TIME (11 R341). -/
abbrev Fld.nawynTime : Fld := ⟨.nawynTime, 63, 0⟩
/-- NAWYN_TIME_OFS (11 R343). -/
abbrev Fld.nawynTimeOfs : Fld := ⟨.nawynTimeOfs, 63, 0⟩
/-- NAWYN_TIME_FREQ (11 R341). -/
abbrev Fld.nawynTimeFreq : Fld := ⟨.nawynTimeFreq, 31, 0⟩
/-- NAWYN_PTP_EN (11 R344). -/
abbrev Fld.nawynPtpEn : Fld := ⟨.nawynPtpEn, 63, 0⟩
/-- NAWYN_PTP_INFO.valid (11 R344). -/
abbrev Fld.nawynPtpInfoValid : Fld := ⟨.nawynPtpInfo, 0, 0⟩
/-- NAWYN_PTP_INFO.transmit (11 R344). -/
abbrev Fld.nawynPtpInfoTransmit : Fld := ⟨.nawynPtpInfo, 1, 1⟩
/-- NAWYN_PTP_INFO.sub_port (11 R344). -/
abbrev Fld.nawynPtpInfoSubPort : Fld := ⟨.nawynPtpInfo, 7, 2⟩
/-- NAWYN_PTP_INFO.messageType (11 R344). -/
abbrev Fld.nawynPtpInfoMessageType : Fld := ⟨.nawynPtpInfo, 11, 8⟩
/-- NAWYN_PTP_INFO.sequenceId (11 R344). -/
abbrev Fld.nawynPtpInfoSequenceId : Fld := ⟨.nawynPtpInfo, 31, 16⟩
/-- NAWYN_PTP_TIME (11 R344). -/
abbrev Fld.nawynPtpTime : Fld := ⟨.nawynPtpTime, 63, 0⟩
/-- NAWYN_LINK_CFG.enable (11 R325). -/
abbrev Fld.nawynLinkCfgEnable : Fld := ⟨.nawynLinkCfg, 0, 0⟩
/-- NAWYN_LINK_CFG.max_width (11 R325). -/
abbrev Fld.nawynLinkCfgMaxWidth : Fld := ⟨.nawynLinkCfg, 2, 1⟩
/-- NAWYN_LINK_CFG.half_rate (11 R325). -/
abbrev Fld.nawynLinkCfgHalfRate : Fld := ⟨.nawynLinkCfg, 3, 3⟩
/-- NAWYN_LINK_CFG.course_en (11 R325). -/
abbrev Fld.nawynLinkCfgCourseEn : Fld := ⟨.nawynLinkCfg, 4, 4⟩
/-- NAWYN_LINK_STAT.state (11 R326). -/
abbrev Fld.nawynLinkStatState : Fld := ⟨.nawynLinkStat, 2, 0⟩
/-- NAWYN_LINK_STAT.width (11 R326). -/
abbrev Fld.nawynLinkStatWidth : Fld := ⟨.nawynLinkStat, 4, 3⟩
/-- NAWYN_LINK_STAT.half_rate (11 R326). -/
abbrev Fld.nawynLinkStatHalfRate : Fld := ⟨.nawynLinkStat, 5, 5⟩
/-- NAWYN_LINK_STAT.peer_node (11 R326). -/
abbrev Fld.nawynLinkStatPeerNode : Fld := ⟨.nawynLinkStat, 17, 6⟩
/-- NAWYN_LINK_STAT.course_active (11 R326). -/
abbrev Fld.nawynLinkStatCourseActive : Fld := ⟨.nawynLinkStat, 18, 18⟩
/-- NAWYN_LINK_STAT.mismatch (11 R326). -/
abbrev Fld.nawynLinkStatMismatch : Fld := ⟨.nawynLinkStat, 19, 19⟩
/-- NAWYN_LINK_STAT.id_clash (11 R326). -/
abbrev Fld.nawynLinkStatIdClash : Fld := ⟨.nawynLinkStat, 20, 20⟩
/-- NAWYN_LINK_DELAY (11 R342). -/
abbrev Fld.nawynLinkDelay : Fld := ⟨.nawynLinkDelay, 15, 0⟩
/-- NAWYN_LINK_WRR.w0 (11 R350). -/
abbrev Fld.nawynLinkWrrW0 : Fld := ⟨.nawynLinkWrr, 3, 0⟩
/-- NAWYN_LINK_WRR.w1 (11 R350). -/
abbrev Fld.nawynLinkWrrW1 : Fld := ⟨.nawynLinkWrr, 7, 4⟩
/-- NAWYN_LINK_WRR.w2 (11 R350). -/
abbrev Fld.nawynLinkWrrW2 : Fld := ⟨.nawynLinkWrr, 11, 8⟩
/-- NAWYN_LINK_WRR.w3 (11 R350). -/
abbrev Fld.nawynLinkWrrW3 : Fld := ⟨.nawynLinkWrr, 15, 12⟩
/-- NAWYN_LINK_WRR.w4 (11 R350). -/
abbrev Fld.nawynLinkWrrW4 : Fld := ⟨.nawynLinkWrr, 19, 16⟩
/-- NAWYN_LINK_WRR.w5 (11 R350). -/
abbrev Fld.nawynLinkWrrW5 : Fld := ⟨.nawynLinkWrr, 23, 20⟩
/-- NAWYN_LINK_WRR.w6 (11 R350). -/
abbrev Fld.nawynLinkWrrW6 : Fld := ⟨.nawynLinkWrr, 27, 24⟩
/-- NAWYN_LINK_WRR.w7 (11 R350). -/
abbrev Fld.nawynLinkWrrW7 : Fld := ⟨.nawynLinkWrr, 31, 28⟩
/-- NAWYN_CRS_CYCLE.cycle_ns (11 R345). -/
abbrev Fld.nawynCrsCycleCycleNs : Fld := ⟨.nawynCrsCycle, 19, 0⟩
/-- NAWYN_CRS_CYCLE.window_count (11 R345). -/
abbrev Fld.nawynCrsCycleWindowCount : Fld := ⟨.nawynCrsCycle, 26, 20⟩
/-- NAWYN_CRS_ID (11 R345). -/
abbrev Fld.nawynCrsId : Fld := ⟨.nawynCrsId, 31, 0⟩
/-- NAWYN_CRS_ARM_AT (11 R345). -/
abbrev Fld.nawynCrsArmAt : Fld := ⟨.nawynCrsArmAt, 63, 0⟩
/-- NAWYN_CRS_CMD.arm (11 R345). -/
abbrev Fld.nawynCrsCmdArm : Fld := ⟨.nawynCrsCmd, 31, 31⟩
/-- NAWYN_CRS_STAT (11 R345). -/
abbrev Fld.nawynCrsStat : Fld := ⟨.nawynCrsStat, 1, 0⟩
/-- NAWYN_CRS_ACTIVE_ID (11 R345). -/
abbrev Fld.nawynCrsActiveId : Fld := ⟨.nawynCrsActiveId, 31, 0⟩
/-- NAWYN_CRS_LATE_NS (11 R352). -/
abbrev Fld.nawynCrsLateNs : Fld := ⟨.nawynCrsLateNs, 31, 0⟩
/-- NAWYN_CRS_WIN.start_ns (11 R345). -/
abbrev Fld.nawynCrsWinStartNs : Fld := ⟨.nawynCrsWin, 19, 0⟩
/-- NAWYN_CRS_WIN.end_ns (11 R345). -/
abbrev Fld.nawynCrsWinEndNs : Fld := ⟨.nawynCrsWin, 39, 20⟩
/-- NAWYN_CRS_WIN.class (11 R345). -/
abbrev Fld.nawynCrsWinClass : Fld := ⟨.nawynCrsWin, 42, 40⟩
/-- NAWYN_ROUTE.primary (11 R334). -/
abbrev Fld.nawynRoutePrimary : Fld := ⟨.nawynRoute, 3, 0⟩
/-- NAWYN_ROUTE.primary_valid (11 R334). -/
abbrev Fld.nawynRoutePrimaryValid : Fld := ⟨.nawynRoute, 4, 4⟩
/-- NAWYN_ROUTE.alternate (11 R334). -/
abbrev Fld.nawynRouteAlternate : Fld := ⟨.nawynRoute, 8, 5⟩
/-- NAWYN_ROUTE.alternate_valid (11 R334). -/
abbrev Fld.nawynRouteAlternateValid : Fld := ⟨.nawynRoute, 9, 9⟩
/-- NAWYN_APER.rd_en (11 R336). -/
abbrev Fld.nawynAperRdEn : Fld := ⟨.nawynAper, 0, 0⟩
/-- NAWYN_APER.wr_en (11 R336). -/
abbrev Fld.nawynAperWrEn : Fld := ⟨.nawynAper, 1, 1⟩
/-- NAWYN_APER.filter_en (11 R336). -/
abbrev Fld.nawynAperFilterEn : Fld := ⟨.nawynAper, 2, 2⟩
/-- NAWYN_APER.filter_node (11 R336). -/
abbrev Fld.nawynAperFilterNode : Fld := ⟨.nawynAper, 14, 3⟩
/-- NAWYN_APER.base (11 R336). -/
abbrev Fld.nawynAperBase : Fld := ⟨.nawynAper, 51, 30⟩
/-- NAWYN_FLIT_TX_CNT (11 T11.8). -/
abbrev Fld.nawynFlitTxCnt : Fld := ⟨.nawynFlitTxCnt, 63, 0⟩
/-- NAWYN_FLIT_RX_CNT (11 T11.8). -/
abbrev Fld.nawynFlitRxCnt : Fld := ⟨.nawynFlitRxCnt, 63, 0⟩
/-- NAWYN_FEC_CORR_CNT (11 R328). -/
abbrev Fld.nawynFecCorrCnt : Fld := ⟨.nawynFecCorrCnt, 63, 0⟩
/-- NAWYN_FLIT_BAD_CNT (11 R328). -/
abbrev Fld.nawynFlitBadCnt : Fld := ⟨.nawynFlitBadCnt, 63, 0⟩
/-- NAWYN_REPLAY_CNT (11 R329). -/
abbrev Fld.nawynReplayCnt : Fld := ⟨.nawynReplayCnt, 63, 0⟩
/-- NAWYN_RETRAIN_CNT (11 R325). -/
abbrev Fld.nawynRetrainCnt : Fld := ⟨.nawynRetrainCnt, 63, 0⟩
/-- NAWYN_DEFER_CNT (11 R348). -/
abbrev Fld.nawynDeferCnt : Fld := ⟨.nawynDeferCnt, 63, 0⟩
/-- NAWYN_LATE_CNT (11 R352). -/
abbrev Fld.nawynLateCnt : Fld := ⟨.nawynLateCnt, 63, 0⟩
/-- NAWYN_WIN_EMPTY_CNT (11 R352). -/
abbrev Fld.nawynWinEmptyCnt : Fld := ⟨.nawynWinEmptyCnt, 63, 0⟩
/-- NAWYN_LATE_MAX (11 R352). -/
abbrev Fld.nawynLateMax : Fld := ⟨.nawynLateMax, 31, 0⟩
/-- NAWYN_OVERSIZE_CNT (11 R349). -/
abbrev Fld.nawynOversizeCnt : Fld := ⟨.nawynOversizeCnt, 63, 0⟩
/-- NAWYN_UNDELIV_CNT (11 R335). -/
abbrev Fld.nawynUndelivCnt : Fld := ⟨.nawynUndelivCnt, 63, 0⟩
/-- NAWYN_APER_FAULT_CNT (11 R336). -/
abbrev Fld.nawynAperFaultCnt : Fld := ⟨.nawynAperFaultCnt, 63, 0⟩
/-- NAWYN_RX_DROP_CNT (11 R339). -/
abbrev Fld.nawynRxDropCnt : Fld := ⟨.nawynRxDropCnt, 63, 0⟩
/-- NAWYN_LATE_RESP_CNT (11 R337). -/
abbrev Fld.nawynLateRespCnt : Fld := ⟨.nawynLateRespCnt, 63, 0⟩
/-- NAWYN_PTP_OVF_CNT (11 R344). -/
abbrev Fld.nawynPtpOvfCnt : Fld := ⟨.nawynPtpOvfCnt, 63, 0⟩
/-- NAWYN_TIME_STEP_CNT (11 R343). -/
abbrev Fld.nawynTimeStepCnt : Fld := ⟨.nawynTimeStepCnt, 63, 0⟩
/-- NAWYN_DENIED_CNT (11 R345). -/
abbrev Fld.nawynDeniedCnt : Fld := ⟨.nawynDeniedCnt, 63, 0⟩
/-- NAWYN_LINK_LOST_CNT (11 R340). -/
abbrev Fld.nawynLinkLostCnt : Fld := ⟨.nawynLinkLostCnt, 63, 0⟩
/-- NAWYN_BAD_MTYPE_CNT (11 R331). -/
abbrev Fld.nawynBadMtypeCnt : Fld := ⟨.nawynBadMtypeCnt, 63, 0⟩
/-- LOFT_STAT.enabled (12 R354). -/
abbrev Fld.loftStatEnabled : Fld := ⟨.loftStat, 0, 0⟩
/-- LOFT_STAT.ctl_bay (12 R354). -/
abbrev Fld.loftStatCtlBay : Fld := ⟨.loftStat, 6, 1⟩
/-- LOFT_MAX_WAIT (12 R381). -/
abbrev Fld.loftMaxWait : Fld := ⟨.loftMaxWait, 15, 0⟩
/-- LOFT_BIAS_LOADED_LO (12 R375). -/
abbrev Fld.loftBiasLoadedLo : Fld := ⟨.loftBiasLoadedLo, 31, 0⟩
/-- LOFT_BIAS_LOADED_HI (12 R375). -/
abbrev Fld.loftBiasLoadedHi : Fld := ⟨.loftBiasLoadedHi, 31, 0⟩
/-- LOFT_TICKET (12 R367). -/
abbrev Fld.loftTicket : Fld := ⟨.loftTicket, 63, 0⟩
/-- LOFT_RETIRED (12 R367). -/
abbrev Fld.loftRetired : Fld := ⟨.loftRetired, 63, 0⟩
/-- LOFT_NODE.partner (12 R381). -/
abbrev Fld.loftNodePartner : Fld := ⟨.loftNode, 19, 0⟩
/-- LOFT_NODE.enable (12 R381). -/
abbrev Fld.loftNodeEnable : Fld := ⟨.loftNode, 31, 31⟩
/-- LOFT_POOL_BASE_LO (12 R362). -/
abbrev Fld.loftPoolBaseLo : Fld := ⟨.loftPoolBaseLo, 31, 3⟩
/-- LOFT_POOL_BASE_HI (12 R362). -/
abbrev Fld.loftPoolBaseHi : Fld := ⟨.loftPoolBaseHi, 19, 0⟩
/-- LOFT_POOL_CFG.log2_size (12 R362). -/
abbrev Fld.loftPoolCfgLog2Size : Fld := ⟨.loftPoolCfg, 4, 0⟩
/-- LOFT_POOL_CFG.kind (12 R362). -/
abbrev Fld.loftPoolCfgKind : Fld := ⟨.loftPoolCfg, 8, 8⟩
/-- LOFT_POOL_CFG.low_mark (12 R362). -/
abbrev Fld.loftPoolCfgLowMark : Fld := ⟨.loftPoolCfg, 31, 16⟩
/-- LOFT_POOL_HEAD (12 R362). -/
abbrev Fld.loftPoolHead : Fld := ⟨.loftPoolHead, 19, 0⟩
/-- LOFT_POOL_TAIL (12 R362). -/
abbrev Fld.loftPoolTail : Fld := ⟨.loftPoolTail, 19, 0⟩
/-- LOFT_POOL_LEVEL (12 R362). -/
abbrev Fld.loftPoolLevel : Fld := ⟨.loftPoolLevel, 19, 0⟩
/-- LOFT_QUERY_CNT (12 T12.13). -/
abbrev Fld.loftQueryCnt : Fld := ⟨.loftQueryCnt, 63, 0⟩
/-- LOFT_APPEND_CNT (12 T12.13). -/
abbrev Fld.loftAppendCnt : Fld := ⟨.loftAppendCnt, 63, 0⟩
/-- LOFT_TOKEN_CNT (12 T12.13). -/
abbrev Fld.loftTokenCnt : Fld := ⟨.loftTokenCnt, 63, 0⟩
/-- LOFT_PAD_TOKEN_CNT (12 R376). -/
abbrev Fld.loftPadTokenCnt : Fld := ⟨.loftPadTokenCnt, 63, 0⟩
/-- LOFT_MASKED_ROW_CNT (12 R378). -/
abbrev Fld.loftMaskedRowCnt : Fld := ⟨.loftMaskedRowCnt, 63, 0⟩
/-- LOFT_BAD_SLATE_CNT (12 R372). -/
abbrev Fld.loftBadSlateCnt : Fld := ⟨.loftBadSlateCnt, 63, 0⟩
/-- LOFT_NO_SLATE_CNT (12 R365). -/
abbrev Fld.loftNoSlateCnt : Fld := ⟨.loftNoSlateCnt, 63, 0⟩
/-- LOFT_RESULT_LOST_CNT (12 R382). -/
abbrev Fld.loftResultLostCnt : Fld := ⟨.loftResultLostCnt, 63, 0⟩
/-- LOFT_DENIED_CNT (12 R386). -/
abbrev Fld.loftDeniedCnt : Fld := ⟨.loftDeniedCnt, 63, 0⟩
/-- UL_CFG.bay (13 R387). -/
abbrev Fld.ulCfgBay : Fld := ⟨.ulCfg, 5, 0⟩
/-- UL_CFG.enable (13 R387). -/
abbrev Fld.ulCfgEnable : Fld := ⟨.ulCfg, 31, 31⟩
/-- UL_BASE_LO (13 R387). -/
abbrev Fld.ulBaseLo : Fld := ⟨.ulBaseLo, 31, 21⟩
/-- UL_BASE_HI (13 R387). -/
abbrev Fld.ulBaseHi : Fld := ⟨.ulBaseHi, 19, 0⟩
/-- UL_SLOT_SIZE (13 R387). -/
abbrev Fld.ulSlotSize : Fld := ⟨.ulSlotSize, 15, 0⟩
/-- UL_CTL.copy_tc (13 R398). -/
abbrev Fld.ulCtlCopyTc : Fld := ⟨.ulCtl, 2, 0⟩
/-- UL_CTL.drain_limit_s (13 R398). -/
abbrev Fld.ulCtlDrainLimitS : Fld := ⟨.ulCtl, 31, 16⟩
/-- UL_STAT.s0 (13 R389). -/
abbrev Fld.ulStatS0 : Fld := ⟨.ulStat, 1, 0⟩
/-- UL_STAT.s1 (13 R389). -/
abbrev Fld.ulStatS1 : Fld := ⟨.ulStat, 3, 2⟩
/-- UL_STAT.base_valid (13 R389). -/
abbrev Fld.ulStatBaseValid : Fld := ⟨.ulStat, 4, 4⟩
/-- UL_STAT.base_area (13 R389). -/
abbrev Fld.ulStatBaseArea : Fld := ⟨.ulStat, 5, 5⟩
/-- UL_LAST_CUT (13 R393). -/
abbrev Fld.ulLastCut : Fld := ⟨.ulLastCut, 31, 0⟩
/-- UL_BASE_CUT (13 R401). -/
abbrev Fld.ulBaseCut : Fld := ⟨.ulBaseCut, 31, 0⟩
/-- UL_BASE_INV.go (13 R389). -/
abbrev Fld.ulBaseInvGo : Fld := ⟨.ulBaseInv, 31, 31⟩
/-- UL_CUT_CNT (13 T13.11). -/
abbrev Fld.ulCutCnt : Fld := ⟨.ulCutCnt, 63, 0⟩
/-- UL_ABANDON_CNT (13 R396). -/
abbrev Fld.ulAbandonCnt : Fld := ⟨.ulAbandonCnt, 63, 0⟩
/-- UL_COPY_BYTE_CNT (13 T13.11). -/
abbrev Fld.ulCopyByteCnt : Fld := ⟨.ulCopyByteCnt, 63, 0⟩
/-- UL_HASHED_CNT (13 T13.11). -/
abbrev Fld.ulHashedCnt : Fld := ⟨.ulHashedCnt, 63, 0⟩
/-- UL_CHANGED_CNT (13 T13.11). -/
abbrev Fld.ulChangedCnt : Fld := ⟨.ulChangedCnt, 63, 0⟩
/-- UL_COMMIT_CNT (13 T13.11). -/
abbrev Fld.ulCommitCnt : Fld := ⟨.ulCommitCnt, 63, 0⟩
/-- UL_DRAIN_FAIL_CNT (13 T13.11). -/
abbrev Fld.ulDrainFailCnt : Fld := ⟨.ulDrainFailCnt, 63, 0⟩
/-- UL_RESTORE_CNT (13 T13.11). -/
abbrev Fld.ulRestoreCnt : Fld := ⟨.ulRestoreCnt, 63, 0⟩
/-- UL_TOKEN_BAD_CNT (13 R392). -/
abbrev Fld.ulTokenBadCnt : Fld := ⟨.ulTokenBadCnt, 63, 0⟩
/-- UL_DENIED_CNT (13 R387). -/
abbrev Fld.ulDeniedCnt : Fld := ⟨.ulDeniedCnt, 63, 0⟩
/-- STOR_CTL.bay (14 R429). -/
abbrev Fld.storCtlBay : Fld := ⟨.storCtl, 5, 0⟩
/-- STOR_CTL.enable (14 R429). -/
abbrev Fld.storCtlEnable : Fld := ⟨.storCtl, 31, 31⟩
/-- SEC_FLOOR.floor (14 R421). -/
abbrev Fld.secFloorFloor : Fld := ⟨.secFloor, 7, 0⟩
/-- SEC_SLOT_STAT.ecdsa_usable (14 R419). -/
abbrev Fld.secSlotStatEcdsaUsable : Fld := ⟨.secSlotStat, 3, 0⟩
/-- SEC_SLOT_STAT.mldsa_usable (14 R419). -/
abbrev Fld.secSlotStatMldsaUsable : Fld := ⟨.secSlotStat, 7, 4⟩
/-- SEC_SLOT_STAT.ecdsa_revoked (14 R419). -/
abbrev Fld.secSlotStatEcdsaRevoked : Fld := ⟨.secSlotStat, 11, 8⟩
/-- SEC_SLOT_STAT.mldsa_revoked (14 R419). -/
abbrev Fld.secSlotStatMldsaRevoked : Fld := ⟨.secSlotStat, 15, 12⟩
/-- SEC_KEY_COUNT (14 R425). -/
abbrev Fld.secKeyCount : Fld := ⟨.secKeyCount, 31, 0⟩
/-- STOR_CTRL.partner (14 R413). -/
abbrev Fld.storCtrlPartner : Fld := ⟨.storCtrl, 19, 0⟩
/-- STOR_CTRL_ID.vf (14 R407). -/
abbrev Fld.storCtrlIdVf : Fld := ⟨.storCtrlId, 7, 0⟩
/-- STOR_CTRL_ID.ep (14 R407). -/
abbrev Fld.storCtrlIdEp : Fld := ⟨.storCtrlId, 8, 8⟩
/-- STOR_CTRL_ID.present (14 R407). -/
abbrev Fld.storCtrlIdPresent : Fld := ⟨.storCtrlId, 9, 9⟩
/-- STOR_CTRL_OUT (14 R415). -/
abbrev Fld.storCtrlOut : Fld := ⟨.storCtrlOut, 31, 0⟩
/-- STOR_NS_CTL.valid (14 T14.4). -/
abbrev Fld.storNsCtlValid : Fld := ⟨.storNsCtl, 0, 0⟩
/-- STOR_NS_CTL.encrypt (14 T14.4). -/
abbrev Fld.storNsCtlEncrypt : Fld := ⟨.storNsCtl, 1, 1⟩
/-- STOR_NS_CTL.kind (14 T14.4). -/
abbrev Fld.storNsCtlKind : Fld := ⟨.storNsCtl, 2, 2⟩
/-- STOR_NS_CTL.lba4k (14 T14.4). -/
abbrev Fld.storNsCtlLba4k : Fld := ⟨.storNsCtl, 3, 3⟩
/-- STOR_NS_CTL.root_port (14 T14.4). -/
abbrev Fld.storNsCtlRootPort : Fld := ⟨.storNsCtl, 10, 8⟩
/-- STOR_NS_CTL.read_only (14 T14.4). -/
abbrev Fld.storNsCtlReadOnly : Fld := ⟨.storNsCtl, 16, 16⟩
/-- STOR_NS_CONN (14 T14.4). -/
abbrev Fld.storNsConn : Fld := ⟨.storNsConn, 31, 0⟩
/-- STOR_NS_RKEY (14 T14.4). -/
abbrev Fld.storNsRkey : Fld := ⟨.storNsRkey, 31, 0⟩
/-- STOR_NS_KEY (14 T14.4). -/
abbrev Fld.storNsKey : Fld := ⟨.storNsKey, 31, 0⟩
/-- STOR_NS_BASE (14 T14.4). -/
abbrev Fld.storNsBase : Fld := ⟨.storNsBase, 63, 0⟩
/-- STOR_NS_LBAS (14 T14.4). -/
abbrev Fld.storNsLbas : Fld := ⟨.storNsLbas, 63, 0⟩
/-- STOR_CMD_CNT (14 T14.12). -/
abbrev Fld.storCmdCnt : Fld := ⟨.storCmdCnt, 63, 0⟩
/-- STOR_BYTE_CNT (14 T14.12). -/
abbrev Fld.storByteCnt : Fld := ⟨.storByteCnt, 63, 0⟩
/-- STOR_BACKEND_ERR_CNT (14 R412). -/
abbrev Fld.storBackendErrCnt : Fld := ⟨.storBackendErrCnt, 63, 0⟩
/-- STOR_DENIED_CNT (14 R429). -/
abbrev Fld.storDeniedCnt : Fld := ⟨.storDeniedCnt, 63, 0⟩
/-- SEC_GCM_FAIL_CNT (14 R427). -/
abbrev Fld.secGcmFailCnt : Fld := ⟨.secGcmFailCnt, 63, 0⟩
/-- SEC_IDE_FAIL_CNT (14 R424). -/
abbrev Fld.secIdeFailCnt : Fld := ⟨.secIdeFailCnt, 63, 0⟩
/-- GUT_CH_CTL.enable (15 R433). -/
abbrev Fld.gutChCtlEnable : Fld := ⟨.gutChCtl, 0, 0⟩
/-- GUT_CH_CTL.mode (15 R433). -/
abbrev Fld.gutChCtlMode : Fld := ⟨.gutChCtl, 1, 1⟩
/-- GUT_CH_CTL.buf_base (15 R433). -/
abbrev Fld.gutChCtlBufBase : Fld := ⟨.gutChCtl, 15, 8⟩
/-- GUT_CH_CTL.buf_size (15 R433). -/
abbrev Fld.gutChCtlBufSize : Fld := ⟨.gutChCtl, 24, 16⟩
/-- GUT_CH_STAT.state (15 T15.9). -/
abbrev Fld.gutChStatState : Fld := ⟨.gutChStat, 1, 0⟩
/-- GUT_CH_STAT.shed (15 T15.9). -/
abbrev Fld.gutChStatShed : Fld := ⟨.gutChStat, 3, 2⟩
/-- GUT_CH_STAT.ovf_pending (15 T15.9). -/
abbrev Fld.gutChStatOvfPending : Fld := ⟨.gutChStat, 4, 4⟩
/-- GUT_CH_STAT.drain_stall (15 T15.9). -/
abbrev Fld.gutChStatDrainStall : Fld := ⟨.gutChStat, 5, 5⟩
/-- GUT_CH_STAT.drain_fault (15 T15.9). -/
abbrev Fld.gutChStatDrainFault : Fld := ⟨.gutChStat, 6, 6⟩
/-- GUT_CH_STAT.fill_kib (15 T15.9). -/
abbrev Fld.gutChStatFillKib : Fld := ⟨.gutChStat, 31, 16⟩
/-- GUT_CH_DBASE_LO (15 R437). -/
abbrev Fld.gutChDbaseLo : Fld := ⟨.gutChDbaseLo, 31, 16⟩
/-- GUT_CH_DBASE_HI (15 R437). -/
abbrev Fld.gutChDbaseHi : Fld := ⟨.gutChDbaseHi, 19, 0⟩
/-- GUT_CH_DSIZE (15 R437). -/
abbrev Fld.gutChDsize : Fld := ⟨.gutChDsize, 5, 0⟩
/-- GUT_CH_DHEAD (15 R438). -/
abbrev Fld.gutChDhead : Fld := ⟨.gutChDhead, 31, 0⟩
/-- GUT_CH_DTAIL (15 R437). -/
abbrev Fld.gutChDtail : Fld := ⟨.gutChDtail, 31, 0⟩
/-- GUT_CH_NOTIFY.mode (15 R437). -/
abbrev Fld.gutChNotifyMode : Fld := ⟨.gutChNotify, 1, 0⟩
/-- GUT_CH_NOTIFY.target (15 R437). -/
abbrev Fld.gutChNotifyTarget : Fld := ⟨.gutChNotify, 12, 2⟩
/-- GUT_CH_NOTIFY.coal_count (15 R437). -/
abbrev Fld.gutChNotifyCoalCount : Fld := ⟨.gutChNotify, 20, 13⟩
/-- GUT_CH_NOTIFY.coal_us (15 R437). -/
abbrev Fld.gutChNotifyCoalUs : Fld := ⟨.gutChNotify, 31, 21⟩
/-- GUT_CH_OWNER.ep (15 R437). -/
abbrev Fld.gutChOwnerEp : Fld := ⟨.gutChOwner, 0, 0⟩
/-- GUT_CH_OWNER.bay (15 R437). -/
abbrev Fld.gutChOwnerBay : Fld := ⟨.gutChOwner, 13, 8⟩
/-- GUT_CH_STALL (15 R438). -/
abbrev Fld.gutChStall : Fld := ⟨.gutChStall, 19, 0⟩
/-- GUT_CH_SEQ (15 R432). -/
abbrev Fld.gutChSeq : Fld := ⟨.gutChSeq, 31, 0⟩
/-- GUT_SRC.enable (15 R430). -/
abbrev Fld.gutSrcEnable : Fld := ⟨.gutSrc, 0, 0⟩
/-- GUT_SRC.channel (15 R430). -/
abbrev Fld.gutSrcChannel : Fld := ⟨.gutSrc, 2, 1⟩
/-- GUT_SRC.priority (15 R430). -/
abbrev Fld.gutSrcPriority : Fld := ⟨.gutSrc, 4, 3⟩
/-- GUT_SRC.itrace_br (15 R430). -/
abbrev Fld.gutSrcItraceBr : Fld := ⟨.gutSrc, 8, 8⟩
/-- GUT_SRC.dtrace_ld (15 R430). -/
abbrev Fld.gutSrcDtraceLd : Fld := ⟨.gutSrc, 9, 9⟩
/-- GUT_SRC.dtrace_st (15 R430). -/
abbrev Fld.gutSrcDtraceSt : Fld := ⟨.gutSrc, 10, 10⟩
/-- GUT_SRC.core_mask (15 R430). -/
abbrev Fld.gutSrcCoreMask : Fld := ⟨.gutSrc, 23, 16⟩
/-- GUT_MARK (15 R448). -/
abbrev Fld.gutMark : Fld := ⟨.gutMark, 63, 0⟩
/-- GUT_DROP_CNT (15 R435). -/
abbrev Fld.gutDropCnt : Fld := ⟨.gutDropCnt, 63, 0⟩
/-- GUT_CH_PKT_CNT (15 T15.9). -/
abbrev Fld.gutChPktCnt : Fld := ⟨.gutChPktCnt, 63, 0⟩
/-- GUT_CH_OVF_CNT (15 R436). -/
abbrev Fld.gutChOvfCnt : Fld := ⟨.gutChOvfCnt, 63, 0⟩
/-- GUT_DENIED_CNT (15 R433). -/
abbrev Fld.gutDeniedCnt : Fld := ⟨.gutDeniedCnt, 63, 0⟩
/-- GUT_DRAIN_FAULT_CNT (15 R438). -/
abbrev Fld.gutDrainFaultCnt : Fld := ⟨.gutDrainFaultCnt, 63, 0⟩
/-- PWR_STATE.mode (02 T2.12). -/
abbrev Fld.pwrStateMode : Fld := ⟨.pwrState, 2, 0⟩
/-- PWR_STATE.tarp_cause (02 T2.12). -/
abbrev Fld.pwrStateTarpCause : Fld := ⟨.pwrState, 6, 3⟩
/-- PWR_STATE.tarp_seen (02 T2.12). -/
abbrev Fld.pwrStateTarpSeen : Fld := ⟨.pwrState, 12, 7⟩
/-- PWR_STATE.clk_src (02 T2.12). -/
abbrev Fld.pwrStateClkSrc : Fld := ⟨.pwrState, 13, 13⟩
/-- PWR_STATE.roof_allowed (02 T2.12). -/
abbrev Fld.pwrStateRoofAllowed : Fld := ⟨.pwrState, 14, 14⟩
/-- PWR_STATE.thermal_hold (02 T2.12). -/
abbrev Fld.pwrStateThermalHold : Fld := ⟨.pwrState, 15, 15⟩
/-- PWR_CTL.tarp_force (02 T2.11). -/
abbrev Fld.pwrCtlTarpForce : Fld := ⟨.pwrCtl, 0, 0⟩
/-- PWR_CTL.boot_now (02 T2.11). -/
abbrev Fld.pwrCtlBootNow : Fld := ⟨.pwrCtl, 1, 1⟩
/-- BOOT_ATTEMPTS (02 R56). -/
abbrev Fld.bootAttempts : Fld := ⟨.bootAttempts, 31, 0⟩
/-- PWR_BOOT_STAT.cur_src (02 T2.13). -/
abbrev Fld.pwrBootStatCurSrc : Fld := ⟨.pwrBootStat, 2, 0⟩
/-- PWR_BOOT_STAT.last_src (02 T2.13). -/
abbrev Fld.pwrBootStatLastSrc : Fld := ⟨.pwrBootStat, 5, 3⟩
/-- PWR_BOOT_STAT.last_result (02 T2.13). -/
abbrev Fld.pwrBootStatLastResult : Fld := ⟨.pwrBootStat, 8, 6⟩
/-- PWR_BOOT_STAT.cycle_active (02 T2.13). -/
abbrev Fld.pwrBootStatCycleActive : Fld := ⟨.pwrBootStat, 9, 9⟩
/-- PWR_BOOT_STAT.backoff_s (02 T2.13). -/
abbrev Fld.pwrBootStatBackoffS : Fld := ⟨.pwrBootStat, 16, 10⟩
/-- PWR_BOOT_ORDER.slot0 (02 R53). -/
abbrev Fld.pwrBootOrderSlot0 : Fld := ⟨.pwrBootOrder, 2, 0⟩
/-- PWR_BOOT_ORDER.slot1 (02 R53). -/
abbrev Fld.pwrBootOrderSlot1 : Fld := ⟨.pwrBootOrder, 5, 3⟩
/-- PWR_BOOT_ORDER.slot2 (02 R53). -/
abbrev Fld.pwrBootOrderSlot2 : Fld := ⟨.pwrBootOrder, 8, 6⟩
/-- PWR_BOOT_ORDER.slot3 (02 R53). -/
abbrev Fld.pwrBootOrderSlot3 : Fld := ⟨.pwrBootOrder, 11, 9⟩
/-- PWR_BOOT_ORDER.slot4 (02 R53). -/
abbrev Fld.pwrBootOrderSlot4 : Fld := ⟨.pwrBootOrder, 14, 12⟩
/-- PWR_WAKE_PEND (02 R43). -/
abbrev Fld.pwrWakePend : Fld := ⟨.pwrWakePend, 31, 0⟩
/-- PWR_ROOF_WAKE_EN.ridge_timer (02 T2.14). -/
abbrev Fld.pwrRoofWakeEnRidgeTimer : Fld := ⟨.pwrRoofWakeEn, 0, 0⟩
/-- PWR_ROOF_WAKE_EN.chain_cmd (02 T2.14). -/
abbrev Fld.pwrRoofWakeEnChainCmd : Fld := ⟨.pwrRoofWakeEn, 1, 1⟩
/-- PWR_ROOF_WAKE_EN.console_break (02 T2.14). -/
abbrev Fld.pwrRoofWakeEnConsoleBreak : Fld := ⟨.pwrRoofWakeEn, 2, 2⟩
/-- PWR_ROOF_WAKE_EN.sensor_alert (02 T2.14). -/
abbrev Fld.pwrRoofWakeEnSensorAlert : Fld := ⟨.pwrRoofWakeEn, 3, 3⟩
/-- PWR_ROOF_WAKE_EN.ep0_exit_d3 (02 T2.14). -/
abbrev Fld.pwrRoofWakeEnEp0ExitD3 : Fld := ⟨.pwrRoofWakeEn, 4, 4⟩
/-- PWR_ROOF_WAKE_EN.ep1_exit_d3 (02 T2.14). -/
abbrev Fld.pwrRoofWakeEnEp1ExitD3 : Fld := ⟨.pwrRoofWakeEn, 5, 5⟩
/-- PWR_ROOF_WAKE_EN.bare_port_frame (02 T2.14). -/
abbrev Fld.pwrRoofWakeEnBarePortFrame : Fld := ⟨.pwrRoofWakeEn, 6, 6⟩
/-- PWR_ROOF_WAKE_EN.wake_n0_en (02 T2.14). -/
abbrev Fld.pwrRoofWakeEnWakeN0En : Fld := ⟨.pwrRoofWakeEn, 8, 8⟩
/-- PWR_ROOF_WAKE_EN.wake_n1_en (02 T2.14). -/
abbrev Fld.pwrRoofWakeEnWakeN1En : Fld := ⟨.pwrRoofWakeEn, 9, 9⟩
/-- PWR_ROOF_WAKE_SRC.src (02 R49). -/
abbrev Fld.pwrRoofWakeSrcSrc : Fld := ⟨.pwrRoofWakeSrc, 6, 0⟩
/-- PWR_ROOF_TIMER (02 T2.11). -/
abbrev Fld.pwrRoofTimer : Fld := ⟨.pwrRoofTimer, 31, 0⟩
/-- PWR_ROOF_DELAY (02 R47). -/
abbrev Fld.pwrRoofDelay : Fld := ⟨.pwrRoofDelay, 31, 0⟩
/-- PWR_BAY_RST.bay (02 R52). -/
abbrev Fld.pwrBayRstBay : Fld := ⟨.pwrBayRst, 5, 0⟩
/-- PWR_BAY_RST.go (02 R52). -/
abbrev Fld.pwrBayRstGo : Fld := ⟨.pwrBayRst, 31, 31⟩
/-- PWR_NAP_ABORT_CNT (02 R44). -/
abbrev Fld.pwrNapAbortCnt : Fld := ⟨.pwrNapAbortCnt, 63, 0⟩
/-- PWR_WAKE_AFTER_PNR_CNT (02 R45). -/
abbrev Fld.pwrWakeAfterPnrCnt : Fld := ⟨.pwrWakeAfterPnrCnt, 63, 0⟩
/-- PWR_TARP_ENTRY_CNT (02 R57). -/
abbrev Fld.pwrTarpEntryCnt : Fld := ⟨.pwrTarpEntryCnt, 63, 0⟩
/-- PWR_TARP_DISCARD_CNT (02 R59). -/
abbrev Fld.pwrTarpDiscardCnt : Fld := ⟨.pwrTarpDiscardCnt, 63, 0⟩
/-- PWR_ROOF_ENTRY_CNT (02 T2.5). -/
abbrev Fld.pwrRoofEntryCnt : Fld := ⟨.pwrRoofEntryCnt, 63, 0⟩
/-- PWR_ROOF_ABORT_CNT (02 R49). -/
abbrev Fld.pwrRoofAbortCnt : Fld := ⟨.pwrRoofAbortCnt, 63, 0⟩
/-- PWR_CLK_FAIL_CNT (02 R34). -/
abbrev Fld.pwrClkFailCnt : Fld := ⟨.pwrClkFailCnt, 63, 0⟩
/-- PWR_DENIED_CNT (02 R38). -/
abbrev Fld.pwrDeniedCnt : Fld := ⟨.pwrDeniedCnt, 63, 0⟩
/-- PWR_BOARD_PG_CNT (16 R456). -/
abbrev Fld.pwrBoardPgCnt : Fld := ⟨.pwrBoardPgCnt, 63, 0⟩
/-- PWR_WARM_RST_CNT (16 R456). -/
abbrev Fld.pwrWarmRstCnt : Fld := ⟨.pwrWarmRstCnt, 63, 0⟩
/-- PWR_CHAIN_ADDR.address (03 T3.6). -/
abbrev Fld.pwrChainAddrAddress : Fld := ⟨.pwrChainAddr, 6, 0⟩
/-- PWR_CHAIN_ADDR.addressed (03 T3.6). -/
abbrev Fld.pwrChainAddrAddressed : Fld := ⟨.pwrChainAddr, 7, 7⟩
/-- PWR_CHAIN_ADDR.en_in (03 T3.6). -/
abbrev Fld.pwrChainAddrEnIn : Fld := ⟨.pwrChainAddr, 8, 8⟩
/-- PWR_CHAIN_ADDR.en_out (03 T3.6). -/
abbrev Fld.pwrChainAddrEnOut : Fld := ⟨.pwrChainAddr, 9, 9⟩
/-- PWR_CHAIN_CTL.ctl_lock (03 R75). -/
abbrev Fld.pwrChainCtlCtlLock : Fld := ⟨.pwrChainCtl, 0, 0⟩
/-- PWR_CHAIN_CTL.release (03 R75). -/
abbrev Fld.pwrChainCtlRelease : Fld := ⟨.pwrChainCtl, 1, 1⟩
/-- PWR_UNIT_ID_LO (03 R67). -/
abbrev Fld.pwrUnitIdLo : Fld := ⟨.pwrUnitIdLo, 31, 0⟩
/-- PWR_UNIT_ID_HI (03 R67). -/
abbrev Fld.pwrUnitIdHi : Fld := ⟨.pwrUnitIdHi, 31, 0⟩
/-- PWR_NODE_ID.node_id (03 R77). -/
abbrev Fld.pwrNodeIdNodeId : Fld := ⟨.pwrNodeId, 11, 0⟩
/-- PWR_NODE_ID.written (03 R77). -/
abbrev Fld.pwrNodeIdWritten : Fld := ⟨.pwrNodeId, 12, 12⟩
/-- PWR_CON_BAUD.inc (03 R79). -/
abbrev Fld.pwrConBaudInc : Fld := ⟨.pwrConBaud, 23, 0⟩
/-- PWR_CON_TX (03 R84). -/
abbrev Fld.pwrConTx : Fld := ⟨.pwrConTx, 7, 0⟩
/-- PWR_CON_RX.data (03 R84). -/
abbrev Fld.pwrConRxData : Fld := ⟨.pwrConRx, 7, 0⟩
/-- PWR_CON_RX.frame_err (03 R84). -/
abbrev Fld.pwrConRxFrameErr : Fld := ⟨.pwrConRx, 8, 8⟩
/-- PWR_CON_RX.valid (03 R84). -/
abbrev Fld.pwrConRxValid : Fld := ⟨.pwrConRx, 9, 9⟩
/-- PWR_CON_STAT.rx_level (03 R83). -/
abbrev Fld.pwrConStatRxLevel : Fld := ⟨.pwrConStat, 6, 0⟩
/-- PWR_CON_STAT.tx_level (03 R83). -/
abbrev Fld.pwrConStatTxLevel : Fld := ⟨.pwrConStat, 14, 8⟩
/-- PWR_CON_STAT.brk (03 R83). -/
abbrev Fld.pwrConStatBrk : Fld := ⟨.pwrConStat, 16, 16⟩
/-- PWR_CON_STAT.ovr (03 R83). -/
abbrev Fld.pwrConStatOvr : Fld := ⟨.pwrConStat, 17, 17⟩
/-- PWR_TEMP (03 R86). -/
abbrev Fld.pwrTemp : Fld := ⟨.pwrTemp, 15, 0⟩
/-- PWR_TEMP_MAX (03 R86). -/
abbrev Fld.pwrTempMax : Fld := ⟨.pwrTempMax, 15, 0⟩
/-- PWR_THERM_THRESH.warn (03 R88). -/
abbrev Fld.pwrThermThreshWarn : Fld := ⟨.pwrThermThresh, 7, 0⟩
/-- PWR_THERM_THRESH.hard (03 R88). -/
abbrev Fld.pwrThermThreshHard : Fld := ⟨.pwrThermThresh, 15, 8⟩
/-- PWR_THERM_THRESH.emerg (03 R88). -/
abbrev Fld.pwrThermThreshEmerg : Fld := ⟨.pwrThermThresh, 23, 16⟩
/-- PWR_THERM_THRESH.clear (03 R88). -/
abbrev Fld.pwrThermThreshClear : Fld := ⟨.pwrThermThresh, 31, 24⟩
/-- PWR_THERM_STAT.level (03 R87). -/
abbrev Fld.pwrThermStatLevel : Fld := ⟨.pwrThermStat, 1, 0⟩
/-- PWR_THERM_STAT.tripped (03 R87). -/
abbrev Fld.pwrThermStatTripped : Fld := ⟨.pwrThermStat, 2, 2⟩
/-- PWR_VMON.mv (03 R90). -/
abbrev Fld.pwrVmonMv : Fld := ⟨.pwrVmon, 15, 0⟩
/-- PWR_VMON.low_alert (03 R90). -/
abbrev Fld.pwrVmonLowAlert : Fld := ⟨.pwrVmon, 16, 16⟩
/-- PWR_VMON.high_alert (03 R90). -/
abbrev Fld.pwrVmonHighAlert : Fld := ⟨.pwrVmon, 17, 17⟩
/-- PWR_VMON_LIM.low (03 R90). -/
abbrev Fld.pwrVmonLimLow : Fld := ⟨.pwrVmonLim, 15, 0⟩
/-- PWR_VMON_LIM.high (03 R90). -/
abbrev Fld.pwrVmonLimHigh : Fld := ⟨.pwrVmonLim, 31, 16⟩
/-- PWR_ACC_CTL.req (03 R91). -/
abbrev Fld.pwrAccCtlReq : Fld := ⟨.pwrAccCtl, 1, 0⟩
/-- PWR_ACC_CTL.rst_delay_ms (03 R91). -/
abbrev Fld.pwrAccCtlRstDelayMs : Fld := ⟨.pwrAccCtl, 9, 2⟩
/-- PWR_ACC_CTL.pg_timeout_ms (03 R91). -/
abbrev Fld.pwrAccCtlPgTimeoutMs : Fld := ⟨.pwrAccCtl, 17, 10⟩
/-- PWR_ACC_CTL.pulse_ms (03 R91). -/
abbrev Fld.pwrAccCtlPulseMs : Fld := ⟨.pwrAccCtl, 25, 18⟩
/-- PWR_ACC_STAT.state (03 R93). -/
abbrev Fld.pwrAccStatState : Fld := ⟨.pwrAccStat, 2, 0⟩
/-- PWR_ACC_STAT.pg (03 R93). -/
abbrev Fld.pwrAccStatPg : Fld := ⟨.pwrAccStat, 3, 3⟩
/-- PWR_ACC_STAT.pwr_en (03 R93). -/
abbrev Fld.pwrAccStatPwrEn : Fld := ⟨.pwrAccStat, 4, 4⟩
/-- PWR_ACC_STAT.rst_n (03 R93). -/
abbrev Fld.pwrAccStatRstN : Fld := ⟨.pwrAccStat, 5, 5⟩
/-- PWR_ACC_STAT.fault_cause (03 R93). -/
abbrev Fld.pwrAccStatFaultCause : Fld := ⟨.pwrAccStat, 7, 6⟩
/-- PWR_CHAIN_ERR_CNT (03 R70). -/
abbrev Fld.pwrChainErrCnt : Fld := ⟨.pwrChainErrCnt, 63, 0⟩
/-- PWR_CHAIN_TIMEOUT_CNT (03 R71). -/
abbrev Fld.pwrChainTimeoutCnt : Fld := ⟨.pwrChainTimeoutCnt, 63, 0⟩
/-- PWR_CON_FRAME_CNT (03 R81). -/
abbrev Fld.pwrConFrameCnt : Fld := ⟨.pwrConFrameCnt, 63, 0⟩
/-- PWR_CON_OVERRUN_CNT (03 R84). -/
abbrev Fld.pwrConOverrunCnt : Fld := ⟨.pwrConOverrunCnt, 63, 0⟩
/-- PWR_CON_BREAK_CNT (03 R83). -/
abbrev Fld.pwrConBreakCnt : Fld := ⟨.pwrConBreakCnt, 63, 0⟩
/-- PWR_THROTTLE_CNT (03 R88). -/
abbrev Fld.pwrThrottleCnt : Fld := ⟨.pwrThrottleCnt, 63, 0⟩
/-- PWR_ACC_FAULT_CNT (03 R93). -/
abbrev Fld.pwrAccFaultCnt : Fld := ⟨.pwrAccFaultCnt, 63, 0⟩
/-- PWR_DOM_CTL.idle_floor (02 T2.15). -/
abbrev Fld.pwrDomCtlIdleFloor : Fld := ⟨.pwrDomCtl, 1, 0⟩
/-- PWR_DOM_CTL.off_req (02 T2.15). -/
abbrev Fld.pwrDomCtlOffReq : Fld := ⟨.pwrDomCtl, 2, 2⟩
/-- PWR_DOM_CTL.wake_req (02 T2.15). -/
abbrev Fld.pwrDomCtlWakeReq : Fld := ⟨.pwrDomCtl, 3, 3⟩
/-- PWR_DOM_CTL.nap_delay_us (02 T2.15). -/
abbrev Fld.pwrDomCtlNapDelayUs : Fld := ⟨.pwrDomCtl, 19, 4⟩
/-- PWR_DOM_STAT.cur_state (02 T2.16). -/
abbrev Fld.pwrDomStatCurState : Fld := ⟨.pwrDomStat, 1, 0⟩
/-- PWR_DOM_STAT.in_transition (02 T2.16). -/
abbrev Fld.pwrDomStatInTransition : Fld := ⟨.pwrDomStat, 2, 2⟩
/-- PWR_DOM_STAT.last_wake_src (02 T2.16). -/
abbrev Fld.pwrDomStatLastWakeSrc : Fld := ⟨.pwrDomStat, 5, 3⟩
/-- PWR_DOM_STAT.restore_needed (02 T2.16). -/
abbrev Fld.pwrDomStatRestoreNeeded : Fld := ⟨.pwrDomStat, 6, 6⟩
/-- PWR_DOM_STAT.off_pending (02 T2.16). -/
abbrev Fld.pwrDomStatOffPending : Fld := ⟨.pwrDomStat, 7, 7⟩

/-- Low and high reset limits of a voltage monitor, mV: nominal less and plus 5 percent, rounded away from nominal
(03 R90; nominal voltages of 16 Table 16.2). -/
def vmonLimits (j : Nat) : Nat × Nat :=
  match j with
  | 0 => (712, 788) | 1 => (807, 893) | 2 => (855, 945) | 3 => (380, 420)
  | 4 => (1045, 1155) | 5 => (1710, 1890) | 6 => (760, 840) | _ => (855, 945)

/-- Reset value of ADM_POOL_CAP(p) (08 Table 8.11). -/
def poolCapReset (p : Nat) : Nat :=
  match p with
  | 0 => 256000000 | 1 => 800000000 | 2 => 1840000000 | 3 => 256000
  | 4 => 100000000 | 5 => 25000000 | _ => 1840000000

/-- Reset values that depend on the instance, or that the fuses hold. -/
def Reg.special (r : Reg) (i : Nat) : Option Nat :=
  match r with
  | .admPoolCap => some (poolCapReset i)
  | .admPoolFloor => some (match i with | 3 => 128000 | 4 => 100000000 | 5 => 25000000 | 6 => 1840000000 | _ => 0)
  | .trussPortCfg => some (i / 8 + 8 + 0xFF * 0x10000)
  | .pwrVmonLim => some ((vmonLimits i).1 + (vmonLimits i).2 * 0x10000)
  | .pwrBootOrder => some 0x58D1
  | .pwrUnitIdLo => some (Config.unitId.toNat % 2 ^ 32)
  | .pwrUnitIdHi => some (Config.unitId.toNat / 2 ^ 32)
  | _ => none

/-- Add up the reset values of a register's fields. -/
def fieldsReset (fs : List FieldDesc) : Nat := fs.foldl (fun n f => n + f.reset * 2 ^ f.lo) 0

/-- What instance `i` of a register holds after reset. -/
def Reg.resetVal (r : Reg) (i : Nat) : Dword :=
  BitVec.ofNat 64 ((r.special i).getD (fieldsReset r.desc.fields))

/-- The register's number. -/
def Reg.num (r : Reg) : Nat := r.ctorIdx

/-- The index of a register's instance from its two natural indices. -/
def Reg.idx (r : Reg) (k1 k2 : Nat) : Nat := if r.desc.st2 = 0 then k1 else k1 * (r.desc.hi2 + 1) + k2

/-- The instance of `r` that lies at an offset, if one starts there. -/
def Reg.instAt (r : Reg) (off : Nat) : Option Nat :=
  let d := r.desc
  if off < d.off then none
  else if d.st1 = 0 then (if off = d.off then some 0 else none)
  else
    let x := off - d.off
    let k1 := Nat.min (x / d.st1) d.hi1
    let y := x - k1 * d.st1
    if k1 < d.lo1 then none
    else if d.st2 = 0 then (if y = 0 then some k1 else none)
    else if y % d.st2 ≠ 0 then none
    else if y / d.st2 < d.lo2 then none
    else if d.hi2 < y / d.st2 then none
    else some (k1 * (d.hi2 + 1) + y / d.st2)

/-- Search a list of registers for the instance at an offset. -/
def Reg.find : List Reg → Nat → Option (Reg × Nat)
  | [], _ => none
  | r :: rs, off =>
    match r.instAt off with
    | some i => some (r, i)
    | none => Reg.find rs off

/-- The register that starts at an offset of the control space. -/
def Reg.at? (off : Nat) : Option (Reg × Nat) := Reg.find Reg.all off

end Sys2Proof.Machine
end

