-- ==== Sys2Proof/Machine/Tab.lean ====
section
/-! DEFINITION. Sparse tables: a list of (key, value) pairs with strictly rising keys. A table with a default lists no
entry equal to the default, so equal tables are equal lists. Every array of the machine too long to write out, and the
memory, is held so. -/

namespace Sys2Proof.Machine

/-- A sparse table: keys strictly rising. -/
abbrev Tab (α : Type) := List (Nat × α)

/-- The entry listed under a key. -/
def Tab.lookup {α : Type} : Tab α → Nat → Option α
  | [], _ => none
  | (k, v) :: t, n => if n = k then some v else Tab.lookup t n

/-- The value under a key; `d` is what an unlisted key holds. -/
def Tab.get {α : Type} (d : α) (t : Tab α) (n : Nat) : α := (Tab.lookup t n).getD d

/-- List `v` under key `n`, keeping the keys rising. -/
def Tab.put {α : Type} : Tab α → Nat → α → Tab α
  | [], n, v => [(n, v)]
  | (k, w) :: t, n, v =>
    if n < k then (n, v) :: (k, w) :: t
    else if n = k then (n, v) :: t
    else (k, w) :: Tab.put t n v

/-- Remove the entry under key `n`. -/
def Tab.del {α : Type} : Tab α → Nat → Tab α
  | [], _ => []
  | (k, w) :: t, n => if n = k then Tab.del t n else (k, w) :: Tab.del t n

/-- Write a value in a table whose unlisted keys hold `d`: the default is never listed. -/
def Tab.store {α : Type} [DecidableEq α] (d : α) (t : Tab α) (n : Nat) (v : α) : Tab α :=
  if v = d then Tab.del t n else Tab.put t n v

/-- Keep the entries whose key satisfies `p`. -/
def Tab.keep {α : Type} (p : Nat → Bool) (t : Tab α) : Tab α := t.filter (fun e => p e.1)

/-- The keys rise strictly. -/
def Tab.rising {α : Type} : Tab α → Bool
  | [] => true
  | [_] => true
  | (k, _) :: (k', w) :: t => decide (k < k') && Tab.rising ((k', w) :: t)

/-- The canonical form of a table with default `d`. -/
def Tab.canon {α : Type} [DecidableEq α] (d : α) (t : Tab α) : Bool :=
  Tab.rising t && t.all (fun e => decide (e.2 ≠ d))

end Sys2Proof.Machine
end

