-- ==== Sys2Proof/Machine/State.lean ====
section
/-! DEFINITION. The state: every register, counter, FIFO, buffer, mode and pin the spec gives the block, and the queue of
commands. Registers of the control space live in State.regs under the names of spec/; what the spec gives the block beside
them lives in one record per chapter. A field's docstring says its width, the rule that names it, its reset value and what
it is. -/

namespace Sys2Proof.Machine

/-- Why the machine stops. No behaviour of the spec stops it: every command leaves a next state. -/
inductive Fault where
deriving DecidableEq, Repr

/-- Why a command has no effect to give. -/
inductive Refusal where
  /-- The command has no meaning in this model yet (safe: nothing is claimed of it). -/
  | notModelled (mnemonic : String)
deriving DecidableEq, Repr

/-- What the block sends out, in the order of State.out. -/
inductive Out where
  /-- An MSI-X message (07 R198): endpoint, function, vector. -/
  | msix (ep fn vec : Nat)
  /-- A power management event (07 R206). -/
  | pme (ep fn : Nat)
  /-- An ATS invalidate completion (07 R199). -/
  | atsDone (ep : Nat)
  /-- What a read was answered: none is Unsupported Request or Completer Abort (07 R193). -/
  | answer (req : Requester) (v : Option Dword)
  /-- An error that an endpoint reports through AER: 0 IDE Check Failed. -/
  | aer (ep what : Nat)
  /-- A response on the management chain (03 R66). -/
  | chain (frame : List Byte)
  /-- A character that has left on CON_TXD (03 R84). -/
  | con (c : Byte)
  /-- An Ethernet frame, without FCS, that leaves on a sub-port (09 R245). -/
  | frame (port : Nat) (bytes : List Byte)
  /-- A PFC frame (10 R311). -/
  | pfc (port q : Nat) (xoff : Bool)
  /-- An eave transport packet: connection, whether marked CE, Ethernet to UDP headers, base to extension headers, payload and tag. -/
  | eave (conn : Nat) (ce : Bool) (outer : List Byte) (hdr : List Byte) (payload : List Byte)
  /-- A Nawyn flit (11 R327). -/
  | flit (link : Nat) (bytes : List Byte)
  /-- A command to an SSD (14 R411, R418): root port, namespace, opcode, first LBA, LBAs, data. -/
  | ssd (port nsid opc slba nlb : Nat) (data : List Byte)
  /-- A response of an SPDM responder, or of IDE_KM over it (14 R422, R424). -/
  | spdm (ep : Nat) (msg : List Byte)
  /-- A slab request (04 Table 4.14): slab, thread, function, op_a, op_b. -/
  | slabReq (slab tid func : Nat) (opA opB : Dword)
  /-- What a slab's read of memory returns (04 R124). -/
  | slabData (slab : Nat) (bytes : List Byte)
deriving DecidableEq, Repr

/-- Where a fast domain stands between the states of Table 2.2 (02 Tables 2.4, 2.6). -/
inductive DomPhase where
  /-- Not in transition. -/
  | stable
  /-- Nap or Off entry, before the point of no return. -/
  | entry (toOff : Bool)
  /-- Nap or Off entry, after it; whether a wake has been latched since (02 R45). -/
  | past (toOff : Bool) (woken : Bool)
  /-- On its way to Run. -/
  | waking
deriving DecidableEq, Repr

/-- What the Ridge keeps of a fast domain besides PWR_DOM_CTL, PWR_DOM_STAT and PWR_WAKE_PEND (02 R36 to R45, R465). -/
structure Dom where
  /-- Bool; 02 R36, R43; reset false — the Ridge has started the domain since the last reset -/
  started : Bool := false
  /-- Bool; 02 R36, R57; reset false — the Ridge lets the domain leave Off; false again from Tarp entry on -/
  enabled : Bool := false
  /-- phase; 02 R44, R45; reset stable — entry or wake in progress -/
  phase : DomPhase := .stable
  /-- 3 bits; 02 R43; reset 0 — the first wake source latched since the domain left Run, 0 none -/
  firstSrc : Nat := 0
  /-- 64 bits; 02 R37; reset 0 — fabric time at which the domain entered Doze -/
  dozeSince : Nat := 0
deriving DecidableEq, Repr

/-- The state of a domain nothing has touched since reset. -/
def Dom.off : Dom := {}

/-- Roof Sleep (02 Tables 2.5, 2.6). -/
inductive Roof where
  | awake
  /-- Entry before step 4, with the domain states of step 1. -/
  | entry (at1 : List Nat)
  /-- Entry after step 4, with the first source latched since. -/
  | past (first : Option Nat)
  | asleep
  /-- Exit under way; whether the digest check of step 4 has passed. -/
  | exiting (checked : Bool)
deriving DecidableEq, Repr

/-- Where a boot attempt stands (02 Table 2.8, 14 R420, 16 R461). -/
inductive BootStage where
  /-- SPI: waiting 1 ms after the SPI_RESET_N pulse. -/
  | spiReset
  /-- SPI: reading the SFDP table. -/
  | sfdp
  /-- Sources 3 to 5: no push, server or neighbour has begun. -/
  | waiting
  /-- The image is arriving; its header has not been checked. -/
  | header
  /-- The image is arriving; its header has passed. -/
  | body
  /-- Every byte has arrived; hashing and verification run. -/
  | hashing
deriving DecidableEq, Repr

/-- A boot attempt in progress (02 R53 to R56, 07 R211). -/
structure Attempt where
  /-- 3 bits; 02 R53; — the slot being tried, 0 to 4 -/
  slot : Nat
  /-- 3 bits; 02 Table 2.8; — its source -/
  src : Nat
  /-- stage; 02 Table 2.8, 16 R461; — how far it has come -/
  stage : BootStage
  /-- path number; 07 R211; — the mailbox path of the sender that has begun, if one has -/
  path : Option Nat := none
  /-- 4 bits; 02 Table 2.8; — the Nawyn link whose turn it is (source 5) -/
  link : Nat := 0
  /-- 3 bits; 11 R333; — class that the neighbour's last BOOT message came in (source 5) -/
  tc : Nat := 0
  /-- 64 bits; 07 R211; — image_size that BOOT_BEGIN or the header gave -/
  size : Nat := 0
  /-- bytes; 07 R211, 14 R420; — what has arrived of the image -/
  image : List Byte := []
deriving DecidableEq, Repr

/-- The Ridge: power, boot and Tarp mode (02_ridge_power_start.md, 16_package_electrical.md). -/
structure Ridge where
  /-- Bool; 16 R455, R457; reset false — the Ridge is in power-on reset -/
  por : Bool := false
  /-- Bool; 02 R33, R51; reset true — the 2 ms crystal detection is under way -/
  detecting : Bool := true
  /-- Bool; 16 R456; reset false — RESET_N is held low -/
  resetLow : Bool := false
  /-- Bool; 16 R456; reset false — BOARD_PG is held low after power-up -/
  pgLow : Bool := false
  /-- 79 records; 02 R36 to R45; reset every domain Off and not started -/
  doms : Tab Dom := []
  /-- phase; 02 R47 to R49; reset awake — Roof Sleep -/
  roof : Roof := .awake
  /-- record; 02 R53 to R56; reset none — the boot attempt in progress -/
  attempt : Option Attempt := none
  /-- Bool; 02 R57; reset true — no boot cycle has ended since the reset -/
  firstCycle : Bool := true
  /-- count; 02 R55; reset 0 — consecutive failed cycles, which set the backoff -/
  failedCycles : Nat := 0
  /-- 64 bits; 02 R55; reset none — fabric time at which the running backoff ends -/
  backoffEnd : Option Nat := none
  /-- Bool; 02 Table 2.10; reset none — Tarp entry under way before step 4, and whether it came from Normal mode -/
  tarpEntry : Option Bool := none
  /-- Bool; 02 R58; reset false — the bare port is up in Tarp mode -/
  barePort : Bool := false
  /-- per bay, times; 06 R183; reset none — the bay resets issued while the bay was faulted, in the last 60 s -/
  bayResets : Tab (List Nat) := []
  /-- bay numbers; 02 R52; reset none — bay resets under way -/
  resetting : List Nat := []
  /-- pin; 16 R455; reset low — SPI_RESET_N is high -/
  spiResetHigh : Bool := false
  /-- mode; 16 R461; reset 0 — the SPI read mode the SFDP table selected: 0 1-1-1, 1 1-1-4, 2 1-4-4, 3 8D-8D-8D -/
  spiMode : Nat := 0
  /-- pins; 02 R50, 07 R206; reset released — PEe_WAKE_N driven low, e = 0, 1 -/
  wakeN : Bool × Bool := (false, false)
  /-- Bool; 04 Table 4.12; reset none — the embedded thatch of a successful boot attempt, being loaded -/
  loading : Bool := false
  /-- monitor numbers; 03 R90; reset none — monitors whose excursion beyond their limits goes on -/
  vmonOut : List Nat := []
  /-- Bool; 02 R61; reset false — Tarp mode has been left and no host event ring has been live since to carry TARP_EXIT -/
  exitOwed : Bool := false
deriving DecidableEq, Repr

/-- The management chain (03_ridge_chain_console.md). -/
structure Chain where
  /-- 8 bits; 03 R70, Table 3.3; reset 0 OK — the status the next read of the unit returns -/
  lastStatus : Nat := 0
  /-- bytes; 03 R73; reset none — the segments of the mailbox message being joined -/
  msgIn : Option (List Byte) := none
  /-- Bool; 03 R73; reset false — the segment that ended the message joined so far has come, short of the message's length -/
  msgEnded : Bool := false
  /-- bytes; 03 R73; reset none — what is left of the mailbox response that MAILBOX_READ returns -/
  msgOut : List Byte := []
deriving DecidableEq, Repr

/-- The console (03 R79 to R85). -/
structure Console where
  /-- 64 x 9 bits; 03 R84; reset empty — receive FIFO behind PWR_CON_RX: character and frame_err, oldest first -/
  rx : List (Byte × Bool) := []
  /-- 64 x 8 bits; 03 R84; reset empty — transmit FIFO, oldest first -/
  tx : List Byte := []
  /-- 8 bits; 03 R84; reset none — the character on the line -/
  sending : Option Byte := none
  /-- Bool; 03 R85; reset false — software's last character sent was not a line feed -/
  midLine : Bool := false
  /-- Bool; 03 R85; reset false — the 10 ms protection of the line in the FIFO has run out -/
  holdLost : Bool := false
  /-- count; 03 R85; reset 0 — Ridge log lines waiting to be inserted -/
  logWaiting : Nat := 0
  /-- Bool; 03 R81, R83; reset false — the receiver waits for a high sample before it arms -/
  inBreak : Bool := false
deriving DecidableEq, Repr

/-- Where an accelerator's sequencer stands (03 Table 3.5). -/
structure Acc where
  /-- step; 03 R92; reset idle — 0 no step running, 1 waiting for ACCn_PG, 2 rst_delay_ms, 3 the 1 ms of off, 4 pulse_ms -/
  step : Nat := 0
  /-- 2 bits; 03 R92; reset 0 — the latest request not yet followed: 0 none, 1 on, 2 off, 3 reset pulse -/
  request : Nat := 0
deriving DecidableEq, Repr

/-- What the committed BAY_MAP gives a bay (04 Table 4.4). -/
structure Envelope where
  /-- 64 bits; 04 Table 4.4; — rafters -/
  rafterMask : Nat := 0
  /-- 16 bits each; 04 Table 4.4; — queue pair range -/
  ringFirst : Nat := 0
  ringCount : Nat := 0
  /-- 16 bits each; 04 Table 4.4; — event ring range -/
  evrFirst : Nat := 0
  evrCount : Nat := 0
  /-- 4 bits; 04 Table 4.4; — slabs owned -/
  slabMask : Nat := 0
  /-- 16 bits; 04 Table 4.4; — power budget in 0.1 W -/
  powerBudget : Nat := 0
  /-- 32 bits; 04 Table 4.4; — hold limit in ms -/
  holdLimitMs : Nat := 0
  /-- 64 bits each; 04 Table 4.4; — HBM and DDR slices, offsets from the start of each -/
  hbmBase : Nat := 0
  hbmSize : Nat := 0
  ddrBase : Nat := 0
  ddrSize : Nat := 0
deriving DecidableEq, Repr

/-- A PURLIN_ROUTES entry (04 Table 4.7). -/
structure Route where
  src : Nat
  dst : Nat
  vc : Nat
  weight : Nat
  maxOut : Nat
deriving DecidableEq, Repr

/-- A bay as the committed thatch and a strike leave it (04 R99 to R118; 06 Table 6.9). THATCH_BAY_EPOCH and
THATCH_BAY_STAT hold its epoch and state. -/
structure Bay where
  /-- record; 04 R99; reset absent — the envelope -/
  env : Envelope := {}
  /-- 52 bits; 04 R103; reset 0 — entry_pc of the committed firmware -/
  entryPc : Nat := 0
  /-- array; 04 R102; reset none — purlin routes -/
  routes : List Route := []
  /-- queue pairs; 04 R100; reset none — queue pairs that the committed RING_ALLOC lists -/
  rings : List Nat := []
  /-- Bool; 04 R112; reset false — struck: admission closed and RWL fields unlocked -/
  struck : Bool := false
  /-- 64 bits; 04 R114; reset 0 — fabric time of the strike -/
  struckAt : Nat := 0
  /-- Bool; 04 R113; reset false — the bay's threads have stopped since the strike -/
  quiesced : Bool := false
  /-- 64 bits; 06 R166; reset 0 — PANE_ROOT, shared by the bay's threads -/
  paneRoot : Dword := 0
  /-- 64 bits; 06 R164; reset 0 — RESTORE_PC -/
  restorePc : Dword := 0
  /-- bytes; 04 R108; reset none — the bay's latest committed bay image in the thatch store -/
  image : Option (List Byte) := none
  /-- MHz; 04 R121; reset 0, no cap — the power-budget cap on the bay's rafter clocks -/
  capMhz : Nat := 0
  /-- ms; 04 R121; reset 0 — how long the estimate has stayed 10 % under budget -/
  underMs : Nat := 0
deriving DecidableEq, Repr

/-- An open fabric slab (04 R122 to R125, R468). -/
structure Slab where
  /-- Bool; 04 R122, R125; reset true — held in reset -/
  inReset : Bool := true
  /-- Bool; 04 R468; reset false — a bitstream has been programmed -/
  programmed : Bool := false
  /-- 4 bits; 04 Table 4.9; reset 0 — contract version -/
  version : Nat := 0
  /-- MHz; 04 Table 4.9; reset 0 — clock -/
  clockMhz : Nat := 0
  /-- slab cycles; 04 Table 4.9; reset 0 — latency limit -/
  latencyMax : Nat := 0
deriving DecidableEq, Repr

/-- The thatch engine (04_thatch.md). THATCH_STAT holds phase, result, bay, hold_expired and forced_drain. -/
structure Thatch where
  /-- 64 records; 04 R99; reset absent -/
  bays : Tab Bay := []
  /-- 4 records; 04 R122; reset in reset, unprogrammed -/
  slabs : Tab Slab := []
  /-- bytes; 04 R108; reset empty — the staging area: the image being loaded -/
  staging : List Byte := []
  /-- stage; 04 R107; reset 0 — 0 none, 1 fetching, 2 checks 1 to 4 passed, 3 check 5 passed, 4 all passed, 5 failed -/
  stage : Nat := 0
  /-- 4 bits; 04 R115; reset 0 — result to report when the strike is lifted -/
  failResult : Nat := 0
  /-- Bool; 04 R117; reset false — auto_commit of the running reload -/
  auto : Bool := false
  /-- bytes; 04 R108; reset none — the committed full image in the thatch store -/
  full : Option (List Byte) := none
  /-- 1 bit; 04 R109; reset false — boot serving enabled (02 R54) -/
  bootServe : Bool := false
  /-- per domain, MHz; 04 R101; reset 0, no cap — freq_cap_mhz of the committed clock plans -/
  freqCap : Tab Nat := []
  /-- GiB; 06 Table 6.4; reset DESIGN CHOICE 1536 (log 3) — DDR the board has fitted, a multiple of 1 GiB -/
  ddrGiB : Nat := 1536
deriving DecidableEq, Repr

/-- Thread states (06 Table 6.1). -/
inductive TState where
  | parked | ready | blocked | waiting | halted | stopped
deriving DecidableEq, Repr

/-- What an outstanding blocking access, division or coprocessor request will do when it completes (06 R159). -/
structure Block where
  /-- Register written, 0 for none. -/
  rd : Nat
  /-- Its value, where the device has it already; none where it comes from a register or from outside the device. -/
  val : Option Dword
  /-- Bytes and signedness of a value that comes from outside. -/
  size : Nat := 8
  sgn : Bool := false
  /-- pc after the instruction. -/
  npc : Dword
  /-- Fabric address and access kind, for a trap (06 Table 6.7); 4 where it is no access. -/
  addr : Nat := 0
  kind : Nat := 0
  /-- The slab and the fabric time by which its response is due (04 R123). -/
  slab : Option (Nat × Nat) := none
  /-- A fence that waits for the posted stores (06 R176). -/
  fence : Bool := false
  /-- Word 0 of the instruction, for CPFAULT. -/
  word : Word := 0
  /-- Whether the answer comes by a Nawyn or transport message, and the answer, once it has come. -/
  byMsg : Bool := false
  ans : Option Answer := none
  /-- An instruction that makes accesses as it goes (CHKD, a micro-routine), and what its step has loaded so far. -/
  cont : Option Olx := none
  got : List Dword := []
  /-- Steps of a micro-routine that remain to the command that issued it. -/
  steps : Nat := 0
deriving DecidableEq, Repr

/-- A non-blocking load on its way (06 R159): its value was fixed when it issued. -/
structure NbLoad where
  rd : Nat
  val : Dword
  addr : Nat
  pc : Dword
deriving DecidableEq, Repr

/-- A WAIT in progress (05 R148). -/
structure Wait where
  base : Nat
  mask : Dword
  all : Bool
  clr : Bool
  rd : Nat
  /-- Fabric time at which it times out. -/
  deadline : Option Nat
deriving DecidableEq, Repr

/-- An Olxavon thread (05 R126, Table 5.14; 06 Table 6.9). The default is the thread-reset state of 06 R162. -/
structure Thread where
  /-- state; 06 Table 6.1; reset parked -/
  st : TState := .parked
  /-- 31 x 64 bits; 05 R126, 06 R162; reset 0 — g1 to g31 (g0 reads as 0) -/
  g : Tab Dword := []
  /-- 64 bits; 05 R126, 06 R162; reset 0 -/
  pc : Dword := 0
  /-- 256 bits; 05 Table 5.2, R134; reset 0 — private bits b0 to b255 -/
  priv : BitVec 256 := 0
  /-- 5 bits; 05 Table 5.14, R156; reset 0 — FSTAT -/
  fstat : Nat := 0
  /-- 52 bits; 05 R156; reset 0 — HKEY_ADDR -/
  hkeyAddr : Dword := 0
  /-- 7 bits; 05 R156; reset 0 — HKEY_LEN -/
  hkeyLen : Dword := 0
  /-- 64 bits; 06 Table 6.9; reset 0 — TVEC -/
  tvec : Dword := 0
  /-- 1 bit each; 06 Table 6.9; reset 0 — TSTAT.ie, prev_ie, in_trap, halt_double -/
  ie : Bool := false
  prevIe : Bool := false
  inTrap : Bool := false
  haltDouble : Bool := false
  /-- 64 bits; 06 Table 6.9; reset 0 — EPC -/
  epc : Dword := 0
  /-- 5 bits; 06 Table 6.9; reset 0 — CAUSE -/
  cause : Nat := 0
  /-- 64 bits each; 06 Table 6.9; reset 0 — TVAL0 to TVAL3 -/
  tval0 : Dword := 0
  tval1 : Dword := 0
  tval2 : Dword := 0
  tval3 : Dword := 0
  /-- 4 bits; 06 Table 6.9; reset 0 — IMASK -/
  imask : BitVec 4 := 0
  /-- 1 bit; 06 R177; reset 0 — INT_STRIKE latched -/
  intStrike : Bool := false
  /-- 52 + 8 bits; 06 R177; reset none — INT_STORE_ERR latched: address and status of the failed store -/
  intStore : Option (Nat × Nat) := none
  /-- 64 bits; 06 Table 6.9; reset 0 — TDEADLINE -/
  tdeadline : Dword := 0
  /-- 25 bits; 06 Table 6.9; reset 0 — IBIT: bits 23:0 and 63 -/
  ibit : Dword := 0
  /-- 64 bits; 06 Table 6.9; reset 0 — TSTART_PC -/
  tstartPc : Dword := 0
  /-- 64 bits; 06 Table 6.9; reset 0 — TARG -/
  targ : Dword := 0
  /-- record; 06 R159; reset none — what holds a blocked thread -/
  block : Option Block := none
  /-- record; 05 R148; reset none — the WAIT of a waiting thread -/
  wait : Option Wait := none
  /-- at most 8; 06 R159; reset none — non-blocking loads outstanding -/
  loads : List NbLoad := []
  /-- records; 06 R178; reset none — returned loads with an uncorrectable error: register, address, pc -/
  badLoads : List (Nat × Nat × Dword) := []
  /-- addresses; 06 R176; reset none — posted stores not yet performed -/
  posted : List Nat := []
  /-- 64 bits; 13 R406; reset 0 — bytes 8 to 15 of the last SHASH -/
  shashHi : Dword := 0
deriving DecidableEq, Repr

/-- A cached pane entry of a rafter (06 R169): the pane's base, its log2 size and the leaf. -/
structure PaneEnt where
  rafter : Nat
  base : Nat
  log2 : Nat
  leaf : Dword
deriving DecidableEq, Repr

/-- The rafters (05_olxavon_isa.md, 06_rafters.md). -/
structure Rafters where
  /-- 8,192 records; 06 R158; reset every thread in the thread-reset state, parked -/
  threads : Tab Thread := []
  /-- 64 x 65,536 bits; 05 Table 5.2; reset 0 (DESIGN CHOICE, log 2, until a commit clears them) — key 65536·rafter + n -/
  shared : Tab Bool := []
  /-- 64 x 1,024 bits; 05 Table 5.3; reset 0 (DESIGN CHOICE, log 2) — event flags, key 1024·bay + i -/
  flags : Tab Bool := []
  /-- 4,096 bits; 05 Table 5.3; reset 0 — doorbell pending -/
  doorbell : Tab Bool := []
  /-- per rafter, up to 2,048; 06 R169; reset empty — cached pane entries -/
  panes : List PaneEnt := []
  /-- per rafter, 64 bits; 05 Table 5.14; reset 0 — fabric time at which the rafter last left Off, the base of CYCLE -/
  cycleBase : Tab Nat := []
deriving DecidableEq, Repr

/-- A host function's configuration space and stop (07_host_face.md). Key 256·endpoint + function. -/
structure Fn where
  /-- dwords by offset; 07 Tables 7.1 to 7.3, R189; reset 0 — the writable configuration fields, as last written -/
  cfg : Tab Word := []
  /-- 2 bits; 07 R205; reset 0 D0 — D-state -/
  dstate : Nat := 0
  /-- 1 bit; 07 R206; reset 0 — PME_Status -/
  pmeStatus : Bool := false
  /-- 3 bits; 07 R201; reset 0 — cause of the stop in progress, 0 none -/
  stopCause : Nat := 0
  /-- Bool; 07 R202; reset false — an FLR is under way -/
  inFlr : Bool := false
  /-- 2,048 or 32 bits; 07 R198; reset all masked — unmasked MSI-X vectors -/
  unmasked : List Nat := []
  /-- 2,048 or 32 bits; 07 R198; reset 0 — PBA -/
  pba : List Nat := []
deriving DecidableEq, Repr

/-- An endpoint (07 R186 to R207). IDENT_EP_LINK and IDENT_EP_DSTATE show its link and PF. -/
structure Ep where
  /-- Bool; 07 R187; reset false — SRIS mode, sampled when PERST_N deasserts -/
  sris : Bool := false
  /-- state; 07 R207; reset 0 — 0 L0, 1 L1, 2 L1.1, 3 L1.2 -/
  l1 : Nat := 0
  /-- up to 8,192; 07 R199; reset empty — ATS translations held: function and 4 KiB page -/
  ats : List (Nat × Nat) := []
  /-- count; 07 R199; reset 0 — Invalidate Requests whose completion is owed -/
  atsOwed : Nat := 0
deriving DecidableEq, Repr

/-- A root port (07 R213, R214; 14 R412). -/
structure RootPort where
  /-- Bool; 07 R213; reset false — link up -/
  up : Bool := false
  /-- Bool; 07 R213; reset false — disabled for an unsupported device -/
  disabled : Bool := false
deriving DecidableEq, Repr

/-- The host face. -/
structure HostFace where
  /-- 512 records; 07; reset each at its reset values -/
  fns : Tab Fn := []
  /-- 2 records; 07; reset as above -/
  eps : Tab Ep := []
  /-- 8 records; 07 R213; reset down -/
  rootPorts : Tab RootPort := []
  /-- messages; 07 R209; reset empty — mailbox messages the Ridge has not handled: path, bytes, and for the bare port the
  source MAC; oldest first -/
  ridgeQ : List (Nat × List Byte × Nat) := []
  /-- bytes; 07 Table 7.10 LOG_READ; reset empty — console log the Ridge holds -/
  log : List Byte := []
deriving DecidableEq, Repr

/-- A queue pair's state beside its registers (08 R215 to R224). -/
structure Qp where
  /-- (index count, time); 08 R222; reset none — arrival times of the unfetched descriptors, oldest first -/
  arrivals : List (Nat × Nat) := []
  /-- count and time; 08 R219; reset 0 — completions unannounced, and when the oldest was written -/
  unann : Nat := 0
  unannAt : Nat := 0
  /-- Bool; 08 R224; reset false — RING_CQ_STALL raised for the present stall -/
  stalled : Bool := false
  /-- 64 bits each; 08 R241; reset none — op_ids of the operations that have completed since the queue pair was enabled -/
  ended : List Dword := []
deriving DecidableEq, Repr

/-- An event ring's state beside its registers (08 R228). -/
structure Evr where
  /-- 16 bits; 08 Table 8.9; reset 0 — seq of the next event -/
  seq : Nat := 0
  /-- 16 bits each; 08 R228; reset 0 — codes of the first and the last lost event -/
  firstLost : Nat := 0
  lastLost : Nat := 0
  /-- count and time; 08 R219; reset 0 — entries unannounced -/
  unann : Nat := 0
  unannAt : Nat := 0
deriving DecidableEq, Repr

/-- Where an operation came in (01 R21, 08 R237). -/
inductive OpSrc where
  /-- A queue pair's descriptor. -/
  | ring (qp : Nat)
  /-- A copy of a frame to Nawyn (09 R269): source vport. -/
  | packet (vport : Nat)
  /-- An NVM Express command: storage controller, submission queue, command identifier. -/
  | nvme (ctrl sq cid : Nat)
  /-- A Loft query or append that came over Nawyn: source node, tag. -/
  | loft (node tag : Nat)
deriving DecidableEq, Repr

/-- Where an operation stands. -/
inductive OpSt where
  /-- Waiting for admission. -/
  | waiting
  /-- Admitted, short of its commit point. -/
  | admitted
  /-- At or past its commit point (08 Table 8.13). -/
  | committed
deriving DecidableEq, Repr

/-- An operation (08 R223 to R242). -/
structure Op where
  src : OpSrc
  /-- 64 bits; 08 Table 8.4 — op_id -/
  opId : Dword := 0
  /-- 16 bits; 08 Table 8.4 — engine and operation -/
  opcode : Nat
  fence : Bool := false
  notifyNow : Bool := false
  /-- 48 bytes; 08 Table 8.4 — body; for an operation without a descriptor, its request -/
  body : List Byte := []
  /-- fabric time; 08 R222, R237 — arrival -/
  arrival : Nat
  /-- bay; 01 R24 — owning bay -/
  bay : Nat
  st : OpSt := .waiting
  /-- 6 bits; 08 Table 8.11 — pool, 0x3F none -/
  pool : Nat := 0x3F
  cost : Nat := 0
  /-- index; 08 Table 8.10 — partner record -/
  partner : Nat := 0
  /-- 2 bits; 08 R239 — class it was judged under, 3 not judged -/
  judged : Nat := 3
  /-- ns; 08 R237 — queued_ns once decided -/
  queued : Nat := 0
  /-- bytes of a host range the operation reads, where it names one (the partner's memory) -/
  data : List Byte := []
  /-- engine word: the engine's progress in the operation (a message number, a packet number, a ticket) -/
  aux : Nat := 0
deriving DecidableEq, Repr

/-- A bucket of a cached partner record (08 Table 8.10); tokens in millionths, as of the record's time. -/
structure Bucket where
  pool : Nat
  rate : Nat
  burst : Nat
  tokens : Int
deriving DecidableEq, Repr

/-- A cached partner record (08 R229, R230). -/
structure Partner where
  cls : Nat
  valid : Bool
  weight : Nat
  tag : Nat
  buckets : List Bucket
  /-- fabric time at which the tokens were reckoned -/
  asOf : Nat
deriving DecidableEq, Repr

/-- A pool beside its registers (08 R231 to R236). -/
structure Pool where
  /-- 08 R233; reset 0 — the millisecond of the last G admission, and G units admitted in it -/
  gMs : Nat := 0
  gUsed : Nat := 0
  /-- 08 R233; reset none — the millisecond in which G_OVERCOMMIT was last raised -/
  overMs : Option Nat := none
  /-- 08 R236; reset 0 — fabric time at which the last cap lifted, from which the capacity clocks restart -/
  capLifted : Nat := 0
deriving DecidableEq, Repr

/-- Rings, partners and pools (08_rings_admission.md). -/
structure Rings where
  /-- 4,096 records; 08 R215; reset empty -/
  qps : Tab Qp := []
  /-- 256 records; 08 R215; reset empty -/
  evrs : Tab Evr := []
  /-- records by operation number; 08 R223; reset none — operations not yet ended -/
  ops : Tab Op := []
  /-- counter; the model's own; reset 1 DESIGN CHOICE (log 6) — the next operation number, in fetch order -/
  nextOp : Nat := 1
  /-- 4,096 of 1,048,576; 08 R229; reset empty — cached partner records -/
  partners : Tab Partner := []
  /-- 7 records; 08 R231; reset as above -/
  pools : Tab Pool := []
deriving DecidableEq, Repr

/-- A rule-table entry (09 R262, R265). -/
structure Rule where
  table : Nat
  key : List Byte
  mask : List Byte
  /-- priority (ternary) or prefix_len (longest prefix) -/
  arg : Nat
  act : Dword
deriving DecidableEq, Repr

/-- One version of the rule tables (09 R266): entries in the order added, and miss actions by table. -/
structure RuleSet where
  rules : List Rule := []
  /-- reset 4, kind 4 (09 R262) -/
  miss : Tab Dword := []
deriving DecidableEq, Repr

/-- What a Reed program came to (09 R257 to R260). -/
inductive ReedEnd where
  /-- SWTRAP n with g1, g4, g5, g6. -/
  | ret (n g1 g4 g5 g6 : Nat)
  /-- A malformed class of Table 9.3: TRUNCATED, REED_TIMEOUT or REED_TRAP. -/
  | bad (cls : Nat)
deriving DecidableEq, Repr

/-- A copy of a frame on its way to an internal vport (09 R245 to R260). -/
structure Copy where
  /-- bytes without FCS; 09 R244 -/
  frame : List Byte
  /-- 10 bits; 09 Table 9.1 — ingress switch port -/
  port : Nat
  /-- 10 bits; 09 R245 — destination vport -/
  vport : Nat
  /-- stage: 0 waiting for its pipeline, 1 waiting for Reed, 2 in a Reed processor -/
  stage : Nat := 0
  /-- 16 bits; 09 R249 — rule version, 0 before parse start -/
  version : Nat := 0
  /-- 12 bits; 09 R252 — node -/
  node : Nat := 0
  off : Nat := 0
  depth : Nat := 0
  spanEnd : Nat := 0
  /-- 128 bytes; 09 R252 — metadata, sparse -/
  md : Tab Byte := []
  /-- up to 24; 09 R252 — header stack, first pushed first: hdr_type, offset -/
  stack : List (Nat × Nat) := []
  /-- fabric time; 09 R260 — dispatch to a Reed processor -/
  since : Nat := 0
deriving DecidableEq, Repr

/-- A forwarding entry (09 R273 to R277). -/
structure FdbEnt where
  port : Nat
  static : Bool
  flapping : Bool
  /-- the moves of the last 1 ms, newest first: timestamp and the sub-port left -/
  moves : List (Nat × Nat)
  /-- fabric time of the last hit -/
  hitAt : Nat
deriving DecidableEq, Repr

/-- Truss, Reed and the eave switch (09_truss_reed.md). -/
structure Truss where
  /-- bytes; 09 R250; reset empty — the committed TRUSS_GRAPH section -/
  graph : List Byte := []
  /-- bytes; 09 R256; reset empty — the committed REED_PROGRAMS section -/
  reedProgs : List Byte := []
  /-- rule sets; 09 R266; reset empty — the current, previous and staging versions -/
  cur : RuleSet := {}
  prev : RuleSet := {}
  staging : RuleSet := {}
  /-- Bool; 09 R267; reset false — a commit waits -/
  commitWaits : Bool := false
  /-- records; 09 R248; reset none — copies on chip, by number -/
  copies : Tab Copy := []
  /-- counter; the model's own; reset 1 DESIGN CHOICE (log 6) — number of the next copy -/
  nextCopy : Nat := 1
  /-- records by VLAN·2^48 + MAC; 09 R273; reset empty — forwarding table -/
  fdb : Tab FdbEnt := []
  /-- (timestamp, port, key); 09 R273; reset empty — learns waiting in the learn pipeline -/
  learnQ : List (Nat × Nat × Nat) := []
  /-- fabric time; 09 R274; reset none — the last SW_TABLE_FULL -/
  fullAt : Option Nat := none
  /-- per ring, fabric time; 09 R271; reset none — the last RX_NOBUF -/
  nobufAt : Tab Nat := []
  /-- 64 bits; 09 R270; reset all down — external sub-ports up -/
  portsUp : List Nat := []
deriving DecidableEq, Repr

/-- A Dormer window (10 R281 to R285). -/
structure Win where
  /-- Bool; 10 R281; reset false — open -/
  isOpen : Bool := false
  /-- 16 bits; 10 R285; reset DESIGN CHOICE 1 (log 2), the lowest a generation may be — current generation -/
  gen : Nat := 1
  /-- 20 bits; 10 R281; reset 0 — connection, 0xF_FFFF any of the bay's -/
  conn : Nat := 0
  /-- 8 bits; 10 R281; reset 0 — bay -/
  bay : Nat := 0
  /-- 3 bits; 10 Table 10.11; reset 0 — read, write, atomic -/
  rights : Nat := 0
  /-- 64 bits each; 10 R281; reset 0 — fabric range -/
  base : Nat := 0
  size : Nat := 0
  /-- fabric time; 10 R284; reset none — when its lifetime passes -/
  deadline : Option Nat := none
  /-- 12 bits; 10 R321; reset 0 — ring that opened it -/
  opener : Nat := 0
  /-- counter; 10 R281; reset 0 — rank in the order of becoming free, lower has been free longer -/
  freeRank : Nat := 0
  /-- fabric time; 10 R285; reset none — end of the hold after a wrap -/
  holdEnd : Option Nat := none
deriving DecidableEq, Repr

/-- Whose message a connection sends. -/
inductive Who where
  /-- A ring operation. -/
  | op (n : Nat)
  /-- A thread's load or store (10 R279): TID and fabric address. -/
  | thread (tid addr : Nat)
  /-- Back-end work of an NVM Express command (14 R411), by its operation number. -/
  | backend (op : Nat)
  /-- A drain's shingle (13 R400), its manifest body or header. -/
  | shingle (i : Nat)
  | manifest (header : Bool)
  /-- A restore's read (13 R404). -/
  | restore (op : Nat)
deriving DecidableEq, Repr

/-- A message of a connection's sender (10 R294, R306, R307). -/
structure Msg where
  /-- whose it is -/
  who : Who
  /-- opcode of Table 10.5: 0 SEND, 1 WRITE, 2 READ_REQ, 4 FETCH_ADD, 5 CMP_SWAP, 7 WINDOW_NOTIFY -/
  kind : Nat
  /-- PSNs it takes (10 R294) -/
  n : Nat
  /-- 24 bits — its first PSN, once it has sent -/
  psn0 : Nat := 0
  /-- packets sent at least once -/
  sent : Nat := 0
  /-- responses received in order, for a READ_REQ or an atomic -/
  got : Nat := 0
  rkind : Nat := 0
  rref : Nat := 0
  roffset : Nat := 0
  len : Nat := 0
  laddr : Nat := 0
  opnd1 : Dword := 0
  opnd2 : Dword := 0
  /-- the data of a thread's store -/
  data : List Byte := []
  /-- ended: its unsent packets are never sent (10 R306) -/
  dead : Bool := false
deriving DecidableEq, Repr

/-- An eave transport connection's context (10 R295 to R317, Table 10.8). -/
structure Conn where
  /-- 2 bits; 10 Table 10.9; reset 0 FREE -/
  st : Nat := 0
  /-- 8 bits; 10 R295; reset 0 — bay -/
  bay : Nat := 0
  /-- 12 bits; 10 R295; reset 0 — home ring -/
  home : Nat := 0
  /-- 10 Table 10.8; reset 0 — parameters -/
  localIp : Nat := 0
  peerIp : Nat := 0
  peerMac : Nat := 0
  vlanTci : Nat := 0
  peerConn : Nat := 0
  partner : Nat := 0
  key : Nat := 0
  port : Nat := 0
  ipv6 : Bool := false
  vlan : Bool := false
  sec : Bool := false
  /-- payload bytes: 1,024, 2,048, 4,096 or 8,192 -/
  mtu : Nat := 1024
  prio : Nat := 0
  dscp : Nat := 0
  retryLimit : Nat := 0
  rnrLimit : Nat := 0
  /-- 24 bits each; 10 R306, R301; reset 0 — oldest unacknowledged PSN, next to send, next expected -/
  una : Nat := 0
  nxt : Nat := 0
  e : Nat := 0
  /-- records, oldest first; 10 R306; reset none — messages not yet ended -/
  msgs : List Msg := []
  /-- counts; 10 R307, R308; reset 0 — retries, RNR waits -/
  retry : Nat := 0
  rnr : Nat := 0
  /-- fabric time; 10 R307; reset 0 — start of the retry timer -/
  retryFrom : Nat := 0
  /-- fabric time and PSN; 10 R308; reset none — RNR wait in progress -/
  rnrWait : Option (Nat × Nat) := none
  /-- Bool; 10 R303; reset false — a SEQ_NAK has been sent since e last advanced -/
  seqNak : Bool := false
  /-- Bool; 10 R304; reset false — skipping the rest of a refused message -/
  skip : Bool := false
  /-- Bool; 10 R294; reset false — a SEND or WRITE message has begun and not ended -/
  inMsg : Bool := false
  /-- operation and bytes; 10 R319; reset none — the RECV_POST of the SEND in progress, and how much has come -/
  recv : Option (Nat × Nat) := none
  /-- count and fabric time; 10 R305; reset 0 and none — packets performed or skipped since the last ACK, and when the first packet
  not yet acknowledged came -/
  coal : Nat := 0
  coalFrom : Option Nat := none
  /-- Bool; 10 R309; reset false — a packet since the last ACK arrived with CE -/
  ce : Bool := false
  /-- fabric time; 10 R309; reset none — the last ACK sent -/
  lastAck : Option Nat := none
  /-- up to 16; 10 R302; reset none — results of the last atomics: PSN and old value, newest first -/
  replay : List (Nat × Dword) := []
  /-- 64 bits each; 10 R316, R317; reset 1 and 0 — next nonce_ctr to send, highest verified -/
  txNonce : Nat := 1
  rxNonce : Nat := 0
  /-- exact rationals; 10 R315; set at CONN_OPEN — rc and rt in bits per second, alpha -/
  rc : Rat := 0
  rt : Rat := 0
  alpha : Rat := 1
  /-- 10 R315; reset none and 0 — time of the last decrease, periods without one, time of the last period -/
  lastDec : Option Nat := none
  periods : Nat := 0
  /-- fabric times; 10 Table 10.14, R317; reset none — last WINDOW_STALE_HIT, KEY_VIOLATION, AUTH_FAIL -/
  staleAt : Option Nat := none
  keyAt : Option Nat := none
  authAt : Option Nat := none
  /-- 3 bits; 10 Table 10.12; reset 0 — reason for ERROR -/
  reason : Nat := 0
  /-- 64 bits; 10 Table 10.15, 15; reset 0 — its retransmits -/
  retx : Nat := 0
  /-- operation number; 10 R298; reset none — the CONN_CLOSE in progress -/
  closeOp : Option Nat := none
deriving DecidableEq, Repr

/-- A packet of the eave transport past its base header (10 Tables 10.5, 10.6). -/
inductive PktBody where
  | send (payload : List Byte)
  | write (rh : RemHdr) (payload : List Byte)
  | readReq (rh : RemHdr) (len : Nat)
  | readResp (payload : List Byte)
  | fetchAdd (rh : RemHdr) (opnd1 : Dword)
  | cmpSwap (rh : RemHdr) (opnd1 opnd2 : Dword)
  | atomicResp (old : Dword)
  | notify (window gen : Half) (rights : Byte) (size1 : Dword) (cookie : Word)
  | ack
  | nak (syndrome : Nat) (value : Nat)
deriving DecidableEq, Repr

/-- PFC on a sub-port and priority (10 R311, R312). -/
structure Pfc where
  /-- fabric times; 10 R311; reset none — since when and until when a received pause holds -/
  paused : Option (Nat × Nat) := none
  /-- fabric time; 10 R311; reset none — since when the device's own XOFF is asserted -/
  xoff : Option Nat := none
  /-- fabric time; 10 R312; reset none — storm of direction 0: received pause is ignored until then -/
  ignore : Option Nat := none
  /-- Bool; 10 R312; reset false — storm of direction 1: arriving frames are dropped -/
  dropping : Bool := false
deriving DecidableEq, Repr

/-- Dormers, regions and the eave transport (10_dormers_transport.md). -/
structure Xpt where
  /-- 65,536 records; 10 R281; reset closed -/
  wins : Tab Win := []
  /-- counter; 10 R281; reset 1 — next free rank -/
  nextRank : Nat := 1
  /-- by region index; 10 R321; reset none — ring that registered it -/
  rgnOpener : Tab Nat := []
  /-- up to 16,384; 10 R286; reset empty — cached region entries, most recently used first -/
  rgnCache : List Nat := []
  /-- 1,048,576 records; 10 R296; reset FREE -/
  conns : Tab Conn := []
  /-- up to 65,536; 10 R299; reset empty — cached contexts, most recently used first -/
  ctxCache : List Nat := []
  /-- packets by connection, oldest first; 10 R299; reset none — waiting for a context fill -/
  fillWait : List (PktHdr × PktBody) := []
  /-- 512 records, 8·sub-port + priority; 10 R311; reset as above -/
  pfc : Tab Pfc := []
  /-- frames and packets waiting to leave: sub-port, priority, what, oldest first; 10 R311, R312; reset none -/
  egress : List (Nat × Nat × Out) := []
  /-- whose, status (0 OK), data; 13 R400, 14 R411; reset none — ended messages of the Underlay and the storage service
  whose end they have not yet taken -/
  done : List (Who × Nat × List Byte) := []
deriving DecidableEq, Repr

/-- Where a Nawyn message to send came from (11 R335 to R340). -/
inductive NSrc where
  /-- A ring operation, by its number. -/
  | op (n : Nat)
  /-- A thread's load or store: TID and fabric address. -/
  | thread (tid addr : Nat)
  /-- A read of the Underlay's copy: group, address in the slot (13 R394). -/
  | copy (group : Nat)
  /-- A restore's WRITE (13 R404), by its operation number. -/
  | restore (op : Nat)
  /-- A LOFT_RESULT of a query that has ended otherwise than OK (12 R382): source node, tag. -/
  | loftResult (node tag : Nat)
  /-- A response, a forwarded message or the device's own. -/
  | own
deriving DecidableEq, Repr

/-- A Nawyn message on its way out (11 R331 to R350). -/
structure NMsg where
  src : NSrc
  /-- 4 bits; 11 R334 — link -/
  link : Nat
  /-- 3 bits; 11 Table 11.3 — class -/
  tc : Nat
  /-- 24 bytes; 11 Table 11.4 — header; crs is filled in at the start -/
  hdr : List Byte
  /-- payload bytes, where the device has them -/
  data : List Byte
  /-- fabric range the payload is read from at the start, where it has not been read yet -/
  from_ : Option (Nat × Nat) := none
  /-- flits; 11 — ⌈(24 + length) / 236⌉ -/
  flits : Nat
  /-- Bool; 11 R348 — counted in NAWYN_DEFER_CNT -/
  deferred : Bool := false
  /-- Bool; 11 R334 — goes by a route (not link-local) -/
  routed : Bool := true
deriving DecidableEq, Repr

/-- A DATA flit in a replay buffer (11 R329). -/
structure Flit where
  /-- 10 bits; 11 Table 11.3 — seq -/
  seq : Nat
  /-- 6 bits; 11 Table 11.3 — tc, som, eom -/
  tc : Nat
  som : Bool
  eom : Bool
  /-- 236 bytes — payload -/
  payload : List Byte
deriving DecidableEq, Repr

/-- A course schedule (11 R345). -/
structure Course where
  /-- 32 bits; 11 R345 — ID -/
  id : Nat
  /-- 64 bits; 11 R345 — arm time -/
  armAt : Nat
  /-- 20 bits; 11 R345 — cycle_ns -/
  cycle : Nat
  /-- up to 64: start, end, class; 11 R345 — windows; none removes the schedule -/
  wins : List (Nat × Nat × Nat)
deriving DecidableEq, Repr

/-- A Nawyn link. NAWYN_LINK_STAT holds its state, width, half_rate, peer node, course_active, mismatch and id_clash. -/
structure Link where
  /-- 12 bits each, by class; 11 R330; reset 0 — credits the sender holds -/
  credits : Tab Nat := []
  /-- 8 bits each, by class; 11 R330; reset 0 — last cr_count received, and credits the receiver has returned so far -/
  crSeen : Tab Nat := []
  crRet : Tab Nat := []
  /-- 8 bits each, by class; 11 R330; reset 0 — credit count as last sent -/
  crSent : Tab Nat := []
  /-- 3 bits; 11 R330; reset 0 — class whose cr_count the last flit carried -/
  crTc : Nat := 0
  /-- Bool; 11 Table 11.3; reset false — a DATA flit has been received: ack is meaningful -/
  rxAny : Bool := false
  /-- 10 bits; 11 R329; reset 0 — seq of the next DATA flit -/
  txSeq : Nat := 0
  /-- up to 511, oldest first; 11 R329; reset empty — replay buffer -/
  replay : List Flit := []
  /-- count; 11 R326; reset 0 — replays in a row without the ack advancing -/
  replays : Nat := 0
  /-- fabric time; 11 R329; reset 0 — start of the replay timer -/
  replayFrom : Nat := 0
  /-- 10 bits; 11 R329; reset 0 — seq the receiver expects -/
  rxSeq : Nat := 0
  /-- Bool; 11 R329; reset false — a NAK has been sent for the expected seq -/
  nakSent : Bool := false
  /-- messages and what is left of their bytes; 11 R331; reset none — being sent, or sent and not acknowledged, oldest first -/
  started : List (NMsg × List Byte) := []
  /-- ps; 11 R348; reset 0 — when the last message's flits end -/
  busyPs : Nat := 0
  /-- weights left by class; 11 R350; reset 0 — weighted round robin -/
  wrr : Tab Nat := []
  /-- fabric times; 11 R326; reset none — failed retrainings of the last 100 ms -/
  fails : List Nat := []
  /-- records; 11 R345; reset none — staged and pending, and active schedules -/
  pending : Option Course := none
  active : Option Course := none
  /-- count; 11 R346; reset 0 — consecutive TIME flits that differ -/
  differs : Nat := 0
  /-- 64 bits each; 11 R342; reset 0 — t_tx and arrival of the last TIME flit received -/
  lastTx : Nat := 0
  lastRx : Nat := 0
  /-- by window: instance; 11 R352; reset none — 1 + the last instance measured, and 1 + the last one ended -/
  measured : Tab Nat := []
  ended : Tab Nat := []
  /-- fabric time; 11 R352; reset none — the last COURSE_LATE -/
  lateAt : Option Nat := none
deriving DecidableEq, Repr

/-- A READ_REQ the device has sent (11 R337). -/
structure NRead where
  src : NSrc
  node : Nat
  laddr : Nat := 0
  len : Nat
  /-- fabric time; 11 R337 — when it times out -/
  deadline : Nat
deriving DecidableEq, Repr

/-- Nawyn links, courses and fabric time (11_nawyn_courses.md). Fabric time itself is State.ftime. -/
structure Nawyn where
  /-- 16 records; 11 R324; reset down -/
  links : Tab Link := []
  /-- messages in enqueue order; 11 R348; reset none — waiting to start -/
  waiting : List NMsg := []
  /-- messages; 11 R334; reset none — addressed to the device itself, sent and not yet delivered -/
  locals : List NMsg := []
  /-- records by tag; 11 R337; reset none — reads outstanding -/
  reads : Tab NRead := []
  /-- 32 bits; the model's own; reset 1 DESIGN CHOICE (log 6) — tag of the next READ_REQ -/
  nextTag : Nat := 1
  /-- up to 256: info and time, oldest first; 11 R344; reset empty — PTP timestamps -/
  ptp : List (Nat × Nat) := []
  /-- 10⁻⁹ ns, signed; 11 R343; reset 0 — correction still to be slewed -/
  corr : Int := 0
  /-- 10⁻⁹ ns; 11 R341, R343; reset 0 — fraction of a ns of fabric time not yet counted -/
  frac : Nat := 0
  /-- count; 11 R342; reset 0 — consecutive offsets below 8 ns -/
  good : Nat := 0
  /-- per queue pair, fabric time; 11 R339; reset none — the last NAWYN_RX_DROP -/
  dropAt : Tab Nat := []
deriving DecidableEq, Repr

/-- A Loft request not yet ended, beside its Op (12 R363 to R383). -/
structure LReq where
  /-- 0 append, 1 query, 2 bias load -/
  kind : Nat
  /-- bytes; 12 R363, R369 — the message or block: header, entries, data -/
  payload : List Byte
  /-- link it came by and whether link-local; 11 R333; none for a ring operation -/
  link : Nat := 0
  linkLocal : Bool := false
  /-- 3 bits; 11 Table 11.3 — class it came in -/
  tc : Nat := 0
  /-- fabric address; 12 Table 12.10 — result block of an LQUERY -/
  raddr : Nat := 0
  /-- 64 bits; 12 R367 — ticket, once dispatched -/
  ticket : Option Nat := none
  /-- per sequence: start and end; 12 R371 — read at dispatch -/
  bounds : List (Nat × Nat) := []
  /-- addresses popped at admission; 12 R365 — slates, then batten pages -/
  slates : List Nat := []
  pages : List Nat := []
  /-- operations; 12 R375 — bias load: the earlier queries that use the set -/
  waitsFor : List Nat := []
  /-- Bool; 12 R377, R382 — the result has been sent and awaits its link ack -/
  sent : Bool := false
deriving DecidableEq, Repr

/-- The Loft (12_loft.md). LOFT_STAT, LOFT_TICKET, LOFT_RETIRED, LOFT_BIAS_LOADED and the pool registers hold the rest. -/
structure Loft where
  /-- 64 bits; 12 R354; reset 0 — ctx_base of the committed LOFT_CONFIG -/
  ctxBase : Nat := 0
  /-- 32 bits; 12 R354; reset 0 — ctx_count -/
  ctxCount : Nat := 0
  /-- records by operation number; 12 R363, R369; reset none -/
  reqs : Tab LReq := []
  /-- 64 x up to 16,960 bytes; 12 R375; reset empty — bias sets in scratch -/
  bias : Tab (List Byte) := []
  /-- per pool, fabric time; 12 R362; reset none — the last LOFT_POOL_LOW -/
  lowAt : Tab Nat := []
  /-- (source, tag), newest first; 12 R383; reset none — Nawyn requests that have ended -/
  ended : List (Nat × Nat) := []
deriving DecidableEq, Repr

/-- A plan range (13 Table 13.1). -/
structure PlanRange where
  logical : Nat
  length : Nat
  offset : Nat
  node : Nat
  group : Nat
deriving DecidableEq, Repr

/-- A cut held in a slot (13 R389). -/
structure Cut where
  id : Nat
  plan : List PlanRange
deriving DecidableEq, Repr

/-- The copy in progress (13 R393 to R396). -/
structure CutCopy where
  slot : Nat
  op : Nat
  /-- fabric time; 13 R396 — end of ready_timeout_ms -/
  deadline : Nat
  /-- groups taken, and groups copied -/
  taken : List Nat := []
  copied : List Nat := []
  /-- reads outstanding: tag and group -/
  reads : List (Nat × Nat) := []
  /-- abandonment under way: reason of Table 13.9, ext_status, the group, and when read_timeout_us ends -/
  abandon : Option (Nat × Nat × Nat × Nat) := none
deriving DecidableEq, Repr

/-- A drain or restore target (13 Table 13.4). -/
structure Target where
  kind : Nat
  rootPort : Nat
  nsidConn : Nat
  key : Nat
  base : Nat
  len : Nat
deriving DecidableEq, Repr

/-- The drain in progress (13 R398 to R402). -/
structure Drain where
  slot : Nat
  op : Nat
  targets : List Target
  manifestTarget : Nat
  manifestOffset : Nat
  full : Bool
  /-- fabric time; 13 R398 — end of drain_limit_s -/
  deadline : Nat
  /-- 0 hashing, 1 all hashed and writes outstanding, 2 body written, 3 header written -/
  phase : Nat := 0
  /-- next shingle to hash; changed shingles; writes outstanding -/
  next : Nat := 0
  changed : Nat := 0
  writes : List Nat := []
deriving DecidableEq, Repr

/-- A restore in progress (13 R404). -/
structure Restore where
  /-- shingles still to read, in order: target index, location, hash bytes, logical address, node, destination offset -/
  todo : List (Nat × Nat × List Byte × Nat × Nat × Nat)
  targets : List Target
  /-- shingles written, WRITEs acknowledged by a link and not yet counted, WRITEs counted, total -/
  written : Nat := 0
  acked : Nat := 0
  counted : Nat := 0
  total : Nat
deriving DecidableEq, Repr

/-- Underlay and Shingle (13_underlay.md). UL_STAT holds the slot states, base_valid and the base area. -/
structure Underlay where
  /-- 2 records; 13 R389; reset none — cuts in slots S0 and S1 -/
  slots : Tab Cut := []
  /-- record; 13 R393; reset none — the copying cut -/
  copy : Option CutCopy := none
  /-- record; 13 R398; reset none — the drain -/
  drain : Option Drain := none
  /-- records by operation number; 13 R404; reset none — restores -/
  restores : Tab Restore := []
deriving DecidableEq, Repr

/-- An NVM Express submission queue (14 R408, R413). -/
structure Sq where
  size : Nat
  base : Nat
  cq : Nat
  /-- fetched so far, last tail, and the arrival of each unfetched command -/
  head : Nat := 0
  tail : Nat := 0
  arrivals : List (Nat × Nat) := []
deriving DecidableEq, Repr

/-- An NVM Express completion queue. -/
structure Cq where
  size : Nat
  base : Nat
  vec : Nat
  ien : Bool
  head : Nat := 0
  tail : Nat := 0
  phase : Bool := true
deriving DecidableEq, Repr

/-- A storage controller (14 R407 to R416). STOR_CTRL, STOR_CTRL_ID and STOR_CTRL_OUT are registers. -/
structure Ctrl where
  /-- 32 bits; 14 R408, NVM Express CC; reset 0 -/
  cc : Nat := 0
  /-- 32 and 64 bits; 14 R408, NVM Express AQA, ASQ, ACQ; reset 0 -/
  aqa : Nat := 0
  asq : Nat := 0
  acq : Nat := 0
  /-- 32 bits; NVM Express interrupt mask; reset 0 -/
  intm : Nat := 0
  /-- up to 65 records each; 14 Table 14.1; reset none — queues, 0 the admin queue -/
  sqs : Tab Sq := []
  cqs : Tab Cq := []
  /-- CIDs; 14 Table 14.2; reset none — Asynchronous Event Requests outstanding, oldest first -/
  aers : List Nat := []
  /-- event dwords; 14 R410; reset none — events waiting for a request -/
  events : List Nat := []
  /-- by feature; 14 Table 14.2; reset 0 — feature values -/
  feats : Tab Nat := []
  /-- up to 64: SQID, CID, status, result; 14 R414; reset none — Error Information, newest first -/
  errors : List (Nat × Nat × Nat × Dword) := []
  /-- 64 bits; NVM Express error count; reset 0 -/
  errCount : Nat := 0
deriving DecidableEq, Repr

/-- An NVM Express command fetched and not ended, or back-end work of one that was discarded (14 R410 to R415). -/
structure Backend where
  cmd : NCmd
  /-- opcode of Tables 14.2, 14.3, with 0x100 added for an admin command -/
  opc : Nat
  /-- data the host supplied: of a Write, or the ranges of a Dataset Management -/
  data : List Byte := []
  /-- STOR_NS as read at admission (14 R410): its word +0x00, nsid_conn, rkey, key, backend_base, lba_count -/
  ns : List Nat := []
  /-- ended towards the host; the back-end's result is discarded (14 R415) -/
  ended : Bool := false
deriving DecidableEq, Repr

/-- A key (14 R425). -/
structure Key where
  /-- 0 empty, 1 XTS, 2 GCM -/
  kind : Nat := 0
  gen : Nat := 0
  mask : Dword := 0
  bytes : List Byte := []
deriving DecidableEq, Repr

/-- An SPDM session (14 Table 14.7). -/
structure Session where
  id : Nat
  established : Bool
deriving DecidableEq, Repr

/-- An SPDM responder (14 R422). -/
structure Spdm where
  /-- 0 nothing, 1 version, 2 capabilities, 3 algorithms negotiated -/
  step : Nat := 0
  sessions : List Session := []
deriving DecidableEq, Repr

/-- An IDE stream (14 R424): secure, and the key sets programmed (key set, receive, sub-stream, key). -/
structure Ide where
  secure : Bool := false
  keys : List (Bool × Bool × Nat × List Byte) := []
  /-- key sets that K_SET_GO has started: key set, receive, sub-stream -/
  going : List (Bool × Bool × Nat) := []
deriving DecidableEq, Repr

/-- Storage service and security (14_storage_security.md). -/
structure Storage where
  /-- 128 records; 14 R407; reset as above -/
  ctrls : Tab Ctrl := []
  /-- by operation number; 14 R411; reset none — commands admitted or waiting, and discarded back-end work -/
  cmds : Tab Backend := []
  /-- root port·2³² + NSID: 4,096-byte LBAs, LBAs; 14 R410; reset none — namespaces of the SSDs fitted -/
  ssdNs : Tab (Bool × Nat) := []
  /-- 4,096 records; 14 R425; reset empty -/
  keys : Tab Key := []
  /-- 4 + 4 bits; 14 R419; fused DESIGN CHOICE 0 (log 4) — revoke bits of the ECDSA and the ML-DSA slots -/
  revoked : Nat := 0
  /-- 0 to 128; 14 R421; fused DESIGN CHOICE 0 (log 4) — rollback floor in the fuses -/
  fuseFloor : Nat := 0
  /-- 0 to 128 and operation; 14 R421; reset none — floor still being blown, and its FLOOR_ADVANCE -/
  blowing : Option (Nat × Nat) := none
  /-- 4 + 4 bits; 14 R419; reset 0 — slots found usable at the last successful boot -/
  usable : Nat := 0
  /-- 32 bits; 14 R427; reset 0 — svn of the committed boot image -/
  bootSvn : Nat := 0
  /-- bytes; 14 Table 14.8; reset empty — boot firmware booted -/
  bootFw : List Byte := []
  /-- 2 records; 14 R422; reset as above -/
  spdm : Tab Spdm := []
  /-- 16·endpoint + stream: stream 0 link, 1 to 8 selective; 14 R424; reset Insecure -/
  ide : Tab Ide := []
deriving DecidableEq, Repr

/-- A Gutter channel (15 R433 to R439). GUT_CH_STAT, GUT_CH_SEQ, GUT_CH_DHEAD and GUT_CH_DTAIL are registers. -/
structure Chan where
  /-- time and bytes, oldest first; 15 R434; reset empty — packets in the slice -/
  pkts : List (Nat × List Byte) := []
  /-- 15 R436; reset none — overflow pending: time of the first drop, packets lost by source -/
  ovf : Option (Nat × Tab Nat) := none
  /-- fabric time; 15 R438; reset none — since when the ring has been without room -/
  noRoom : Option Nat := none
  /-- count and time; 15 R437; reset 0 — packets unannounced -/
  unann : Nat := 0
  unannAt : Nat := 0
deriving DecidableEq, Repr

/-- The Gutter (15_gutter.md). -/
structure Gutter where
  /-- 4 records; 15 R433; reset empty -/
  chans : Tab Chan := []
  /-- 1,024 rows x 20 fields of 64 bits, 20·row + field; 15 R440, Table 15.6; reset 0 -/
  late : Tab Nat := []
  /-- 4,224 rows x 20 fields of 64 bits; 15 R441, Table 15.6; reset 0 -/
  adm : Tab Nat := []
  /-- by operation number: channel, T, deadline; 15 R447; reset none — flushes waiting -/
  flushes : Tab (Nat × Nat × Nat) := []
deriving DecidableEq, Repr

/-- The block. -/
structure State where
  /-- 64 bits; 11 R341; reset 0 — fabric time, ns -/
  ftime : Nat := 0
  /-- counter; the model's own; reset 0 DESIGN CHOICE (log 7) — free values drawn so far -/
  freeCtr : Nat := 0
  /-- counter; the model's own; reset 0 DESIGN CHOICE (log 7) — times memory has lost contents -/
  memEpoch : Nat := 0
  /-- 348 registers, 32 or 64 bits; every register table of spec/; reset each at its reset value — key: number + 512·instance -/
  regs : Tab Dword := []
  /-- bytes by fabric address; 06 Table 6.4, 02 R466; reset nothing written — SRAM, HBM, DDR, and what the device has
  written to host windows -/
  mem : List Host.Cell := []
  /-- record; 02, 16; reset as below -/
  ridge : Ridge := {}
  /-- record; 03; reset as below -/
  chain : Chain := {}
  console : Console := {}
  /-- 16 records; 03 R91; reset idle — accelerator sequencers -/
  accs : Tab Acc := []
  /-- record; 04; reset as below -/
  thatch : Thatch := {}
  /-- record; 05, 06; reset as below -/
  rafters : Rafters := {}
  /-- record; 07; reset as below -/
  host : HostFace := {}
  /-- record; 08; reset as below -/
  rings : Rings := {}
  /-- record; 09; reset as below -/
  truss : Truss := {}
  /-- record; 10; reset as below -/
  xpt : Xpt := {}
  /-- record; 11; reset as below -/
  nawyn : Nawyn := {}
  /-- record; 12; reset as below -/
  loft : Loft := {}
  /-- record; 13; reset as below -/
  ul : Underlay := {}
  /-- record; 14; reset as below -/
  stor : Storage := {}
  /-- record; 15; reset as below -/
  gut : Gutter := {}
  /-- log; the model's own; reset empty — what the block has sent, newest first -/
  out : List Out := []
  /-- queue; the model's own; reset empty — commands waiting, the next first -/
  pending : List Instr := []
deriving DecidableEq, Repr

/-- The machine right after a cold reset: every field at the default its structure gives, every register at its reset
value (an unlisted register holds Reg.resetVal), memory with nothing written, the queue empty. -/
def State.reset : State := {}

end Sys2Proof.Machine
end

