-- ==== Sys2Proof/Machine/Ops.lean ====
section
/-! DEFINITION. The named operations over the state: registers and their fields, counters, what the block sends, free
values, memory and its map. -/

namespace Sys2Proof.Machine

/-! ### Registers -/

/-- The key of a register's instance in State.regs. -/
def regKey (r : Reg) (i : Nat) : Nat := r.num + 512 * i

/-- A register as it is stored. -/
def getReg (s : State) (r : Reg) (i : Nat) : Dword := Tab.get (r.resetVal i) s.regs (regKey r i)

/-- Store a register whole. -/
def setReg (s : State) (r : Reg) (i : Nat) (v : Dword) : State :=
  { s with regs := Tab.store (r.resetVal i) s.regs (regKey r i) v }

/-- A field of a value. -/
def fieldOf (v : Nat) (hi lo : Nat) : Nat := v / 2 ^ lo % 2 ^ (hi - lo + 1)

/-- A value with one field replaced; the new value wraps to the field's width. -/
def withField (v : Nat) (hi lo n : Nat) : Nat := v - fieldOf v hi lo * 2 ^ lo + n % 2 ^ (hi - lo + 1) * 2 ^ lo

/-- A field of a register. -/
def getF (s : State) (f : Fld) (i : Nat) : Nat := fieldOf (getReg s f.reg i).toNat f.hi f.lo

/-- Set a field of a register. -/
def setF (s : State) (f : Fld) (i n : Nat) : State :=
  setReg s f.reg i (BitVec.ofNat 64 (withField (getReg s f.reg i).toNat f.hi f.lo n))

/-- A field read as a flag. -/
def flagF (s : State) (f : Fld) (i : Nat) : Bool := getF s f i != 0

/-- Add to a counter, which wraps at its width (00 R18). -/
def bumpN (s : State) (f : Fld) (i n : Nat) : State := setF s f i (getF s f i + n)

/-- Count once. -/
def bump (s : State) (f : Fld) (i : Nat) : State := bumpN s f i 1

/-- Count once in a counter that saturates at its width. -/
def bumpSat (s : State) (f : Fld) (i : Nat) : State :=
  setF s f i (Nat.min (getF s f i + 1) (2 ^ (f.hi - f.lo + 1) - 1))

/-- Return a register to its reset value. -/
def clearReg (s : State) (r : Reg) (i : Nat) : State := setReg s r i (r.resetVal i)

/-! ### Outputs and free values -/

/-- Send something out of the block. -/
def emit (s : State) (o : Out) : State := { s with out := o :: s.out }

/-- A fresh free value of 64 bits, and the state that has drawn it. -/
def drawDword (s : State) : Dword × State := (Config.freeDword s.freeCtr, { s with freeCtr := s.freeCtr + 1 })

/-- A fresh free bit. -/
def drawBit (s : State) : Bool × State := (Config.freeBit s.freeCtr, { s with freeCtr := s.freeCtr + 1 })

/-! ### Bytes -/

/-- The number a little-endian byte list spells (00 R8). -/
def leNat : List Byte → Nat
  | [] => 0
  | b :: bs => b.toNat + 256 * leNat bs

/-- A number as `n` little-endian bytes. -/
def leBytes : Nat → Nat → List Byte
  | 0, _ => []
  | n + 1, v => BitVec.ofNat 8 v :: leBytes n (v / 256)

/-- The number a big-endian byte list spells. -/
def beNat (bs : List Byte) : Nat := leNat bs.reverse

/-- A number as `n` big-endian bytes. -/
def beBytes (n v : Nat) : List Byte := (leBytes n v).reverse

/-- The little-endian field of `n` bytes at offset `off` of a byte list; bytes beyond its end read as 0. -/
def leAt (bs : List Byte) (off n : Nat) : Nat := leNat ((bs.drop off).take n)

/-- The big-endian field of `n` bytes at offset `off`. -/
def beAt (bs : List Byte) (off n : Nat) : Nat := beNat (((bs.drop off).take n) ++ List.replicate (n - (bs.length - off)) 0)

/-- Whether every byte of a range of a byte list is 0. -/
def zeroAt (bs : List Byte) (off n : Nat) : Bool := ((bs.drop off).take n).all (fun b => b == 0)

/-! ### Memory (06 Table 6.4, R171; 02 R466) -/

/-- The memory lists its written bytes in rising address order. An unlisted address holds no value: nothing has written it
since its contents were last lost. -/
abbrev Memory.wf (m : List Host.Cell) : Prop := Tab.rising m = true

/-- A byte of memory. One that nothing has written reads as a free value (02 R466). -/
def readByte (s : State) (a : Nat) : Byte := Tab.get (Config.undefByte s.memEpoch a) s.mem a

/-- Write a byte of memory. -/
def writeByte (s : State) (a : Nat) (b : Byte) : State := { s with mem := Tab.put s.mem a b }

/-- `n` bytes of memory from an address. -/
def readBytes (s : State) (a n : Nat) : List Byte := (List.range n).map (fun i => readByte s (a + i))

/-- Write bytes of memory from an address. -/
def writeBytes (s : State) (a : Nat) : List Byte → State
  | [] => s
  | b :: bs => writeBytes (writeByte s a b) (a + 1) bs

/-- A little-endian number of `n` bytes in memory. -/
def readLe (s : State) (a n : Nat) : Nat := leNat (readBytes s a n)

/-- Write a little-endian number of `n` bytes. -/
def writeLe (s : State) (a n v : Nat) : State := writeBytes s a (leBytes n v)

/-- Forget the contents of the addresses for which `lost` holds: what an unlisted byte reads as changes with it. -/
def loseMem (s : State) (lost : Nat → Bool) : State :=
  { s with mem := Tab.keep (fun a => !lost a) s.mem, memEpoch := s.memEpoch + 1 }

/-! ### The fabric address map (06 Table 6.4) -/

/-- The classes of Table 6.4. -/
inductive MemClass where
  | sram | ctrl | hbm | ddr | hostA | hostB | nawyn | remote
deriving DecidableEq, Repr

/-- The class an address lies in, if it lies in one. -/
def classOf (a : Nat) : Option MemClass :=
  if a < 0x10000000 then some .sram
  else if 0x40000000 ≤ a ∧ a < 0x44000000 then some .ctrl
  else if 0x10000000000 ≤ a ∧ a < 0x20000000000 then some .hbm
  else if 0x40000000000 ≤ a ∧ a < 0x80000000000 then some .ddr
  else if 0x1000000000000 ≤ a ∧ a < 0x2000000000000 then some .hostA
  else if 0x2000000000000 ≤ a ∧ a < 0x3000000000000 then some .hostB
  else if 0x4000000000000 ≤ a ∧ a < 0x8000000000000 then some .nawyn
  else if 0x8000000000000 ≤ a ∧ a < 0x10000000000000 then some .remote
  else none

/-- Start of the control space, of HBM and of DDR. -/
def ctrlStart : Nat := 0x40000000
def hbmStart : Nat := 0x10000000000
def ddrStart : Nat := 0x40000000000

/-- Start of a host window, by endpoint. -/
def hostStart (ep : Nat) : Nat := if ep = 0 then 0x1000000000000 else 0x2000000000000

/-- Start of the Nawyn peers and of remote space. -/
def nawynStart : Nat := 0x4000000000000
def remoteStart : Nat := 0x8000000000000

/-- A GiB. -/
def gib : Nat := 0x40000000

/-- Device memory: the classes a coherent requester reaches directly. -/
def MemClass.isMem : MemClass → Bool
  | .sram | .hbm | .ddr => true
  | _ => false

/-- A host window. -/
def MemClass.isHost : MemClass → Bool
  | .hostA | .hostB => true
  | _ => false

/-- Base of the thatch store: the top 4 GiB of populated DDR (04 R108). -/
def storeBase (s : State) : Nat := ddrStart + (s.thatch.ddrGiB - 4) * gib

/-- Whether a range lies in one half-open span. -/
def within (a n lo size : Nat) : Bool := decide (lo ≤ a ∧ a + n ≤ lo + size)

/-- Whether two ranges overlap. -/
def overlaps (a n b m : Nat) : Bool := decide (a < b + m ∧ b < a + n)

/-- Whether a range lies wholly in populated SRAM outside the Loft scratch, in populated HBM, or in populated DDR outside
the thatch store: the memory an access may reach that no rule closes (06 R165, 07 R193). -/
def openMem (s : State) (a n : Nat) : Bool :=
  within a n 0 0x8000000 || within a n hbmStart (96 * gib) || within a n ddrStart ((s.thatch.ddrGiB - 4) * gib)

/-- A bay as the committed thatch leaves it. -/
def bayOf (s : State) (b : Nat) : Bay := Tab.get {} s.thatch.bays b

/-- Change a bay. -/
def setBay (s : State) (b : Nat) (x : Bay) : State :=
  { s with thatch := { s.thatch with bays := Tab.store {} s.thatch.bays b x } }

/-- A bay's envelope. -/
def envOf (s : State) (b : Nat) : Envelope := (bayOf s b).env

/-- Whether the committed thatch defines the bay. -/
def bayExists (s : State) (b : Nat) : Bool := (envOf s b).rafterMask != 0

/-- The bay that owns a rafter (04 R99). -/
def bayOfRafter (s : State) (r : Nat) : Option Nat :=
  (List.range 64).find? (fun b => ((envOf s b).rafterMask / 2 ^ r) % 2 == 1)

/-- The bay of a slab. -/
def bayOfSlab (s : State) (n : Nat) : Option Nat :=
  (List.range 64).find? (fun b => ((envOf s b).slabMask / 2 ^ n) % 2 == 1)

/-- The bay whose range holds a queue pair, or an event ring (04 R99). -/
def bayOfQp (s : State) (q : Nat) : Option Nat :=
  (List.range 64).find? (fun b => decide ((envOf s b).ringFirst ≤ q ∧ q < (envOf s b).ringFirst + (envOf s b).ringCount))
def bayOfEvr (s : State) (e : Nat) : Option Nat :=
  (List.range 64).find? (fun b => decide ((envOf s b).evrFirst ≤ e ∧ e < (envOf s b).evrFirst + (envOf s b).evrCount))

/-- Whether every rafter whose SRAM a range touches belongs to the envelope. -/
def sramIn (e : Envelope) (a n : Nat) : Bool :=
  decide (0 < n) && decide (a + n ≤ 0x8000000) &&
  (List.range 64).all (fun r => !overlaps a n (r * 0x200000) 0x200000 || (e.rafterMask / 2 ^ r) % 2 == 1)

/-- Whether a range lies in a bay's envelope (04 R99, 06 R165): its rafters' SRAM, its HBM slice or its DDR slice. -/
def inEnvelope (s : State) (b a n : Nat) : Bool :=
  let e := envOf s b
  sramIn e a n || (within a n (hbmStart + e.hbmBase) e.hbmSize && decide (0 < n)) ||
  (within a n (ddrStart + e.ddrBase) e.ddrSize && decide (0 < n))

/-- Whether a range lies outside every bay's slices and the thatch store but in populated HBM or DDR: where the tables of
10 R286, 10 R299 and 08 R229 must lie. -/
def inPlatform (s : State) (a n : Nat) : Bool :=
  (within a n hbmStart (96 * gib) || within a n ddrStart ((s.thatch.ddrGiB - 4) * gib)) &&
  (List.range 64).all (fun b =>
    let e := envOf s b
    !overlaps a n (hbmStart + e.hbmBase) e.hbmSize && !overlaps a n (ddrStart + e.ddrBase) e.ddrSize)

/-! ### Threads, domains, modes -/

/-- Rafter, core and thread of a TID (05 Table 5.14). -/
def tidRafter (t : Nat) : Nat := t / 128
def tidCore (t : Nat) : Nat := t / 16 % 8

/-- A thread. -/
def threadOf (s : State) (t : Nat) : Thread := Tab.get {} s.rafters.threads t

/-- Change a thread. -/
def setThread (s : State) (t : Nat) (x : Thread) : State :=
  { s with rafters := { s.rafters with threads := Tab.store {} s.rafters.threads t x } }

/-- The bay of a thread. -/
def bayOfTid (s : State) (t : Nat) : Option Nat := bayOfRafter s (tidRafter t)

/-- The domain states of 02 Table 2.2: 0 Run, 1 Doze, 2 Nap, 3 Off. -/
def domState (s : State) (d : Nat) : Nat := getF s Fld.pwrDomStatCurState d

/-- Whether a domain runs, or ungates at once when it is used (02 R37). -/
def domUp (s : State) (d : Nat) : Bool := decide (domState s d ≤ 1)

/-- The mode of 02 Table 2.12: PWR_STATE.mode. -/
def mode (s : State) : Nat := getF s Fld.pwrStateMode 0

/-- Advance fabric time to a deadline that an expiry names. -/
def reach (s : State) (t : Nat) : State := { s with ftime := Nat.max s.ftime t }

/-- Whether a requester is a physical function, a thread of a given bay, and so on. -/
def Requester.isPf : Requester → Bool
  | .pf _ => true
  | _ => false

/-- The bay a requesting thread belongs to. -/
def Requester.bay (s : State) : Requester → Option Nat
  | .thread t => bayOfTid s t.toNat
  | _ => none

/-- Whether a host access finds the control space closed: outside Normal mode only IDENT, the Ridge mailbox and the power block
are open (02 R58, R59). Every offset this is asked of lies outside them. -/
def hostClosed (s : State) (req : Requester) : Bool :=
  mode s != 1 &&
  (match req with
   | .thread _ => false
   | _ => true)

/-- A write of a register outside the open blocks: outside Normal mode a host's is discarded and counted (02 R59). -/
def gated (s : State) (req : Requester) (k : State → State) : State :=
  if hostClosed s req then bump s Fld.pwrTarpDiscardCnt 0 else k s

/-- Answer a read of a register outside the open blocks: outside Normal mode a host reads all ones, and nothing else happens
(02 R59). -/
def gatedRead (s : State) (req : Requester) (v : State → Dword × State) : State :=
  if hostClosed s req then emit s (.answer req (some (BitVec.allOnes 64)))
  else emit (v s).2 (.answer req (some (v s).1))

/-- Bit `k` of a number. -/
def bitN (v k : Nat) : Bool := v / 2 ^ k % 2 == 1

end Sys2Proof.Machine
end

