-- ==== Sys2Proof/Machine/Wake.lean ====
section
/-! DEFINITION. Wake sources of the fast domains (02 R38 to R45, Table 2.3). -/

namespace Sys2Proof.Machine

/-- What the Ridge keeps of a domain. -/
def domOf (s : State) (d : Nat) : Dom := Tab.get {} s.ridge.doms d

/-- Change what the Ridge keeps of a domain. -/
def setDom (s : State) (d : Nat) (x : Dom) : State :=
  { s with ridge := { s.ridge with doms := Tab.store {} s.ridge.doms d x } }

/-- Set or clear a domain's PWR_WAKE_PEND bit (02 R43). -/
def setWakePend (s : State) (d : Nat) (v : Bool) : State :=
  setF s ⟨.pwrWakePend, d % 32, d % 32⟩ (d / 32) (if v then 1 else 0)

/-- The purlin's domain (02 Table 2.1). -/
def purlin : Nat := 74

/-- A domain reaches Run: its pending wake is recorded and cleared (02 R43). -/
def reachRun (s : State) (d : Nat) : State :=
  let x := domOf s d
  let s := if x.firstSrc = 0 then s else setF s Fld.pwrDomStatLastWakeSrc d x.firstSrc
  let s := setWakePend s d false
  let s := setF s Fld.pwrDomStatCurState d 0
  let s := setF s Fld.pwrDomStatInTransition d 0
  setDom s d { x with phase := .stable, firstSrc := 0 }

/-- Note the first source latched for a domain on its way to Run (02 R43). -/
def noteSrc (s : State) (d src : Nat) : State :=
  let x := domOf s d
  setWakePend (setDom s d { x with firstSrc := if x.firstSrc = 0 then src else x.firstSrc }) d true

/-- A domain in Nap or Off begins its wake (02 Table 2.2). -/
def beginWake (s : State) (d src : Nat) : State :=
  let s := noteSrc s d src
  setF (setDom s d { domOf s d with phase := .waking }) Fld.pwrDomStatInTransition d 1

/-- Whether a wake source is latched for a domain at all (02 R43): not before the Ridge has started it, and not in Roof
Sleep. -/
def wakeLatches (s : State) (d : Nat) : Bool := (domOf s d).started && decide (s.ridge.roof ≠ .asleep)

/-- A wake source of Table 2.3 for one domain, without its dependency on the purlin (02 R42 to R45). While Roof Sleep is
entered or left, and while the Ridge keeps the domain Off (Tarp mode), it is latched and acts later. -/
def latchOne (s : State) (d src : Nat) : State :=
  let x := domOf s d
  if !wakeLatches s d then s
  else if s.ridge.roof ≠ .awake ∨ x.enabled = false then noteSrc s d src
  else
    match x.phase with
    | .stable =>
      match domState s d with
      | 0 => s
      | 1 => setF (setF s Fld.pwrDomStatCurState d 0) Fld.pwrDomStatLastWakeSrc d src
      | _ => beginWake s d src
    | .entry _ =>
      let s := bump s Fld.pwrNapAbortCnt 0
      if domState s d ≤ 1 then reachRun (noteSrc s d src) d
      else beginWake (setDom s d { x with phase := .stable }) d src
    | .past toOff woken =>
      let s := if woken then s else bump s Fld.pwrWakeAfterPnrCnt 0
      noteSrc (setDom s d { x with phase := .past toOff true }) d src
    | .waking => noteSrc s d src

/-- A wake source for a domain. A domain that leaves Nap or Off wakes the purlin as a dependency, source 7 (02 R39). -/
def latchWake (s : State) (d src : Nat) : State :=
  let t := latchOne s d src
  if d ≠ purlin ∧ (domOf t d).phase ≠ (domOf s d).phase then latchOne t purlin 7 else t

/-- A domain that the Ridge starts, or that a rail-up brings back, begins its way to Run without a wake source. -/
def startOne (s : State) (d : Nat) : State :=
  let s := setDom s d { domOf s d with started := true, enabled := true }
  if domState s d = 3 ∧ (domOf s d).phase = .stable then
    setF (setDom s d { domOf s d with phase := .waking }) Fld.pwrDomStatInTransition d 1
  else s

/-- Ungate a domain in Doze that has work for another reason than a wake source (02 R42). -/
def ungate (s : State) (d : Nat) : State :=
  if domState s d = 1 ∧ (domOf s d).phase = .stable then setF s Fld.pwrDomStatCurState d 0 else s

/-- A host or peer access that reaches the purlin in Nap, or in transition, wakes it (02 R39, R43). -/
def touchPurlin (s : State) : State :=
  if domState s purlin = 2 ∨ (domOf s purlin).phase ≠ .stable then latchOne s purlin 7 else ungate s purlin

/-- Whether a thread waits on a device-global bit, by WAIT or by an enabled INT_BIT (02 Table 2.3, 06 R163). -/
def watches (t : Thread) (n : Nat) : Bool :=
  decide (t.st = .waiting) &&
  ((match t.wait with
    | some w => decide (w.base ≤ n ∧ n < w.base + 64) && bitN w.mask.toNat (n - w.base)
    | none => false) ||
   (t.ie && !t.inTrap && t.imask.getLsbD 1 && t.ibit.getLsbD 63 && decide (t.ibit.toNat % 2 ^ 24 = n)))

/-- The rafters with a thread waiting on a bit. -/
def watchers (s : State) (n : Nat) : List Nat :=
  (s.rafters.threads.filter (fun e => watches e.2 n)).map (fun e => tidRafter e.1)

/-- Setting a device-global bit is wake source 2 for every rafter with a thread waiting on it (02 Table 2.3). -/
def wakeWatchers (s : State) (n : Nat) : State := (watchers s n).foldl (fun s r => latchWake s r 2) s

end Sys2Proof.Machine
end

