-- ==== Sys2Proof/Machine/Operands.lean ====
section
/-! DEFINITION. Operand forms that threads and engines share: the bit address space (05 Tables 5.2, 5.3) and the pane
tables (06 R166 to R170), and whether a host window can be reached (07 R200, R204). -/

namespace Sys2Proof.Machine

/-! ### Device-global bits (05 Table 5.3) -/

/-- First bit addresses of Table 5.3. -/
def bitDoorbell (n : Nat) : Nat := 0x800000 + n
def bitUnfetched (n : Nat) : Nat := 0x801000 + n
def bitEvrFull (e : Nat) : Nat := 0x802000 + e
def bitFlag (b i : Nat) : Nat := 0x810000 + 0x400 * b + i
def bitStruck (b : Nat) : Nat := 0x820000 + b
def bitWindow (l w : Nat) : Nat := 0x840000 + 0x40 * l + w

/-- Whether a bit address lies in Table 5.3. -/
def globalBit (n : Nat) : Bool :=
  decide ((0x800000 ≤ n ∧ n < 0x802100) ∨ (0x810000 ≤ n ∧ n < 0x820000) ∨ (0x820000 ≤ n ∧ n < 0x820040) ∨
    (0x840000 ≤ n ∧ n < 0x840400))

/-- The position of a fabric time in a course's cycle (11 R347). -/
def coursePos (c : Course) (t : Nat) : Nat := if c.cycle = 0 then 0 else (t - c.armAt) % c.cycle

/-- Whether window `w` of a link's active schedule is open now (05 Table 5.3, 11 R347). -/
def windowOpen (s : State) (l w : Nat) : Bool :=
  match (Tab.get {} s.nawyn.links l).active with
  | none => false
  | some c =>
    match c.wins[w]? with
    | none => false
    | some (a, b, _) => decide (c.armAt ≤ s.ftime ∧ a ≤ coursePos c s.ftime ∧ coursePos c s.ftime < b)

/-- A device-global bit. -/
def readGlobal (s : State) (n : Nat) : Bool :=
  if n < 0x801000 then Tab.get false s.rafters.doorbell (n - 0x800000)
  else if n < 0x802000 then getF s Fld.qpSqHead (n - 0x801000) != getF s Fld.qpSqTail (n - 0x801000)
  else if n < 0x810000 then flagF s Fld.evrStatFull (n - 0x802000)
  else if n < 0x820000 then Tab.get false s.rafters.flags (n - 0x810000)
  else if n < 0x820040 then (bayOf s (n - 0x820000)).struck
  else windowOpen s ((n - 0x840000) / 64) ((n - 0x840000) % 64)

/-- Write a device-global bit that is stored: a doorbell-pending bit or an event flag. Setting one wakes its watchers. -/
def writeGlobal (s : State) (n : Nat) (v : Bool) : State :=
  let was := readGlobal s n
  let r := s.rafters
  let s := if n < 0x801000 then { s with rafters := { r with doorbell := Tab.store false r.doorbell (n - 0x800000) v } }
    else { s with rafters := { r with flags := Tab.store false r.flags (n - 0x810000) v } }
  if v && !was then wakeWatchers s n else s

/-- Set an event flag of a bay (05 Table 5.3, 06 R175). -/
def setFlag (s : State) (b i : Nat) : State := writeGlobal s (bitFlag b i) true

/-! ### Pane tables -/

/-- A pane: its base, its log2 size, the level of its leaf and the leaf. -/
structure Leaf where
  base : Nat
  log2 : Nat
  level : Nat
  val : Nat
deriving DecidableEq, Repr

/-- Access kinds of Table 6.7: read, write, fetch, atomic. -/
inductive AccKind where
  | read | write | fetch | atomic
deriving DecidableEq, Repr

/-- The code of an access kind (06 Table 6.7). -/
def AccKind.code : AccKind → Nat
  | .read => 0 | .write => 1 | .fetch => 2 | .atomic => 3

/-- Memory types a class allows (06 Table 6.4). -/
def MemClass.allows (c : MemClass) (mtype : Nat) : Bool :=
  match c with
  | .sram | .hbm | .ddr => decide (mtype ≤ 1)
  | .ctrl => mtype == 2
  | _ => decide (1 ≤ mtype ∧ mtype ≤ 2)

/-- Whether a leaf's aux follows R167. -/
def auxOk (c : Option MemClass) (aux : Nat) : Bool :=
  match c with
  | some .hostA | some .hostB => decide (aux < 2 ^ 21)
  | some .remote => decide (aux < 2 ^ 32)
  | _ => aux == 0

/-- Levels of the walk: least index bit, entries (06 Table 6.5). -/
def walkLevels : List (Nat × Nat) := [(39, 8192), (30, 512), (21, 512), (16, 32)]

/-- The walk of R168 from a table, to the leaf that maps an address; a breach gives its reason and the level reached. -/
def walkFrom (s : State) (b a : Nat) : Nat → List (Nat × Nat) → Nat → Except (Nat × Nat) Leaf
  | lvl, [], _ => .error (4, lvl)
  | lvl, (lo, n) :: rest, tbl =>
    if !inEnvelope s b tbl (8 * n) then .error (5, lvl)
    else
      let e := readLe s (tbl + 8 * (a / 2 ^ lo % n)) 8
      if e % 2 = 0 then .error (1, lvl)
      else if fieldOf e 15 7 ≠ 0 ∨ fieldOf e 63 52 ≠ 0 then .error (4, lvl)
      else if bitN e 1 then
        (if lvl = 0 then .error (4, lvl)
         else .ok ⟨a / 2 ^ lo * 2 ^ lo, lo, lvl, e⟩)
      else if rest.isEmpty then .error (4, lvl)
      else walkFrom s b a (lvl + 1) rest (fieldOf e 51 16 * 2 ^ 16)

/-- Checks 4 to 7 of R168 on a leaf. -/
def leafCheck (s : State) (b : Nat) (l : Leaf) (a : Nat) (k : AccKind) : Option Nat :=
  let c := classOf a
  let mt := fieldOf l.val 6 5
  let mem := match c with | some x => x.isMem | none => false
  if !(match c with | some x => x.allows mt | none => false) then some 4
  else if !auxOk c (fieldOf l.val 51 16) then some 4
  else if bitN l.val 4 && (mt != 0 || !mem) then some 4
  else if mem && !inEnvelope s b l.base (2 ^ l.log2) then some 3
  else if !(match k with
      | .read => bitN l.val 2 | .write => bitN l.val 3 | .fetch => bitN l.val 4
      | .atomic => bitN l.val 2 && bitN l.val 3) then some 2
  else if decide (k = .atomic) && !mem then some 7
  else none

/-- Translation in envelope mode (06 R166): the memory type, or a breach. -/
def envelopeMode (s : State) (b a : Nat) (k : AccKind) : Except (Nat × Nat) (Nat × Nat) :=
  if inEnvelope s b a 1 then .ok (0, 0)
  else if within a 1 ctrlStart 0x4000000 then
    (match k with
     | .fetch => .error (2, 0)
     | .atomic => .error (7, 0)
     | _ => .ok (2, 0))
  else .error (1, 0)

/-- Translation of an address of a bay under its pane table as memory holds it now: memory type and aux, or reason and
level reached (06 R168). -/
def translate (s : State) (b a : Nat) (k : AccKind) : Except (Nat × Nat) (Nat × Nat) :=
  if 2 ^ 52 ≤ a then .error (6, 0)
  else
    let root := (bayOf s b).paneRoot.toNat
    if root % 2 = 0 then envelopeMode s b a k
    else
      match walkFrom s b a 0 walkLevels (fieldOf root 51 16 * 2 ^ 16) with
      | .error e => .error e
      | .ok l =>
        match leafCheck s b l a k with
        | some r => .error (r, l.level)
        | none => .ok (fieldOf l.val 6 5, fieldOf l.val 51 16)

/-- How far a range may be taken from an address without another look at the tables: to the end of a 64 KiB pane. -/
def paneEnd (a : Nat) : Nat := (a / 65536 + 1) * 65536

/-- The first breach of the bay's pane table over a range: its reason. -/
def rangeCheck (s : State) (b : Nat) (k : AccKind) : Nat → Nat → Nat → Option Nat
  | 0, _, _ => none
  | fuel + 1, a, stop =>
    if stop ≤ a then none
    else
      match translate s b a k with
      | .error (r, _) => some r
      | .ok _ => rangeCheck s b k fuel (paneEnd a) stop

/-- Whether the bay's pane table grants a range for an access: none, or the reason of R168 at its first breach. -/
def paneRange (s : State) (b a n : Nat) (k : AccKind) : Option Nat :=
  rangeCheck s b k (n / 65536 + 2) a (a + n)

/-! ### Host windows -/

/-- A function of an endpoint; key 256·endpoint + function. -/
def fnOf (s : State) (ep fn : Nat) : Fn := Tab.get {} s.host.fns (256 * ep + fn)

/-- Change a function. -/
def setFn (s : State) (ep fn : Nat) (x : Fn) : State :=
  { s with host := { s.host with fns := Tab.store {} s.host.fns (256 * ep + fn) x } }

/-- An endpoint. -/
def epOf (s : State) (ep : Nat) : Ep := Tab.get {} s.host.eps ep

/-- Change an endpoint. -/
def setEp (s : State) (ep : Nat) (x : Ep) : State :=
  { s with host := { s.host with eps := Tab.store {} s.host.eps ep x } }

/-- Whether an endpoint's window can be reached: link up and PF in D0 (07 R204). -/
def hostUp (s : State) (ep : Nat) : Bool :=
  flagF s Fld.identEpLinkLinkUp ep && getF s Fld.identEpDstateDstate ep == 0 && !flagF s Fld.identEpDstatePerst ep

/-- The endpoint of a host window. -/
def epOfClass : Option MemClass → Option Nat
  | some .hostA => some 0
  | some .hostB => some 1
  | _ => none

/-- What a configuration dword that the host may write holds at reset (PRESUMED: the PCI Express Base Specification's values,
log 8): Device Control, Link Control 2, AER masks and severities, System Page Size of a PF; 0 elsewhere. -/
def cfgReset (fn off : Nat) : Word :=
  if fn ≠ 0 then 0
  else if off = 0x68 then 0x2810
  else if off = 0x90 then 6
  else if off = 0x108 then 0x00400000
  else if off = 0x10C then 0x00462030
  else if off = 0x114 then 0x0000E000
  else if off = 0x170 then 1
  else 0

/-- A configuration dword of a function. -/
def cfgWord (s : State) (ep fn off : Nat) : Word := Tab.get (cfgReset fn off) (fnOf s ep fn).cfg off

/-- Whether a configuration bit of a function is set: dword offset, bit. -/
def cfgBit (s : State) (ep fn off bit : Nat) : Bool := (cfgWord s ep fn off).getLsbD bit

/-- Dword offsets of configuration registers: the capability offsets are 07 Table 7.2's; where each register lies in its
capability is the PCI Express Base Specification's (PRESUMED, log 8). -/
def cfgCommand : Nat := 0x04
def cfgPmcsr : Nat := 0x44
def cfgMsix : Nat := 0x50
def cfgDevCtl : Nat := 0x68
def cfgLinkCtl : Nat := 0x70
def cfgDevCtl2 : Nat := 0x88
def cfgSriov : Nat := 0x158
def cfgAts : Nat := 0x194
def cfgPasid : Nat := 0x19C
def cfgL1ss : Nat := 0x2B8

/-- What an access through a host window meets before it leaves (07 R200, R204): a status of Table 6.8, or none. -/
def hostStatus (s : State) (ep aux : Nat) : Option Nat :=
  if !hostUp s ep then some 3
  else if bitN aux 20 && !cfgBit s ep 0 cfgPasid 16 then some 1
  else none

/-- What an engine access to an address meets: a status of Table 6.8, or none. -/
def reachStatus (s : State) (a aux : Nat) : Option Nat :=
  match epOfClass (classOf a) with
  | some ep => hostStatus s ep aux
  | none => none

end Sys2Proof.Machine
end

