-- ==== Sys2Proof/Machine/Notify.lean ====
section
/-! DEFINITION. How the block tells others: MSI-X messages (07 R198), power management events (07 R206), notifications
(08 R219), event entries (08 R228, 10 R321), trace packets (15 R430 to R436) and completion entries (08 R227). -/

namespace Sys2Proof.Machine

/-! ### MSI-X and PME -/

/-- Whether a function is in D0 with its link up. -/
def fnAwake (s : State) (ep fn : Nat) : Bool :=
  hostUp s ep && (fnOf s ep fn).dstate == 0

/-- Whether a vector's message can be sent now (07 R198). -/
def vecOpen (s : State) (ep fn vec : Nat) : Bool :=
  fnAwake s ep fn && cfgBit s ep fn cfgMsix 31 && !cfgBit s ep fn cfgMsix 30 && (fnOf s ep fn).unmasked.contains vec

/-- Insert a number into a rising list. -/
def insertNat (n : Nat) : List Nat → List Nat
  | [] => [n]
  | x :: xs => if n < x then n :: x :: xs else if n = x then x :: xs else x :: insertNat n xs

/-- Send a vector's message, or set its PBA bit (07 R198). -/
def msix (s : State) (ep fn vec : Nat) : State :=
  if vecOpen s ep fn vec then emit s (.msix ep fn vec)
  else setFn s ep fn { fnOf s ep fn with pba := insertNat vec (fnOf s ep fn).pba }

/-- Send the pending messages that can be sent now. -/
def msixFlush (s : State) (ep fn : Nat) : State :=
  (fnOf s ep fn).pba.foldl (fun s v =>
    if vecOpen s ep fn v then
      emit (setFn s ep fn { fnOf s ep fn with pba := (fnOf s ep fn).pba.filter (· != v) }) (.msix ep fn v)
    else s) s

/-- Drive an endpoint's WAKE_N pin. -/
def driveWakeN (s : State) (ep : Nat) (low : Bool) : State :=
  let w := s.ridge.wakeN
  { s with ridge := { s.ridge with wakeN := if ep = 0 then (low, w.2) else (w.1, low) } }

/-- A PME event of a function (07 R206); `sel` is its bit in IDENT_EP_WAKE_EN: 0 chain WAKE, 1 bare-port frame, 2 host event,
3 Tarp entry. D3cold is PERST_N held (DEDUCED, log 9). -/
def pmeEvent (s : State) (ep fn sel : Nat) : State :=
  let cold := flagF s Fld.identEpDstatePerst ep
  let f := fnOf s ep fn
  if !bitN (getReg s .identEpWakeEn ep).toNat sel then s
  else if !(cold || f.dstate == 3) || !cfgBit s ep fn cfgPmcsr 8 then s
  else
    let s := setFn s ep fn { f with pmeStatus := true }
    if cold then (if flagF s Fld.identEpWakeEnWakeN ep then driveWakeN s ep true else s)
    else emit s (.pme ep fn)

/-! ### Notifications -/

/-- Act on a notification of Table 8.3: mode 1 an MSI-X vector of the owner function, mode 2 an event flag of the owning
bay. -/
def notify (s : State) (mode target ep fn bay : Nat) : State :=
  if mode = 1 then msix s ep fn target
  else if mode = 2 then setFlag s bay target
  else s

/-! ### Event entries -/

/-- What an event says (08 Table 8.9). -/
structure Event where
  code : Nat
  bay : Nat := 0xFF
  aux8 : Nat := 0
  aux16 : Nat := 0
  arg0 : Nat := 0
  arg1 : Nat := 0
deriving DecidableEq, Repr

/-- An event entry's 32 bytes. -/
def Event.bytes (e : Event) (seq time : Nat) (phase : Nat) : List Byte :=
  leBytes 2 e.code ++ leBytes 1 e.bay ++ leBytes 1 e.aux8 ++ leBytes 2 e.aux16 ++ leBytes 2 seq ++ leBytes 8 time ++
  leBytes 8 e.arg0 ++ leBytes 7 e.arg1 ++ leBytes 1 phase

/-- The 52-bit address a pair of base registers holds. -/
def addrOf (s : State) (lo hi : Reg) (i : Nat) : Nat :=
  (getReg s lo i).toNat % 2 ^ 32 + (getReg s hi i).toNat % 2 ^ 20 * 2 ^ 32

/-- Write a device's own bytes at a fabric address: into memory, or posted into a host window that can be reached
(07 R204, R469). -/
def deviceWrite (s : State) (a : Nat) (bs : List Byte) : State :=
  match epOfClass (classOf a) with
  | some ep => if hostUp s ep then writeBytes s a bs else s
  | none => writeBytes s a bs

/-- An event ring's state. -/
def evrOf (s : State) (e : Nat) : Evr := Tab.get {} s.rings.evrs e

/-- Change an event ring's state. -/
def setEvr (s : State) (e : Nat) (x : Evr) : State :=
  { s with rings := { s.rings with evrs := Tab.store {} s.rings.evrs e x } }

/-- Depth of an event ring. -/
def evrDepth (s : State) (e : Nat) : Nat := 2 ^ getF s Fld.evrCtlLog2Depth e

/-- Entries an event ring holds. -/
def evrUsed (s : State) (e : Nat) : Nat :=
  let d := evrDepth s e
  (getF s Fld.evrTail e + d - getF s Fld.evrHead e) % d

/-- Fire an event ring's notification. -/
def evrFire (s : State) (e : Nat) : State :=
  let s := setEvr s e { evrOf s e with unann := 0 }
  notify s (getF s Fld.evrNotifyMode e) (getF s Fld.evrNotifyTarget e) (getF s Fld.evrCtlEp e) (getF s Fld.evrCtlFunc e)
    ((bayOfEvr s e).getD 0)

/-- Write one entry at an event ring's tail; the ring has room (08 R227, R228). -/
def evrWrite (s : State) (e : Nat) (ev : Event) : State :=
  let x := evrOf s e
  let t := getF s Fld.evrTail e
  let d := evrDepth s e
  let ph := getF s Fld.evrTailPhase e
  let s := deviceWrite s (addrOf s .evrBaseLo .evrBaseHi e + 32 * t) (ev.bytes x.seq s.ftime ph)
  let s := setF s Fld.evrTail e ((t + 1) % d)
  let s := if t + 1 = d then setF s Fld.evrTailPhase e (1 - ph) else s
  let at_ := if x.unann = 0 then s.ftime else x.unannAt
  let s := setEvr s e { x with seq := (x.seq + 1) % 65536, unann := x.unann + 1, unannAt := at_ }
  let s := if flagF s Fld.evrCtlHost e then pmeEvent s (getF s Fld.evrCtlEp e) (getF s Fld.evrCtlFunc e) 2 else s
  if getF s Fld.evrNotifyCoalCount e ≤ x.unann + 1 then evrFire s e else s

/-- An event for a ring: written, or lost where the ring is full, or unrouted where it is not enabled (08 R228, 10 R321). A
ring holds at most depth - 1 entries (DEDUCED from 08 R221, log 10). -/
def evrPut (s : State) (e : Nat) (ev : Event) : State :=
  if !flagF s Fld.evrCtlEnable e then bump s Fld.xptEvtUnroutedCnt 0
  else if evrUsed s e + 1 < evrDepth s e then evrWrite s e ev
  else
    let x := evrOf s e
    let first := !flagF s Fld.evrStatFull e
    let s := setF s Fld.evrStatFull e 1
    let s := bumpSat s Fld.evrStatLost e
    let s := bump s Fld.admEvrLostCnt 0
    let lost1 := if first then ev.code else x.firstLost
    let s := setEvr s e { x with seq := (x.seq + 1) % 65536, firstLost := lost1, lastLost := ev.code }
    if first then wakeWatchers s (bitEvrFull e) else s

/-- A slot of an event ring has freed: EVENTS_LOST first, then full and lost clear (08 R228). -/
def evrFreed (s : State) (e : Nat) : State :=
  if flagF s Fld.evrStatFull e && decide (evrUsed s e + 1 < evrDepth s e) then
    let x := evrOf s e
    let s := evrWrite s e { code := 0x0303, aux16 := getF s Fld.evrStatLost e, arg0 := x.firstLost, arg1 := x.lastLost }
    setF (setF s Fld.evrStatFull e 0) Fld.evrStatLost e 0
  else s

/-- The device event ring (10 R321). -/
def putDev (s : State) (ev : Event) : State :=
  if flagF s Fld.evtDevRingEnable 0 then evrPut s (getF s Fld.evtDevRingRing 0) ev else bump s Fld.xptEvtUnroutedCnt 0

/-! ### Trace packets -/

/-- A Gutter channel. -/
def chanOf (s : State) (c : Nat) : Chan := Tab.get {} s.gut.chans c

/-- Change a Gutter channel. -/
def setChan (s : State) (c : Nat) (x : Chan) : State :=
  { s with gut := { s.gut with chans := Tab.store {} s.gut.chans c x } }

/-- The fill of a channel, in bytes (15 R434). -/
def chanFill (s : State) (c : Nat) : Nat := ((chanOf s c).pkts.map (fun p => p.2.length)).sum

/-- The size of a channel's slice, in bytes (15 R433). -/
def chanSize (s : State) (c : Nat) : Nat := getF s Fld.gutChCtlBufSize c * 65536

/-- Shed marks in sixteenths of the slice (15 R435). -/
def shedMark (l : Nat) : Nat := if l = 1 then 8 else if l = 2 then 12 else 14

/-- Move the shed level by one and raise GUT_SHED (15 R435). -/
def shedStep (s : State) (c l : Nat) : State :=
  let s := setF s Fld.gutChStatShed c l
  putDev s { code := 0x0A01, aux8 := c, aux16 := l, arg0 := chanFill s c }

/-- One rise or fall of the shed level, if one is due (15 R435). -/
def shedOnce (s : State) (c : Nat) : State :=
  let l := getF s Fld.gutChStatShed c
  let f := chanFill s c * 16
  let z := chanSize s c
  if l < 3 ∧ shedMark (l + 1) * z ≤ f then shedStep s c (l + 1)
  else if 0 < l ∧ f < (shedMark l - 1) * z then shedStep s c (l - 1)
  else s

/-- Bytes of a channel's drain ring, and bytes in it not yet consumed (15 R437). -/
def drainSize (s : State) (c : Nat) : Nat := 2 ^ getF s Fld.gutChDsize c
def drainUsed (s : State) (c : Nat) : Nat := (getF s Fld.gutChDtail c + drainSize s c - getF s Fld.gutChDhead c) % drainSize s c

/-- Whether the drain ring has room for the whole of the oldest packet (15 R437). -/
def drainFits (s : State) (c : Nat) (p : List Byte) : Bool := decide (drainUsed s c + p.length < drainSize s c)

/-- Note since when the ring has been without room; once it has room the stall is over (15 R438). -/
def drainCheck (s : State) (c : Nat) : State :=
  let x := chanOf s c
  match x.pkts with
  | (_, p) :: _ =>
    if drainFits s c p then setF (setChan s c { x with noRoom := none }) Fld.gutChStatDrainStall c 0
    else setChan s c { x with noRoom := some (x.noRoom.getD s.ftime) }
  | [] => setF (setChan s c { x with noRoom := none }) Fld.gutChStatDrainStall c 0

/-- Show a channel's fill and bring its shed level and its drain up to date. -/
def chanSettle (s : State) (c : Nat) : State :=
  let s := drainCheck s c
  let s := setF s Fld.gutChStatFillKib c (chanFill s c / 1024)
  if flagF s Fld.gutChCtlMode c then s else shedOnce (shedOnce (shedOnce s c) c) c

/-- A packet: header and payload, padded to whole units (15 R432). -/
def tracePacket (source typ prio seq time : Nat) (payload : List Byte) : List Byte :=
  let units := 1 + (payload.length + 15) / 16
  leBytes 1 source ++ leBytes 1 units ++ leBytes 1 typ ++ leBytes 1 prio ++ leBytes 4 seq ++ leBytes 8 time ++ payload ++
  List.replicate (16 * (units - 1) - payload.length) 0

/-- A channel takes a packet into its slice. -/
def chanTake (s : State) (c time : Nat) (p : List Byte) : State :=
  chanSettle (setChan s c { chanOf s c with pkts := (chanOf s c).pkts ++ [(time, p)] }) c

/-- A channel drops a packet of a source (15 R435, R436). In MARK mode the first drop begins an overflow. -/
def chanDrop (s : State) (c source seq time : Nat) : State :=
  let s := bump s Fld.gutDropCnt source
  if !flagF s Fld.gutChCtlMode c then s
  else
    let x := chanOf s c
    match x.ovf with
    | some (t, n) => setChan s c { x with ovf := some (t, Tab.put n source (Tab.get 0 n source + 1)) }
    | none =>
      let s := setChan s c { x with ovf := some (time, [(source, 1)]) }
      let s := setF s Fld.gutChStatOvfPending c 1
      let s := bump s Fld.gutChOvfCnt c
      putDev s { code := 0x0A02, aux8 := c, arg0 := seq }

/-- Take a number of the channel's packet sequence (15 R432). -/
def chanSeq (s : State) (c : Nat) : Nat × State := (getF s Fld.gutChSeq c, bump s Fld.gutChSeq c)

/-- Write a pending OVERFLOW packet as soon as the slice has room for it (15 R436, Table 15.4). -/
def chanOverflow (s : State) (c : Nat) : State :=
  match (chanOf s c).ovf with
  | none => s
  | some (t, n) =>
    let lost := (n.map (fun e => e.2)).sum
    let body := leBytes 1 c ++ leBytes 1 n.length ++ leBytes 2 0 ++ leBytes 4 (Nat.min lost 0xFFFFFFFF) ++ leBytes 8 t ++
      (n.map (fun e => leBytes 1 e.1 ++ leBytes 3 0 ++ leBytes 4 (Nat.min e.2 0xFFFFFFFF))).flatten
    let len := 16 * (1 + (body.length + 15) / 16)
    if chanFill s c + len ≤ chanSize s c then
      let s := setChan s c { chanOf s c with ovf := none }
      let s := setF s Fld.gutChStatOvfPending c 0
      let q := chanSeq s c
      chanTake q.2 c s.ftime (tracePacket 47 0xF0 3 q.1 s.ftime body)
    else s

/-- Offer a packet to a running channel (15 R430 to R436). -/
def chanOffer (s : State) (c source typ prio : Nat) (payload : List Byte) : State :=
  if getF s Fld.gutChStatState c ≠ 1 then s
  else
    let s := chanOverflow s c
    let q := chanSeq s c
    let p := tracePacket source typ prio q.1 s.ftime payload
    let s := q.2
    let fits := decide (chanFill s c + p.length ≤ chanSize s c)
    let dropped := if flagF s Fld.gutChCtlMode c then (chanOf s c).ovf.isSome || !fits
      else decide (prio < getF s Fld.gutChStatShed c) || !fits
    if dropped then chanDrop s c source q.1 s.ftime else chanTake s c s.ftime p

/-- A source offers a packet to the channel GUT_SRC names, if it is enabled (15 R430). -/
def offer (s : State) (source typ : Nat) (payload : List Byte) : State :=
  if flagF s Fld.gutSrcEnable source then
    chanOffer s (getF s Fld.gutSrcChannel source) source typ (getF s Fld.gutSrcPriority source) payload
  else s

/-- An EVENT source copies an event entry, with phase 0 and seq 0 (15 R431). -/
def offerEvent (s : State) (source : Option Nat) (ev : Event) : State :=
  match source with
  | some n => offer s n 0x50 (ev.bytes 0 s.ftime 0)
  | none => s

/-! ### Raising events (10 R321) -/

/-- Trace sources of the blocks (15 Table 15.1). -/
def srcRidge : Option Nat := some 40
def srcThatch : Option Nat := some 45
def srcHost (ep : Nat) : Option Nat := some (38 + ep)
def srcSwitch : Option Nat := some 25
def srcXpt : Option Nat := some 26
def srcDormer : Option Nat := some 27
def srcNawyn (l : Nat) : Option Nat := some (28 + l / 4)
def srcLoft : Option Nat := some 32
def srcUl : Option Nat := some 33
def srcStor : Option Nat := some 34
def srcSec : Option Nat := some 35

/-- To the device event ring. -/
def raiseD (s : State) (source : Option Nat) (ev : Event) : State := putDev (offerEvent s source ev) ev

/-- To the event ring of a queue pair. -/
def raiseR (s : State) (source : Option Nat) (q : Nat) (ev : Event) : State :=
  evrPut (offerEvent s source ev) (getF s Fld.qpCtlEventRing q) ev

/-- To the event ring of TRUSS_EVR. -/
def raiseT (s : State) (source : Option Nat) (ev : Event) : State :=
  evrPut (offerEvent s source ev) (getF s Fld.trussEvr 0) ev

/-- The enabled event rings whose consumer is a host function. -/
def hostRings (s : State) : List Nat :=
  (List.range 256).filter (fun e => flagF s Fld.evrCtlEnable e && flagF s Fld.evrCtlHost e)

/-- To every enabled host event ring; with none enabled the event is unrouted. -/
def raiseH (s : State) (source : Option Nat) (ev : Event) : State :=
  let s := offerEvent s source ev
  let rs := hostRings s
  if rs.isEmpty then bump s Fld.xptEvtUnroutedCnt 0 else rs.foldl (fun s e => evrPut s e ev) s

/-! ### Histograms (15 R440, R441) -/

/-- The bin of a sample: bin 0 below `base`, doubling, bin 15 the rest (15 Table 15.5). -/
def binOf (base x : Nat) : Nat := if x < base then 0 else Nat.min (Nat.log2 (x / base) + 1) 15

/-- Add to a field of a histogram row; it wraps at 64 bits. -/
def rowAdd (t : Tab Nat) (row field n : Nat) : Tab Nat :=
  Tab.store 0 t (20 * row + field) ((Tab.get 0 t (20 * row + field) + n) % 2 ^ 64)

/-- Set a field of a histogram row. -/
def rowSet (t : Tab Nat) (row field n : Nat) : Tab Nat := Tab.store 0 t (20 * row + field) n

/-- A refusal status (08 Table 8.7). -/
def isRefusal (status : Nat) : Bool := decide (0x20 ≤ status ∧ status ≤ 0x23)

/-- An admission sample (15 R441). -/
def admSample (s : State) (row queued : Nat) (delayed : Bool) (status : Nat) : State :=
  let t := rowAdd s.gut.adm row (binOf 256 queued) 1
  let t := if Tab.get 0 t (20 * row + 16) < queued then rowSet t row 16 queued else t
  let t := if delayed then rowAdd t row 17 1 else t
  let t := if isRefusal status then rowAdd t row 18 1 else t
  { s with gut := { s.gut with adm := t } }

/-! ### Completion entries (08 R227) -/

/-- What a completion says (08 Table 8.6). -/
structure Completion where
  opId : Dword
  result : Nat
  queued : Nat
  status : Nat
  judged : Nat := 3
  pool : Nat := 0x3F
  ext : Nat := 0
  delayed : Bool := false
  now : Bool := false
deriving DecidableEq, Repr

/-- A queue pair's state. -/
def qpOf (s : State) (q : Nat) : Qp := Tab.get {} s.rings.qps q

/-- Change a queue pair's state. -/
def setQp (s : State) (q : Nat) (x : Qp) : State :=
  { s with rings := { s.rings with qps := Tab.store {} s.rings.qps q x } }

/-- Depth of a queue pair's rings. -/
def qpDepth (s : State) (q : Nat) : Nat := 2 ^ getF s Fld.qpCtlLog2Depth q

/-- The byte of a completion that says class and pool. -/
def judgedByte (judged pool : Nat) : Nat := judged % 4 + pool % 64 * 4

/-- A completion entry's 32 bytes. -/
def Completion.bytes (c : Completion) (q sqHead phase : Nat) : List Byte :=
  leBytes 8 c.opId.toNat ++ leBytes 8 c.result ++ leBytes 6 (Nat.min c.queued (2 ^ 48 - 1)) ++ leBytes 2 sqHead ++
  leBytes 1 c.status ++ leBytes 1 (judgedByte c.judged c.pool) ++ leBytes 2 q ++ leBytes 2 c.ext ++ leBytes 1 0 ++
  leBytes 1 (phase + if c.delayed then 2 else 0)

/-- Fire a queue pair's notification. -/
def qpFire (s : State) (q : Nat) : State :=
  let s := setQp s q { qpOf s q with unann := 0 }
  notify s (getF s Fld.qpNotifyMode q) (getF s Fld.qpNotifyTarget q) (getF s Fld.qpCtlEp q) (getF s Fld.qpCtlFunc q)
    ((bayOfQp s q).getD 0)

/-- A REFUSAL trace packet (15 Table 15.3). -/
def offerRefusal (s : State) (q c : Nat) (k : Completion) : State :=
  if isRefusal k.status then
    offer s 36 0x30 (leBytes 2 q ++ leBytes 1 c ++ leBytes 1 k.status ++ leBytes 1 (judgedByte k.judged k.pool) ++
      leBytes 3 0 ++ leBytes 8 k.queued ++ leBytes 8 k.result ++ leBytes 8 0)
  else s

/-- Write a completion entry into a queue pair's CQ (08 R227), with its sample, trace and notification. -/
def complete (s : State) (q : Nat) (k : Completion) : State :=
  let t := getF s Fld.qpCqTail q
  let d := qpDepth s q
  let ph := getF s Fld.qpCqTailPhase q
  let s := deviceWrite s (addrOf s .qpCqBaseLo .qpCqBaseHi q + 32 * t) (k.bytes q (getF s Fld.qpSqHead q) ph)
  let s := setF s Fld.qpCqTail q ((t + 1) % d)
  let s := if t + 1 = d then setF s Fld.qpCqTailPhase q (1 - ph) else s
  let s := if k.delayed && decide (k.pool < 7) then bump s Fld.admDelayedCnt k.pool else s
  let s := admSample s q k.queued k.delayed k.status
  let s := offerRefusal s q 0xFF k
  let x := qpOf s q
  let s := setQp s q { x with unann := x.unann + 1, unannAt := if x.unann = 0 then s.ftime else x.unannAt }
  if k.now || decide (getF s Fld.qpNotifyCoalCount q ≤ x.unann + 1) then qpFire s q else s

end Sys2Proof.Machine
end

