-- ==== Sys2Proof/Machine/Console.lean ====
section
/-! DEFINITION. The console's queues (03 R79 to R85) and the log lines the Ridge inserts. -/

namespace Sys2Proof.Machine

/-- Change the console. -/
def setCon (s : State) (c : Console) : State := { s with console := c }

/-- Show the FIFO levels. -/
def conSettle (s : State) : State :=
  setF (setF s Fld.pwrConStatRxLevel 0 s.console.rx.length) Fld.pwrConStatTxLevel 0 s.console.tx.length

/-- Whether the Ridge may insert a log line now: between lines of software's, or inside one that has lost its protection (03
R85). -/
def conMayLog (c : Console) : Bool := c.sending.isNone && (!c.midLine || c.holdLost)

/-- Send the waiting log lines where they may go. Their text is free. -/
def conFlushLog (s : State) : State :=
  if conMayLog s.console && decide (0 < s.console.logWaiting) then
    let k := s.console.logWaiting
    let s := (List.range k).foldl (fun s i => (Config.logLine (s.freeCtr + i)).foldl (fun s c => emit s (.con c)) s) s
    { setCon s { s.console with logWaiting := 0 } with freeCtr := s.freeCtr + k }
  else s

/-- Put the next character of the transmit FIFO on an idle line. -/
def conStart (s : State) : State :=
  match s.console.sending, s.console.tx with
  | none, c :: rest => conSettle (setCon s { s.console with sending := some c, tx := rest })
  | _, _ => s

/-- The Ridge writes a log line of its own (03 R85); it keeps the line for LOG_READ (07 Table 7.10). -/
def conLog (s : State) : State :=
  let s := { s with host := { s.host with log := s.host.log ++ Config.logLine (s.freeCtr + s.console.logWaiting) } }
  conFlushLog (setCon s { s.console with logWaiting := s.console.logWaiting + 1 })

/-- Software queues a character to send (03 R84). -/
def conTx (s : State) (c : Byte) : State :=
  if 64 ≤ s.console.tx.length then bump s Fld.pwrConOverrunCnt 0
  else conStart (conSettle (setCon s { s.console with tx := s.console.tx ++ [c] }))

/-- A received character goes into the receive FIFO (03 R84). -/
def conRx (s : State) (c : Byte) (frameErr : Bool) : State :=
  let s := if frameErr then bump s Fld.pwrConFrameCnt 0 else s
  if 64 ≤ s.console.rx.length then bump (setF s Fld.pwrConStatOvr 0 1) Fld.pwrConOverrunCnt 0
  else conSettle (setCon s { s.console with rx := s.console.rx ++ [(c, frameErr)] })

/-- A read of PWR_CON_RX: the FIFO's head, which goes (03 Table 3.6). -/
def conRead (s : State) : Nat × State :=
  match s.console.rx with
  | [] => (0, s)
  | (c, e) :: rest => (c.toNat + (if e then 256 else 0) + 512, conSettle (setCon s { s.console with rx := rest }))

end Sys2Proof.Machine
end

