-- ==== Sys2Proof/Machine/NawynTx.lean ====
section
/-! DEFINITION. Sending a Nawyn message: routes (11 R333, R334), course windows (11 R347 to R349), the message header
(11 Table 11.4) and the queue of waiting messages. -/

namespace Sys2Proof.Machine

/-- A link's state. -/
def linkOf (s : State) (l : Nat) : Link := Tab.get {} s.nawyn.links l

/-- Change a link's state. -/
def setLink (s : State) (l : Nat) (x : Link) : State :=
  { s with nawyn := { s.nawyn with links := Tab.store {} s.nawyn.links l x } }

/-- The device's node ID (03 R77). -/
def nodeId (s : State) : Nat := getF s Fld.pwrNodeIdNodeId 0

/-- Whether a link is up. One that retrains still is: its messages wait (11 R326; DEDUCED, log 30). -/
def linkUp (s : State) (l : Nat) : Bool :=
  getF s Fld.nawynLinkStatState l == 5 || getF s Fld.nawynLinkStatState l == 6

/-- Whether routed messages may use a link: up, and no node ID clash (11 R333). -/
def linkRoutes (s : State) (l : Nat) : Bool := linkUp s l && !flagF s Fld.nawynLinkStatIdClash l

/-- The number that stands for local delivery in place of a link (11 R334). -/
def localLink : Nat := 16

/-- The link a routed message to a node leaves on (11 R333, R334). -/
def routeFor (s : State) (node : Nat) : Option Nat :=
  if nodeId s = 0xFFF ∨ node = 0xFFF then none
  else if node = nodeId s then some localLink
  else
    let p := getF s Fld.nawynRoutePrimary node
    let a := getF s Fld.nawynRouteAlternate node
    if flagF s Fld.nawynRoutePrimaryValid node && linkRoutes s p then some p
    else if flagF s Fld.nawynRouteAlternateValid node && linkRoutes s a then some a
    else none

/-- Lanes of a width code (11 Table 11.8). -/
def lanes (w : Nat) : Nat := if w = 0 then 1 else if w = 1 then 2 else 4

/-- A link's flit time in ps (11 R324). -/
def flitPs (s : State) (l : Nat) : Nat :=
  2048 * 8 / (lanes (getF s Fld.nawynLinkStatWidth l) * if flagF s Fld.nawynLinkStatHalfRate l then 1 else 2)

/-- The guard in ns: the flit time rounded up (11 R348). -/
def guardNs (s : State) (l : Nat) : Nat := (flitPs s l + 999) / 1000

/-- The schedule a link sends under: active and matched (11 R346, R350). -/
def courseOf (s : State) (l : Nat) : Option Course :=
  if flagF s Fld.nawynLinkStatCourseActive l && !flagF s Fld.nawynLinkStatMismatch l then (linkOf s l).active else none

/-- Whether a class owns a window of a schedule. -/
def isCourseClass (c : Course) (tc : Nat) : Bool := c.wins.any (fun w => w.2.2 == tc)

/-- The spans of open time of a schedule: start and length; the last runs on into the next cycle (11 R347). -/
def openSpans (c : Course) : List (Nat × Nat) :=
  match c.wins with
  | [] => [(0, c.cycle)]
  | w :: ws =>
    (List.zip (w :: ws) ((ws.map (fun x => x.1)) ++ [c.cycle + w.1])).map (fun p => (p.1.2.1, p.2 - p.1.2.1))

/-- Whether `n` flits fit in a span of `len` ns with the guard kept. -/
def fitsSpan (s : State) (l n len : Nat) : Bool := decide (n * flitPs s l + guardNs s l * 1000 ≤ len * 1000)

/-- Whether a message of `n` flits of a class fits any window of its class, or any span of open time (11 R349). -/
def fitsCourse (s : State) (l tc n : Nat) : Bool :=
  match courseOf s l with
  | none => true
  | some c =>
    if isCourseClass c tc then c.wins.any (fun w => w.2.2 == tc && fitsSpan s l n (w.2.1 - w.1))
    else c.wins.isEmpty || (openSpans c).any (fun p => fitsSpan s l n p.2)

/-- Flits of a message with `len` bytes of payload. -/
def msgFlits (len : Nat) : Nat := (24 + len + 235) / 236

/-- A message header (11 Table 11.4) with crs still 0. -/
def msgHeader (dst hops src : Nat) (linkLocal : Bool) (mtype status len tag arg : Nat) : List Byte :=
  leBytes 2 (dst % 4096 + hops % 16 * 4096) ++ leBytes 2 (src % 4096 + if linkLocal then 4096 else 0) ++
  leBytes 1 mtype ++ leBytes 1 0 ++ leBytes 1 0 ++ leBytes 1 status ++ leBytes 4 len ++ leBytes 4 tag ++ leBytes 8 arg

/-- Add a message to the waiting ones. -/
def enqueueMsg (s : State) (m : NMsg) : State := { s with nawyn := { s.nawyn with waiting := s.nawyn.waiting ++ [m] } }

/-- Enqueue a routed message to a node: 0x70 with no route up, 0x72 where it fits no window of its class (11 R334, R338,
R349). -/
def sendNode (s : State) (src : NSrc) (node tc mtype status tag arg len : Nat) (data : List Byte)
    (from_ : Option (Nat × Nat)) : Except (Nat × State) State :=
  match routeFor s node with
  | none => .error (0x70, s)
  | some l =>
    if l < 16 && !fitsCourse s l tc (msgFlits len) then .error (0x72, bump s Fld.nawynOversizeCnt 0)
    else
      .ok (enqueueMsg s { src := src, link := l, tc := tc, data := data, from_ := from_, flits := msgFlits len, hdr := msgHeader node 4 (nodeId s) false mtype status len tag arg })

/-- Enqueue a link-local message on a link (11 R333). -/
def sendLocal (s : State) (src : NSrc) (l tc mtype status tag arg : Nat) (data : List Byte) : State :=
  let h := msgHeader 0 0 (nodeId s) true mtype status data.length tag arg
  enqueueMsg s { src := src, link := l, tc := tc, data := data, flits := msgFlits data.length, hdr := h, routed := false }

/-- A message of the device's own to a node; where it cannot go it is dropped (11 R335). -/
def sendOwn (s : State) (node tc mtype status tag arg : Nat) (data : List Byte) : State :=
  match sendNode s .own node tc mtype status tag arg data.length data none with
  | .ok t => t
  | .error (_, t) => t

/-- Whether the device follows a peer's time (11 R341). -/
def follower (s : State) : Bool := flagF s Fld.nawynTimeCtlUpEn 0 && !flagF s Fld.nawynTimeCtlRoot 0

/-- Enter holdover when the link that is followed goes down (11 R343). -/
def holdover (s : State) (l : Nat) : State :=
  if follower s ∧ getF s Fld.nawynTimeCtlUpLink 0 = l ∧ (getF s Fld.nawynTimeStatState 0 = 1 ∨ getF s Fld.nawynTimeStatState 0 = 2) then
    let s := { s with nawyn := { s.nawyn with good := 0 } }
    raiseD (setF s Fld.nawynTimeStatState 0 3) (srcNawyn l) { code := 0x0607 }
  else s

end Sys2Proof.Machine
end

