-- ==== Sys2Proof/Machine/Mbx.lean ====
section
/-! DEFINITION. Ridge mailbox messages (07 R208 to R211, Tables 7.8 to 7.10): their layout, their paths and how the Ridge
answers. -/

namespace Sys2Proof.Machine

/-- Paths: 0 and 1 the mailboxes, 2 the chain, 3 the bare port (07 Table 7.9); 4 + l a neighbour's BOOT message on Nawyn link
l (11 Table 11.5). -/
def pathChain : Nat := 2
def pathBare : Nat := 3
def pathNawyn (l : Nat) : Nat := 4 + l

/-- Whether a path carries header fields big-endian (07 R210). -/
def pathBig (path : Nat) : Bool := path == 2 || path == 3

/-- A header field of a message that came by a path. -/
def msgField (path : Nat) (bs : List Byte) (off n : Nat) : Nat := if pathBig path then beAt bs off n else leAt bs off n

/-- A header field's bytes on a path. -/
def putField (path n v : Nat) : List Byte := if pathBig path then beBytes n v else leBytes n v

/-- Type, length, seq and payload of a message (07 Table 7.9). -/
def msgType (bs : List Byte) : Nat := leAt bs 0 1
def msgLen (path : Nat) (bs : List Byte) : Nat := msgField path bs 2 2
def msgSeq (path : Nat) (bs : List Byte) : Nat := msgField path bs 4 4
def msgPayload (path : Nat) (bs : List Byte) : List Byte := (bs.drop 16).take (msgLen path bs)

/-- A message: type, flags, seq, status, path and payload. -/
def mbxBytes (path typ flags seq status : Nat) (payload : List Byte) : List Byte :=
  leBytes 1 typ ++ leBytes 1 flags ++ putField path 2 payload.length ++ putField path 4 seq ++ leBytes 1 status ++
  leBytes 1 (if path ≤ 3 then path else 0) ++ List.replicate 6 0 ++ payload

/-- Status codes of Table 7.9. -/
def stOk : Nat := 0
def stBadType : Nat := 1
def stBadLen : Nat := 2
def stBadSeq : Nat := 3
def stBusy : Nat := 4
def stDenied : Nat := 5
def stNotNow : Nat := 6
def stRejected : Nat := 7

/-- The unit ID (03 R67). -/
def unitId (s : State) : Nat := (getReg s .pwrUnitIdLo 0).toNat + (getReg s .pwrUnitIdHi 0).toNat * 2 ^ 32

/-- A register's image: 4 little-endian bytes. -/
def regImage (s : State) (r : Reg) : List Byte := leBytes 4 (getReg s r 0).toNat

/-- The payload of a STATUS response. -/
def statusPayload (s : State) : List Byte :=
  regImage s .pwrState ++ regImage s .bootAttempts ++ regImage s .pwrBootStat ++ regImage s .pwrTempMax ++ regImage s .thatchStat

/-- The payload of a PING response. -/
def pingPayload (s : State) : List Byte :=
  regImage s .identId ++ regImage s .identFamily ++ leBytes 8 (unitId s) ++ leBytes 1 (getF s Fld.pwrChainAddrAddress 0) ++
  leBytes 2 (nodeId s)

/-- An Ethernet frame of the bare port, without FCS: EtherType 0x88B5, padded to 60 bytes (07 R210). -/
def bareFrame (s : State) (dst : Nat) (msg : List Byte) : List Byte :=
  let f := beBytes 6 dst ++ beBytes 6 (0x02 * 2 ^ 40 + unitId s % 2 ^ 40) ++ beBytes 2 0x88B5 ++ msg
  f ++ List.replicate (60 - f.length) 0

/-- Write bytes into the response buffer of a mailbox from word `k` on. -/
def mbxWrite (s : State) (e : Nat) : Nat → Nat → List Byte → State
  | 0, _, _ => s
  | fuel + 1, k, bs =>
    if bs.isEmpty then s
    else
      let i := e * 1024 + k
      let old := leBytes 4 (getReg s .identMbxResp i).toNat
      let w := bs.take 4 ++ old.drop bs.length
      mbxWrite (setReg s .identMbxResp i (BitVec.ofNat 64 (leNat w))) e fuel (k + 1) (bs.drop 4)

/-- Answer a message on its path (07 R208, R210, 03 R73). -/
def respond (s : State) (path mac typ seq status : Nat) (payload : List Byte) : State :=
  let m := mbxBytes path typ 1 seq status payload
  if path ≤ 1 then
    let s := mbxWrite s path 1024 0 m
    let s := setF s Fld.identMbxStatRespReady path 1
    msix (setF s Fld.identMbxStatBusy path 0) path 0 0
  else if path = 2 then { s with chain := { s.chain with msgOut := m } }
  else if path = 3 then emit s (.frame 0 (bareFrame s mac m))
  else
    let tc := match s.ridge.attempt with | some a => a.tc | none => 0
    sendLocal s .own (path - 4) tc 0x05 0 0 0 m

/-- The types of Table 7.10 that a sender may use. -/
def msgKnown (t : Nat) : Bool := [0x01, 0x02, 0x10, 0x11, 0x12, 0x20, 0x30, 0x31, 0x32].contains t

/-- Answer the messages at the front of the Ridge's queue whose type is not listed (07 Table 7.9 BAD_TYPE). -/
def dropUnknown (s : State) : List (Nat × List Byte × Nat) → State
  | [] => { s with host := { s.host with ridgeQ := [] } }
  | (p, bs, mac) :: rest =>
    if msgKnown (msgType bs) then { s with host := { s.host with ridgeQ := (p, bs, mac) :: rest } }
    else dropUnknown (respond s p mac (msgType bs) (msgSeq p bs) stBadType []) rest

/-- A message arrives on a path (07 R209). -/
def mbxArrive (s : State) (path : Nat) (bs : List Byte) (mac : Nat) : State := dropUnknown s (s.host.ridgeQ ++ [(path, bs, mac)])

/-- Answer the message at the front and take it out of the queue. -/
def mbxReply (s : State) (status : Nat) (payload : List Byte) : State :=
  match s.host.ridgeQ with
  | [] => s
  | (p, bs, mac) :: rest => dropUnknown (respond s p mac (msgType bs) (msgSeq p bs) status payload) rest

/-- The message at the front, if it is of a type: path, bytes. -/
def mbxFront (s : State) (typ : Nat) : Option (Nat × List Byte) :=
  match s.host.ridgeQ with
  | [] => none
  | (p, bs, _) :: _ => if msgType bs = typ then some (p, bs) else none

/-- Answer the BOOT_END whose image was being checked when its push ends (07 R208, R211). -/
def pushAnswer (s : State) (a : Attempt) (ok : Bool) : State :=
  let st := if ok then stOk else stRejected
  let body := if ok then [] else regImage s .pwrBootStat
  match a.path with
  | none => s
  | some p =>
    if a.stage ≠ .hashing then s
    else if p ≤ 3 then (if (mbxFront s 0x12).isSome then mbxReply s st body else s)
    else respond s p 0 0x12 0 st body

end Sys2Proof.Machine
end

