-- ==== Sys2Proof/Machine/Adm.lean ====
section
/-! DEFINITION. Budgets and pools (08 R229 to R239): partner records and their tokens, pool capacity, the class an operation
is judged under, and what a refusal says. -/

namespace Sys2Proof.Machine

/-! ### Pool capacity (08 Table 8.11, R231) -/

/-- Lane rate in MB/s of a PCI Express speed code (07 Table 7.11: 1 for 2.5 GT/s, doubling to 6 for 64 GT/s). -/
def laneMBps (speed : Nat) : Nat :=
  match speed with
  | 1 => 250 | 2 => 500 | 3 => 1000 | 4 => 2000 | 5 => 4000 | 6 => 8000 | _ => 0

/-- Bytes per ms of an endpoint's link. -/
def epRate (s : State) (ep : Nat) : Nat :=
  if flagF s Fld.identEpLinkLinkUp ep then
    laneMBps (getF s Fld.identEpLinkSpeed ep) * getF s Fld.identEpLinkWidth ep * 1000
  else 0

/-- Line rate in Gb/s of an external sub-port, by its port's breakout (09 Table 9.11: 1 x 800, 2 x 400, 4 x 200, 8 x 100). -/
def portGbps (s : State) (p : Nat) : Nat := 800 / 2 ^ getF s Fld.swPortCfgBreakout (p / 8 * 8)

/-- Bytes per ms of the sub-ports that are up. -/
def portsRate (s : State) : Nat := (s.truss.portsUp.map (fun p => portGbps s p * 125000)).sum

/-- Payload bytes per ms of a Nawyn link: 115 GB/s on four lanes at full rate. -/
def linkRate (s : State) (l : Nat) : Nat :=
  if linkUp s l then
    115000000 * lanes (getF s Fld.nawynLinkStatWidth l) / (if flagF s Fld.nawynLinkStatHalfRate l then 8 else 4)
  else 0

/-- Payload bytes per ms of the links that are up. -/
def linksRate (s : State) : Nat := ((List.range 16).map (linkRate s)).sum

/-- ADM_POOL_FLOOR of a pool: its capacity at the hard throttle level with what is up (08 R231). -/
def poolFloor (s : State) (p : Nat) : Nat :=
  match p with
  | 0 => epRate s 0 + epRate s 1
  | 1 => portsRate s
  | 2 => linksRate s
  | 3 => 128000
  | 4 => getF s Fld.admPoolCap 4
  | 5 => getF s Fld.admPoolCap 5
  | _ => 1840000000

/-- The thermal level in force (03 Table 3.4). -/
def thermLevel (s : State) : Nat := getF s Fld.pwrThermStatLevel 0

/-- Whether a thermal cap lowers a pool's capacity: the hard level halves the Loft (03 Table 3.4, 12 R383). -/
def poolCapped (s : State) (p : Nat) : Bool := p == 3 && decide (2 ≤ thermLevel s)

/-- What a pool's hardware delivers now. -/
def poolHw (s : State) (p : Nat) : Nat :=
  match p with
  | 3 => if poolCapped s 3 then 128000 else 256000
  | _ => poolFloor s p

/-- ADM_POOL_LIVE of a pool (08 R231). -/
def poolLive (s : State) (p : Nat) : Nat := Nat.min (getF s Fld.admPoolCap p) (poolHw s p)

/-- What the device keeps of a pool. -/
def poolOf (s : State) (p : Nat) : Pool := Tab.get {} s.rings.pools p

/-- Change what the device keeps of a pool. -/
def setPool (s : State) (p : Nat) (x : Pool) : State :=
  { s with rings := { s.rings with pools := Tab.store {} s.rings.pools p x } }

/-- Bring a pool's short and capped bits up to date: POOL_SHORT when the floor has fallen below ADM_POOL_GRES (08 R231), and
the capacity clocks restart when a cap lifts (08 R236). -/
def poolSettle (s : State) (p : Nat) : State :=
  let short := decide (poolFloor s p < getF s Fld.admPoolGres p)
  let was := flagF s Fld.admPoolStatShort p
  let s := if short ≠ was then setF s Fld.admPoolStatShort p (if short then 1 else 0) else s
  let s := if short && !was then raiseD s none { code := 0x0305, aux8 := p, arg0 := poolFloor s p } else s
  let cap := poolCapped s p
  let wasCap := flagF s Fld.admPoolStatCapped p
  if cap ≠ wasCap then
    let s := setF s Fld.admPoolStatCapped p (if cap then 1 else 0)
    if wasCap then setPool s p { poolOf s p with capLifted := s.ftime } else s
  else s

/-- Bring every pool's bits up to date, after a link, a port, an endpoint or a throttle has changed. -/
def poolsSettle (s : State) : State := (List.range 7).foldl poolSettle s

/-! ### Operations -/

/-- An operation not yet ended. -/
def opOf (s : State) (n : Nat) : Option Op := Tab.lookup s.rings.ops n

/-- Store an operation. -/
def putOp (s : State) (n : Nat) (o : Op) : State := { s with rings := { s.rings with ops := Tab.put s.rings.ops n o } }

/-- Remove an operation. -/
def dropOp (s : State) (n : Nat) : State := { s with rings := { s.rings with ops := Tab.del s.rings.ops n } }

/-- The numbers of the operations for which `p` holds, in fetch order. -/
def opsWhere (s : State) (p : Op → Bool) : List Nat := (s.rings.ops.filter (fun e => p e.2)).map (fun e => e.1)

/-- Whether an operation waits for admission in a pool. -/
def waitsIn (p : Nat) (o : Op) : Bool := decide (o.st = .waiting) && o.pool == p

/-- Whether an earlier operation of the queue pair holds a fenced one back (08 R225). -/
def fenced (s : State) (n : Nat) (o : Op) : Bool :=
  o.fence && s.rings.ops.any (fun e => decide (e.1 < n) && decide (e.2.src = o.src))

/-- Whether admission is open to a bay: Normal mode, and not struck (04 R112, 02 Table 2.10). -/
def admOpen (s : State) (bay : Nat) : Bool := mode s == 1 && !(bayOf s bay).struck

/-! ### Partner records (08 Table 8.10) -/

/-- What an index of a partner record comes to: no records at all, so class E without a limit; a record that is not cached;
an invalid one or an index out of range; a record. -/
inductive PartnerRef where
  | unlimited
  | miss
  | bad
  | found (p : Partner)
deriving DecidableEq, Repr

/-- The partner record of an index (08 R229, R232). -/
def partnerRef (s : State) (i : Nat) : PartnerRef :=
  let n := getF s Fld.admPrecCount 0
  if n = 0 then .unlimited
  else if n ≤ i then .bad
  else
    match Tab.lookup s.rings.partners i with
    | none => .miss
    | some p => if p.valid && decide (p.cls ≤ 2) then .found p else .bad

/-- The address of a partner record. -/
def precAddr (s : State) (i : Nat) : Nat := addrOf s .admPrecBaseLo .admPrecBaseHi 0 + 64 * i

/-- A bucket as a record in memory holds it. -/
def readBucket (s : State) (a : Nat) : Bucket :=
  { pool := readLe s a 1, rate := readLe s (a + 4) 4, burst := readLe s (a + 8) 4, tokens := (BitVec.ofNat 32 (readLe s (a + 12) 4)).toInt * 1000000 }

/-- A record as memory holds it. -/
def readPartner (s : State) (i : Nat) : Partner :=
  let a := precAddr s i
  let c := readLe s a 1
  { cls := c % 4, valid := bitN c 7, weight := readLe s (a + 1) 1, tag := readLe s (a + 4) 4, asOf := s.ftime, buckets := [readBucket s (a + 0x10), readBucket s (a + 0x20), readBucket s (a + 0x30)] }

/-- A bucket's tokens at a time, in millionths: they grow at rate and stop at burst (08 R232). -/
def Bucket.at (b : Bucket) (since now : Nat) : Int :=
  let t := b.tokens + (b.rate * (now - since) : Nat)
  if (b.burst * 1000000 : Nat) < t then (b.burst * 1000000 : Nat) else t

/-- A record with its tokens reckoned up to a time. -/
def Partner.accrue (p : Partner) (now : Nat) : Partner :=
  { p with asOf := now, buckets := p.buckets.map (fun b => { b with tokens := b.at p.asOf now }) }

/-- The bucket of a record for a pool. -/
def Partner.bucket (p : Partner) (pool : Nat) : Option Bucket := p.buckets.find? (fun b => b.pool == pool)

/-- Tokens an operation needs, in millionths. -/
def Bucket.need (b : Bucket) (cost : Nat) : Int := (Nat.min cost b.burst * 1000000 : Nat)

/-- Whether an operation's bucket holds the tokens it needs (08 R232): none where it is refused at once. -/
def holdsTokens (s : State) (o : Op) : Option Bool :=
  match partnerRef s o.partner with
  | .unlimited => some true
  | .miss => some false
  | .bad => none
  | .found p =>
    match p.bucket o.pool with
    | none => none
    | some b => some (decide (b.need o.cost ≤ b.at p.asOf s.ftime))

/-- Charge an operation's cost (08 R232). -/
def charge (s : State) (o : Op) : State :=
  match partnerRef s o.partner with
  | .found p =>
    let p := p.accrue s.ftime
    let bs := p.buckets.map (fun b => if b.pool = o.pool then { b with tokens := b.tokens - (o.cost * 1000000 : Nat) } else b)
    { s with rings := { s.rings with partners := Tab.put s.rings.partners o.partner { p with buckets := bs } } }
  | _ => s

/-- The class of an operation's partner: 3 where its record is missing or invalid. -/
def classOfOp (s : State) (o : Op) : Nat :=
  match partnerRef s o.partner with
  | .unlimited => 1
  | .found p => p.cls
  | _ => 3

/-- The partner's tag, for an admission event. -/
def tagOfOp (s : State) (o : Op) : Nat :=
  match partnerRef s o.partner with
  | .found p => p.tag
  | _ => 0

/-- The class an operation is judged under where it ends now (08 R239): once a decision has been made, the class of that decision;
while it waits, its partner's class, if nothing but tokens or capacity holds it back. -/
def judgedNow (s : State) (n : Nat) (o : Op) : Nat :=
  if o.st ≠ .waiting ∨ o.judged ≠ 3 then o.judged
  else if 7 ≤ o.pool ∨ (bayOf s o.bay).struck ∨ fenced s n o = true then 3
  else classOfOp s o

/-- The target of R238 in ns: of the class that judged it, or 100 µs. -/
def targetNs (s : State) (pool judged : Nat) : Nat :=
  if 7 ≤ pool then 100000
  else
    match judged with
    | 0 => getF s Fld.admPoolTgtGTgtUs pool * 1000
    | 1 => getF s Fld.admPoolTgtETgtUs pool * 1000
    | 2 => getF s Fld.admPoolStgtSTgtUs pool * 1000
    | _ => 100000

/-- Fabric time from arrival to the decision (08 R237). -/
def queuedNow (s : State) (o : Op) : Nat := if o.st = .waiting then s.ftime - o.arrival else o.queued

/-- Rank of a class for R233 and Table 8.8: G before E before S. -/
def sameOrHigher (s : State) (cls : Nat) (o : Op) : Bool := decide (classOfOp s o ≤ cls)

/-- How many operations of the same or a higher class wait in an operation's pool beside it (08 Table 8.8; DEDUCED, log 41). -/
def waitingBeside (s : State) (n : Nat) (o : Op) : Nat :=
  (s.rings.ops.filter (fun e => e.1 != n && waitsIn o.pool e.2 && sameOrHigher s (judgedNow s n o) e.2)).length

/-- retry_after_us of Table 8.8: until the bucket holds enough for this operation alone. -/
def retryAfterUs (s : State) (o : Op) : Nat :=
  match partnerRef s o.partner with
  | .found p =>
    match p.bucket o.pool with
    | none => 0xFFFFFFFF
    | some b =>
      if b.rate = 0 then 0xFFFFFFFF
      else Nat.min 0xFFFFFFFF (((b.need o.cost - b.at p.asOf s.ftime).toNat + b.rate * 1000 - 1) / (b.rate * 1000))
  | _ => 0xFFFFFFFF

/-- The rate of an operation's bucket. -/
def bucketRate (s : State) (o : Op) : Nat :=
  match partnerRef s o.partner with
  | .found p => (p.bucket o.pool).elim 0 (fun b => b.rate)
  | _ => 0

/-- The result of a refused completion (08 Table 8.8). -/
def refusalResult (s : State) (n : Nat) (o : Op) (status : Nat) : Nat :=
  match status with
  | 0x20 => retryAfterUs s o + bucketRate s o * 2 ^ 32
  | 0x21 => poolLive s o.pool + waitingBeside s n o * 2 ^ 32
  | 0x22 => getF s Fld.pwrStateTarpCause 0
  | 0x23 => o.bay + (envOf s o.bay).holdLimitMs * 2 ^ 32
  | _ => 0

end Sys2Proof.Machine
end

