-- ==== Sys2Proof/Machine/OpEnd.lean ====
section
/-! DEFINITION. How an operation ends: its one completion (08 R227, R237 to R242), NVM Express completion (14 R414), Loft
answer (12 R366, R377), and what its end leaves of the work it had under way. -/

namespace Sys2Proof.Machine

/-! ### NVM Express completions (14 R407, R414) -/

/-- A storage controller. -/
def ctrlOf (s : State) (c : Nat) : Ctrl := Tab.get {} s.stor.ctrls c

/-- Change a storage controller. -/
def setCtrl (s : State) (c : Nat) (x : Ctrl) : State :=
  { s with stor := { s.stor with ctrls := Tab.store {} s.stor.ctrls c x } }

/-- The virtual function of a controller: endpoint and function (14 R407). -/
def ctrlFn (s : State) (c : Nat) : Option (Nat × Nat) :=
  let n0 := getF s Fld.identEpVfStorageCount 0
  let n1 := getF s Fld.identEpVfStorageCount 1
  if c < n0 then some (0, getF s Fld.identEpVfStorageFirst 0 + c)
  else if c < n0 + n1 then some (1, getF s Fld.identEpVfStorageFirst 1 + (c - n0))
  else none

/-- The 16 bytes of a completion queue entry. -/
def cqeBytes (dw0 dw1 sqHead sq cid st : Nat) (phase : Bool) : List Byte :=
  leBytes 4 dw0 ++ leBytes 4 dw1 ++ leBytes 2 sqHead ++ leBytes 2 sq ++ leBytes 2 cid ++
  leBytes 2 (st * 2 + if phase then 1 else 0)

/-- Write a completion queue entry and send its interrupt. -/
def cqePut (s : State) (c sq cid dw0 dw1 st : Nat) : State :=
  let x := ctrlOf s c
  match ctrlFn s c, Tab.lookup x.sqs sq with
  | some (ep, fn), some q =>
    match Tab.lookup x.cqs q.cq with
    | none => s
    | some k =>
      let s := deviceWrite s (hostStart ep + k.base + 16 * k.tail) (cqeBytes dw0 dw1 q.head sq cid st k.phase)
      let last := decide (k.tail + 1 = k.size)
      let k' := { k with tail := if last then 0 else k.tail + 1, phase := if last then !k.phase else k.phase }
      let s := setCtrl s c { x with cqs := Tab.put x.cqs q.cq k' }
      if k.ien then msix s ep fn k.vec else s
  | _, _ => s

/-- The 15-bit status field of an entry: code, type and do-not-retry (14 Table 14.5). An operation's status of 0x1000 or
more carries dnr · 0x800 + type · 0x100 + code. -/
def nvmeField (status : Nat) : Nat :=
  let enc (sct sc : Nat) (dnr : Bool) : Nat := sc + sct * 0x100 + if dnr then 0x4000 else 0
  if 0x1000 ≤ status then enc (status / 0x100 % 8) (status % 0x100) (bitN status 11)
  else if status = 0 then 0
  else if isRefusal status then enc 7 status false
  else if status = 0x24 then enc 0 0x07 false
  else if status = 0x05 then enc 0 0x04 false
  else if status = 0x06 then enc 0 0x06 false
  else if status = 0xA6 then enc 7 0xA6 true
  else enc 7 status false

/-- Whether a command keeps DW0 for its own data: Abort, Set and Get Features, Asynchronous Event Request (14 R414). -/
def keepsDw0 (opcode : Nat) : Bool := opcode == 0x4108 || opcode == 0x4109 || opcode == 0x410A || opcode == 0x410C

/-- DW1 of an entry (14 R414). -/
def nvmeDw1 (own : Bool) (queued judgedB : Nat) (delayed : Bool) : Nat :=
  (if own then Nat.min (queued / 1000) 0xFFFF else queued / 2 ^ 32 % 2 ^ 16) + judgedB % 256 * 2 ^ 16 +
  if delayed then 2 ^ 31 else 0

/-- End an NVM Express command (14 R414, 15 R441). -/
def nvmeEnd (s : State) (o : Op) (c sq cid : Nat) (k : Completion) (status : Nat) : State :=
  let own := keepsDw0 o.opcode
  let dw0 := if own then (if status = 0 then k.result else 0) else k.queued
  let s := if k.delayed && decide (k.pool < 7) then bump s Fld.admDelayedCnt k.pool else s
  let s := admSample s (4096 + c) k.queued k.delayed status
  let s := offerRefusal s 0xFFFF c { k with status := status % 256 }
  let x := ctrlOf s c
  let s := if isRefusal status then
      setCtrl s c { x with errors := ((sq, cid, nvmeField status, BitVec.ofNat 64 k.result) :: x.errors).take 64, errCount := x.errCount + 1 }
    else s
  cqePut s c sq cid (dw0 % 2 ^ 32) (nvmeDw1 own k.queued (judgedByte k.judged k.pool) k.delayed) (nvmeField status)

/-! ### Loft answers (12 R366, R377) -/

/-- A Loft request beside its operation. -/
def lreqOf (s : State) (n : Nat) : Option LReq := Tab.lookup s.loft.reqs n

/-- Slates from a sequence's start to its end (12 R373). -/
def seqSlates (b : Nat × Nat) : Nat := (b.2 - b.1 + 15) / 16

/-- pad_tokens and tokens of the sequences read at dispatch (12 R376, Table 12.9). -/
def loftSums (bs : List (Nat × Nat)) : Nat × Nat :=
  let sMax := (bs.map seqSlates).foldl Nat.max 0
  ((bs.map (fun b => 16 * sMax - (b.2 - b.1))).sum, (bs.map (fun b => b.2 - b.1)).sum)

/-- A result header (12 Table 12.9). -/
def loftHeader (status rows result : Nat) (flags queued judgedB : Nat) (bs : List (Nat × Nat)) : List Byte :=
  leBytes 1 status ++ leBytes 1 flags ++ leBytes 1 judgedB ++ leBytes 1 0 ++ leBytes 4 rows ++ leBytes 8 queued ++
  leBytes 8 result ++ leBytes 8 (loftSums bs).1 ++ leBytes 8 (loftSums bs).2 ++ List.replicate 24 0

/-- The payload of a LOFT_APPEND_ACK (12 R366). -/
def appendAck (end_ queued judgedB : Nat) (delayed : Bool) (result : Nat) : List Byte :=
  leBytes 8 end_ ++ leBytes 6 (Nat.min queued (2 ^ 48 - 1)) ++ leBytes 1 judgedB ++ leBytes 1 (if delayed then 1 else 0) ++
  leBytes 8 result ++ List.replicate 8 0

/-- LOFT_RESULT_LOST (12 R382). -/
def loftLost (s : State) (node tag : Nat) : State :=
  raiseD (bump s Fld.loftResultLostCnt 0) srcLoft { code := 0x0703, arg0 := node + tag * 2 ^ 32 }

/-- The Nawyn class of a query's result: rtc, or where that is no class, the class it came in (12 R377). -/
def resultClass (r : LReq) : Nat :=
  let rtc := leAt r.payload 0x0C 1
  if r.kind = 1 ∧ rtc < 8 then rtc else r.tc

/-- Send a message of the Loft back to a request's source: link-local where the request was (12 R377). -/
def loftSend (s : State) (src : NSrc) (r : LReq) (node tc mtype status tag arg : Nat) (data : List Byte) : Except State State :=
  if r.linkLocal then .ok (sendLocal s src r.link tc mtype status tag arg data)
  else
    match sendNode s src node tc mtype status tag arg data.length data none with
    | .ok t => .ok t
    | .error (_, t) => .error t

/-- Answer a Loft request that came over Nawyn and ends otherwise than a served query. -/
def loftAnswer (s : State) (r : LReq) (node tag : Nat) (k : Completion) : State :=
  if r.kind = 1 then
    let h := loftHeader k.status 0 k.result (if k.delayed then 1 else 0) k.queued (judgedByte k.judged k.pool) r.bounds
    match loftSend s (.loftResult node tag) r node (resultClass r) 0x21 k.status tag 0 h with
    | .ok t => t
    | .error t => loftLost t node tag
  else
    let e := if k.status = 0 then k.result else 0
    let d := appendAck e k.queued (judgedByte k.judged k.pool) k.delayed (if isRefusal k.status then k.result else 0)
    match loftSend s .own r node r.tc 0x23 k.status tag 0 d with
    | .ok t => t
    | .error t => t

/-- The lowest ticket of a query not yet ended, or LOFT_TICKET (12 R367). -/
def loftRetired (s : State) : Nat :=
  (s.loft.reqs.filterMap (fun e => e.2.ticket)).foldl Nat.min (getF s Fld.loftTicket 0)

/-- Forget a Loft request (12 R367, R383). -/
def loftDrop (s : State) (n : Nat) (o : Op) : State :=
  match lreqOf s n with
  | none => s
  | some _ =>
    let s := { s with loft := { s.loft with reqs := Tab.del s.loft.reqs n } }
    let s := match o.src with
      | .loft node tag => { s with loft := { s.loft with ended := (node, tag) :: s.loft.ended } }
      | _ => s
    setF s Fld.loftRetired 0 (loftRetired s)

/-! ### What an end leaves of work under way -/

/-- Whose message an operation's is: its own, or a restore's read. Back-end work of the storage service goes on (14 R415). -/
def whoseOp (n : Nat) : Who → Bool
  | .op m => m == n
  | .restore m => m == n
  | _ => false

/-- End a connection's messages for which `p` holds: one not yet begun is taken out; of one begun, no further packet is sent
(10 R306). -/
def deadMsgs (p : Who → Bool) (c : Conn) : Conn :=
  { c with msgs := (c.msgs.filter (fun m => !(p m.who && m.sent == 0))).map (fun m => if p m.who then { m with dead := true } else m) }

/-- The same on every connection; what has ended and was not yet taken is forgotten. -/
def killMsgs (s : State) (p : Who → Bool) : State :=
  { s with xpt := { s.xpt with conns := s.xpt.conns.map (fun e => (e.1, deadMsgs p e.2)), done := s.xpt.done.filter (fun e => !p e.1) } }

/-- Whose Nawyn message an operation's is. -/
def nsrcOp (n : Nat) (x : NSrc) : Bool := decide (x = .op n) || decide (x = .restore n)

/-- Take an operation's waiting Nawyn messages and reads out; what has started runs on without it (11 R337, R338). -/
def killNawyn (s : State) (n : Nat) : State :=
  let w := s.nawyn.waiting.filter (fun m => !nsrcOp n m.src)
  let r := s.nawyn.reads.filter (fun e => !nsrcOp n e.2.src)
  let detach (m : NMsg × List Byte) : NMsg × List Byte := if nsrcOp n m.1.src then ({ m.1 with src := .own }, m.2) else m
  let ls := s.nawyn.links.map (fun e => (e.1, { e.2 with started := e.2.started.map detach }))
  { s with nawyn := { s.nawyn with waiting := w, reads := r, links := ls } }

/-- UL_STAT's state of a slot: 0 free, 1 copying, 2 copied, 3 draining (13 Table 13.11). -/
def slotState (s : State) (i : Nat) : Nat := getF s ⟨.ulStat, 2 * i + 1, 2 * i⟩ 0

/-- Set a slot's state. -/
def setSlot (s : State) (i v : Nat) : State := setF s ⟨.ulStat, 2 * i + 1, 2 * i⟩ 0 v

/-- The nodes of a plan, each once. -/
def planNodes (p : List PlanRange) : List Nat := (p.map (fun r => r.node)).eraseDups

/-- Send CUT_ABANDON to every node of a plan whose link is up (13 R396). -/
def sendAbandon (s : State) (cut : Cut) (reason : Nat) : State :=
  (planNodes cut.plan).foldl (fun s node => sendOwn s node (getF s Fld.ulCtlCopyTc 0) 0x43 reason 0 cut.id []) s

/-- Abandon the copying cut: tokens, slot, event, count (13 R396). -/
def cutAbandon (s : State) (reason group : Nat) : State :=
  match s.ul.copy with
  | none => s
  | some c =>
    let cut := Tab.get ⟨0, []⟩ s.ul.slots c.slot
    let s := sendAbandon s cut reason
    let s := setSlot s c.slot 0
    let s := { s with ul := { s.ul with copy := none, slots := Tab.del s.ul.slots c.slot } }
    let s := { s with nawyn := { s.nawyn with reads := s.nawyn.reads.filter (fun e => match e.2.src with | .copy _ => false | _ => true) } }
    bump (raiseD s srcUl { code := 0x0801, aux8 := reason, arg0 := cut.id, arg1 := group }) Fld.ulAbandonCnt 0

/-- End the drain short of its commit point (13 R402). -/
def drainFail (s : State) (status shingle : Nat) : State :=
  match s.ul.drain with
  | none => s
  | some d =>
    let cut := Tab.get ⟨0, []⟩ s.ul.slots d.slot
    let s := setSlot s d.slot 2
    let s := killMsgs s (fun w => match w with | .shingle _ => true | .manifest _ => true | _ => false)
    let s := { s with ul := { s.ul with drain := none } }
    bump (raiseD s srcUl { code := 0x0803, aux16 := status, arg0 := cut.id, arg1 := shingle }) Fld.ulDrainFailCnt 0

/-- Mark a storage command's back-end work: taken out if it has not begun, discarded when it comes otherwise (14 R415). -/
def backendDrop (s : State) (n : Nat) (o : Op) : State :=
  match Tab.lookup s.stor.cmds n with
  | none => s
  | some b =>
    let t := if o.st = .waiting ∨ b.ended = true then Tab.del s.stor.cmds n else Tab.put s.stor.cmds n { b with ended := true }
    { s with stor := { s.stor with cmds := t } }

/-- The ranges that an operation could write: address and length, from its opcode's body. A CRYPT names them in its control
block. -/
def opWrites (o : Op) : List (Nat × Nat) :=
  let f (off n : Nat) : Nat := leAt o.body off n
  match o.opcode with
  | 0x0100 => [(f 8 8, f 16 4)]
  | 0x0201 => [(f 0 8, f 8 4), (f 0x10 8, f 0xC 2)]
  | 0x0302 => [(f 0x18 8, f 0xC 4)]
  | 0x0303 | 0x0304 => [(f 0x18 8, 8)]
  | 0x0306 => [(f 8 8, f 0x10 4)]
  | 0x0402 => [(f 8 8, f 0x10 4)]
  | 0x0403 => [(f 0 8, f 8 4)]
  | 0x0500 => [(f 0x10 8, f 0x18 4)]
  | 0x0702 =>
    let cb := o.data.take 64
    let op := leAt cb 0 1
    [(leAt cb 0x10 8, if op = 5 then 48 else leAt cb 0x18 4)] ++ if op = 1 then [(leAt cb 0x20 8, 16)] else []
  | _ => []

/-- Bytes that an operation may have written before it ended: what they hold is free (08 R242). -/
def undefRange (s : State) (a n : Nat) : State := if n = 0 then s else loseMem s (fun x => within x 1 a n)

/-- What an admitted operation ended short of its commit point may have written is undefined (08 R242; 11 R340): where it was
aborted, refused, stopped or met an error of its data, and of a read in every case. -/
def undefWrites (s : State) (o : Op) (status : Nat) : State :=
  let reads := [0x0302, 0x0303, 0x0304, 0x0402].contains o.opcode
  if o.st = .admitted ∧ (reads = true ∨ [0x05, 0x06, 0x22, 0x23, 0x24].contains status = true) then
    (opWrites o).foldl (fun s r => undefRange s r.1 r.2) s
  else s

/-- Undo what an operation had under way when it ends short of its commit point. -/
def undoWork (s : State) (n : Nat) (o : Op) (status result : Nat) : State :=
  let s := undefWrites s o status
  let s := killMsgs s (whoseOp n)
  let s := killNawyn s n
  let s := backendDrop s n o
  let s := { s with gut := { s.gut with flushes := Tab.del s.gut.flushes n } }
  let s := { s with ul := { s.ul with restores := Tab.del s.ul.restores n } }
  let s := match s.ul.copy with
    | some c => if c.op = n then cutAbandon s status (c.abandon.elim 0xFF (fun a => a.2.2.1)) else s
    | none => s
  match s.ul.drain with
  | some d => if d.op = n then drainFail s status (if status = 0x97 then result / 2 ^ 32 else d.next) else s
  | none => s

/-! ### The end -/

/-- What an operation's completion says. -/
def completionOf (s : State) (n : Nat) (o : Op) (status result ext : Nat) : Completion :=
  let j := judgedNow s n o
  let q := queuedNow s o
  let p := if j = 3 then 0x3F else o.pool
  { opId := o.opId, result := result, queued := q, status := status % 256, judged := j, pool := p, ext := ext, delayed := decide (targetNs s p j < q), now := o.notifyNow }

/-- The kinds of queue pair (04 Table 4.5): 0 host, 1 network, 2 Nawyn, 3 storage, 4 internal. -/
def qpKind (s : State) (q : Nat) : Nat := getF s Fld.qpCtlKind q

/-- The owner function of a host ring: one of kind 0, or of kind 1 that lies in a host window (08 R215, 09 R246, R264; DEDUCED,
log 52). -/
def qpOwner (s : State) (q : Nat) : Option (Nat × Nat) :=
  if qpKind s q = 0 ∨ (qpKind s q = 1 ∧ (epOfClass (classOf (addrOf s .qpSqBaseLo .qpSqBaseHi q))).isSome = true) then
    some (getF s Fld.qpCtlEp q, getF s Fld.qpCtlFunc q)
  else none

/-- Whether no completion may be written for a queue pair: a function stop has stopped it, or is stopping it (07 R201). -/
def qpSilent (s : State) (q : Nat) : Bool :=
  getF s Fld.qpStatState q == 3 ||
  (match qpOwner s q with
   | some (ep, fn) => (fnOf s ep fn).stopCause != 0
   | none => false)

/-- The same for a storage controller (14 R415). -/
def ctrlSilent (s : State) (c : Nat) : Bool :=
  match ctrlFn s c with
  | some (ep, fn) => (fnOf s ep fn).stopCause != 0
  | none => false

/-- Deliver an operation's end where it came in. A function stop writes no completion (07 R201). -/
def deliver (s : State) (o : Op) (r : Option LReq) (k : Completion) (status : Nat) : State :=
  match o.src with
  | .ring q =>
    let s := setQp s q { qpOf s q with ended := o.opId :: (qpOf s q).ended }
    if qpSilent s q then s else complete s q k
  | .packet _ => if isRefusal status then bump s Fld.trussNawynRefusedCnt 0 else s
  | .nvme c sq cid => if ctrlSilent s c then s else nvmeEnd s o c sq cid k status
  | .loft node tag =>
    let s := if k.delayed && decide (k.pool < 7) then bump s Fld.admDelayedCnt k.pool else s
    match r with
    | none => s
    | some x => if x.sent then s else loftAnswer s x node tag k

/-- Operations of a queue pair that wait for admission: QP_STAT.waiting and backpressure (08 R223). -/
def qpSettle (s : State) (q : Nat) : State :=
  let w := (opsWhere s (fun o => decide (o.src = .ring q) && decide (o.st = .waiting))).length
  let s := setF s Fld.qpStatWaiting q w
  setF s Fld.qpStatBackpressure q (if getF s Fld.qpLimitMaxWaitOps q ≤ w then 1 else 0)

/-- The queue pair of an operation, settled. -/
def srcSettle (s : State) (o : Op) : State :=
  match o.src with
  | .ring q => qpSettle s q
  | _ => s

/-- Count a Loft request that has ended OK (12 Table 12.13). -/
def loftCount (s : State) (o : Op) : State :=
  if o.opcode = 0x0500 then bump s Fld.loftQueryCnt 0 else if o.opcode = 0x0501 then bump s Fld.loftAppendCnt 0 else s

/-- End one operation with a status: everything it had under way, then its one completion (08 R227). -/
def endOne (s : State) (n status result ext : Nat) : State :=
  match opOf s n with
  | none => s
  | some o =>
    let k := completionOf s n o status result ext
    let r := lreqOf s n
    let s := if status = 0x23 then bump s Fld.thatchHoldRefusedCnt 0 else s
    let s := if status = 0 then loftCount s o else undoWork s n o status result
    let s := loftDrop s n o
    let s := dropOp s n
    let s := if status = 0 then { s with stor := { s.stor with cmds := Tab.del s.stor.cmds n } } else s
    srcSettle (deliver s o r k status) o

/-- The ABORT operations that wait for a target to end (08 R241). -/
def abortsOf (s : State) (n : Nat) : List Nat :=
  opsWhere s (fun o => o.opcode == 0x0001 && o.aux == n && decide (o.st = .committed))

/-- End an operation with a status; an ABORT that waited for it completes behind it: ABORTED where the operation ended so,
ABORT_TOO_LATE with result 1 where it ended otherwise (08 R241). -/
def finishOp (s : State) (n status result ext : Nat) : State :=
  (abortsOf s n).foldl (fun s a => if status = 0x24 then endOne s a 0x24 0 0 else endOne s a 0x25 1 0)
    (endOne s n status result ext)

/-- End an operation OK with a result. -/
def finishOk (s : State) (n result : Nat) : State := finishOp s n 0 result 0

/-- End an operation short of its commit point with a refusal or ABORTED. A copying cut first waits for its reads
(13 R396), but for Tarp mode. -/
def endEarly (s : State) (n status : Nat) : State :=
  match opOf s n with
  | none => s
  | some o =>
    let copying := match s.ul.copy with
      | some c => c.op == n && status != 0x22
      | none => false
    if copying then
      match s.ul.copy with
      | some c =>
        let dl := s.ftime + getF s Fld.nawynCtlReadTimeoutUs 0 * 1000
        { s with ul := { s.ul with copy := some { c with abandon := some (c.abandon.getD (status, 0, 0xFF, dl)) } } }
      | none => s
    else finishOp s n status (refusalResult s n o status) 0

/-- Refuse an operation for want of budget or capacity, counted in its pool (08 R239, Table 8.12). -/
def refuse (s : State) (n status : Nat) : State :=
  match opOf s n with
  | none => s
  | some o =>
    let s := if status = 0x20 then bump s Fld.admRefBudgetCnt o.pool else bump s Fld.admRefCapCnt o.pool
    endEarly s n status

end Sys2Proof.Machine
end

