-- ==== Sys2Proof/Machine/Tarp.lean ====
section
/-! DEFINITION. The boot loop's cycles (02 R53 to R56) and taking Tarp mode (02 R57, Table 2.10, R467). -/

namespace Sys2Proof.Machine

/-! ### The boot loop (02 R53 to R56) -/

/-- The source code of a slot of PWR_BOOT_ORDER. -/
def slotSrc (s : State) (i : Nat) : Nat := getF s ⟨.pwrBootOrder, 3 * i + 2, 3 * i⟩ 0

/-- The backoff after the k-th consecutive failed cycle, in seconds (02 R55). -/
def backoffSec (k : Nat) : Nat := Nat.min (2 ^ (k - 1)) 64

/-- Change what the Ridge keeps of the boot attempt. -/
def setAttempt (s : State) (a : Option Attempt) : State := { s with ridge := { s.ridge with attempt := a } }

/-- The SPI_RESET_N pin. -/
def setSpiReset (s : State) (high : Bool) : State := { s with ridge := { s.ridge with spiResetHigh := high } }

/-- Take a Nawyn link down with its domain (11 R326). -/
def nawynLinkOff (s : State) (l : Nat) : State :=
  let was := linkUp s l
  let s := setF s Fld.nawynLinkStatState l 0
  let s := setF s Fld.nawynLinkStatCourseActive l 0
  let s := setF s Fld.nawynLinkStatMismatch l 0
  let s := setReg s .nawynCrsStat l 0
  let s := setReg s .nawynCrsActiveId l 0
  if was then
    holdover (raiseD s (srcNawyn l) { code := 0x0602, aux8 := l, aux16 := (getReg s .nawynLinkStat l).toNat % 65536 }) l
  else s

/-- Take every Nawyn link down and forget what the Nawyn domain holds of it. -/
def nawynOff (s : State) : State :=
  let s := { s with nawyn := { s.nawyn with links := [], waiting := [], locals := [], reads := [] } }
  poolsSettle ((List.range 16).foldl nawynLinkOff s)

/-- The Nawyn domain rests again after an attempt at source 5 outside Normal mode. -/
def nawynRest (s : State) : State :=
  let s := setF (setF (nawynOff s) Fld.pwrDomStatCurState 75 3) Fld.pwrDomStatInTransition 75 0
  setDom s 75 { domOf s 75 with phase := .stable, enabled := false }

/-- Begin an attempt at a slot (02 R53, R56). An SPI attempt begins with a pulse of SPI_RESET_N (16 R461). For a Nawyn
neighbour the Ridge starts the Nawyn domain (02 R36; DEDUCED, log 46). -/
def beginAttempt (s : State) (slot src : Nat) : State :=
  let s := conLog (bumpSat s Fld.bootAttempts 0)
  let s := setF s Fld.pwrBootStatCurSrc 0 src
  let spi := decide (src ≤ 2)
  let s := if spi then setSpiReset s true else s
  let s := if src = 5 then startOne s 75 else s
  setAttempt s (some { slot := slot, src := src, stage := if spi then .spiReset else .waiting })

/-- End the cycle as failed, and begin its backoff (02 R55). -/
def cycleCount (s : State) : State :=
  let k := s.ridge.failedCycles + 1
  let s := { s with ridge := { s.ridge with failedCycles := k, attempt := none, firstCycle := false, backoffEnd := some (s.ftime + backoffSec k * 1000000000) } }
  let s := setF s Fld.pwrBootStatCycleActive 0 0
  let s := setF s Fld.pwrBootStatCurSrc 0 0
  setF s Fld.pwrBootStatBackoffS 0 (backoffSec k)

/-! ### Tarp mode -/

/-- Record a further cause (02 R57). -/
def tarpSeen (s : State) (cause : Nat) : State :=
  let v := getF s Fld.pwrStateTarpSeen 0
  if bitN v (cause - 1) then s else setF s Fld.pwrStateTarpSeen 0 (v + 2 ^ (cause - 1))

/-- End a bay reload under way (no rule keeps one in Tarp mode; DEDUCED from 02 R467, log 42): its bay is no longer struck,
the result is abandoned unless the reload's own failure is the cause. -/
def reloadEnd (s : State) (cause : Nat) : State :=
  if getF s Fld.thatchStatPhase 0 = 0 then s
  else
    let s := setF s Fld.thatchStatPhase 0 0
    let s := if cause = 2 ∨ cause = 3 then s else setF s Fld.thatchStatResult 0 15
    { s with thatch := { s.thatch with stage := 0 } }

/-- End a full load under way short of its commit (02 R467): abandoned; the cycle counts as failed, but for the thermal
cause. -/
def loadEnd (s : State) (cause : Nat) : State :=
  if !s.ridge.loading then s
  else
    let s := { s with ridge := { s.ridge with loading := false }, thatch := { s.thatch with stage := 0 } }
    let s := setF s Fld.thatchStatResult 0 15
    if cause = 5 then setF s Fld.pwrBootStatCycleActive 0 0 else cycleCount s

/-- End every operation short of its commit point (02 Table 2.10 step 3). -/
def endAllOps (s : State) (status : Nat) : State :=
  (opsWhere s (fun o => decide (o.st ≠ .committed))).foldl (fun s n => endEarly s n status) s

/-- TARP_ENTER on every live host event ring, vector 0 of each PF with MSI-X enabled, and the PME event (02 Table 2.10,
07 R206). -/
def tarpTell (s : State) : State :=
  let s := raiseH s srcRidge { code := 0x0002, aux8 := getF s Fld.pwrStateTarpCause 0, arg0 := getF s Fld.bootAttempts 0 }
  (List.range 2).foldl (fun s ep =>
    let s := if cfgBit s ep 0 cfgMsix 31 then msix s ep 0 0 else s
    pmeEvent s ep 0 3) s

/-- Enter Tarp mode with a cause, steps 1 to 3 of Table 2.10; in Tarp mode already, record the cause (02 R57). -/
def tarpEnter (s : State) (cause : Nat) : State :=
  if mode s = 2 then tarpSeen s cause
  else
    let normal := mode s == 1
    let s := setF s Fld.pwrStateTarpCause 0 cause
    let s := setF s Fld.pwrStateTarpSeen 0 (2 ^ (cause - 1))
    let s := setF s Fld.pwrStateMode 0 2
    let s := bump s Fld.pwrTarpEntryCnt 0
    let s := loadEnd s cause
    let s := reloadEnd s cause
    let s := endAllOps s 0x22
    let s := conLog (tarpTell s)
    { s with ridge := { s.ridge with tarpEntry := some normal } }

/-- A cycle in which every attempt failed: the backoff, and Tarp mode after the first cycle since a reset (02 R55, R57). -/
def cycleFail (s : State) : State :=
  let first := s.ridge.firstCycle
  let s := cycleCount s
  if first then tarpEnter s 1 else s

/-- Try the slots from `slot` on: an empty one is skipped and not counted (02 Table 2.8); after the last the cycle has
failed. -/
def trySlots (s : State) : List Nat → State
  | [] => cycleFail s
  | i :: is =>
    let src := slotSrc s i
    if src = 0 ∨ 5 < src then trySlots s is else beginAttempt s i src

/-- Begin a boot cycle at slot 0 (02 R55), unless attempts are held (02 R60, 16 R462). -/
def startCycle (s : State) : State :=
  if flagF s Fld.pwrStateThermalHold 0 ∨ flagF s Fld.pwrThermStatTripped 0 then s
  else
    let s := { s with ridge := { s.ridge with backoffEnd := none } }
    let s := setF s Fld.pwrBootStatCycleActive 0 1
    let s := setF s Fld.pwrBootStatBackoffS 0 (backoffSec (s.ridge.failedCycles + 1))
    trySlots s [0, 1, 2, 3, 4]

/-- Record the end of an attempt (02 Table 2.13). -/
def attemptEnd (s : State) (src result : Nat) : State :=
  let s := setF s Fld.pwrBootStatLastSrc 0 src
  let s := setF s Fld.pwrBootStatLastResult 0 result
  let s := setF s Fld.pwrBootStatCurSrc 0 0
  let s := match s.ridge.attempt with
    | some a => pushAnswer s a (result == 1)
    | none => s
  let s := if src = 5 then nawynRest s else s
  setAttempt s none

/-- End the attempt in progress as failed, and go on to the next slot (02 R53). -/
def attemptFail (s : State) (result : Nat) : State :=
  match s.ridge.attempt with
  | none => s
  | some a => trySlots (attemptEnd s a.src result) ((List.range 5).filter (fun i => decide (a.slot < i)))

end Sys2Proof.Machine
end

