-- ==== Sys2Proof/Machine/Threads.lean ====
section
/-! DEFINITION. Threads: starting, stopping and resetting them (06 R160 to R164), taking a trap or an interrupt (06 R177 to
R183), and the trace packets that record it (15 R431). -/

namespace Sys2Proof.Machine

/-! ### Registers and idleness -/

/-- A general register; g0 reads as 0 (05 R126). -/
def Thread.reg (t : Thread) (r : Nat) : Dword := if r = 0 then 0 else Tab.get 0 t.g r

/-- Write a general register; a write of g0 is discarded (05 R126). -/
def Thread.put (t : Thread) (r : Nat) (v : Dword) : Thread := if r = 0 then t else { t with g := Tab.store 0 t.g r v }

/-- A thread number from its rafter, core and thread. -/
def tidOf (r c k : Nat) : Nat := 128 * r + 16 * c + k

/-- Whether a thread is idle in the sense of 06 Table 6.1. -/
def Thread.idle (t : Thread) : Bool := decide (t.st ≠ .ready ∧ t.st ≠ .blocked)

/-- Whether a thread has an access outstanding. -/
def Thread.busy (t : Thread) : Bool := !t.loads.isEmpty || !t.posted.isEmpty

/-- The threads of a rafter that are not in the reset state. -/
def threadsOf (s : State) (r : Nat) : List (Nat × Thread) := s.rafters.threads.filter (fun e => tidRafter e.1 == r)

/-- Whether a rafter is idle (02 Table 2.1). -/
def rafterIdle (s : State) (r : Nat) : Bool := (threadsOf s r).all (fun e => e.2.idle && !e.2.busy)

/-- The rafters of a bay. -/
def raftersOf (s : State) (b : Nat) : List Nat := (List.range 64).filter (fun r => bitN (envOf s b).rafterMask r)

/-- The lowest rafter of a bay. -/
def bootRafter (s : State) (b : Nat) : Nat := (raftersOf s b).headD 0

/-- A pc from a 64-bit value: bits 63:52 and 1:0 are 0 (05 R126; DEDUCED, log 14). -/
def toPc (v : Dword) : Dword := v &&& 0x000FFFFFFFFFFFFC

/-! ### Reset, stop and start -/

/-- Put a thread in the thread-reset state (06 R162). Its posted stores complete. -/
def resetThread (s : State) (t : Nat) : State := setThread s t {}

/-- Put every thread of a rafter in the thread-reset state. -/
def resetRafter (s : State) (r : Nat) : State :=
  { s with rafters := { s.rafters with threads := s.rafters.threads.filter (fun e => tidRafter e.1 != r) } }

/-- Forget a rafter's cached pane entries. -/
def dropPanes (s : State) (r : Nat) : State :=
  { s with rafters := { s.rafters with panes := s.rafters.panes.filter (fun p => p.rafter != r) } }

/-- A rafter gets work: it ungates, and from Nap or Off it wakes as a dependency (02 R42, R43; DEDUCED, log 44). -/
def rouse (s : State) (r : Nat) : State := if 2 ≤ domState s r then latchWake s r 7 else ungate s r

/-- Start a parked thread at a pc with its first argument registers; its rafter gets work. -/
def startThread (s : State) (t : Nat) (pc : Dword) (args : List Dword) : State :=
  let x : Thread := { st := .ready, pc := toPc pc }
  let x := (args.zipIdx).foldl (fun x a => x.put (a.2 + 1) a.1) x
  rouse (setThread s t x) (tidRafter t)

/-- Start a bay: every thread reset, PANE_ROOT and RESTORE_PC 0, the boot thread at entry_pc with bay, epoch and reason
(04 R103, 06 R160, R166; RESTORE_PC DEDUCED, log 43). -/
def startBay (s : State) (b reason : Nat) : State :=
  let rs := raftersOf s b
  let s := rs.foldl (fun s r => dropPanes (resetRafter s r) r) s
  let s := setBay s b { bayOf s b with paneRoot := 0, restorePc := 0, quiesced := false }
  startThread s (tidOf (bootRafter s b) 0 0) (BitVec.ofNat 64 (bayOf s b).entryPc)
    [BitVec.ofNat 64 b, BitVec.ofNat 64 (getF s Fld.thatchBayEpoch b), BitVec.ofNat 64 reason]

/-- Clear the shared bits of a bay's rafters (05 R134). -/
def clearShared (s : State) (b : Nat) : State :=
  let rs := raftersOf s b
  { s with rafters := { s.rafters with shared := Tab.keep (fun k => !rs.contains (k / 65536)) s.rafters.shared } }

/-- Clear the event flags of a bay (05 R134). -/
def clearFlags (s : State) (b : Nat) : State :=
  { s with rafters := { s.rafters with flags := Tab.keep (fun k => k / 1024 != b) s.rafters.flags } }

/-- Stop every thread of a bay (04 R113). -/
def stopBay (s : State) (b : Nat) : State :=
  (raftersOf s b).foldl (fun s r =>
    (List.range 128).foldl (fun s i => setThread s (128 * r + i) { threadOf s (128 * r + i) with st := .stopped, block := none, wait := none, loads := [], badLoads := [] }) s) s

/-- A rafter has left Off (06 R164): its threads are lost, and thread 0 of core 0 starts at RESTORE_PC if that is set. -/
def restoreRafter (s : State) (r : Nat) : State :=
  let s := dropPanes (resetRafter s r) r
  match bayOfRafter s r with
  | none => s
  | some b =>
    let pc := (bayOf s b).restorePc
    if pc = 0 then s
    else startThread s (tidOf r 0 0) pc
        [BitVec.ofNat 64 b, BitVec.ofNat 64 (getF s Fld.thatchBayEpoch b), 4, BitVec.ofNat 64 r]

/-! ### Trace packets of a rafter (15 R431, Table 15.3) -/

/-- Whether a rafter source traces a thread's core. -/
def traced (s : State) (t : Nat) : Bool :=
  flagF s Fld.gutSrcEnable (t / 512) && bitN (getF s Fld.gutSrcCoreMask (t / 512)) (tidCore t)

/-- ITRACE: kind 0 branch, 1 trap, 2 interrupt, 3 ERET. -/
def itrace (s : State) (t kind cause : Nat) (from_ to_ : Dword) : State :=
  if traced s t && (kind != 0 || flagF s Fld.gutSrcItraceBr (t / 512)) then
    offer s (t / 512) 0x01 (leBytes 2 t ++ leBytes 1 kind ++ leBytes 1 cause ++ leBytes 4 0 ++ leBytes 8 from_.toNat ++
      leBytes 8 to_.toNat ++ leBytes 8 0)
  else s

/-- DTRACE: kind 0 load, 1 store, 2 atomic. -/
def dtrace (s : State) (t kind size addr : Nat) (v : Dword) : State :=
  let on := if kind = 0 then flagF s Fld.gutSrcDtraceLd (t / 512) else flagF s Fld.gutSrcDtraceSt (t / 512)
  if traced s t && on then
    offer s (t / 512) 0x02 (leBytes 2 t ++ leBytes 1 kind ++ leBytes 1 size ++ leBytes 4 0 ++ leBytes 8 addr ++
      leBytes 8 v.toNat ++ leBytes 8 0)
  else s

/-! ### Traps and interrupts -/

/-- Causes of 06 Table 6.7. -/
def causeIllegal : Nat := 0x01
def causeMisalign : Nat := 0x02
def causePaneFault : Nat := 0x03
def causeBitFault : Nat := 0x04
def causeBounds : Nat := 0x05
def causeCpAbsent : Nat := 0x06
def causeCpFault : Nat := 0x07
def causeSwtrap : Nat := 0x08
def causeBreak : Nat := 0x09
def causeMemError : Nat := 0x0A
def causeRemote : Nat := 0x0B
def causeXthread : Nat := 0x0C

/-- What a trap records. -/
structure TrapInfo where
  cause : Nat
  v0 : Dword := 0
  v1 : Dword := 0
  v2 : Dword := 0
  v3 : Dword := 0
deriving DecidableEq, Repr

/-- A thread with a trap's frame written (06 R180, R182). -/
def Thread.frame (t : Thread) (k : TrapInfo) (saved : Dword) : Thread :=
  { t with epc := saved, cause := k.cause, tval0 := k.v0, tval1 := k.v1, tval2 := k.v2, tval3 := k.v3 }

/-- A thread that enters its handler (06 R180). -/
def Thread.enter (t : Thread) (k : TrapInfo) (saved : Dword) : Thread :=
  { t.frame k saved with prevIe := t.ie, ie := false, inTrap := true, pc := toPc t.tvec, st := .ready, block := none, wait := none }

/-- Whether any thread of a bay is halted (06 R183). -/
def bayFaulted (s : State) (b : Nat) : Bool :=
  s.rafters.threads.any (fun e => decide (e.2.st = .halted) && (envOf s b).rafterMask / 2 ^ tidRafter e.1 % 2 == 1)

/-- The bay resets of the last 60 s that were issued while the bay was faulted (06 R183). -/
def recentResets (s : State) (b : Nat) : List Nat :=
  (Tab.get [] s.ridge.bayResets b).filter (fun t => decide (s.ftime < t + 60000000000))

/-- A thread halts: its frame is written, event flag 1,023 set, the halt counted and BAY_FAULT raised (06 R182), and Tarp mode
entered where the bay fault remains (06 R183). -/
def haltThread (s : State) (t : Nat) (k : TrapInfo) (saved : Dword) : State :=
  let x := threadOf s t
  let s := setThread s t { x.frame k saved with haltDouble := true, st := .halted, block := none, wait := none }
  let b := (bayOfTid s t).getD 0xFF
  let s := bump s Fld.thatchBayFaultCnt 0
  let s := raiseD s none { code := 0x0106, bay := b, aux8 := k.cause, aux16 := t, arg0 := saved.toNat, arg1 := k.v0.toNat }
  let s := if b < 64 then setFlag s b 1023 else s
  if 3 ≤ (recentResets s b).length then tarpEnter s 4 else s

/-- Take a trap that saves a given pc (06 R180, R182). -/
def trapAt (s : State) (t : Nat) (k : TrapInfo) (saved : Dword) : State :=
  let x := threadOf s t
  let s := itrace s t 1 k.cause x.pc x.tvec
  if x.inTrap ∨ x.tvec = 0 then haltThread s t k saved else setThread s t (x.enter k saved)

/-- Take a trap of the instruction at pc. -/
def trap (s : State) (t : Nat) (k : TrapInfo) : State := trapAt s t k (threadOf s t).pc

/-- Take an interrupt: its saved pc is that of the instruction not yet begun (06 R179, R180). Only a trap halts a thread. -/
def interrupt (s : State) (t : Nat) (k : TrapInfo) : State :=
  let x := threadOf s t
  setThread (itrace s t 2 k.cause x.pc x.tvec) t (x.enter k x.pc)

/-! ### Pending interrupts (06 R177) -/

/-- A bit of the bit address space as a thread reads it, without its access check (05 Table 5.2). -/
def bitValue (s : State) (t n : Nat) : Bool :=
  if n < 0x100 then (threadOf s t).priv.getLsbD n
  else if 0x10000 ≤ n ∧ n < 0x20000 then Tab.get false s.rafters.shared (65536 * tidRafter t + (n - 0x10000))
  else if globalBit n then readGlobal s n
  else false

/-- Whether INT_TIMER, INT_BIT, INT_STRIKE, INT_STORE_ERR is pending: cause 0x10 + c. -/
def intPending (s : State) (t c : Nat) : Bool :=
  let x := threadOf s t
  match c with
  | 0 => x.tdeadline != 0 && decide (x.tdeadline.toNat ≤ s.ftime)
  | 1 => x.ibit.getLsbD 63 && bitValue s t (x.ibit.toNat % 2 ^ 24)
  | 2 => x.intStrike
  | _ => x.intStore.isSome

/-- IPEND. -/
def ipend (s : State) (t : Nat) : Nat :=
  ((List.range 4).map (fun c => if intPending s t c then 2 ^ c else 0)).sum

/-- The interrupt a thread can take now, lowest code first (06 R179). -/
def takeable (s : State) (t : Nat) : Option Nat :=
  let x := threadOf s t
  if x.ie && !x.inTrap then (List.range 4).find? (fun c => x.imask.getLsbD c && intPending s t c) else none

/-- What an interrupt records (06 Table 6.7). -/
def intInfo (s : State) (t c : Nat) : TrapInfo :=
  let x := threadOf s t
  match c with
  | 0 => { cause := 0x10, v0 := x.tdeadline }
  | 1 => { cause := 0x11, v0 := BitVec.ofNat 64 (x.ibit.toNat % 2 ^ 24) }
  | 2 => { cause := 0x12, v0 := BitVec.ofNat 64 ((bayOfTid s t).getD 0) }
  | _ =>
    match x.intStore with
    | some (a, st) => { cause := 0x13, v0 := BitVec.ofNat 64 a, v1 := BitVec.ofNat 64 st }
    | none => { cause := 0x13 }

/-- A latched interrupt clears when it is taken (06 R177). -/
def clearLatch (s : State) (t c : Nat) : State :=
  let x := threadOf s t
  if c = 2 then setThread s t { x with intStrike := false }
  else if c = 3 then setThread s t { x with intStore := none }
  else s

/-- The remaining timeout of a WAIT, rounded up and never less than 1; 0 without a timeout (05 R148). -/
def waitLeft (s : State) (w : Wait) : Nat :=
  match w.deadline with
  | none => 0
  | some d => Nat.max 1 (d - s.ftime)

/-- Take the interrupt of a code now: a waiting thread's rd takes its remaining timeout, and the WAIT's pc is saved
(05 R148, 06 R179). -/
def takeInt (s : State) (t c : Nat) : State :=
  let x := threadOf s t
  let s := match x.wait with
    | some w => setThread s t { x.put w.rd (BitVec.ofNat 64 (waitLeft s w)) with wait := none, st := .ready }
    | none => s
  let k := intInfo s t c
  interrupt (clearLatch s t c) t k

end Sys2Proof.Machine
end

