-- ==== Sys2Proof/Machine/Domains.lean ====
section
/-! DEFINITION. The fast domains (02 R36 to R45, R465): when each is idle, how it enters Doze, Nap and Off, what it loses in
Off, and how it wakes. -/

namespace Sys2Proof.Machine

/-! ### Idleness and limits -/

/-- The Truss pipeline a copy waits for (09 R247). -/
def copyPipe (s : State) (c : Copy) : Nat :=
  if c.port < 64 then getF s Fld.trussPortCfgPipe c.port else getF s Fld.trussCtlLoopPipe 0

/-- Whether any link is up. -/
def anyLinkUp (s : State) : Bool := (List.range 16).any (linkUp s)

/-- Whether any external sub-port is up. -/
def anyPortUp (s : State) : Bool := !s.truss.portsUp.isEmpty

/-- Whether a domain is idle (02 Table 2.1). -/
def domIdle (s : State) (d : Nat) : Bool :=
  if d < 64 then rafterIdle s d
  else if d = 64 then !s.truss.copies.any (fun e => e.2.stage == 2)
  else if d < 73 then !s.truss.copies.any (fun e => e.2.stage == 0 && copyPipe s e.2 == d - 65)
  else if d = 73 then s.loft.reqs.all (fun e => e.2.kind != 1)
  else if d = 74 then (List.range 79).all (fun k => k == 74 || decide (2 ≤ domState s k))
  else if d = 75 then !anyLinkUp s
  else if d = 76 then !anyPortUp s
  else if d = 77 then s.ul.copy.isNone && s.ul.drain.isNone
  else (List.range 4).all (fun c => !flagF s Fld.gutChCtlEnable c)

/-- Whether a port or link that is up limits a domain to Doze (02 Table 2.1, R38). -/
def domLimited (s : State) (d : Nat) : Bool :=
  if d = 64 ∨ d = 76 then anyPortUp s
  else if 65 ≤ d ∧ d < 73 then s.truss.portsUp.any (fun p => getF s Fld.trussPortCfgPipe p == d - 65)
  else d == 75 && anyLinkUp s

/-- Whether a domain stands still in one of its states while the Ridge leaves it to itself. -/
def domStable (s : State) (d : Nat) : Bool :=
  decide ((domOf s d).phase = .stable ∧ s.ridge.roof = .awake) && (domOf s d).enabled

/-! ### What a domain loses in Off (02 Table 2.1, R466) -/

/-- Forget the packets for which `p` holds. -/
def dropCopies (s : State) (p : Copy → Bool) : State :=
  { s with truss := { s.truss with copies := s.truss.copies.filter (fun e => !p e.2) } }

/-- Forget what the Gutter's trace buffer holds; an enabled channel runs again once the domain does (15 R433). -/
def gutterOff (s : State) : State :=
  (List.range 4).foldl (fun s c =>
    let s := setChan s c { chanOf s c with pkts := [], ovf := none }
    let s := if getF s Fld.gutChStatState c = 1 then setF s Fld.gutChStatState c 0 else s
    chanSettle (setF s Fld.gutChStatOvfPending c 0) c) s

/-- With the Gutter's domain in Run, its enabled channels run (15 R433). -/
def gutterRun (s : State) : State :=
  if domState s 78 ≠ 0 ∨ (domOf s 78).phase ≠ .stable then s
  else
    (List.range 4).foldl (fun s c =>
      if flagF s Fld.gutChCtlEnable c ∧ getF s Fld.gutChStatState c = 0 then setF s Fld.gutChStatState c 1 else s) s

/-- The purlin's rail goes down: HBM and the telemetry bank are lost (02 Table 2.1, 15 R440, R441). -/
def purlinOff (s : State) : State :=
  let s := loseMem s (fun a => within a 1 hbmStart (96 * gib))
  { s with gut := { s.gut with late := [], adm := [] } }

/-- What goes with a domain's rail. -/
def loseDomain (s : State) (d : Nat) : State :=
  if d < 64 then loseMem (dropPanes (resetRafter s d) d) (fun a => within a 1 (d * 0x200000) 0x200000)
  else if d = 64 then dropCopies s (fun c => c.stage == 2)
  else if d < 73 then dropCopies s (fun c => c.stage == 0 && copyPipe s c == d - 65)
  else if d = 73 then
    let s := loseMem s (fun a => within a 1 0x8000000 0x8000000)
    setReg (setReg { s with loft := { s.loft with bias := [] } } .loftBiasLoadedLo 0 0) .loftBiasLoadedHi 0 0
  else if d = 74 then purlinOff s
  else if d = 75 then nawynOff s
  else if d = 76 then { s with truss := { s.truss with fdb := s.truss.fdb.filter (fun e => e.2.static), learnQ := [] } }
  else if d = 78 then gutterOff s
  else s

/-- A domain is Off: its state is lost and its Off request clears (02 R465). -/
def domOff (s : State) (d : Nat) : State :=
  let s := loseDomain s d
  let s := setF s Fld.pwrDomStatCurState d 3
  let s := setF s Fld.pwrDomStatInTransition d 0
  let s := setF s Fld.pwrDomStatOffPending d 0
  setDom s d { domOf s d with phase := .stable }

/-- The fast domains other than the purlin. -/
def otherDoms : List Nat := (List.range 79).filter (fun d => d != 74)

/-! ### Waking -/

/-- The Ridge starts domains (02 R36), and the purlin with them (02 R39). -/
def startDomains (s : State) (ds : List Nat) : State :=
  let s := ds.foldl startOne (startOne s purlin)
  ds.foldl (fun s d => if d ≠ purlin ∧ (domOf s d).phase = .waking then latchOne s purlin 7 else s) s

/-- A domain leaves Off: what it held is undefined, and restore_needed says so (02 R40); a rafter's threads are reset and its
CYCLE starts (06 R164, 05 Table 5.14); enabled Nawyn links train (11 R325);
the Loft's bias sets are lost (12 R375). -/
def leaveOff (s : State) (d : Nat) : State :=
  let s := setF s Fld.pwrDomStatRestoreNeeded d 1
  if d < 64 then
    restoreRafter { s with rafters := { s.rafters with cycleBase := Tab.store 0 s.rafters.cycleBase d s.ftime } } d
  else if d = 73 then raiseD s srcLoft { code := 0x0704 }
  else if d = 75 then
    (List.range 16).foldl (fun s l => if flagF s Fld.nawynLinkCfgEnable l then setF s Fld.nawynLinkStatState l 1 else s) s
  else s

/-- A waking domain reaches Run (02 R40, R43). -/
def wakeDone (s : State) (d : Nat) : State :=
  let off := decide (domState s d = 3)
  let s := reachRun s d
  let s := if d = 78 then gutterRun s else s
  if off then leaveOff s d else s

/-- Bring a domain that the Ridge has started up at once, where something that has happened needed it in Run (DEDUCED,
log 44: the wake time itself is not modelled). -/
def wakeNow (s : State) (d : Nat) : State :=
  if domState s d = 0 ∧ (domOf s d).phase = .stable then s
  else
    let s := latchOne s d 7
    if domState s d = 0 ∧ (domOf s d).phase = .stable then s else wakeDone s d

/-- Start a bay on rafters that run (04 R103, 06 R160). -/
def startBayUp (s : State) (b reason : Nat) : State := startBay (wakeNow (wakeNow s purlin) (bootRafter s b)) b reason

/-! ### The commands -/

/-- DOZE_ENTRY: an idle domain gates its clock (02 R37). -/
def execDozeEntry (d : Nat) (s : State) : Host.Outcome State Fault Refusal :=
  .next
    (if d < 79 && domStable s d && decide (domState s d = 0) && domIdle s d && decide (0 < getF s Fld.pwrDomCtlIdleFloor d) then
      setDom (setF s Fld.pwrDomStatCurState d 1) d { domOf s d with dozeSince := s.ftime }
    else s)

/-- NAP_DELAY_EXPIRY: a domain idle in Doze for nap_delay_us begins Nap entry (02 R37, R38, Table 2.4). -/
def execNapDelayExpiry (d : Nat) (s : State) : Host.Outcome State Fault Refusal :=
  .next
    (if d < 79 && domStable s d && decide (domState s d = 1) && domIdle s d &&
        decide (getF s Fld.pwrDomCtlIdleFloor d = 2) && !domLimited s d then
      let s := reach s ((domOf s d).dozeSince + getF s Fld.pwrDomCtlNapDelayUs d * 1000)
      setDom (setF s Fld.pwrDomStatInTransition d 1) d { domOf s d with phase := .entry false }
    else s)

/-- OFF_ENTRY_START: a pending off_req begins Off entry once the domain is idle (02 R465). -/
def execOffEntryStart (d : Nat) (s : State) : Host.Outcome State Fault Refusal :=
  .next
    (if d < 79 && d != 74 && domStable s d && decide (domState s d ≠ 3) && flagF s Fld.pwrDomStatOffPending d && domIdle s d then
      setDom (setF s Fld.pwrDomStatInTransition d 1) d { domOf s d with phase := .entry true }
    else s)

/-- QUIESCE_DONE: the point of no return (02 Table 2.4 step 3, R44). -/
def execQuiesceDone (d : Nat) (s : State) : Host.Outcome State Fault Refusal :=
  .next
    (if d < 79 && decide (s.ridge.roof = .awake) then
      match (domOf s d).phase with
      | .entry toOff => setDom s d { domOf s d with phase := .past toOff false }
      | _ => s
    else s)

/-- POWER_DOWN_DONE: the domain is in Nap or Off; a wake latched since begins at once (02 Table 2.4 step 4, R45). -/
def execPowerDownDone (d : Nat) (s : State) : Host.Outcome State Fault Refusal :=
  .next
    (if d < 79 && decide (s.ridge.roof = .awake) then
      match (domOf s d).phase with
      | .past toOff woken =>
        let s := if toOff then domOff s d
          else setDom (setF (setF s Fld.pwrDomStatCurState d 2) Fld.pwrDomStatInTransition d 0) d { domOf s d with phase := .stable }
        if woken then
          let s := setF (setDom s d { domOf s d with phase := .waking }) Fld.pwrDomStatInTransition d 1
          if d = purlin then s else latchOne s purlin 7
        else s
      | _ => s
    else s)

/-- DOMAIN_WAKE_DONE: a woken domain reaches Run, once the purlin has (02 R39, R43). -/
def execDomainWakeDone (d : Nat) (s : State) : Host.Outcome State Fault Refusal :=
  .next
    (if d < 79 && decide ((domOf s d).phase = .waking ∧ s.ridge.roof = .awake) && (d == 74 || domUp s purlin || !(domOf s 74).enabled) then wakeDone s d
    else s)

end Sys2Proof.Machine
end

