-- ==== Sys2Proof/Machine/Resets.lean ====
section
/-! DEFINITION. Resets and clock sources (02 R33, R34, R51, R52, R466; 16 R455 to R457), the boot loop's backoff (02 R55, R56)
and the end of Tarp entry (02 R60). -/

namespace Sys2Proof.Machine

/-! ### Warm and cold reset -/

/-- Registers that a warm reset keeps whole (02 R51, 16 R456): BOOT_ATTEMPTS, PWR_BOOT_ORDER, PWR_ROOF_WAKE_EN and the 64-bit
counters of the PWR block. -/
def stickyRegs : List Reg :=
  [Reg.bootAttempts, Reg.pwrBootOrder, Reg.pwrRoofWakeEn, Reg.pwrNapAbortCnt, Reg.pwrWakeAfterPnrCnt, Reg.pwrTarpEntryCnt,
   Reg.pwrTarpDiscardCnt, Reg.pwrRoofEntryCnt, Reg.pwrRoofAbortCnt, Reg.pwrClkFailCnt, Reg.pwrDeniedCnt, Reg.pwrBoardPgCnt,
   Reg.pwrWarmRstCnt, Reg.pwrChainErrCnt, Reg.pwrChainTimeoutCnt, Reg.pwrConFrameCnt, Reg.pwrConOverrunCnt,
   Reg.pwrConBreakCnt, Reg.pwrThrottleCnt, Reg.pwrAccFaultCnt]

/-- Fields that a warm reset keeps: sticky ones (02 R51), the clock source in use, and what shows a pin (03 R66, R89, 07
R203). -/
def stickyFields : List (Fld × Nat) :=
  [(Fld.pwrStateTarpCause, 0), (Fld.pwrStateTarpSeen, 0), (Fld.pwrStateClkSrc, 0), (Fld.pwrChainAddrEnIn, 0),
   (Fld.pwrThermStatTripped, 0), (Fld.identEpDstatePerst, 0), (Fld.identEpDstatePerst, 1)]

/-- The accelerator outputs after a warm reset (03 R94): every RST_N low, every PWR_EN as it was; a powered one is held in
reset, state 2. PG shows its pin. -/
def accKept (s : State) (n : Nat) : Nat :=
  (if flagF s Fld.pwrAccStatPwrEn n then 2 + 16 else 0) + if flagF s Fld.pwrAccStatPg n then 8 else 0

/-- What stays in memory at a device reset: what the device has written to host windows. -/
def hostCells (s : State) : List Host.Cell :=
  s.mem.filter (fun e => match classOf e.1 with | some c => c.isHost | none => false)

/-- A warm reset (02 Table 2.7, R51): sticky fields, fabric time and what the fuses and the board fix stay; everything else
returns to its reset value, memory contents are lost. -/
def warmReset (s : State) : State :=
  let r : Ridge := { detecting := flagF s Fld.pwrStateClkSrc 0, resetLow := s.ridge.resetLow, pgLow := s.ridge.pgLow, wakeN := s.ridge.wakeN }
  let st : Storage := { revoked := s.stor.revoked, fuseFloor := s.stor.fuseFloor }
  let n : State := { ftime := s.ftime, freeCtr := s.freeCtr, memEpoch := s.memEpoch + 1, mem := hostCells s, ridge := r, thatch := { ddrGiB := s.thatch.ddrGiB }, stor := st, nawyn := { frac := s.nawyn.frac }, out := s.out, pending := s.pending }
  let n := stickyRegs.foldl (fun n g => setReg n g 0 (getReg s g 0)) n
  let n := stickyFields.foldl (fun n f => setF n f.1 f.2 (getF s f.1 f.2)) n
  (List.range 16).foldl (fun n k => setReg n .pwrAccStat k (BitVec.ofNat 64 (accKept s k))) n

/-- A warm reset from RESET_N, BOARD_PG or a RESET_WARM command, counted (16 R456). -/
def warmResetCounted (s : State) : State := bump (warmReset s) Fld.pwrWarmRstCnt 0

/-- Whether the device is held in reset. -/
def inReset (s : State) : Bool := s.ridge.por || s.ridge.resetLow || s.ridge.pgLow

/-- A reset has ended: a new boot cycle begins at slot 0, once crystal detection is over (02 R51, 16 R455). -/
def resetEnd (s : State) : State := if inReset s || s.ridge.detecting then s else startCycle s

/-- The state after power has been lost: the cold reset that follows is held in power-on reset (16 R455, R457). -/
def coldReset (s : State) : State :=
  { freeCtr := s.freeCtr, memEpoch := s.memEpoch + 1, mem := hostCells s, ridge := { por := true }, thatch := { ddrGiB := s.thatch.ddrGiB }, stor := { revoked := s.stor.revoked, fuseFloor := s.stor.fuseFloor }, out := s.out, pending := s.pending }

/-- RESET_WARM, by the chain or a mailbox: a warm reset that ends at once (03 R74). -/
def resetWarmCmd (s : State) : State := resetEnd (warmResetCounted s)

/-- Whether the cold start has not yet reached its first boot attempt: a low RESET_N is then part of the cold reset (16 R455). -/
def coldStart (s : State) : Bool := getF s Fld.bootAttempts 0 == 0

/-- POWER_ON_RESET_EXIT (16 R455). -/
def execPowerOnResetExit (s : State) : Host.Outcome State Fault Refusal :=
  .next (if s.ridge.por then { s with ridge := { s.ridge with por := false, detecting := true, spiResetHigh := false, wakeN := (false, false) } } else s)

/-- POWER_LOSS: the device returns through cold reset (16 R457). -/
def execPowerLoss (s : State) : Host.Outcome State Fault Refusal := .next (coldReset s)

/-- CRYSTAL_DETECTION_DONE: 45,000 to 55,000 edges mean a crystal; the first cycle begins where no pin holds it (02 R33, R51,
16 R455). -/
def execCrystalDetectionDone (edges : Nat) (s : State) : Host.Outcome State Fault Refusal :=
  .next
    (if s.ridge.detecting && !s.ridge.por then
      let s := { s with ridge := { s.ridge with detecting := false } }
      resetEnd (setF s Fld.pwrStateClkSrc 0 (if 45000 ≤ edges ∧ edges ≤ 55000 then 0 else 1))
    else s)

/-- CRYSTAL_FAIL (02 R34). -/
def execCrystalFail (s : State) : Host.Outcome State Fault Refusal :=
  .next
    (if s.ridge.detecting || s.ridge.por || flagF s Fld.pwrStateClkSrc 0 then s
    else
      let s := bump (setF s Fld.pwrStateClkSrc 0 1) Fld.pwrClkFailCnt 0
      raiseD s srcRidge { code := 0x0001, aux8 := 1, arg0 := getF s Fld.pwrClkFailCnt 0 })

/-- RESET_N_ASSERT: recognised as a warm reset (16 R456); during a cold start, part of the cold reset (16 R455); with
BOARD_PG low already, part of the same warm reset. -/
def execResetNAssert (s : State) : Host.Outcome State Fault Refusal :=
  .next
    (if s.ridge.por || s.ridge.resetLow then s
    else
      let held := s.ridge.pgLow
      let s := { s with ridge := { s.ridge with resetLow := true } }
      if held || coldStart s then s else warmResetCounted s)

/-- BOARD_PG_FALL: acts as RESET_N held low while it stays low (16 R456). -/
def execBoardPgFall (s : State) : Host.Outcome State Fault Refusal :=
  .next
    (if s.ridge.por || s.ridge.pgLow then s
    else
      let held := s.ridge.resetLow
      let s := bump { s with ridge := { s.ridge with pgLow := true } } Fld.pwrBoardPgCnt 0
      if held || coldStart s then s else warmResetCounted s)

/-- RESET_N_RISE (02 R51). -/
def execResetNRise (s : State) : Host.Outcome State Fault Refusal :=
  .next (if s.ridge.resetLow then resetEnd { s with ridge := { s.ridge with resetLow := false } } else s)

/-- BOARD_PG_RISE (16 R456). -/
def execBoardPgRise (s : State) : Host.Outcome State Fault Refusal :=
  .next (if s.ridge.pgLow then resetEnd { s with ridge := { s.ridge with pgLow := false } } else s)

/-! ### Bay reset (02 R52) -/

/-- A bay reset begins: the bay's threads are reset, its rafters' SRAM is undefined, its shared bits are 0 (02 R52, R466, 05
R134); one issued while the bay is faulted counts for 06 R183. -/
def bayResetStart (s : State) (b : Nat) : State :=
  let rs := raftersOf s b
  let s := if bayFaulted s b then
      { s with ridge := { s.ridge with bayResets := Tab.put s.ridge.bayResets b (s.ftime :: recentResets s b) } }
    else s
  let s := rs.foldl (fun s r => loseMem (dropPanes (resetRafter s r) r) (fun a => within a 1 (r * 0x200000) 0x200000)) s
  let s := clearShared s b
  let s := if (bayOf s b).struck then stopBay s b else s
  { s with ridge := { s.ridge with resetting := insertNat b s.ridge.resetting } }

/-- BAY_RESET_DONE: firmware starts with reason 5; that of a struck bay starts when its strike ends (02 R52, 04 R103). -/
def execBayResetDone (bay : Nat) (s : State) : Host.Outcome State Fault Refusal :=
  .next
    (if s.ridge.resetting.contains bay then
      let s := { s with ridge := { s.ridge with resetting := s.ridge.resetting.filter (· != bay) } }
      let s := if (bayOf s bay).struck then s else startBayUp s bay 5
      raiseD s srcRidge { code := 0x0005, bay := bay }
    else s)

/-! ### The boot loop and Tarp mode -/

/-- Whether the Ridge may begin an attempt (02 R60, 16 R462). -/
def bootHeld (s : State) : Bool := flagF s Fld.pwrStateThermalHold 0 || flagF s Fld.pwrThermStatTripped 0 || inReset s

/-- BACKOFF_EXPIRY (02 R55). -/
def execBackoffExpiry (s : State) : Host.Outcome State Fault Refusal :=
  .next
    (match s.ridge.backoffEnd with
     | some t => if bootHeld s || mode s == 1 then s else startCycle (reach s t)
     | none => s)

/-- PWR_CTL.boot_now: ends a running backoff at once (02 R56). -/
def bootNow (s : State) : State :=
  if mode s = 1 ∨ bootHeld s = true then s
  else if s.ridge.backoffEnd.isSome then startCycle s else s

/-- Whether the bare port passes frames (02 R58; for network boot outside Tarp mode DEDUCED, log 45). -/
def barePortUp (s : State) : Bool :=
  s.ridge.barePort || (match s.ridge.attempt with | some a => a.src == 4 | none => false)

/-- TARP_ENTRY_DONE: domains, HBM and the purlin are down, the bare port is up, and from Normal mode a new cycle begins (02
Table 2.10 step 4, R58, R60). -/
def execTarpEntryDone (s : State) : Host.Outcome State Fault Refusal :=
  .next
    (match s.ridge.tarpEntry with
     | none => s
     | some normal =>
       if !s.rings.ops.isEmpty then s
       else
         let s := (otherDoms ++ [74]).foldl (fun s d => let s := domOff s d; setDom s d { domOf s d with enabled := false }) s
         let s := { s with truss := { s.truss with portsUp := [] }, ridge := { s.ridge with tarpEntry := none, barePort := true, resetting := [] } }
         if normal then startCycle s else s)

end Sys2Proof.Machine
end

