-- ==== Sys2Proof/Machine/Roof.lean ====
section
/-! DEFINITION. Roof Sleep (02 R47 to R50, Tables 2.5, 2.6; 04 R120). -/

namespace Sys2Proof.Machine

/-- Change where Roof Sleep stands. -/
def setRoof (s : State) (r : Roof) : State := { s with ridge := { s.ridge with roof := r } }

/-- Whether an endpoint is in D3hot or D3cold. -/
def epInD3 (s : State) (e : Nat) : Bool :=
  getF s Fld.identEpDstateDstate e == 3 || flagF s Fld.identEpDstatePerst e

/-- The conditions of R47 and R120. -/
def roofConditions (s : State) : Bool :=
  epInD3 s 0 && epInD3 s 1 &&
  (List.range 64).all (fun r => decide (2 ≤ domState s r ∧ (domOf s r).phase = .stable)) &&
  s.rings.ops.isEmpty && s.ul.copy.isNone && s.ul.drain.isNone &&
  flagF s Fld.pwrStateRoofAllowed 0 && mode s == 1 && getF s Fld.thatchStatPhase 0 == 0

/-- Drive the wake signals at a Roof Sleep exit (02 R50). -/
def roofSignal (s : State) (bit ep : Nat) : State :=
  if flagF s Fld.identEpDstatePerst ep then
    (if flagF s ⟨.pwrRoofWakeEn, 8 + ep, 8 + ep⟩ 0 && bit != 4 + ep then driveWakeN s ep true else s)
  else if getF s Fld.identEpDstateDstate ep = 3 ∧ cfgBit s ep 0 cfgPmcsr 8 = true then
    emit (setFn s ep 0 { fnOf s ep 0 with pmeStatus := true }) (.pme ep 0)
  else s

/-- A Roof Sleep exit begins (02 R49, Table 2.6 step 1). -/
def roofExitBegin (s : State) (bit : Nat) : State :=
  let s := setReg s .pwrRoofWakeSrc 0 (BitVec.ofNat 64 (2 ^ bit))
  roofSignal (roofSignal (setRoof s (.exiting false)) bit 0) bit 1

/-- A domain after an abandoned entry: one that step 2 took to Off wakes without a source; one with a wake latched meanwhile
wakes for it; last_wake_src stays (02 R43, R49). -/
def roofBack (s : State) (offDoms : List Nat) (d : Nat) : State :=
  let off := offDoms.contains d && decide (domState s d ≠ 3 ∧ d ≠ 74)
  let s := if off then domOff s d else s
  let pend := decide ((domOf s d).firstSrc ≠ 0)
  let s := setDom s d { domOf s d with firstSrc := 0 }
  if off then startOne s d
  else if pend && decide (2 ≤ domState s d) then
    setF (setDom s d { domOf s d with phase := .waking }) Fld.pwrDomStatInTransition d 1
  else if pend then setWakePend s d false else s

/-- An enabled wake source of PWR_ROOF_WAKE_EN (02 R49): it abandons the entry, or begins the exit. -/
def roofSource (s : State) (bit : Nat) (offDoms : List Nat) : State :=
  if bit ≤ 6 ∧ bitN (getReg s .pwrRoofWakeEn 0).toNat bit = true then
    match s.ridge.roof with
    | .entry _ =>
      let s := setRoof (bump s Fld.pwrRoofAbortCnt 0) .awake
      (List.range 79).foldl (fun s d => roofBack s offDoms d) s
    | .past none => setRoof s (.past (some bit))
    | .asleep => roofExitBegin s bit
    | _ => s
  else s

/-- Forget the committed thatch of every bay, and every epoch (02 Table 2.6). -/
def discardThatch (s : State) : State :=
  let s := { s with thatch := { ddrGiB := s.thatch.ddrGiB } }
  let s := (List.range 64).foldl (fun s b => setReg (setReg s .thatchBayEpoch b 0) .thatchBayStat b 0) s
  let s := (List.range 4).foldl (fun s i => setReg s .thatchBuildId i 0) s
  let s := setReg (setReg s .thatchLayoutIdLo 0 0) .thatchLayoutIdHi 0 0
  setF s Fld.pwrStateRoofAllowed 0 0

/-- ROOF_SLEEP_CONDITIONS_HELD: entry begins (02 R47, Table 2.5 step 1). -/
def execRoofSleepConditionsHeld (s : State) : Host.Outcome State Fault Refusal :=
  .next
    (if s.ridge.roof = .awake ∧ roofConditions s = true then setRoof s (.entry ((List.range 79).map (domState s))) else s)

/-- ROOF_POINT_OF_NO_RETURN: every other domain is Off, the purlin's rail-down is commanded (02 Table 2.5 steps 2 to 4). -/
def execRoofPointOfNoReturn (s : State) : Host.Outcome State Fault Refusal :=
  .next
    (match s.ridge.roof with
     | .entry _ => setRoof (otherDoms.foldl domOff s) (.past none)
     | _ => s)

/-- ROOF_SLEEP_ENTERED: only the Ridge is powered; a source latched since step 4 begins the exit at once (02 R48, R49). -/
def execRoofSleepEntered (s : State) : Host.Outcome State Fault Refusal :=
  .next
    (match s.ridge.roof with
     | .past first =>
       let s := setRoof (bump (domOff s 74) Fld.pwrRoofEntryCnt 0) .asleep
       (match first with
        | some bit => roofExitBegin s bit
        | none => s)
     | _ => s)

/-- ROOF_WAKE_SOURCE (02 R49). -/
def execRoofWakeSource (bit : Nat) (offDoms : List Nat) (s : State) : Host.Outcome State Fault Refusal :=
  .next (roofSource s bit offDoms)

/-- ROOF_TIMER_EXPIRY (02 Tables 2.11, 2.14). -/
def execRoofTimerExpiry (s : State) : Host.Outcome State Fault Refusal :=
  .next (if s.ridge.roof = .asleep ∧ (getReg s .pwrRoofTimer 0).toNat ≠ 0 then roofSource s 0 [] else s)

/-- ROOF_EXIT_DIGEST_CHECK: a failure discards the thatch and starts the boot loop as after a warm reset (02 Table 2.6). -/
def execRoofExitDigestCheck (ok : Bool) (s : State) : Host.Outcome State Fault Refusal :=
  .next
    (if s.ridge.roof ≠ .exiting false then s
    else if ok then setRoof s (.exiting true)
    else
      let s := loseMem (discardThatch s) (fun a => within a 1 ddrStart 0x40000000000)
      let s := setF (setRoof s .awake) Fld.pwrStateMode 0 0
      let s := (List.range 79).foldl (fun s d => setDom s d { domOf s d with enabled := false }) s
      startCycle { s with ridge := { s.ridge with firstCycle := true, failedCycles := 0 } })

end Sys2Proof.Machine
end

