-- ==== Sys2Proof/Machine/Sha.lean ====
section
/-! DEFINITION. SHA-384 as FIPS 180-4 defines it (04 R104, R106, R108; 14 R419, R423, R427). -/

namespace Sys2Proof.Machine

/-- The round constants of SHA-512, part 0. -/
def shaK0 : List Dword :=
  [0x428A2F98D728AE22, 0x7137449123EF65CD, 0xB5C0FBCFEC4D3B2F, 0xE9B5DBA58189DBBC,
   0x3956C25BF348B538, 0x59F111F1B605D019, 0x923F82A4AF194F9B, 0xAB1C5ED5DA6D8118,
   0xD807AA98A3030242, 0x12835B0145706FBE, 0x243185BE4EE4B28C, 0x550C7DC3D5FFB4E2,
   0x72BE5D74F27B896F, 0x80DEB1FE3B1696B1, 0x9BDC06A725C71235, 0xC19BF174CF692694]

/-- The round constants of SHA-512, part 1. -/
def shaK1 : List Dword :=
  [0xE49B69C19EF14AD2, 0xEFBE4786384F25E3, 0x0FC19DC68B8CD5B5, 0x240CA1CC77AC9C65,
   0x2DE92C6F592B0275, 0x4A7484AA6EA6E483, 0x5CB0A9DCBD41FBD4, 0x76F988DA831153B5,
   0x983E5152EE66DFAB, 0xA831C66D2DB43210, 0xB00327C898FB213F, 0xBF597FC7BEEF0EE4,
   0xC6E00BF33DA88FC2, 0xD5A79147930AA725, 0x06CA6351E003826F, 0x142929670A0E6E70]

/-- The round constants of SHA-512, part 2. -/
def shaK2 : List Dword :=
  [0x27B70A8546D22FFC, 0x2E1B21385C26C926, 0x4D2C6DFC5AC42AED, 0x53380D139D95B3DF,
   0x650A73548BAF63DE, 0x766A0ABB3C77B2A8, 0x81C2C92E47EDAEE6, 0x92722C851482353B,
   0xA2BFE8A14CF10364, 0xA81A664BBC423001, 0xC24B8B70D0F89791, 0xC76C51A30654BE30,
   0xD192E819D6EF5218, 0xD69906245565A910, 0xF40E35855771202A, 0x106AA07032BBD1B8]

/-- The round constants of SHA-512, part 3. -/
def shaK3 : List Dword :=
  [0x19A4C116B8D2D0C8, 0x1E376C085141AB53, 0x2748774CDF8EEB99, 0x34B0BCB5E19B48A8,
   0x391C0CB3C5C95A63, 0x4ED8AA4AE3418ACB, 0x5B9CCA4F7763E373, 0x682E6FF3D6B2B8A3,
   0x748F82EE5DEFB2FC, 0x78A5636F43172F60, 0x84C87814A1F0AB72, 0x8CC702081A6439EC,
   0x90BEFFFA23631E28, 0xA4506CEBDE82BDE9, 0xBEF9A3F7B2C67915, 0xC67178F2E372532B]

/-- The round constants of SHA-512, part 4. -/
def shaK4 : List Dword :=
  [0xCA273ECEEA26619C, 0xD186B8C721C0C207, 0xEADA7DD6CDE0EB1E, 0xF57D4F7FEE6ED178,
   0x06F067AA72176FBA, 0x0A637DC5A2C898A6, 0x113F9804BEF90DAE, 0x1B710B35131C471B,
   0x28DB77F523047D84, 0x32CAAB7B40C72493, 0x3C9EBE0A15C9BEBC, 0x431D67C49C100D4C,
   0x4CC5D4BECB3E42B6, 0x597F299CFC657E2A, 0x5FCB6FAB3AD6FAEC, 0x6C44198C4A475817]

/-- The 80 round constants. -/
def shaK : List Dword := shaK0 ++ (shaK1 ++ (shaK2 ++ (shaK3 ++ (shaK4))))

/-- The initial hash value of SHA-384. -/
def shaInit : List Dword :=
  [0xCBBB9D5DC1059ED8, 0x629A292A367CD507, 0x9159015A3070DD17, 0x152FECD8F70E5939, 0x67332667FFC00B31, 0x8EB44A8768581511, 0xDB0C2E0D64F98FA7, 0x47B5481DBEFA4FA4]

/-- The choice, majority and sigma functions of SHA-512. -/
def shaCh (x y z : Dword) : Dword := (x &&& y) ^^^ (~~~x &&& z)
def shaMaj (x y z : Dword) : Dword := (x &&& y) ^^^ (x &&& z) ^^^ (y &&& z)
def shaS0 (x : Dword) : Dword := x.rotateRight 28 ^^^ x.rotateRight 34 ^^^ x.rotateRight 39
def shaS1 (x : Dword) : Dword := x.rotateRight 14 ^^^ x.rotateRight 18 ^^^ x.rotateRight 41
def shaG0 (x : Dword) : Dword := x.rotateRight 1 ^^^ x.rotateRight 8 ^^^ (x >>> 7)
def shaG1 (x : Dword) : Dword := x.rotateRight 19 ^^^ x.rotateRight 61 ^^^ (x >>> 6)

/-- The message schedule: the last 16 words, newest first, and the schedule so far, newest first. -/
def shaExtend : Nat → List Dword → List Dword
  | 0, w => w
  | n + 1, w =>
    shaExtend n ((shaG1 (w.getD 1 0) + w.getD 6 0 + shaG0 (w.getD 14 0) + w.getD 15 0) :: w)

/-- The working variables a to h. -/
structure ShaVars where
  a : Dword
  b : Dword
  c : Dword
  d : Dword
  e : Dword
  f : Dword
  g : Dword
  h : Dword
deriving DecidableEq, Repr

/-- One round. -/
def shaRound (v : ShaVars) (kw : Dword × Dword) : ShaVars :=
  let t1 := v.h + shaS1 v.e + shaCh v.e v.f v.g + kw.1 + kw.2
  let t2 := shaS0 v.a + shaMaj v.a v.b v.c
  ⟨t1 + t2, v.a, v.b, v.c, v.d + t1, v.e, v.f, v.g⟩

/-- A 128-byte block as 16 words. -/
def shaWords (block : List Byte) : List Dword := (List.range 16).map (fun i => BitVec.ofNat 64 (beAt block (8 * i) 8))

/-- The compression of one block into a hash value. -/
def shaBlock (h : List Dword) (block : List Byte) : List Dword :=
  let w := (shaExtend 64 (shaWords block).reverse).reverse
  let v0 : ShaVars := ⟨h.getD 0 0, h.getD 1 0, h.getD 2 0, h.getD 3 0, h.getD 4 0, h.getD 5 0, h.getD 6 0, h.getD 7 0⟩
  let v := (List.zip shaK w).foldl shaRound v0
  List.zipWith (· + ·) h [v.a, v.b, v.c, v.d, v.e, v.f, v.g, v.h]

/-- The padding that follows a message of `n` bytes. -/
def shaPad (n : Nat) : List Byte := 0x80 :: List.replicate ((111 + 128 - n % 128) % 128) 0 ++ beBytes 16 (8 * n)

/-- Compress the blocks of a padded message. -/
def shaBlocks : Nat → List Dword → List Byte → List Dword
  | 0, h, _ => h
  | n + 1, h, m => shaBlocks n (shaBlock h (m.take 128)) (m.drop 128)

/-- The SHA-384 digest of a byte string. -/
def sha384 (m : List Byte) : List Byte :=
  let p := m ++ shaPad m.length
  ((shaBlocks (p.length / 128) shaInit p).take 6).flatMap (fun x => beBytes 8 x.toNat)

end Sys2Proof.Machine
end

