-- ==== Sys2Proof/Machine/ThatchImage.lean ====
section
/-! DEFINITION. The thatch image (04 R95 to R107): its header, directory and sections as bytes, and the checks of Table 4.11
on them. -/

namespace Sys2Proof.Machine

/-! ### Header and directory -/

/-- A directory entry (04 Table 4.2). -/
structure Section where
  typ : Nat
  bay : Nat
  slab : Nat
  format : Nat
  off : Nat
  len : Nat
  reserved : Bool
deriving DecidableEq, Repr

/-- Directory entry `i` of an image. -/
def sectionAt (img : List Byte) (i : Nat) : Section :=
  let e := (img.drop (0x100 + 32 * i)).take 32
  { typ := leAt e 0 2, bay := leAt e 2 1, slab := leAt e 3 1, format := leAt e 4 2, off := leAt e 8 8, len := leAt e 16 8, reserved := zeroAt e 6 2 && zeroAt e 24 8 }

/-- Header fields (04 Table 4.1). -/
def imgSize (img : List Byte) : Nat := leAt img 0x08 8
def imgKind (img : List Byte) : Nat := leAt img 0x10 1
def imgFlags (img : List Byte) : Nat := leAt img 0x11 1
def imgCount (img : List Byte) : Nat := leAt img 0x12 2
def imgBay (img : List Byte) : Nat := leAt img 0x19 1
def imgSvn (img : List Byte) : Nat := leAt img 0x1C 4
def imgEpoch (img : List Byte) : Nat := leAt img 0x20 4
def imgLayout (img : List Byte) : Nat := leAt img 0x28 8

/-- The sections of an image. -/
def imgSections (img : List Byte) : List Section := (List.range (imgCount img)).map (sectionAt img)

/-- The content of a section. -/
def sectionBytes (img : List Byte) (x : Section) : List Byte := (img.drop x.off).take x.len

/-- The section of a type and bay. -/
def findSection (img : List Byte) (typ bay : Nat) : Option Section :=
  (imgSections img).find? (fun x => x.typ == typ && x.bay == bay)

/-- The content of the section of a type and bay; empty where there is none. -/
def contentOf (img : List Byte) (typ bay : Nat) : List Byte :=
  match findSection img typ bay with
  | some x => sectionBytes img x
  | none => []

/-- Whether a load is the full load of a boot, or the reload of a bay with its THATCH_SRC_LEN. -/
inductive LoadKind where
  | boot
  | reload (bay len : Nat)
deriving DecidableEq, Repr

/-- Check 2: the header (04 R96, Table 4.11). -/
def headerOk (k : LoadKind) (img : List Byte) : Bool :=
  leAt img 0 4 == 0x3148544B && leAt img 4 2 == 1 && leAt img 6 2 == 0x100 && decide (imgKind img ≤ 1) &&
  decide (imgFlags img < 4) && decide (1 ≤ imgCount img ∧ imgCount img ≤ 1024) &&
  zeroAt img 0x1A 2 && zeroAt img 0x24 4 && zeroAt img 0x40 192 &&
  imgSize img % 64 == 0 && decide (imgSize img ≤ 0x40000000) && imgSize img == img.length &&
  (if imgKind img = 0 then imgBay img == 0xFF else imgFlags img == 0 && decide (imgBay img < 64)) &&
  (match k with
   | .boot => imgKind img == 0
   | .reload b n => imgKind img == 1 && imgBay img == b && imgSize img == n)

/-- Check 3: family and min_revision (04 Table 4.1). -/
def familyOk (s : State) (img : List Byte) : Bool :=
  leAt img 0x14 4 == (getReg s .identFamily 0).toNat && decide (leAt img 0x18 1 ≤ 0x10)

/-- The rules on one directory entry: format, reserved bytes, alignment, place, and which fields its type takes. -/
def sectionOk (img : List Byte) (x : Section) : Bool :=
  x.format == 1 && x.reserved && x.off % 64 == 0 && decide (0x100 + 32 * imgCount img ≤ x.off) &&
  decide (x.off + x.len + 4736 ≤ imgSize img) && decide (1 ≤ x.typ ∧ x.typ ≤ 9) &&
  (if x.typ = 9 then decide (x.slab ≤ 3) else x.slab == 0xFF) &&
  (if x.typ = 1 ∨ x.typ = 6 ∨ x.typ = 7 ∨ x.typ = 8 then x.bay == 0xFF else if x.typ = 3 then true else x.bay != 0xFF)

/-- Sections in ascending order, none overlapping the next, and zero bytes between (04 R97). -/
def gapsOk (img : List Byte) : Nat → List Section → Bool
  | stop, [] => decide (stop + 4736 ≤ imgSize img) && zeroAt img stop (imgSize img - 4736 - stop)
  | stop, x :: xs => decide (stop ≤ x.off) && zeroAt img stop (x.off - stop) && gapsOk img (x.off + x.len) xs

/-- How many sections have a type and bay. -/
def countOf (xs : List Section) (typ bay : Nat) : Nat := (xs.filter (fun x => x.typ == typ && x.bay == bay)).length

/-- No type, bay and slab combination twice. -/
def distinctSections (xs : List Section) : Bool :=
  xs.all (fun x => (xs.filter (fun y => x.typ == y.typ && x.bay == y.bay && x.slab == y.slab)).length == 1)

/-- bay_count of a full image. -/
def bayCount (img : List Byte) : Nat := leAt (contentOf img 1 0xFF) 0 1

/-- Check 4: directory and section rules (04 R97, R98). -/
def directoryOk (img : List Byte) : Bool :=
  let xs := imgSections img
  xs.all (sectionOk img) && gapsOk img (0x100 + 32 * imgCount img) xs && distinctSections xs &&
  (if imgKind img = 0 then
    countOf xs 1 0xFF == 1 && xs.all (fun x => x.bay == 0xFF || decide (x.bay < bayCount img)) &&
    (List.range (bayCount img)).all (fun b => countOf xs 2 b == 1 && countOf xs 3 b == 1 && countOf xs 5 b == 1)
  else
    let b := imgBay img
    xs.all (fun x => x.bay == b) && countOf xs 2 b == 1 && countOf xs 3 b == 1 && countOf xs 5 b == 1)

/-- The rules on a signature block beside the signatures: magic, reserved bytes, slot fields (04 R104). -/
def sigBlockOk (img : List Byte) : Bool :=
  let g := img.drop (img.length - 4736)
  leAt g 0 4 == 0x4749534B && decide (leAt g 4 1 ≤ 3) && decide (leAt g 5 1 ≤ 3) && zeroAt g 6 2 && zeroAt g 0x127B 5

/-- The ECDSA and the ML-DSA slot an image names. -/
def sigSlots (img : List Byte) : Nat × Nat :=
  let g := img.drop (img.length - 4736)
  (leAt g 4 1, leAt g 5 1)

/-- Check 7: layout_id (04 R106). -/
def layoutOk (s : State) (img : List Byte) : Bool :=
  if imgKind img = 0 then imgLayout img == leAt (sha384 (contentOf img 1 0xFF)) 0 8
  else imgLayout img == (getReg s .thatchLayoutIdLo 0).toNat + (getReg s .thatchLayoutIdHi 0).toNat * 2 ^ 32

/-! ### Envelopes (04 R99) -/

/-- Entry `k` of a BAY_MAP. -/
def envAt (m : List Byte) (k : Nat) : Envelope :=
  let e := (m.drop (16 + 64 * k)).take 64
  { rafterMask := leAt e 0 8, ringFirst := leAt e 8 2, ringCount := leAt e 10 2, evrFirst := leAt e 12 2, evrCount := leAt e 14 2, slabMask := leAt e 16 1 % 16, powerBudget := leAt e 18 2, holdLimitMs := leAt e 20 4, hbmBase := leAt e 24 8, hbmSize := leAt e 32 8, ddrBase := leAt e 40 8, ddrSize := leAt e 48 8 }

/-- The reserved fields of a BAY_MAP entry are 0. -/
def envReserved (m : List Byte) (k : Nat) : Bool :=
  let e := (m.drop (16 + 64 * k)).take 64
  decide (leAt e 16 1 < 16) && zeroAt e 17 1 && zeroAt e 56 8

/-- Whether ranges of a list are pairwise disjoint. -/
def disjointRanges : List (Nat × Nat) → Bool
  | [] => true
  | x :: xs => xs.all (fun y => x.2 == 0 || y.2 == 0 || !overlaps x.1 x.2 y.1 y.2) && disjointRanges xs

/-- Whether masks of a list are pairwise disjoint. -/
def disjointMasks : List Nat → Bool
  | [] => true
  | x :: xs => xs.all (fun y => x &&& y == 0) && disjointMasks xs

/-- The slice rules for one kind of memory: alignment, size, place. -/
def sliceOk (limit base size : Nat) : Bool :=
  base % 0x200000 == 0 && size % 0x200000 == 0 && decide (base + size ≤ limit)

/-- The envelope check of a BAY_MAP (04 R99). -/
def bayMapOk (s : State) (m : List Byte) : Bool :=
  let n := leAt m 0 1
  let es := (List.range n).map (envAt m)
  decide (1 ≤ n ∧ n ≤ 64) && zeroAt m 1 15 && m.length == 16 + 64 * n && (List.range n).all (envReserved m) &&
  es.all (fun e => e.rafterMask != 0) && disjointMasks (es.map (fun e => e.rafterMask)) &&
  (es.map (fun e => e.rafterMask)).sum == 2 ^ 64 - 1 &&
  es.all (fun e => decide (e.ringFirst + e.ringCount ≤ 4096 ∧ e.evrFirst + e.evrCount ≤ 256)) &&
  disjointRanges (es.map (fun e => (e.ringFirst, e.ringCount))) && disjointRanges (es.map (fun e => (e.evrFirst, e.evrCount))) &&
  disjointMasks (es.map (fun e => e.slabMask)) &&
  es.all (fun e => sliceOk (96 * gib) e.hbmBase e.hbmSize && sliceOk ((s.thatch.ddrGiB - 4) * gib) e.ddrBase e.ddrSize) &&
  disjointRanges (es.map (fun e => (e.hbmBase, e.hbmSize))) && disjointRanges (es.map (fun e => (e.ddrBase, e.ddrSize))) &&
  es.all (fun e => decide (1 ≤ e.holdLimitMs ∧ e.holdLimitMs ≤ 10000 ∧ 1 ≤ e.powerBudget ∧ e.powerBudget ≤ 4200)) &&
  decide ((es.map (fun e => e.powerBudget)).sum ≤ 4200)

/-- Whether a range lies in an envelope: its rafters' SRAM, its HBM slice or its DDR slice. -/
def envHolds (e : Envelope) (a n : Nat) : Bool :=
  sramIn e a n || (decide (0 < n) && (within a n (hbmStart + e.hbmBase) e.hbmSize || within a n (ddrStart + e.ddrBase) e.ddrSize))

/-! ### Sections of a bay (04 R100 to R103, R468) -/

/-- The entries of an array section. -/
def entriesOf (sz : Nat) (c : List Byte) : List (List Byte) := (List.range (c.length / sz)).map (fun i => (c.drop (sz * i)).take sz)

/-- Whether the values of a list are distinct. -/
def distinctNats (xs : List Nat) : Bool := xs.length == xs.eraseDups.length

/-- RING_ALLOC (04 R100, Table 4.5). -/
def ringAllocOk (e : Envelope) (c : List Byte) : Bool :=
  let xs := entriesOf 16 c
  c.length % 16 == 0 && distinctNats (xs.map (fun x => leAt x 0 2)) &&
  xs.all (fun x =>
    decide (e.ringFirst ≤ leAt x 0 2 ∧ leAt x 0 2 < e.ringFirst + e.ringCount) && decide (leAt x 2 1 < 64) &&
    bitN e.rafterMask (leAt x 2 1) && decide (e.evrFirst ≤ leAt x 3 1 ∧ leAt x 3 1 < e.evrFirst + e.evrCount) &&
    decide (6 ≤ leAt x 4 1 ∧ leAt x 4 1 ≤ 16) && decide (leAt x 5 1 ≤ 4) && zeroAt x 6 10)

/-- CLOCK_PLAN of a bay, or the device-wide one (04 R101, Table 4.6). -/
def clockPlanOk (own : Nat → Bool) (c : List Byte) : Bool :=
  let xs := entriesOf 8 c
  c.length % 8 == 0 && distinctNats (xs.map (fun x => leAt x 0 1)) &&
  xs.all (fun x => own (leAt x 0 1) && decide (leAt x 1 1 ≤ 2) && zeroAt x 6 2)

/-- PURLIN_ROUTES (04 R102, Table 4.7). -/
def routesOk (e : Envelope) (c : List Byte) : Bool :=
  let xs := entriesOf 16 c
  c.length % 16 == 0 && distinctNats (xs.map (fun x => leAt x 0 2)) &&
  xs.all (fun x =>
    let src := leAt x 0 1
    (if src < 64 then bitN e.rafterMask src else decide (src ≤ 67) && bitN e.slabMask (src - 64)) &&
    decide (leAt x 1 1 ≤ 7) && decide (leAt x 2 1 ≤ 3) && decide (1 ≤ leAt x 3 1) &&
    decide (1 ≤ leAt x 4 2 ∧ leAt x 4 2 ≤ 1024) && zeroAt x 6 10)

/-- BAY_FIRMWARE (04 R103, Table 4.8). -/
def firmwareOk (e : Envelope) (c : List Byte) : Bool :=
  let n := leAt c 8 4
  let pc := leAt c 0 8
  decide (1 ≤ n ∧ n ≤ 256) && zeroAt c 12 20 && decide (32 + 32 * n ≤ c.length) && decide (pc < 2 ^ 52) && pc % 4 == 0 &&
  envHolds e pc 4 &&
  (List.range n).all (fun i =>
    let g := (c.drop (32 + 32 * i)).take 32
    decide (leAt g 8 8 ≤ leAt g 16 8) && decide (leAt g 24 8 + leAt g 8 8 ≤ c.length) &&
    (leAt g 16 8 == 0 || envHolds e (leAt g 0 8) (leAt g 16 8)))

/-- SLAB_BITSTREAM (04 R468, Table 4.9). -/
def bitstreamOk (e : Envelope) (slab : Nat) (c : List Byte) : Bool :=
  leAt c 0 1 == slab && bitN e.slabMask slab && decide (leAt c 1 1 ≤ 15) && decide (50 ≤ leAt c 2 2 ∧ leAt c 2 2 ≤ 500) &&
  decide (1 ≤ leAt c 4 2) && zeroAt c 6 2 && decide (leAt c 8 8 ≤ 0x4000000) && zeroAt c 16 48 &&
  c.length == 64 + leAt c 8 8

/-- The section constraints of one bay. -/
def bayOk (img : List Byte) (e : Envelope) (b : Nat) : Bool :=
  ringAllocOk e (contentOf img 2 b) && clockPlanOk (fun d => decide (d < 64) && bitN e.rafterMask d) (contentOf img 3 b) &&
  routesOk e (contentOf img 4 b) && firmwareOk e (contentOf img 5 b) &&
  (imgSections img).all (fun x => !(x.typ == 9 && x.bay == b) || bitstreamOk e x.slab (sectionBytes img x))

/-! ### Device-wide sections (09 R250, R251, R256, R261; 12 R354) -/

/-- A graph node's 64 bytes, and its fields (09 Table 9.2). -/
def nodeAt (g : List Byte) (i : Nat) : List Byte := (g.drop (320 + 64 * i)).take 64
def nodeCount (g : List Byte) : Nat := leAt g 0 2
def nodeFlag (n : List Byte) (k : Nat) : Bool := bitN (leAt n 1 1) k

/-- A transition of the graph: value, next. -/
def transAt (g : List Byte) (i : Nat) : Nat × Nat :=
  let t := (g.drop (320 + 64 * nodeCount g + 8 * i)).take 8
  (leAt t 0 4, leAt t 4 2)

/-- The transitions of a node. -/
def nodeTrans (g n : List Byte) : List (Nat × Nat) :=
  (List.range (leAt n 0x16 2)).map (fun i => transAt g (leAt n 0x18 4 + i))

/-- Whether a bit field lies within the first `m` bytes of a header. -/
def bitsIn (off width m : Nat) : Bool := decide (off + width ≤ 8 * m)

/-- The rules of R251 on a node that is not a Reed node. -/
def plainNodeOk (g n : List Byte) : Bool :=
  let m := leAt n 2 2
  decide (1 ≤ m ∧ m ≤ 512) && decide (leAt n 1 1 < 8) &&
  (if nodeFlag n 0 then decide (1 ≤ leAt n 8 1 ∧ leAt n 8 1 ≤ 16) && decide (leAt n 9 1 ≤ 7) && bitsIn (leAt n 6 2) (leAt n 8 1) m
   else decide (m ≤ leAt n 4 2 ∧ leAt n 4 2 ≤ 512)) &&
  (leAt n 0x0E 1 == 0 || ((leAt n 0x0E 1 == 8 || leAt n 0x0E 1 == 16 || leAt n 0x0E 1 == 32) && bitsIn (leAt n 0x0C 2) (leAt n 0x0E 1) m)) &&
  decide (leAt n 0x14 1 ≤ 32) && bitsIn (leAt n 0x12 2) (leAt n 0x14 1) m && zeroAt n 0x0F 1 && zeroAt n 0x1E 2 &&
  (List.range 4).all (fun x =>
    let e := (n.drop (0x20 + 8 * x)).take 8
    leAt e 2 1 == 0 || (decide (leAt e 2 1 ≤ 16) && decide (leAt e 0 2 + leAt e 2 1 ≤ m) && decide (leAt e 3 1 + leAt e 2 1 ≤ 128) && zeroAt e 4 4)) &&
  decide (leAt n 0x18 4 + leAt n 0x16 2 ≤ leAt g 4 4) && distinctNats ((nodeTrans g n).map (fun t => t.1))

/-- A table definition's kind, key_off, key_len and capacity (09 Table 9.5). -/
def tableDef (g : List Byte) (t : Nat) : Nat × Nat × Nat × Nat :=
  let d := (g.drop (64 + 16 * t)).take 16
  (leAt d 0 1, leAt d 1 1, leAt d 2 1, leAt d 4 4)

/-- The rules on one table definition (09 Table 9.5, R261). -/
def tableDefOk (g : List Byte) (t : Nat) : Bool :=
  let (k, off, len, _) := tableDef g t
  let d := (g.drop (64 + 16 * t)).take 16
  decide (k ≤ 3) && zeroAt d 3 1 && zeroAt d 8 8 &&
  (k == 0 || (decide (off ≤ 127) && decide (off + len ≤ 128) &&
    (if k = 3 then len == 4 || len == 16 else decide (1 ≤ len ∧ len ≤ 64))))

/-- The capacities of a kind of table add up within its total (09 R261). -/
def capacityOk (g : List Byte) (k total : Nat) : Bool :=
  decide ((((List.range 16).filter (fun t => (tableDef g t).1 == k)).map (fun t => (tableDef g t).2.2.2)).sum ≤ total)

/-- Entry `p` of REED_PROGRAMS: code_off, code_len, data_off, data_len, budget, entry (09 R256). -/
def reedEntry (r : List Byte) (p : Nat) : Nat × Nat × Nat × Nat × Nat × Nat :=
  let e := (r.drop (16 + 32 * p)).take 32
  (leAt e 0 4, leAt e 4 4, leAt e 8 4, leAt e 12 4, leAt e 16 2, leAt e 18 2)

/-- REED_PROGRAMS (09 R256). -/
def reedProgsOk (r : List Byte) : Bool :=
  let n := leAt r 0 2
  decide (1 ≤ n ∧ n ≤ 256) && zeroAt r 2 14 && decide (16 + 32 * n ≤ r.length) &&
  (List.range n).all (fun p =>
    let (co, cl, d0, dl, budget, entry) := reedEntry r p
    decide (4 ≤ cl ∧ cl ≤ 65536) && cl % 4 == 0 && co % 4 == 0 && decide (dl ≤ 65536) && decide (1 ≤ budget ∧ budget ≤ 4096) &&
    decide (entry < cl / 4) && decide (co + cl ≤ r.length) && decide (d0 + dl ≤ r.length) &&
    zeroAt ((r.drop (16 + 32 * p)).take 32) 20 12)

/-- TRUSS_GRAPH (09 R250, R251, R261); `r` is the REED_PROGRAMS section, if the image carries one. -/
def trussGraphOk (g : List Byte) (r : Option (List Byte)) : Bool :=
  let n := nodeCount g
  let tc := leAt g 4 4
  decide (1 ≤ n ∧ n ≤ 4096) && decide (tc ≤ 16384) && zeroAt g 2 2 && zeroAt g 8 56 &&
  g.length == 320 + 64 * n + 8 * tc &&
  (List.range n).all (fun i =>
    let x := nodeAt g i
    if nodeFlag x 2 then
      (match r with
       | some p => decide (leAt x 0x15 1 < leAt p 0 2)
       | none => false)
    else plainNodeOk g x) &&
  (List.range 16).all (tableDefOk g) && capacityOk g 1 2097152 && capacityOk g 2 65536 && capacityOk g 3 1048576

/-- LOFT_CONFIG (12 R354): its fields, its length, and the context table inside ctl_bay's slices. -/
def loftConfigOk (m c : List Byte) : Bool :=
  let b := leAt c 0 1
  let base := leAt c 8 8
  let n := leAt c 0x10 4
  let e := envAt m b
  c.length == 64 && zeroAt c 1 7 && zeroAt c 0x14 44 && decide (b < leAt m 0 1) && base % 64 == 0 &&
  decide (1 ≤ n ∧ n ≤ 1048576) &&
  (within base (64 * n) (hbmStart + e.hbmBase) e.hbmSize || within base (64 * n) (ddrStart + e.ddrBase) e.ddrSize)

/-- A section's content, where the image carries it. -/
def optContent (img : List Byte) (typ : Nat) : Option (List Byte) := (findSection img typ 0xFF).map (sectionBytes img)

/-- Check 9 (04 Table 4.11): envelope and section constraints. -/
def envelopeOk (s : State) (img : List Byte) : Bool :=
  if imgKind img = 0 then
    let m := contentOf img 1 0xFF
    bayMapOk s m && (List.range (bayCount img)).all (fun b => bayOk img (envAt m b) b) &&
    clockPlanOk (fun d => decide (64 ≤ d ∧ d ≤ 78)) (contentOf img 3 0xFF) &&
    (match optContent img 7 with | some r => reedProgsOk r | none => true) &&
    (match optContent img 6 with | some g => trussGraphOk g (optContent img 7) | none => true) &&
    (match optContent img 8 with | some c => loftConfigOk m c | none => true)
  else bayOk img (envOf s (imgBay img)) (imgBay img)

/-- Check 10: room in the thatch store (04 R108). -/
def storeOk (s : State) (img : List Byte) : Bool :=
  if imgKind img = 0 then decide (img.length ≤ 3 * gib)
  else
    let full := (s.thatch.full.getD []).length
    let others := (s.thatch.bays.map (fun e => if e.1 = imgBay img then 0 else (e.2.image.getD []).length)).sum
    decide (full + others + img.length ≤ 3 * gib)

/-! ### The checks in their order -/

/-- SEC_FLOOR (14 R421). -/
def secFloor (s : State) : Nat := s.stor.fuseFloor

/-- Whether a signature names slots that are usable now (14 R419). -/
def slotsUsable (usable : Nat) (img : List Byte) : Bool :=
  let (a, b) := sigSlots img
  bitN usable a && bitN usable (4 + b)

/-- Checks 2 to 4 of Table 4.11: 1 where they pass, else the result code. -/
def checks24 (s : State) (k : LoadKind) (img : List Byte) : Nat :=
  if !headerOk k img then 3 else if !familyOk s img then 4 else if !directoryOk img then 5 else 1

/-- Check 5: 1 where it passes. Whether the two signatures verify comes from outside (`ok`). -/
def check5 (usable : Nat) (img : List Byte) (ok : Bool) : Nat :=
  if sigBlockOk img && slotsUsable usable img && ok then 1 else 6

/-- Check 6: svn against the rollback floor. -/
def check6 (s : State) (img : List Byte) : Nat := if imgSvn img < secFloor s then 7 else 1

/-- Checks 7 to 10 of Table 4.11. -/
def checks710 (s : State) (img : List Byte) : Nat :=
  if !layoutOk s img then 9
  else if imgKind img = 1 ∧ imgEpoch img ≤ getF s Fld.thatchBayEpoch (imgBay img) then 10
  else if !envelopeOk s img then 8
  else if !storeOk s img then 11
  else 1

end Sys2Proof.Machine
end

