-- ==== Sys2Proof/Machine/Boot.lean ====
section
/-! DEFINITION. The boot loop's attempts (02 R53 to R56, 14 R419, R420, 16 R461) up to the point where the full thatch load takes
over (04 Table 4.12). -/

namespace Sys2Proof.Machine

/-! ### The boot image (14 Table 14.6) -/

/-- Header fields of a boot image. -/
def bootSize (h : List Byte) : Nat := leAt h 8 8
def bootImgSvn (h : List Byte) : Nat := leAt h 0x10 4
def bootFwLen (h : List Byte) : Nat := leAt h 0x14 4
def bootThatchLen (h : List Byte) : Nat := leAt h 0x18 8

/-- Step 2 of R420: the 128-byte header. -/
def bootHeaderOk (h : List Byte) : Bool :=
  leAt h 0 4 == 0x544F4F42 && leAt h 4 2 == 1 && zeroAt h 6 2 && zeroAt h 0x20 96 &&
  bootFwLen h % 64 == 0 && decide (64 ≤ bootFwLen h ∧ bootFwLen h ≤ 0x800000) && decide (bootThatchLen h ≤ 0x40000000) &&
  bootSize h == 128 + 10880 + bootFwLen h + bootThatchLen h + 4736

/-- The boot firmware and the embedded thatch of a boot image. -/
def bootFirmware (img : List Byte) : List Byte := (img.drop 0x2B00).take (bootFwLen img)
def bootThatch (img : List Byte) : List Byte := (img.drop (0x2B00 + bootFwLen img)).take (bootThatchLen img)

/-- Whether an ECDSA key entry is well formed and offered (14 Table 14.6). -/
def ecdsaKeyOk (s : State) (img : List Byte) (k : Nat) : Bool :=
  let e := (img.drop (0x80 + 128 * k)).take 128
  !zeroAt e 0 128 && zeroAt e 97 31 && !bitN s.stor.revoked k && Config.keyOk k (e.take 97)

/-- Whether an ML-DSA key entry is offered. -/
def mldsaKeyOk (s : State) (img : List Byte) (k : Nat) : Bool :=
  let e := (img.drop (0x280 + 2592 * k)).take 2592
  !zeroAt e 0 2592 && !bitN s.stor.revoked (4 + k) && Config.keyOk (4 + k) e

/-- The slots usable with a boot image's key block: ECDSA in bits 3:0, ML-DSA in bits 7:4 (14 R419). -/
def usableSlots (s : State) (img : List Byte) : Nat :=
  ((List.range 4).map (fun k => (if ecdsaKeyOk s img k then 2 ^ k else 0) + (if mldsaKeyOk s img k then 2 ^ (4 + k) else 0))).sum

/-- What PWR_BOOT_STAT.last_result reports for a failed check of the embedded thatch (04 under Table 4.11). -/
def bootResultOf (code : Nat) : Nat := if code = 6 then 4 else if code = 7 then 5 else if code = 12 then 6 else 3

/-! ### Attempts -/

/-- Change the attempt in progress. -/
def mapAttempt (s : State) (f : Attempt → Attempt) : State := setAttempt s (s.ridge.attempt.map f)

/-- The attempt succeeds: its thatch goes into staging with checks 1 to 6 passed, and the cycle stops (02 R53, 04 Table 4.12). -/
def attemptOk (s : State) (a : Attempt) (usable : Nat) : State :=
  let s := attemptEnd s a.src 1
  let s := setF s Fld.pwrBootStatCycleActive 0 0
  let s := setF s Fld.secSlotStatEcdsaUsable 0 (usable % 16)
  let s := setF s Fld.secSlotStatMldsaUsable 0 (usable / 16)
  { s with ridge := { s.ridge with loading := true }, thatch := { s.thatch with staging := bootThatch a.image, stage := 3 }, stor := { s.stor with usable := usable, bootSvn := bootImgSvn a.image, bootFw := bootFirmware a.image } }

/-- The header of the attempt's image is checked; the attempt goes on to the body, or fails (14 R420). -/
def headerCheck (s : State) (a : Attempt) (hdr : List Byte) : State :=
  let sizeOk := a.size == 0 || a.size == bootSize hdr
  if bootHeaderOk hdr && sizeOk then
    setAttempt s (some { a with stage := .body, size := bootSize hdr, image := if a.image.isEmpty then hdr.take 128 else a.image })
  else attemptFail s 3

/-- BOOT_SOURCE_TIMEOUT: the attempt fails (02 Table 2.8). -/
def execBootSourceTimeout (s : State) : Host.Outcome State Fault Refusal := .next (attemptFail s 2)

/-- BOOT_HEADER_CHECK: the first 128 bytes have arrived (14 R420 step 2). A push or a neighbour has brought them in its blocks. -/
def execBootHeaderCheck (hdr : List Byte) (s : State) : Host.Outcome State Fault Refusal :=
  .next
    (match s.ridge.attempt with
     | none => s
     | some a =>
       if a.stage ≠ .header then s
       else if a.src ≤ 2 then (if 128 ≤ hdr.length then headerCheck s a hdr else s)
       else if 128 ≤ a.image.length then headerCheck s a (a.image.take 128)
       else s)

/-- BOOT_IMAGE_READ_DONE: all image_size bytes have been read; hashing begins (14 R420). -/
def execBootImageReadDone (image : List Byte) (s : State) : Host.Outcome State Fault Refusal :=
  .next
    (match s.ridge.attempt with
     | none => s
     | some a =>
       if a.stage ≠ .body then s
       else if a.src ≤ 2 then
         (if image.length = a.size ∧ image.take 128 = a.image.take 128 then setAttempt s (some { a with stage := .hashing, image := image }) else s)
       else s)

/-- BOOT_SIGNATURE_CHECK_DONE: signatures, svn and checks 1 to 6 of the embedded thatch decide the attempt (14 R420, 04 Table
4.11). Whether each pair of signatures verifies comes from outside. -/
def execBootSignatureCheckDone (bootSigsOk thatchSigsOk : Bool) (s : State) : Host.Outcome State Fault Refusal :=
  .next
    (match s.ridge.attempt with
     | none => s
     | some a =>
       if a.stage ≠ .hashing then s
       else
         let u := usableSlots s a.image
         let t := bootThatch a.image
         if check5 u a.image bootSigsOk ≠ 1 then attemptFail s 4
         else if bootImgSvn a.image < secFloor s then attemptFail s 5
         else
           let c := if checks24 s .boot t ≠ 1 then checks24 s .boot t else if check5 u t thatchSigsOk ≠ 1 then 6 else check6 s t
           if c ≠ 1 then attemptFail (setF s Fld.thatchStatResult 0 c) (bootResultOf c) else attemptOk s a u)

/-- BOOT_READ_ERROR: the attempt ends io_error (14 R420). -/
def execBootReadError (s : State) : Host.Outcome State Fault Refusal :=
  .next
    (match s.ridge.attempt with
     | some a => if a.stage = .hashing ∨ a.stage = .spiReset then s else attemptFail s 6
     | none => s)

/-- SPI_RESET_WAIT_EXPIRY: the SFDP read begins (16 R461). -/
def execSpiResetWaitExpiry (s : State) : Host.Outcome State Fault Refusal :=
  .next (mapAttempt s (fun a => if a.stage = .spiReset then { a with stage := .sfdp } else a))

/-- SFDP_READ_DONE: the read mode is chosen (16 R461). -/
def execSfdpReadDone (m : Nat) (s : State) : Host.Outcome State Fault Refusal :=
  .next
    (match s.ridge.attempt with
     | some a =>
       if a.stage = .sfdp then
         setAttempt { s with ridge := { s.ridge with spiMode := m % 4 } } (some { a with stage := .header })
       else s
     | none => s)

/-- NETWORK_BOOT_TICK: a boot request is broadcast on the bare port (02 R54, 07 Table 7.10). Its seq is the device's own, which
the spec does not give: a free value. -/
def execNetworkBootTick (s : State) : Host.Outcome State Fault Refusal :=
  .next
    (match s.ridge.attempt with
     | some a =>
       if a.src = 4 ∧ a.path = none then
         let r := drawDword s
         let m := mbxBytes pathBare 0x13 0 (r.1.toNat % 2 ^ 32) 0 (leBytes 8 (unitId s) ++ leBytes 4 (getF s Fld.bootAttempts 0))
         emit r.2 (.frame 0 (bareFrame s 0xFFFFFFFFFFFF m))
       else s
     | none => s)

/-- NEIGHBOUR_TURN_TIMEOUT: the next link's turn; after link 15 the attempt fails (02 Table 2.8). -/
def execNeighbourTurnTimeout (s : State) : Host.Outcome State Fault Refusal :=
  .next
    (match s.ridge.attempt with
     | some a =>
       if a.src = 5 ∧ a.path = none then
         (if a.link < 15 then setAttempt s (some { a with link := a.link + 1 }) else attemptFail s 2)
       else s
     | none => s)

/-! ### Pushes (07 R211) -/

/-- Whether a BOOT_BEGIN may come by a path for an attempt: a mailbox for source 3, the bare port for source 4, the link whose
turn it is for source 5. -/
def pushPath (a : Attempt) (path : Nat) : Bool :=
  if a.src = 3 then decide (path ≤ 1) else if a.src = 4 then path == 3 else a.src == 5 && path == pathNawyn a.link

/-- BOOT_BEGIN by a path: status, payload and the state after it. -/
def bootBegin (s : State) (path : Nat) (bs : List Byte) : Nat × List Byte × State :=
  let body := msgPayload path bs
  if msgLen path bs ≠ 8 ∨ body.length ≠ 8 then (stBadLen, [], s)
  else
    match s.ridge.attempt with
    | none => (stNotNow, statusPayload s, s)
    | some a =>
      if a.path.isSome then (stBusy, [], s)
      else if pushPath a path then
        (stOk, [], setAttempt s (some { a with path := some path, stage := .header, size := leAt body 0 8, image := [] }))
      else (stNotNow, statusPayload s, s)

/-- BOOT_BLOCK by a path. -/
def bootBlock (s : State) (path : Nat) (bs : List Byte) : Nat × List Byte × State :=
  let body := msgPayload path bs
  if body.length < 9 ∨ 4080 < body.length ∨ body.length ≠ msgLen path bs then (stBadLen, [], s)
  else
    match s.ridge.attempt with
    | none => (stNotNow, [], s)
    | some a =>
      let d := body.drop 8
      if a.path ≠ some path ∨ a.stage = .hashing then (stNotNow, [], s)
      else if leAt body 0 8 ≠ a.image.length then (stBadSeq, [], s)
      else if a.size < a.image.length + d.length then (stBadLen, [], s)
      else (stOk, [], setAttempt s (some { a with image := a.image ++ d }))

/-- BOOT_END by a path; none where its answer follows the image checks. -/
def bootEnd (s : State) (path : Nat) (bs : List Byte) : Option (Nat × List Byte) × State :=
  if msgLen path bs ≠ 0 then (some (stBadLen, []), s)
  else
    match s.ridge.attempt with
    | none => (some (stNotNow, []), s)
    | some a =>
      if a.path ≠ some path then (some (stNotNow, []), s)
      else if a.stage = .hashing then (none, s)
      else if a.image.length < a.size then (some (stBadSeq, []), s)
      else if a.stage = .header ∧ bootHeaderOk (a.image.take 128) = false then
        let s := attemptFail s 3
        (some (stRejected, regImage s .pwrBootStat), s)
      else if a.size ≠ bootSize a.image then
        let s := attemptFail s 3
        (some (stRejected, regImage s .pwrBootStat), s)
      else (none, setAttempt s (some { a with stage := .hashing }))

end Sys2Proof.Machine
end

