-- ==== Sys2Proof/Machine/Blake3.lean ====
section
/-! DEFINITION. BLAKE3 in its default unkeyed hash mode (13 R397). -/

namespace Sys2Proof.Machine

/-- The initial chaining value. -/
def b3Iv : List Word := [0x6A09E667, 0xBB67AE85, 0x3C6EF372, 0xA54FF53A, 0x510E527F, 0x9B05688C, 0x1F83D9AB, 0x5BE0CD19]

/-- The permutation of the message words between rounds. -/
def b3Perm : List Nat := [2, 6, 3, 10, 7, 0, 4, 13, 1, 11, 12, 5, 9, 14, 15, 8]

/-- The quarter round on four words of the state and two of the message. -/
def b3G (v : List Word) (a b c d : Nat) (x y : Word) : List Word :=
  let va := v.getD a 0 + v.getD b 0 + x
  let vd := (v.getD d 0 ^^^ va).rotateRight 16
  let vc := v.getD c 0 + vd
  let vb := (v.getD b 0 ^^^ vc).rotateRight 12
  let va := va + vb + y
  let vd := (vd ^^^ va).rotateRight 8
  let vc := vc + vd
  let vb := (vb ^^^ vc).rotateRight 7
  (((v.set a va).set b vb).set c vc).set d vd

/-- One round. -/
def b3Round (v m : List Word) : List Word :=
  [(0, 4, 8, 12), (1, 5, 9, 13), (2, 6, 10, 14), (3, 7, 11, 15), (0, 5, 10, 15), (1, 6, 11, 12), (2, 7, 8, 13), (3, 4, 9, 14)].zipIdx.foldl
    (fun v q => b3G v q.1.1 q.1.2.1 q.1.2.2.1 q.1.2.2.2 (m.getD (2 * q.2) 0) (m.getD (2 * q.2 + 1) 0)) v

/-- Seven rounds. -/
def b3Rounds : Nat → List Word → List Word → List Word
  | 0, v, _ => v
  | k + 1, v, m => b3Rounds k (b3Round v m) (b3Perm.map (fun i => m.getD i 0))

/-- The compression of one block: chaining value, message words, counter, bytes in the block, flags; its first 8 words. -/
def b3Compress (cv m : List Word) (t n flags : Nat) : List Word :=
  let v := b3Rounds 7 (cv ++ b3Iv.take 4 ++ [BitVec.ofNat 32 t, BitVec.ofNat 32 (t / 2 ^ 32), BitVec.ofNat 32 n, BitVec.ofNat 32 flags]) m
  List.zipWith (· ^^^ ·) (v.take 8) (v.drop 8)

/-- A block as 16 words. -/
def b3Words (b : List Byte) : List Word := (List.range 16).map (fun i => BitVec.ofNat 32 (leAt b (4 * i) 4))

/-- The blocks of chunk `t`, from its chaining value so far; `fl` holds CHUNK_START until the first block is done, `root` the ROOT
flag of a lone chunk. -/
def b3Chunk (t root : Nat) : Nat → Nat → List Word → List Byte → List Word
  | 0, _, cv, _ => cv
  | k + 1, fl, cv, bs =>
    if bs.length ≤ 64 then b3Compress cv (b3Words bs) t bs.length (fl + 2 + root)
    else b3Chunk t root k 0 (b3Compress cv (b3Words (bs.take 64)) t 64 fl) (bs.drop 64)

/-- The parent of two chaining values. -/
def b3Parent (root : Nat) (l r : List Word) : List Word := b3Compress b3Iv (l ++ r) 0 64 (4 + root)

/-- The chaining value of a subtree: `h` bounds its height, `t` is its first chunk. -/
def b3Tree (root : Nat) : Nat → Nat → List Byte → List Word
  | 0, t, bs => b3Chunk t root 17 1 b3Iv bs
  | h + 1, t, bs =>
    if bs.length ≤ 1024 * 2 ^ h then b3Tree root h t bs
    else b3Parent root (b3Tree 0 h t (bs.take (1024 * 2 ^ h))) (b3Tree 0 h (t + 2 ^ h) (bs.drop (1024 * 2 ^ h)))

/-- The 32-byte hash. -/
def blake3 (m : List Byte) : List Byte := ((b3Tree 8 40 0 m).map (fun w => leBytes 4 w.toNat)).flatten

/-- The hash of R397: 16 bytes. -/
def shingleHash (m : List Byte) : List Byte := (blake3 m).take 16

end Sys2Proof.Machine
end

