-- ==== Sys2Proof/Machine/Flags.lean ====
section
/-! DEFINITION. Floating point (05_olxavon_isa.md R127 to R130, R149, Table 5.12) and every flag it sets in FSTAT:
exact arithmetic on integers, rounded once to nearest, ties to even. -/

namespace Sys2Proof.Machine

/-- FSTAT bits (05 Table 5.14). -/
def fInvalid : Nat := 1
def fDivZero : Nat := 2
def fOverflow : Nat := 4
def fUnderflow : Nat := 8
def fInexact : Nat := 16

/-- A binary format: exponent bits, fraction bits, and whether it has no infinities (E4M3). -/
structure FFmt where
  eb : Nat
  mb : Nat
  noInf : Bool
deriving DecidableEq, Repr

/-- The formats of Table 5.1. -/
def fp32 : FFmt := ⟨8, 23, false⟩
def bf16 : FFmt := ⟨8, 7, false⟩
def fp16 : FFmt := ⟨5, 10, false⟩
def e4m3 : FFmt := ⟨4, 3, true⟩
def e5m2 : FFmt := ⟨5, 2, false⟩

/-- Exponent bias. -/
def FFmt.bias (f : FFmt) : Int := 2 ^ (f.eb - 1) - 1

/-- Total width. -/
def FFmt.width (f : FFmt) : Nat := 1 + f.eb + f.mb

/-- The exponent of the lowest fraction bit of a subnormal. -/
def FFmt.emin (f : FFmt) : Int := 1 - f.bias - f.mb

/-- What a bit pattern stands for: a NaN (signalling or quiet), an infinity, or ±m·2^e. -/
inductive FVal where
  | nan (signalling : Bool)
  | inf (neg : Bool)
  | fin (neg : Bool) (m : Nat) (e : Int)
deriving DecidableEq, Repr

/-- The canonical quiet NaN of a format (05 R129). -/
def FFmt.qnan (f : FFmt) : Nat :=
  if f.noInf then 2 ^ (f.eb + f.mb) - 1 else (2 ^ f.eb - 1) * 2 ^ f.mb + 2 ^ (f.mb - 1)

/-- The infinity of a format. -/
def FFmt.infBits (f : FFmt) (neg : Bool) : Nat :=
  (if neg then 2 ^ (f.eb + f.mb) else 0) + (2 ^ f.eb - 1) * 2 ^ f.mb

/-- The largest finite pattern. -/
def FFmt.maxBits (f : FFmt) (neg : Bool) : Nat :=
  (if neg then 2 ^ (f.eb + f.mb) else 0)
    + (if f.noInf then 2 ^ (f.eb + f.mb) - 2 else (2 ^ f.eb - 1) * 2 ^ f.mb - 1)

/-- Read a pattern. -/
def unpack (f : FFmt) (x : Nat) : FVal :=
  let neg := x.testBit (f.eb + f.mb)
  let e := (x / 2 ^ f.mb) % 2 ^ f.eb
  let m := x % 2 ^ f.mb
  if e = 2 ^ f.eb - 1 ∧ f.noInf = false then
    if m = 0 then .inf neg else .nan (!m.testBit (f.mb - 1))
  else if e = 2 ^ f.eb - 1 ∧ m = 2 ^ f.mb - 1 then .nan false
  else if e = 0 then .fin neg m f.emin
  else .fin neg (2 ^ f.mb + m) (f.emin + (e - 1 : Nat))

/-- n / 2^d rounded to nearest, ties to even, and whether bits were lost. -/
def rne (n d : Nat) : Nat × Bool :=
  let q := n / 2 ^ d
  let r := n % 2 ^ d
  if d = 0 then (n, false)
  else if 2 ^ d < 2 * r ∨ (2 * r = 2 ^ d ∧ q % 2 = 1) then (q + 1, true)
  else (q, r != 0)

/-- ±m·2^e rounded into a format: the pattern and its flags (05 R129). -/
def roundTo (f : FFmt) (neg : Bool) (m : Nat) (e : Int) : Nat × Nat :=
  let sgn := if neg then 2 ^ (f.eb + f.mb) else 0
  if m = 0 then (sgn, 0)
  else
    let p := f.mb + 1
    let top : Int := e + (Nat.log2 m + 1 : Nat) - p
    let q0 := max top f.emin
    let (n0, inexact) := if q0 ≤ e then (m * 2 ^ (e - q0).toNat, false) else rne m (q0 - e).toNat
    let carry := n0 = 2 ^ p
    let n := if carry then 2 ^ f.mb else n0
    let q := if carry then q0 + 1 else q0
    if n < 2 ^ f.mb then
      -- a subnormal result: tiny under either reading of tininess
      (sgn + n, if inexact then fUnderflow + fInexact else 0)
    else
      let ef := q - f.emin + 1
      let tooBig := if f.noInf then decide (ef > 2 ^ f.eb - 1) || (decide (ef = 2 ^ f.eb - 1) && n == 2 ^ p - 1)
                  else decide (ef ≥ 2 ^ f.eb - 1)
      if tooBig then ((if f.noInf then sgn + f.qnan else f.infBits neg), fOverflow + fInexact)
      else
        -- the smallest normal reached by rounding up a value below it: tiny before rounding only, unless the
        -- value rounded to full precision stays below
        let below := decide (top < f.emin)
        let full := if top ≤ e then (m * 2 ^ (e - top).toNat, false) else rne m (top - e).toNat
        let tinyAfter := below && full.1 != 2 ^ p
        let tiny := if tinyAfter then true else if below then Config.tinyBefore else false
        (sgn + ef.toNat * 2 ^ f.mb + (n - 2 ^ f.mb),
          (if inexact then fInexact + (if tiny then fUnderflow else 0) else 0))

/-- A NaN result with the invalid flag of a signalling operand. -/
def nanResult (f : FFmt) (sig : Bool) : Nat × Nat := (f.qnan, if sig then fInvalid else 0)

/-- Whether a value is a signalling NaN. -/
def FVal.sig : FVal → Bool
  | .nan s => s
  | _ => false

/-- Whether a value is a NaN. -/
def FVal.isNan : FVal → Bool
  | .nan _ => true
  | _ => false

/-- ±m as an integer scaled by 2^(e − k), for k ≤ e. -/
def scaled (neg : Bool) (m : Nat) (e k : Int) : Int :=
  let v : Int := (m * 2 ^ (e - k).toNat : Nat)
  if neg then -v else v

/-- The sum of two exact values, rounded once. -/
def addExact (f : FFmt) (n1 : Bool) (m1 : Nat) (e1 : Int) (n2 : Bool) (m2 : Nat) (e2 : Int) : Nat × Nat :=
  let k := min e1 e2
  let v := scaled n1 m1 e1 k + scaled n2 m2 e2 k
  if v = 0 then roundTo f (decide (m1 = 0 ∧ m2 = 0) && n1 && n2) 0 0
  else roundTo f (decide (v < 0)) v.natAbs k

/-- Addition. -/
def fAdd (f : FFmt) (a b : FVal) : Nat × Nat :=
  match a, b with
  | .nan s, y => nanResult f (s || y.sig)
  | _, .nan s => nanResult f s
  | .inf n1, .inf n2 => if n1 = n2 then (f.infBits n1, 0) else (f.qnan, fInvalid)
  | .inf n, .fin .. => (f.infBits n, 0)
  | .fin .., .inf n => (f.infBits n, 0)
  | .fin n1 m1 e1, .fin n2 m2 e2 => addExact f n1 m1 e1 n2 m2 e2

/-- The negation of a value. -/
def FVal.negate : FVal → FVal
  | .nan s => .nan s
  | .inf n => .inf (!n)
  | .fin n m e => .fin (!n) m e

/-- Multiplication. -/
def fMul (f : FFmt) (a b : FVal) : Nat × Nat :=
  match a, b with
  | .nan s, y => nanResult f (s || y.sig)
  | _, .nan s => nanResult f s
  | .inf n1, .inf n2 => (f.infBits (n1 != n2), 0)
  | .inf n1, .fin n2 m _ => if m = 0 then (f.qnan, fInvalid) else (f.infBits (n1 != n2), 0)
  | .fin n1 m _, .inf n2 => if m = 0 then (f.qnan, fInvalid) else (f.infBits (n1 != n2), 0)
  | .fin n1 m1 e1, .fin n2 m2 e2 => roundTo f (n1 != n2) (m1 * m2) (e1 + e2)

/-- c + a × b, rounded once (Table 5.12 FMADD). -/
def fMadd (f : FFmt) (c a b : FVal) : Nat × Nat :=
  let anySig := a.sig || b.sig || c.sig
  let prod : Option FVal :=  -- none: infinity times zero
    match a, b with
    | .inf n1, .inf n2 => some (.inf (n1 != n2))
    | .inf n1, .fin n2 m _ => if m = 0 then none else some (.inf (n1 != n2))
    | .fin n1 m _, .inf n2 => if m = 0 then none else some (.inf (n1 != n2))
    | .fin n1 m1 e1, .fin n2 m2 e2 => some (.fin (n1 != n2) (m1 * m2) (e1 + e2))
    | _, _ => some (.nan false)
  match prod with
  | none => (f.qnan, fInvalid)
  | some p => if a.isNan || b.isNan || c.isNan then nanResult f anySig else fAdd f c p

/-- Division; a quotient carries 64 fraction bits and a sticky bit before rounding. -/
def fDiv (f : FFmt) (a b : FVal) : Nat × Nat :=
  match a, b with
  | .nan s, y => nanResult f (s || y.sig)
  | _, .nan s => nanResult f s
  | .inf _, .inf _ => (f.qnan, fInvalid)
  | .inf n1, .fin n2 _ _ => (f.infBits (n1 != n2), 0)
  | .fin n1 _ _, .inf n2 => roundTo f (n1 != n2) 0 0
  | .fin n1 m1 e1, .fin n2 m2 e2 =>
    if m2 = 0 then
      if m1 = 0 then (f.qnan, fInvalid) else (f.infBits (n1 != n2), fDivZero)
    else
      let num := m1 * 2 ^ 64
      roundTo f (n1 != n2) (2 * (num / m2) + (if num % m2 = 0 then 0 else 1)) (e1 - e2 - 65)

/-- The integer square root, bit by bit from `2^(n-1)` down. -/
def isqrtFrom (x : Nat) : Nat → Nat → Nat
  | 0, r => r
  | n + 1, r => if (r + 2 ^ n) * (r + 2 ^ n) ≤ x then isqrtFrom x n (r + 2 ^ n) else isqrtFrom x n r

/-- Square root. -/
def fSqrt (f : FFmt) (a : FVal) : Nat × Nat :=
  match a with
  | .nan s => nanResult f s
  | .inf n => if n then (f.qnan, fInvalid) else (f.infBits false, 0)
  | .fin n m e =>
    if m = 0 then roundTo f n 0 0
    else if n then (f.qnan, fInvalid)
    else
      let odd := e % 2 != 0
      let m' := (if odd then m * 2 else m) * 2 ^ 64
      let e' := (if odd then e - 1 else e) - 64
      let r := isqrtFrom m' 64 0
      roundTo f false (2 * r + (if r * r = m' then 0 else 1)) (e' / 2 - 1)

/-- Whether a < b, for values that are not NaN. -/
def FVal.less (a b : FVal) : Bool :=
  match a, b with
  | .inf n1, .inf n2 => n1 && !n2
  | .inf n, .fin .. => n
  | .fin .., .inf n => !n
  | .fin n1 m1 e1, .fin n2 m2 e2 =>
    let k := min e1 e2
    decide (scaled n1 m1 e1 k < scaled n2 m2 e2 k)
  | _, _ => false

/-- Whether a = b, for values that are not NaN. -/
def FVal.same (a b : FVal) : Bool := !a.isNan && !b.isNan && !a.less b && !b.less a

/-- Whether a value carries a minus sign. -/
def FVal.neg : FVal → Bool
  | .nan _ => false
  | .inf n => n
  | .fin n _ _ => n

/-- minimumNumber and maximumNumber of IEEE 754-2019, with −0 < +0 (Table 5.12); x and y are the patterns. -/
def fMinMax (f : FFmt) (isMax : Bool) (x y : Nat) : Nat × Nat :=
  let a := unpack f x
  let b := unpack f y
  let fl := if a.sig || b.sig then fInvalid else 0
  if a.isNan && b.isNan then (f.qnan, fl)
  else if a.isNan then (y, fl)
  else if b.isNan then (x, fl)
  else
    let aLess := a.less b || (a.same b && a.neg && !b.neg)
    (if aLess != isMax then x else y, fl)

/-- FEQ, FLT and FLE: a lane of ones or zeros; any NaN gives false (Table 5.12). -/
def fCompare (f : FFmt) (op : FpOp) (x y : Nat) : Nat × Nat :=
  let a := unpack f x
  let b := unpack f y
  let anyNan := a.isNan || b.isNan
  let r := !anyNan && (match op with
    | .eq => a.same b
    | .lt => a.less b
    | _ => a.less b || a.same b)
  let quietInv := if op = .eq then false else if anyNan then Config.quietCompareInvalid else false
  ((if r then 2 ^ f.width - 1 else 0), if a.sig || b.sig then fInvalid else if quietInv then fInvalid else 0)

/-- Conversion of a value to an fp8 format (05 R130): the test is on the value, before rounding. -/
def toFp8 (f : FFmt) (sat : Bool) (a : FVal) : Nat × Nat :=
  match a with
  | .nan s => nanResult f s
  | .inf n => (if sat then f.maxBits n else if f.noInf then f.qnan else f.infBits n,
      if f.noInf || sat then (if Config.fp8InfInvalid then fInvalid else 0) else 0)
  | .fin n m e =>
    if (unpack f (f.maxBits false)).less (.fin false m e) then
      (if sat then f.maxBits n else if f.noInf then f.qnan else f.infBits n, fOverflow + fInexact)
    else roundTo f n m e

/-- Conversion between formats other than to fp8 (05 R129). -/
def convert (f : FFmt) (a : FVal) : Nat × Nat :=
  match a with
  | .nan s => nanResult f s
  | .inf n => (f.infBits n, 0)
  | .fin n m e => roundTo f n m e

/-- fp32 to i64, toward zero, saturating (Table 5.12 F2I). -/
def f2i (a : FVal) : Dword × Nat :=
  match a with
  | .nan _ => (0, fInvalid)
  | .inf n => (if n then BitVec.intMin 64 else BitVec.intMax 64, fInvalid)
  | .fin n m e =>
    let mag := if 0 ≤ e then m * 2 ^ e.toNat else m / 2 ^ (-e).toNat
    let exact := if 0 ≤ e then true else m % 2 ^ (-e).toNat == 0
    if n then
      if 2 ^ 63 < mag then (BitVec.intMin 64, fInvalid)
      else (BitVec.ofInt 64 (-(mag : Int)), if exact then 0 else fInexact)
    else
      if 2 ^ 63 ≤ mag then (BitVec.intMax 64, fInvalid) else (BitVec.ofNat 64 mag, if exact then 0 else fInexact)

/-- Lane i, of width w, of a register (05 R127). -/
def lane (w i : Nat) (x : Dword) : Nat := (x.toNat / 2 ^ (w * i)) % 2 ^ w

/-- Join lanes of width w, lane 0 first, with the union of their flags. -/
def joinLanes (w : Nat) : List (Nat × Nat) → Nat × Nat
  | [] => (0, 0)
  | (v, fl) :: rest =>
    let r := joinLanes w rest
    (v + r.1 * 2 ^ w, fl ||| r.2)

/-- The arithmetic format of fmt 0, 1 or 2. -/
def fmtOf (fmt : Nat) : FFmt := if fmt = 0 then fp32 else if fmt = 1 then bf16 else fp16

/-- The lanes of a register in a format. -/
def lanesOf (f : FFmt) (x : Dword) : List Nat := (List.range (64 / f.width)).map (fun i => lane f.width i x)

/-- Apply a lane operation and join. -/
def perLane (f : FFmt) (op : Nat → Nat × Nat) : Dword × Nat :=
  let r := joinLanes f.width ((List.range (64 / f.width)).map op)
  (BitVec.ofNat 64 r.1, r.2)

/-- The result and the FSTAT flags of a floating-point instruction (Table 5.12): old g[rd], g[ra], g[rb]. -/
def fpVal (op : FpOp) (fmt : Nat) (kind sat src : Bool) (d a b : Dword) : Dword × Nat :=
  let f := fmtOf fmt
  let w := f.width
  let at2 (g : FVal → FVal → Nat × Nat) : Dword × Nat :=
    perLane f (fun i => g (unpack f (lane w i a)) (unpack f (lane w i b)))
  let f8 := if kind then e5m2 else e4m3
  let f16 := if src then fp16 else bf16
  match op with
  | .add => at2 (fAdd f)
  | .sub => at2 (fun x y => fAdd f x y.negate)
  | .mul => at2 (fMul f)
  | .madd => perLane f (fun i => fMadd f (unpack f (lane w i d)) (unpack f (lane w i a)) (unpack f (lane w i b)))
  | .min => perLane f (fun i => fMinMax f false (lane w i a) (lane w i b))
  | .max => perLane f (fun i => fMinMax f true (lane w i a) (lane w i b))
  | .div => at2 (fDiv f)
  | .sqrt => perLane f (fun i => fSqrt f (unpack f (lane w i a)))
  | .eq | .lt | .le => perLane f (fun i => fCompare f op (lane w i a) (lane w i b))
  | .abs => perLane f (fun i => (lane w i a % 2 ^ (w - 1), 0))
  | .neg => perLane f (fun i => (lane w i a ^^^ 2 ^ (w - 1), 0))
  | .cvtN =>
    if fmt = 4 then
      perLane f8 (fun i => toFp8 f8 sat (unpack f16 (if i < 4 then lane 16 i a else lane 16 (i - 4) b)))
    else
      perLane f (fun i => convert f (unpack fp32 (if i < 2 then lane 32 i a else lane 32 (i - 2) b)))
  | .cvtWl =>
    if fmt = 4 then perLane f16 (fun i => convert f16 (unpack f8 (lane 8 i a)))
    else perLane fp32 (fun i => convert fp32 (unpack f (lane 16 i a)))
  | .cvtWh =>
    if fmt = 4 then perLane f16 (fun i => convert f16 (unpack f8 (lane 8 (i + 4) a)))
    else perLane fp32 (fun i => convert fp32 (unpack f (lane 16 (i + 2) a)))
  | .f2i => f2i (unpack fp32 (lane 32 0 a))
  | .i2f =>
    let v := a.toInt
    let r := roundTo fp32 (decide (v < 0)) v.natAbs 0
    (BitVec.ofNat 64 r.1, r.2)

/-- FDIV and FSQRT hold their thread (05 Table 5.16, 06 R159). -/
def fpHolds : FpOp → Bool
  | .div | .sqrt => true
  | _ => false

end Sys2Proof.Machine
end

