-- ==== Sys2Proof/Machine/Island.lean ====
section
/-! DEFINITION. The management chain, the console, the sensors and the accelerator sequencer (03_ridge_chain_console.md). -/

namespace Sys2Proof.Machine

/-! ### Accelerators (03 R91 to R94, Table 3.5) -/

/-- An accelerator's sequencer. -/
def accOf (s : State) (n : Nat) : Acc := Tab.get {} s.accs n

/-- Change an accelerator's sequencer. -/
def setAcc (s : State) (n : Nat) (x : Acc) : State := { s with accs := Tab.store {} s.accs n x }

/-- Set PWR_EN, RST_N and the state of an accelerator. -/
def accOut (s : State) (n : Nat) (en rst : Bool) (st : Nat) : State :=
  let s := setF s Fld.pwrAccStatPwrEn n (if en then 1 else 0)
  let s := setF s Fld.pwrAccStatRstN n (if rst then 1 else 0)
  setF s Fld.pwrAccStatState n st

/-- Begin a sequence on an accelerator whose sequencer is idle (03 R91): 1 on, 2 off, 3 reset pulse. -/
def accBegin (s : State) (n req : Nat) : State :=
  let st := getF s Fld.pwrAccStatState n
  if req = 1 then
    if st = 2 then accOut s n true true 3
    else if st = 3 then s
    else
      let s := setF (accOut s n true false 1) Fld.pwrAccStatFaultCause n 0
      setAcc s n { step := if flagF s Fld.pwrAccStatPg n then 2 else 1 }
  else if req = 2 then
    if flagF s Fld.pwrAccStatPwrEn n then setAcc (accOut s n true false 4) n { step := 3 } else s
  else if req = 3 ∧ st = 3 then setAcc (accOut s n true false 2) n { step := 4 }
  else s

/-- A request (03 R92): begun at once, or kept as the latest while a step runs. A reset pulse of an accelerator that does not
run has no effect. While THERMTRIP_N is asserted every output stays low (16 R462). -/
def accRequest (s : State) (n req : Nat) : State :=
  if 16 ≤ n ∨ req = 0 ∨ 3 < req ∨ flagF s Fld.pwrThermStatTripped 0 = true then s
  else if (accOf s n).step = 0 then accBegin s n req
  else if req = 3 ∧ getF s Fld.pwrAccStatState n ≠ 3 then s
  else setAcc s n { accOf s n with request := req }

/-- The running step has completed; the latest request is followed. -/
def accStepEnd (s : State) (n : Nat) : State :=
  let r := (accOf s n).request
  let s := setAcc s n {}
  if r = 0 then s else accBegin s n r

/-- A fault (03 R93): both outputs low, state 5 with its cause. -/
def accFault (s : State) (n cause : Nat) : State :=
  let s := setF (accOut s n false false 5) Fld.pwrAccStatFaultCause n cause
  let s := bump (setAcc s n {}) Fld.pwrAccFaultCnt 0
  raiseD s srcRidge { code := 0x0008, aux8 := n, aux16 := cause }

/-- ACC_ON_REQUEST (03 Table 3.5). -/
def execAccOnRequest (n : Nat) (s : State) : Host.Outcome State Fault Refusal := .next (accRequest s n 1)

/-- ACC_OFF_REQUEST. -/
def execAccOffRequest (n : Nat) (s : State) : Host.Outcome State Fault Refusal := .next (accRequest s n 2)

/-- ACC_RESET_PULSE. -/
def execAccResetPulse (n : Nat) (s : State) : Host.Outcome State Fault Refusal := .next (accRequest s n 3)

/-- ACC_PG_RISE: power is good; the reset delay begins, or the latest request is followed (03 Table 3.5, R92). -/
def execAccPgRise (n : Nat) (s : State) : Host.Outcome State Fault Refusal :=
  .next
    (if 16 ≤ n then s
    else
      let s := setF s Fld.pwrAccStatPg n 1
      if (accOf s n).step ≠ 1 then s
      else if (accOf s n).request = 2 then accStepEnd s n
      else setAcc s n { step := 2, request := 0 })

/-- ACC_RST_DELAY_EXPIRY: RST_N high, running. -/
def execAccRstDelayExpiry (n : Nat) (s : State) : Host.Outcome State Fault Refusal :=
  .next (if n < 16 ∧ (accOf s n).step = 2 then accStepEnd (accOut s n true true 3) n else s)

/-- ACC_OFF_DELAY_EXPIRY: PWR_EN low, off. -/
def execAccOffDelayExpiry (n : Nat) (s : State) : Host.Outcome State Fault Refusal :=
  .next (if n < 16 ∧ (accOf s n).step = 3 then accStepEnd (accOut s n false false 0) n else s)

/-- ACC_PULSE_EXPIRY: RST_N high, running. -/
def execAccPulseExpiry (n : Nat) (s : State) : Host.Outcome State Fault Refusal :=
  .next (if n < 16 ∧ (accOf s n).step = 4 then accStepEnd (accOut s n true true 3) n else s)

/-- ACC_PG_TIMEOUT (03 R93). -/
def execAccPgTimeout (n : Nat) (s : State) : Host.Outcome State Fault Refusal :=
  .next (if n < 16 ∧ (accOf s n).step = 1 then accFault s n 1 else s)

/-- ACC_PG_LOST: power good falls; a fault while PWR_EN is high (03 R93). -/
def execAccPgLost (n : Nat) (s : State) : Host.Outcome State Fault Refusal :=
  .next
    (if n < 16 ∧ flagF s Fld.pwrAccStatPg n = true then
      let s := setF s Fld.pwrAccStatPg n 0
      if flagF s Fld.pwrAccStatPwrEn n then accFault s n 2 else s
    else s)

/-! ### The chain (03 R62 to R78) -/

/-- CRC-8 of a frame: polynomial 0x07, initial value 0 (03 R69). -/
def crc8Step (c : Nat) : Nat → Nat
  | 0 => c
  | n + 1 => crc8Step (if 128 ≤ c then (2 * c % 256) ^^^ 7 else 2 * c) n

/-- CRC-8 of bytes. -/
def crc8 (bs : List Byte) : Nat := bs.foldl (fun c b => crc8Step (c ^^^ b.toNat) 8) 0

/-- The bytes of a write phase, its crc included. -/
def chainWritePhase (address cmd : Nat) (payload : List Byte) : List Byte :=
  let w := leBytes 1 (2 * address) ++ leBytes 1 cmd ++ leBytes 1 payload.length ++ payload
  w ++ leBytes 1 (crc8 w)

/-- Change the chain's state. -/
def setChain (s : State) (c : Chain) : State := { s with chain := c }

/-- Answer a read command: status, len, payload, crc over the whole frame (03 Table 3.1). A status left by an earlier frame is
returned first (03 R70). -/
def chainAnswer (s : State) (address cmd : Nat) (w : List Byte) (status : Nat) (payload : List Byte) : State :=
  let st := if status ≠ 0 then status else s.chain.lastStatus
  let body := if status ≠ 0 then [] else payload
  let r := leBytes 1 st ++ leBytes 1 body.length ++ body
  let crc := crc8 (chainWritePhase address cmd w ++ leBytes 1 (2 * address + 1) ++ r)
  emit (setChain s { s.chain with lastStatus := 0 }) (.chain (r ++ leBytes 1 crc))

/-- A write command ends with a status, which the next read returns (03 R70). -/
def chainStatus (s : State) (status : Nat) : State := setChain s { s.chain with lastStatus := status }

/-- Whether the unit answers at a chain address. -/
def chainMine (s : State) (address : Nat) : Bool :=
  !inReset s && flagF s Fld.pwrChainAddrAddressed 0 && getF s Fld.pwrChainAddrAddress 0 == address

/-- Chain status codes (03 Table 3.3). -/
def chOk : Nat := 0
def chBadArg : Nat := 4
def chDenied : Nat := 5
def chEmpty : Nat := 6

/-- The node ID follows the chain address until the host has written it (03 R77, R78). -/
def nodeFollow (s : State) : State :=
  if flagF s Fld.pwrNodeIdWritten 0 then s
  else setF s Fld.pwrNodeIdNodeId 0
    (if flagF s Fld.pwrChainAddrAddressed 0 then 0x800 + (getF s Fld.pwrChainAddrAddress 0 - 0x10) else 0xFFF)

/-- Give up the chain address and drive RCH_EN_OUT low (03 R66, R74). -/
def chainRelease (s : State) : State :=
  let s := setF s Fld.pwrChainAddrAddress 0 0
  let s := setF s Fld.pwrChainAddrAddressed 0 0
  nodeFollow (setF s Fld.pwrChainAddrEnOut 0 0)

/-- The level of RCH_EN_IN at a start condition. -/
def chainEnIn (s : State) (enIn : Bool) : State := setF s Fld.pwrChainAddrEnIn 0 (if enIn then 1 else 0)

/-- ASSIGN_QUERY: an unaddressed enabled unit answers with its unit ID; the lowest one on the bus wins (03 R65, R67). -/
def execAssignQuery (enIn : Bool) (others : List Dword) (s : State) : Host.Outcome State Fault Refusal :=
  .next
    (let s := chainEnIn s enIn
     if enIn && !inReset s && !flagF s Fld.pwrChainAddrAddressed 0 && others.all (fun u => decide (unitId s < u.toNat)) then
       chainAnswer s 0x6E 0x01 [] chOk (beBytes 8 (unitId s))
     else s)

/-- ASSIGN_SET (03 R66, R72). -/
def execAssignSet (enIn : Bool) (uid : Dword) (address : Nat) (s : State) : Host.Outcome State Fault Refusal :=
  .next
    (let s := chainEnIn s enIn
     if !(enIn && !inReset s && !flagF s Fld.pwrChainAddrAddressed 0 && decide (uid.toNat = unitId s)) then s
     else if address < 0x10 ∨ 0x6B < address then chainStatus s chBadArg
     else
       let s := setF s Fld.pwrChainAddrAddress 0 address
       let s := setF s Fld.pwrChainAddrAddressed 0 1
       chainStatus (nodeFollow (setF s Fld.pwrChainAddrEnOut 0 1)) chOk)

/-- IDENT (03 Table 3.2). -/
def execIdent (address : Nat) (s : State) : Host.Outcome State Fault Refusal :=
  .next
    (if chainMine s address then
      chainAnswer s address 0x10 [] chOk
        (beBytes 2 (getF s Fld.identIdVendorId 0) ++ beBytes 2 (getF s Fld.identIdDeviceId 0) ++ beBytes 1 0x10 ++
          beBytes 1 address ++ beBytes 2 (nodeId s) ++ beBytes 8 (unitId s))
    else s)

/-- STATUS (03 Table 3.2). -/
def execStatus (address : Nat) (s : State) : Host.Outcome State Fault Refusal :=
  .next
    (if chainMine s address then
      chainAnswer s address 0x11 [] chOk
        (beBytes 4 (getReg s .pwrState 0).toNat ++ beBytes 4 (getReg s .bootAttempts 0).toNat ++
          beBytes 4 (getReg s .pwrBootStat 0).toNat)
    else s)

/-- SENSOR_READ (03 Table 3.2). -/
def execSensorRead (address index : Nat) (s : State) : Host.Outcome State Fault Refusal :=
  .next
    (if !chainMine s address then s
    else
      let w := leBytes 1 index
      if index ≤ 0x0F then chainAnswer s address 0x12 w chOk (beBytes 2 (getReg s .pwrTemp index).toNat)
      else if 0x20 ≤ index ∧ index ≤ 0x27 then chainAnswer s address 0x12 w chOk (beBytes 2 (getF s Fld.pwrVmonMv (index - 0x20)))
      else if index = 0xFF then chainAnswer s address 0x12 w chOk (beBytes 2 (getReg s .pwrTempMax 0).toNat)
      else chainAnswer s address 0x12 w chBadArg [])

/-- Whether a message's header says that all of it has come. -/
def mbxWhole (bs : List Byte) : Bool := decide (16 ≤ bs.length ∧ 16 + msgLen pathChain bs ≤ bs.length)

/-- MAILBOX_WRITE: a segment of a message (03 R73). One that begins a new message while the last one, ended, is short of its
length discards that one and counts it. -/
def execMailboxWrite (address flags : Nat) (bytes : List Byte) (s : State) : Host.Outcome State Fault Refusal :=
  .next
    (if !chainMine s address || decide (254 < bytes.length) then s
    else
      let stale := s.chain.msgEnded
      let s := if stale then bump s Fld.pwrChainErrCnt 0 else s
      let old := if stale then [] else s.chain.msgIn.getD []
      let m := old ++ bytes
      let last := flags % 2 == 1
      let s := chainStatus s chOk
      if last && mbxWhole m then mbxArrive (setChain s { s.chain with msgIn := none, msgEnded := false }) pathChain m 0
      else setChain s { s.chain with msgIn := some m, msgEnded := last })

/-- MAILBOX_READ: a segment of the response (03 R73). -/
def execMailboxRead (address : Nat) (s : State) : Host.Outcome State Fault Refusal :=
  .next
    (if !chainMine s address then s
    else
      let m := s.chain.msgOut
      if m.isEmpty then chainAnswer s address 0x21 [] chEmpty []
      else
        let seg := m.take 254
        let rest := m.drop 254
        chainAnswer (setChain s { s.chain with msgOut := rest }) address 0x21 [] chOk (leBytes 1 (if rest.isEmpty then 1 else 0) ++ seg))

/-- A command that ctl_lock denies (03 R75). -/
def chainDenied (s : State) : State := chainStatus (bump s Fld.pwrDeniedCnt 0) chDenied

/-- ACC_POWER (03 R75, R92). -/
def execAccPower (address n request : Nat) (s : State) : Host.Outcome State Fault Refusal :=
  .next
    (if !chainMine s address then s
    else if flagF s Fld.pwrChainCtlCtlLock 0 then chainDenied s
    else if 16 ≤ n ∨ 3 < request then chainStatus s chBadArg
    else chainStatus (accRequest s n request) chOk)

/-- ACC_STATUS (03 Table 3.2). -/
def execAccStatus (address : Nat) (s : State) : Host.Outcome State Fault Refusal :=
  .next
    (if chainMine s address then
      chainAnswer s address 0x31 [] chOk ((List.range 16).flatMap (fun n => leBytes 1 (getReg s .pwrAccStat n).toNat))
    else s)

/-- WAKE: a Roof Sleep wake source, or outside Roof Sleep a PME event of each endpoint (03 R74). -/
def execWake (address : Nat) (s : State) : Host.Outcome State Fault Refusal :=
  .next
    (if !chainMine s address then s
    else
      let s := if s.ridge.roof = .awake then pmeEvent (pmeEvent s 0 0 0) 1 0 0 else roofSource s 1 []
      chainStatus s chOk)

/-- TARP_FORCE by the chain (03 R74, R75). -/
def execTarpForce (address : Nat) (s : State) : Host.Outcome State Fault Refusal :=
  .next
    (if !chainMine s address then s
    else if flagF s Fld.pwrChainCtlCtlLock 0 then chainDenied s
    else chainStatus (tarpEnter s 6) chOk)

/-- RESET_WARM by the chain (03 R74, R75). -/
def execResetWarm (address c0 c1 : Nat) (s : State) : Host.Outcome State Fault Refusal :=
  .next
    (if !chainMine s address then s
    else if flagF s Fld.pwrChainCtlCtlLock 0 then chainDenied s
    else if c0 ≠ 0xA5 ∨ c1 ≠ 0x5A then chainStatus s chBadArg
    else resetWarmCmd s)

/-- RELEASE (03 R74). -/
def execRelease (address : Nat) (s : State) : Host.Outcome State Fault Refusal :=
  .next (if chainMine s address then chainStatus (chainRelease s) chOk else s)

/-- CHAIN_BAD_FRAME: a frame with a bad CRC (1), an unknown cmd (2) or a wrong len (3) changes no state but the status and the
count (03 R70). -/
def execChainBadFrame (address why cmd : Nat) (isRead : Bool) (s : State) : Host.Outcome State Fault Refusal :=
  .next
    (if chainMine s address && decide (1 ≤ why ∧ why ≤ 3) then
      let s := bump s Fld.pwrChainErrCnt 0
      let s := if isRead then chainAnswer s address cmd [] why [] else s
      chainStatus s why
    else s)

/-- CHAIN_TIMEOUT (03 R71). -/
def execChainTimeout (s : State) : Host.Outcome State Fault Refusal := .next (bump s Fld.pwrChainTimeoutCnt 0)

/-! ### The console (03 R79 to R85) -/

/-- CONSOLE_CHARACTER (03 R80 to R84): nothing is delivered while a break goes on. -/
def execConsoleCharacter (c : Byte) (stopHigh : Bool) (s : State) : Host.Outcome State Fault Refusal :=
  .next (if s.console.inBreak then s else conRx s c (!stopHigh))

/-- CONSOLE_BREAK (03 R83). -/
def execConsoleBreak (s : State) : Host.Outcome State Fault Refusal :=
  .next
    (if s.console.inBreak then s
    else
      let s := conRx s 0 true
      let s := bump (setF s Fld.pwrConStatBrk 0 1) Fld.pwrConBreakCnt 0
      let s := raiseD (setCon s { s.console with inBreak := true }) srcRidge { code := 0x0009 }
      roofSource s 2 [])

/-- CONSOLE_BREAK_END (03 R83). -/
def execConsoleBreakEnd (s : State) : Host.Outcome State Fault Refusal := .next (setCon s { s.console with inBreak := false })

/-- CONSOLE_TX_CHARACTER_SENT: the character has left; a waiting log line goes in where it may, then the next character (03
R84, R85). -/
def execConsoleTxCharacterSent (s : State) : Host.Outcome State Fault Refusal :=
  .next
    (match s.console.sending with
     | none => s
     | some c =>
       let lf := decide (c = 0x0A)
       let s := emit (setCon s { s.console with sending := none, midLine := !lf, holdLost := s.console.holdLost && !lf }) (.con c)
       conStart (conFlushLog s))

/-- CONSOLE_LINE_HOLD_EXPIRY: the line of software's loses its protection (03 R85). -/
def execConsoleLineHoldExpiry (s : State) : Host.Outcome State Fault Refusal :=
  .next (if s.console.midLine then conFlushLog (setCon s { s.console with holdLost := true }) else s)

/-! ### Sensors (03 R86 to R90) -/

/-- Temperature not available. -/
def tempNone : Half := 0x8000

/-- The largest available temperature and the first sensor that reads it. -/
def tempMax (ts : List Half) : Half × Nat :=
  (ts.zipIdx).foldl (fun m t => if t.1 = tempNone then m else if m.1 = tempNone ∨ m.1.toInt < t.1.toInt then t else m) (tempNone, 0)

/-- Whether a level is in force after a sample, from whether it was (03 R87, Table 3.4). -/
def levelHeld (s : State) (t : Int) (was k : Nat) : Bool :=
  let enter : Int := 8 * (if k = 1 then getF s Fld.pwrThermThreshWarn 0 else if k = 2 then getF s Fld.pwrThermThreshHard 0
    else getF s Fld.pwrThermThreshEmerg 0 : Nat)
  let leave : Int := if k = 3 then 8 * (getF s Fld.pwrThermThreshClear 0 : Nat) else enter - 40
  if enter ≤ t then true else if t < leave then false else decide (k ≤ was)

/-- The thermal emergency: the attempt in progress is abandoned, attempts are held, Tarp mode is entered (02 R57, R60). -/
def thermalEmergency (s : State) : State :=
  let s := match s.ridge.attempt with
    | some a => attemptEnd s a.src 7
    | none => s
  let s := setF s Fld.pwrStateThermalHold 0 1
  let s := setF { s with ridge := { s.ridge with backoffEnd := none } } Fld.pwrBootStatCycleActive 0 0
  tarpEnter (loadEnd s 5) 5

/-- The temperature has fallen below the clear threshold: a backoff, then a cycle at slot 0 (02 R60). -/
def thermalClear (s : State) : State :=
  let s := setF s Fld.pwrStateThermalHold 0 0
  if mode s = 1 then s
  else { s with ridge := { s.ridge with backoffEnd := some (s.ftime + getF s Fld.pwrBootStatBackoffS 0 * 1000000000) } }

/-- The levels after a sample of PWR_TEMP_MAX (03 R87, R88). -/
def thermSample (s : State) (t : Half) (sensor : Nat) : State :=
  if t = tempNone then s
  else
    let was := thermLevel s
    let held (k : Nat) : Bool := levelHeld s t.toInt was k
    let now := if held 3 then 3 else if held 2 then 2 else if held 1 then 1 else 0
    let n := ([1, 2].filter (fun k => held k && decide (was < k))).length
    let s := poolsSettle (setF s Fld.pwrThermStatLevel 0 now)
    let s := bumpN s Fld.pwrThrottleCnt 0 n
    let s := if 0 < n then raiseD s srcRidge { code := 0x0006, aux8 := now, aux16 := t.toNat, arg0 := sensor } else s
    let s := if was = 0 ∧ 0 < now then roofSource s 3 [] else s
    if was < 3 ∧ now = 3 then thermalEmergency s
    else if was = 3 ∧ now < 3 then thermalClear s
    else s

/-- A voltage monitor's sample (03 R90). -/
def vmonSample (s : State) (j mv : Nat) : State :=
  let low := decide (mv ≤ getF s Fld.pwrVmonLimLow j)
  let high := decide (getF s Fld.pwrVmonLimHigh j ≤ mv)
  let s := setF s Fld.pwrVmonMv j mv
  let s := if low then setF s Fld.pwrVmonLowAlert j 1 else s
  let s := if high then setF s Fld.pwrVmonHighAlert j 1 else s
  let out := s.ridge.vmonOut.contains j
  if low || high then
    if out then s
    else
      let s := { s with ridge := { s.ridge with vmonOut := insertNat j s.ridge.vmonOut } }
      let s := raiseD s srcRidge { code := 0x0007, aux8 := j, aux16 := mv, arg0 := (if low then 1 else 0) + if high then 2 else 0 }
      roofSource s 3 []
  else { s with ridge := { s.ridge with vmonOut := s.ridge.vmonOut.filter (· != j) } }

/-- SENSOR_SAMPLE: the Ridge reads every sensor and monitor (03 R86 to R90). -/
def execSensorSample (temps : List Half) (mv : List Nat) (s : State) : Host.Outcome State Fault Refusal :=
  .next
    (let hbm := domUp s purlin
     let ts := (List.range 16).map (fun i => if 12 ≤ i ∧ hbm = false then tempNone else temps.getD i tempNone)
     let s := (ts.zipIdx).foldl (fun s t => setReg s .pwrTemp t.2 (t.1.setWidth 64)) s
     let m := tempMax ts
     let s := setReg s .pwrTempMax 0 (m.1.setWidth 64)
     let s := ((List.range 8).filter (fun j => decide (j < mv.length))).foldl (fun s j => vmonSample s j (mv.getD j 0 % 65536)) s
     thermSample s m.1 m.2)

/-- THERMTRIP: every accelerator output low; THERMTRIP_N stays asserted until cold reset (03 R89, R93, 16 R462). -/
def execThermtrip (s : State) : Host.Outcome State Fault Refusal :=
  .next
    (let s := setF s Fld.pwrThermStatTripped 0 1
     (List.range 16).foldl (fun s n => if flagF s Fld.pwrAccStatPwrEn n then accFault s n 3 else s) s)

end Sys2Proof.Machine
end

