-- ==== Sys2Proof/Machine/Mailbox.lean ====
section
/-! DEFINITION. The Ridge mailbox's messages (07 R209 to R211, Table 7.10) and the bare port (02 R58). Each command handles the
message at the front of the Ridge's queue, if it is of the command's type. -/

namespace Sys2Proof.Machine

/-- Whether ctl_lock denies a message by its path (03 R75, 07 R209). -/
def mbxLocked (s : State) (path : Nat) : Bool := (path == 2 || path == 3) && flagF s Fld.pwrChainCtlCtlLock 0

/-- Answer a message that ctl_lock denies. -/
def mbxDenied (s : State) : State := mbxReply (bump s Fld.pwrDeniedCnt 0) stDenied []

/-- Handle the message at the front if it is of a type: with the length its type asks for, by `f`. -/
def mbxHandle (s : State) (typ len : Nat) (f : Nat → List Byte → State) : State :=
  match mbxFront s typ with
  | none => s
  | some (p, bs) =>
    if msgLen p bs ≠ len ∨ (msgPayload p bs).length ≠ len then mbxReply s stBadLen [] else f p bs

/-- MBX_PING. -/
def execMbxPing (s : State) : Host.Outcome State Fault Refusal :=
  .next (mbxHandle s 0x01 0 (fun _ _ => mbxReply s stOk (pingPayload s)))

/-- MBX_STATUS. -/
def execMbxStatus (s : State) : Host.Outcome State Fault Refusal :=
  .next (mbxHandle s 0x02 0 (fun _ _ => mbxReply s stOk (statusPayload s)))

/-- BOOT_BEGIN (07 R211). -/
def execBootBegin (s : State) : Host.Outcome State Fault Refusal :=
  .next
    (match mbxFront s 0x10 with
     | none => s
     | some (p, bs) => let r := bootBegin s p bs; mbxReply r.2.2 r.1 r.2.1)

/-- BOOT_BLOCK (07 R211). -/
def execBootBlock (s : State) : Host.Outcome State Fault Refusal :=
  .next
    (match mbxFront s 0x11 with
     | none => s
     | some (p, bs) => let r := bootBlock s p bs; mbxReply r.2.2 r.1 r.2.1)

/-- BOOT_END (07 R211): its answer may follow the image checks. -/
def execBootEnd (s : State) : Host.Outcome State Fault Refusal :=
  .next
    (match mbxFront s 0x12 with
     | none => s
     | some (p, bs) =>
       let r := bootEnd s p bs
       match r.1 with
       | some (st, body) => mbxReply r.2 st body
       | none => r.2)

/-- LOG_READ: the oldest console log bytes the Ridge holds, which it then holds no more (07 Table 7.10; DEDUCED, log 49). -/
def execLogRead (s : State) : Host.Outcome State Fault Refusal :=
  .next
    (mbxHandle s 0x20 0 (fun _ _ =>
      let l := s.host.log
      mbxReply { s with host := { s.host with log := l.drop 4080 } } stOk (l.take 4080)))

/-- TARP_FORCE by a message (03 R75, 07 R209). -/
def execMbxTarpForce (s : State) : Host.Outcome State Fault Refusal :=
  .next (mbxHandle s 0x30 0 (fun p _ => if mbxLocked s p then mbxDenied s else mbxReply (tarpEnter s 6) stOk []))

/-- RESET_WARM by a message: it acts once its response has been sent (03 R74). Wrong confirm bytes give BAD_LEN (DEDUCED, log 50). -/
def execMbxResetWarm (s : State) : Host.Outcome State Fault Refusal :=
  .next
    (mbxHandle s 0x31 2 (fun p bs =>
      if mbxLocked s p then mbxDenied s
      else if leAt (msgPayload p bs) 0 2 ≠ 0x5AA5 then mbxReply s stBadLen []
      else resetWarmCmd (mbxReply s stOk [])))

/-- ACC_POWER by a message (03 R92). -/
def execMbxAccPower (s : State) : Host.Outcome State Fault Refusal :=
  .next
    (mbxHandle s 0x32 2 (fun p bs =>
      let n := leAt (msgPayload p bs) 0 1
      let r := leAt (msgPayload p bs) 1 1
      if mbxLocked s p then mbxDenied s
      else if 16 ≤ n ∨ 3 < r then mbxReply s stBadLen []
      else mbxReply (accRequest s n r) stOk []))

/-- BARE_PORT_FRAME: a frame of EtherType 0x88B5 carries one message; every other frame is discarded (02 R58, 07 R206, R210). -/
def execBarePortFrame (etherType src : Nat) (msg : List Byte) (s : State) : Host.Outcome State Fault Refusal :=
  .next
    (let roofOn := decide (s.ridge.roof ≠ .awake) && flagF s Fld.pwrRoofWakeEnBarePortFrame 0
     if etherType ≠ 0x88B5 ∨ inReset s = true ∨ (barePortUp s = false ∧ roofOn = false) then s
     else
       let s := pmeEvent (pmeEvent s 0 0 1) 1 0 1
       let s := roofSource s 6 []
       if msg.length < 16 then s else mbxArrive s pathBare msg src)

end Sys2Proof.Machine
end

