-- ==== Sys2Proof/Machine/Thatch.lean ====
section
/-! DEFINITION. Loading a thatch: the live reload of one bay (04 R110 to R118), the full load at boot (Table 4.12, R109), the Roof
Sleep exit that recommits every bay (R109, 02 Table 2.6) and the power-budget cap (R121). -/

namespace Sys2Proof.Machine

/-! ### Phase, result, image -/

/-- THATCH_STAT.phase. -/
def phase (s : State) : Nat := getF s Fld.thatchStatPhase 0

/-- Set THATCH_STAT.phase. -/
def setPhase (s : State) (p : Nat) : State := setF s Fld.thatchStatPhase 0 p

/-- The bay being reloaded. -/
def curBay (s : State) : Nat := getF s Fld.thatchStatBay 0

/-- Change how far the load has come (R107). -/
def setStage (s : State) (n : Nat) : State := { s with thatch := { s.thatch with stage := n } }

/-- A check of the reload has failed with a result code: the strike is to be lifted (R107, R115). -/
def loadFailed (s : State) (code : Nat) : State :=
  { setStage s 5 with thatch := { (setStage s 5).thatch with failResult := code } }

/-- THATCH_SRC: address and length. -/
def srcAddr (s : State) : Nat := (getReg s .thatchSrcLo 0).toNat + (getReg s .thatchSrcHi 0).toNat % 2 ^ 20 * 2 ^ 32
def srcLen (s : State) : Nat := (getReg s .thatchSrcLen 0).toNat

/-- The image a bay runs under: its own latest one, or the full image (R108, R118). -/
def storedImage (s : State) (b : Nat) : List Byte :=
  match (bayOf s b).image with
  | some i => i
  | none => s.thatch.full.getD []

/-! ### Strike (R112) -/

/-- INT_STRIKE becomes pending in a bay's threads that run; an enabled one wakes its rafter (R112, 06 R163, R177). -/
def strikeThread (s : State) (t : Nat) : State :=
  let x := threadOf s t
  let s := setThread s t { x with intStrike := true }
  if decide (x.st = .waiting) && x.ie && !x.inTrap && x.imask.getLsbD 2 then latchWake s (tidRafter t) 2 else s

/-- The threads of a bay that are not parked. -/
def liveThreads (s : State) (b : Nat) : List Nat :=
  (s.rafters.threads.filter (fun e => bitN (envOf s b).rafterMask (tidRafter e.1) && decide (e.2.st ≠ .parked))).map (fun e => e.1)

/-- Hold a bay's slabs in reset, or release the programmed ones (R117, R125). -/
def slabsReset (s : State) (b : Nat) (hold : Bool) : State :=
  (List.range 4).foldl (fun s n =>
    if bitN (envOf s b).slabMask n then
      let x := Tab.get {} s.thatch.slabs n
      { s with thatch := { s.thatch with slabs := Tab.store {} s.thatch.slabs n { x with inReset := hold || !x.programmed } } }
    else s) s

/-- Strike a bay (R112). -/
def strike (s : State) (b : Nat) : State :=
  let s := setBay s b { bayOf s b with struck := true, struckAt := s.ftime, quiesced := false }
  let s := setReg s .thatchBayStat b 2
  let s := slabsReset s b true
  let s := (liveThreads s b).foldl strikeThread (wakeWatchers s (bitStruck b))
  raiseD s srcThatch { code := 0x0101, bay := b, arg0 := getF s Fld.thatchBayEpoch b }

/-- The strike ends: admission reopens, the RWL fields lock again, the strike event bit clears, the programmed slabs leave
reset and the firmware starts with a reason (R115, R117, R118). -/
def endStrike (s : State) (b reason : Nat) : State :=
  let s := setBay s b { bayOf s b with struck := false, quiesced := false }
  let s := setF (slabsReset s b false) Fld.thatchBayStatState b 1
  startBayUp s b reason

/-- The reload is over with a result. -/
def reloadOver (s : State) (result : Nat) : State :=
  let s := setF (setPhase s 0) Fld.thatchStatResult 0 result
  { s with thatch := { s.thatch with stage := 0, auto := false } }

/-- A denied write of the thatch block (R110, R118). -/
def thatchDeny (s : State) : State := bump s Fld.thatchDeniedCnt 0

/-! ### Apply (R116, R100 to R103, R468) -/

/-- Write one domain's clock plan (R101); what no entry names takes the reset values. -/
def applyPlan (plan : List (List Byte)) (s : State) (d : Nat) : State :=
  match plan.find? (fun x => leAt x 0 1 == d) with
  | some x =>
    let s := setF (setF s Fld.pwrDomCtlIdleFloor d (leAt x 1 1)) Fld.pwrDomCtlNapDelayUs d (leAt x 4 2)
    { s with thatch := { s.thatch with freqCap := Tab.store 0 s.thatch.freqCap d (leAt x 2 2) } }
  | none =>
    let r := (Reg.resetVal .pwrDomCtl d).toNat
    let s := setF (setF s Fld.pwrDomCtlIdleFloor d (fieldOf r 1 0)) Fld.pwrDomCtlNapDelayUs d (fieldOf r 19 4)
    { s with thatch := { s.thatch with freqCap := Tab.store 0 s.thatch.freqCap d 0 } }

/-- Write one listed queue pair's configuration (R100). -/
def applyRing (s : State) (x : List Byte) : State :=
  let q := leAt x 0 2
  let s := setF s Fld.qpCtlServiceRafter q (leAt x 2 1)
  let s := setF s Fld.qpCtlEventRing q (leAt x 3 1)
  let s := setF s Fld.qpCtlLog2Depth q (leAt x 4 1)
  setF s Fld.qpCtlKind q (leAt x 5 1)

/-- Copy one firmware segment and fill it up to memsz with 0 (R103). -/
def applySegment (fw : List Byte) (s : State) (i : Nat) : State :=
  let g := (fw.drop (32 + 32 * i)).take 32
  let n := leAt g 8 8
  writeBytes s (leAt g 0 8) ((fw.drop (leAt g 24 8)).take n ++ List.replicate (leAt g 16 8 - n) 0)

/-- Program a slab of the bay, held in reset, or leave it unprogrammed where the image carries no bitstream for it (R468). -/
def applySlab (img : List Byte) (b : Nat) (s : State) (n : Nat) : State :=
  let x : Slab := match (imgSections img).find? (fun x => x.typ == 9 && x.bay == b && x.slab == n) with
    | some c =>
      let h := sectionBytes img c
      { inReset := true, programmed := true, version := leAt h 1 1, clockMhz := leAt h 2 2, latencyMax := leAt h 4 2 }
    | none => {}
  { s with thatch := { s.thatch with slabs := Tab.store {} s.thatch.slabs n x } }

/-- Apply an image's sections of one bay under an envelope: clock plan, rings, firmware segments, slabs (R116). -/
def applyBay (img : List Byte) (e : Envelope) (s : State) (b : Nat) : State :=
  let s := ((List.range 64).filter (fun r => bitN e.rafterMask r)).foldl (applyPlan (entriesOf 8 (contentOf img 3 b))) s
  let s := (entriesOf 16 (contentOf img 2 b)).foldl applyRing s
  let fw := contentOf img 5 b
  let s := (List.range (leAt fw 8 4)).foldl (applySegment fw) s
  ((List.range 4).filter (fun n => bitN e.slabMask n)).foldl (applySlab img b) s

/-- The device-wide sections of a full image (Table 4.3; 12 R354). -/
def applyDevice (img : List Byte) (s : State) : State :=
  let s := ((List.range 15).map (fun i => 64 + i)).foldl (applyPlan (entriesOf 8 (contentOf img 3 0xFF))) s
  let s := { s with truss := { s.truss with graph := contentOf img 6 0xFF, reedProgs := contentOf img 7 0xFF } }
  match optContent img 8 with
  | some c =>
    let s := { s with loft := { s.loft with ctxBase := leAt c 8 8, ctxCount := leAt c 0x10 4 } }
    setF (setF s Fld.loftStatEnabled 0 1) Fld.loftStatCtlBay 0 (leAt c 0 1)
  | none =>
    let s := { s with loft := { s.loft with ctxBase := 0, ctxCount := 0 } }
    setF (setF s Fld.loftStatEnabled 0 0) Fld.loftStatCtlBay 0 0

/-- Apply a whole full image (Table 4.12 step 5). -/
def applyFull (img : List Byte) (s : State) : State :=
  let m := contentOf img 1 0xFF
  (List.range (bayCount img)).foldl (fun s b => applyBay img (envAt m b) s b) (applyDevice img s)

/-! ### Commit (R109, R117) -/

/-- What an image gives a bay beside its envelope. -/
def bayRecord (img : List Byte) (b : Nat) (x : Bay) : Bay :=
  { x with entryPc := leAt (contentOf img 5 b) 0 8, rings := (entriesOf 16 (contentOf img 2 b)).map (fun e => leAt e 0 2), routes := (entriesOf 16 (contentOf img 4 b)).map (fun e => ⟨leAt e 0 1, leAt e 1 1, leAt e 2 1, leAt e 3 1, leAt e 4 2⟩) }

/-- Commit a bay under an epoch and start its firmware: slabs out of reset, epoch, RWL fields locked, shared bits and event
flags 0, firmware, admission (R117, 05 R134). -/
def commitBay (s : State) (b epoch reason : Nat) : State :=
  let s := setF s Fld.thatchBayEpoch b epoch
  let s := clearFlags (clearShared s b) b
  let s := endStrike s b reason
  raiseD s srcThatch { code := 0x0102, bay := b, arg0 := epoch }

/-- Commit the reload in staging (R117). -/
def commitReload (s : State) : State :=
  let b := curBay s
  let img := s.thatch.staging
  let s := setBay s b { bayRecord img b (bayOf s b) with image := some img }
  let s := bump (commitBay s b (imgEpoch img) 1) Fld.thatchReloadCnt 0
  reloadOver s 1

/-- The committed full image's own registers (R109, Table 4.1). -/
def fullRegs (img : List Byte) (s : State) : State :=
  let s := setReg s .thatchLayoutIdLo 0 (BitVec.ofNat 64 (imgLayout img % 2 ^ 32))
  let s := setReg s .thatchLayoutIdHi 0 (BitVec.ofNat 64 (imgLayout img / 2 ^ 32))
  let s := (List.range 4).foldl (fun s i => setReg s .thatchBuildId i (BitVec.ofNat 64 (leAt img (0x30 + 4 * i) 4))) s
  let s := setF s Fld.pwrStateRoofAllowed 0 (imgFlags img % 2)
  { s with thatch := { s.thatch with bootServe := bitN (imgFlags img) 1, full := some img } }

/-- Bring every domain that the Ridge has started to Run. -/
def wakeAll (s : State) : State := (purlin :: otherDoms).foldl wakeNow s

/-- Raise TARP_EXIT on the live host event rings, or keep it owed until one is live (02 R61). -/
def tellExit (s : State) : State :=
  if (hostRings s).isEmpty then { s with ridge := { s.ridge with exitOwed := true } }
  else
    raiseH { s with ridge := { s.ridge with exitOwed := false } } srcRidge { code := 0x0003, arg0 := getF s Fld.bootAttempts 0 }

/-- Tarp mode ends (02 R61): the bare port is the thatch's again. -/
def tarpLeave (s : State) : State :=
  let s := setF (setF s Fld.pwrStateTarpCause 0 0) Fld.pwrStateTarpSeen 0 0
  conLog (tellExit { s with ridge := { s.ridge with barePort := false, tarpEntry := none } })

/-- The bays of a full image replace the committed ones. -/
def fullBays (img : List Byte) (s : State) : State :=
  let m := contentOf img 1 0xFF
  let n := bayCount img
  let s := { s with thatch := { s.thatch with bays := [] } }
  let s := (List.range 64).foldl (fun s b => if b < n then s else setReg s .thatchBayStat b 0) s
  (List.range n).foldl (fun s b => setBay (setReg s .thatchBayStat b 1) b (bayRecord img b { env := envAt m b })) s

/-- Commit the full image in staging: Normal mode (Table 4.12 step 6, R109, 02 R55, R61). -/
def commitFull (s : State) : State :=
  let img := s.thatch.staging
  let tarp := decide (mode s = 2)
  let s := fullRegs img (fullBays img s)
  let s := wakeAll s
  let s := setF s Fld.pwrStateMode 0 1
  let s := { s with ridge := { s.ridge with loading := false, failedCycles := 0, backoffEnd := none, firstCycle := false } }
  let s := setF (setF s Fld.pwrBootStatBackoffS 0 1) Fld.thatchStatResult 0 1
  let s := setStage s 0
  let s := (List.range (bayCount img)).foldl (fun s b => commitBay s b (imgEpoch img) 0) s
  if tarp then tarpLeave s else s

/-! ### Failures (02 R57, R55; 04 R116) -/

/-- A full load fails past its boot attempt: the cycle counts as failed, Tarp mode; in Tarp mode already the domains the load had
started go down again. -/
def fullLoadFail (s : State) (code cause : Nat) : State :=
  let s := setF s Fld.thatchStatResult 0 code
  let tarp := decide (mode s = 2)
  let s := setStage { s with ridge := { s.ridge with loading := false } } 0
  let s := tarpEnter (cycleCount s) cause
  if tarp then (otherDoms ++ [74]).foldl (fun s d => setDom (domOff s d) d { domOf (domOff s d) d with enabled := false }) s else s

/-- An apply or commit of a reload, or a reapply, fails (R116, R118). -/
def applyFail (s : State) (cause : Nat) : State :=
  let s := setF s Fld.thatchStatResult 0 14
  tarpEnter s cause

/-- A load that was under way fails with apply_fail. -/
def loadApplyFail (s : State) (cause : Nat) : State :=
  if s.ridge.loading then fullLoadFail s 14 cause else applyFail s cause

/-! ### The effects of THATCH_CMD and THATCH_QUIESCE -/

/-- op = reload, from a PF, for a bay of the thatch (R111). -/
def thatchReloadCmd (s : State) (b : Nat) (auto : Bool) : State :=
  if !bayExists s b then thatchDeny s
  else if phase s ≠ 0 then setF s Fld.thatchStatResult 0 2
  else
    let s := setReg s .thatchStat 0 (BitVec.ofNat 64 (1 + b * 256))
    let s := { s with thatch := { s.thatch with stage := 1, auto := auto, failResult := 0, staging := [] } }
    let n := srcLen s
    let s := if n = 0 ∨ 0x40000000 < n ∨ n % 64 ≠ 0 then loadFailed s 3 else s
    strike s b

/-- op = commit (R117, R118). -/
def thatchCommitCmd (s : State) (b : Nat) : State :=
  if bayExists s b && phase s == 3 && curBay s == b then commitReload s else thatchDeny s

/-- op = cancel (R118). -/
def thatchCancelCmd (s : State) (b : Nat) : State :=
  if !bayExists s b || curBay s != b then thatchDeny s
  else if phase s = 1 then loadFailed s 13
  else if phase s = 2 ∨ phase s = 3 then
    setStage (setPhase (applyBay (storedImage s b) (envOf s b) s b) 6) 0
  else thatchDeny s

/-- The threads of the struck bay stop (R113). -/
def quiesceBay (s : State) (b : Nat) : State :=
  let s := stopBay s b
  setBay s b { bayOf s b with quiesced := true }

/-- THATCH_QUIESCE with go, from a thread of the bay (R113). -/
def thatchQuiesceCmd (s : State) (b : Nat) : State :=
  if (bayOf s b).struck && !(bayOf s b).quiesced then quiesceBay s b else s

/-! ### The commands of a load -/

/-- The image bytes that a fetch brings: from device memory, or from outside (R111). -/
def fetched (s : State) (image : List Byte) : List Byte :=
  match classOf (srcAddr s) with
  | some c => if c.isMem then readBytes s (srcAddr s) (srcLen s) else image
  | none => image

/-- Whether the source can be read at all. -/
def srcReadable (s : State) : Bool :=
  (classOf (srcAddr s)).isSome && (reachStatus s (srcAddr s) 0).isNone

/-- THATCH_FETCH_DONE: the image is in staging, and checks 1 to 4 are made (R107). -/
def execThatchFetchDone (readOk : Bool) (image : List Byte) (s : State) : Host.Outcome State Fault Refusal :=
  .next
    (if phase s ≠ 1 ∨ s.thatch.stage ≠ 1 then s
    else if !readOk || !srcReadable s then loadFailed s 12
    else
      let img := fetched s image
      if img.length ≠ srcLen s then s
      else
        let s := { s with thatch := { s.thatch with staging := img } }
        let c := checks24 s (.reload (curBay s) (srcLen s)) img
        if c = 1 then setStage s 2 else loadFailed s c)

/-- THATCH_SIGNATURES_DONE: check 5 (R104). -/
def execThatchSignaturesDone (sigsOk : Bool) (s : State) : Host.Outcome State Fault Refusal :=
  .next
    (if phase s ≠ 1 ∨ s.thatch.stage ≠ 2 then s
    else
      let c := check5 s.stor.usable s.thatch.staging sigsOk
      if c = 1 then setStage s 3 else loadFailed s c)

/-- THATCH_CHECKS_DONE: checks 6 to 10 of a reload, or 7 to 10 of a full load, whose first six the boot attempt made (R107, Table
4.11). -/
def execThatchChecksDone (s : State) : Host.Outcome State Fault Refusal :=
  .next
    (if s.thatch.stage ≠ 3 then s
    else if s.ridge.loading then
      (let c := checks710 s s.thatch.staging
       if c = 1 then setStage s 4 else fullLoadFail s c 2)
    else if phase s = 1 then
      (let c := if check6 s s.thatch.staging = 1 then checks710 s s.thatch.staging else 7
       if c = 1 then setStage s 4 else loadFailed s c)
    else s)

/-- STRIKE_LIFT: after a failed check or a cancel, once the bay has stopped (R115, R118). -/
def execStrikeLift (s : State) : Host.Outcome State Fault Refusal :=
  .next
    (let b := curBay s
     if phase s = 1 ∧ s.thatch.stage = 5 ∧ (bayOf s b).quiesced = true then
       let c := s.thatch.failResult
       let s := reloadOver (endStrike s b 3) c
       let s := raiseD s srcThatch { code := 0x0103, bay := b, aux8 := c }
       if c = 13 then s else bump s Fld.thatchRefuseCnt 0
     else s)

/-- DRAIN_LIMIT_EXPIRY: the bay is stopped, and its admitted operations short of their commit point end REFUSED_RELOAD (R113). -/
def execDrainLimitExpiry (s : State) : Host.Outcome State Fault Refusal :=
  .next
    (let b := curBay s
     if phase s ≠ 0 ∧ (bayOf s b).struck = true ∧ (bayOf s b).quiesced = false then
       let s := reach s ((bayOf s b).struckAt + getF s Fld.thatchDrainLimit 0 * 1000000)
       let s := bump (setF (quiesceBay s b) Fld.thatchStatForcedDrain 0 1) Fld.thatchForcedDrainCnt 0
       (opsWhere s (fun o => o.bay == b && decide (o.st = .admitted))).foldl (fun s n => endEarly s n 0x23) s
     else s)

/-- HOLD_LIMIT_EXPIRY: the bay's waiting operations end REFUSED_RELOAD, and so do those fetched later (R114). -/
def execHoldLimitExpiry (bay : Nat) (s : State) : Host.Outcome State Fault Refusal :=
  .next
    (if (bayOf s bay).struck = true ∧ flagF s Fld.thatchBayStatHoldExpired bay = false then
       let s := reach s ((bayOf s bay).struckAt + (envOf s bay).holdLimitMs * 1000000)
       let s := setF (setF s Fld.thatchBayStatHoldExpired bay 1) Fld.thatchStatHoldExpired 0 1
       let s := (opsWhere s (fun o => o.bay == bay && decide (o.st = .waiting))).foldl (fun s n => endEarly s n 0x23) s
       raiseD s srcThatch { code := 0x0104, bay := bay, arg0 := (envOf s bay).holdLimitMs }
     else s)

/-- THATCH_APPLY_START: every check has passed and, for a reload, the bay has stopped (R116, Table 4.12 step 5). -/
def execThatchApplyStart (s : State) : Host.Outcome State Fault Refusal :=
  .next
    (if s.thatch.stage ≠ 4 then s
    else
      let img := s.thatch.staging
      if s.ridge.loading then
        (if phase s = 0 then setPhase (applyFull img (startDomains s (List.range 79))) 2 else s)
      else if phase s = 1 ∧ (bayOf s (curBay s)).quiesced = true then
        applyBay img (envOf s (curBay s)) (setPhase s 2) (curBay s)
      else s)

/-- THATCH_APPLY_DONE: loaded, or committed at once; a failure enters Tarp mode (R116, R117, Table 4.12). -/
def execThatchApplyDone (ok : Bool) (s : State) : Host.Outcome State Fault Refusal :=
  .next
    (if phase s ≠ 2 then s
    else if !ok then loadApplyFail (if s.ridge.loading then setPhase s 0 else s) 2
    else if s.ridge.loading then commitFull (setPhase s 0)
    else if s.thatch.auto then commitReload s
    else setF (setPhase s 3) Fld.thatchBayStatState (curBay s) 3)

/-- THATCH_REAPPLY_DONE: the stored image is back; the firmware starts with reason 6 (R118). -/
def execThatchReapplyDone (ok : Bool) (s : State) : Host.Outcome State Fault Refusal :=
  .next
    (if phase s ≠ 6 then s
    else if ok then reloadOver (endStrike s (curBay s) 6) 13
    else applyFail s 2)

/-- PLL_LOCK_TIMEOUT: a domain on its way from Off stays Off; during an apply it is an apply failure (16 R459). -/
def execPllLockTimeout (d : Nat) (s : State) : Host.Outcome State Fault Refusal :=
  .next
    (if d < 79 ∧ (domOf s d).phase = .waking ∧ domState s d = 3 then
       let s := setDom s d { domOf s d with phase := .stable }
       let s := setF s Fld.pwrDomStatInTransition d 0
       if phase s = 2 then loadApplyFail (if s.ridge.loading then setPhase s 0 else s) 2 else s
     else s)

/-- ROOF_EXIT: every domain is started, every bay reloaded and committed under its own epoch with reason 2 (R109, 02 Table 2.6 step
5). -/
def execRoofExit (s : State) : Host.Outcome State Fault Refusal :=
  .next
    (if s.ridge.roof ≠ .exiting true then s
    else
      let s := setRoof s .awake
      let s := wakeAll (startDomains s (List.range 79))
      let bs := (List.range 64).filter (bayExists s)
      let s := applyDevice (s.thatch.full.getD []) s
      let s := bs.foldl (fun s b => applyBay (storedImage s b) (envOf s b) s b) s
      let s := setF s Fld.pwrStateMode 0 1
      let s := bs.foldl (fun s b => commitBay s b (getF s Fld.thatchBayEpoch b) 2) s
      raiseD s srcRidge { code := 0x0004, aux8 := Nat.log2 (getReg s .pwrRoofWakeSrc 0).toNat })

/-- Highest rafter clock in MHz (00 R4, rafters up to 2.6 GHz). -/
def rafterMaxMhz : Nat := 2600

/-- POWER_BUDGET_TICK: one step of 100 MHz of the power-budget cap towards the bay's budget, both in 0.1 W (R121). -/
def execPowerBudgetTick (bay estimate : Nat) (s : State) : Host.Outcome State Fault Refusal :=
  .next
    (let x := bayOf s bay
     let budget := x.env.powerBudget
     if !bayExists s bay then s
     else if budget < estimate then
       let now := if x.capMhz = 0 then rafterMaxMhz else x.capMhz
       setBay s bay { x with capMhz := Nat.max 100 (now - 100), underMs := 0 }
     else if estimate * 10 ≤ budget * 9 then
       let ms := x.underMs + 1
       if ms < 10 ∨ x.capMhz = 0 then setBay s bay { x with underMs := Nat.min ms 10 }
       else setBay s bay { x with underMs := 10, capMhz := if rafterMaxMhz ≤ x.capMhz + 100 then 0 else x.capMhz + 100 }
     else setBay s bay { x with underMs := 0 })

end Sys2Proof.Machine
end

