-- ==== Sys2Proof/Machine/Value.lean ====
section
/-! DEFINITION. The values of the integer instructions (05_olxavon_isa.md R136 to R139, R141, R142, R147): pure
functions of the operand values, shared by the threads and the Reed processors. -/

namespace Sys2Proof.Machine

/-- Sign-extend a 32-bit result to 64 bits. -/
def sextW (x : Word) : Dword := x.signExtend 64

/-- 1 or 0. -/
def boolD (b : Bool) : Dword := if b then 1 else 0

/-- Leading zeros. -/
def clzN (w : Nat) (x : BitVec w) : Nat := if x.toNat = 0 then w else w - 1 - Nat.log2 x.toNat

/-- Trailing zeros, counted up from bit `i`. -/
def ctzFrom (x : Nat) : Nat → Nat → Nat
  | 0, i => i
  | n + 1, i => if x.testBit i then i else ctzFrom x n (i + 1)

/-- Ones among the low `n` bits. -/
def popN (x : Nat) : Nat → Nat
  | 0 => 0
  | n + 1 => popN x n + (if x.testBit n then 1 else 0)

/-- The low `n` bytes in reverse order. -/
def bswapN (x : Nat) : Nat → Nat
  | 0 => 0
  | n + 1 => (x % 256) * 256 ^ n + bswapN (x / 256) n

/-- A shift or rotate of a w-bit value. -/
def shiftN {w : Nat} (op : ShOp) (x : BitVec w) (k : Nat) : BitVec w :=
  match op with
  | .sll => x <<< k
  | .srl => x >>> k
  | .sra => x.sshiftRight k
  | .rotr => x.rotateRight k

/-- An ALU operation on w-bit operands; `k` is the shift amount (05 R138, Table 5.6). -/
def aluN {w : Nat} (op : AluOp) (a b : BitVec w) (k : Nat) : BitVec w :=
  match op with
  | .add => a + b
  | .sub => a - b
  | .and => a &&& b
  | .or => a ||| b
  | .xor => a ^^^ b
  | .andn => a &&& ~~~b
  | .sll => shiftN .sll a k
  | .srl => shiftN .srl a k
  | .sra => shiftN .sra a k
  | .rotr => shiftN .rotr a k
  | .slt => if a.slt b then 1 else 0
  | .sltu => if a.ult b then 1 else 0
  | .min => if a.slt b then a else b
  | .max => if a.slt b then b else a
  | .minu => if a.ult b then a else b
  | .maxu => if a.ult b then b else a
  | .clz => BitVec.ofNat w (clzN w a)
  | .ctz => BitVec.ofNat w (ctzFrom a.toNat w 0)
  | .popc => BitVec.ofNat w (popN a.toNat w)
  | .bswap => BitVec.ofNat w (bswapN a.toNat (w / 8))
  | .sextb => (BitVec.ofNat 8 a.toNat).signExtend w
  | .sexth => (BitVec.ofNat 16 a.toNat).signExtend w
  | .sextw => (BitVec.ofNat 32 a.toNat).signExtend w

/-- The result of an ALU instruction (05 R138): with w set it acts on bits 31:0 and sign-extends. -/
def aluVal (op : AluOp) (w : Bool) (a b : Dword) : Dword :=
  if w then sextW (aluN op (a.setWidth 32) (b.setWidth 32) (b.toNat % 32))
  else aluN op a b (b.toNat % 64)

/-- The result of an I-format instruction (05 Table 5.5). -/
def immVal (op : ImmOp) (a : Dword) (imm : Half) : Dword :=
  match op with
  | .addi => a + imm.signExtend 64
  | .andi => a &&& imm.setWidth 64
  | .ori => a ||| imm.setWidth 64
  | .xori => a ^^^ imm.setWidth 64
  | .slti => boolD (a.slt (imm.signExtend 64))
  | .sltiu => boolD (a.ult (imm.signExtend 64))

/-- The result of SHI: as ALU with the shift amount in the word (05 Table 5.5). With w set the amount is its low
5 bits, as R138 gives the ALU's (DEDUCED, log 13). -/
def shiVal (op : ShOp) (w : Bool) (a : Dword) (sh : BitVec 6) : Dword :=
  if w then sextW (shiftN op (a.setWidth 32) (sh.toNat % 32)) else shiftN op a sh.toNat

/-- LUI (05 Table 5.5). -/
def luiVal (imm : Half) : Dword := sextW (imm.setWidth 32 <<< 16)

/-- MULDIV on w-bit operands (05 R139). -/
def mulN {w : Nat} (op : MulOp) (a b : BitVec w) : BitVec w :=
  match op with
  | .mul => a * b
  | .mulh => BitVec.ofInt w ((a.toInt * b.toInt) / 2 ^ w)
  | .mulhu => BitVec.ofNat w ((a.toNat * b.toNat) / 2 ^ w)
  | .div => if b = 0 then BitVec.allOnes w else BitVec.ofInt w (Int.tdiv a.toInt b.toInt)
  | .divu => if b = 0 then BitVec.allOnes w else BitVec.ofNat w (a.toNat / b.toNat)
  | .rem => if b = 0 then a else BitVec.ofInt w (Int.tmod a.toInt b.toInt)
  | .remu => if b = 0 then a else BitVec.ofNat w (a.toNat % b.toNat)

/-- The result of a MULDIV instruction (05 R139). -/
def mulVal (op : MulOp) (w : Bool) (a b : Dword) : Dword :=
  if w then sextW (mulN op (a.setWidth 32) (b.setWidth 32)) else mulN op a b

/-- The divisions hold their thread (05 Table 5.16, 06 R159). -/
def mulHolds : MulOp → Bool
  | .div | .divu | .rem | .remu => true
  | _ => false

/-- The comparison of a branch (05 R142). -/
def brTaken (op : BrOp) (a b : Dword) : Bool :=
  match op with
  | .beq => a == b
  | .bne => a != b
  | .blt => a.slt b
  | .bge => !a.slt b
  | .bltu => a.ult b
  | .bgeu => !a.ult b

/-- The condition of SETB (05 R147). -/
def condTrue (c : SetCond) (a b : Dword) : Bool :=
  match c with
  | .eq => a == b
  | .ne => a != b
  | .lt => a.slt b
  | .ge => !a.slt b
  | .ltu => a.ult b
  | .geu => !a.ult b
  | .tst => a &&& b != 0
  | .tstz => a &&& b == 0

/-- BLOG (05 R147). -/
def blogVal (op : BlogOp) (a b : Bool) : Bool :=
  match op with
  | .and => a && b
  | .or => a || b
  | .xor => a != b
  | .andn => a && !b

/-- The value an ATOM stores, on w-bit operands: old memory, g[rb], g[rd] (05 R141). -/
def amoN {w : Nat} (op : AmoOp) (old b d : BitVec w) : BitVec w :=
  match op with
  | .swap => b
  | .add => old + b
  | .and => old &&& b
  | .or => old ||| b
  | .xor => old ^^^ b
  | .min => if old.slt b then old else b
  | .max => if old.slt b then b else old
  | .minu => if old.ult b then old else b
  | .maxu => if old.ult b then b else old
  | .cas => if old = d then b else old

/-- The register-and-imm42 operations (05 Table 5.13). -/
def extVal (op : ExtOp) (a : Dword) (imm : BitVec 42) : Dword :=
  match op with
  | .addix => a + imm.signExtend 64
  | .andix => a &&& imm.setWidth 64
  | .orix => a ||| imm.setWidth 64
  | .xorix => a ^^^ imm.setWidth 64

/-- Bytes and signedness of a load (05 Table 5.5). -/
def loadShape : LoadOp → Nat × Bool
  | .lb => (1, true) | .lbu => (1, false) | .lh => (2, true) | .lhu => (2, false)
  | .lw => (4, true) | .lwu => (4, false) | .ld => (8, false)

/-- Bytes of a store (05 Table 5.5). -/
def storeSize : StoreOp → Nat
  | .sb => 1 | .sh => 2 | .sw => 4 | .sd => 8

/-- Bytes and signedness of an extended load (05 Table 5.13). -/
def extLoadShape : ExtLoad → Nat × Bool
  | .ldx => (8, false) | .lwx => (4, true) | .lwux => (4, false)

/-- Bytes of an extended store (05 Table 5.13). -/
def extStoreSize : ExtStore → Nat
  | .sdx => 8 | .swx => 4

/-- Extend a loaded value of `n` bytes to 64 bits. -/
def extendLoad (n : Nat) (sgn : Bool) (v : Nat) : Dword :=
  if sgn then
    match n with
    | 1 => (BitVec.ofNat 8 v).signExtend 64
    | 2 => (BitVec.ofNat 16 v).signExtend 64
    | 4 => (BitVec.ofNat 32 v).signExtend 64
    | _ => BitVec.ofNat 64 v
  else BitVec.ofNat 64 (v % 2 ^ (8 * n))

/-- One byte step of CRC32C, reflected polynomial 0x82F6_3B78 (05 R152): eight shifts. -/
def crcShift (c : Nat) : Nat → Nat
  | 0 => c
  | n + 1 => crcShift ((c / 2) ^^^ (if c % 2 = 1 then 0x82F63B78 else 0)) n

/-- The CRC state after one byte (05 R152). -/
def crcByte (c : Nat) (b : Byte) : Nat := crcShift (c ^^^ b.toNat) 8

/-- Key bits [k, k + 32) of a key given as bytes, key bit 0 the most significant bit of byte 0 (05 R153). -/
def keyBits (key : List Byte) (k : Nat) : Nat → Nat
  | 0 => 0
  | n + 1 =>
    keyBits key k n * 2
      + (if ((key.getD ((k + n) / 8) 0).toNat.testBit (7 - (k + n) % 8)) then 1 else 0)

/-- The Toeplitz hash after one input byte: bits 7 down to 0, the i-th at key bit 8·kofs + i (05 R153). -/
def toeplitzByte (key : List Byte) (kofs : Nat) (b : Byte) (h : Nat) : Nat :=
  (List.range 8).foldl
    (fun h i => if b.toNat.testBit (7 - i) then h ^^^ keyBits key (8 * kofs + i) 32 else h) h

end Sys2Proof.Machine
end

