-- ==== Sys2Proof/Machine/Access.lean ====
section
/-! DEFINITION. What a thread's instructions share: the gate each passes before it issues (06 R158, R159, R178, R179), translation
through cached pane entries (06 R168, R169), and how an access that holds the thread ends (06 R159, R173, Table 6.8). -/

namespace Sys2Proof.Machine

/-! ### Translation (06 R168, R169) -/

/-- The cached entries of a rafter that map an address, latest first. -/
def cachedPanes (s : State) (r a : Nat) : List PaneEnt :=
  s.rafters.panes.filter (fun p => p.rafter == r && p.base == a / 2 ^ p.log2 * 2 ^ p.log2)

/-- A cached entry as the walk finds it; its level follows from its size (06 Table 6.5). -/
def PaneEnt.toLeaf (p : PaneEnt) : Leaf :=
  { base := p.base, log2 := p.log2, level := if p.log2 = 30 then 1 else if p.log2 = 21 then 2 else 3, val := p.leaf.toNat }

/-- Cache a pane entry, up to 2,048 for a rafter; the oldest makes room (DESIGN CHOICE, log 15). -/
def cachePane (s : State) (r : Nat) (l : Leaf) : State :=
  let e : PaneEnt := { rafter := r, base := l.base, log2 := l.log2, leaf := BitVec.ofNat 64 l.val }
  if s.rafters.panes.contains e then s
  else
    let own := s.rafters.panes.filter (fun p => p.rafter == r)
    let rest := s.rafters.panes.filter (fun p => p.rafter != r)
    { s with rafters := { s.rafters with panes := (e :: own).take 2048 ++ rest } }

/-- The leaf that a walk of memory finds now, or its breach. -/
def walkNow (s : State) (b a : Nat) : Except (Nat × Nat) Leaf :=
  walkFrom s b a 0 walkLevels (fieldOf (bayOf s b).paneRoot.toNat 51 16 * 2 ^ 16)

/-- Checks 4 to 7 on a leaf, and what it gives: memory type, aux, base. -/
def leafGives (s : State) (b : Nat) (l : Leaf) (a : Nat) (k : AccKind) : Except (Nat × Nat) (Nat × Nat × Nat) :=
  match leafCheck s b l a k with
  | some r => .error (r, l.level)
  | none => .ok (fieldOf l.val 6 5, fieldOf l.val 51 16, l.base)

/-- A thread's access through what memory holds now. -/
def freshGives (s : State) (r b a : Nat) (k : AccKind) : Except (Nat × Nat) (Nat × Nat × Nat) × State :=
  match walkNow s b a with
  | .error e => (.error e, s)
  | .ok l => (leafGives s b l a k, cachePane s r l)

/-- Translation of a thread's access (06 R166, R168): memory type, aux and pane base, or reason and level. Where a cached entry
differs from the tables as they stand, either may be used (06 R169): a free bit chooses. -/
def threadTranslate (s : State) (r b a : Nat) (k : AccKind) : Except (Nat × Nat) (Nat × Nat × Nat) × State :=
  if 2 ^ 52 ≤ a then (.error (6, 0), s)
  else if (bayOf s b).paneRoot.toNat % 2 = 0 then
    match envelopeMode s b a k with
    | .error e => (.error e, s)
    | .ok m => (.ok (m.1, m.2, 0), s)
  else
    match (cachedPanes s r a).head? with
    | none => freshGives s r b a k
    | some p =>
      let stale := match walkNow s b a with
        | .ok l => decide (l ≠ p.toLeaf)
        | .error _ => true
      if stale then
        let d := drawBit s
        if d.1 then (leafGives d.2 b p.toLeaf a k, d.2) else freshGives d.2 r b a k
      else (leafGives s b p.toLeaf a k, s)

/-! ### Accesses of a thread -/

/-- Where a thread's access goes once it has passed its checks. -/
structure Way where
  cls : MemClass
  /-- memory type, aux of the leaf, base of the pane -/
  mtype : Nat
  aux : Nat
  pane : Nat
deriving DecidableEq, Repr

/-- A PANE_FAULT (06 Table 6.7). -/
def paneFault (a : Nat) (k : AccKind) (e : Nat × Nat) : TrapInfo :=
  { cause := causePaneFault, v0 := BitVec.ofNat 64 a, v1 := BitVec.ofNat 64 (k.code + e.1 * 16 + e.2 * 256) }

/-- A MISALIGN trap. -/
def misalign (a : Nat) : TrapInfo := { cause := causeMisalign, v0 := BitVec.ofNat 64 a }

/-- A REMOTE_FAULT trap. -/
def remoteFault (a st : Nat) : TrapInfo := { cause := causeRemote, v0 := BitVec.ofNat 64 a, v1 := BitVec.ofNat 64 st }

/-- The checks of a thread's access in their order (05 R140, R141, 06 R168; bits 63:52 before alignment, DEDUCED, log 16). -/
def accessWay (s : State) (t a n : Nat) (k : AccKind) : Except TrapInfo Way × State :=
  if 2 ^ 52 ≤ a then (.error (paneFault a k (6, 0)), s)
  else if a % n ≠ 0 then (.error (misalign a), s)
  else
    let r := threadTranslate s (tidRafter t) ((bayOfTid s t).getD 64) a k
    match r.1, classOf a with
    | .error e, _ => (.error (paneFault a k e), r.2)
    | .ok _, none => (.error (paneFault a k (1, 0)), r.2)
    | .ok (m, x, p), some c => (.ok ⟨c, m, x, p⟩, r.2)

/-! ### Threads that an access holds -/

/-- Hold a thread until its access completes (06 R159). -/
def hold (s : State) (t : Nat) (b : Block) : State := setThread s t { threadOf s t with st := .blocked, block := some b }

/-- The answer to a held thread's access comes by a message. -/
def answerThread (s : State) (t addr : Nat) (a : Answer) : State :=
  let x := threadOf s t
  match x.block with
  | some b => if b.byMsg && b.addr == addr && b.ans.isNone then setThread s t { x with block := some { b with ans := some a } } else s
  | none => s

/-- Write a general register. A load still on its way to it no longer writes it. -/
def Thread.write (t : Thread) (r : Nat) (v : Dword) : Thread :=
  { t.put r v with loads := t.loads.map (fun l => if l.rd = r then { l with rd := 0 } else l), badLoads := t.badLoads.filter (fun l => l.1 != r || r == 0) }

/-- A held thread, ready again after its instruction, with the register written. -/
def Thread.released (t : Thread) (r : Nat) (v npc : Dword) : Thread := { t.write r v with st := .ready, block := none, pc := npc }

/-- A posted store of a thread is performed (06 R173). -/
def postedDone (s : State) (t addr : Nat) : State :=
  let x := threadOf s t
  setThread s t { x with posted := x.posted.erase addr }

/-- A posted store of a thread fails: INT_STORE_ERR is latched (06 R177); while one is latched already it stays (DESIGN CHOICE,
log 17). -/
def postedFail (s : State) (t addr st : Nat) : State :=
  let x := threadOf s t
  if x.posted.contains addr then
    setThread s t { x with posted := x.posted.erase addr, intStore := some (x.intStore.getD (addr, st)) }
  else s

/-! ### The gate -/

/-- The pc after an instruction of `n` bytes. -/
def nextPc (x : Thread) (n : Nat) : Dword := toPc (x.pc + BitVec.ofNat 64 n)

/-- Finish an instruction of a thread: write a register, go on after `n` bytes. -/
def retire (s : State) (t rd : Nat) (v : Dword) (n : Nat) : State :=
  let x := threadOf s t
  setThread s t { x.write rd v with pc := nextPc x n }

/-- Go on after an instruction that writes no register. -/
def advance (s : State) (t n : Nat) : State :=
  let x := threadOf s t
  setThread s t { x with pc := nextPc x n }

/-- A returned load with an uncorrectable error that traps before this instruction: one that it reads, or any before a fence (06
R178). -/
def badLoadFor (x : Thread) (reads : List Nat) (fence : Bool) : Option (Nat × Nat × Dword) :=
  x.badLoads.find? (fun l => fence || (l.1 != 0 && reads.contains l.1))

/-- Whether a load still on its way holds this instruction: one whose register it reads, or any before a fence (06 R159, R178). -/
def loadHolds (x : Thread) (reads : List Nat) (fence : Bool) : Bool :=
  x.loads.any (fun l => fence || (l.rd != 0 && reads.contains l.rd))

/-- The fetch of the instruction at a thread's pc: its breach of R168, if any. -/
def fetchFault (s : State) (t : Nat) : Option TrapInfo × State :=
  let a := (threadOf s t).pc.toNat
  let r := threadTranslate s (tidRafter t) ((bayOfTid s t).getD 64) a .fetch
  match r.1 with
  | .error e => (some (paneFault a .fetch e), r.2)
  | .ok _ => (none, r.2)

/-- Issue an instruction of a ready thread (06 R158, R159, R178, R179): an interrupt that is due is taken in its place; a load with
an error that it reads traps; a load on its way that it reads holds it; its fetch may fault. `k` is what it does. -/
def issue (s : State) (t : Nat) (reads : List Nat) (fence : Bool) (k : State → State) : State :=
  let x := threadOf s t
  if x.st ≠ .ready ∨ domUp s (tidRafter t) = false then s
  else
    match takeable s t with
    | some c => takeInt s t c
    | none =>
      match badLoadFor x reads fence with
      | some l =>
        trap (setThread s t { x with badLoads := x.badLoads.erase l }) t { cause := causeMemError, v0 := BitVec.ofNat 64 l.2.1, v1 := l.2.2 }
      | none =>
        if loadHolds x reads fence then s
        else
          let f := fetchFault s t
          match f.1 with
          | some i => trap f.2 t i
          | none => k f.2

end Sys2Proof.Machine
end

