-- ==== Sys2Proof/Machine/EngCore.lean ====
section
/-! DEFINITION. What the engines share: the checks of a descriptor's ranges (06 R168, 08 R226), judging and admitting an
operation (08 R225, R232 to R236, Table 8.12), and COPY (08 R226, R240, Table 8.13). -/

namespace Sys2Proof.Machine

/-! ### An opcode's meaning -/

/-- What the check of a fetched operation comes to: a status that ends it (with ext_status and result), or where it goes for admission: pool, cost, partner
record, the bytes it reads from its partner's memory, an engine word. -/
inductive Verdict where
  | bad (status ext : Nat) (result : Nat := 0)
  | go (pool cost partner : Nat) (data : List Byte) (aux : Nat)
deriving DecidableEq, Repr

/-- What an engine does with an operation: its check at fetch, given the bytes that it reads from its partner's memory, and what
begins when it is admitted. -/
structure OpSpec where
  check : State → Op → List Byte → Verdict
  start : State → Nat → State

/-- Statuses of 08 Table 8.7. -/
def stBadOpcode : Nat := 0x01
def stBadDescriptor : Nat := 0x02
def stNotPermitted : Nat := 0x03
def stAccessFault : Nat := 0x04
def stHostError : Nat := 0x05
def stMemError : Nat := 0x06
def stRefBudget : Nat := 0x20
def stRefCapacity : Nat := 0x21
def stRefTarp : Nat := 0x22
def stRefReload : Nat := 0x23
def stAborted : Nat := 0x24
def stTooLate : Nat := 0x25

/-- The queue pair of an operation; 0 for one without. -/
def Op.qp (o : Op) : Nat :=
  match o.src with
  | .ring q => q
  | _ => 0

/-- The partner record of an operation's queue pair (08 Table 8.1). -/
def qpPartner (s : State) (o : Op) : Nat := getF s Fld.qpPartner o.qp

/-! ### Fetch (08 R222, R223) -/

/-- Whether the device fetches a bay's work now: not outside Normal mode nor of a struck bay, but that once the bay's hold limit has
expired what it fetches is refused at once (08 R223, 04 R114). -/
def fetchGate (s : State) (bay : Nat) : Option Bool :=
  if mode s ≠ 1 then none
  else if (bayOf s bay).struck then (if flagF s Fld.thatchBayStatHoldExpired bay then some true else none)
  else some false

/-- The arrival of the oldest unfetched entry, and the rest. -/
def popArrival : List (Nat × Nat) → Option (Nat × List (Nat × Nat))
  | [] => none
  | (0, _) :: l => popArrival l
  | (k + 1, t) :: l => some (t, if k = 0 then l else (k, t) :: l)

/-! ### Ranges -/

/-- Whether a range leaves what an engine can reach: memory and host windows; of the host windows a host ring reaches its owner's
only (08 R226). The reason is that of a range outside the envelope (DESIGN CHOICE, log 51). -/
def rangeOut (s : State) (o : Op) (a n : Nat) : Bool :=
  match classOf a with
  | some c =>
    if c.isMem then false
    else if c.isHost then
      (match o.src with
       | .ring q =>
         (match qpOwner s q with
          | some (ep, _) => !within a n (hostStart ep) 0x1000000000000
          | none => decide (classOf (a + n - 1) ≠ some c))
       | _ => decide (classOf (a + n - 1) ≠ some c))
    else true
  | none => true

/-- The ext_status of ACCESS_FAULT for an operation's range, where the owning bay's pane table or the window refuses it: the
reason of 06 R168 in bits 7:4 (08 Table 8.7). -/
def rangeBad (s : State) (o : Op) (a n : Nat) (k : AccKind) : Option Nat :=
  match paneRange s o.bay a n k with
  | some r => some (r * 16)
  | none => if rangeOut s o a n then some 48 else none

/-- The first status of Table 6.8 that a range meets on its way out (07 R200, R204). -/
def rangeMeets (s : State) (b : Nat) (k : AccKind) : Nat → Nat → Nat → Option Nat
  | 0, _, _ => none
  | fuel + 1, a, stop =>
    if stop ≤ a then none
    else
      match translate s b a k with
      | .error _ => rangeMeets s b k fuel (paneEnd a) stop
      | .ok (_, aux) =>
        match reachStatus s a aux with
        | some st => some st
        | none => rangeMeets s b k fuel (paneEnd a) stop

/-- The status that an operation's range meets, if it lies in a host window. -/
def rangeReach (s : State) (o : Op) (a n : Nat) (k : AccKind) : Option Nat :=
  if (epOfClass (classOf a)).isSome then rangeMeets s o.bay k (n / 65536 + 2) a (a + n) else none

/-- Whether an address lies in a host window. -/
def inHost (a : Nat) : Bool := (epOfClass (classOf a)).isSome

/-- Hold the translation of a host address under ATS (07 R199): up to 8,192 of the endpoint, the oldest makes room (DESIGN
CHOICE, log 15). -/
def atsHold (s : State) (ep fn a : Nat) : State :=
  let ctl := if fn = 0 then cfgAts else 0x10C
  if cfgBit s ep fn ctl 31 then
    let x := epOf s ep
    let e := (fn, (a - hostStart ep) / 4096)
    if x.ats.contains e then s else setEp s ep { x with ats := (e :: x.ats).take 8192 }
  else s

/-- Hold the translations of the pages of a range in a host window (07 R199). -/
def holdRange (s : State) (fn a n : Nat) : State :=
  match epOfClass (classOf a) with
  | some ep => if n = 0 then s else (List.range ((a + n - 1) / 4096 - a / 4096 + 1)).foldl (fun s i => atsHold s ep fn ((a / 4096 + i) * 4096)) s
  | none => s

/-- The function whose routing ID an operation's host requests carry: a host ring's owner, else the PF (07 R200). -/
def opFn (s : State) (o : Op) : Nat :=
  match o.src with
  | .ring q => ((qpOwner s q).map (fun f => f.2)).getD 0
  | _ => 0

/-- The bytes of an operation's source range: its partner's where it lies in a host window. -/
def sourceBytes (s : State) (a n : Nat) (host : List Byte) : List Byte :=
  if inHost a then (host ++ List.replicate (n - host.length) 0).take n else readBytes s a n

/-- An engine's write of an operation's bytes: into memory, or posted into a host window; or the status of Table 6.8 it meets. -/
def engWrite (s : State) (o : Op) (a : Nat) (bs : List Byte) : Except Nat State :=
  match rangeReach s o a bs.length .write with
  | some st => .error st
  | none => .ok (writeBytes (holdRange s (opFn s o) a bs.length) a bs)

/-! ### Admission (08 R225, R232 to R236) -/

/-- Whether an earlier operation of the same pool and partner waits (08 R225). -/
def behind (s : State) (n : Nat) (o : Op) : Bool :=
  s.rings.ops.any (fun e => decide (e.1 < n) && waitsIn o.pool e.2 && e.2.partner == o.partner)

/-- Whether an operation needs its connection's context, and the context is cached or there is none (10 R299). -/
def ctxReady (s : State) (o : Op) : Bool :=
  let c := leAt o.body 0 4
  let needs := decide (0x0300 ≤ o.opcode ∧ o.opcode ≤ 0x0305) || o.opcode == 0x0321 || o.opcode == 0x0322
  !needs || (Tab.get {} s.xpt.conns c).st == 0 || s.xpt.ctxCache.contains c

/-- Whether two operations came from one source: a ring, or a Nawyn node (12 R371). -/
def sameSource (a b : OpSrc) : Bool :=
  match a, b with
  | .loft n _, .loft m _ => n == m
  | a, b => decide (a = b)

/-- Whether a Loft request may be dispatched. A query waits for its source's earlier appends (12 R371), and for a load of its bias set
admitted before it came (12 R375); an append waits for one admitted to the same chain (DEDUCED, log 85). -/
def loftReady (s : State) (n : Nat) (o : Op) : Bool :=
  if o.opcode = 0x0500 then
    let set := leAt o.data 9 1
    s.rings.ops.all (fun e => !(decide (e.1 < n) && e.2.opcode == 0x0501 && sameSource e.2.src o.src)) &&
    s.loft.reqs.all (fun e => !(e.2.kind == 2 && leAt e.2.payload 0 1 == set && !e.2.waitsFor.contains n))
  else if o.opcode = 0x0501 then
    s.rings.ops.all (fun e => !(e.2.opcode == 0x0501 && decide (e.2.st = .committed) && e.2.data.take 7 == o.data.take 7))
  else true

/-- Whether an operation is considered for admission: it waits, its bay is open, no fence holds it, its connection's context is
there, and the Loft may dispatch it (08 R225, 04 R112, 10 R299, 12 R371). -/
def considered (s : State) (n : Nat) (o : Op) : Bool :=
  decide (o.st = .waiting) && decide (o.pool < 7) && admOpen s o.bay && !fenced s n o && ctxReady s o && loftReady s n o

/-- Admit an operation under a class: charge it, count it, begin it (08 R232, R237, R239). -/
def admitOp (start : State → Nat → State) (s : State) (n cls : Nat) : State :=
  match opOf s n with
  | none => s
  | some o =>
    let s := charge s o
    let s := putOp s n { o with st := .admitted, judged := cls, queued := s.ftime - o.arrival }
    let s := bump s Fld.admServedCnt o.pool
    start (srcSettle s o) n

/-- Refuse for capacity, where R234 and Table 8.12 apply. -/
def refuseCap (s : State) (n : Nat) : State := refuse s n stRefCapacity

/-- Whether a pool refuses class S: it sheds, and no cap suspends that (08 R234, R236). -/
def shedsNow (s : State) (p : Nat) : Bool := flagF s Fld.admPoolStatShedding p && !poolCapped s p

/-- What a considered operation meets at once: refusal for want of a record, a bucket or (class S) tokens, and of class S while
the pool sheds; one without a cost that holds tokens is admitted (08 R232, R234, Table 8.12). -/
def judge (start : State → Nat → State) (s : State) (n : Nat) : State :=
  match opOf s n with
  | none => s
  | some o =>
    if !considered s n o then s
    else
      match partnerRef s o.partner with
      | .miss => s
      | .bad => refuse s n stRefBudget
      | _ =>
        match holdsTokens s o with
        | none => refuse s n stRefBudget
        | some false => if classOfOp s o = 2 then refuse s n stRefBudget else s
        | some true =>
          if classOfOp s o = 2 ∧ shedsNow s o.pool = true then refuseCap s n
          else if o.cost = 0 ∧ behind s n o = false then admitOp start s n (classOfOp s o)
          else s

/-- A partner record that is not cached counts a miss (08 R229). -/
def missCount (s : State) (i : Nat) : State :=
  match partnerRef s i with
  | .miss => bump s Fld.admPrecMissCnt 0
  | _ => s

/-- A new operation of any source: it takes the next number, and is judged. -/
def arriveOp (start : State → Nat → State) (s : State) (o : Op) : State :=
  let n := s.rings.nextOp
  let s := putOp { s with rings := { s.rings with nextOp := n + 1 } } n o
  let s := if ctxReady s o then s else bump s Fld.xptCtxMissCnt 0
  judge start (srcSettle (missCount s o.partner) o) n

/-! ### COPY (08 R226) -/

/-- Source, destination and length of a COPY. -/
def copySrc (o : Op) : Nat := leAt o.body 0 8
def copyDst (o : Op) : Nat := leAt o.body 8 8
def copyLen (o : Op) : Nat := leAt o.body 16 4

/-- Whether the two ranges lie in one class and overlap. -/
def copyOverlaps (o : Op) : Bool :=
  decide (classOf (copySrc o) = classOf (copyDst o)) && overlaps (copySrc o) (copyLen o) (copyDst o) (copyLen o)

/-- The cost of a COPY: its length for each range in a host window. -/
def copyCost (o : Op) : Nat :=
  (if inHost (copySrc o) then copyLen o else 0) + (if inHost (copyDst o) then copyLen o else 0)

/-- The check of a COPY at fetch. -/
def copyCheck (s : State) (o : Op) (_ : List Byte) : Verdict :=
  if copyLen o = 0 ∨ zeroAt o.body 20 28 = false ∨ copyOverlaps o = true then .bad stBadDescriptor 0
  else
    match rangeBad s o (copySrc o) (copyLen o) .read, rangeBad s o (copyDst o) (copyLen o) .write with
    | some e, _ => .bad stAccessFault e
    | none, some e => .bad stAccessFault e
    | none, none => .go 0 (copyCost o) (qpPartner s o) [] 0

/-- COPY as the ring sees it. -/
def copySpec : OpSpec := { check := copyCheck, start := fun s _ => s }

/-- An admitted operation of an opcode, short of its commit point. -/
def running (s : State) (n opcode : Nat) : Option Op :=
  match opOf s n with
  | some o => if o.opcode = opcode ∧ o.st = .admitted then some o else none
  | none => none

/-- End an operation for an error of its data: 1 to 3 a status of Table 6.8, 4 an uncorrectable error. -/
def dataError (s : State) (n failed : Nat) : State :=
  if failed ≤ 3 then finishOp s n stHostError 0 failed else finishOp s n stMemError 0 0

/-- COPY_DONE: the last write is posted or performed, or a range fails (08 R226, R240; 07 R204). -/
def execCopyDone (op : Nat) (host : List Byte) (failed : Nat) (s : State) : Host.Outcome State Fault Refusal :=
  .next
    (match running s op 0x0100 with
     | none => s
     | some o =>
       let n := copyLen o
       if 1 ≤ failed ∧ failed ≤ 3 ∧ inHost (copySrc o) = false ∧ inHost (copyDst o) = false then s
       else if failed ≠ 0 then dataError s op failed
       else
         match rangeReach s o (copySrc o) n .read with
         | some st => finishOp s op stHostError 0 st
         | none =>
           match engWrite (holdRange s (opFn s o) (copySrc o) n) o (copyDst o) (sourceBytes s (copySrc o) n host) with
           | .error st => finishOp s op stHostError 0 st
           | .ok s => finishOk (putOp s op { o with st := .committed }) op n)

end Sys2Proof.Machine
end

