-- ==== Sys2Proof/Machine/OlxCode.lean ====
section
/-! DEFINITION. The encoding of the Olxavon instructions, from Tables 5.4 to 5.13 of 05_olxavon_isa.md: the words of an
instruction, and the instruction a pair of words spells (none where 05 R128 and R135 make the word trap ILLEGAL). -/

namespace Sys2Proof.Machine

/-- Bits hi down to lo of a word. -/
def bits (w : Word) (hi lo : Nat) : Nat := (w.toNat >>> lo) % 2 ^ (hi - lo + 1)

/-- A Bool as a bit. -/
def b01 (b : Bool) : Nat := if b then 1 else 0

/-- Table 5.6: the op code. -/
def aluCode : AluOp → Nat
  | .add => 0x00 | .sub => 0x01 | .and => 0x02 | .or => 0x03 | .xor => 0x04 | .andn => 0x05 | .sll => 0x06
  | .srl => 0x07 | .sra => 0x08 | .rotr => 0x09 | .slt => 0x0A | .sltu => 0x0B | .min => 0x0C | .max => 0x0D
  | .minu => 0x0E | .maxu => 0x0F | .clz => 0x10 | .ctz => 0x11 | .popc => 0x12 | .bswap => 0x13
  | .sextb => 0x14 | .sexth => 0x15 | .sextw => 0x16

/-- Table 5.6: the operation of an op code. -/
def aluOf : Nat → Option AluOp
  | 0x00 => some .add | 0x01 => some .sub | 0x02 => some .and | 0x03 => some .or | 0x04 => some .xor
  | 0x05 => some .andn | 0x06 => some .sll | 0x07 => some .srl | 0x08 => some .sra | 0x09 => some .rotr
  | 0x0A => some .slt | 0x0B => some .sltu | 0x0C => some .min | 0x0D => some .max | 0x0E => some .minu
  | 0x0F => some .maxu | 0x10 => some .clz | 0x11 => some .ctz | 0x12 => some .popc | 0x13 => some .bswap
  | 0x14 => some .sextb | 0x15 => some .sexth | 0x16 => some .sextw | _ => none

/-- The unary ALU operations, whose rb field is 0 (Table 5.6). -/
def aluUnary : AluOp → Bool
  | .clz | .ctz | .popc | .bswap | .sextb | .sexth | .sextw => true
  | _ => false

/-- The ALU operations whose w bit is 0 (Table 5.6). -/
def aluNoW : AluOp → Bool
  | .sextb | .sexth | .sextw => true
  | _ => false

def shCode : ShOp → Nat
  | .sll => 0 | .srl => 1 | .sra => 2 | .rotr => 3

def shOf : Nat → ShOp
  | 0 => .sll | 1 => .srl | 2 => .sra | _ => .rotr

def mulCode : MulOp → Nat
  | .mul => 0 | .mulh => 1 | .mulhu => 2 | .div => 3 | .divu => 4 | .rem => 5 | .remu => 6

def mulOf : Nat → Option MulOp
  | 0 => some .mul | 1 => some .mulh | 2 => some .mulhu | 3 => some .div | 4 => some .divu | 5 => some .rem
  | 6 => some .remu | _ => none

def loadCode : LoadOp → Nat
  | .lb => 0x0B | .lbu => 0x0C | .lh => 0x0D | .lhu => 0x0E | .lw => 0x0F | .lwu => 0x10 | .ld => 0x11

def storeCode : StoreOp → Nat
  | .sb => 0x12 | .sh => 0x13 | .sw => 0x14 | .sd => 0x15

def amoCode : AmoOp → Nat
  | .swap => 0 | .add => 1 | .and => 2 | .or => 3 | .xor => 4 | .min => 5 | .max => 6 | .minu => 7 | .maxu => 8
  | .cas => 9

def amoOf : Nat → Option AmoOp
  | 0 => some .swap | 1 => some .add | 2 => some .and | 3 => some .or | 4 => some .xor | 5 => some .min
  | 6 => some .max | 7 => some .minu | 8 => some .maxu | 9 => some .cas | _ => none

def fenceCode : FenceOp → Nat
  | .acq => 0 | .rel => 1 | .full => 2 | .ifetch => 3

def fpCode : FpOp → Nat
  | .add => 0x00 | .sub => 0x01 | .mul => 0x02 | .madd => 0x03 | .min => 0x04 | .max => 0x05 | .div => 0x06
  | .sqrt => 0x07 | .eq => 0x08 | .lt => 0x09 | .le => 0x0A | .abs => 0x0B | .neg => 0x0C | .cvtN => 0x10
  | .cvtWl => 0x11 | .cvtWh => 0x12 | .f2i => 0x13 | .i2f => 0x14

def fpOf : Nat → Option FpOp
  | 0x00 => some .add | 0x01 => some .sub | 0x02 => some .mul | 0x03 => some .madd | 0x04 => some .min
  | 0x05 => some .max | 0x06 => some .div | 0x07 => some .sqrt | 0x08 => some .eq | 0x09 => some .lt
  | 0x0A => some .le | 0x0B => some .abs | 0x0C => some .neg | 0x10 => some .cvtN | 0x11 => some .cvtWl
  | 0x12 => some .cvtWh | 0x13 => some .f2i | 0x14 => some .i2f | _ => none

/-- The formats Table 5.12 lists for an operation. -/
def fpFmtOk : FpOp → Nat → Bool
  | .div, f | .sqrt, f | .f2i, f | .i2f, f => f == 0
  | .cvtN, f | .cvtWl, f | .cvtWh, f => f == 1 || f == 2 || f == 4
  | _, f => f == 0 || f == 1 || f == 2

/-- Bits 10:8 of func (kind, sat, src) are 0 in every op other than the conversions (Table 5.12). -/
def fpIsCvt : FpOp → Bool
  | .cvtN | .cvtWl | .cvtWh => true
  | _ => false

/-- The FP operations whose rb field Table 5.12 marks 0; the other one-operand ops mark nothing, so rb is free there. -/
def fpNoRb : FpOp → Bool
  | .sqrt | .abs | .neg => true
  | _ => false

def brCode : BrOp → Nat
  | .beq => 0x1A | .bne => 0x1B | .blt => 0x1C | .bge => 0x1D | .bltu => 0x1E | .bgeu => 0x1F

def blogCode : BlogOp → Nat
  | .and => 0 | .or => 1 | .xor => 2 | .andn => 3

def blogOf : Nat → BlogOp
  | 0 => .and | 1 => .or | 2 => .xor | _ => .andn

def bitCode : BitOp → Nat
  | .set => 0 | .clr => 1 | .tog => 2 | .tas => 3 | .movt => 4 | .movf => 5 | .rd => 6 | .wr => 7

def bitOf : Nat → Option BitOp
  | 0 => some .set | 1 => some .clr | 2 => some .tog | 3 => some .tas | 4 => some .movt | 5 => some .movf
  | 6 => some .rd | 7 => some .wr | _ => none

/-- The BITOPs that use field bp (Table 5.10). -/
def bitUsesBp : BitOp → Bool
  | .tas | .movt | .movf => true
  | _ => false

/-- The BITOPs that use field rg (Table 5.10). -/
def bitUsesRg : BitOp → Bool
  | .rd | .wr => true
  | _ => false

def condCode : SetCond → Nat
  | .eq => 0 | .ne => 1 | .lt => 2 | .ge => 3 | .ltu => 4 | .geu => 5 | .tst => 6 | .tstz => 7

def condOf : Nat → Option SetCond
  | 0 => some .eq | 1 => some .ne | 2 => some .lt | 3 => some .ge | 4 => some .ltu | 5 => some .geu
  | 6 => some .tst | 7 => some .tstz | _ => none

def longCode : LongOp → Nat
  | .movb => 0 | .fill => 1 | .scanb => 2 | .crcb => 3 | .hashb => 4

def longOf : Nat → Option LongOp
  | 0 => some .movb | 1 => some .fill | 2 => some .scanb | 3 => some .crcb | 4 => some .hashb | _ => none

/-- A bit specifier names private bit bs[7:0], or, with bit 8 set, a register with bits 7:5 zero (05 R133). -/
def bsWf (bs : BitVec 9) : Bool := bs.toNat < 256 || (bs.toNat / 32) % 8 == 0

/-- The operand rules of an instruction (05 R135 and the rules of each instruction): a word that breaks one traps
ILLEGAL, so it encodes no instruction. -/
def Olx.wf : Olx → Bool
  | .alu op w _ _ rb => (!aluUnary op || rb == 0) && (!aluNoW op || !w)
  | .fp op fmt kind sat src _ _ rb =>
    fpFmtOk op fmt.toNat && (fpIsCvt op || (!kind && !sat && !src)) && (!fpNoRb op || rb == 0)
  | .djnz ra _ => ra != 0
  | .djnzl ra _ => ra != 0
  | .bitop op bs bp rg => bsWf bs && (bitUsesBp op || bp == 0) && (bitUsesRg op || rg == 0)
  | .bb _ bs _ => bsWf bs
  | .long op esz dir cond rd ra rb =>
    rd != 0 && ra != 0 && rb != 0 && rd != ra && rd != rb && ra != rb
      && (match op with
          | .movb | .fill => !cond
          | .scanb => true
          | .crcb | .hashb => esz == 0 && !dir && !cond)
  | _ => true

/-- R format. -/
def encR (major : Nat) (rd ra rb : RegNo) (func : Nat) : Word :=
  BitVec.ofNat 32 (major * 2 ^ 26 + rd.toNat * 2 ^ 21 + ra.toNat * 2 ^ 16 + rb.toNat * 2 ^ 11 + func)

/-- I format. -/
def encI (major : Nat) (rd ra : RegNo) (imm : Nat) : Word :=
  BitVec.ofNat 32 (major * 2 ^ 26 + rd.toNat * 2 ^ 21 + ra.toNat * 2 ^ 16 + imm)

/-- X format, word 0. -/
def encX (xop : Nat) (rd ra : RegNo) (imm : BitVec 42) : Word :=
  BitVec.ofNat 32 (0x37 * 2 ^ 26 + xop * 2 ^ 20 + rd.toNat * 2 ^ 15 + ra.toNat * 2 ^ 10 + imm.toNat / 2 ^ 32)

/-- X format, word 1: imm_lo. -/
def encXlo (imm : BitVec 42) : Word := BitVec.ofNat 32 imm.toNat

/-- Words 0 and 1 of an instruction (05 R136); word 1 is 0 outside the extended form. -/
def Olx.encode : Olx → Word × Word
  | .alu op w rd ra rb => (encR 0x01 rd ra rb (aluCode op + b01 w * 2 ^ 6), 0)
  | .imm op rd ra i =>
    (encI (match op with
           | .addi => 0x02 | .andi => 0x03 | .ori => 0x04 | .xori => 0x05 | .slti => 0x07 | .sltiu => 0x08)
      rd ra i.toNat, 0)
  | .shi op w rd ra sh => (encI 0x06 rd ra (sh.toNat + shCode op * 2 ^ 6 + b01 w * 2 ^ 8), 0)
  | .lui rd i => (encI 0x09 rd 0 i.toNat, 0)
  | .muldiv op w rd ra rb => (encR 0x0A rd ra rb (mulCode op + b01 w * 2 ^ 6), 0)
  | .load op rd ra i => (encI (loadCode op) rd ra i.toNat, 0)
  | .store op rd ra i => (encI (storeCode op) rd ra i.toNat, 0)
  | .amo op d aq rl rd ra rb =>
    (encR 0x16 rd ra rb (amoCode op + b01 d * 2 ^ 4 + b01 aq * 2 ^ 5 + b01 rl * 2 ^ 6), 0)
  | .fence k => (encR 0x17 0 0 0 (fenceCode k), 0)
  | .mfs rd n => (encR 0x17 rd 0 0 (4 + n.toNat * 2 ^ 4), 0)
  | .mts ra n => (encR 0x17 0 ra 0 (5 + n.toNat * 2 ^ 4), 0)
  | .swtrap n => (encR 0x17 0 0 0 (6 + n.toNat * 2 ^ 4), 0)
  | .brk => (encR 0x17 0 0 0 7, 0)
  | .eret => (encR 0x17 0 0 0 8, 0)
  | .fp op fmt kind sat src rd ra rb =>
    (encR 0x18 rd ra rb (fmt.toNat + fpCode op * 2 ^ 3 + b01 kind * 2 ^ 8 + b01 sat * 2 ^ 9 + b01 src * 2 ^ 10), 0)
  | .br op ra rb off => (encI (brCode op) ra rb off.toNat, 0)
  | .jal off => (BitVec.ofNat 32 (0x20 * 2 ^ 26 + off.toNat), 0)
  | .j off => (BitVec.ofNat 32 (0x21 * 2 ^ 26 + off.toNat), 0)
  | .jalr rd ra i => (encI 0x22 rd ra i.toNat, 0)
  | .djnz ra off => (encI 0x23 ra 0 off.toNat, 0)
  | .djnzl ra off => (BitVec.ofNat 32 (0x24 * 2 ^ 26 + ra.toNat * 2 ^ 21 + off.toNat), 0)
  | .blog op bd ba b2 =>
    (BitVec.ofNat 32 (0x25 * 2 ^ 26 + blogCode op * 2 ^ 24 + bd.toNat * 2 ^ 16 + ba.toNat * 2 ^ 8 + b2.toNat), 0)
  | .bitop op bs bp rg =>
    (BitVec.ofNat 32 (0x26 * 2 ^ 26 + bitCode op * 2 ^ 22 + bs.toNat * 2 ^ 13 + bp.toNat * 2 ^ 5 + rg.toNat), 0)
  | .setb c bd ra rb =>
    (BitVec.ofNat 32 (0x27 * 2 ^ 26 + condCode c * 2 ^ 22 + bd.toNat * 2 ^ 14 + ra.toNat * 2 ^ 9 + rb.toNat * 2 ^ 4), 0)
  | .bb sense bs off => (BitVec.ofNat 32 (0x28 * 2 ^ 26 + b01 sense * 2 ^ 25 + bs.toNat * 2 ^ 16 + off.toNat), 0)
  | .wait all clr rd ra rb => (encR 0x29 rd ra rb (b01 all + b01 clr * 2), 0)
  | .chk sgn rd ra rb => (encR 0x2A rd ra rb (b01 sgn), 0)
  | .chki ra i => (BitVec.ofNat 32 (0x2B * 2 ^ 26 + ra.toNat * 2 ^ 21 + i.toNat), 0)
  | .chkd sgn ra rb => (encR 0x2C 0 ra rb (b01 sgn), 0)
  | .long op esz dir cond rd ra rb =>
    (encR 0x2D rd ra rb (longCode op + esz.toNat * 2 ^ 4 + b01 dir * 2 ^ 6 + b01 cond * 2 ^ 7), 0)
  | .lix rd i => (encX 0x00 rd 0 i, encXlo i)
  | .luix rd i => (encX 0x01 rd 0 i, encXlo i)
  | .ext op rd ra i =>
    (encX (match op with | .addix => 0x02 | .andix => 0x03 | .orix => 0x04 | .xorix => 0x05) rd ra i, encXlo i)
  | .extLoad op rd ra i => (encX (match op with | .ldx => 0x08 | .lwx => 0x09 | .lwux => 0x0A) rd ra i, encXlo i)
  | .extStore op rd ra i => (encX (match op with | .sdx => 0x0C | .swx => 0x0D) rd ra i, encXlo i)
  | .jalx rd i => (encX 0x10 rd 0 i, encXlo i)
  | .cop u ver rd rb func =>
    (BitVec.ofNat 32 ((0x38 + u.toNat) * 2 ^ 26 + ver.toNat * 2 ^ 22 + rd.toNat * 2 ^ 17 + rb.toNat * 2 ^ 12
      + func.toNat), 0)

/-- Bytes an instruction occupies (05 R135, R137). -/
def Olx.size : Olx → Nat
  | .lix .. | .luix .. | .ext .. | .extLoad .. | .extStore .. | .jalx .. => 8
  | _ => 4

/-- Keep an instruction only where its operand rules hold (05 R135). -/
def keepWf (i : Olx) : Option Olx := if i.wf then some i else none

/-- The R-format fields. -/
def fRd (w : Word) : RegNo := BitVec.ofNat 5 (bits w 25 21)
def fRa (w : Word) : RegNo := BitVec.ofNat 5 (bits w 20 16)
def fRb (w : Word) : RegNo := BitVec.ofNat 5 (bits w 15 11)
def fFunc (w : Word) : Nat := bits w 10 0
def fImm (w : Word) : Half := BitVec.ofNat 16 (bits w 15 0)

/-- Major 0x17, Table 5.9: unnamed register fields are 0, and n is 0 for the ops that do not use it. -/
def decodeSys (w : Word) : Option Olx :=
  let n : BitVec 7 := BitVec.ofNat 7 (bits w 10 4)
  let regs0 := fRd w == 0 && fRa w == 0 && fRb w == 0
  match bits w 3 0 with
  | 0 => if regs0 && n == 0 then some (.fence .acq) else none
  | 1 => if regs0 && n == 0 then some (.fence .rel) else none
  | 2 => if regs0 && n == 0 then some (.fence .full) else none
  | 3 => if regs0 && n == 0 then some (.fence .ifetch) else none
  | 4 => if fRa w == 0 && fRb w == 0 then some (.mfs (fRd w) n) else none
  | 5 => if fRd w == 0 && fRb w == 0 then some (.mts (fRa w) n) else none
  | 6 => if regs0 then some (.swtrap n) else none
  | 7 => if regs0 && n == 0 then some .brk else none
  | 8 => if regs0 && n == 0 then some .eret else none
  | _ => none

/-- Major 0x37, Table 5.13. -/
def decodeExt (w w1 : Word) : Option Olx :=
  let rd : RegNo := BitVec.ofNat 5 (bits w 19 15)
  let ra : RegNo := BitVec.ofNat 5 (bits w 14 10)
  let imm : BitVec 42 := BitVec.ofNat 42 (bits w 9 0 * 2 ^ 32 + w1.toNat)
  match bits w 25 20 with
  | 0x00 => if ra == 0 then some (.lix rd imm) else none
  | 0x01 => if ra == 0 then some (.luix rd imm) else none
  | 0x02 => some (.ext .addix rd ra imm)
  | 0x03 => some (.ext .andix rd ra imm)
  | 0x04 => some (.ext .orix rd ra imm)
  | 0x05 => some (.ext .xorix rd ra imm)
  | 0x08 => some (.extLoad .ldx rd ra imm)
  | 0x09 => some (.extLoad .lwx rd ra imm)
  | 0x0A => some (.extLoad .lwux rd ra imm)
  | 0x0C => some (.extStore .sdx rd ra imm)
  | 0x0D => some (.extStore .swx rd ra imm)
  | 0x10 => if ra == 0 then some (.jalx rd imm) else none
  | _ => none

/-- The instruction that word 0 and, for the extended form, word 1 spell; none where the word traps ILLEGAL
(05 R128, R135). -/
def decodeOlx (w w1 : Word) : Option Olx :=
  match bits w 31 26 with
  | 0x01 =>
    match aluOf (bits w 5 0) with
    | some op => if bits w 10 7 = 0 then keepWf (.alu op (bits w 6 6 == 1) (fRd w) (fRa w) (fRb w)) else none
    | none => none
  | 0x02 => some (.imm .addi (fRd w) (fRa w) (fImm w))
  | 0x03 => some (.imm .andi (fRd w) (fRa w) (fImm w))
  | 0x04 => some (.imm .ori (fRd w) (fRa w) (fImm w))
  | 0x05 => some (.imm .xori (fRd w) (fRa w) (fImm w))
  | 0x06 =>
    if bits w 15 9 = 0 then
      some (.shi (shOf (bits w 7 6)) (bits w 8 8 == 1) (fRd w) (fRa w) (BitVec.ofNat 6 (bits w 5 0)))
    else none
  | 0x07 => some (.imm .slti (fRd w) (fRa w) (fImm w))
  | 0x08 => some (.imm .sltiu (fRd w) (fRa w) (fImm w))
  | 0x09 => if fRa w == 0 then some (.lui (fRd w) (fImm w)) else none
  | 0x0A =>
    match mulOf (bits w 5 0) with
    | some op => if bits w 10 7 = 0 then some (.muldiv op (bits w 6 6 == 1) (fRd w) (fRa w) (fRb w)) else none
    | none => none
  | 0x0B => some (.load .lb (fRd w) (fRa w) (fImm w))
  | 0x0C => some (.load .lbu (fRd w) (fRa w) (fImm w))
  | 0x0D => some (.load .lh (fRd w) (fRa w) (fImm w))
  | 0x0E => some (.load .lhu (fRd w) (fRa w) (fImm w))
  | 0x0F => some (.load .lw (fRd w) (fRa w) (fImm w))
  | 0x10 => some (.load .lwu (fRd w) (fRa w) (fImm w))
  | 0x11 => some (.load .ld (fRd w) (fRa w) (fImm w))
  | 0x12 => some (.store .sb (fRd w) (fRa w) (fImm w))
  | 0x13 => some (.store .sh (fRd w) (fRa w) (fImm w))
  | 0x14 => some (.store .sw (fRd w) (fRa w) (fImm w))
  | 0x15 => some (.store .sd (fRd w) (fRa w) (fImm w))
  | 0x16 =>
    match amoOf (bits w 3 0) with
    | some op =>
      if bits w 10 7 = 0 then
        some (.amo op (bits w 4 4 == 1) (bits w 5 5 == 1) (bits w 6 6 == 1) (fRd w) (fRa w) (fRb w))
      else none
    | none => none
  | 0x17 => decodeSys w
  | 0x18 =>
    match fpOf (bits w 7 3) with
    | some op =>
      keepWf (.fp op (BitVec.ofNat 3 (bits w 2 0)) (bits w 8 8 == 1) (bits w 9 9 == 1) (bits w 10 10 == 1)
        (fRd w) (fRa w) (fRb w))
    | none => none
  | 0x1A => some (.br .beq (fRd w) (fRa w) (fImm w))
  | 0x1B => some (.br .bne (fRd w) (fRa w) (fImm w))
  | 0x1C => some (.br .blt (fRd w) (fRa w) (fImm w))
  | 0x1D => some (.br .bge (fRd w) (fRa w) (fImm w))
  | 0x1E => some (.br .bltu (fRd w) (fRa w) (fImm w))
  | 0x1F => some (.br .bgeu (fRd w) (fRa w) (fImm w))
  | 0x20 => some (.jal (BitVec.ofNat 26 (bits w 25 0)))
  | 0x21 => some (.j (BitVec.ofNat 26 (bits w 25 0)))
  | 0x22 => some (.jalr (fRd w) (fRa w) (fImm w))
  | 0x23 => if fRa w == 0 then keepWf (.djnz (fRd w) (fImm w)) else none
  | 0x24 => if bits w 20 20 = 0 then keepWf (.djnzl (fRd w) (BitVec.ofNat 20 (bits w 19 0))) else none
  | 0x25 =>
    some (.blog (blogOf (bits w 25 24)) (BitVec.ofNat 8 (bits w 23 16)) (BitVec.ofNat 8 (bits w 15 8))
      (BitVec.ofNat 8 (bits w 7 0)))
  | 0x26 =>
    match bitOf (bits w 25 22) with
    | some op =>
      keepWf (.bitop op (BitVec.ofNat 9 (bits w 21 13)) (BitVec.ofNat 8 (bits w 12 5)) (BitVec.ofNat 5 (bits w 4 0)))
    | none => none
  | 0x27 =>
    match condOf (bits w 25 22) with
    | some c =>
      if bits w 3 0 = 0 then
        some (.setb c (BitVec.ofNat 8 (bits w 21 14)) (BitVec.ofNat 5 (bits w 13 9)) (BitVec.ofNat 5 (bits w 8 4)))
      else none
    | none => none
  | 0x28 => keepWf (.bb (bits w 25 25 == 1) (BitVec.ofNat 9 (bits w 24 16)) (fImm w))
  | 0x29 =>
    if bits w 10 2 = 0 then some (.wait (bits w 0 0 == 1) (bits w 1 1 == 1) (fRd w) (fRa w) (fRb w)) else none
  | 0x2A => if bits w 10 1 = 0 then some (.chk (bits w 0 0 == 1) (fRd w) (fRa w) (fRb w)) else none
  | 0x2B => some (.chki (fRd w) (BitVec.ofNat 21 (bits w 20 0)))
  | 0x2C =>
    if bits w 10 1 = 0 && fRd w == 0 then some (.chkd (bits w 0 0 == 1) (fRa w) (fRb w)) else none
  | 0x2D =>
    match longOf (bits w 3 0) with
    | some op =>
      if bits w 10 8 = 0 then
        keepWf (.long op (BitVec.ofNat 2 (bits w 5 4)) (bits w 6 6 == 1) (bits w 7 7 == 1) (fRd w) (fRa w) (fRb w))
      else none
    | none => none
  | 0x37 => decodeExt w w1
  | 0x38 | 0x39 | 0x3A | 0x3B | 0x3C | 0x3D | 0x3E | 0x3F =>
    some (.cop (BitVec.ofNat 3 (bits w 28 26)) (BitVec.ofNat 4 (bits w 25 22)) (BitVec.ofNat 5 (bits w 21 17))
      (BitVec.ofNat 5 (bits w 16 12)) (BitVec.ofNat 12 (bits w 11 0)))
  | _ => none

end Sys2Proof.Machine
end

