-- ==== Sys2Proof/Machine/Isa.lean ====
section
/-! DEFINITION. The Olxavon instructions that make no memory access (05 R126 to R157; 06 R158 to R164, R177 to R185): a row is the
issue of that instruction at the thread's pc. -/

namespace Sys2Proof.Machine

/-! ### Issue of an instruction -/

/-- The register of a bit specifier, if it names one (05 R133). -/
def bsReads (bs : BitVec 9) : List Nat := if bs.toNat < 256 then [] else [bs.toNat % 32]

/-- The registers an instruction reads. -/
def Olx.reads : Olx → List Nat
  | .alu _ _ _ ra rb => [ra.toNat, rb.toNat]
  | .imm _ _ ra _ => [ra.toNat]
  | .shi _ _ _ ra _ => [ra.toNat]
  | .lui _ _ => []
  | .muldiv _ _ _ ra rb => [ra.toNat, rb.toNat]
  | .load _ _ ra _ => [ra.toNat]
  | .store _ rd ra _ => [ra.toNat, rd.toNat]
  | .amo op _ _ _ rd ra rb => if op = .cas then [ra.toNat, rb.toNat, rd.toNat] else [ra.toNat, rb.toNat]
  | .fence _ => []
  | .mfs _ _ => []
  | .mts ra _ => [ra.toNat]
  | .swtrap _ => []
  | .brk => []
  | .eret => []
  | .fp op _ _ _ _ rd ra rb => if op = .madd then [ra.toNat, rb.toNat, rd.toNat] else [ra.toNat, rb.toNat]
  | .br _ ra rb _ => [ra.toNat, rb.toNat]
  | .jal _ => []
  | .j _ => []
  | .jalr _ ra _ => [ra.toNat]
  | .djnz ra _ => [ra.toNat]
  | .djnzl ra _ => [ra.toNat]
  | .blog _ _ _ _ => []
  | .bitop op bs _ rg => if op = .wr then rg.toNat :: bsReads bs else bsReads bs
  | .setb _ _ ra rb => [ra.toNat, rb.toNat]
  | .bb _ bs _ => bsReads bs
  | .wait _ _ rd ra rb => [rd.toNat, ra.toNat, rb.toNat]
  | .chk _ rd ra rb => [rd.toNat, ra.toNat, rb.toNat]
  | .chki ra _ => [ra.toNat]
  | .chkd _ ra rb => [ra.toNat, rb.toNat]
  | .long _ _ _ _ rd ra rb => [rd.toNat, ra.toNat, rb.toNat]
  | .lix _ _ => []
  | .luix _ _ => []
  | .ext _ _ ra _ => [ra.toNat]
  | .extLoad _ _ ra _ => [ra.toNat]
  | .extStore _ rd ra _ => [ra.toNat, rd.toNat]
  | .jalx _ _ => []
  | .cop _ _ rd rb _ => [rd.toNat, rb.toNat]

/-- The fences before which a failed load traps (06 R178). -/
def Olx.fences : Olx → Bool
  | .fence .acq | .fence .rel | .fence .full => true
  | _ => false

/-- Word 0 of an instruction, as a trap records it. -/
def word0 (i : Olx) : Dword := i.encode.1.setWidth 64

/-- An ILLEGAL trap: word 0, and word 1 of an extended instruction (06 Table 6.7). -/
def illegal (i : Olx) : TrapInfo :=
  { cause := causeIllegal, v0 := word0 i, v1 := if i.size = 8 then i.encode.2.setWidth 64 else 0 }

/-- Issue an instruction: past the gate, one that breaks an operand rule traps ILLEGAL (05 R135). -/
def issueI (s : State) (tid : Tid) (i : Olx) (k : State → State) : State :=
  issue s tid.toNat i.reads i.fences (fun s => if i.wf then k s else trap s tid.toNat (illegal i))

/-- Issue an instruction whose only effect is a value for g[rd], computed from the thread's registers. -/
def issueVal (s : State) (tid : Tid) (i : Olx) (rd : RegNo) (v : Thread → Dword) : Host.Outcome State Fault Refusal :=
  .next (issueI s tid i (fun s => retire s tid.toNat rd.toNat (v (threadOf s tid.toNat)) i.size))

/-! ### Integer instructions (05 R138, R139, Table 5.5, Table 5.13) -/

/-- An ALU instruction. -/
def issueAlu (op : AluOp) (w : Bool) (tid : Tid) (rd ra rb : RegNo) (s : State) : Host.Outcome State Fault Refusal :=
  issueVal s tid (.alu op w rd ra rb) rd (fun x => aluVal op w (x.reg ra.toNat) (x.reg rb.toNat))

/-- ADD (05 R138). -/
def execAdd (tid : Tid) (w : Bool) (rd ra rb : RegNo) (s : State) : Host.Outcome State Fault Refusal := issueAlu .add w tid rd ra rb s
/-- SUB (05 R138). -/
def execSub (tid : Tid) (w : Bool) (rd ra rb : RegNo) (s : State) : Host.Outcome State Fault Refusal := issueAlu .sub w tid rd ra rb s
/-- AND (05 R138). -/
def execAnd (tid : Tid) (w : Bool) (rd ra rb : RegNo) (s : State) : Host.Outcome State Fault Refusal := issueAlu .and w tid rd ra rb s
/-- OR (05 R138). -/
def execOr (tid : Tid) (w : Bool) (rd ra rb : RegNo) (s : State) : Host.Outcome State Fault Refusal := issueAlu .or w tid rd ra rb s
/-- XOR (05 R138). -/
def execXor (tid : Tid) (w : Bool) (rd ra rb : RegNo) (s : State) : Host.Outcome State Fault Refusal := issueAlu .xor w tid rd ra rb s
/-- ANDN (05 R138). -/
def execAndn (tid : Tid) (w : Bool) (rd ra rb : RegNo) (s : State) : Host.Outcome State Fault Refusal := issueAlu .andn w tid rd ra rb s
/-- SLL (05 R138). -/
def execSll (tid : Tid) (w : Bool) (rd ra rb : RegNo) (s : State) : Host.Outcome State Fault Refusal := issueAlu .sll w tid rd ra rb s
/-- SRL (05 R138). -/
def execSrl (tid : Tid) (w : Bool) (rd ra rb : RegNo) (s : State) : Host.Outcome State Fault Refusal := issueAlu .srl w tid rd ra rb s
/-- SRA (05 R138). -/
def execSra (tid : Tid) (w : Bool) (rd ra rb : RegNo) (s : State) : Host.Outcome State Fault Refusal := issueAlu .sra w tid rd ra rb s
/-- ROTR (05 R138). -/
def execRotr (tid : Tid) (w : Bool) (rd ra rb : RegNo) (s : State) : Host.Outcome State Fault Refusal := issueAlu .rotr w tid rd ra rb s
/-- SLT (05 R138). -/
def execSlt (tid : Tid) (w : Bool) (rd ra rb : RegNo) (s : State) : Host.Outcome State Fault Refusal := issueAlu .slt w tid rd ra rb s
/-- SLTU (05 R138). -/
def execSltu (tid : Tid) (w : Bool) (rd ra rb : RegNo) (s : State) : Host.Outcome State Fault Refusal := issueAlu .sltu w tid rd ra rb s
/-- MIN (05 R138). -/
def execMin (tid : Tid) (w : Bool) (rd ra rb : RegNo) (s : State) : Host.Outcome State Fault Refusal := issueAlu .min w tid rd ra rb s
/-- MAX (05 R138). -/
def execMax (tid : Tid) (w : Bool) (rd ra rb : RegNo) (s : State) : Host.Outcome State Fault Refusal := issueAlu .max w tid rd ra rb s
/-- MINU (05 R138). -/
def execMinu (tid : Tid) (w : Bool) (rd ra rb : RegNo) (s : State) : Host.Outcome State Fault Refusal := issueAlu .minu w tid rd ra rb s
/-- MAXU (05 R138). -/
def execMaxu (tid : Tid) (w : Bool) (rd ra rb : RegNo) (s : State) : Host.Outcome State Fault Refusal := issueAlu .maxu w tid rd ra rb s
/-- CLZ (05 R138). -/
def execClz (tid : Tid) (w : Bool) (rd ra : RegNo) (s : State) : Host.Outcome State Fault Refusal := issueAlu .clz w tid rd ra 0 s
/-- CTZ (05 R138). -/
def execCtz (tid : Tid) (w : Bool) (rd ra : RegNo) (s : State) : Host.Outcome State Fault Refusal := issueAlu .ctz w tid rd ra 0 s
/-- POPC (05 R138). -/
def execPopc (tid : Tid) (w : Bool) (rd ra : RegNo) (s : State) : Host.Outcome State Fault Refusal := issueAlu .popc w tid rd ra 0 s
/-- BSWAP (05 R138). -/
def execBswap (tid : Tid) (w : Bool) (rd ra : RegNo) (s : State) : Host.Outcome State Fault Refusal := issueAlu .bswap w tid rd ra 0 s
/-- SEXTB (05 R138). -/
def execSextb (tid : Tid) (rd ra : RegNo) (s : State) : Host.Outcome State Fault Refusal := issueAlu .sextb false tid rd ra 0 s
/-- SEXTH (05 R138). -/
def execSexth (tid : Tid) (rd ra : RegNo) (s : State) : Host.Outcome State Fault Refusal := issueAlu .sexth false tid rd ra 0 s
/-- SEXTW (05 R138). -/
def execSextw (tid : Tid) (rd ra : RegNo) (s : State) : Host.Outcome State Fault Refusal := issueAlu .sextw false tid rd ra 0 s

/-- An I-format instruction. -/
def issueImm (op : ImmOp) (tid : Tid) (rd ra : RegNo) (imm : Half) (s : State) : Host.Outcome State Fault Refusal :=
  issueVal s tid (.imm op rd ra imm) rd (fun x => immVal op (x.reg ra.toNat) imm)

/-- ADDI (05 R136). -/
def execAddi (tid : Tid) (rd ra : RegNo) (imm : Half) (s : State) : Host.Outcome State Fault Refusal := issueImm .addi tid rd ra imm s
/-- ANDI (05 R136). -/
def execAndi (tid : Tid) (rd ra : RegNo) (imm : Half) (s : State) : Host.Outcome State Fault Refusal := issueImm .andi tid rd ra imm s
/-- ORI (05 R136). -/
def execOri (tid : Tid) (rd ra : RegNo) (imm : Half) (s : State) : Host.Outcome State Fault Refusal := issueImm .ori tid rd ra imm s
/-- XORI (05 R136). -/
def execXori (tid : Tid) (rd ra : RegNo) (imm : Half) (s : State) : Host.Outcome State Fault Refusal := issueImm .xori tid rd ra imm s
/-- SLTI (05 R136). -/
def execSlti (tid : Tid) (rd ra : RegNo) (imm : Half) (s : State) : Host.Outcome State Fault Refusal := issueImm .slti tid rd ra imm s
/-- SLTIU (05 R136). -/
def execSltiu (tid : Tid) (rd ra : RegNo) (imm : Half) (s : State) : Host.Outcome State Fault Refusal := issueImm .sltiu tid rd ra imm s

/-- SHI (05 Table 5.5, R138). -/
def execShi (tid : Tid) (op : ShOp) (w : Bool) (rd ra : RegNo) (sh : BitVec 6) (s : State) : Host.Outcome State Fault Refusal :=
  issueVal s tid (.shi op w rd ra sh) rd (fun x => shiVal op w (x.reg ra.toNat) sh)

/-- LUI (05 Table 5.5). -/
def execLui (tid : Tid) (rd : RegNo) (imm : Half) (s : State) : Host.Outcome State Fault Refusal :=
  issueVal s tid (.lui rd imm) rd (fun _ => luiVal imm)

/-- Hold the thread until a value that the device computes is in g[rd] (06 R159). -/
def holdVal (s : State) (t rd : Nat) (v : Dword) (n : Nat) : State :=
  hold s t { rd := rd, val := some v, npc := nextPc (threadOf s t) n, kind := 4 }

/-- A MULDIV instruction; a division holds its thread (05 R139, 06 R159). -/
def issueMul (op : MulOp) (tid : Tid) (w : Bool) (rd ra rb : RegNo) (s : State) : Host.Outcome State Fault Refusal :=
  .next
    (issueI s tid (.muldiv op w rd ra rb) (fun s =>
      let x := threadOf s tid.toNat
      let v := mulVal op w (x.reg ra.toNat) (x.reg rb.toNat)
      if mulHolds op then holdVal s tid.toNat rd.toNat v 4 else retire s tid.toNat rd.toNat v 4))

/-- MUL (05 R139). -/
def execMul (tid : Tid) (w : Bool) (rd ra rb : RegNo) (s : State) : Host.Outcome State Fault Refusal := issueMul .mul tid w rd ra rb s
/-- MULH (05 R139). -/
def execMulh (tid : Tid) (w : Bool) (rd ra rb : RegNo) (s : State) : Host.Outcome State Fault Refusal := issueMul .mulh tid w rd ra rb s
/-- MULHU (05 R139). -/
def execMulhu (tid : Tid) (w : Bool) (rd ra rb : RegNo) (s : State) : Host.Outcome State Fault Refusal := issueMul .mulhu tid w rd ra rb s
/-- DIV (05 R139). -/
def execDiv (tid : Tid) (w : Bool) (rd ra rb : RegNo) (s : State) : Host.Outcome State Fault Refusal := issueMul .div tid w rd ra rb s
/-- DIVU (05 R139). -/
def execDivu (tid : Tid) (w : Bool) (rd ra rb : RegNo) (s : State) : Host.Outcome State Fault Refusal := issueMul .divu tid w rd ra rb s
/-- REM (05 R139). -/
def execRem (tid : Tid) (w : Bool) (rd ra rb : RegNo) (s : State) : Host.Outcome State Fault Refusal := issueMul .rem tid w rd ra rb s
/-- REMU (05 R139). -/
def execRemu (tid : Tid) (w : Bool) (rd ra rb : RegNo) (s : State) : Host.Outcome State Fault Refusal := issueMul .remu tid w rd ra rb s

/-- LIX (05 Table 5.13). -/
def execLix (tid : Tid) (rd : RegNo) (imm : BitVec 42) (s : State) : Host.Outcome State Fault Refusal :=
  issueVal s tid (.lix rd imm) rd (fun _ => imm.signExtend 64)

/-- LUIX (05 Table 5.13). -/
def execLuix (tid : Tid) (rd : RegNo) (imm : BitVec 42) (s : State) : Host.Outcome State Fault Refusal :=
  issueVal s tid (.luix rd imm) rd (fun _ => imm.setWidth 64 <<< 22)

/-- An extended register-and-immediate instruction. -/
def issueExt (op : ExtOp) (tid : Tid) (rd ra : RegNo) (imm : BitVec 42) (s : State) : Host.Outcome State Fault Refusal :=
  issueVal s tid (.ext op rd ra imm) rd (fun x => extVal op (x.reg ra.toNat) imm)

/-- ADDIX (05 Table 5.13). -/
def execAddix (tid : Tid) (rd ra : RegNo) (imm : BitVec 42) (s : State) : Host.Outcome State Fault Refusal := issueExt .addix tid rd ra imm s
/-- ANDIX (05 Table 5.13). -/
def execAndix (tid : Tid) (rd ra : RegNo) (imm : BitVec 42) (s : State) : Host.Outcome State Fault Refusal := issueExt .andix tid rd ra imm s
/-- ORIX (05 Table 5.13). -/
def execOrix (tid : Tid) (rd ra : RegNo) (imm : BitVec 42) (s : State) : Host.Outcome State Fault Refusal := issueExt .orix tid rd ra imm s
/-- XORIX (05 Table 5.13). -/
def execXorix (tid : Tid) (rd ra : RegNo) (imm : BitVec 42) (s : State) : Host.Outcome State Fault Refusal := issueExt .xorix tid rd ra imm s

/-! ### Floating point (05 R127 to R130, R149) -/

/-- A floating-point instruction: its flags join FSTAT; FDIV and FSQRT hold their thread (05 R129, 06 R159). -/
def issueFp (op : FpOp) (tid : Tid) (fmt : BitVec 3) (kind sat src : Bool) (rd ra rb : RegNo) (s : State) :
    Host.Outcome State Fault Refusal :=
  .next
    (issueI s tid (.fp op fmt kind sat src rd ra rb) (fun s =>
      let x := threadOf s tid.toNat
      let r := fpVal op fmt.toNat kind sat src (x.reg rd.toNat) (x.reg ra.toNat) (x.reg rb.toNat)
      let s := setThread s tid.toNat { x with fstat := x.fstat ||| r.2 }
      if fpHolds op then holdVal s tid.toNat rd.toNat r.1 4 else retire s tid.toNat rd.toNat r.1 4))

/-- FADD (05 R149). -/
def execFadd (tid : Tid) (fmt : BitVec 3) (rd ra rb : RegNo) (s : State) : Host.Outcome State Fault Refusal := issueFp .add tid fmt false false false rd ra rb s
/-- FSUB (05 R149). -/
def execFsub (tid : Tid) (fmt : BitVec 3) (rd ra rb : RegNo) (s : State) : Host.Outcome State Fault Refusal := issueFp .sub tid fmt false false false rd ra rb s
/-- FMUL (05 R149). -/
def execFmul (tid : Tid) (fmt : BitVec 3) (rd ra rb : RegNo) (s : State) : Host.Outcome State Fault Refusal := issueFp .mul tid fmt false false false rd ra rb s
/-- FMADD (05 R149). -/
def execFmadd (tid : Tid) (fmt : BitVec 3) (rd ra rb : RegNo) (s : State) : Host.Outcome State Fault Refusal := issueFp .madd tid fmt false false false rd ra rb s
/-- FMIN (05 R149). -/
def execFmin (tid : Tid) (fmt : BitVec 3) (rd ra rb : RegNo) (s : State) : Host.Outcome State Fault Refusal := issueFp .min tid fmt false false false rd ra rb s
/-- FMAX (05 R149). -/
def execFmax (tid : Tid) (fmt : BitVec 3) (rd ra rb : RegNo) (s : State) : Host.Outcome State Fault Refusal := issueFp .max tid fmt false false false rd ra rb s
/-- FDIV (05 R149). -/
def execFdiv (tid : Tid) (rd ra rb : RegNo) (s : State) : Host.Outcome State Fault Refusal := issueFp .div tid 0 false false false rd ra rb s
/-- FSQRT (05 R149). -/
def execFsqrt (tid : Tid) (rd ra : RegNo) (s : State) : Host.Outcome State Fault Refusal := issueFp .sqrt tid 0 false false false rd ra 0 s
/-- FEQ (05 R149). -/
def execFeq (tid : Tid) (fmt : BitVec 3) (rd ra rb : RegNo) (s : State) : Host.Outcome State Fault Refusal := issueFp .eq tid fmt false false false rd ra rb s
/-- FLT (05 R149). -/
def execFlt (tid : Tid) (fmt : BitVec 3) (rd ra rb : RegNo) (s : State) : Host.Outcome State Fault Refusal := issueFp .lt tid fmt false false false rd ra rb s
/-- FLE (05 R149). -/
def execFle (tid : Tid) (fmt : BitVec 3) (rd ra rb : RegNo) (s : State) : Host.Outcome State Fault Refusal := issueFp .le tid fmt false false false rd ra rb s
/-- FABS (05 R149). -/
def execFabs (tid : Tid) (fmt : BitVec 3) (rd ra : RegNo) (s : State) : Host.Outcome State Fault Refusal := issueFp .abs tid fmt false false false rd ra 0 s
/-- FNEG (05 R149). -/
def execFneg (tid : Tid) (fmt : BitVec 3) (rd ra : RegNo) (s : State) : Host.Outcome State Fault Refusal := issueFp .neg tid fmt false false false rd ra 0 s
/-- CVT.N (05 R130, R149). -/
def execCvtN (tid : Tid) (fmt : BitVec 3) (kind sat src : Bool) (rd ra rb : RegNo) (s : State) : Host.Outcome State Fault Refusal := issueFp .cvtN tid fmt kind sat src rd ra rb s
/-- CVT.WL (05 R130, R149). -/
def execCvtWl (tid : Tid) (fmt : BitVec 3) (kind sat src : Bool) (rd ra : RegNo) (s : State) : Host.Outcome State Fault Refusal := issueFp .cvtWl tid fmt kind sat src rd ra 0 s
/-- CVT.WH (05 R130, R149). -/
def execCvtWh (tid : Tid) (fmt : BitVec 3) (kind sat src : Bool) (rd ra : RegNo) (s : State) : Host.Outcome State Fault Refusal := issueFp .cvtWh tid fmt kind sat src rd ra 0 s
/-- F2I (05 R149). -/
def execF2i (tid : Tid) (rd ra : RegNo) (s : State) : Host.Outcome State Fault Refusal := issueFp .f2i tid 0 false false false rd ra 0 s
/-- I2F (05 R149). -/
def execI2f (tid : Tid) (rd ra : RegNo) (s : State) : Host.Outcome State Fault Refusal := issueFp .i2f tid 0 false false false rd ra 0 s

/-! ### Control flow (05 R142 to R145) -/

/-- Set a thread's pc to the target of a branch, traced (15 R431). -/
def jump (s : State) (t : Nat) (target : Dword) : State :=
  let x := threadOf s t
  setThread (itrace s t 0 0 x.pc (toPc target)) t { x with pc := toPc target }

/-- The target of a branch: its own address plus 4 × the offset (05 R136). -/
def target (x : Thread) {w : Nat} (off : BitVec w) : Dword := x.pc + (off.signExtend 64 <<< 2)

/-- A conditional branch. -/
def issueBr (op : BrOp) (tid : Tid) (ra rb : RegNo) (off : Half) (s : State) : Host.Outcome State Fault Refusal :=
  .next
    (issueI s tid (.br op ra rb off) (fun s =>
      let x := threadOf s tid.toNat
      if brTaken op (x.reg ra.toNat) (x.reg rb.toNat) then jump s tid.toNat (target x off) else advance s tid.toNat 4))

/-- BEQ (05 R142). -/
def execBeq (tid : Tid) (ra rb : RegNo) (off : Half) (s : State) : Host.Outcome State Fault Refusal := issueBr .beq tid ra rb off s
/-- BNE (05 R142). -/
def execBne (tid : Tid) (ra rb : RegNo) (off : Half) (s : State) : Host.Outcome State Fault Refusal := issueBr .bne tid ra rb off s
/-- BLT (05 R142). -/
def execBlt (tid : Tid) (ra rb : RegNo) (off : Half) (s : State) : Host.Outcome State Fault Refusal := issueBr .blt tid ra rb off s
/-- BGE (05 R142). -/
def execBge (tid : Tid) (ra rb : RegNo) (off : Half) (s : State) : Host.Outcome State Fault Refusal := issueBr .bge tid ra rb off s
/-- BLTU (05 R142). -/
def execBltu (tid : Tid) (ra rb : RegNo) (off : Half) (s : State) : Host.Outcome State Fault Refusal := issueBr .bltu tid ra rb off s
/-- BGEU (05 R142). -/
def execBgeu (tid : Tid) (ra rb : RegNo) (off : Half) (s : State) : Host.Outcome State Fault Refusal := issueBr .bgeu tid ra rb off s

/-- Link and jump: g[rd] takes the pc after the instruction (05 R126). -/
def linkJump (s : State) (t rd n : Nat) (to_ : Dword) : State :=
  let x := threadOf s t
  jump (setThread s t (x.write rd (x.pc + BitVec.ofNat 64 n))) t to_

/-- JAL (05 Table 5.5). -/
def execJal (tid : Tid) (off : BitVec 26) (s : State) : Host.Outcome State Fault Refusal :=
  .next (issueI s tid (.jal off) (fun s => linkJump s tid.toNat 31 4 (target (threadOf s tid.toNat) off)))

/-- J (05 Table 5.5). -/
def execJ (tid : Tid) (off : BitVec 26) (s : State) : Host.Outcome State Fault Refusal :=
  .next (issueI s tid (.j off) (fun s => jump s tid.toNat (target (threadOf s tid.toNat) off)))

/-- JALR (05 Table 5.5, R143). -/
def execJalr (tid : Tid) (rd ra : RegNo) (imm : Half) (s : State) : Host.Outcome State Fault Refusal :=
  .next
    (issueI s tid (.jalr rd ra imm) (fun s =>
      let v := (threadOf s tid.toNat).reg ra.toNat + imm.signExtend 64
      if v.toNat % 4 ≠ 0 then trap s tid.toNat { cause := causeMisalign, v0 := v } else linkJump s tid.toNat rd.toNat 4 v))

/-- JALX (05 Table 5.13). -/
def execJalx (tid : Tid) (rd : RegNo) (imm : BitVec 42) (s : State) : Host.Outcome State Fault Refusal :=
  .next (issueI s tid (.jalx rd imm) (fun s => linkJump s tid.toNat rd.toNat 8 (target (threadOf s tid.toNat) imm)))

/-- Decrement and branch (05 R144). -/
def issueDjnz (i : Olx) (tid : Tid) (ra : RegNo) {w : Nat} (off : BitVec w) (s : State) : Host.Outcome State Fault Refusal :=
  .next
    (issueI s tid i (fun s =>
      let x := threadOf s tid.toNat
      let v := x.reg ra.toNat - 1
      let s := setThread s tid.toNat (x.write ra.toNat v)
      if v ≠ 0 then jump s tid.toNat (target x off) else advance s tid.toNat 4))

/-- DJNZ (05 R144). -/
def execDjnz (tid : Tid) (ra : RegNo) (off : Half) (s : State) : Host.Outcome State Fault Refusal := issueDjnz (.djnz ra off) tid ra off s
/-- DJNZL (05 R144). -/
def execDjnzl (tid : Tid) (ra : RegNo) (off : BitVec 20) (s : State) : Host.Outcome State Fault Refusal := issueDjnz (.djnzl ra off) tid ra off s

/-- Whether a value lies in [lo, hi) (05 R145). -/
def inBounds (sgn : Bool) (v lo hi : Dword) : Bool :=
  if sgn then !v.slt lo && v.slt hi else !v.ult lo && v.ult hi

/-- A bounds check against [lo, hi): the next instruction, or BOUNDS (05 R145). -/
def checkBounds (s : State) (t : Nat) (sgn : Bool) (v lo hi desc : Dword) : State :=
  if inBounds sgn v lo hi then advance s t 4
  else trap s t { cause := causeBounds, v0 := v, v1 := lo, v2 := hi, v3 := desc }

/-- CHK (05 R145). -/
def execChk (tid : Tid) (sgn : Bool) (rd ra rb : RegNo) (s : State) : Host.Outcome State Fault Refusal :=
  .next
    (issueI s tid (.chk sgn rd ra rb) (fun s =>
      let x := threadOf s tid.toNat
      checkBounds s tid.toNat sgn (x.reg ra.toNat) (x.reg rb.toNat) (x.reg rd.toNat) 0))

/-- CHKI (05 R145). -/
def execChki (tid : Tid) (ra : RegNo) (imm : BitVec 21) (s : State) : Host.Outcome State Fault Refusal :=
  .next
    (issueI s tid (.chki ra imm) (fun s =>
      checkBounds s tid.toNat false ((threadOf s tid.toNat).reg ra.toNat) 0 (imm.setWidth 64) 0))

/-! ### Bits (05 R131 to R134, R146 to R148) -/

/-- How an instruction uses a bit. -/
inductive BitUse where
  | read
  | clear
  /-- BMOVT or BWR of a value. -/
  | put (v : Bool)
  /-- BSET, BTOG, BTAS. -/
  | change
deriving DecidableEq, Repr

/-- Whether a write is a permitted clear of a doorbell bit (05 R132, Table 5.3; DEDUCED, log 18). -/
def BitUse.clears : BitUse → Bool
  | .clear => true
  | .put v => !v
  | _ => false

/-- Whether a thread may use a bit so (05 R131, R132, Tables 5.2, 5.3). -/
def bitAllowed (s : State) (t n : Nat) (u : BitUse) : Bool :=
  let b := (bayOfTid s t).getD 64
  if n < 0x100 ∨ (0x10000 ≤ n ∧ n < 0x20000) then true
  else if !globalBit n then false
  else if n < 0x801000 then decide (bayOfQp s (n - 0x800000) = some b) && (u == .read || u.clears)
  else if n < 0x802000 then decide (bayOfQp s (n - 0x801000) = some b) && u == .read
  else if n < 0x810000 then decide (bayOfEvr s (n - 0x802000) = some b) && u == .read
  else if n < 0x820000 then u == .read || (n - 0x810000) / 1024 == b
  else u == .read

/-- Write a bit that a thread may write. -/
def writeBit (s : State) (t n : Nat) (v : Bool) : State :=
  if n < 0x100 then
    let x := threadOf s t
    setThread s t { x with priv := if v then x.priv ||| ((1 : BitVec 256) <<< n) else x.priv &&& ~~~((1 : BitVec 256) <<< n) }
  else if n < 0x20000 then
    let r := s.rafters
    { s with rafters := { r with shared := Tab.store false r.shared (65536 * tidRafter t + (n - 0x10000)) v } }
  else writeGlobal s n v

/-- The bit a specifier names: its address, or the register value that R133 refuses. -/
def bitOfSpec (x : Thread) (bs : BitVec 9) : Except Dword Nat :=
  if bs.toNat < 256 then .ok bs.toNat
  else
    let v := x.reg (bs.toNat % 32)
    if 2 ^ 24 ≤ v.toNat then .error v else .ok v.toNat

/-- A BIT_FAULT (06 Table 6.7). -/
def bitFault (v : Dword) (i : Olx) : TrapInfo := { cause := causeBitFault, v0 := v, v1 := word0 i }

/-- Issue an instruction on the bit a specifier names, used so. -/
def issueBit (s : State) (tid : Tid) (i : Olx) (bs : BitVec 9) (u : Thread → BitUse) (k : State → Nat → State) :
    Host.Outcome State Fault Refusal :=
  .next
    (issueI s tid i (fun s =>
      let x := threadOf s tid.toNat
      match bitOfSpec x bs with
      | .error v => trap s tid.toNat (bitFault v i)
      | .ok n => if bitAllowed s tid.toNat n (u x) then k s n else trap s tid.toNat (bitFault (BitVec.ofNat 64 n) i)))

/-- BSET (05 R146). -/
def execBset (tid : Tid) (bs : BitVec 9) (s : State) : Host.Outcome State Fault Refusal :=
  issueBit s tid (.bitop .set bs 0 0) bs (fun _ => .change) (fun s n => advance (writeBit s tid.toNat n true) tid.toNat 4)

/-- BCLR (05 R146). -/
def execBclr (tid : Tid) (bs : BitVec 9) (s : State) : Host.Outcome State Fault Refusal :=
  issueBit s tid (.bitop .clr bs 0 0) bs (fun _ => .clear) (fun s n => advance (writeBit s tid.toNat n false) tid.toNat 4)

/-- BTOG (05 R146). -/
def execBtog (tid : Tid) (bs : BitVec 9) (s : State) : Host.Outcome State Fault Refusal :=
  issueBit s tid (.bitop .tog bs 0 0) bs (fun _ => .change)
    (fun s n => advance (writeBit s tid.toNat n (!bitValue s tid.toNat n)) tid.toNat 4)

/-- BTAS (05 R146): the old bit goes to b[bp] last, so a BTAS of bp itself leaves the old bit there (DEDUCED, log 19). -/
def execBtas (tid : Tid) (bs : BitVec 9) (bp : Byte) (s : State) : Host.Outcome State Fault Refusal :=
  issueBit s tid (.bitop .tas bs bp 0) bs (fun _ => .change)
    (fun s n =>
      let old := bitValue s tid.toNat n
      advance (writeBit (writeBit s tid.toNat bp.toNat old) tid.toNat n true) tid.toNat 4)

/-- BMOVT (05 R146). -/
def execBmovt (tid : Tid) (bs : BitVec 9) (bp : Byte) (s : State) : Host.Outcome State Fault Refusal :=
  issueBit s tid (.bitop .movt bs bp 0) bs (fun x => .put (x.priv.getLsbD bp.toNat))
    (fun s n => advance (writeBit s tid.toNat n ((threadOf s tid.toNat).priv.getLsbD bp.toNat)) tid.toNat 4)

/-- BMOVF (05 R146). -/
def execBmovf (tid : Tid) (bs : BitVec 9) (bp : Byte) (s : State) : Host.Outcome State Fault Refusal :=
  issueBit s tid (.bitop .movf bs bp 0) bs (fun _ => .read)
    (fun s n => advance (writeBit s tid.toNat bp.toNat (bitValue s tid.toNat n)) tid.toNat 4)

/-- BRD (05 R146). -/
def execBrd (tid : Tid) (bs : BitVec 9) (rg : RegNo) (s : State) : Host.Outcome State Fault Refusal :=
  issueBit s tid (.bitop .rd bs 0 rg) bs (fun _ => .read)
    (fun s n => retire s tid.toNat rg.toNat (boolD (bitValue s tid.toNat n)) 4)

/-- BWR (05 R146). -/
def execBwr (tid : Tid) (bs : BitVec 9) (rg : RegNo) (s : State) : Host.Outcome State Fault Refusal :=
  issueBit s tid (.bitop .wr bs 0 rg) bs (fun x => .put ((x.reg rg.toNat).getLsbD 0))
    (fun s n => advance (writeBit s tid.toNat n (((threadOf s tid.toNat).reg rg.toNat).getLsbD 0)) tid.toNat 4)

/-- BLOG (05 R147). -/
def execBlog (tid : Tid) (op : BlogOp) (bd ba b2 : Byte) (s : State) : Host.Outcome State Fault Refusal :=
  .next
    (issueI s tid (.blog op bd ba b2) (fun s =>
      let x := threadOf s tid.toNat
      let v := blogVal op (x.priv.getLsbD ba.toNat) (x.priv.getLsbD b2.toNat)
      advance (writeBit s tid.toNat bd.toNat v) tid.toNat 4))

/-- SETB (05 R147). -/
def execSetb (tid : Tid) (cond : SetCond) (bd : Byte) (ra rb : RegNo) (s : State) : Host.Outcome State Fault Refusal :=
  .next
    (issueI s tid (.setb cond bd ra rb) (fun s =>
      let x := threadOf s tid.toNat
      advance (writeBit s tid.toNat bd.toNat (condTrue cond (x.reg ra.toNat) (x.reg rb.toNat))) tid.toNat 4))

/-- BB (05 R147). -/
def execBb (tid : Tid) (sense : Bool) (bs : BitVec 9) (off : Half) (s : State) : Host.Outcome State Fault Refusal :=
  issueBit s tid (.bb sense bs off) bs (fun _ => .read)
    (fun s n =>
      if bitValue s tid.toNat n = sense then jump s tid.toNat (target (threadOf s tid.toNat) off) else advance s tid.toNat 4)

/-! ### WAIT (05 R148) -/

/-- The watched bits as one atomic read. -/
def sample (s : State) (t base : Nat) (mask : Dword) : Dword :=
  BitVec.ofNat 64 (((List.range 64).map (fun i => if bitN mask.toNat i && bitValue s t (base + i) then 2 ^ i else 0)).sum)

/-- Whether a sample satisfies a wait. -/
def satisfied (all : Bool) (mask w : Dword) : Bool := if all then w == mask else w != 0

/-- Clear the bits that a sample found set. -/
def clearSample (s : State) (t base : Nat) (w : Dword) : State :=
  (List.range 64).foldl (fun s i => if bitN w.toNat i then writeBit s t (base + i) false else s) s

/-- Complete a WAIT with a sample: it satisfies it. -/
def waitEnd (s : State) (t base : Nat) (clr : Bool) (rd : Nat) (w : Dword) : State :=
  let s := if clr then clearSample s t base w else s
  let x := threadOf s t
  setThread s t { x.write rd w with pc := nextPc x 4, st := .ready, wait := none }

/-- Whether the 64 bits from a base lie in one range of Table 5.2. -/
def oneRange (n : Nat) : Bool :=
  decide (n + 64 ≤ 0x100 ∨ (0x10000 ≤ n ∧ n + 64 ≤ 0x20000) ∨ (0x800000 ≤ n ∧ n + 64 ≤ 0x1000000))

/-- The first watched bit that the thread may not read, or with clr not clear (DEDUCED, log 20). -/
def waitRefused (s : State) (t base : Nat) (mask : Dword) (clr : Bool) : Option Nat :=
  ((List.range 64).find? (fun i =>
    bitN mask.toNat i && !(bitAllowed s t (base + i) .read && (!clr || bitAllowed s t (base + i) .clear)))).map (base + ·)

/-- WAIT (05 R148). -/
def execWait (tid : Tid) (all clr : Bool) (rd ra rb : RegNo) (s : State) : Host.Outcome State Fault Refusal :=
  let i : Olx := .wait all clr rd ra rb
  .next
    (issueI s tid i (fun s =>
      let t := tid.toNat
      let x := threadOf s t
      let v := x.reg ra.toNat
      let base := v.toNat
      let mask := x.reg rb.toNat
      if 2 ^ 24 ≤ base ∨ base % 64 ≠ 0 ∨ oneRange base = false ∨ mask = 0 then trap s t (bitFault v i)
      else
        match waitRefused s t base mask clr with
        | some n => trap s t (bitFault (BitVec.ofNat 64 n) i)
        | none =>
          let w := sample s t base mask
          if satisfied all mask w then waitEnd s t base clr rd.toNat w
          else
            let tmo := (x.reg rd.toNat).toNat
            let dl := if tmo = 0 then none else some (s.ftime + tmo)
            setThread s t { x with st := .waiting, wait := some { base := base, mask := mask, all := all, clr := clr, rd := rd.toNat, deadline := dl } }))

/-- Whether a thread waits, in a rafter that runs. -/
def waitingNow (s : State) (t : Nat) : Option Wait :=
  let x := threadOf s t
  if x.st = .waiting ∧ domUp s (tidRafter t) = true then x.wait else none

/-- WAIT_SATISFIED: a waiting thread re-samples its bits (05 R148, 06 R163). -/
def execWaitSatisfied (tid : Tid) (s : State) : Host.Outcome State Fault Refusal :=
  .next
    (let t := tid.toNat
     match waitingNow s t with
     | none => s
     | some w =>
       let v := sample s t w.base w.mask
       if satisfied w.all w.mask v then waitEnd (ungate s (tidRafter t)) t w.base w.clr w.rd v else s)

/-- WAIT_TIMEOUT: wake source 5; a wait satisfied in the same nanosecond counts as satisfied (05 R148). -/
def execWaitTimeout (tid : Tid) (s : State) : Host.Outcome State Fault Refusal :=
  .next
    (let t := tid.toNat
     let x := threadOf s t
     match x.wait with
     | none => s
     | some w =>
       match w.deadline with
       | none => s
       | some d =>
         let s := latchWake (reach s d) (tidRafter t) 5
         let v := sample s t w.base w.mask
         if satisfied w.all w.mask v then waitEnd s t w.base w.clr w.rd v else waitEnd s t w.base false w.rd 0)

/-! ### System registers (05 Table 5.14, 06 Table 6.9) -/

/-- A bay's registers, and a bit as a number. -/
def epochOf (s : State) (b : Nat) : Nat := getF s Fld.thatchBayEpoch b

/-- TSTAT. -/
def tstat (x : Thread) : Nat := b01 x.ie + 2 * b01 x.prevIe + 4 * b01 x.inTrap + 8 * b01 x.haltDouble

/-- What MFS reads (05 R156); none where it traps ILLEGAL. CYCLE counts core cycles, whose rate the spec does not fix: it is 0
when the rafter leaves Off and free later. -/
def sysRead (s : State) (t n : Nat) : Option Dword × State :=
  let x := threadOf s t
  let b := (bayOfTid s t).getD 0
  match n with
  | 0x00 => (some (BitVec.ofNat 64 t), s)
  | 0x01 => (some (BitVec.ofNat 64 (b + epochOf s b * 2 ^ 32)), s)
  | 0x02 => (some (BitVec.ofNat 64 x.fstat), s)
  | 0x03 => if Tab.get 0 s.rafters.cycleBase (tidRafter t) = s.ftime then (some 0, s) else (some (drawDword s).1, (drawDword s).2)
  | 0x04 => (some (BitVec.ofNat 64 s.ftime), s)
  | 0x05 => (some x.hkeyAddr, s)
  | 0x06 => (some x.hkeyLen, s)
  | 0x10 => (some x.tvec, s)
  | 0x11 => (some (BitVec.ofNat 64 (tstat x)), s)
  | 0x12 => (some x.epc, s)
  | 0x13 => (some (BitVec.ofNat 64 x.cause), s)
  | 0x14 => (some x.tval0, s)
  | 0x15 => (some x.tval1, s)
  | 0x16 => (some x.tval2, s)
  | 0x17 => (some x.tval3, s)
  | 0x18 => (some (x.imask.setWidth 64), s)
  | 0x19 => (some (BitVec.ofNat 64 (ipend s t)), s)
  | 0x1A => (some x.tdeadline, s)
  | 0x1B => (some x.ibit, s)
  | 0x1C => (some x.tstartPc, s)
  | 0x1D => (some 0, s)
  | 0x1E => (some x.targ, s)
  | 0x20 => (some (bayOf s b).paneRoot, s)
  | 0x21 => (some 0, s)
  | 0x22 => (some (bayOf s b).restorePc, s)
  | _ => (none, s)

/-- MFS (05 Table 5.9, R156). -/
def execMfs (tid : Tid) (rd : RegNo) (n : BitVec 7) (s : State) : Host.Outcome State Fault Refusal :=
  .next
    (issueI s tid (.mfs rd n) (fun s =>
      match sysRead s tid.toNat n.toNat with
      | (some v, s) => retire s tid.toNat rd.toNat v 4
      | (none, s) => trap s tid.toNat (illegal (.mfs rd n))))

/-- An XTHREAD trap (06 R161). -/
def xthread (v : Dword) (reason : Nat) : TrapInfo := { cause := causeXthread, v0 := v, v1 := BitVec.ofNat 64 reason }

/-- A write of TCTL (06 R161): an unused action or a reserved bit traps first (DEDUCED, log 21). -/
def tctl (s : State) (t : Nat) (v : Dword) (i : Olx) : State :=
  let x := threadOf s t
  let tgt := v.toNat % 2 ^ 13
  let act := fieldOf v.toNat 15 13
  if 2 ^ 16 ≤ v.toNat ∨ (act ≠ 1 ∧ act ≠ 2) then trap s t (illegal i)
  else if bayOfTid s tgt ≠ bayOfTid s t then trap s t (xthread v 1)
  else if act = 1 then
    if (threadOf s tgt).st ≠ .parked then trap s t (xthread v 2)
    else startThread (advance s t 4) tgt x.tstartPc [x.targ]
  else if tgt = t then resetThread s t
  else resetThread (advance s t 4) tgt

/-- A write of PANE_INV (06 R170). -/
def paneInv (s : State) (t : Nat) (v : Dword) : State :=
  let b := bayOfTid s t
  let a := fieldOf v.toNat 51 16 * 65536
  let hit (p : PaneEnt) : Bool := decide (bayOfRafter s p.rafter = b) && (v.getLsbD 0 || decide (p.base ≤ a ∧ a < p.base + 2 ^ p.log2))
  advance { s with rafters := { s.rafters with panes := s.rafters.panes.filter (fun p => !hit p) } } t 4

/-- A thread with a system register of its own written (05 R156, 06 Table 6.9): none where the register is read only or does not
exist. -/
def Thread.mts (x : Thread) (n : Nat) (v : Dword) : Option Thread :=
  match n with
  | 0x02 => some { x with fstat := v.toNat % 32 }
  | 0x05 => some { x with hkeyAddr := v &&& 0x000FFFFFFFFFFFFF }
  | 0x06 => some (if 5 ≤ v.toNat ∧ v.toNat ≤ 64 then { x with hkeyLen := v } else x)
  | 0x10 => some { x with tvec := v &&& 0xFFFFFFFFFFFFFFFC }
  | 0x11 => some { x with ie := v.getLsbD 0, prevIe := v.getLsbD 1, inTrap := v.getLsbD 2 }
  | 0x12 => some { x with epc := v }
  | 0x13 => some { x with cause := v.toNat % 32 }
  | 0x14 => some { x with tval0 := v }
  | 0x15 => some { x with tval1 := v }
  | 0x16 => some { x with tval2 := v }
  | 0x17 => some { x with tval3 := v }
  | 0x18 => some { x with imask := v.setWidth 4 }
  | 0x1A => some { x with tdeadline := v }
  | 0x1B => some { x with ibit := v &&& 0x8000000000FFFFFF }
  | 0x1C => some { x with tstartPc := v }
  | 0x1E => some { x with targ := v }
  | _ => none

/-- A write of a system register. -/
def sysWrite (s : State) (t n : Nat) (v : Dword) (i : Olx) : State :=
  let x := threadOf s t
  let b := (bayOfTid s t).getD 64
  if n = 0x1D then tctl s t v i
  else if n = 0x20 then setBay (advance s t 4) b { bayOf s b with paneRoot := v &&& 0x000FFFFFFFFF0001 }
  else if n = 0x21 then paneInv s t v
  else if n = 0x22 then setBay (advance s t 4) b { bayOf s b with restorePc := v }
  else if n = 0x1B ∧ v.getLsbD 63 = true ∧ bitAllowed s t (v.toNat % 2 ^ 24) .read = false then
    trap s t (bitFault (BitVec.ofNat 64 (v.toNat % 2 ^ 24)) i)
  else
    match x.mts n v with
    | some y => advance (setThread s t y) t 4
    | none => trap s t (illegal i)

/-- MTS (05 Table 5.9, R156). -/
def execMts (tid : Tid) (ra : RegNo) (n : BitVec 7) (s : State) : Host.Outcome State Fault Refusal :=
  .next (issueI s tid (.mts ra n) (fun s => sysWrite s tid.toNat n.toNat ((threadOf s tid.toNat).reg ra.toNat) (.mts ra n)))

/-- TCTL_START: an MTS to TCTL whose value carries the action start (06 R161). -/
def execTctlStart (tid : Tid) (ra : RegNo) (s : State) : Host.Outcome State Fault Refusal :=
  .next
    (issueI s tid (.mts ra 0x1D) (fun s =>
      let v := (threadOf s tid.toNat).reg ra.toNat
      if fieldOf v.toNat 15 13 = 1 then tctl s tid.toNat v (.mts ra 0x1D) else s))

/-- TCTL_RESET: an MTS to TCTL whose value carries the action reset (06 R161, R162). -/
def execTctlReset (tid : Tid) (ra : RegNo) (s : State) : Host.Outcome State Fault Refusal :=
  .next
    (issueI s tid (.mts ra 0x1D) (fun s =>
      let v := (threadOf s tid.toNat).reg ra.toNat
      if fieldOf v.toNat 15 13 = 2 then tctl s tid.toNat v (.mts ra 0x1D) else s))

/-- PANE_INV: an MTS to PANE_INV (06 R170). -/
def execPaneInv (tid : Tid) (ra : RegNo) (s : State) : Host.Outcome State Fault Refusal :=
  .next (issueI s tid (.mts ra 0x21) (fun s => paneInv s tid.toNat ((threadOf s tid.toNat).reg ra.toNat)))

/-! ### Fences, traps, ERET -/

/-- A fence; FENCE.REL and FENCE.FULL hold the thread until its posted stores are performed or have failed (06 R176). Loads are
performed when they issue and stores in device memory when they issue, so a fence orders nothing more here (log 22). -/
def issueFence (k : FenceOp) (tid : Tid) (s : State) : Host.Outcome State Fault Refusal :=
  .next
    (issueI s tid (.fence k) (fun s =>
      let t := tid.toNat
      let x := threadOf s t
      if (k = .rel ∨ k = .full) ∧ x.posted ≠ [] then hold s t { rd := 0, val := none, npc := nextPc x 4, fence := true }
      else advance s t 4))

/-- FENCE.ACQ (05 Table 5.9). -/
def execFenceAcq (tid : Tid) (s : State) : Host.Outcome State Fault Refusal := issueFence .acq tid s
/-- FENCE.REL (05 Table 5.9). -/
def execFenceRel (tid : Tid) (s : State) : Host.Outcome State Fault Refusal := issueFence .rel tid s
/-- FENCE.FULL (05 Table 5.9). -/
def execFenceFull (tid : Tid) (s : State) : Host.Outcome State Fault Refusal := issueFence .full tid s
/-- FENCE.I (05 Table 5.9). -/
def execFenceI (tid : Tid) (s : State) : Host.Outcome State Fault Refusal := issueFence .ifetch tid s

/-- SWTRAP saves pc + 4 (05 R157). -/
def execSwtrap (tid : Tid) (n : BitVec 7) (s : State) : Host.Outcome State Fault Refusal :=
  .next
    (issueI s tid (.swtrap n) (fun s =>
      trapAt s tid.toNat { cause := causeSwtrap, v0 := n.setWidth 64 } (nextPc (threadOf s tid.toNat) 4)))

/-- BREAK (05 Table 5.9). -/
def execBrk (tid : Tid) (s : State) : Host.Outcome State Fault Refusal :=
  .next (issueI s tid .brk (fun s => trap s tid.toNat { cause := causeBreak }))

/-- ERET (06 R181, 05 R143). -/
def execEret (tid : Tid) (s : State) : Host.Outcome State Fault Refusal :=
  .next
    (issueI s tid .eret (fun s =>
      let t := tid.toNat
      let x := threadOf s t
      if !x.inTrap then trap s t (illegal .eret)
      else if x.epc.toNat % 4 ≠ 0 then trap s t { cause := causeMisalign, v0 := x.epc }
      else
        setThread (itrace s t 3 0 x.pc (toPc x.epc)) t { x with pc := toPc x.epc, ie := x.prevIe, inTrap := false }))

/-! ### Words that are no row's instruction (05 R128, R135, R154) -/

/-- A CPABSENT trap of an open-block word (06 Table 6.7). -/
def cpAbsent (reason : Nat) (i : Olx) : TrapInfo := { cause := causeCpAbsent, v0 := BitVec.ofNat 64 reason, v1 := word0 i }

/-- A CPFAULT trap of an open-block word. -/
def cpFault (status : Nat) (w : Dword) : TrapInfo := { cause := causeCpFault, v0 := BitVec.ofNat 64 status, v1 := w }

/-- Whether a fixed coprocessor (0 Loft, 1 crypto, 2 Shingle) offers a function (12 Table 12.11, 14 Table 14.11, 13 Table
13.10). -/
def copOffers (unit func : Nat) : Bool :=
  match unit with
  | 0 => decide (1 ≤ func ∧ func ≤ 5)
  | 1 => decide (1 ≤ func ∧ func ≤ 3)
  | 2 => decide (1 ≤ func ∧ func ≤ 3)
  | _ => false

/-- ILLEGAL_INSTRUCTION: a word that no row's instruction has. A malformed or reserved word traps ILLEGAL (05 R135); a function
that a fixed coprocessor does not offer traps CPFAULT with status 1 (12 R385, 13 R406, 14 R428). -/
def execIllegalInstruction (tid : Tid) (w0 w1 : Word) (s : State) : Host.Outcome State Fault Refusal :=
  .next
    (issue s tid.toNat [] false (fun s =>
      match decodeOlx w0 w1 with
      | none =>
        trap s tid.toNat { cause := causeIllegal, v0 := w0.setWidth 64, v1 := if bits w0 31 26 = 0x37 then w1.setWidth 64 else 0 }
      | some (.cop unit ver rd rb func) =>
        if unit.toNat ≤ 2 ∧ copOffers unit.toNat func.toNat = false then
          (if ver = 1 then trap s tid.toNat (cpFault 1 (w0.setWidth 64)) else trap s tid.toNat (cpAbsent 3 (.cop unit ver rd rb func)))
        else s
      | some _ => s))

/-- NO_COPROCESSOR_FITTED: major 0x3B (05 R154). -/
def execNoCoprocessorFitted (tid : Tid) (ver : BitVec 4) (rd rb : RegNo) (func : BitVec 12) (s : State) :
    Host.Outcome State Fault Refusal :=
  .next (issueI s tid (.cop 3 ver rd rb func) (fun s => trap s tid.toNat (cpAbsent 4 (.cop 3 ver rd rb func))))

/-! ### Interrupts (06 R177 to R179, R184) -/

/-- INTERRUPT_TAKEN: a thread that is ready or waiting takes the interrupt that is due (06 R179, R184). -/
def execInterruptTaken (tid : Tid) (s : State) : Host.Outcome State Fault Refusal :=
  .next
    (let t := tid.toNat
     let x := threadOf s t
     if (x.st = .ready ∨ x.st = .waiting) ∧ domUp s (tidRafter t) = true then
       match takeable s t with
       | some c => takeInt (ungate s (tidRafter t)) t c
       | none => s
     else s)

/-- TDEADLINE_EXPIRY: INT_TIMER is pending; an enabled one wakes a waiting thread's rafter, source 5 (06 R163, R177). -/
def execTdeadlineExpiry (tid : Tid) (s : State) : Host.Outcome State Fault Refusal :=
  .next
    (let t := tid.toNat
     let x := threadOf s t
     if x.tdeadline = 0 then s
     else
       let s := reach s x.tdeadline.toNat
       if decide (x.st = .waiting) && x.ie && !x.inTrap && x.imask.getLsbD 0 then latchWake s (tidRafter t) 5 else s)

end Sys2Proof.Machine
end

