-- ==== Sys2Proof/Machine/Reed.lean ====
section
/-! DEFINITION. A Reed processor (09 R255 to R260, Tables 9.3, 9.4): it runs a program of Olxavon encodings over one packet. -/

namespace Sys2Proof.Machine

/-- What a program runs over: the frame, its code and its data. -/
structure ReedEnv where
  frame : List Byte
  code : List Byte
  data : List Byte
deriving DecidableEq, Repr

/-- A processor: registers, private bits, pc (a byte offset in the code), the copy's metadata. -/
structure ReedM where
  g : Tab Dword
  priv : BitVec 256 := 0
  pc : Dword
  md : Tab Byte
deriving DecidableEq, Repr

/-- How an instruction ends: the program goes on, returns by SWTRAP n, traps with a cause of 06 Table 6.7, or reads past the
frame. -/
inductive ReedStep where
  | go (m : ReedM)
  | ret (n : Nat)
  | trap (cause : Nat)
  | past
deriving DecidableEq, Repr

/-- A register. -/
def ReedM.reg (m : ReedM) (r : Nat) : Dword := if r = 0 then 0 else Tab.get 0 m.g r

/-- Write a register. -/
def ReedM.put (m : ReedM) (r : Nat) (v : Dword) : ReedM := if r = 0 then m else { m with g := Tab.store 0 m.g r v }

/-- Write a register and go on after `n` bytes. -/
def ReedM.retire (m : ReedM) (r : Nat) (v : Dword) (n : Nat) : ReedStep :=
  .go { m.put r v with pc := toPc (m.pc + BitVec.ofNat 64 n) }

/-- Go on after 4 bytes. -/
def ReedM.next (m : ReedM) : ReedStep := .go { m with pc := toPc (m.pc + 4) }

/-- Branch by an offset in instruction words, or go on. -/
def ReedM.branch (m : ReedM) (taken : Bool) (off : Dword) : ReedStep :=
  .go { m with pc := toPc (m.pc + if taken then 4 * off else 4) }

/-- Set a private bit. -/
def ReedM.setBit (m : ReedM) (n : Nat) (v : Bool) : ReedM :=
  { m with priv := if v then m.priv ||| ((1 : BitVec 256) <<< n) else m.priv &&& ~~~((1 : BitVec 256) <<< n) }

/-- What a load of the three regions gives (09 R258): the number of its bytes, or how it ends the program. -/
def reedLoad (e : ReedEnv) (m : ReedM) (a n : Nat) : Except ReedStep Nat :=
  if a % n ≠ 0 then .error (.trap causeMisalign)
  else if a + n ≤ 0x200 then (if e.frame.length < a + n then .error .past else .ok (leAt e.frame a n))
  else if 0x400 ≤ a ∧ a + n ≤ 0x480 then .ok (leNat ((List.range n).map (fun i => Tab.get 0 m.md (a - 0x400 + i))))
  else if 0x10000 ≤ a ∧ a + n ≤ 0x10000 + e.data.length then .ok (leAt e.data (a - 0x10000) n)
  else .error (.trap causePaneFault)

/-- A store, to metadata only. -/
def reedStore (m : ReedM) (a n v : Nat) : Except ReedStep ReedM :=
  if a % n ≠ 0 then .error (.trap causeMisalign)
  else if 0x400 ≤ a ∧ a + n ≤ 0x480 then
    .ok { m with md := ((leBytes n v).zipIdx).foldl (fun t b => Tab.store 0 t (a - 0x400 + b.2) b.1) m.md }
  else .error (.trap causePaneFault)

/-- A load instruction. -/
def reedLoadTo (e : ReedEnv) (m : ReedM) (rd : Nat) (a : Dword) (shape : Nat × Bool) (len : Nat) : ReedStep :=
  match reedLoad e m a.toNat shape.1 with
  | .error x => x
  | .ok v => m.retire rd (extendLoad shape.1 shape.2 v) len

/-- A store instruction. -/
def reedStoreTo (m : ReedM) (v a : Dword) (n len : Nat) : ReedStep :=
  match reedStore m a.toNat n v.toNat with
  | .error x => x
  | .ok m => .go { m with pc := toPc (m.pc + BitVec.ofNat 64 len) }

/-- A bounds check. -/
def reedCheck (m : ReedM) (sgn : Bool) (v lo hi : Dword) : ReedStep :=
  if inBounds sgn v lo hi then m.next else .trap causeBounds

/-- An element of a LONG routine: of the packet window or program data only (09 Table 9.4). -/
def reedElem (e : ReedEnv) (m : ReedM) (a n : Nat) : Except ReedStep Nat :=
  if 0x400 ≤ a ∧ a < 0x480 then .error (.trap causePaneFault) else reedLoad e m a n

/-- SCANB (05 R152). The fuel covers every element that the regions can hold. -/
def reedScan (e : ReedEnv) (sz : Nat) (dir cond : Bool) (rd ra rb : Nat) : Nat → ReedM → ReedStep
  | 0, _ => .trap causePaneFault
  | k + 1, m =>
    if m.reg rb = 0 then m.next
    else
      match reedElem e m (m.reg rd).toNat sz with
      | .error x => x
      | .ok v =>
        if (v == (m.reg ra).toNat % 2 ^ (8 * sz)) != cond then m.next
        else
          let step : Dword := if dir then -(BitVec.ofNat 64 sz) else BitVec.ofNat 64 sz
          reedScan e sz dir cond rd ra rb k ((m.put rd (m.reg rd + step)).put rb (m.reg rb - 1))

/-- CRCB (05 R152). -/
def reedCrc (e : ReedEnv) (rd ra rb : Nat) : Nat → ReedM → ReedStep
  | 0, _ => .trap causePaneFault
  | k + 1, m =>
    if m.reg rb = 0 then m.next
    else
      match reedElem e m (m.reg ra).toNat 1 with
      | .error x => x
      | .ok v =>
        let c := crcByte ((m.reg rd).toNat % 2 ^ 32) (BitVec.ofNat 8 v)
        reedCrc e rd ra rb k (((m.put rd (BitVec.ofNat 64 c)).put ra (m.reg ra + 1)).put rb (m.reg rb - 1))

/-- A LONG routine of the profile. -/
def reedLong (e : ReedEnv) (m : ReedM) (op : LongOp) (esz : BitVec 2) (dir cond : Bool) (rd ra rb : Nat) : ReedStep :=
  let sz := 2 ^ esz.toNat
  match op with
  | .scanb => reedScan e sz dir cond rd ra rb 70000 m
  | .crcb => reedCrc e rd ra rb 70000 m
  | _ => .trap causeIllegal

/-- A BITOP on a private bit. -/
def reedBit (m : ReedM) (op : BitOp) (n bp rg : Nat) : ReedStep :=
  let v := m.priv.getLsbD n
  match op with
  | .set => (m.setBit n true).next
  | .clr => (m.setBit n false).next
  | .tog => (m.setBit n (!v)).next
  | .tas => ((m.setBit bp v).setBit n true).next
  | .movt => (m.setBit n (m.priv.getLsbD bp)).next
  | .movf => (m.setBit bp v).next
  | .rd => m.retire rg (boolD v) 4
  | .wr => (m.setBit n ((m.reg rg).getLsbD 0)).next

/-- The private bit that BB names, if it names one. -/
def reedSpec (m : ReedM) (bs : BitVec 9) : Option Nat :=
  if bs.toNat < 256 then some bs.toNat
  else if (m.reg (bs.toNat % 32)).toNat < 256 then some (m.reg (bs.toNat % 32)).toNat else none

/-- A jump to a register's target. -/
def reedJump (m : ReedM) (rd : Nat) (t : Dword) : ReedStep :=
  if t.toNat % 4 ≠ 0 then .trap causeMisalign else .go { m.put rd (m.pc + 4) with pc := toPc t }

/-- One instruction of the profile of Table 9.4; any other traps. -/
def reedExec (e : ReedEnv) (m : ReedM) (i : Olx) : ReedStep :=
  let r (x : RegNo) : Dword := m.reg x.toNat
  match i with
  | .alu op w rd ra rb => m.retire rd.toNat (aluVal op w (r ra) (r rb)) 4
  | .imm op rd ra imm => m.retire rd.toNat (immVal op (r ra) imm) 4
  | .shi op w rd ra sh => m.retire rd.toNat (shiVal op w (r ra) sh) 4
  | .lui rd imm => m.retire rd.toNat (luiVal imm) 4
  | .muldiv op w rd ra rb => m.retire rd.toNat (mulVal op w (r ra) (r rb)) 4
  | .load op rd ra imm => reedLoadTo e m rd.toNat (r ra + imm.signExtend 64) (loadShape op) 4
  | .store op rd ra imm => reedStoreTo m (r rd) (r ra + imm.signExtend 64) (storeSize op) 4
  | .br op ra rb off => m.branch (brTaken op (r ra) (r rb)) (off.signExtend 64)
  | .jal off => .go { m.put 31 (m.pc + 4) with pc := toPc (m.pc + 4 * off.signExtend 64) }
  | .j off => m.branch true (off.signExtend 64)
  | .jalr rd ra imm => reedJump m rd.toNat (r ra + imm.signExtend 64)
  | .djnz ra off => (m.put ra.toNat (r ra - 1)).branch (r ra - 1 != 0) (off.signExtend 64)
  | .djnzl ra off => (m.put ra.toNat (r ra - 1)).branch (r ra - 1 != 0) (off.signExtend 64)
  | .blog op bd ba b2 => (m.setBit bd.toNat (blogVal op (m.priv.getLsbD ba.toNat) (m.priv.getLsbD b2.toNat))).next
  | .bitop op bs bp rg => if bs.toNat < 256 then reedBit m op bs.toNat bp.toNat rg.toNat else .trap causeIllegal
  | .setb cond bd ra rb => (m.setBit bd.toNat (condTrue cond (r ra) (r rb))).next
  | .bb sense bs off =>
    (match reedSpec m bs with
     | none => .trap causeBitFault
     | some n => m.branch (m.priv.getLsbD n == sense) (off.signExtend 64))
  | .chk sgn rd ra rb => reedCheck m sgn (r ra) (r rb) (r rd)
  | .chki ra imm => reedCheck m false (r ra) 0 (imm.setWidth 64)
  | .chkd sgn ra rb =>
    (let d := (r rb).toNat
     if d % 16 ≠ 0 then .trap causeMisalign
     else if d < 0x10000 then .trap causePaneFault
     else
       match reedLoad e m d 8, reedLoad e m (d + 8) 8 with
       | .ok lo, .ok hi => reedCheck m sgn (r ra) (BitVec.ofNat 64 lo) (BitVec.ofNat 64 hi)
       | .error x, _ => x
       | _, .error x => x)
  | .long op esz dir cond rd ra rb => reedLong e m op esz dir cond rd.toNat ra.toNat rb.toNat
  | .lix rd imm => m.retire rd.toNat (imm.signExtend 64) 8
  | .luix rd imm => m.retire rd.toNat (imm.setWidth 64 <<< 22) 8
  | .ext op rd ra imm => m.retire rd.toNat (extVal op (r ra) imm) 8
  | .extLoad op rd ra imm => reedLoadTo e m rd.toNat (r ra + imm.signExtend 64) (extLoadShape op) 8
  | .extStore op rd ra imm => reedStoreTo m (r rd) (r ra + imm.signExtend 64) (extStoreSize op) 8
  | .swtrap n => .ret n.toNat
  | .amo .. | .fence .. | .mfs .. | .mts .. | .brk | .eret | .fp .. | .wait .. | .jalx .. | .cop .. => .trap causeIllegal

/-- Fetch and execute one instruction. A fetch outside the code is a fault of its address (DEDUCED, log 53). -/
def reedStep (e : ReedEnv) (m : ReedM) : ReedStep :=
  let a := m.pc.toNat
  if e.code.length < a + 4 then .trap causePaneFault
  else
    match decodeOlx (BitVec.ofNat 32 (leAt e.code a 4)) (BitVec.ofNat 32 (leAt e.code (a + 4) 4)) with
    | none => .trap causeIllegal
    | some i => if e.code.length < a + i.size then .trap causePaneFault else reedExec e m i

/-- How a program came to its end: what Truss is told, the metadata, and the cause where it trapped. -/
structure ReedRun where
  how : ReedEnd
  md : Tab Byte
  cause : Option Nat := none
deriving DecidableEq, Repr

/-- Run a program for at most its budget (09 R260). -/
def reedRun (e : ReedEnv) : Nat → ReedM → ReedRun
  | 0, m => { how := .bad 7, md := m.md }
  | k + 1, m =>
    match reedStep e m with
    | .go m => reedRun e k m
    | .ret n => { how := .ret n (m.reg 1).toNat (m.reg 4).toNat (m.reg 5).toNat (m.reg 6).toNat, md := m.md }
    | .trap c => { how := .bad 8, md := m.md, cause := some c }
    | .past => { how := .bad 5, md := m.md }

/-- The registers at entry (09 R257). -/
def reedEntryRegs (c : Copy) : Tab Dword :=
  [(1, c.off), (2, c.frame.length), (3, c.depth), (4, c.spanEnd), (5, c.port)].foldl
    (fun t e => Tab.store 0 t e.1 (BitVec.ofNat 64 e.2)) []

/-- Run program p of REED_PROGRAMS over a copy (09 R256, R257). -/
def reedProgram (progs : List Byte) (p : Nat) (c : Copy) : ReedRun :=
  let x := reedEntry progs p
  let code := (progs.drop x.1).take x.2.1
  let data := (progs.drop x.2.2.1).take x.2.2.2.1
  reedRun { frame := c.frame, code := code, data := data } x.2.2.2.2.1
    { g := reedEntryRegs c, pc := BitVec.ofNat 64 (4 * x.2.2.2.2.2), md := c.md }

end Sys2Proof.Machine
end

