-- ==== Sys2Proof/Machine/Switch.lean ====
section
/-! DEFINITION. The eave switch: ports, PFC on ingress, forwarding, learning (09 R244 to R246, R273 to R277; 10 R311, R314). -/

namespace Sys2Proof.Machine

/-! ### Frames -/

/-- A frame's addresses: the first byte on the wire is MAC bits 47:40 (09 Table 9.11). -/
def dstMac (f : List Byte) : Nat := beAt f 0 6
def srcMac (f : List Byte) : Nat := beAt f 6 6

/-- Whether a frame carries an 802.1Q tag, its VLAN ID (0 untagged) and its priority (0 untagged). -/
def isTagged (f : List Byte) : Bool := beAt f 12 2 == 0x8100
def frameVlan (f : List Byte) : Nat := if isTagged f then beAt f 14 2 % 4096 else 0
def framePrio (f : List Byte) : Nat := if isTagged f then beAt f 14 2 / 8192 else 0

/-- Whether a destination is a group address. -/
def isGroup (mac : Nat) : Bool := bitN mac 40

/-- Ones' complement sum of 16-bit big-endian words, folded to 16 bits. -/
def onesFold : Nat → Nat → Nat
  | 0, x => x
  | n + 1, x => onesFold n (x % 65536 + x / 65536)
def onesSum (bs : List Byte) : Nat :=
  onesFold 8 (((List.range ((bs.length + 1) / 2)).map (fun i => beAt bs (2 * i) 2)).sum)

/-- Replace bytes of a list from an offset on. -/
def putAt (bs : List Byte) (off : Nat) (new : List Byte) : List Byte :=
  if bs.length < off + new.length then bs else bs.take off ++ new ++ bs.drop (off + new.length)

/-- Write the header checksum of an IPv4 header at an offset. -/
def ipv4Csum (f : List Byte) (l3 : Nat) : List Byte :=
  let n := (leAt f l3 1 % 16) * 4
  let f0 := putAt f (l3 + 10) [0, 0]
  putAt f0 (l3 + 10) (beBytes 2 (65535 - onesSum ((f0.drop l3).take n)))

/-- Where a frame's IP header begins, past up to two tags, if it has one: offset and version. -/
def ipAt (f : List Byte) : Option (Nat × Nat) :=
  let off := if isTagged f then (if beAt f 16 2 = 0x8100 then 22 else 18) else 14
  let et := beAt f (off - 2) 2
  if et = 0x0800 then some (off, 4) else if et = 0x86DD then some (off, 6) else none

/-- The two ECN bits of an IP header. -/
def ecnOf (f : List Byte) (ip : Nat × Nat) : Nat := if ip.2 = 4 then leAt f (ip.1 + 1) 1 % 4 else leAt f (ip.1 + 1) 1 / 16 % 4

/-- A frame with its ECN field set to CE. -/
def markCe (f : List Byte) (ip : Nat × Nat) : List Byte :=
  let b := leAt f (ip.1 + 1) 1
  if ip.2 = 4 then ipv4Csum (putAt f (ip.1 + 1) [BitVec.ofNat 8 (b / 4 * 4 + 3)]) ip.1
  else putAt f (ip.1 + 1) [BitVec.ofNat 8 (b - b / 16 % 4 * 16 + 48)]

/-- Whether the device marks a packet it sends that may be marked (10 R314): the depth of the egress queue is not in the model, so a
free bit decides. -/
def ecnDraw (s : State) : Bool × State :=
  let d := drawBit s
  if d.1 then (true, bump d.2 Fld.xptEcnMarkCnt 0) else (false, d.2)

/-! ### Ports -/

/-- Whether a switch port is an external sub-port. -/
def isExternal (p : Nat) : Bool := decide (p < 64)

/-- Whether an external sub-port is up. -/
def portUp (s : State) (p : Nat) : Bool := s.truss.portsUp.contains p

/-- A vport's MAC address, and whether it is valid (09 R246). -/
def vportMac (s : State) (v : Nat) : Nat := getF s Fld.swVportMac v + getF s Fld.swVportCfgMacHi v * 2 ^ 32
def vportValid (s : State) (v : Nat) : Bool := flagF s Fld.swVportCfgValid v

/-- The valid vports. -/
def vports (s : State) : List Nat := ((List.range 576).map (· + 64)).filter (vportValid s)

/-- The vport of a host function, and of a bay. -/
def fnVport (ep fn : Nat) : Nat := 0x40 + 256 * ep + fn
def bayVport (b : Nat) : Nat := 0x240 + b

/-- The vport that a ring's frames enter at (09 R246). -/
def ringVport (s : State) (q : Nat) : Nat :=
  match qpOwner s q with
  | some (ep, fn) => fnVport ep fn
  | none => bayVport ((bayOfQp s q).getD 0)

/-! ### Ingress buffering and PFC (09 R248, 10 R311, R312) -/

/-- PFC on a sub-port and priority. -/
def pfcOf (s : State) (p q : Nat) : Pfc := Tab.get {} s.xpt.pfc (8 * p + q)

/-- Change it. -/
def setPfc (s : State) (p q : Nat) (x : Pfc) : State :=
  { s with xpt := { s.xpt with pfc := Tab.store {} s.xpt.pfc (8 * p + q) x } }

/-- Bytes of a sub-port and priority in the ingress buffer: those of its copies on chip. -/
def bufUse (s : State) (p q : Nat) : Nat :=
  ((s.truss.copies.filter (fun e => e.2.port == p && framePrio e.2.frame == q)).map (fun e => e.2.frame.length)).sum

/-- Bytes of every sub-port in the ingress buffer. -/
def bufTotal (s : State) : Nat := ((s.truss.copies.filter (fun e => isExternal e.2.port)).map (fun e => e.2.frame.length)).sum

/-- Whether PFC is enabled for a priority. -/
def pfcOn (s : State) (p q : Nat) : Bool := bitN (getF s Fld.xptPfcEnPfcEn p) q

/-- Thresholds in bytes. -/
def xoffAt (s : State) (p : Nat) : Nat := getF s Fld.xptPfcThrXoffKib p * 1024
def xonAt (s : State) (p : Nat) : Nat := getF s Fld.xptPfcThrXonKib p * 1024
def headroom (s : State) (p : Nat) : Nat := getF s Fld.xptPfcHeadHeadroomKib p * 1024

/-- Send XOFF or XON as the use of a sub-port and priority asks (10 R311). -/
def pfcSettle (s : State) (p q : Nat) : State :=
  if !isExternal p || !pfcOn s p q then s
  else
    let x := pfcOf s p q
    let use := bufUse s p q
    if x.xoff.isNone ∧ xoffAt s p ≤ use then emit (setPfc s p q { x with xoff := some s.ftime }) (.pfc p q true)
    else if x.xoff.isSome ∧ use < xonAt s p then emit (setPfc s p q { x with xoff := none }) (.pfc p q false)
    else s

/-- Whether a storm drops an arriving frame (10 R312). -/
def stormDrops (s : State) (p q : Nat) : Bool := (pfcOf s p q).dropping && decide (xonAt s p ≤ bufUse s p q)

/-- Whether the ingress buffer drops an arriving frame (10 R311). -/
def bufferDrops (s : State) (p q len : Nat) : Bool :=
  if pfcOn s p q then decide (xoffAt s p + headroom s p < bufUse s p q) else decide (48 * 1048576 < bufTotal s + len)

/-! ### Egress (10 R311, R312, R314) -/

/-- Whether a storm of direction 0 is being recovered from: received pause is ignored and the priority's frames are discarded. -/
def stormOut (s : State) (p q : Nat) : Bool :=
  match (pfcOf s p q).ignore with
  | some t => decide (s.ftime < t)
  | none => false

/-- Whether transmission of a priority on a sub-port is paused. -/
def egressPaused (s : State) (p q : Nat) : Bool :=
  pfcOn s p q && !stormOut s p q &&
  (match (pfcOf s p q).paused with
   | some (_, t) => decide (s.ftime < t)
   | none => false)

/-- What leaves marked CE, where its ECN field allows it (10 R314): every eave transport packet is sent with ECT(0). -/
def ceOut (o : Out) : Option Out :=
  match o with
  | .frame p f =>
    (match ipAt f with
     | some ip => if ecnOf f ip = 1 ∨ ecnOf f ip = 2 then some (.frame p (markCe f ip)) else none
     | none => none)
  | .eave c _ u h b =>
    (match ipAt u with
     | some ip => some (.eave c true (markCe u ip) h b)
     | none => none)
  | _ => none

/-- A frame or packet leaves; its ECN field may be marked. -/
def frameSend (s : State) (o : Out) : State :=
  match ceOut o with
  | none => emit s o
  | some m =>
    let d := ecnDraw s
    emit d.2 (if d.1 then m else o)

/-- What waited for a sub-port and priority, once it is not paused: sent, or discarded in a storm. -/
def egressFlush (s : State) (p q : Nat) : State :=
  if egressPaused s p q then s
  else
    let mine (e : Nat × Nat × Out) : Bool := e.1 == p && e.2.1 == q
    let fs := s.xpt.egress.filter mine
    let s := { s with xpt := { s.xpt with egress := s.xpt.egress.filter (fun e => !mine e) } }
    if stormOut s p q then bumpN s Fld.xptStormDropCnt 0 fs.length else fs.foldl (fun s e => frameSend s e.2.2) s

/-- The queues that something waits in: those of a strict class first, the highest class first (10 R313), then the rest. -/
def egressQueues (s : State) : List (Nat × Nat) :=
  let ks := (s.xpt.egress.map (fun e => (e.1, e.2.1))).eraseDups
  let strict (e : Nat × Nat) : Bool := bitN (getF s Fld.xptPfcStrictStrict e.1) e.2
  ((List.range 8).reverse.map (fun q => ks.filter (fun e => e.2 == q && strict e))).flatten ++ ks.filter (fun e => !strict e)

/-- Everything that waits and need not wait longer. -/
def egressDue (s : State) : State := (egressQueues s).foldl (fun s e => egressFlush s e.1 e.2) s

/-- A frame or packet of a priority reaches the egress of an external sub-port that is up: it leaves, waits while the priority is
paused, or is discarded in a storm. -/
def egressOut (s : State) (p q : Nat) (o : Out) : State :=
  if !portUp s p then s
  else egressFlush { s with xpt := { s.xpt with egress := s.xpt.egress ++ [(p, q, o)] } } p q

/-- The same for a frame. -/
def frameOut (s : State) (p q : Nat) (f : List Byte) : State := egressOut s p q (.frame p f)

/-! ### Forwarding (09 R245, R246) -/

/-- The key of a forwarding entry. -/
def fdbKey (vlan mac : Nat) : Nat := vlan * 2 ^ 48 + mac

/-- A forwarding entry. -/
def fdbOf (s : State) (key : Nat) : Option FdbEnt := Tab.lookup s.truss.fdb key

/-- Change the forwarding table. -/
def setFdb (s : State) (t : Tab FdbEnt) : State := { s with truss := { s.truss with fdb := t } }

/-- The vport that holds a static address, under VLAN 0. -/
def vportByKey (s : State) (key : Nat) : Option Nat := (vports s).find? (fun v => vportMac s v == key)

/-- The port that holds an address, and whether it is static. -/
def whereIs (s : State) (key : Nat) : Option (Nat × Bool) :=
  match vportByKey s key with
  | some v => some (v, true)
  | none => (fdbOf s key).map (fun e => (e.port, e.static))

/-- The ports a frame goes to; the source port never receives a copy (09 R245; for a known address DEDUCED, log 54). -/
def forwardTo (s : State) (src : Nat) (f : List Byte) : List Nat :=
  let flood := (s.truss.portsUp.filter (fun p => flagF s Fld.swPortCfgFlood p)) ++
    (vports s).filter (fun v => flagF s Fld.swVportCfgBcast v)
  let ps := if isGroup (dstMac f) then flood
    else
      match whereIs s (fdbKey (frameVlan f) (dstMac f)) with
      | some (p, _) => [p]
      | none => flood
  ps.filter (· != src)

/-! ### Learning (09 R273 to R276) -/

/-- The address as the switch's events carry it: MAC in bits 47:0, VLAN in 59:48 (10 Table 10.14). -/
def macArg (key : Nat) : Nat := key

/-- Ask for a learn against a sub-port. -/
def learnAsk (s : State) (ts port key : Nat) : State := { s with truss := { s.truss with learnQ := s.truss.learnQ ++ [(ts, port, key)] } }

/-- Whether one learn is taken before another: by timestamp, then by switch port (09 R273). -/
def learnBefore (a b : Nat × Nat × Nat) : Bool := decide (a.1 < b.1) || (a.1 == b.1 && decide (a.2.1 ≤ b.2.1))

/-- The learn to take next. -/
def learnNext : List (Nat × Nat × Nat) → Option (Nat × Nat × Nat)
  | [] => none
  | a :: t =>
    match learnNext t with
    | none => some a
    | some b => if learnBefore a b then some a else some b

/-- A learn of an absent address. Which bucket it falls in the spec does not say: once the table holds four entries, a free bit
says whether its bucket is full (09 R274). -/
def learnNew (s : State) (port key : Nat) : State :=
  let d := if 4 ≤ s.truss.fdb.length then drawBit s else (false, s)
  let s := d.2
  if d.1 then
    let s := bump s Fld.swLearnFullCnt 0
    let late := match s.truss.fullAt with
      | some t => decide (t + 1000000000 ≤ s.ftime)
      | none => true
    if late then
      raiseT { s with truss := { s.truss with fullAt := some s.ftime } } srcSwitch { code := 0x0403, arg0 := macArg key }
    else s
  else setFdb s (Tab.put s.truss.fdb key { port := port, static := false, flapping := false, moves := [], hitAt := s.ftime })

/-- A move (09 R275): the fifth within 1 ms pins the entry where it was before the first of the five. -/
def learnMove (s : State) (ts port key : Nat) (e : FdbEnt) : State :=
  let flap := match e.moves[3]? with
    | some (t, p) => if ts < t + 1000000 then some p else none
    | none => none
  match flap with
  | some p =>
    let s := setFdb s (Tab.put s.truss.fdb key { e with port := p, flapping := true, hitAt := s.ftime })
    raiseT (bump s Fld.swFlapCnt 0) srcSwitch { code := 0x0402, aux16 := p, arg0 := macArg key }
  | none =>
    let s := setFdb s (Tab.put s.truss.fdb key { e with port := port, moves := ((ts, e.port) :: e.moves).take 4, hitAt := s.ftime })
    raiseT (bump s Fld.swMoveCnt 0) srcSwitch { code := 0x0401, aux16 := port, arg0 := macArg key, arg1 := e.port }

/-- Take one learn (09 R274). -/
def learnApply (s : State) (ts port key : Nat) : State :=
  match vportByKey s key with
  | some _ => bump s Fld.swSpoofCnt 0
  | none =>
    match fdbOf s key with
    | none => learnNew s port key
    | some e =>
      if e.port = port then setFdb s (Tab.put s.truss.fdb key { e with hitAt := s.ftime })
      else if e.static then bump s Fld.swSpoofCnt 0
      else if e.flapping then bump s Fld.swFlapIgnoredCnt 0
      else learnMove s ts port key e

/-- LEARN: the learn pipeline takes the next learn (09 R273, R274). -/
def execLearn (s : State) : Host.Outcome State Fault Refusal :=
  .next
    (match learnNext s.truss.learnQ with
     | none => s
     | some (ts, port, key) =>
       learnApply { s with truss := { s.truss with learnQ := s.truss.learnQ.erase (ts, port, key) } } ts port key)

/-- ENTRY_AGEING (09 R276). -/
def execEntryAgeing (vlan mac : Nat) (s : State) : Host.Outcome State Fault Refusal :=
  .next
    (let age := getF s Fld.swCtlAgeS 0
     match fdbOf s (fdbKey vlan mac) with
     | none => s
     | some e =>
       if age = 0 ∨ e.static = true ∨ e.flapping = true then s
       else setFdb (reach s (e.hitAt + age * 1000000000)) (Tab.del s.truss.fdb (fdbKey vlan mac)))

/-! ### SW_FDB_CMD (09 R277, Table 9.11) -/

/-- Statuses of 09 Table 9.7. -/
def cmdOk : Nat := 0
def cmdBusy : Nat := 1
def cmdExists : Nat := 2
def cmdNotFound : Nat := 3
def cmdFull : Nat := 4
def cmdBadArg : Nat := 5
def cmdVersionBusy : Nat := 6

/-- A write that only a PF may make to the Truss and switch blocks (09 R265). -/
def trussWrite (s : State) (req : Requester) (k : State → State) : State :=
  gated s req (fun s => if Requester.isPf req then k s else bump s Fld.trussDeniedCnt 0)

/-- The key that an SW_FDB_CMD names. -/
def fdbArg (s : State) (vlan : Nat) : Nat := fdbKey vlan (getF s Fld.swFdbMacLo 0 + getF s Fld.swFdbMacHi 0 * 2 ^ 32)

/-- Show the end of an SW_FDB_CMD. -/
def fdbStat (s : State) (st : Nat) : State := setF (setF s Fld.swFdbStatStatus 0 st) Fld.swFdbStatBusy 0 0

/-- FDB_ADD_STATIC. -/
def execFdbAddStatic (req : Requester) (vlan : Nat) (s : State) : Host.Outcome State Fault Refusal :=
  .next
    (trussWrite s req (fun s =>
      let key := fdbArg s vlan
      let port := getF s Fld.swFdbPort 0
      let held := (vportByKey s key).isSome || (match fdbOf s key with | some e => e.static | none => false)
      if 0x27F < port then fdbStat s cmdBadArg
      else if held then fdbStat s cmdExists
      else
        fdbStat (setFdb s (Tab.put s.truss.fdb key { port := port, static := true, flapping := false, moves := [], hitAt := s.ftime })) cmdOk))

/-- FDB_DELETE. -/
def execFdbDelete (req : Requester) (vlan : Nat) (s : State) : Host.Outcome State Fault Refusal :=
  .next
    (trussWrite s req (fun s =>
      let key := fdbArg s vlan
      if (fdbOf s key).isNone then fdbStat s cmdNotFound else fdbStat (setFdb s (Tab.del s.truss.fdb key)) cmdOk))

/-- FDB_LOOKUP. -/
def execFdbLookup (req : Requester) (vlan : Nat) (s : State) : Host.Outcome State Fault Refusal :=
  .next
    (trussWrite s req (fun s =>
      let key := fdbArg s vlan
      let flap := match fdbOf s key with
        | some e => e.flapping
        | none => false
      match whereIs s key with
      | none => fdbStat s cmdNotFound
      | some (p, st) =>
        let s := setF (setF s Fld.swFdbStatPort 0 p) Fld.swFdbStatStatic 0 (if st then 1 else 0)
        fdbStat (setF s Fld.swFdbStatFlapping 0 (if flap then 1 else 0)) cmdOk))

/-- FDB_CLEAR_FLAP (09 R276). -/
def execFdbClearFlap (req : Requester) (vlan : Nat) (s : State) : Host.Outcome State Fault Refusal :=
  .next
    (trussWrite s req (fun s =>
      let key := fdbArg s vlan
      match fdbOf s key with
      | none => fdbStat s cmdNotFound
      | some e => fdbStat (setFdb s (Tab.put s.truss.fdb key { e with flapping := false, moves := [], hitAt := s.ftime })) cmdOk))

/-- FDB_FLUSH: the dynamic entries of SW_FDB_PORT. -/
def execFdbFlush (req : Requester) (s : State) : Host.Outcome State Fault Refusal :=
  .next
    (trussWrite s req (fun s =>
      let port := getF s Fld.swFdbPort 0
      fdbStat (setFdb s (s.truss.fdb.filter (fun e => e.2.static || e.2.port != port))) cmdOk))

/-! ### Sub-ports (02 R38, 08 R231, 09 R270, 10 Table 10.14) -/

/-- Whether a sub-port exists under its port's breakout (09 Tables 9.1, 9.11; DEDUCED, log 55: group k of 1, 2, 4 or 8). -/
def portExists (s : State) (p : Nat) : Bool := decide (p < 64 ∧ p % 8 < 2 ^ getF s Fld.swPortCfgBreakout (p / 8 * 8))

/-- Wake a domain that a port limits to Doze (02 R38). -/
def limitWake (s : State) (d : Nat) : State := if domState s d = 2 then latchWake s d 7 else s

/-- LINK_UP. -/
def execLinkUp (port : Nat) (s : State) : Host.Outcome State Fault Refusal :=
  .next
    (if portUp s port || !portExists s port then s
    else
      let s := { s with truss := { s.truss with portsUp := insertNat port s.truss.portsUp } }
      let s := raiseD s srcXpt { code := 0x0502, aux8 := port }
      let s := limitWake (limitWake (limitWake s 76) 64) (65 + getF s Fld.trussPortCfgPipe port)
      poolsSettle s)

/-- LINK_DOWN. Pause state of the sub-port ends with it (DEDUCED, log 56). -/
def execLinkDown (port : Nat) (s : State) : Host.Outcome State Fault Refusal :=
  .next
    (if !portUp s port then s
    else
      let s := { s with truss := { s.truss with portsUp := s.truss.portsUp.filter (· != port) } }
      let x := { s.xpt with pfc := Tab.keep (fun k => k / 8 != port) s.xpt.pfc, egress := s.xpt.egress.filter (fun e => e.1 != port) }
      let s := { s with xpt := x }
      poolsSettle (raiseD s srcXpt { code := 0x0501, aux8 := port }))

end Sys2Proof.Machine
end

