-- ==== Sys2Proof/Machine/NawynLink.lean ====
section
/-! DEFINITION. Nawyn links (11 R324 to R331, R340): flits, acknowledgement, replay and credits; training; and what a link that
goes down ends. -/

namespace Sys2Proof.Machine

/-! ### Flits (11 R327, R330) -/

/-- One bit of the reflected CRC of IEEE 802.3. -/
def crc32Bits (c : BitVec 32) : Nat → BitVec 32
  | 0 => c
  | n + 1 => crc32Bits (if c.getLsbD 0 then (c >>> 1) ^^^ 0xEDB88320 else c >>> 1) n

/-- The frame check sequence of IEEE 802.3 over bytes (11 R327). -/
def crc32 (bs : List Byte) : BitVec 32 :=
  ~~~(bs.foldl (fun c b => crc32Bits (c ^^^ b.setWidth 32) 8) 0xFFFFFFFF)

/-- A flit header's fields (11 Table 11.3). -/
structure FlitHead where
  ftype : Nat
  tc : Nat := 0
  som : Bool := false
  eom : Bool := false
  seq : Nat := 0
  ack : Nat := 0
  ackValid : Bool := false
  crTc : Nat := 0
  crCount : Nat := 0
deriving DecidableEq, Repr

/-- A flag as a number. -/
def bit1 (b : Bool) : Nat := if b then 1 else 0

/-- The 48 bits of a flit header (11 Table 11.3). -/
def FlitHead.num (h : FlitHead) : Nat :=
  h.ftype + h.tc * 2 ^ 4 + bit1 h.som * 2 ^ 7 + bit1 h.eom * 2 ^ 8 + h.seq * 2 ^ 9 + h.ack * 2 ^ 19 + bit1 h.ackValid * 2 ^ 29 +
  h.crTc * 2 ^ 30 + h.crCount * 2 ^ 33

/-- A flit's 256 bytes (11 Table 11.2). -/
def flitBytes (h : FlitHead) (payload : List Byte) : List Byte :=
  let body := leBytes 6 h.num ++ payload ++ List.replicate (236 - payload.length) 0
  let covered := body ++ leBytes 4 (crc32 body).toNat
  covered ++ leBytes 10 (Config.rsParity covered).toNat

/-- The class whose credit count the next flit carries: the next one whose count has changed (11 R330). -/
def nextCrTc (x : Link) : Nat :=
  (((List.range 8).map (fun i => (x.crTc + 1 + i) % 8)).find? (fun c => Tab.get 0 x.crRet c != Tab.get 0 x.crSent c)).getD x.crTc

/-- Send a flit; its acknowledgement and credit fields are filled in anew (11 R330). -/
def emitFlit (s : State) (l ftype tc : Nat) (som eom : Bool) (seq : Nat) (payload : List Byte) : State :=
  let x := linkOf s l
  let c := nextCrTc x
  let n := Tab.get 0 x.crRet c
  let h : FlitHead := { ftype := ftype, tc := tc, som := som, eom := eom, seq := seq, ack := (x.rxSeq + 1023) % 1024, ackValid := x.rxAny, crTc := c, crCount := n }
  let s := setLink s l { x with crTc := c, crSent := Tab.store 0 x.crSent c n }
  emit (bump s Fld.nawynFlitTxCnt l) (.flit l (flitBytes h payload))

/-- An IDLE flit. One stands for the stream of them that carries acknowledgements and credits back (DESIGN CHOICE, log 79). -/
def idleFlit (s : State) (l : Nat) : State := emitFlit s l 0 0 false false 0 []

/-- A TIME flit's payload (11 R342). -/
def timePayload (s : State) (l : Nat) : List Byte :=
  let x := linkOf s l
  let c := x.active
  leBytes 8 s.ftime ++ leBytes 8 x.lastRx ++ leBytes 8 x.lastTx ++ leBytes 8 (c.elim 0 (fun c => c.id)) ++
  leBytes 8 (c.elim 0 (fun c => c.armAt))

/-- Send a TIME flit. -/
def timeFlitOut (s : State) (l : Nat) : State := emitFlit s l 3 0 false false 0 (timePayload s l)

/-! ### Sending the flits of started messages (11 R329 to R331) -/

/-- The first started message with bytes left to send, and its place. -/
def sendingAt (x : Link) : Option (Nat × NMsg × List Byte) :=
  match x.started.findIdx? (fun e => !e.2.isEmpty) with
  | some i => (x.started[i]?).map (fun e => (i, e.1, e.2))
  | none => none

/-- Send the next flit that the replay buffer and the class's credits allow. -/
def pumpOnce (s : State) (l : Nat) : Option State :=
  let x := linkOf s l
  match sendingAt x with
  | none => none
  | some (i, m, rest) =>
    let cr := Tab.get 0 x.credits m.tc
    if cr = 0 ∨ 511 ≤ x.replay.length then none
    else
      let som := decide (rest.length = 24 + leAt m.hdr 8 4)
      let eom := decide (rest.length ≤ 236)
      let f : Flit := { seq := x.txSeq, tc := m.tc, som := som, eom := eom, payload := rest.take 236 }
      let since := if x.replay.isEmpty then s.ftime else x.replayFrom
      let s := setLink s l { x with credits := Tab.store 0 x.credits m.tc (cr - 1), replay := x.replay ++ [f], txSeq := (x.txSeq + 1) % 1024, started := x.started.set i (m, rest.drop 236), replayFrom := since }
      some (emitFlit s l 1 m.tc som eom f.seq f.payload)

/-- Send what may go, up to a number of flits. -/
def pumpMany (l : Nat) : Nat → State → State
  | 0, s => s
  | n + 1, s =>
    match pumpOnce s l with
    | some t => pumpMany l n t
    | none => s

/-- Send what may go on an up link. The replay buffer bounds it. -/
def pumpLink (s : State) (l : Nat) : State := if getF s Fld.nawynLinkStatState l = 5 then pumpMany l 512 s else s

/-- Send replay-buffer entries again. -/
def resendFlits (s : State) (l : Nat) (fs : List Flit) : State :=
  fs.foldl (fun s f => emitFlit s l 1 f.tc f.som f.eom f.seq f.payload) s

/-- Replay from a seq, or retrain where replay_limit replays in a row have not advanced the acknowledgement (11 R326, R329). -/
def replayFrom (s : State) (l : Nat) (fs : List Flit) : State :=
  let x := linkOf s l
  if fs.isEmpty then s
  else if getF s Fld.nawynRetryReplayLimit 0 ≤ x.replays then
    setF (setLink s l { x with replays := 0 }) Fld.nawynLinkStatState l 6
  else
    let s := setLink s l { x with replays := x.replays + 1, replayFrom := s.ftime }
    resendFlits (bump s Fld.nawynReplayCnt l) l fs

/-! ### What a message's end does to its sender -/

/-- End an operation of a message that can never arrive. A Loft query is ended without an answer (12 R382). -/
def opGone (s : State) (n status : Nat) : State :=
  match opOf s n with
  | none => s
  | some o =>
    match o.src with
    | .loft node tag => finishOp (loftLost s node tag) n status 0 0
    | _ => finishOp (if status = 0x73 then bump s Fld.nawynLinkLostCnt 0 else s) n status 0 0

/-- A read of the Underlay's copy has failed: the cut will be abandoned once its reads have ended (13 R396). -/
def copyFail (s : State) (ext group : Nat) : State :=
  match s.ul.copy with
  | none => s
  | some c =>
    let dl := s.ftime + getF s Fld.nawynCtlReadTimeoutUs 0 * 1000
    { s with ul := { s.ul with copy := some { c with abandon := some (c.abandon.getD (0x96, ext, group, dl)) } } }

/-- Forget a read. -/
def dropRead (s : State) (tag : Nat) : State := { s with nawyn := { s.nawyn with reads := Tab.del s.nawyn.reads tag } }

/-- A READ_REQ of the copy will not be answered. -/
def copyReadGone (s : State) (m : NMsg) (ext group : Nat) : State :=
  let tag := leAt m.hdr 12 4
  let s := dropRead s tag
  let s := match s.ul.copy with
    | some c => { s with ul := { s.ul with copy := some { c with reads := c.reads.filter (fun e => e.1 != tag) } } }
    | none => s
  copyFail s ext group

/-- Drop a routed message: UNDELIVERED to its source, in its class (11 R335). -/
def undeliver (s : State) (tc : Nat) (hdr : List Byte) (reason : Nat) : State :=
  let s := bump s Fld.nawynUndelivCnt 0
  if leAt hdr 4 1 = 4 then s else sendOwn s (leAt hdr 2 2 % 4096) tc 4 reason (leAt hdr 12 4) 0 hdr

/-- A message waiting to start that has no route (0x70), or fits no window (0x72; 11 R334, R338, R349; for a thread DEDUCED, log
73). -/
def dropWaiting (s : State) (m : NMsg) (status : Nat) : State :=
  match m.src with
  | .op n => opGone s n status
  | .thread t a =>
    let isRead := decide (leAt m.hdr 4 1 = 2)
    if status = 0x72 then
      let s := undeliver s m.tc m.hdr 1
      if isRead then s else postedFail s t a 4
    else if isRead then answerThread (dropRead s (leAt m.hdr 12 4)) t a (.failed 4)
    else postedFail s t a 4
  | .copy g => copyReadGone s m status g
  | .restore n => finishOp s n status 0 0
  | .loftResult node tag => loftLost s node tag
  | .own => undeliver s m.tc m.hdr 1

/-- A message sent in part, or sent and not acknowledged, whose link is lost (11 R340). A READ_REQ of an operation or a thread
waits for its timeout. -/
def lostMsg (s : State) (m : NMsg) : State :=
  let isRead := decide (leAt m.hdr 4 1 = 2)
  match m.src with
  | .op n => if isRead then s else opGone s n 0x73
  | .thread t a => if isRead then s else postedFail s t a 4
  | .copy g => copyReadGone s m 0x73 g
  | .restore n => opGone s n 0x73
  | .loftResult node tag => loftLost s node tag
  | .own => s

/-- The link has acknowledged a message's last flit: where that is its operation's commit point, it completes (08 Table 8.13). -/
def commitMsg (s : State) (m : NMsg) : State :=
  match m.src with
  | .op n =>
    match opOf s n with
    | none => s
    | some o =>
      if leAt m.hdr 4 1 = 2 then s
      else finishOk s n (if o.opcode = 0x0400 ∨ o.opcode = 0x0401 then leAt o.body 0x10 4 else 0)
  | .thread t a => if leAt m.hdr 4 1 = 2 then s else postedDone s t a
  | .restore n =>
    match Tab.lookup s.ul.restores n with
    | some r => { s with ul := { s.ul with restores := Tab.put s.ul.restores n { r with acked := r.acked + 1 } } }
    | none => s
  | _ => s

/-! ### Acknowledgements and credits (11 R328 to R330) -/

/-- Entries of the replay buffer that an ack covers: comparison modulo 1,024 with a window of 512. -/
def ackedFlits (x : Link) (fa : FlitAck) : List Flit :=
  if fa.ackValid then x.replay.takeWhile (fun f => decide ((fa.ack + 1024 - f.seq) % 1024 < 512)) else []

/-- The acknowledgement and credit fields of a flit that passed take effect. -/
def ackEffects (s : State) (l : Nat) (fa : FlitAck) : State :=
  let x := linkOf s l
  let done := ackedFlits x fa
  let k := (done.filter (fun f => f.eom)).length
  let c := fa.crTc
  let gain := (fa.crCount + 256 - Tab.get 0 x.crSeen c) % 256
  let x' := { x with credits := Tab.store 0 x.credits c (Tab.get 0 x.credits c + gain), crSeen := Tab.store 0 x.crSeen c fa.crCount, replay := x.replay.drop done.length, started := x.started.drop k }
  let x' := if done.isEmpty then x' else { x' with replays := 0, replayFrom := s.ftime }
  pumpLink ((x.started.take k).foldl (fun s e => commitMsg s e.1) (setLink s l x')) l

/-- Send the one NAK that a discarded flit draws (11 R329). -/
def nakOnce (s : State) (l : Nat) : State :=
  let x := linkOf s l
  if x.nakSent then s
  else emitFlit (setLink s l { x with nakSent := true }) l 2 0 false false 0 (leBytes 2 x.rxSeq)

/-- LINK_ACK_RECEIVED: a flit that carries only acknowledgement and credits. -/
def execLinkAckReceived (link : Nat) (h : FlitAck) (s : State) : Host.Outcome State Fault Refusal :=
  .next (if getF s Fld.nawynLinkStatState link = 5 then ackEffects (bump s Fld.nawynFlitRxCnt link) link h else s)

/-- NAK_FLIT: replay from its seq. -/
def execNakFlit (link : Nat) (h : FlitAck) (seq : Nat) (s : State) : Host.Outcome State Fault Refusal :=
  .next
    (if getF s Fld.nawynLinkStatState link = 5 then
      let s := ackEffects (bump s Fld.nawynFlitRxCnt link) link h
      replayFrom s link ((linkOf s link).replay.dropWhile (fun f => f.seq != seq))
    else s)

/-- REPLAY_TIMEOUT: replay from the oldest unacknowledged flit. -/
def execReplayTimeout (link : Nat) (s : State) : Host.Outcome State Fault Refusal :=
  .next
    (let x := linkOf s link
     if getF s Fld.nawynLinkStatState link = 5 ∧ x.replay ≠ [] then
       replayFrom (reach s (x.replayFrom + getF s Fld.nawynRetryReplayNs 0)) link x.replay
     else s)

/-- BAD_FLIT: a flit that fails FEC (`how` 0), CRC or ftype (1), or a DATA flit out of order (2) with its seq. -/
def execBadFlit (link how seq : Nat) (s : State) : Host.Outcome State Fault Refusal :=
  .next
    (if getF s Fld.nawynLinkStatState link ≠ 5 then s
    else
      let s := bump s Fld.nawynFlitRxCnt link
      if how ≤ 1 then nakOnce (bump s Fld.nawynFlitBadCnt link) link
      else
        let ahead := (seq + 1024 - (linkOf s link).rxSeq) % 1024
        if 0 < ahead ∧ ahead < 512 then nakOnce s link else s)

/-! ### A link that goes down (11 R326, R340) -/

/-- The node a message goes to. -/
def NMsg.dst (m : NMsg) : Nat := leAt m.hdr 0 2 % 4096

/-- Where a waiting message of a link that has gone down goes: another link, or a status that ends it. -/
def reroute (s : State) (m : NMsg) : Except Nat NMsg :=
  if !m.routed then .error 0x70
  else
    match routeFor s m.dst with
    | none => .error 0x70
    | some l => if l < 16 && !fitsCourse s l m.tc m.flits then .error 0x72 else .ok { m with link := l }

/-- Move a link's waiting messages to another route, and end those with none (11 R340). -/
def rerouteAll (s : State) (l : Nat) : State :=
  let w := s.nawyn.waiting
  let keep := w.filterMap (fun m => if m.link = l then (match reroute s m with | .ok m => some m | .error _ => none) else some m)
  let gone := w.filterMap (fun m => if m.link = l then (match reroute s m with | .ok _ => none | .error e => some (m, e)) else none)
  let s := { s with nawyn := { s.nawyn with waiting := keep } }
  gone.foldl (fun s g =>
    let s := if g.2 = 0x72 then bump s Fld.nawynOversizeCnt 0 else s
    if g.1.routed then dropWaiting s g.1 g.2 else s) s

/-- What a link keeps when it goes down: its schedules and what measures them. -/
def Link.keepDown (x : Link) : Link :=
  { pending := x.pending, active := x.active, wrr := x.wrr, measured := x.measured, ended := x.ended, lateAt := x.lateAt }

/-- Take a link down, to a state. -/
def linkDown (s : State) (l final : Nat) : State :=
  let was := linkUp s l
  let x := linkOf s l
  let s := setF (setLink s l x.keepDown) Fld.nawynLinkStatState l final
  if !was then s
  else
    let before := getF s Fld.nawynLinkLostCnt 0
    let s := x.started.foldl (fun s e => lostMsg s e.1) s
    let s := rerouteAll s l
    let n := (getF s Fld.nawynLinkLostCnt 0 + 2 ^ 64 - before) % 2 ^ 64
    let s := raiseD s (srcNawyn l) { code := 0x0602, aux8 := l, aux16 := (getReg s .nawynLinkStat l).toNat % 65536, arg0 := n }
    poolsSettle (holdover s l)

/-! ### Training (11 R325, R326, Table 11.1) -/

/-- Whether a link may train. -/
def mayTrain (s : State) (l : Nat) : Bool := flagF s Fld.nawynLinkCfgEnable l && decide (domState s 75 ≠ 3)

/-- The widest width a link may have with the lanes that pass (11 R324, R325). -/
def widthOf (maxWidth : Nat) (lanes : BitVec 4) : Option Nat :=
  if maxWidth = 2 ∧ lanes = 15 then some 2
  else if 1 ≤ maxWidth ∧ (lanes &&& 3 = 3 ∨ lanes &&& 12 = 12) then some 1
  else if lanes ≠ 0 then some 0
  else none

/-- A failed step: training starts again from step 1. -/
def trainFail (s : State) (l : Nat) : State := setF (bump s Fld.nawynRetrainCnt l) Fld.nawynLinkStatState l 1

/-- A write to the Nawyn block: a PF's only (11 R345). -/
def nawynWrite (s : State) (req : Requester) (k : State → State) : State :=
  gated s req (fun s => if Requester.isPf req then k s else bump s Fld.nawynDeniedCnt 0)

/-- A write of NAWYN_LINK_CFG (11 R325, R326, R345; 00 R13 for max_width 3; course_active follows course_en, DEDUCED, log 77). -/
def linkCfgWrite (s : State) (req : Requester) (l : Nat) (v : Word) : State :=
  nawynWrite s req (fun s =>
    let n := v.toNat
    let s := setF s Fld.nawynLinkCfgEnable l (n % 2)
    let s := if fieldOf n 2 1 = 3 then s else setF s Fld.nawynLinkCfgMaxWidth l (fieldOf n 2 1)
    let s := setF s Fld.nawynLinkCfgHalfRate l (fieldOf n 3 3)
    let s := setF s Fld.nawynLinkCfgCourseEn l (fieldOf n 4 4)
    let s := if (linkOf s l).active.isSome then setF s Fld.nawynLinkStatCourseActive l (fieldOf n 4 4) else s
    if n % 2 = 0 then linkDown s l 0
    else if getF s Fld.nawynLinkStatState l = 0 ∧ mayTrain s l = true then setF s Fld.nawynLinkStatState l 1
    else s)

/-- NAWYN_LINK_ENABLE. -/
def execNawynLinkEnable (req : Requester) (link : Nat) (v : Word) (s : State) : Host.Outcome State Fault Refusal :=
  .next (linkCfgWrite s req link v)

/-- NAWYN_LINK_DISABLE. -/
def execNawynLinkDisable (req : Requester) (link : Nat) (v : Word) (s : State) : Host.Outcome State Fault Refusal :=
  .next (linkCfgWrite s req link v)

/-- NAWYN_DETECT_RETRY: an enabled link looks for a peer again. -/
def execNawynDetectRetry (link : Nat) (s : State) : Host.Outcome State Fault Refusal :=
  .next (if mayTrain s link && decide (getF s Fld.nawynLinkStatState link ≤ 1) then setF s Fld.nawynLinkStatState link 1 else s)

/-- NAWYN_PEER_DETECTED: step 3 begins. -/
def execNawynPeerDetected (link : Nat) (s : State) : Host.Outcome State Fault Refusal :=
  .next (if mayTrain s link && decide (getF s Fld.nawynLinkStatState link = 1) then setF s Fld.nawynLinkStatState link 2 else s)

/-- NAWYN_ALIGN_DONE: step 4; the width is chosen, or training starts again. -/
def execNawynAlignDone (link : Nat) (lanes : BitVec 4) (s : State) : Host.Outcome State Fault Refusal :=
  .next
    (if getF s Fld.nawynLinkStatState link ≠ 2 then s
    else
      match widthOf (getF s Fld.nawynLinkCfgMaxWidth link) lanes with
      | none => trainFail s link
      | some w => setF (setF s Fld.nawynLinkStatWidth link w) Fld.nawynLinkStatState link 3)

/-- End the waiting messages of a link that no longer fit anywhere (11 R349). -/
def sweepOversize (s : State) (l : Nat) : State :=
  let bad (m : NMsg) : Bool := m.link == l && !fitsCourse s l m.tc m.flits
  let gone := s.nawyn.waiting.filter bad
  let s := { s with nawyn := { s.nawyn with waiting := s.nawyn.waiting.filter (fun m => !bad m) } }
  gone.foldl (fun s m => dropWaiting (bump s Fld.nawynOversizeCnt 0) m 0x72) s

/-- Whether an advertisement gives each class 1 to 4,095 flits (11 R330). -/
def creditsOk (cr : List Nat) : Bool := cr.length == 8 && cr.all (fun c => decide (1 ≤ c ∧ c ≤ 4095))

/-- The link is up (11 Table 11.1 step 6). -/
def linkIsUp (s : State) (l peer : Nat) : State :=
  let s := setF s Fld.nawynLinkStatState l 5
  let s := raiseD s (srcNawyn l) { code := 0x0601, aux8 := l, aux16 := (getReg s .nawynLinkStat l).toNat % 65536, arg0 := peer }
  poolsSettle (limitWake (timeFlitOut s l) 75)

/-- NAWYN_EXCHANGE: steps 5 and 6; the link is up, or training starts again. -/
def execNawynExchange (link peer : Nat) (peerHalf : Bool) (credits : List Nat) (_schedId : Word) (_armAt : Dword) (ok : Bool) (s : State) :
    Host.Outcome State Fault Refusal :=
  .next
    (if getF s Fld.nawynLinkStatState link ≠ 3 then s
    else if !ok || !creditsOk credits then trainFail s link
    else
      let x := linkOf s link
      let s := setLink s link { x.keepDown with credits := (List.range 8).map (fun c => (c, credits.getD c 0)), fails := x.fails }
      let s := setF s Fld.nawynLinkStatHalfRate link (bit1 (flagF s Fld.nawynLinkCfgHalfRate link || peerHalf))
      let s := setF s Fld.nawynLinkStatPeerNode link peer
      let clash := decide (peer = nodeId s)
      let s := setF s Fld.nawynLinkStatIdClash link (bit1 clash)
      let s := if clash then raiseD s (srcNawyn link) { code := 0x060A, aux8 := link, arg0 := peer } else s
      sweepOversize (linkIsUp s link peer) link)

/-- LANE_LOCK_LOSS: an up link retrains. -/
def execLaneLockLoss (link : Nat) (s : State) : Host.Outcome State Fault Refusal :=
  .next (if getF s Fld.nawynLinkStatState link = 5 then setF s Fld.nawynLinkStatState link 6 else s)

/-- A failed retraining: the third within 100 ms takes the link down, and it starts again from step 1 (11 R326). -/
def retrainFail (s : State) (l : Nat) : State :=
  let x := linkOf s l
  let f := s.ftime :: x.fails.filter (fun t => decide (s.ftime ≤ t + 100000000))
  let s := bump (setLink s l { x with fails := f }) Fld.nawynRetrainCnt l
  if 3 ≤ f.length then
    let s := linkDown s l 0
    if mayTrain s l then setF s Fld.nawynLinkStatState l 1 else s
  else s

/-- NAWYN_RETRAIN_DONE: the link is up again, perhaps narrower, or the retraining failed. -/
def execNawynRetrainDone (link : Nat) (lanes : BitVec 4) (ok : Bool) (s : State) : Host.Outcome State Fault Refusal :=
  .next
    (if getF s Fld.nawynLinkStatState link ≠ 6 then s
    else
      match (if ok then widthOf (getF s Fld.nawynLinkCfgMaxWidth link) lanes else none) with
      | none => retrainFail s link
      | some w =>
        let s := setF (setF s Fld.nawynLinkStatWidth link w) Fld.nawynLinkStatState link 5
        let s := setLink s link { linkOf s link with replayFrom := s.ftime, replays := 0 }
        pumpLink (sweepOversize (poolsSettle s) link) link)

end Sys2Proof.Machine
end

