-- ==== Sys2Proof/Machine/Time.lean ====
section
/-! DEFINITION. Fabric time (11 R341, R343): what passes when no command waits. -/

namespace Sys2Proof.Machine

/-- The Nawyn domain (02 Table 2.1). -/
def nawynDom : Nat := 75

/-- NAWYN_TIME_FREQ as a signed number of parts per billion (11 R343). -/
def freqPpb (s : State) : Int := (BitVec.ofNat 32 (getF s Fld.nawynTimeFreq 0)).toInt

/-- What one nanosecond of the oscillator adds to fabric time, in 10⁻⁹ ns, and the correction it works off (11 R343): the
frequency correction, then up to 500 ppm of slew, or half rate while local time is 1,000 ns or more ahead. -/
def tickGain (s : State) : Nat × Int :=
  let base : Int := 1000000000 + freqPpb s
  let c := s.nawyn.corr
  if c ≤ -1000000000000 then ((base / 2).toNat, c + (base - base / 2))
  else
    let slew : Int := Max.max (-500000) (Min.min 500000 c)
    ((base + slew).toNat, c - slew)

/-- A tick of 1 ns of the Nawyn reference clock, or of 20 ns of the Ridge clock while the Nawyn domain is Off (11 R341). -/
def tick (s : State) : State :=
  if domState s nawynDom = 3 then { s with ftime := s.ftime + 20 }
  else
    let g := tickGain s
    let f := s.nawyn.frac + g.1
    { s with ftime := s.ftime + f / 1000000000, nawyn := { s.nawyn with frac := f % 1000000000, corr := g.2 } }

/-- What the block does when no command waits: time passes (11 R341) and a frame whose time has come leaves (09 R279). -/
def idle (s : State) : State := egressDue (tick s)

end Sys2Proof.Machine
end

