-- ==== Sys2Proof/Machine/NawynTime.lean ====
section
/-! DEFINITION. Fabric time over Nawyn links and PTP timestamps (11 R341 to R344), and course schedules: arming, windows, the start of
a message, lateness (11 R345 to R352, 15 R440). -/

namespace Sys2Proof.Machine

/-! ### Corrections (11 R343) -/

/-- The trace source of a time event: the group of the up link. -/
def srcTime (s : State) : Option Nat := srcNawyn (getF s Fld.nawynTimeCtlUpLink 0)

/-- A number of ns as the 64 bits of a signed field. -/
def signed64 (n : Int) : Nat := (BitVec.ofInt 64 n).toNat

/-- Step fabric time forward by a number of ns, and say so. -/
def timeStep (s : State) (n : Nat) : State :=
  let s := { s with ftime := s.ftime + n }
  bump (raiseD s (srcTime s) { code := 0x0606, arg0 := signed64 n }) Fld.nawynTimeStepCnt 0

/-- Apply a correction in 10⁻⁹ ns: step where local time is 1,000 ns or more behind, else work it off as time passes. An offset that
was measured takes the place of what is left of the last one; a written one adds to it (DEDUCED, log 78). -/
def applyCorr (s : State) (off : Int) (measured : Bool) : State :=
  let left := if measured then 0 else s.nawyn.corr
  if 1000000000000 ≤ off then
    let t := off + s.nawyn.frac
    timeStep { s with nawyn := { s.nawyn with corr := left, frac := (t % 1000000000).toNat } } (t / 1000000000).toNat
  else { s with nawyn := { s.nawyn with corr := left + off } }

/-- TIME_OFS_WRITE. -/
def execTimeOfsWrite (req : Requester) (v : Dword) (s : State) : Host.Outcome State Fault Refusal :=
  .next (nawynWrite s req (fun s => applyCorr s (v.toInt * 1000000000) false))

/-! ### TIME flits (11 R342, R346) -/

/-- A follower takes an offset: it is shown, corrected, and counted towards lock. -/
def takeOffset (s : State) (off2 : Int) : State :=
  let mag := off2.natAbs / 2
  let s := setF s Fld.nawynTimeStatOffsetMag 0 (Nat.min mag 0xFFFF)
  let good := if off2.natAbs < 16 then s.nawyn.good + 1 else 0
  let s := applyCorr { s with nawyn := { s.nawyn with good := Nat.min good 100 } } (off2 * 500000000) true
  let st := getF s Fld.nawynTimeStatState 0
  if 100 ≤ good ∧ st ≠ 2 then
    let s := setF s Fld.nawynTimeStatState 0 2
    if st = 3 then raiseD s (srcTime s) { code := 0x0607, aux8 := 1 } else s
  else if st = 0 then setF s Fld.nawynTimeStatState 0 1
  else s

/-- Delay and offset from a TIME flit that echoes one of the device's own (11 R342). -/
def timeMeasure (s : State) (l : Nat) (tTx tRxPrev tTxPrev : Nat) : State :=
  if tTxPrev = 0 then s
  else
    let d2 : Int := ((s.ftime : Int) - tTxPrev) - ((tTx : Int) - tRxPrev)
    let s := setF s Fld.nawynLinkDelay l (Nat.min (d2 / 2).toNat 0xFFFF)
    if follower s && getF s Fld.nawynTimeCtlUpLink 0 == l then takeOffset s (2 * (tTx : Int) + d2 - 2 * (s.ftime : Int)) else s

/-- Raise COURSE_MISMATCH. -/
def mismatchEvent (s : State) (l own peer : Nat) (ended : Bool) : State :=
  raiseD s (srcNawyn l) { code := 0x0604, aux8 := l, aux16 := bit1 ended, arg0 := own + peer * 2 ^ 32 }

/-- Compare the peer's active schedule with the device's own (11 R346). -/
def courseCompare (s : State) (l : Nat) (schedId armAt : Nat) : State :=
  let x := linkOf s l
  match x.active with
  | none => s
  | some c =>
    let was := flagF s Fld.nawynLinkStatMismatch l
    if schedId = c.id ∧ armAt = c.armAt then
      let s := setLink s l { x with differs := 0 }
      if was then mismatchEvent (setF s Fld.nawynLinkStatMismatch l 0) l c.id schedId true else s
    else
      let n := Nat.min (x.differs + 1) 2
      let s := setLink s l { x with differs := n }
      if n = 2 ∧ was = false then mismatchEvent (setF s Fld.nawynLinkStatMismatch l 1) l c.id schedId false else s

/-- TIME_FLIT. -/
def execTimeFlit (link : Nat) (h : FlitAck) (tTx tRxPrev tTxPrev : Dword) (schedId : Word) (armAt : Dword) (s : State) :
    Host.Outcome State Fault Refusal :=
  .next
    (if getF s Fld.nawynLinkStatState link ≠ 5 then s
    else
      let s := ackEffects (bump s Fld.nawynFlitRxCnt link) link h
      let s := setLink s link { linkOf s link with lastTx := tTx.toNat, lastRx := s.ftime }
      courseCompare (timeMeasure s link tTx.toNat tRxPrev.toNat tTxPrev.toNat) link schedId.toNat armAt.toNat)

/-- TIME_FLIT_TICK. -/
def execTimeFlitTick (link : Nat) (s : State) : Host.Outcome State Fault Refusal :=
  .next (if getF s Fld.nawynLinkStatState link = 5 then timeFlitOut s link else s)

/-! ### PTP timestamps (11 R344) -/

/-- NAWYN_PTP_INFO of an entry. -/
def ptpInfo (port : Nat) (tx : Bool) (msgType seqId : Nat) : Nat :=
  1 + bit1 tx * 2 + port % 64 * 4 + msgType % 16 * 256 + seqId % 65536 * 65536

/-- PTP_TIMESTAMP. -/
def execPtpTimestamp (port : Nat) (tx : Bool) (msgType seqId : Nat) (s : State) : Host.Outcome State Fault Refusal :=
  .next
    (if !bitN (getReg s .nawynPtpEn 0).toNat port then s
    else if 256 ≤ s.nawyn.ptp.length then bump s Fld.nawynPtpOvfCnt 0
    else { s with nawyn := { s.nawyn with ptp := s.nawyn.ptp ++ [(ptpInfo port tx msgType seqId, s.ftime)] } })

/-- Pop the head of the PTP FIFO: its time, 0 where it is empty (DESIGN CHOICE, log 80). -/
def ptpPop (s : State) : Dword × State :=
  match s.nawyn.ptp with
  | [] => (0, s)
  | e :: es => (BitVec.ofNat 64 e.2, { s with nawyn := { s.nawyn with ptp := es } })

/-- PTP_TIME_READ. -/
def execPtpTimeRead (req : Requester) (s : State) : Host.Outcome State Fault Refusal := .next (gatedRead s req ptpPop)

/-- LATE_MAX_READ: the largest lateness since the last read, which clears it. -/
def execLateMaxRead (req : Requester) (link : Nat) (s : State) : Host.Outcome State Fault Refusal :=
  .next (gatedRead s req (fun s => (BitVec.ofNat 64 (getF s Fld.nawynLateMax link), setF s Fld.nawynLateMax link 0)))

/-! ### Arming a schedule (11 R345) -/

/-- A staged window: start, end, class. -/
def stagedWin (s : State) (l w : Nat) : Nat × Nat × Nat :=
  let i := 64 * l + w
  (getF s Fld.nawynCrsWinStartNs i, getF s Fld.nawynCrsWinEndNs i, getF s Fld.nawynCrsWinClass i)

/-- The schedule that a link's staging registers hold. -/
def stagedCourse (s : State) (l : Nat) : Course :=
  { id := getF s Fld.nawynCrsId l, armAt := getF s Fld.nawynCrsArmAt l, cycle := getF s Fld.nawynCrsCycleCycleNs l, wins := (List.range (getF s Fld.nawynCrsCycleWindowCount l)).map (stagedWin s l) }

/-- Whether each window ends before the next starts. -/
def winsOrdered : List (Nat × Nat × Nat) → Bool
  | [] => true
  | [_] => true
  | a :: b :: ws => decide (a.2.1 ≤ b.1) && winsOrdered (b :: ws)

/-- Whether a schedule is good. -/
def courseOk (c : Course) : Bool :=
  decide (1000 ≤ c.cycle ∧ c.cycle ≤ 1000000) && winsOrdered c.wins &&
  c.wins.all (fun w => decide (w.2.1 ≤ c.cycle ∧ w.1 + 8 ≤ w.2.1))

/-- COURSE_ARM. -/
def execCourseArm (req : Requester) (link : Nat) (s : State) : Host.Outcome State Fault Refusal :=
  .next
    (nawynWrite s req (fun s =>
      let c := stagedCourse s link
      if !courseOk c then setF s Fld.nawynCrsStat link 2
      else if c.armAt < s.ftime + 10000 then setF s Fld.nawynCrsStat link 3
      else setF (setLink s link { linkOf s link with pending := some c }) Fld.nawynCrsStat link 1))

/-- Clear a link's lateness rows and write the new schedule's ID into them (15 R440). -/
def clearLate (s : State) (l id : Nat) : State :=
  let t := s.gut.late.filter (fun e => e.1 / 1280 != l)
  let t := (List.range 64).foldl (fun t w => rowSet t (64 * l + w) 19 id) t
  { s with gut := { s.gut with late := t } }

/-- A schedule with windows becomes active. -/
def courseStart (s : State) (l : Nat) (c : Course) : State :=
  let old := Tab.get 0 s.gut.late (20 * (64 * l) + 19)
  let s := if old = c.id then s else clearLate s l c.id
  let s := setLink s l { linkOf s l with active := some c, differs := 0, measured := [], ended := [] }
  let s := setF s Fld.nawynLinkStatCourseActive l (getF s Fld.nawynLinkCfgCourseEn l)
  let s := setF (setF s Fld.nawynLinkStatMismatch l 0) Fld.nawynCrsActiveId l c.id
  raiseD s (srcNawyn l) { code := 0x0603, aux8 := l, arg0 := c.id, arg1 := c.armAt % 2 ^ 56 }

/-- The schedule is removed (11 R345). -/
def courseEnd (s : State) (l : Nat) : State :=
  let s := setLink s l { linkOf s l with active := none, differs := 0, measured := [], ended := [] }
  setF (setF (setF s Fld.nawynLinkStatCourseActive l 0) Fld.nawynLinkStatMismatch l 0) Fld.nawynCrsActiveId l 0

/-- COURSE_ACTIVATION. -/
def execCourseActivation (link : Nat) (s : State) : Host.Outcome State Fault Refusal :=
  .next
    (match (linkOf s link).pending with
     | none => s
     | some c =>
       let s := setF (setLink (reach s c.armAt) link { linkOf s link with pending := none }) Fld.nawynCrsStat link 0
       if c.wins.isEmpty then courseEnd s link else courseStart s link c)

/-! ### Windows (11 R347, R348) -/

/-- The window of a schedule that a cycle position belongs to: number and end. -/
def windowAt (c : Course) (p : Nat) : Option (Nat × Nat × Nat) :=
  match c.wins.findIdx? (fun w => decide (w.1 ≤ p ∧ p < w.2.1)) with
  | some i => (c.wins[i]?).map (fun w => (i, w.2.1, w.2.2))
  | none => none

/-- The end of the open time that a position lies in, as a position that may pass the cycle's end. -/
def openEnd (c : Course) (p : Nat) : Nat :=
  match (c.wins.map (fun w => w.1)).find? (fun a => decide (p < a)) with
  | some a => a
  | none => c.cycle + ((c.wins.head?).elim 0 (fun w => w.1))

/-- Where a class stands now on a link: none where it may not start; otherwise the fabric time by which its message must have ended,
if there is one, and the crs byte of a message that starts (11 R347, R348). -/
def startSlot (s : State) (l tc : Nat) : Option (Option Nat × Nat) :=
  let x := linkOf s l
  let bound (e : Option Nat) : Option Nat :=
    match x.pending, e with
    | some p, some e => some (Nat.min e p.armAt)
    | some p, none => some p.armAt
    | none, e => e
  match courseOf s l with
  | none => some (bound none, 0)
  | some c =>
    let p := coursePos c s.ftime
    match windowAt c p with
    | some (w, e, k) => if k = tc then some (bound (some (s.ftime - p + e)), w + 64) else none
    | none => if isCourseClass c tc then none else some (bound (some (s.ftime - p + openEnd c p)), 0)

/-- Whether a message of `n` flits ends by a time with the guard kept. -/
def endsBy (s : State) (l n : Nat) : Option Nat → Bool
  | none => true
  | some e => decide (s.ftime * 1000 + n * flitPs s l + guardNs s l * 1000 ≤ e * 1000)

/-! ### Starting a message (11 R331, R334, R348, R350) -/

/-- The first waiting message of a class on a link (11 R348). -/
def firstWaiting (s : State) (l tc : Nat) : Option NMsg := s.nawyn.waiting.find? (fun m => m.link == l && m.tc == tc)

/-- Take a message out of the waiting ones. -/
def takeWaiting (s : State) (m : NMsg) : State := { s with nawyn := { s.nawyn with waiting := s.nawyn.waiting.erase m } }

/-- Weight of a class (11 Table 11.8). -/
def wrrWeight (s : State) (l c : Nat) : Nat := getF s ⟨.nawynLinkWrr, 4 * c + 3, 4 * c⟩ l

/-- Weighted round robin (11 R350): whether it is the class's turn, and what is left of the weights then. A round ends when no class
with a waiting message has any left. -/
def wrrTurn (s : State) (l tc : Nat) : Option (Tab Nat) :=
  let w := (linkOf s l).wrr
  let busy := (List.range 8).filter (fun c => (firstWaiting s l c).isSome)
  let fresh := busy.all (fun c => Tab.get 0 w c == 0)
  let w := if fresh then (List.range 8).foldl (fun w c => Tab.store 0 w c (wrrWeight s l c)) w else w
  if Tab.get 0 w tc = 0 then none else some (Tab.store 0 w tc (Tab.get 0 w tc - 1))

/-- The payload of a message, read as it starts, or the status of Table 6.8 that its range meets. -/
def startPayload (s : State) (m : NMsg) (host : List Byte) : Except Nat (List Byte × State) :=
  match m.from_, m.src with
  | some (a, n), .op k =>
    (match opOf s k with
     | none => .ok (m.data, s)
     | some o =>
       match rangeReach s o a n .read with
       | some st => .error st
       | none => .ok (sourceBytes s a n host, holdRange s (opFn s o) a n))
  | _, _ => .ok (m.data, s)

/-- A message addressed to the device itself goes to its receiving side without a link (11 R334). -/
def startLocal (s : State) (m : NMsg) (host : List Byte) : State :=
  let s := takeWaiting s m
  match startPayload s m host, m.src with
  | .error st, .op k => finishOp s k stHostError 0 st
  | .error _, _ => s
  | .ok (d, s), _ =>
    let s := { s with nawyn := { s.nawyn with locals := s.nawyn.locals ++ [{ m with data := d, from_ := none }] } }
    commitMsg s m

/-- A message starts on a link. -/
def startOn (s : State) (l : Nat) (m : NMsg) (crs : Nat) (host : List Byte) : State :=
  let s := takeWaiting s m
  match startPayload s m host, m.src with
  | .error st, .op k => finishOp s k stHostError 0 st
  | .error _, _ => s
  | .ok (d, s), _ =>
    let m := { m with data := d, from_ := none, hdr := m.hdr.set 6 (BitVec.ofNat 8 crs) }
    let x := linkOf s l
    pumpLink (setLink s l { x with started := x.started ++ [(m, m.hdr ++ d)], busyPs := s.ftime * 1000 + m.flits * flitPs s l }) l

/-- Count a message that does not fit the rest of its window, once. -/
def deferMsg (s : State) (l : Nat) (m : NMsg) : State :=
  if m.deferred then s
  else
    let w := s.nawyn.waiting.map (fun x => if x = m then { x with deferred := true } else x)
    bump { s with nawyn := { s.nawyn with waiting := w } } Fld.nawynDeferCnt l

/-- A waiting message tries to start. -/
def tryStart (s : State) (l : Nat) (m : NMsg) (host : List Byte) : State :=
  match startSlot s l m.tc with
  | none => s
  | some (e, crs) =>
    if !endsBy s l m.flits e then deferMsg s l m
    else if (courseOf s l).isSome then startOn s l m crs host
    else
      match wrrTurn s l m.tc with
      | none => s
      | some w => startOn (setLink s l { linkOf s l with wrr := w }) l m 0 host

/-- MESSAGE_START: the first waiting message of a class on a link starts, if the link is free for it. -/
def execMessageStart (link tc : Nat) (host : List Byte) (s : State) : Host.Outcome State Fault Refusal :=
  .next
    (match firstWaiting s link tc with
     | none => s
     | some m =>
       if link = localLink then startLocal s m host
       else if getF s Fld.nawynLinkStatState link ≠ 5 ∨ (sendingAt (linkOf s link)).isSome = true ∨ s.ftime * 1000 < (linkOf s link).busyPs then s
       else tryStart s link m host)

/-! ### Lateness (11 R352, 15 R440) -/

/-- Record a lateness sample. -/
def lateSample (s : State) (l w src id start late : Nat) : State :=
  let row := 64 * l + w
  let s := if getF s Fld.nawynLateMax l < late then setF s Fld.nawynLateMax l late else s
  let t := rowAdd s.gut.late row (binOf 8 late) 1
  let t := if Tab.get 0 t (20 * row + 16) < late then rowSet (rowSet t row 16 late) row 18 src else t
  let s := { s with gut := { s.gut with late := t } }
  let p := leBytes 1 l ++ leBytes 1 w ++ leBytes 2 src ++ leBytes 4 id ++ leBytes 8 start ++ leBytes 4 late ++ List.replicate 12 0
  let s := offer s (28 + l / 4) 0x20 p
  if late ≤ getF s Fld.nawynCrsLateNs l then s
  else
    let s := bump s Fld.nawynLateCnt l
    let x := linkOf s l
    let due := match x.lateAt with
      | some t => decide (t + 1000000 ≤ s.ftime)
      | none => true
    if due then
      raiseD (setLink s l { x with lateAt := some s.ftime }) (srcNawyn l) { code := 0x0605, aux8 := l, aux16 := w, arg0 := src, arg1 := late }
    else s

/-- The lateness of an arriving message: of the first of its class in an instance of its crs window. A sample lies below the window's
length (DEDUCED, log 72). -/
def measureLate (s : State) (l tc crs src : Nat) : State :=
  let x := linkOf s l
  match x.active, bitN crs 6 with
  | some c, true =>
    let w := crs % 64
    let t := s.ftime - getF s Fld.nawynLinkDelay l
    (match c.wins[w]? with
     | none => s
     | some (a, b, k) =>
       if k ≠ tc ∨ t < c.armAt + a then s
       else
         let i := (t - c.armAt - a) / c.cycle
         if i + 1 ≤ Tab.get 0 x.measured w then s
         else
           let start := c.armAt + i * c.cycle + a
           lateSample (setLink s l { x with measured := Tab.put x.measured w (i + 1) }) l w src c.id start (Nat.min (t - start) (b - a - 1)))
  | _, _ => s

/-- WINDOW_INSTANCE_END: instance `k` of a window has had no message of its class. -/
def execWindowInstanceEnd (link w k : Nat) (s : State) : Host.Outcome State Fault Refusal :=
  .next
    (let x := linkOf s link
     match x.active with
     | none => s
     | some c =>
       match c.wins[w]? with
       | none => s
       | some (_, b, _) =>
         if k + 1 ≤ Tab.get 0 x.ended w ∨ k + 1 < Tab.get 0 x.measured w then s
         else
           let s := reach s (c.armAt + k * c.cycle + b + getF s Fld.nawynLinkDelay link)
           let s := setLink s link { x with ended := Tab.put x.ended w (k + 1) }
           if k + 1 = Tab.get 0 x.measured w then s
           else
             let s := bump s Fld.nawynWinEmptyCnt link
             { s with gut := { s.gut with late := rowAdd s.gut.late (64 * link + w) 17 1 } })

end Sys2Proof.Machine
end

