-- ==== Sys2Proof/Machine/NawynMsg.lean ====
section
/-! DEFINITION. Nawyn messages that arrive (11 R328 to R340): routing and forwarding, apertures, receive buffers, read responses; and the
operations of engine 0x04 and the accesses of threads. -/

namespace Sys2Proof.Machine

/-! ### Arrival -/

/-- A received message's header as bytes (11 Table 11.4). -/
def hdrBytes24 (m : NHdr) (mtype len : Nat) : List Byte :=
  leBytes 2 (m.dst % 4096 + m.hops % 16 * 4096) ++ leBytes 2 (m.src % 4096 + bit1 m.linkLocal * 4096) ++ leBytes 1 mtype ++
  leBytes 1 0 ++ leBytes 1 m.crs ++ leBytes 1 m.status ++ leBytes 4 len ++ leBytes 4 m.tag ++ leBytes 8 m.arg

/-- The message among those the device has sent to itself. -/
def localMsg (s : State) (m : NHdr) (mtype : Nat) (payload : List Byte) : Option NMsg :=
  s.nawyn.locals.find? (fun x => x.tc == m.tc && x.hdr == hdrBytes24 m mtype payload.length && x.data == payload)

/-- The flits of a message have come by a link: they are counted and taken, their credits go back, the acknowledgement and credit fields
take effect, and lateness is measured (11 R328 to R330, R352). -/
def takeFlits (s : State) (m : NHdr) (n : Nat) : State :=
  let l := m.link
  let s := bumpN (bumpN s Fld.nawynFlitRxCnt l n) Fld.nawynFecCorrCnt l m.corr
  let x := linkOf s l
  let ret := (Tab.get 0 x.crRet m.tc + n) % 256
  let s := setLink s l { x with rxSeq := (x.rxSeq + n) % 1024, rxAny := true, nakSent := false, crRet := Tab.store 0 x.crRet m.tc ret }
  let s := measureLate (ackEffects s l m.fa) l m.tc m.crs m.src
  idleFlit s l

/-- A routed message is dropped: UNDELIVERED to its source (11 R335). A link-local one is not routed. -/
def dropArrived (s : State) (m : NHdr) (mtype len reason : Nat) : State :=
  if m.linkLocal then s else undeliver s m.tc (hdrBytes24 m mtype len) reason

/-- Forward a message for another node (11 R334, R335; one that fits no window is dropped as one without a route, DEDUCED, log 71). -/
def forwardMsg (s : State) (m : NHdr) (mtype : Nat) (payload : List Byte) : State :=
  if m.hops = 0 then dropArrived s m mtype payload.length 2
  else
    match routeFor s m.dst with
    | none => dropArrived s m mtype payload.length 1
    | some l =>
      let n := msgFlits payload.length
      if !fitsCourse s l m.tc n then dropArrived (bump s Fld.nawynOversizeCnt 0) m mtype payload.length 1
      else enqueueMsg s { src := .own, link := l, tc := m.tc, data := payload, flits := n, hdr := hdrBytes24 { m with hops := m.hops - 1, crs := 0 } mtype payload.length }

/-- A message arrives; `k` is what the device does with one for itself (11 R333, R334). -/
def nawynArrive (s : State) (m : NHdr) (mtype : Nat) (payload : List Byte) (k : State → State) : State :=
  if m.link = localLink then
    (match localMsg s m mtype payload with
     | none => s
     | some x => k { s with nawyn := { s.nawyn with locals := s.nawyn.locals.erase x } })
  else if getF s Fld.nawynLinkStatState m.link ≠ 5 then s
  else
    let s := takeFlits s m (msgFlits payload.length)
    if m.linkLocal then k s
    else if flagF s Fld.nawynLinkStatIdClash m.link ∨ nodeId s = 0xFFF ∨ m.dst = 0xFFF then s
    else if m.dst = nodeId s then k s
    else forwardMsg s m mtype payload

/-- Answer a message in its class: link-local where it was. -/
def replyMsg (s : State) (m : NHdr) (mtype status arg : Nat) (data : List Byte) : State :=
  if m.linkLocal then (if m.link < 16 then sendLocal s .own m.link m.tc mtype status m.tag arg data else s)
  else sendOwn s m.src m.tc mtype status m.tag arg data

/-! ### Apertures (11 R336) -/

/-- The fabric address of an access through an aperture, where it is allowed. -/
def aperAddr (s : State) (src off n : Nat) (write : Bool) : Option Nat :=
  let i := off / gib % 256
  let en := if write then flagF s Fld.nawynAperWrEn i else flagF s Fld.nawynAperRdEn i
  let node := flagF s Fld.nawynAperFilterEn i && getF s Fld.nawynAperFilterNode i != src
  let a := getF s Fld.nawynAperBase i * gib + off % gib
  if !en || node || decide (gib < off % gib + n) || !openMem s a n then none else some a

/-- A message that reaches a rafter's SRAM wakes the rafter (02 Table 2.3 source 4). -/
def wakeSram (s : State) (a : Nat) : State := if a < 0x8000000 then latchWake s (a / 0x200000) 4 else s

/-- NAWYN_WRITE. -/
def execNawynWrite (m : NHdr) (payload : List Byte) (s : State) : Host.Outcome State Fault Refusal :=
  .next
    (nawynArrive s m 1 payload (fun s =>
      match aperAddr s m.src (m.arg % 2 ^ 38) payload.length true with
      | none => dropArrived (bump s Fld.nawynAperFaultCnt 0) m 1 payload.length 3
      | some a => writeBytes (wakeSram (touchPurlin s) a) a payload))

/-- NAWYN_READ_REQ: answered with the bytes; refused, or where an uncorrectable error meets it, with status 1 (DEDUCED, log 81). -/
def execNawynReadReq (m : NHdr) (_host : List Byte) (failed : Bool) (s : State) : Host.Outcome State Fault Refusal :=
  .next
    (nawynArrive s m 2 [] (fun s =>
      let off := m.arg % 2 ^ 38
      let n := fieldOf m.arg 58 38
      match aperAddr s m.src off n false with
      | none => replyMsg (bump s Fld.nawynAperFaultCnt 0) m 3 1 off []
      | some a =>
        let s := wakeSram (touchPurlin s) a
        if failed then replyMsg s m 3 1 off [] else replyMsg s m 3 0 off (readBytes s a n)))

/-! ### Receive buffers (11 R339) -/

/-- The oldest unused NRECV_POST of a queue pair that may receive. -/
def nrecvFor (s : State) (q : Nat) : Option (Nat × Op) :=
  if flagF s Fld.qpCtlEnable q && qpKind s q == 2 then
    (s.rings.ops.filter (fun e => decide (e.2.src = .ring q) && e.2.opcode == 0x0403 && decide (e.2.st = .admitted))).head?
  else none

/-- NAWYN_RX_DROP, at most once per ms per queue pair. -/
def rxDropEvent (s : State) (q src : Nat) : State :=
  let due := match Tab.lookup s.nawyn.dropAt q with
    | some t => decide (t + 1000000 ≤ s.ftime)
    | none => true
  if due then
    let s := { s with nawyn := { s.nawyn with dropAt := Tab.put s.nawyn.dropAt q s.ftime } }
    let ev : Event := { code := 0x0609, aux16 := q, arg0 := src }
    if flagF s Fld.qpCtlEnable q then raiseR s (srcNawyn 0) q ev else raiseD s (srcNawyn 0) ev
  else s

/-- A message for a queue pair: into its oldest buffer, or dropped. -/
def nrecv (s : State) (m : NHdr) (mtype q : Nat) (bs : List Byte) : State :=
  let s := latchWake s (getF s Fld.qpCtlServiceRafter q) 4
  match nrecvFor s q with
  | none => dropArrived (rxDropEvent (bump s Fld.nawynRxDropCnt 0) q m.src) m mtype bs.length 4
  | some (n, o) =>
    if leAt o.body 8 4 < bs.length then finishOp s n 0x75 0 0
    else
      match engWrite s o (leAt o.body 0 8) bs with
      | .error st => finishOp s n stHostError 0 st
      | .ok s => finishOk (putOp s n { o with st := .committed }) n bs.length

/-- NAWYN_SEND. -/
def execNawynSend (m : NHdr) (payload : List Byte) (s : State) : Host.Outcome State Fault Refusal :=
  .next (nawynArrive s m 0 payload (fun s => nrecv s m 0 (m.arg % 4096) payload))

/-- PACKET_MESSAGE. -/
def execPacketMessage (m : NHdr) (payload : List Byte) (s : State) : Host.Outcome State Fault Refusal :=
  .next (nawynArrive s m 6 payload (fun s => nrecv s m 6 (getF s Fld.nawynCtlPktQp 0) payload))

/-! ### Read responses (11 R337) -/

/-- A read of the copy is no longer outstanding. -/
def copyReadEnds (s : State) (tag : Nat) : State :=
  match s.ul.copy with
  | some c => { s with ul := { s.ul with copy := some { c with reads := c.reads.filter (fun e => e.1 != tag) } } }
  | none => s

/-- A read ends with a status of Table 11.7: for a thread that of 06 Table 6.8. -/
def readFails (s : State) (tag : Nat) (r : NRead) (status threadSt : Nat) : State :=
  let s := dropRead s tag
  match r.src with
  | .op n => finishOp s n status 0 0
  | .thread t a => answerThread s t a (.failed threadSt)
  | .copy g => copyFail (copyReadEnds s tag) status g
  | _ => s

/-- A read ends with its data. -/
def readEnds (s : State) (tag : Nat) (r : NRead) (bs : List Byte) : State :=
  let s := dropRead s tag
  match r.src with
  | .op n =>
    match opOf s n with
    | none => s
    | some o =>
      match engWrite s o r.laddr bs with
      | .error st => finishOp s n stHostError 0 st
      | .ok s => finishOk (putOp s n { o with st := .committed }) n bs.length
  | .thread t a => answerThread s t a (.data (BitVec.ofNat 64 (leNat bs)))
  | .copy _ => copyReadEnds (writeBytes s r.laddr bs) tag
  | _ => s

/-- NAWYN_READ_RESP. A response that answers no outstanding read of its source, or with other than the bytes asked for, is late (DEDUCED,
log 82). -/
def execNawynReadResp (m : NHdr) (payload : List Byte) (s : State) : Host.Outcome State Fault Refusal :=
  .next
    (nawynArrive s m 3 payload (fun s =>
      match Tab.lookup s.nawyn.reads m.tag with
      | none => bump s Fld.nawynLateRespCnt 0
      | some r =>
        if r.node ≠ m.src ∨ (m.status = 0 ∧ payload.length ≠ r.len) then bump s Fld.nawynLateRespCnt 0
        else if m.status ≠ 0 then readFails s m.tag r 0x74 7
        else readEnds s m.tag r payload))

/-- READ_TIMEOUT. -/
def execReadTimeout (tag : Nat) (s : State) : Host.Outcome State Fault Refusal :=
  .next
    (match Tab.lookup s.nawyn.reads tag with
     | none => s
     | some r => readFails (reach s r.deadline) tag r 0x71 5)

/-! ### Other messages -/

/-- UNDELIVERED. -/
def execUndelivered (m : NHdr) (dropped : List Byte) (s : State) : Host.Outcome State Fault Refusal :=
  .next
    (nawynArrive s m 4 dropped (fun s =>
      raiseD s (srcNawyn (m.link % 16)) { code := 0x0608, aux8 := m.status, aux16 := leAt dropped 4 1, arg0 := leAt dropped 0 2 % 4096 + leAt dropped 12 4 * 2 ^ 32, arg1 := m.src }))

/-- BOOT_MESSAGE: of the neighbour whose turn it is (02 Table 2.8). What a device that serves images does with one is not described (log
162). -/
def execBootMessage (m : NHdr) (payload : List Byte) (s : State) : Host.Outcome State Fault Refusal :=
  .next
    (nawynArrive s m 5 payload (fun s =>
      match s.ridge.attempt with
      | none => s
      | some a =>
        if m.linkLocal && a.src == 5 && a.link == m.link then
          mbxArrive (setAttempt s (some { a with tc := m.tc })) (pathNawyn m.link) payload 0
        else s))

/-- Whether an mtype is listed (11 Table 11.5, 12 R363 to R383, 13 Table 13.2). -/
def listedMtype (t : Nat) : Bool := decide (t ≤ 6 ∨ (0x20 ≤ t ∧ t ≤ 0x25) ∨ (0x40 ≤ t ∧ t ≤ 0x43))

/-- NAWYN_BAD_MTYPE. -/
def execNawynBadMtype (m : NHdr) (mtype : Byte) (payload : List Byte) (s : State) : Host.Outcome State Fault Refusal :=
  .next
    (if listedMtype mtype.toNat then s
    else
      nawynArrive s m mtype.toNat payload (fun s =>
        dropArrived (bump s Fld.nawynBadMtypeCnt 0) m mtype.toNat payload.length 5))

/-! ### Operations of engine 0x04 (11 R338) -/

/-- Fields of a body (11 Table 11.6). -/
def nNode (o : Op) : Nat := leAt o.body 0 2
def nTc (o : Op) : Nat := leAt o.body 2 1
def nLaddr (o : Op) : Nat := leAt o.body 8 8
def nLen (o : Op) : Nat := leAt o.body 0x10 4
def nRoffset (o : Op) : Nat := leAt o.body 0x18 8

/-- Whether a body's fields are in range and its reserved bytes 0. -/
def nBodyOk (o : Op) : Bool :=
  let common := decide (nNode o < 4096 ∧ nTc o < 8 ∧ nLen o ≤ 0x100000) && zeroAt o.body 3 1 && zeroAt o.body 6 2
  match o.opcode with
  | 0x0400 => common && decide (leAt o.body 4 2 < 4096) && zeroAt o.body 0x14 28
  | 0x0401 => common && zeroAt o.body 4 2 && zeroAt o.body 0x14 4 && decide (nRoffset o < 2 ^ 38) && zeroAt o.body 0x20 16
  | 0x0402 =>
    common && zeroAt o.body 4 2 && zeroAt o.body 0x14 4 && decide (nRoffset o < 2 ^ 38) && zeroAt o.body 0x20 16 && nLen o != 0
  | _ => zeroAt o.body 12 36

/-- The local range of an operation. -/
def nRange (o : Op) : Nat × Nat × AccKind :=
  match o.opcode with
  | 0x0402 => (nLaddr o, nLen o, .write)
  | 0x0403 => (leAt o.body 0 8, leAt o.body 8 4, .write)
  | _ => (nLaddr o, nLen o, .read)

/-- The check of an operation of engine 0x04 at fetch. -/
def nCheck (s : State) (o : Op) (_ : List Byte) : Verdict :=
  if !nBodyOk o then .bad stBadDescriptor 0
  else if qpKind s o.qp ≠ 2 then .bad stNotPermitted 0
  else
    let (a, n, k) := nRange o
    match (if n = 0 then none else rangeBad s o a n k) with
    | some e => .bad stAccessFault e
    | none => if o.opcode = 0x0403 then .go 0 0 (qpPartner s o) [] 0 else .go 2 (24 + nLen o) (qpPartner s o) [] 0

/-- Take a tag (11 Table 11.4: chosen by the sender; DESIGN CHOICE, log 6). -/
def takeTag (s : State) : Nat × State :=
  (s.nawyn.nextTag, { s with nawyn := { s.nawyn with nextTag := (s.nawyn.nextTag + 1) % 2 ^ 32 } })

/-- Send a READ_REQ of a source and note the read (11 R337). -/
def sendRead (s : State) (src : NSrc) (node tc off len laddr : Nat) : Except (Nat × State) State :=
  let t := takeTag s
  let s := t.2
  match sendNode s src node tc 2 0 t.1 (off % 2 ^ 38 + len * 2 ^ 38) 0 [] none with
  | .error e => .error e
  | .ok s =>
    let r : NRead := { src := src, node := node, laddr := laddr, len := len, deadline := s.ftime + getF s Fld.nawynCtlReadTimeoutUs 0 * 1000 }
    .ok { s with nawyn := { s.nawyn with reads := Tab.put s.nawyn.reads t.1 r } }

/-- An operation of engine 0x04 is enqueued. -/
def nStart (s : State) (n : Nat) : State :=
  match opOf s n with
  | none => s
  | some o =>
    let payload := if nLen o = 0 then none else some (nLaddr o, nLen o)
    let r := match o.opcode with
      | 0x0400 =>
        let t := takeTag s
        sendNode t.2 (.op n) (nNode o) (nTc o) 0 0 t.1 (leAt o.body 4 2) (nLen o) [] payload
      | 0x0401 =>
        let t := takeTag s
        sendNode t.2 (.op n) (nNode o) (nTc o) 1 0 t.1 (nRoffset o) (nLen o) [] payload
      | 0x0402 => sendRead s (.op n) (nNode o) (nTc o) (nRoffset o) (nLen o) (nLaddr o)
      | _ => .ok s
    match r with
    | .ok s => s
    | .error (st, s) => finishOp s n st 0 0

/-- Engine 0x04 as the ring sees it. -/
def nawynSpec : OpSpec := { check := nCheck, start := nStart }

/-! ### Accesses of threads (11 R337) -/

/-- Node and offset of a fabric address in Nawyn peer space (06 Table 6.4). -/
def nawynNode (a : Nat) : Nat := (a - nawynStart) / 2 ^ 38
def nawynOffset (a : Nat) : Nat := a % 2 ^ 38

/-- A message of a thread that fits no window is dropped under R335, at once (11 R349). -/
def threadOversize (s : State) (node tc mtype off len : Nat) : State :=
  undeliver s tc (msgHeader node 4 (nodeId s) false mtype 0 (if mtype = 1 then len else 0) 0 off) 1

/-- A thread's load: the READ_REQ is on its way, or the status it meets. One that fits no window is left to its timeout (DEDUCED, log
73). -/
def nawynLoad (s : State) (t a len : Nat) : Except Nat State :=
  let tc := getF s Fld.nawynCtlThreadTc 0
  match sendRead s (.thread t a) (nawynNode a) tc (nawynOffset a) len 0 with
  | .ok s => .ok s
  | .error (st, s) =>
    if st = 0x72 then
      let tag := takeTag s
      let r : NRead := { src := .thread t a, node := nawynNode a, len := len, deadline := s.ftime + getF s Fld.nawynCtlReadTimeoutUs 0 * 1000 }
      let s := { tag.2 with nawyn := { tag.2.nawyn with reads := Tab.put tag.2.nawyn.reads tag.1 r } }
      .ok (threadOversize s (nawynNode a) tc 2 (nawynOffset a) len)
    else .error 4

/-- A thread's store: the WRITE is on its way, or it fails with node_unreachable. -/
def nawynStore (s : State) (t a : Nat) (bs : List Byte) : State × Bool :=
  let tc := getF s Fld.nawynCtlThreadTc 0
  let tag := takeTag s
  match sendNode tag.2 (.thread t a) (nawynNode a) tc 1 0 tag.1 (nawynOffset a) bs.length bs none with
  | .ok s => (s, true)
  | .error (st, s) => (if st = 0x72 then threadOversize s (nawynNode a) tc 1 (nawynOffset a) bs.length else s, false)

end Sys2Proof.Machine
end

