-- ==== Sys2Proof/Machine/Aes.lean ====
section
/-! DEFINITION. AES-256 (FIPS 197), its GCM mode (NIST SP 800-38D) and its XTS mode (IEEE 1619), which 10 R316, 14 R417 and
14 R425 name. -/

namespace Sys2Proof.Machine

/-! ### The cipher -/

/-- The S-box. -/
def aesSbox : List Byte :=
  [0x63, 0x7C, 0x77, 0x7B, 0xF2, 0x6B, 0x6F, 0xC5, 0x30, 0x01, 0x67, 0x2B, 0xFE, 0xD7, 0xAB, 0x76] ++
  [0xCA, 0x82, 0xC9, 0x7D, 0xFA, 0x59, 0x47, 0xF0, 0xAD, 0xD4, 0xA2, 0xAF, 0x9C, 0xA4, 0x72, 0xC0] ++
  [0xB7, 0xFD, 0x93, 0x26, 0x36, 0x3F, 0xF7, 0xCC, 0x34, 0xA5, 0xE5, 0xF1, 0x71, 0xD8, 0x31, 0x15] ++
  [0x04, 0xC7, 0x23, 0xC3, 0x18, 0x96, 0x05, 0x9A, 0x07, 0x12, 0x80, 0xE2, 0xEB, 0x27, 0xB2, 0x75] ++
  [0x09, 0x83, 0x2C, 0x1A, 0x1B, 0x6E, 0x5A, 0xA0, 0x52, 0x3B, 0xD6, 0xB3, 0x29, 0xE3, 0x2F, 0x84] ++
  [0x53, 0xD1, 0x00, 0xED, 0x20, 0xFC, 0xB1, 0x5B, 0x6A, 0xCB, 0xBE, 0x39, 0x4A, 0x4C, 0x58, 0xCF] ++
  [0xD0, 0xEF, 0xAA, 0xFB, 0x43, 0x4D, 0x33, 0x85, 0x45, 0xF9, 0x02, 0x7F, 0x50, 0x3C, 0x9F, 0xA8] ++
  [0x51, 0xA3, 0x40, 0x8F, 0x92, 0x9D, 0x38, 0xF5, 0xBC, 0xB6, 0xDA, 0x21, 0x10, 0xFF, 0xF3, 0xD2] ++
  [0xCD, 0x0C, 0x13, 0xEC, 0x5F, 0x97, 0x44, 0x17, 0xC4, 0xA7, 0x7E, 0x3D, 0x64, 0x5D, 0x19, 0x73] ++
  [0x60, 0x81, 0x4F, 0xDC, 0x22, 0x2A, 0x90, 0x88, 0x46, 0xEE, 0xB8, 0x14, 0xDE, 0x5E, 0x0B, 0xDB] ++
  [0xE0, 0x32, 0x3A, 0x0A, 0x49, 0x06, 0x24, 0x5C, 0xC2, 0xD3, 0xAC, 0x62, 0x91, 0x95, 0xE4, 0x79] ++
  [0xE7, 0xC8, 0x37, 0x6D, 0x8D, 0xD5, 0x4E, 0xA9, 0x6C, 0x56, 0xF4, 0xEA, 0x65, 0x7A, 0xAE, 0x08] ++
  [0xBA, 0x78, 0x25, 0x2E, 0x1C, 0xA6, 0xB4, 0xC6, 0xE8, 0xDD, 0x74, 0x1F, 0x4B, 0xBD, 0x8B, 0x8A] ++
  [0x70, 0x3E, 0xB5, 0x66, 0x48, 0x03, 0xF6, 0x0E, 0x61, 0x35, 0x57, 0xB9, 0x86, 0xC1, 0x1D, 0x9E] ++
  [0xE1, 0xF8, 0x98, 0x11, 0x69, 0xD9, 0x8E, 0x94, 0x9B, 0x1E, 0x87, 0xE9, 0xCE, 0x55, 0x28, 0xDF] ++
  [0x8C, 0xA1, 0x89, 0x0D, 0xBF, 0xE6, 0x42, 0x68, 0x41, 0x99, 0x2D, 0x0F, 0xB0, 0x54, 0xBB, 0x16]

/-- SubBytes of a byte, and its inverse. -/
def subByte (b : Byte) : Byte := aesSbox.getD b.toNat 0
def invSubByte (b : Byte) : Byte := BitVec.ofNat 8 (aesSbox.idxOf b)

/-- Multiplication by x in GF(2^8). -/
def xtime (b : Byte) : Byte := (b <<< 1) ^^^ (if b.getLsbD 7 then 0x1B else 0)

/-- Multiplication in GF(2^8). -/
def gmul (a b : Byte) : Byte :=
  ((List.range 8).foldl (fun (p : Byte × Byte) i => (if a.getLsbD i then p.1 ^^^ p.2 else p.1, xtime p.2)) (0, b)).1

/-- Bytewise exclusive or. -/
def xorBytes (a b : List Byte) : List Byte := List.zipWith (· ^^^ ·) a b

/-- The next words of the key schedule: `ws` holds the words so far, newest first. -/
def keyWords : Nat → Byte → List (List Byte) → List (List Byte)
  | 0, _, ws => ws
  | k + 1, rc, ws =>
    let i := ws.length
    let t := ws.getD 0 []
    let t' := if i % 8 = 0 then
        (match t with
         | b :: bs => (match bs.map subByte ++ [subByte b] with
           | c :: cs => (c ^^^ rc) :: cs
           | [] => [])
         | [] => [])
      else if i % 8 = 4 then t.map subByte else t
    keyWords k (if i % 8 = 0 then xtime rc else rc) (xorBytes (ws.getD 7 []) t' :: ws)

/-- The 15 round keys of a 32-byte key. -/
def roundKeys (key : List Byte) : List (List Byte) :=
  let w0 := ((List.range 8).map (fun i => (key.drop (4 * i)).take 4)).reverse
  let ws := (keyWords 52 1 w0).reverse
  (List.range 15).map (fun r => ((ws.drop (4 * r)).take 4).flatten)

/-- ShiftRows and its inverse, on a state held column by column. -/
def shiftRows (s : List Byte) : List Byte := (List.range 16).map (fun i => s.getD ((i + 4 * (i % 4)) % 16) 0)
def invShiftRows (s : List Byte) : List Byte := (List.range 16).map (fun i => s.getD ((i + 16 - 4 * (i % 4)) % 16) 0)

/-- MixColumns with the first row of its matrix. -/
def mixWith (m : List Byte) (s : List Byte) : List Byte :=
  (List.range 16).map (fun i =>
    let c := i / 4 * 4
    let r := i % 4
    (List.range 4).foldl (fun x j => x ^^^ gmul (m.getD ((j + 4 - r) % 4) 0) (s.getD (c + j) 0)) 0)

/-- One block through the cipher, under its round keys. -/
def aesBlock (rks : List (List Byte)) (blk : List Byte) : List Byte :=
  let s := xorBytes blk (rks.getD 0 [])
  let s := (List.range 13).foldl (fun s r => xorBytes (mixWith [2, 3, 1, 1] (shiftRows (s.map subByte))) (rks.getD (r + 1) [])) s
  xorBytes (shiftRows (s.map subByte)) (rks.getD 14 [])

/-- One block through the inverse cipher. -/
def aesInvBlock (rks : List (List Byte)) (blk : List Byte) : List Byte :=
  let s := xorBytes blk (rks.getD 14 [])
  let s := (List.range 13).foldl (fun s r => mixWith [14, 11, 13, 9] (xorBytes ((invShiftRows s).map invSubByte) (rks.getD (13 - r) []))) s
  xorBytes ((invShiftRows s).map invSubByte) (rks.getD 0 [])

/-! ### GCM -/

/-- Multiplication in GF(2^128) as GCM orders its bits. -/
def ghashMul (x h : Nat) : Nat :=
  ((List.range 128).foldl
    (fun (p : Nat × Nat) i => (if x.testBit (127 - i) then p.1 ^^^ p.2 else p.1, if p.2 % 2 = 1 then (p.2 / 2) ^^^ (0xE1 * 2 ^ 120) else p.2 / 2)) (0, h)).1

/-- Blocks of 16 bytes, the last padded with zeros. -/
def blocks16 (bs : List Byte) : List (List Byte) :=
  (List.range ((bs.length + 15) / 16)).map (fun i => let b := (bs.drop (16 * i)).take 16; b ++ List.replicate (16 - b.length) 0)

/-- GHASH of data and ciphertext. -/
def ghash (h : Nat) (aad ct : List Byte) : Nat :=
  let lens := beBytes 8 (8 * aad.length) ++ beBytes 8 (8 * ct.length)
  (blocks16 aad ++ blocks16 ct ++ [lens]).foldl (fun y b => ghashMul (y ^^^ beNat b) h) 0

/-- The counter blocks' key stream over data, from a 12-byte nonce. -/
def gcmStream (rks : List (List Byte)) (nonce bs : List Byte) : List Byte :=
  ((blocks16 bs).zipIdx.map (fun b => xorBytes b.1 (aesBlock rks (nonce ++ beBytes 4 (b.2 + 2))))).flatten.take bs.length

/-- The tag of data and ciphertext. -/
def gcmTag (rks : List (List Byte)) (nonce aad ct : List Byte) : List Byte :=
  let h := beNat (aesBlock rks (List.replicate 16 0))
  xorBytes (beBytes 16 (ghash h aad ct)) (aesBlock rks (nonce ++ beBytes 4 1))

/-- Seal: ciphertext and tag. -/
def gcmSeal (key nonce aad pt : List Byte) : List Byte × List Byte :=
  let rks := roundKeys key
  let ct := gcmStream rks nonce pt
  (ct, gcmTag rks nonce aad ct)

/-- Open: the plaintext, where the tag verifies. -/
def gcmOpen (key nonce aad ct tag : List Byte) : Option (List Byte) :=
  let rks := roundKeys key
  if gcmTag rks nonce aad ct = tag then some (gcmStream rks nonce ct) else none

/-! ### XTS -/

/-- The tweak of the next block: multiplication by x, little-endian. -/
def xtsNext (t : Nat) : Nat := (t * 2 % 2 ^ 128) ^^^ (if t.testBit 127 then 0x87 else 0)

/-- The blocks of one data unit under a cipher, from a tweak on. -/
def xtsBlocks (f : List Byte → List Byte) : Nat → List (List Byte) → List Byte
  | _, [] => []
  | t, b :: bs => xorBytes (f (xorBytes b (leBytes 16 t))) (leBytes 16 t) ++ xtsBlocks f (xtsNext t) bs

/-- One data unit of a multiple of 16 bytes: a 64-byte key, the tweak of the unit. -/
def xtsUnit (enc : Bool) (key : List Byte) (tweak : Nat) (bs : List Byte) : List Byte :=
  let rk1 := roundKeys (key.take 32)
  let t := leNat (aesBlock (roundKeys (key.drop 32)) (leBytes 16 tweak))
  xtsBlocks (if enc then aesBlock rk1 else aesInvBlock rk1) t (blocks16 bs)

/-- Whole data units, with consecutive tweaks. -/
def xtsUnits (enc : Bool) (key : List Byte) (size tweak : Nat) (bs : List Byte) : List Byte :=
  ((List.range (bs.length / size)).map (fun i => xtsUnit enc key (tweak + i) ((bs.drop (size * i)).take size))).flatten

end Sys2Proof.Machine
end

