-- ==== Sys2Proof/Machine/Truss.lean ====
section
/-! DEFINITION. Truss: the parse of copies and their classification, Reed hand-off and return, rule tables, spreading, frames
sent and received through rings (09 R247 to R272). -/

namespace Sys2Proof.Machine

/-! ### Copies -/

/-- A copy on chip. -/
def copyOf (s : State) (n : Nat) : Option Copy := Tab.lookup s.truss.copies n

/-- Store a copy. -/
def putCopy (s : State) (n : Nat) (c : Copy) : State := { s with truss := { s.truss with copies := Tab.put s.truss.copies n c } }

/-- A copy leaves the chip's buffers (10 R311). -/
def dropCopy (s : State) (n : Nat) (c : Copy) : State :=
  pfcSettle { s with truss := { s.truss with copies := Tab.del s.truss.copies n } } c.port (framePrio c.frame)

/-- The mode of a port, start node and first table of a copy (09 R247, R263). -/
def copyParsed (s : State) (port : Nat) : Bool :=
  if isExternal port then flagF s Fld.trussPortCfgMode port else flagF s Fld.trussCtlLoopMode 0
def copyStart (s : State) (c : Copy) : Nat :=
  if isExternal c.port then getF s Fld.trussPortCfgStartNode c.port else getF s Fld.trussCtlLoopStart 0
def copyFirst (s : State) (c : Copy) : Nat :=
  if isExternal c.port then getF s Fld.trussPortCfgFirstTable c.port else getF s Fld.trussCtlLoopFirstTable 0

/-- Metadata bytes of a copy. -/
def mdBytes (c : Copy) (off n : Nat) : List Byte := (List.range n).map (fun i => Tab.get 0 c.md (off + i))

/-! ### The parse (09 R251 to R253) -/

/-- How a parse comes to its end: at an offset, malformed, or at a Reed node. -/
inductive ParseOut where
  | done
  | bad (cls : Nat)
  | reed
deriving DecidableEq, Repr

/-- A bit field of a header, in network order (09 R251): its value, or the class of R252 that it breaks. -/
def hdrField (f : List Byte) (off bit width : Nat) : Except Nat Nat :=
  let stop := off + (bit + width + 7) / 8
  if f.length < stop then .error 5
  else if 512 < stop then .error 4
  else
    let first := off + bit / 8
    .ok (beAt f first (stop - first) / 2 ^ (8 * (stop - off) - bit - width) % 2 ^ width)

/-- The header length a node gives. -/
def hdrLen (n : List Byte) (c : Copy) : Except Nat Nat :=
  if nodeFlag n 0 then (hdrField c.frame c.off (leAt n 6 2) (leAt n 8 1)).map (fun v => v * 2 ^ leAt n 9 1 + leAt n 0x0A 2)
  else .ok (leAt n 4 2)

/-- The span_end that a node leaves, past its length checks. -/
def hdrSpan (n : List Byte) (c : Copy) (hlen : Nat) : Except Nat Nat :=
  if hlen < leAt n 2 2 then .error 1
  else if c.frame.length < c.off + hlen then .error 5
  else if 512 < c.off + hlen then .error 4
  else if leAt n 0x0E 1 = 0 then .ok c.spanEnd
  else
    match hdrField c.frame c.off (leAt n 0x0C 2) (leAt n 0x0E 1) with
    | .error e => .error e
    | .ok v =>
      let x := v + leAt n 0x10 2
      if x < hlen ∨ c.spanEnd < c.off + x then .error 2 else .ok (c.off + x)

/-- Copy a node's extracts into metadata. -/
def hdrExtract (n : List Byte) (c : Copy) : Tab Byte :=
  (List.range 4).foldl (fun md x =>
    let e := (n.drop (0x20 + 8 * x)).take 8
    (List.range (leAt e 2 1)).foldl (fun md i => Tab.store 0 md (leAt e 3 1 + i) (BitVec.ofNat 8 (leAt c.frame (c.off + leAt e 0 2 + i) 1))) md) c.md

/-- The node a header leads to. -/
def hdrNext (g n : List Byte) (c : Copy) : Except Nat Nat :=
  let dflt := leAt n 0x1C 2
  if leAt n 0x14 1 = 0 then .ok dflt
  else (hdrField c.frame c.off (leAt n 0x12 2) (leAt n 0x14 1)).map
    (fun v => (((nodeTrans g n).find? (fun t => t.1 == v)).map (fun t => t.2)).getD dflt)

/-- One header: the copy behind it and whether the parse ends there. -/
def parseHeader (g n : List Byte) (c : Copy) : Except (Nat × Copy) (Copy × Bool) :=
  if 24 < c.depth + 1 then .error (3, c)
  else
    match hdrLen n c with
    | .error e => .error (e, c)
    | .ok hlen =>
      match hdrSpan n c hlen with
      | .error e => .error (e, c)
      | .ok se =>
        let c := { c with depth := c.depth + 1, spanEnd := se, md := hdrExtract n c, stack := c.stack ++ [(leAt n 0 1, c.off)] }
        match hdrNext g n c with
        | .error e => .error (e, c)
        | .ok next => .ok ({ c with off := c.off + hlen, node := next }, nodeFlag n 1 || next == 0xFFFE)

/-- The loop of R252; 25 headers are its bound. -/
def parseLoop (g : List Byte) : Nat → Copy → Copy × ParseOut
  | 0, c => (c, .bad 3)
  | k + 1, c =>
    if nodeCount g ≤ c.node then (c, .bad 6)
    else if nodeFlag (nodeAt g c.node) 2 then (c, .reed)
    else
      match parseHeader g (nodeAt g c.node) c with
      | .error (e, c) => (c, .bad e)
      | .ok (c, true) => (c, .done)
      | .ok (c, false) => parseLoop g k c

/-! ### Receiving through a ring (09 R271, R272) -/

/-- Drop a copy for want of a receive buffer (09 R271). -/
def rxNoBuf (s : State) (ring : Nat) : State :=
  let s := bump s Fld.trussRxNobufCnt 0
  let late := match Tab.lookup s.truss.nobufAt ring with
    | some t => decide (t + 1000000 ≤ s.ftime)
    | none => true
  if late then
    raiseR { s with truss := { s.truss with nobufAt := Tab.put s.truss.nobufAt ring s.ftime } } srcSwitch ring { code := 0x0405, bay := (bayOfQp s ring).getD 0xFF, aux16 := ring }
  else s

/-- A parse record (09 R272). -/
def parseRecord (c : Copy) : List Byte :=
  ((List.range 24).map (fun i =>
    match c.stack[i]? with
    | some (t, off) => leBytes 1 t ++ leBytes 1 0 ++ leBytes 2 off
    | none => leBytes 4 0)).flatten ++ List.replicate 32 0 ++ mdBytes c 0 128

/-- The result of an OK receive (09 Table 9.9). -/
def rxResult (c : Copy) (cls : Nat) (split : Bool) : Nat :=
  c.frame.length + cls * 2 ^ 16 + c.stack.length * 2 ^ 20 + (if split then 2 ^ 25 else 0) + c.version * 2 ^ 32 + c.port * 2 ^ 48

/-- Write a copy's frame into one range, and end the RX_POST. -/
def rxWhole (s : State) (n : Nat) (o : Op) (c : Copy) (cls hash : Nat) (bs : List Byte) : State :=
  if leAt o.body 8 4 < bs.length then finishOp s n 0x41 (c.frame.length % 65536) 0
  else
    match engWrite s o (leAt o.body 0 8) bs with
    | .error st => finishOp s n stHostError 0 st
    | .ok s => finishOp (putOp s n { o with st := .committed }) n 0 (rxResult c cls false) hash

/-- Write a copy's headers and the rest of its frame apart, and end the RX_POST. The header buffer is checked as the data buffer
was at fetch. -/
def rxSplit (s : State) (n : Nat) (o : Op) (c : Copy) (hash e : Nat) : State :=
  let h := leAt o.body 0x10 8
  if leAt o.body 8 4 < c.frame.length - e then finishOp s n 0x41 (c.frame.length % 65536) 0
  else
    match rangeBad s o h (Nat.max e 1) .write with
    | some x => finishOp s n stAccessFault 0 x
    | none =>
      match engWrite s o h (c.frame.take e) with
      | .error st => finishOp s n stHostError 0 st
      | .ok s =>
        match engWrite s o (leAt o.body 0 8) (c.frame.drop e) with
        | .error st => finishOp s n stHostError 0 st
        | .ok s => finishOp (putOp s n { o with st := .committed }) n 0 (rxResult c 0 true) hash

/-- A copy targeted at a ring: it takes the oldest admitted RX_POST (09 R271, R272; 02 Table 2.3 source 3). `pend` is where its
parse ended; a copy that was bridged or is malformed has none. -/
def rxDeliver (s : State) (c : Copy) (ring cls hash : Nat) (pend : Option Nat) : State :=
  let s := latchWake s (getF s Fld.qpCtlServiceRafter ring) 3
  match (s.rings.ops.filter (fun e => decide (e.2.src = .ring ring) && e.2.opcode == 0x0201 && decide (e.2.st = .admitted))).head? with
  | none => rxNoBuf s ring
  | some (n, o) =>
    match getF s Fld.trussQpModeRxMode ring, pend with
    | 1, some e => if e ≤ leAt o.body 0x0C 2 then rxSplit s n o c hash e else rxWhole s n o c cls hash c.frame
    | 2, _ => rxWhole s n o c cls hash (parseRecord c ++ c.frame)
    | _, _ => rxWhole s n o c cls hash c.frame

/-- A vport's default ring (09 Table 9.11). -/
def defaultRing (s : State) (v : Nat) : Nat := getF s Fld.swVportRingDefaultRing v

/-! ### Classification (09 R261 to R264, R268, R269) -/

/-- The rule set of a version. -/
def ruleSetOf (s : State) (v : Nat) : RuleSet := if v = getF s Fld.trussVerPrevious 0 then s.truss.prev else s.truss.cur

/-- Leading bits of a key. -/
def keyPrefix (k : List Byte) (n : Nat) : Nat := beNat k / 2 ^ (8 * k.length - n)

/-- Whether a rule matches a key in a table of a kind. -/
def ruleMatches (kind : Nat) (key : List Byte) (r : Rule) : Bool :=
  match kind with
  | 1 => decide (r.key = key)
  | 2 => decide (List.zipWith (· &&& ·) key r.mask = List.zipWith (· &&& ·) r.key r.mask)
  | 3 => decide (keyPrefix key r.arg = keyPrefix r.key r.arg)
  | _ => false

/-- The rule that wins: the highest priority or longest prefix, the first added among equals. -/
def bestRule (rs : List Rule) : Option Rule :=
  rs.foldl (fun b r =>
    match b with
    | none => some r
    | some x => if x.arg < r.arg then some r else some x) none

/-- A lookup: the rule it selects, and the action that applies (09 R262; the reset miss action is kind 4). -/
def lookupTable (s : State) (c : Copy) (t : Nat) : Option Rule × Dword :=
  let (kind, off, len, _) := tableDef s.truss.graph t
  let rs := ruleSetOf s c.version
  let hit := rs.rules.filter (fun r => r.table == t && ruleMatches kind (mdBytes c off len) r)
  match (if kind = 1 then hit.head? else bestRule hit) with
  | some r => (some r, r.act)
  | none => (none, Tab.get 4 rs.miss t)

/-- Fields of an action (09 Table 9.6). -/
def actKind (a : Dword) : Nat := fieldOf a.toNat 3 0
def actTarget (a : Dword) : Nat := fieldOf a.toNat 15 4
def actHit (a : Dword) : Nat := fieldOf a.toNat 47 32

/-- Write a copy's first 256 bytes to the Gutter (15 Table 15.3 PKT_MIRROR). -/
def mirrorCopy (s : State) (c : Copy) (cls : Nat) : State :=
  offer s (16 + copyPipe s c) 0x10
    (leBytes 2 c.frame.length ++ leBytes 1 cls ++ leBytes 1 0 ++ leBytes 2 c.port ++ leBytes 2 c.version ++ List.replicate 8 0 ++
     c.frame.take 256)

/-- Whether a ring may be a target of copies for a vport (09 R264). -/
def ringFits (s : State) (ring v : Nat) : Bool :=
  qpKind s ring == 1 &&
  (if v < 0x240 then decide (qpOwner s ring = some ((v - 0x40) / 256, (v - 0x40) % 256))
   else decide (bayOfQp s ring = some (v - 0x240)))

/-- Deliver a copy to its vport's default ring. -/
def toDefault (s : State) (c : Copy) (hash : Nat) : State := rxDeliver s c (defaultRing s c.vport) 0 hash (some c.off)

/-- The same for a target that R264 turns away. -/
def steerDenied (s : State) (c : Copy) (hash : Nat) : State := toDefault (bump s Fld.trussSteerDeniedCnt 0) c hash

/-- Deliver a copy to a ring, within R264. -/
def toRing (s : State) (c : Copy) (ring hash : Nat) : State :=
  if ringFits s ring c.vport then rxDeliver s c ring 0 hash (some c.off) else steerDenied s c hash

/-- The Toeplitz hash of an indirection table's input (09 R268). Of bytes past the 128 of metadata the spec says nothing: with
any, the hash is a free value. -/
def spreadHash (s : State) (c : Copy) (t : Nat) : Nat × State :=
  let off := getF s Fld.trussIndCfg1HashOff t
  let len := getF s Fld.trussIndCfg1HashLen t
  if 128 < off + len then
    (let d := drawDword s
     (d.1.toNat % 2 ^ 32, d.2))
  else
    let key := ((List.range 10).map (fun i => leBytes 4 (getF s Fld.trussHkey i))).flatten
    (((mdBytes c off len).zipIdx).foldl (fun h b => toeplitzByte key b.2 b.1 h) 0, s)

/-- A frame of a Nawyn path begins as a PACKET message (09 R269, 11 Table 11.5). `aux` holds the node and the class. -/
def packetStart (s : State) (n : Nat) : State :=
  match opOf s n with
  | none => s
  | some o =>
    match sendNode s (.op n) (o.aux % 4096) (o.aux / 4096) 0x06 0 0 0 o.data.length o.data none with
    | .ok s => s
    | .error (st, s) => finishOp s n st 0 0

/-- The internal opcode of a Nawyn-path copy. -/
def opPacket : Nat := 0x4006

/-- A copy on a Nawyn path becomes an operation of pool 2 (09 R269). -/
def toNawyn (s : State) (c : Copy) (t node tc : Nat) : State :=
  arriveOp packetStart s
    { src := .packet c.vport, opcode := opPacket, arrival := s.ftime, bay := c.vport - 0x240, pool := 2, cost := c.frame.length, partner := getF s Fld.trussIndCfg2Partner t, data := c.frame, aux := node + 4096 * tc }

/-- Spread a copy over an indirection table (09 R268, R269). An index past the last entry names none (DEDUCED, log 59). -/
def toSpread (s : State) (c : Copy) (t : Nat) : State :=
  let h := spreadHash s c t
  let s := h.2
  let i := getF s Fld.trussIndCfg0Base t + h.1 % 2 ^ getF s Fld.trussIndCfg0Log2Size t
  let x := getF s Fld.trussIndEntTarget i
  match (if i < 262144 then getF s Fld.trussIndEntKind i else 0) with
  | 1 => toRing s c x (h.1 % 65536)
  | 2 =>
    if c.vport < 0x240 then steerDenied s c (h.1 % 65536)
    else toNawyn s c t x (getF s Fld.trussIndEntClass i)
  | _ => bump s Fld.trussIndInvalidCnt 0

/-- Classify a copy from a table on; a goto names a higher table, so 16 lookups are the bound (09 R263). -/
def classify (c : Copy) : Nat → Nat → State → State
  | 0, _, s => toDefault s c 0
  | k + 1, t, s =>
    let (rule, act) := lookupTable s c t
    let s := if rule.isSome ∧ actHit act ≠ 0xFFFF then bump s Fld.trussRuleHit (actHit act) else s
    let s := if bitN act.toNat 16 then mirrorCopy s c 0 else s
    match actKind act with
    | 0 => s
    | 1 => toRing s c (actTarget act) 0
    | 2 => toSpread s c (actTarget act)
    | 3 => classify c k (actTarget act) s
    | _ => toDefault s c 0

/-- A malformed copy (09 R254): steering is not confined. -/
def malformed (s : State) (c : Copy) (cls : Nat) : State :=
  let s := bump s Fld.trussMalCnt cls
  match getF s Fld.trussMalActAct cls with
  | 1 => rxDeliver s c (getF s Fld.trussMalActRing cls) cls 0 none
  | 2 => mirrorCopy s c cls
  | _ => s

/-- Copies of a pipeline that wait for Reed, and copies in a Reed processor (09 R255). -/
def reedWaiting (s : State) (pipe : Nat) : Nat := (s.truss.copies.filter (fun e => e.2.stage == 1 && copyPipe s e.2 == pipe)).length
def reedBusy (s : State) : Nat := (s.truss.copies.filter (fun e => e.2.stage == 2)).length

/-- A copy's parse has come to an end or to a Reed node. One for Reed waits in its pipeline while the dispatch queue is full. -/
def afterParse (s : State) (n : Nat) (c : Copy) (r : ParseOut) : State :=
  match r with
  | .reed =>
    if 512 ≤ reedWaiting s (copyPipe s c) then s
    else bump (ungate (putCopy s n { c with stage := 1 }) 64) Fld.trussReedPktCnt 0
  | .bad cls => malformed (dropCopy s n c) c cls
  | .done =>
    let t := copyFirst s c
    let s := dropCopy s n c
    if t = 0xFF then toDefault s c 0 else classify c 17 t s

/-- TRUSS_PARSE (09 R247 to R254, R261 to R272). -/
def execTrussParse (copy : Nat) (s : State) : Host.Outcome State Fault Refusal :=
  .next
    (match copyOf s copy with
     | none => s
     | some c =>
       let pipe := copyPipe s c
       if c.stage ≠ 0 ∨ domUp s (65 + pipe) = false then s
       else
         let c := { c with version := getF s Fld.trussVerCurrent 0, node := copyStart s c, off := 0, depth := 0, spanEnd := c.frame.length, md := [], stack := [] }
         let (c, r) := parseLoop s.truss.graph 26 c
         if r = .reed ∧ 512 ≤ reedWaiting s pipe then s
         else afterParse (bump (ungate s (65 + pipe)) Fld.trussPipePktCnt pipe) copy c r)

/-! ### Reed (09 R255 to R260) -/

/-- REED_DISPATCH: one of 256 processors takes the oldest copy of a pipeline's queue. -/
def execReedDispatch (copy : Nat) (s : State) : Host.Outcome State Fault Refusal :=
  .next
    (match copyOf s copy with
     | none => s
     | some c =>
       let earlier := s.truss.copies.any (fun e => decide (e.1 < copy) && e.2.stage == 1 && copyPipe s e.2 == copyPipe s c)
       if c.stage ≠ 1 ∨ earlier = true ∨ 256 ≤ reedBusy s ∨ domUp s 64 = false then s
       else
         putCopy (ungate s 64) copy { c with stage := 2, since := s.ftime })

/-- Keep the cause of a program's trap in TRUSS_REED_LAST (09 R257). -/
def reedLast (s : State) (c : Copy) (cause : Option Nat) : State :=
  match cause with
  | some k => setF (setF s Fld.trussReedLastCause 0 k) Fld.trussReedLastProgram 0 (leAt (nodeAt s.truss.graph c.node) 0x15 1)
  | none => s

/-- The checks of R259 on a return, in their order: the class of the first breach. -/
def returnBreach (g : List Byte) (c : Copy) (n g1 g4 g5 g6 : Nat) : Option Nat :=
  if 2 < n ∨ g6 < 1 ∨ 8 < g6 ∨ g1 < c.off ∨ (n = 2 ∧ (g5 < 1 ∨ 6 < g5)) then some 8
  else if 24 < c.depth + g6 then some 3
  else if c.frame.length < g1 then some 5
  else if 512 < g1 then some 4
  else if c.spanEnd < g4 ∨ g4 < g1 then some 2
  else if n = 0 ∧ nodeCount g ≤ g5 then some 6
  else none

/-- A program's return, checked (09 R259). -/
def reedReturn (s : State) (copy : Nat) (c : Copy) (n g1 g4 g5 g6 : Nat) : State :=
  let g := s.truss.graph
  match returnBreach g c n g1 g4 g5 g6 with
  | some cls => afterParse s copy c (.bad cls)
  | none =>
    if n = 2 then afterParse s copy c (.bad g5)
    else
      let c := { c with depth := c.depth + g6, spanEnd := g4, off := g1, node := g5, stack := c.stack ++ [(leAt (nodeAt g c.node) 0 1, c.off)] }
      if n = 1 then afterParse s copy c .done
      else
        let (c, r) := parseLoop g 26 c
        afterParse s copy c r

/-- REED_RETURN: a program has run to its end within its 4 µs. -/
def execReedReturn (copy : Nat) (s : State) : Host.Outcome State Fault Refusal :=
  .next
    (match copyOf s copy with
     | none => s
     | some c =>
       if c.stage ≠ 2 then s
       else
         let p := reedProgram s.truss.reedProgs (leAt (nodeAt s.truss.graph c.node) 0x15 1) c
         let c' := { c with md := p.md }
         match p.how with
         | .bad cls => afterParse (reedLast s c p.cause) copy c' (.bad cls)
         | .ret n g1 g4 g5 g6 => reedReturn s copy c' n g1 g4 g5 g6)

/-- REED_TIMEOUT: 4 µs after its dispatch a program still runs (09 R260). How far it has come the spec does not say: the
metadata bytes are free values. -/
def execReedTimeout (copy : Nat) (s : State) : Host.Outcome State Fault Refusal :=
  .next
    (match copyOf s copy with
     | none => s
     | some c =>
       if c.stage ≠ 2 then s
       else
         let s := reach s (c.since + 4000)
         let md := (List.range 128).foldl (fun t i => Tab.store 0 t i (BitVec.ofNat 8 (Config.freeDword (s.freeCtr + i)).toNat)) []
         afterParse { s with freeCtr := s.freeCtr + 128 } copy { c with md := md } (.bad 7))

/-! ### Rule tables (09 R265 to R267) -/

/-- Show the end of a command on TRUSS_RULE_CMD. -/
def ruleStat (s : State) (st : Nat) : State := setF s Fld.trussRuleStatStatus 0 st

/-- A command on TRUSS_RULE_CMD: only from a PF, and discarded while busy. -/
def ruleCmd (s : State) (req : Requester) (k : State → State) : State :=
  trussWrite s req (fun s => if flagF s Fld.trussRuleStatBusy 0 then ruleStat s cmdBusy else k s)

/-- The key, mask and action that the registers hold. -/
def argBytes (s : State) (f : Fld) (n : Nat) : List Byte := (((List.range 16).map (fun i => leBytes 4 (getF s f i))).flatten).take n
def argAct (s : State) : Dword := BitVec.ofNat 64 (getF s Fld.trussRuleActLo 0 + getF s Fld.trussRuleActHi 0 * 2 ^ 32)

/-- Whether an action is well formed for a table (09 Table 9.6, R263, R265). -/
def actOk (t : Nat) (a : Dword) : Bool :=
  decide (actKind a ≤ 4) && fieldOf a.toNat 31 17 == 0 && fieldOf a.toNat 63 48 == 0 &&
  (actKind a != 2 || decide (actTarget a < 256)) && (actKind a != 3 || decide (t < actTarget a ∧ actTarget a < 16))

/-- The entry the registers name in a table. -/
def argRule (s : State) (t : Nat) : Rule :=
  let (kind, _, len, _) := tableDef s.truss.graph t
  { table := t, key := argBytes s Fld.trussRuleKey len, mask := if kind = 2 then argBytes s Fld.trussRuleMask len else [], arg := if kind = 1 then 0 else getF s Fld.trussRuleArg 0, act := argAct s }

/-- Whether two entries of a table are the same key, key and mask, or prefix (09 Table 9.7). -/
def sameRule (kind : Nat) (a b : Rule) : Bool :=
  a.table == b.table &&
  (match kind with
   | 1 => decide (a.key = b.key)
   | 2 => decide (a.key = b.key ∧ a.mask = b.mask)
   | _ => a.arg == b.arg && decide (keyPrefix a.key a.arg = keyPrefix b.key b.arg))

/-- The kind of a table. -/
def kindOfTable (s : State) (t : Nat) : Nat := (tableDef s.truss.graph t).1

/-- Whether a version's entries hold an entry's key. -/
def holdsRule (s : State) (rs : List Rule) (r : Rule) : Bool := rs.any (sameRule (kindOfTable s r.table) r)

/-- Entries by which one version differs from another: added and modified, and deleted (09 R266). -/
def rulesDiffer (s : State) (a b : List Rule) : Nat :=
  (a.filter (fun r => !b.contains r)).length + (b.filter (fun r => !holdsRule s a r)).length

/-- Take a new list of staged entries, unless it breaks a limit of R266: 65,536 changes; a table's capacity while both versions
exist. -/
def stageRules (s : State) (t : Nat) (rs : List Rule) : State :=
  let n := rulesDiffer s rs s.truss.cur.rules
  let both := (rs.filter (fun r => r.table == t)).length + (s.truss.cur.rules.filter (fun r => r.table == t && !rs.contains r)).length
  if 65536 < n ∨ (tableDef s.truss.graph t).2.2.2 < both then ruleStat s cmdFull
  else ruleStat { s with truss := { s.truss with staging := { s.truss.staging with rules := rs } } } cmdOk

/-- Whether a table is there and its key argument in range. -/
def argOk (s : State) (t : Nat) : Bool :=
  let (kind, _, len, _) := tableDef s.truss.graph t
  !s.truss.graph.isEmpty && kind != 0 && (kind != 3 || decide (getF s Fld.trussRuleArg 0 ≤ 8 * len))

/-- RULE_ADD. -/
def execRuleAdd (req : Requester) (table : Nat) (s : State) : Host.Outcome State Fault Refusal :=
  .next
    (ruleCmd s req (fun s =>
      let r := argRule s table
      let rs := s.truss.staging.rules
      if !argOk s table || !actOk table r.act then ruleStat s cmdBadArg
      else if holdsRule s rs r then ruleStat s cmdExists
      else stageRules s table (rs ++ [r])))

/-- RULE_DELETE. -/
def execRuleDelete (req : Requester) (table : Nat) (s : State) : Host.Outcome State Fault Refusal :=
  .next
    (ruleCmd s req (fun s =>
      let r := argRule s table
      let rs := s.truss.staging.rules
      if !argOk s table then ruleStat s cmdBadArg
      else if !holdsRule s rs r then ruleStat s cmdNotFound
      else stageRules s table (rs.filter (fun x => !sameRule (kindOfTable s table) x r))))

/-- RULE_MODIFY. -/
def execRuleModify (req : Requester) (table : Nat) (s : State) : Host.Outcome State Fault Refusal :=
  .next
    (ruleCmd s req (fun s =>
      let r := argRule s table
      let rs := s.truss.staging.rules
      if !argOk s table || !actOk table r.act then ruleStat s cmdBadArg
      else if !holdsRule s rs r then ruleStat s cmdNotFound
      else stageRules s table (rs.map (fun x => if sameRule (kindOfTable s table) x r then { x with act := r.act } else x))))

/-- RULE_SET_MISS. -/
def execRuleSetMiss (req : Requester) (table : Nat) (s : State) : Host.Outcome State Fault Refusal :=
  .next
    (ruleCmd s req (fun s =>
      if s.truss.graph.isEmpty ∨ kindOfTable s table = 0 ∨ actOk table (argAct s) = false then ruleStat s cmdBadArg
      else
        let g := s.truss.staging
        ruleStat { s with truss := { s.truss with staging := { g with miss := Tab.store 4 g.miss table (argAct s) } } } cmdOk))

/-- RULE_DISCARD. -/
def execRuleDiscard (req : Requester) (s : State) : Host.Outcome State Fault Refusal :=
  .next
    (ruleCmd s req (fun s =>
      ruleStat { s with truss := { s.truss with staging := s.truss.cur } } cmdOk))

/-- TRUSS_OLD_INFLIGHT: copies in flight under the previous version (09 R249, R267). -/
def oldInflight (s : State) : Nat :=
  (s.truss.copies.filter (fun e => e.2.stage != 0 && e.2.version == getF s Fld.trussVerPrevious 0)).length

/-- The version after another (09 R266). -/
def nextVersion (v : Nat) : Nat := if v = 0xFFFF then 1 else v + 1

/-- A commit takes effect (09 R267). -/
def commitRules (s : State) : State :=
  let v := getF s Fld.trussVerCurrent 0
  let t := s.truss
  let s := { s with truss := { t with prev := t.cur, cur := t.staging, commitWaits := false } }
  let s := setF (setF s Fld.trussVerPrevious 0 v) Fld.trussVerCurrent 0 (nextVersion v)
  let s := bump (setF (ruleStat s cmdOk) Fld.trussRuleStatBusy 0 0) Fld.trussCommitCnt 0
  raiseT s srcSwitch { code := 0x0404, aux16 := nextVersion v, arg0 := v }

/-- RULE_COMMIT_OP. -/
def execRuleCommitOp (req : Requester) (s : State) : Host.Outcome State Fault Refusal :=
  .next
    (ruleCmd s req (fun s =>
      if getF s Fld.trussVerPrevious 0 = 0 ∨ oldInflight s = 0 then commitRules s
      else
        let s := setF (ruleStat s cmdVersionBusy) Fld.trussRuleStatBusy 0 1
        bump { s with truss := { s.truss with commitWaits := true } } Fld.trussVerBusyCnt 0))

/-- RULE_COMMIT_DEFERRED. -/
def execRuleCommitDeferred (s : State) : Host.Outcome State Fault Refusal :=
  .next (if s.truss.commitWaits ∧ oldInflight s = 0 then commitRules s else s)

/-! ### TX and RX_POST (09 R246, R270) -/

/-- The flags of a TX: IPv4 checksum, layer 4 checksum, VLAN insert, priority. -/
def txFlag (o : Op) (k : Nat) : Bool := bitN (leAt o.body 0x0C 2) k
def txPrio (o : Op) : Nat := leAt o.body 0x0C 2 / 8 % 8
def txLen (o : Op) : Nat := leAt o.body 8 4

/-- Whether a TX asks for a checksum that it may not have. -/
def txBadCsum (s : State) (o : Op) : Bool :=
  let l3 := leAt o.body 0x10 2
  let l4 := leAt o.body 0x12 2
  (txFlag o 0 || txFlag o 1) &&
  (!flagF s Fld.trussQpModeTxCsum o.qp || decide (txLen o < l3) || (txFlag o 1 && decide (txLen o < l4)))

/-- The check of a TX at fetch. -/
def txCheck (s : State) (o : Op) (_ : List Byte) : Verdict :=
  let n := txLen o
  if n < 14 ∨ 9212 < n ∨ 64 ≤ leAt o.body 0x0C 2 ∨ zeroAt o.body 20 28 = false then .bad stBadDescriptor 0
  else if qpKind s o.qp ≠ 1 then .bad stNotPermitted 0
  else if txBadCsum s o then .bad 0x40 0
  else
    match rangeBad s o (leAt o.body 0 8) n .read with
    | some e => .bad stAccessFault e
    | none => .go 1 (Nat.max n 60 + 24) (qpPartner s o) [] 0

/-- TX as the ring sees it. -/
def txSpec : OpSpec := { check := txCheck, start := fun s _ => s }

/-- The pseudo header of TCP or UDP over an IP header, and the protocol. -/
def pseudoHeader (f : List Byte) (l3 l4len : Nat) : List Byte × Nat :=
  if leAt f l3 1 / 16 = 4 then
    (((f.drop (l3 + 12)).take 8) ++ [0, BitVec.ofNat 8 (leAt f (l3 + 9) 1)] ++ beBytes 2 l4len, leAt f (l3 + 9) 1)
  else
    (((f.drop (l3 + 8)).take 32) ++ beBytes 4 l4len ++ [0, 0, 0, BitVec.ofNat 8 (leAt f (l3 + 6) 1)], leAt f (l3 + 6) 1)

/-- Length of the layer 4 segment that an IP header gives. -/
def l4Length (f : List Byte) (l3 l4 : Nat) : Nat :=
  if leAt f l3 1 / 16 = 4 then beAt f (l3 + 2) 2 - (l4 - l3) else beAt f (l3 + 4) 2 - (l4 - l3 - 40)

/-- Write the TCP or UDP checksum at layer 4 (RFC 9293, RFC 768; a computed UDP checksum of 0 is sent as 0xFFFF). -/
def l4Csum (f : List Byte) (l3 l4 : Nat) : List Byte :=
  let n := l4Length f l3 l4
  let (ph, proto) := pseudoHeader f l3 n
  let at_ := if proto = 17 then l4 + 6 else l4 + 16
  let f := putAt f at_ [0, 0]
  let v := 65535 - onesSum (ph ++ ((f.drop l4).take n))
  putAt f at_ (beBytes 2 (if proto = 17 ∧ v = 0 then 65535 else v))

/-- The frame that a TX sends: checksums, VLAN tag, padding (09 R270). -/
def txFrame (o : Op) (bs : List Byte) : List Byte :=
  let l3 := leAt o.body 0x10 2
  let f := if txFlag o 1 then l4Csum bs l3 (leAt o.body 0x12 2) else bs
  let f := if txFlag o 0 then ipv4Csum f l3 else f
  let f := if txFlag o 2 then f.take 12 ++ [0x81, 0x00] ++ beBytes 2 (leAt o.body 0x0E 2) ++ f.drop 12 else f
  f ++ List.replicate (60 - f.length) 0

/-- Lengths of an RX_POST's buffers, and whether its ring splits frames. -/
def rxSplits (s : State) (o : Op) : Bool := getF s Fld.trussQpModeRxMode o.qp == 1
def rxLen (o : Op) : Nat := leAt o.body 8 4
def rxHlen (o : Op) : Nat := leAt o.body 0x0C 2

/-- The check of an RX_POST at fetch. -/
def rxCheck (s : State) (o : Op) (_ : List Byte) : Verdict :=
  let split := rxSplits s o
  let bad := decide (rxLen o < 64 ∨ 65535 < rxLen o) || (split && decide (rxHlen o < 64 ∨ 4096 < rxHlen o)) ||
    !zeroAt o.body 14 2 || !zeroAt o.body 24 24
  if bad then .bad stBadDescriptor 0
  else if qpKind s o.qp ≠ 1 then .bad stNotPermitted 0
  else
    match rangeBad s o (leAt o.body 0 8) (rxLen o) .write, (if split then rangeBad s o (leAt o.body 0x10 8) (rxHlen o) .write else none) with
    | some e, _ => .bad stAccessFault e
    | none, some e => .bad stAccessFault e
    | none, none => .go 0 (if (qpOwner s o.qp).isSome then rxLen o + (if split then rxHlen o else 0) else 0) (qpPartner s o) [] 0

/-- RX_POST as the ring sees it: a buffer waits for a frame. -/
def rxSpec : OpSpec := { check := rxCheck, start := fun s _ => s }

end Sys2Proof.Machine
end

