-- ==== Sys2Proof/Machine/XptTx.lean ====
section
/-! DEFINITION. The sender of the eave transport (10 R291 to R299, R306 to R309, R315, R316): connections, packets, the
go-back-N window, and how a connection fails. -/

namespace Sys2Proof.Machine

/-! ### Keys (14 R425) -/

/-- The key that a handle names, if it is valid. -/
def keyOfHandle (s : State) (h : Nat) : Option Key :=
  let k := Tab.get {} s.stor.keys (h % 4096)
  if h < 2 ^ 20 ∧ k.kind ≠ 0 ∧ k.gen = h / 4096 then some k else none

/-- Whether a key is permitted to a bay. -/
def keyPermits (k : Key) (bay : Nat) : Bool := bitN k.mask.toNat bay

/-! ### Connections -/

/-- A connection's context. -/
def connOf (s : State) (c : Nat) : Conn := Tab.get {} s.xpt.conns c

/-- Change a connection's context. -/
def setConn (s : State) (c : Nat) (x : Conn) : State := { s with xpt := { s.xpt with conns := Tab.store {} s.xpt.conns c x } }

/-- A context is used: it is the most recently used of the 65,536 cached (10 R299). -/
def touchCtx (s : State) (c : Nat) : State :=
  { s with xpt := { s.xpt with ctxCache := (c :: s.xpt.ctxCache.filter (· != c)).take 65536 } }

/-- Whether a context is cached. -/
def ctxCached (s : State) (c : Nat) : Bool := s.xpt.ctxCache.contains c

/-- Whether a connection lies in a bay's range (10 R295). -/
def ownsConn (s : State) (bay c : Nat) : Bool :=
  decide (getF s Fld.xptBayConnFirst bay ≤ c ∧ c < getF s Fld.xptBayConnFirst bay + getF s Fld.xptBayConnCount bay)

/-- Distance from one PSN to another (10 R300). -/
def psnDist (a b : Nat) : Nat := (b + 2 ^ 24 - a % 2 ^ 24) % 2 ^ 24

/-- A PSN some way on. -/
def psnAdd (a n : Nat) : Nat := (a + n) % 2 ^ 24

/-- Packets of a message of some length (10 R294). -/
def pktCount (mtu len : Nat) : Nat := Nat.max 1 ((len + mtu - 1) / mtu)

/-- Line rate of a connection's sub-port in bits per second. -/
def lineRate (s : State) (port : Nat) : Rat := ((portGbps s port * 1000000000 : Nat) : Rat)

/-! ### Bytes an engine reads -/

/-- Bytes read from a host window: the host's, free values here. -/
def hostDraw (s : State) (n : Nat) : List Byte × State :=
  ((List.range n).map (fun i => BitVec.ofNat 8 (Config.freeDword (s.freeCtr + i)).toNat), { s with freeCtr := s.freeCtr + n })

/-- Bytes of a fabric range. -/
def fetchBytes (s : State) (a n : Nat) : List Byte × State := if inHost a then hostDraw s n else (readBytes s a n, s)

/-! ### Back-ends of the storage service (14 R410 to R412) -/

/-- A bit of a namespace entry's word +0x00 and its connection (14 Table 14.4), as a command holds the entry. -/
def nsBit (ns : List Nat) (k : Nat) : Bool := bitN (ns.getD 0 0) k
def nsConn (ns : List Nat) : Nat := ns.getD 1 0 % 2 ^ 20

/-- Forget a command's back-end work, and what has ended of it. -/
def backendForget (s : State) (n : Nat) : State :=
  { s with stor := { s.stor with cmds := Tab.del s.stor.cmds n }, xpt := { s.xpt with done := s.xpt.done.filter (fun e => decide (e.1 ≠ .backend n)) } }

/-- A command whose back-end is down completes STOR_BACKEND_DOWN; discarded work is forgotten (14 R412). -/
def backendFail (s : State) (n : Nat) : State :=
  match Tab.lookup s.stor.cmds n with
  | none => s
  | some b => backendForget (if b.ended then s else finishOp (bump s Fld.storBackendErrCnt 0) n 0xA5 0 0) n

/-- The commands with back-end work for which `p` holds of the entry they read. -/
def backendsOn (s : State) (p : List Nat → Bool) : List Nat :=
  (s.stor.cmds.filter (fun e => !e.2.ns.isEmpty && p e.2.ns)).map (fun e => e.1)

/-- A connection that enters ERROR takes the remote namespaces on it down (14 R412). -/
def storConnLost (s : State) (c : Nat) : State :=
  let names (i : Nat) : Bool := flagF s Fld.storNsCtlValid i && flagF s Fld.storNsCtlKind i && getF s Fld.storNsConn i % 2 ^ 20 == c
  let s := (backendsOn s (fun ns => nsBit ns 2 && nsConn ns == c)).foldl backendFail s
  if flagF s Fld.storCtlEnable 0 && (List.range 2048).any names then raiseD s srcStor { code := 0x0901, aux8 := 0xFF, arg0 := c } else s

/-! ### Ends of messages -/

/-- The status of Table 6.8 for a thread (10 Table 10.13). -/
def threadStatus (status : Nat) : Nat := if status = 0x51 then 6 else if status = 0x52 ∨ status = 0x53 then 7 else 8

/-- The result of a message that ended OK (10 Table 10.10). -/
def msgResult (m : Msg) : Nat :=
  if m.kind = 4 ∨ m.kind = 5 then leNat m.data else if m.kind = 7 then 0 else m.len

/-- Tell whose a message is that it has ended. -/
def endMsg (s : State) (m : Msg) (status ext : Nat) : State :=
  if m.dead then s
  else
    match m.who with
    | .op n => finishOp s n status (if status = 0 then msgResult m else 0) ext
    | .thread t a =>
      if m.kind = 1 then (if status = 0 then postedDone s t a else postedFail s t a (threadStatus status))
      else answerThread s t a (if status = 0 then .data (BitVec.ofNat 64 (leNat m.data)) else .failed (threadStatus status))
    | w => { s with xpt := { s.xpt with done := s.xpt.done ++ [(w, status, m.data)] } }

/-- Whether an operation of engine 0x03 is for a connection. -/
def forConn (c : Nat) (o : Op) : Bool := decide (0x0300 ≤ o.opcode ∧ o.opcode ≤ 0x0306) && leAt o.body 0 4 == c

/-- To the event ring of a connection's home ring. -/
def raiseC (s : State) (c : Nat) (ev : Event) : State :=
  let x := connOf s c
  raiseR s srcXpt x.home { ev with bay := x.bay }

/-- A connection enters ERROR (10 R297): 1 retry, 2 RNR, 3 nonce, 4 context. -/
def connErr (s : State) (c reason : Nat) : State :=
  let x := connOf s c
  if x.st ≠ 1 then s
  else
    let s := setConn s c { x with st := 2, reason := reason, msgs := [], rnrWait := none }
    let s := { s with xpt := { s.xpt with fillWait := s.xpt.fillWait.filter (fun p => p.1.conn != c) } }
    let s := if reason = 4 then
        raiseD (raiseC s c { code := 0x0507, arg0 := c }) none { code := 0x0507, bay := x.bay, arg0 := c }
      else raiseC s c { code := 0x0504, aux8 := reason, arg0 := c, arg1 := x.una }
    let s := x.msgs.foldl (fun s m => endMsg s m 0x50 reason) s
    storConnLost ((opsWhere s (forConn c)).foldl (fun s n => finishOp s n 0x50 0 reason) s) c

/-! ### Packets (10 R292, R316) -/

/-- The base header of Table 10.4. -/
def baseHdr (x : Conn) (op : Nat) (ackreq first last ece : Bool) (plen psn : Nat) : List Byte :=
  let b (k : Bool) (n : Nat) : Nat := if k then n else 0
  beBytes 1 (32 + op) ++ beBytes 1 (b ackreq 128 + b first 64 + b last 32 + b x.sec 16 + b ece 8) ++ beBytes 2 plen ++
  beBytes 4 x.peerConn ++ beBytes 4 psn ++ beBytes 4 0

/-- The Ethernet, IP and UDP headers of a packet on a connection (10 R291, R295, R314), as they stand before it. -/
def eaveOuter (s : State) (c : Nat) (pkt : List Byte) : List Byte :=
  let x := connOf s c
  let tos := x.dscp * 4 + 2
  let eth := beBytes 6 x.peerMac ++ beBytes 6 (vportMac s (bayVport x.bay)) ++ (if x.vlan then beBytes 2 0x8100 ++ beBytes 2 x.vlanTci else []) ++
    beBytes 2 (if x.ipv6 then 0x86DD else 0x0800)
  let ttl := (Config.eaveTtl c).toNat
  let ip := if x.ipv6 then
      beBytes 4 (6 * 2 ^ 28 + tos * 2 ^ 20 + (Config.eaveFlow c).toNat) ++ beBytes 2 (8 + pkt.length) ++ beBytes 1 17 ++ beBytes 1 ttl ++
      beBytes 16 x.localIp ++ beBytes 16 x.peerIp
    else
      beBytes 1 0x45 ++ beBytes 1 tos ++ beBytes 2 (28 + pkt.length) ++ beBytes 2 (Config.eaveIpId pkt).toNat ++
      beBytes 2 (if Config.eaveDf c then 0x4000 else 0) ++ beBytes 1 ttl ++ beBytes 1 17 ++ beBytes 2 0 ++ beBytes 4 x.localIp ++ beBytes 4 x.peerIp
  let udp := beBytes 2 (0xC000 + c % 0x4000) ++ beBytes 2 (getF s Fld.xptCtlUdpPort 0) ++ beBytes 2 (8 + pkt.length) ++ beBytes 2 0
  let outer := eth ++ ip ++ udp
  let f := outer ++ pkt
  (if x.ipv6 then l4Csum f eth.length (eth.length + 40) else ipv4Csum f eth.length).take outer.length

/-- Send a packet on a connection: sealed where it is secured (10 R316); a nonce that would pass its end fails the connection
(10 R297). -/
def sendPkt (s : State) (c op : Nat) (ackreq first last ece : Bool) (psn : Nat) (ext payload : List Byte) : State :=
  let x := connOf s c
  if x.sec ∧ 2 ^ 64 ≤ x.txNonce then connErr s c 3
  else
    let hdr := baseHdr x op ackreq first last ece payload.length psn ++ (if x.sec then beBytes 8 x.txNonce else []) ++ ext
    let body := if x.sec then
        (match keyOfHandle s x.key with
         | some k =>
           let r := gcmSeal (k.bytes.take 32) ((k.bytes.drop 32).take 4 ++ beBytes 8 x.txNonce) hdr payload
           r.1 ++ r.2
         | none => payload)
      else payload
    let s := if x.sec then setConn s c { x with txNonce := x.txNonce + 1 } else s
    egressOut s x.port x.prio (.eave c false (eaveOuter s c (hdr ++ body)) hdr body)

/-- RH of Table 10.6. -/
def rhBytes (m : Msg) (off : Nat) : List Byte := beBytes 1 m.rkind ++ beBytes 3 0 ++ beBytes 4 m.rref ++ beBytes 8 off

/-- WN of Table 10.6: rref holds the window, rkind the rights, roffset size - 1, len the cookie. -/
def wnBytes (m : Msg) : List Byte :=
  beBytes 2 (m.rref % 65536) ++ beBytes 2 (m.rref / 65536) ++ beBytes 1 m.rkind ++ beBytes 3 0 ++ beBytes 8 m.roffset ++
  beBytes 4 m.len ++ beBytes 4 0

/-- Packets that a message sends: a READ_REQ sends one for its n PSNs. -/
def msgPkts (m : Msg) : Nat := if m.kind = 2 then 1 else m.n

/-- Send packet `i` of a message, its first PSN being known (10 R294, R307). -/
def sendMsgPkt (s : State) (c : Nat) (m : Msg) (i : Nat) : State :=
  let x := connOf s c
  let last := decide (i + 1 = msgPkts m)
  let psn := psnAdd m.psn0 i
  match m.kind with
  | 2 => sendPkt s c 2 true true true false (psnAdd m.psn0 m.got) (rhBytes m (m.roffset + m.got * x.mtu) ++ beBytes 4 (m.len - m.got * x.mtu) ++ beBytes 4 0) []
  | 4 => sendPkt s c 4 true true true false psn (rhBytes m m.roffset ++ beBytes 8 m.opnd1.toNat) []
  | 5 => sendPkt s c 5 true true true false psn (rhBytes m m.roffset ++ beBytes 8 m.opnd1.toNat ++ beBytes 8 m.opnd2.toNat) []
  | 7 => sendPkt s c 7 true true true false psn (wnBytes m) []
  | k =>
    let off := i * x.mtu
    let n := Nat.min x.mtu (m.len - off)
    let d := if m.data.isEmpty then fetchBytes s (m.laddr + off) n else ((m.data.drop off).take n, s)
    sendPkt d.2 c k last (i == 0) last false psn (if k = 1 then rhBytes m (m.roffset + off) else []) d.1

/-! ### The window (10 R306) -/

/-- PSNs a message has taken so far. -/
def msgSpan (m : Msg) : Nat := if m.sent = 0 then 0 else if m.kind = 2 then m.n else m.sent

/-- How many of a message's PSNs lie behind una. -/
def msgAcked (x : Conn) (m : Msg) : Nat :=
  let d := psnDist m.psn0 x.una
  if m.sent = 0 ∨ 2 ^ 23 ≤ d then 0 else Nat.min d (msgSpan m)

/-- Packets between una and nxt; a READ_REQ is one (DEDUCED, log 62). -/
def pktsOut (x : Conn) : Nat :=
  (x.msgs.map (fun m => if m.kind = 2 then (if msgAcked x m < msgSpan m then 1 else 0) else msgSpan m - msgAcked x m)).sum

/-- Atomics outstanding. -/
def atomicsOut (x : Conn) : Nat := (x.msgs.filter (fun m => (m.kind == 4 || m.kind == 5) && m.sent == 1 && msgAcked x m == 0)).length

/-- The first message with packets not yet sent. -/
def nextMsg (x : Conn) : Option (Nat × Msg) := (x.msgs.zipIdx.map (fun e => (e.2, e.1))).find? (fun e => !e.2.dead && decide (e.2.sent < msgPkts e.2))

/-- Whether the window lets the next packet of a message go. -/
def mayGo (s : State) (x : Conn) (m : Msg) : Bool :=
  decide (pktsOut x < getF s Fld.xptMaxOut 0) && decide (psnDist x.una x.nxt + (if m.kind = 2 then m.n else 1) < 2 ^ 23) &&
  (m.sent != 0 || decide (atomicsOut x < 16))

/-- The status that the local range of a message meets in a host window (07 R204). -/
def localStatus (s : State) (m : Msg) : Option Nat := if m.data.isEmpty ∧ m.kind ≤ 1 then reachStatus s m.laddr 0 else none

/-- Replace a message of a connection. -/
def putMsg (s : State) (c i : Nat) (m : Msg) : State :=
  let x := connOf s c
  setConn s c { x with msgs := x.msgs.set i m }

/-- Send one packet more, if one may go. -/
def pumpOne (s : State) (c : Nat) : Option State :=
  let x := connOf s c
  if x.st ≠ 1 ∨ x.rnrWait.isSome = true ∨ portUp s x.port = false then none
  else
    match nextMsg x with
    | none => none
    | some (i, m) =>
      if !mayGo s x m then none
      else
        match localStatus s m with
        | some st => some (endMsg (putMsg s c i { m with dead := true }) m stHostError st)
        | none =>
          let m := { m with psn0 := if m.sent = 0 then x.nxt else m.psn0, sent := m.sent + 1 }
          let from_ := if x.una = x.nxt then s.ftime else x.retryFrom
          let x := { x with msgs := x.msgs.set i m, nxt := psnAdd x.nxt (if m.kind = 2 then m.n else 1), retryFrom := from_ }
          some (sendMsgPkt (setConn s c x) c m (m.sent - 1))

/-- Send what may go. -/
def pumpN : Nat → State → Nat → State
  | 0, s, _ => s
  | k + 1, s, c =>
    match pumpOne s c with
    | none => s
    | some t => pumpN k t c

/-- The same, up to a window's worth. -/
def pump (s : State) (c : Nat) : State := pumpN (getF s Fld.xptMaxOut 0 + (connOf s c).msgs.length) s c

/-- Take the messages out whose packets have all been sent and acknowledged; those not ended yet end OK (10 R306). -/
def settleConn (s : State) (c : Nat) : State :=
  let x := connOf s c
  let ended (m : Msg) : Bool := m.sent != 0 && msgAcked x m == msgSpan m && (m.dead || m.sent == msgPkts m)
  let s := setConn s c { x with msgs := x.msgs.filter (fun m => !ended m) }
  (x.msgs.filter ended).foldl (fun s m => endMsg s m 0 0) s

/-- Where an acknowledgement up to a PSN takes una: at most to the first response still missing of a read or an atomic (DEDUCED,
log 63). -/
def ackTarget (x : Conn) (a : Nat) : Nat :=
  let missing (m : Msg) : Bool := (m.kind == 2 || m.kind == 4 || m.kind == 5) && m.sent != 0 && !m.dead && decide (m.got < m.n)
  (x.msgs.filter missing).foldl
    (fun t m => if psnDist x.una (psnAdd m.psn0 m.got) < psnDist x.una t then psnAdd m.psn0 m.got else t) (psnAdd a 1)

/-- An acknowledgement of the PSNs up to `a` (10 R306). -/
def ackTo (s : State) (c a : Nat) : State :=
  let x := connOf s c
  if psnDist x.una a < psnDist x.una x.nxt then
    let t := ackTarget x a
    if t = x.una then s
    else settleConn (setConn s c { x with una := t, retry := 0, rnr := 0, retryFrom := s.ftime }) c
  else s

/-- Resend every outstanding packet from a PSN on, in order (10 R307). -/
def resendFrom (s : State) (c p : Nat) : State :=
  let x := connOf s c
  let at_ := psnDist x.una p
  let due (m : Msg) : List (Msg × Nat) :=
    if m.kind = 2 then (if m.sent ≠ 0 ∧ msgAcked x m < msgSpan m ∧ at_ < psnDist x.una (psnAdd m.psn0 m.n) then [(m, 0)] else [])
    else ((List.range m.sent).filter (fun i => msgAcked x m ≤ i && decide (at_ ≤ psnDist x.una (psnAdd m.psn0 i)))).map (fun i => (m, i))
  let ps := (x.msgs.map due).flatten
  let s := setConn s c { x with retx := (x.retx + ps.length) % 2 ^ 64, retryFrom := s.ftime }
  ps.foldl (fun s e => if (connOf s c).st = 1 then sendMsgPkt s c e.1 e.2 else s) (bumpN s Fld.xptRetxCnt 0 ps.length)

/-- Count a retry: the connection fails past its limit, or resends (10 R307). -/
def retryConn (s : State) (c p : Nat) : State :=
  let x := connOf s c
  if x.retryLimit < x.retry + 1 then connErr (setConn s c { x with retry := x.retry + 1 }) c 1
  else resendFrom (setConn s c { x with retry := x.retry + 1 }) c p

/-! ### Congestion (10 R315) -/

/-- g of R315. -/
def dcG (s : State) : Rat := 1 / ((2 ^ getF s Fld.xptEcnGShift 0 : Nat) : Rat)

/-- An acknowledgement with ece lowers the rate, at most once per 50 µs. -/
def dcDecrease (s : State) (c : Nat) : State :=
  let x := connOf s c
  let due := match x.lastDec with
    | some t => decide (t + 50000 ≤ s.ftime)
    | none => true
  if due then
    let lo : Rat := 100000000
    let rc := x.rc * (1 - x.alpha / 2)
    setConn s c { x with rt := x.rc, rc := if rc < lo then lo else rc, alpha := (1 - dcG s) * x.alpha + dcG s, lastDec := some s.ftime, periods := 0 }
  else s

/-- RATE_INCREASE_TIMER: 55 µs have passed without a decrease. -/
def execRateIncreaseTimer (conn : Nat) (s : State) : Host.Outcome State Fault Refusal :=
  .next
    (let x := connOf s conn
     if x.st ≠ 1 then s
     else
       let s := match x.lastDec with
         | some t => reach s (t + 55000 * (x.periods + 1))
         | none => s
       let line := lineRate s x.port
       let up := x.rt + ((getF s Fld.xptEcnAi 0 * 100000000 : Nat) : Rat)
       let rt := if x.periods < 5 then x.rt else if line < up then line else up
       setConn s conn { x with alpha := (1 - dcG s) * x.alpha, rt := rt, rc := (x.rc + rt) / 2, periods := x.periods + 1 })

/-! ### Timers of the sender -/

/-- RETRY_TIMEOUT (10 R307). -/
def execRetryTimeout (conn : Nat) (s : State) : Host.Outcome State Fault Refusal :=
  .next
    (let x := connOf s conn
     if x.st ≠ 1 ∨ x.una = x.nxt ∨ x.rnrWait.isSome = true then s
     else pump (retryConn (reach s (x.retryFrom + getF s Fld.xptRetryRetryUs 0 * 1000)) conn x.una) conn)

/-- RNR_WAIT_EXPIRY (10 R308). -/
def execRnrWaitExpiry (conn : Nat) (s : State) : Host.Outcome State Fault Refusal :=
  .next
    (let x := connOf s conn
     match x.rnrWait with
     | none => s
     | some (t, p) =>
       if x.st ≠ 1 then s
       else
         let s := reach s t
         let s := setConn s conn { x with rnr := x.rnr + 1, rnrWait := none }
         if x.rnrLimit < x.rnr + 1 then connErr s conn 2 else pump (resendFrom s conn p) conn)

/-! ### Messages -/

/-- Queue a message on a READY connection and send what may go; or the status it meets (10 R297, R298; DEDUCED, log 61). -/
def xptSend (s : State) (c : Nat) (m : Msg) : Except Nat State :=
  let x := connOf s c
  if x.st = 2 then .error 0x50
  else if x.st ≠ 1 then .error 0x57
  else .ok (pump (touchCtx (setConn s c { x with msgs := x.msgs ++ [m] }) c) c)

/-- Charge a partner without waiting (10 R280, 08 R232). -/
def chargePartner (s : State) (partner pool cost : Nat) : State :=
  charge s { src := .ring 0, opcode := 0, arrival := s.ftime, bay := 0, pool := pool, cost := cost, partner := partner }

/-- An entry of a bay's remote map (10 Table 10.1, R278): connection, kind, reference and offset of the pane's first byte. -/
def remoteRef (s : State) (bay ref : Nat) : Option (Nat × Nat × Nat × Nat) :=
  if getF s Fld.xptBayRmapCount bay ≤ ref then none
  else
    let e := readBytes s (addrOf s .xptBayRmapLo .xptBayRmapHi bay + 32 * ref) 32
    let w := leAt e 0 4
    let c := w % 2 ^ 20
    let ok := bitN w 31 && fieldOf w 30 20 == 0 && decide (leAt e 4 1 ≤ 1) && zeroAt e 5 3 && zeroAt e 12 4 && zeroAt e 24 8 &&
      ownsConn s bay c
    if ok then some (c, leAt e 4 1, leAt e 8 4, leAt e 16 8) else none

/-- A thread's load or store in remote space (10 R278 to R280): the message is on its way, or the status of Table 6.8 it meets.
`paneOff` is the access's offset in its pane. -/
def remoteAccess (s : State) (tid bay addr ref paneOff len : Nat) (store : Option (List Byte)) : Except Nat State :=
  match remoteRef s bay ref with
  | none => .error 8
  | some (c, rkind, rref, base) =>
    let x := connOf s c
    let m : Msg := { who := .thread tid addr, kind := if store.isSome then 1 else 2, n := 1, rkind := rkind, rref := rref, roffset := base + paneOff, len := len, data := store.getD [] }
    let s := if x.st ≠ 0 ∧ ctxCached s c = false then bump s Fld.xptCtxMissCnt 0 else s
    match xptSend (chargePartner s x.partner 1 (len + 64)) c m with
    | .ok s => .ok s
    | .error _ => .error 8

end Sys2Proof.Machine
end

