-- ==== Sys2Proof/Machine/Underlay.lean ====
section
/-! DEFINITION. Underlay and Shingle (13_underlay.md): cuts and their copy, the drain and its manifest, restore. -/

namespace Sys2Proof.Machine

/-! ### Underlay space (13 R387 to R390) -/

/-- Bytes of a shingle. -/
def shingleSize : Nat := 65536

/-- UL_BASE, slot_size, a slot's address and a manifest area's. -/
def ulBase (s : State) : Nat := getF s Fld.ulBaseLo 0 * 2 ^ 21 + getF s Fld.ulBaseHi 0 * 2 ^ 32
def ulSlotSize (s : State) : Nat := getF s Fld.ulSlotSize 0 * 2 ^ 28
def ulSlot (s : State) (i : Nat) : Nat := ulBase s + i * ulSlotSize s
def ulAreaSize (s : State) : Nat := ulSlotSize s / 2048 + 2 ^ 20
def ulArea (s : State) (i : Nat) : Nat := ulBase s + 2 * ulSlotSize s + i * ulAreaSize s

/-- Whether the Underlay is configured. -/
def ulOn (s : State) : Bool := flagF s Fld.ulCfgEnable 0

/-- A plan entry of 32 bytes as a range. -/
def planEntry (b : List Byte) (i : Nat) : PlanRange :=
  let f (off n : Nat) : Nat := leAt b (32 * i + off) n
  { logical := f 0 8, length := f 8 8, offset := f 0x10 8, node := f 0x18 2, group := f 0x1A 1 }

/-- A range as a plan entry (13 Table 13.1). -/
def PlanRange.bytes (r : PlanRange) : List Byte :=
  leBytes 8 r.logical ++ leBytes 8 r.length ++ leBytes 8 r.offset ++ leBytes 2 r.node ++ leBytes 1 r.group ++ List.replicate 5 0

/-- A plan's total length, its shingles, and its bytes. -/
def planLen (p : List PlanRange) : Nat := (p.map (fun r => r.length)).sum
def planShingles (p : List PlanRange) : Nat := planLen p / shingleSize
def planBytes (p : List PlanRange) : List Byte := (p.map PlanRange.bytes).flatten

/-- Whether two spans of logical state meet. -/
def spansMeet (a b : PlanRange) : Bool := overlaps a.logical a.length b.logical b.length

/-- Whether an entry of a plan is good behind those before it (13 Table 13.1, R390, R393). -/
def planEntryOk (s : State) (b : List Byte) (before : List PlanRange) (i : Nat) : Bool :=
  let r := planEntry b i
  r.logical % shingleSize == 0 && r.length % shingleSize == 0 && decide (shingleSize ≤ r.length) && r.offset % shingleSize == 0 &&
  decide (r.offset + r.length ≤ 2 ^ 38) && decide (r.node < 0xFFF) && zeroAt b (32 * i + 0x1B) 5 &&
  before.all (fun x => !spansMeet x r && (x.group != r.group || x.node == r.node)) &&
  decide (planLen before + r.length ≤ ulSlotSize s)

/-- The first entry of a plan that is not good. -/
def planBad (s : State) (b : List Byte) (n : Nat) : Option Nat :=
  (List.range n).find? (fun i => !planEntryOk s b ((List.range i).map (planEntry b)) i)

/-! ### UL_CUT (13 R391 to R396) -/

/-- Fields of a UL_CUT's body (13 Table 13.3). -/
def cutCount (o : Op) : Nat := leAt o.body 4 2
def cutTimeout (o : Op) : Nat := leAt o.body 0x10 4

/-- Whether a UL_CUT's body is in range. -/
def cutBodyOk (o : Op) : Bool :=
  decide (1 ≤ cutCount o ∧ cutCount o ≤ 4096 ∧ 1 ≤ cutTimeout o ∧ cutTimeout o ≤ 60000) && leAt o.body 8 8 % 32 == 0 &&
  zeroAt o.body 6 2 && zeroAt o.body 0x14 28

/-- Send a token to a node (13 Table 13.2). -/
def sendToken (s : State) (node mtype arg : Nat) (payload : List Byte) : State :=
  sendOwn s node (getF s Fld.ulCtlCopyTc 0) mtype 0 0 arg payload

/-- The free slot of the lower number. -/
def freeSlot (s : State) : Option Nat := [0, 1].find? (fun i => slotState s i == 0)

/-- The slot in a state. -/
def slotIn (s : State) (st : Nat) : Option Nat := [0, 1].find? (fun i => slotState s i == st)

/-- A cut takes its slot. -/
def cutTake (s : State) (n i : Nat) (o : Op) (plan : List PlanRange) : State :=
  let id := leAt o.body 0 4
  let s := setF (setSlot s i 1) Fld.ulLastCut 0 id
  let c : CutCopy := { slot := i, op := n, deadline := s.ftime + cutTimeout o * 1000000 }
  let s := { s with ul := { s.ul with slots := Tab.put s.ul.slots i ⟨id, plan⟩, copy := some c } }
  (planNodes plan).foldl (fun s node => sendToken s node 0x40 id (planBytes (plan.filter (fun r => r.node == node)))) s

/-- UL_CUT, admitted (13 R393). -/
def cutStart (s : State) (n : Nat) (o : Op) : State :=
  let plan := (List.range (cutCount o)).map (planEntry o.data)
  if !ulOn s then finishOp s n 0x90 0 0
  else if !cutBodyOk o then finishOp s n 0x91 0 0
  else
    match planBad s o.data (cutCount o) with
    | some i => finishOp s n 0x91 i 0
    | none =>
      if leAt o.body 0 4 ≤ getF s Fld.ulLastCut 0 then finishOp s n 0x92 0 0
      else if s.ul.copy.isSome then finishOp s n 0x94 0 0
      else
        match freeSlot s with
        | none => finishOp s n 0x93 0 0
        | some i =>
          if (planNodes plan).any (fun node => (routeFor s node).isNone) then finishOp s n 0x96 0 0x70
          else cutTake s n i o plan

/-- The cut that copies. -/
def copyingCut (s : State) (c : CutCopy) : Cut := Tab.get ⟨0, []⟩ s.ul.slots c.slot

/-- Byte offsets of a plan's ranges in the slot, with the ranges. -/
def packed (plan : List PlanRange) : List (Nat × PlanRange) :=
  (plan.foldl (fun (p : Nat × List (Nat × PlanRange)) r => (p.1 + r.length, p.2 ++ [(p.1, r)])) (0, [])).2

/-- READ_REQs of up to 1 MiB for a range: offset in the range, length (13 R394). -/
def readChunks (len : Nat) : List (Nat × Nat) :=
  (List.range ((len + 0xFFFFF) / 0x100000)).map (fun i => (i * 0x100000, Nat.min 0x100000 (len - i * 0x100000)))

/-- Issue one read of a copy. -/
def copyRead (s : State) (group node off len laddr : Nat) : State :=
  let tag := s.nawyn.nextTag
  match s.ul.copy with
  | none => s
  | some c =>
    if c.abandon.isSome then s
    else
      match sendRead s (.copy group) node (getF s Fld.ulCtlCopyTc 0) off len laddr with
      | .ok s => { s with ul := { s.ul with copy := some { c with reads := c.reads ++ [(tag, group)] } } }
      | .error (st, s) => copyFail s st group

/-- Issue the reads of a group. -/
def copyGroup (s : State) (slot group : Nat) (plan : List PlanRange) : State :=
  ((packed plan).filter (fun p => p.2.group == group)).foldl (fun s p =>
    (readChunks p.2.length).foldl (fun s k => copyRead s group p.2.node (p.2.offset + k.1) k.2 (ulSlot s slot + p.1 + k.1)) s) s

/-- A CUT_READY for the device (13 R392). -/
def cutReady (s : State) (m : NHdr) : State :=
  let s := latchWake s 77 4
  let id := m.arg % 2 ^ 32
  let g := fieldOf m.arg 39 32
  match s.ul.copy with
  | none => bump s Fld.ulTokenBadCnt 0
  | some c =>
    let cut := copyingCut s c
    if cut.id ≠ id ∨ (cut.plan.any (fun r => r.group == g && r.node == m.src)) = false then bump s Fld.ulTokenBadCnt 0
    else if c.taken.contains g ∨ c.abandon.isSome = true then s
    else copyGroup { s with ul := { s.ul with copy := some { c with taken := c.taken ++ [g] } } } c.slot g cut.plan

/-- CUT_READY. -/
def execCutReady (m : NHdr) (s : State) : Host.Outcome State Fault Refusal :=
  .next (nawynArrive s m 0x41 [] (fun s => cutReady s m))

/-- The groups of a plan, each once. -/
def planGroups (p : List PlanRange) : List Nat := (p.map (fun r => r.group)).eraseDups

/-- The last group of a cut is copied: its commit point (13 R395). -/
def cutDone (s : State) (c : CutCopy) (plan : List PlanRange) : State :=
  let s := setSlot { s with ul := { s.ul with copy := none } } c.slot 2
  let s := bump s Fld.ulCutCnt 0
  match opOf s c.op with
  | some o => finishOk (putOp s c.op { o with st := .committed }) c.op (planLen plan)
  | none => s

/-- GROUP_COPY_DONE (13 R394). -/
def execGroupCopyDone (group : Nat) (s : State) : Host.Outcome State Fault Refusal :=
  .next
    (match s.ul.copy with
     | none => s
     | some c =>
       let cut := copyingCut s c
       if !c.taken.contains group ∨ c.copied.contains group = true ∨ c.abandon.isSome = true ∨ c.reads.any (fun e => e.2 == group) = true then s
       else
         let rs := cut.plan.filter (fun r => r.group == group)
         let s := bumpN s Fld.ulCopyByteCnt 0 (planLen rs)
         let s := sendToken s ((rs.head?).elim 0 (fun r => r.node)) 0x42 (cut.id + group * 2 ^ 32) []
         let c := { c with copied := c.copied ++ [group] }
         let s := { s with ul := { s.ul with copy := some c } }
         if (planGroups cut.plan).all (fun g => c.copied.contains g) then cutDone s c cut.plan else s)

/-- CUT_READY_TIMEOUT: the first group that lacks its CUT_READY is named (DEDUCED, log 87). -/
def execCutReadyTimeout (s : State) : Host.Outcome State Fault Refusal :=
  .next
    (match s.ul.copy with
     | none => s
     | some c =>
       match (planGroups (copyingCut s c).plan).find? (fun g => !c.taken.contains g), c.abandon with
       | some g, none =>
         let s := reach s c.deadline
         let dl := s.ftime + getF s Fld.nawynCtlReadTimeoutUs 0 * 1000
         { s with ul := { s.ul with copy := some { c with abandon := some (0x95, 0, g, dl) } } }
       | _, _ => s)

/-- CUT_ABANDON_COMPLETE: the reads have ended, or their time has passed (13 R396). -/
def execCutAbandonComplete (s : State) : Host.Outcome State Fault Refusal :=
  .next
    (match s.ul.copy with
     | none => s
     | some c =>
       match c.abandon, opOf s c.op with
       | some (st, ext, _, dl), some o =>
         let s := if c.reads.isEmpty then s else reach s dl
         finishOp s c.op st (refusalResult s c.op o st) ext
       | _, _ => s)

/-! ### UL_DRAIN (13 R397 to R402) -/

/-- A drain or restore target of 32 bytes (13 Table 13.4). -/
def targetAt (b : List Byte) (i : Nat) : Target :=
  let f (off n : Nat) : Nat := leAt b (32 * i + off) n
  { kind := f 0 1, rootPort := f 1 1, nsidConn := f 4 4, key := f 8 4, base := f 0x10 8, len := f 0x18 8 }

/-- A target as its entry. -/
def Target.bytes (t : Target) : List Byte :=
  leBytes 1 t.kind ++ leBytes 1 t.rootPort ++ leBytes 2 0 ++ leBytes 4 t.nsidConn ++ leBytes 4 t.key ++ leBytes 4 0 ++ leBytes 8 t.base ++
  leBytes 8 t.len

/-- Whether a target entry is good for a bay. -/
def targetOk (s : State) (bay : Nat) (b : List Byte) (i : Nat) (extent : Bool) : Bool :=
  let t := targetAt b i
  zeroAt b (32 * i + 2) 2 && zeroAt b (32 * i + 0xC) 4 &&
  (if t.kind = 0 then decide (t.rootPort ≤ 7) && t.key == 0
   else t.kind == 1 && t.rootPort == 0 && decide (t.nsidConn < 2 ^ 20) && ownsConn s bay t.nsidConn) &&
  (!extent || (t.base % shingleSize == 0 && t.len % shingleSize == 0))

/-- Fields of a UL_DRAIN's body (13 Table 13.5). -/
def drainTargets (o : Op) : Nat := leAt o.body 4 1

/-- Whether a UL_DRAIN's body is in range. -/
def drainBodyOk (s : State) (o : Op) : Bool :=
  decide (1 ≤ drainTargets o ∧ drainTargets o ≤ 16 ∧ leAt o.body 5 1 < drainTargets o ∧ leAt o.body 6 1 ≤ 1) && zeroAt o.body 7 1 &&
  leAt o.body 0x10 8 % 4096 == 0 && zeroAt o.body 0x20 16 &&
  (List.range (drainTargets o)).all (fun i => targetOk s o.bay o.data i true)

/-- The area that holds the base, and the other. -/
def baseArea (s : State) : Nat := getF s Fld.ulStatBaseArea 0
def newArea (s : State) : Nat := 1 - baseArea s

/-- Whether the base manifest's range table is a plan. -/
def basePlanIs (s : State) (plan : List PlanRange) : Bool :=
  let a := ulArea s (baseArea s)
  readLe s (a + 0x14) 4 == plan.length && readBytes s (a + 64 + 32 * readLe s (a + 6) 1) (32 * plan.length) == planBytes plan

/-- Address of the base's entry for a shingle, and of the new manifest's. -/
def baseEntry (s : State) (i : Nat) : Nat :=
  let a := ulArea s (baseArea s)
  a + 64 + 32 * (readLe s (a + 6) 1 + readLe s (a + 0x14) 4 + i)
def newEntry (s : State) (d : Drain) (ranges i : Nat) : Nat := ulArea s (newArea s) + 64 + 32 * (d.targets.length + ranges + i)

/-- UL_DRAIN, admitted (13 R398, R399). -/
def drainStart (s : State) (n : Nat) (o : Op) : State :=
  let id := leAt o.body 0 4
  if !ulOn s then finishOp s n 0x90 0 0
  else if !drainBodyOk s o then finishOp s n 0x91 0 0
  else
    match [0, 1].find? (fun i => slotState s i == 2 && (Tab.get ⟨0, []⟩ s.ul.slots i).id == id) with
    | none => finishOp s n 0x92 0 0
    | some i =>
      let plan := (Tab.get ⟨0, []⟩ s.ul.slots i).plan
      if id < getF s Fld.ulBaseCut 0 then finishOp s n 0x92 0 0
      else if (slotIn s 3).isSome then finishOp s n 0x94 0 0
      else if leAt o.body 0x18 8 < 64 + 32 * (drainTargets o + plan.length + planShingles plan) then finishOp s n 0x98 0 0
      else
        let full := !flagF s Fld.ulStatBaseValid 0 || bitN (leAt o.body 6 1) 0 || !basePlanIs s plan
        let ts := (List.range (drainTargets o)).map (targetAt o.data)
        let d : Drain := { slot := i, op := n, targets := ts, manifestTarget := leAt o.body 5 1, manifestOffset := leAt o.body 0x10 8, full := full, deadline := s.ftime + getF s Fld.ulCtlDrainLimitS 0 * 1000000000 }
        let s := setSlot { s with ul := { s.ul with drain := some d } } i 3
        writeBytes s (ulArea s (newArea s) + 64) ((ts.map Target.bytes).flatten ++ planBytes plan)

/-- Bytes of an LBA of an SSD's namespace: none where the SSD is down or has no such namespace (Invalid Namespace or Format). -/
def ssdLba (s : State) (port nsid : Nat) : Except Nat Nat :=
  if !(Tab.get {} s.host.rootPorts port).up then .error 0xA5
  else
    match Tab.lookup s.stor.ssdNs (port * 2 ^ 32 + nsid) with
    | some (big, _) => .ok (if big then 4096 else 512)
    | none => .error 0x0B

/-- A raw access to an SSD's namespace: bytes of its LBA, or the status type and code it fails with (14 R418). Past the namespace's end
it is the SSD's LBA Out of Range (DEDUCED, log 99). -/
def rawLba (s : State) (port nsid off len : Nat) : Except Nat Nat :=
  match ssdLba s port nsid with
  | .error e => .error e
  | .ok b => if (Tab.get (false, 0) s.stor.ssdNs (port * 2 ^ 32 + nsid)).2 * b < off + len then .error 0x80 else .ok b

/-- Write `len` bytes of device memory to a target at an offset; `who` is told of a region's end. -/
def targetWrite (s : State) (t : Target) (who : Who) (a len off : Nat) : Except Nat State :=
  if t.kind = 0 then
    match rawLba s t.rootPort t.nsidConn off len with
    | .error e => .error e
    | .ok b => .ok (emit s (.ssd t.rootPort t.nsidConn 1 (off / b) (len / b) (readBytes s a len)))
  else xptSend s t.nsidConn { who := who, kind := 1, n := pktCount (connOf s t.nsidConn).mtu len, rkind := 1, rref := t.key, roffset := off, len := len, laddr := a }

/-- Tokens of an operation for a write of its own (13 R398): whether they are there. -/
def ulTokens (s : State) (o : Op) (bytes : Nat) : Bool := holdsTokens s { o with cost := bytes } == some true

/-- Charge a write. -/
def ulCharge (s : State) (o : Op) (bytes : Nat) : State := charge s { o with cost := bytes }

/-- A write of a drain fails: status of the target, shingle (13 R400). -/
def drainWriteFail (s : State) (d : Drain) (ext shingle : Nat) : State := finishOp s d.op 0x97 (shingle * 2 ^ 32) ext

/-- The manifest header (13 Table 13.6). -/
def manifestHeader (s : State) (d : Drain) (cut : Cut) (body : List Byte) : List Byte :=
  leBytes 4 0x54534E4D ++ leBytes 2 1 ++ leBytes 1 d.targets.length ++ leBytes 1 (bit1 d.full) ++ leBytes 4 cut.id ++
  leBytes 4 (if d.full then 0 else getF s Fld.ulBaseCut 0) ++ leBytes 2 (nodeId s) ++ leBytes 2 0 ++ leBytes 4 cut.plan.length ++
  leBytes 8 (planShingles cut.plan) ++ leBytes 8 body.length ++ shingleHash body ++ leBytes 8 s.ftime

/-- Length of the new manifest's body. -/
def manifestLen (d : Drain) (cut : Cut) : Nat := 32 * (d.targets.length + cut.plan.length + planShingles cut.plan)

/-- The cut of a drain. -/
def drainCut (s : State) (d : Drain) : Cut := Tab.get ⟨0, []⟩ s.ul.slots d.slot

/-- The target of the manifest. -/
def manifestTo (d : Drain) : Target := d.targets.getD d.manifestTarget { kind := 0, rootPort := 0, nsidConn := 0, key := 0, base := 0, len := 0 }

/-- Every shingle write is acknowledged: the header is formed and the body is written (13 R401). -/
def bodyWrite (s : State) (d : Drain) (o : Op) : State :=
  let cut := drainCut s d
  let a := ulArea s (newArea s)
  let n := manifestLen d cut
  let s := writeBytes s a (manifestHeader s d cut (readBytes s (a + 64) n))
  match targetWrite (ulCharge s o n) (manifestTo d) (.manifest false) (a + 64) n (d.manifestOffset + 64) with
  | .error e => drainWriteFail s d e d.next
  | .ok s => { s with ul := { s.ul with drain := some { d with phase := 2 } } }

/-- The drain goes on to the manifest body once every shingle is hashed and written. -/
def drainSettle (s : State) (d : Drain) (o : Op) : State :=
  if d.phase ≤ 1 ∧ d.next = planShingles (drainCut s d).plan ∧ d.writes = [] then bodyWrite s d o
  else { s with ul := { s.ul with drain := some d } }

/-- The new manifest's entry of a shingle (13 Table 13.7). -/
def shingleEntry (hash : List Byte) (target cut loc : Nat) : List Byte :=
  hash ++ leBytes 1 target ++ leBytes 3 0 ++ leBytes 4 cut ++ leBytes 8 loc

/-- A changed shingle is written (13 R400). -/
def shingleChanged (s : State) (d : Drain) (o : Op) (hash : List Byte) : State :=
  let cut := drainCut s d
  let i := d.next
  let k := d.targets.length
  let t := d.changed % k
  let tg := d.targets.getD t (manifestTo d)
  let j := d.changed / k
  let loc := tg.base + shingleSize * j
  if tg.len < shingleSize * (j + 1) then finishOp s d.op 0x98 0 0
  else if !ulTokens s o shingleSize then s
  else
    let s := bump (writeBytes s (newEntry s d cut.plan.length i) (shingleEntry hash t cut.id loc)) Fld.ulHashedCnt 0
    match targetWrite (ulCharge s o shingleSize) tg (.shingle i) (ulSlot s d.slot + shingleSize * i) shingleSize loc with
    | .error e => drainWriteFail s d e i
    | .ok s => drainSettle s { d with next := i + 1, changed := d.changed + 1, writes := d.writes ++ [i] } o

/-- SHINGLE_HASHED: the next shingle of the drain; a copy pauses it (13 R396, R399). -/
def execShingleHashed (s : State) : Host.Outcome State Fault Refusal :=
  .next
    (match s.ul.drain with
     | none => s
     | some d =>
       let cut := drainCut s d
       match opOf s d.op with
       | none => s
       | some o =>
         if s.ul.copy.isSome ∨ planShingles cut.plan ≤ d.next ∨ domUp s 77 = false then s
         else
           let i := d.next
           let hash := shingleHash (readBytes s (ulSlot s d.slot + shingleSize * i) shingleSize)
           if !d.full && readBytes s (baseEntry s i) 16 == hash then
             let s := writeBytes s (newEntry s d cut.plan.length i) (readBytes s (baseEntry s i) 32)
             drainSettle (bump s Fld.ulHashedCnt 0) { d with next := i + 1 } o
           else shingleChanged s d o hash)

/-- Take the end of a region's write or read from the connections: status and data. -/
def takeDone (s : State) (w : Who) : Option (Nat × List Byte × State) :=
  match s.xpt.done.find? (fun e => decide (e.1 = w)) with
  | some e => some (e.2.1, e.2.2, { s with xpt := { s.xpt with done := s.xpt.done.erase e } })
  | none => none

/-- How a write to a target ended: an SSD's status comes with the command, a region's from its connection. -/
def targetAck (s : State) (t : Target) (w : Who) (status : Nat) : Option (Nat × State) :=
  if t.kind = 0 then some (status, s) else (takeDone s w).map (fun e => (e.1, e.2.2))

/-- The target of a shingle of the drain, as its entry says. -/
def shingleTarget (s : State) (d : Drain) (i : Nat) : Target :=
  d.targets.getD (readLe s (newEntry s d (drainCut s d).plan.length i + 16) 1) (manifestTo d)

/-- SHINGLE_WRITE_ACK. -/
def execShingleWriteAck (i status : Nat) (s : State) : Host.Outcome State Fault Refusal :=
  .next
    (match s.ul.drain with
     | none => s
     | some d =>
       match opOf s d.op, (if d.writes.contains i then targetAck s (shingleTarget s d i) (.shingle i) status else none) with
       | some o, some (st, s) =>
         if st ≠ 0 then drainWriteFail s d st i
         else drainSettle (bump s Fld.ulChangedCnt 0) { d with writes := d.writes.erase i } o
       | _, _ => s)

/-- MANIFEST_BODY_ACK: the header is written (13 R401). -/
def execManifestBodyAck (status : Nat) (s : State) : Host.Outcome State Fault Refusal :=
  .next
    (match s.ul.drain with
     | none => s
     | some d =>
       match opOf s d.op, (if d.phase = 2 then targetAck s (manifestTo d) (.manifest false) status else none) with
       | some o, some (st, s) =>
         if st ≠ 0 then drainWriteFail s d st d.next
         else
           (match targetWrite (ulCharge s o 64) (manifestTo d) (.manifest true) (ulArea s (newArea s)) 64 d.manifestOffset with
            | .error e => drainWriteFail s d e d.next
            | .ok s => { s with ul := { s.ul with drain := some { d with phase := 3 } } })
       | _, _ => s)

/-- The checkpoint is committed (13 R401). -/
def drainCommit (s : State) (d : Drain) (o : Op) : State :=
  let cut := drainCut s d
  let s := setF s Fld.ulStatBaseArea 0 (newArea s)
  let s := setF (setF s Fld.ulBaseCut 0 cut.id) Fld.ulStatBaseValid 0 1
  let s := setSlot { s with ul := { s.ul with drain := none, slots := Tab.del s.ul.slots d.slot } } d.slot 0
  let s := bump (raiseD s srcUl { code := 0x0802, arg0 := cut.id, arg1 := d.changed }) Fld.ulCommitCnt 0
  finishOk (putOp s d.op { o with st := .committed }) d.op (d.changed + bit1 d.full * 2 ^ 63)

/-- MANIFEST_HEADER_ACK: UL_DRAIN's commit point. -/
def execManifestHeaderAck (status : Nat) (s : State) : Host.Outcome State Fault Refusal :=
  .next
    (match s.ul.drain with
     | none => s
     | some d =>
       match opOf s d.op, (if d.phase = 3 then targetAck s (manifestTo d) (.manifest true) status else none) with
       | some o, some (st, s) => if st ≠ 0 then drainWriteFail s d st d.next else drainCommit s d o
       | _, _ => s)

/-- UL_DRAIN_TIMEOUT_EXPIRY. -/
def execUlDrainTimeoutExpiry (s : State) : Host.Outcome State Fault Refusal :=
  .next
    (match s.ul.drain with
     | none => s
     | some d => finishOp (reach s d.deadline) d.op 0x99 0 0)

/-! ### UL_RESTORE (13 R404, R405) -/

/-- Counts of a UL_RESTORE's body (13 Table 13.8). -/
def restManifests (o : Op) : Nat := leAt o.body 0 2
def restTargets (o : Op) : Nat := leAt o.body 2 1
def restMaps (o : Op) : Nat := leAt o.body 4 4

/-- The tables that a UL_RESTORE reads at fetch, as its data holds them: manifest addresses, targets, mappings. -/
def restTables (o : Op) : List Byte × List Byte × List Byte :=
  let a := 8 * restManifests o
  let b := 32 * restTargets o
  (o.data.take a, (o.data.drop a).take b, o.data.drop (a + b))

/-- Whether a UL_RESTORE's counts are in range. -/
def restCountsOk (o : Op) : Bool :=
  decide (1 ≤ restManifests o ∧ restManifests o ≤ 1024 ∧ 1 ≤ restTargets o ∧ restTargets o ≤ 16 ∧ 1 ≤ restMaps o ∧ restMaps o ≤ 65536)

/-- Whether its body is in range. -/
def restBodyOk (s : State) (o : Op) : Bool :=
  restCountsOk o && zeroAt o.body 3 1 && zeroAt o.body 0x20 16 &&
  (List.range (restTargets o)).all (fun i => targetOk s o.bay (restTables o).2.1 i false)

/-- A manifest as memory holds it: cut, ranges, and an entry of 32 bytes for each shingle. -/
structure Manifest where
  cut : Nat
  ranges : List PlanRange
  entries : List Byte
deriving DecidableEq, Repr

/-- Read and check a manifest (13 R404): none where it is bad. An address outside the bay's envelope, and a target index beyond the restore's
table, make it so (DEDUCED, log 88). -/
def readManifest (s : State) (bay targets a : Nat) : Option Manifest :=
  if !inEnvelope s bay a 64 then none
  else
    let tc := readLe s (a + 6) 1
    let rc := readLe s (a + 0x14) 4
    let sc := readLe s (a + 0x18) 8
    let n := readLe s (a + 0x20) 8
    if readLe s a 4 ≠ 0x54534E4D ∨ readLe s (a + 4) 2 ≠ 1 ∨ n ≠ 32 * (tc + rc + sc) ∨ inEnvelope s bay a (64 + n) = false then none
    else
      let body := readBytes s (a + 64) n
      let rs := (List.range rc).map (planEntry (body.drop (32 * tc)))
      let es := body.drop (32 * (tc + rc))
      if shingleHash body ≠ readBytes s (a + 0x28) 16 ∨ planLen rs ≠ shingleSize * sc then none
      else if (List.range sc).any (fun i => decide (targets ≤ leAt es (32 * i + 16) 1)) then none
      else some { cut := readLe s (a + 8) 4, ranges := rs, entries := es }

/-- Whether ranges are pairwise disjoint. -/
def disjointPlan : List PlanRange → Bool
  | [] => true
  | r :: rs => rs.all (fun x => !spansMeet r x) && disjointPlan rs

/-- Read the manifests one after another: the index of the first bad one, or all. -/
def readManifests (s : State) (o : Op) (targets : Nat) : Nat → List Manifest → List Nat → Except Nat (List Manifest)
  | _, acc, [] => .ok acc
  | i, acc, a :: as =>
    match readManifest s o.bay targets a with
    | none => .error i
    | some m =>
      let before := (acc.map (fun x => x.ranges)).flatten
      if acc.any (fun x => x.cut != m.cut) ∨ disjointPlan (before ++ m.ranges) = false then .error i
      else readManifests s o targets (i + 1) (acc ++ [m]) as

/-- The entry of a logical address in a manifest. -/
def findShingle (m : Manifest) (logical : Nat) : Option (List Byte) :=
  match (packed m.ranges).find? (fun p => decide (p.2.logical ≤ logical ∧ logical < p.2.logical + p.2.length)) with
  | some (off, r) => some ((m.entries.drop (32 * ((off + (logical - r.logical)) / shingleSize))).take 32)
  | none => none

/-- A mapping entry: logical base, length, destination offset, node. -/
def mapAt (b : List Byte) (i : Nat) : Nat × Nat × Nat × Nat :=
  (leAt b (32 * i) 8, leAt b (32 * i + 8) 8, leAt b (32 * i + 0x10) 8, leAt b (32 * i + 0x18) 2)

/-- Whether a mapping entry is aligned and in range. -/
def mapOk (b : List Byte) (i : Nat) : Bool :=
  let (base, len, off, node) := mapAt b i
  base % shingleSize == 0 && len % shingleSize == 0 && off % shingleSize == 0 && decide (off + len ≤ 2 ^ 38 ∧ node < 4096) &&
  zeroAt b (32 * i + 0x1A) 6

/-- The shingles of a mapping entry: target, location, hash, logical address, node, destination offset; none where one is not covered. -/
def mapShingles (ms : List Manifest) (b : List Byte) (i : Nat) : Option (List (Nat × Nat × List Byte × Nat × Nat × Nat)) :=
  let (base, len, off, node) := mapAt b i
  (List.range (len / shingleSize)).mapM (fun k =>
    let l := base + shingleSize * k
    match ms.findSome? (fun m => findShingle m l) with
    | some e => some (leAt e 16 1, leAt e 24 8, e.take 16, l, node, off + shingleSize * k)
    | none => none)

/-- Everything a restore is to read, or the mapping entry that is not covered. -/
def restTodo (ms : List Manifest) (b : List Byte) : List Nat → Except Nat (List (Nat × Nat × List Byte × Nat × Nat × Nat))
  | [] => .ok []
  | i :: is =>
    match (if mapOk b i then mapShingles ms b i else none) with
    | none => .error i
    | some l => (restTodo ms b is).map (fun r => l ++ r)

/-- Begin the read of the next shingle of a restore. -/
def restRead (s : State) (n : Nat) (o : Op) : State :=
  match Tab.lookup s.ul.restores n with
  | none => s
  | some r =>
    match r.todo with
    | [] => s
    | (t, loc, _, _, _, _) :: _ =>
      let tg := r.targets.getD t { kind := 0, rootPort := 0, nsidConn := 0, key := 0, base := 0, len := 0 }
      let s := ulCharge s o shingleSize
      if tg.kind = 0 then
        match rawLba s tg.rootPort tg.nsidConn loc shingleSize with
        | .error e => finishOp s n 0x97 0 e
        | .ok b => emit s (.ssd tg.rootPort tg.nsidConn 2 (loc / b) (shingleSize / b) [])
      else
        let c := connOf s tg.nsidConn
        match xptSend s tg.nsidConn { who := .restore n, kind := 2, n := pktCount c.mtu shingleSize, rkind := 1, rref := tg.key, roffset := loc, len := shingleSize } with
        | .error e => finishOp s n 0x97 0 e
        | .ok s => s

/-- UL_RESTORE, admitted. -/
def restStart (s : State) (n : Nat) (o : Op) : State :=
  let (as, ts, ms) := restTables o
  if !ulOn s then finishOp s n 0x90 0 0
  else if !restBodyOk s o then finishOp s n 0x91 0 0
  else
    match readManifests s o (restTargets o) 0 [] ((List.range (restManifests o)).map (fun i => leAt as (8 * i) 8)) with
    | .error i => finishOp s n 0x9A i 0
    | .ok mans =>
      match restTodo mans ms (List.range (restMaps o)) with
      | .error i => finishOp s n 0x9B i 0
      | .ok todo =>
        if (List.range (restMaps o)).any (fun i => (routeFor s (mapAt ms i).2.2.2).isNone) then finishOp s n 0x70 0 0
        else if todo.isEmpty then finishOk s n 0
        else
          let r : Restore := { todo := todo, targets := (List.range (restTargets o)).map (targetAt ts), total := todo.length }
          restRead { s with ul := { s.ul with restores := Tab.put s.ul.restores n r } } n o

/-- RESTORE_SHINGLE_READ: a shingle has been read; its hash is checked and it is written to its node. The WRITE goes in class copy_tc
(DEDUCED, log 89). -/
def execRestoreShingleRead (op : Nat) (data : List Byte) (status : Nat) (s : State) : Host.Outcome State Fault Refusal :=
  .next
    (match running s op 0x0602, Tab.lookup s.ul.restores op with
     | some o, some r =>
       (match r.todo with
        | [] => s
        | (t, _, hash, logical, node, off) :: rest =>
          let tg := r.targets.getD t { kind := 0, rootPort := 0, nsidConn := 0, key := 0, base := 0, len := 0 }
          let got := if tg.kind = 0 then some (status, data, s) else takeDone s (.restore op)
          match got with
          | none => s
          | some (st, bs, s) =>
            if st ≠ 0 then finishOp s op 0x97 0 st
            else if shingleHash bs ≠ hash then finishOp s op 0x9C logical 0
            else
              let s := { s with ul := { s.ul with restores := Tab.put s.ul.restores op { r with todo := rest, written := r.written + 1 } } }
              match sendNode s (.restore op) node (getF s Fld.ulCtlCopyTc 0) 1 0 0 off bs.length bs none with
              | .error (st, s) => finishOp s op st 0 0
              | .ok s => restRead s op o)
     | _, _ => s)

/-- RESTORE_WRITE_ACK: the link has acknowledged a WRITE; the last one is the commit point. -/
def execRestoreWriteAck (op : Nat) (s : State) : Host.Outcome State Fault Refusal :=
  .next
    (match running s op 0x0602, Tab.lookup s.ul.restores op with
     | some o, some r =>
       if r.acked ≤ r.counted then s
       else
         let s := bump s Fld.ulRestoreCnt 0
         if r.counted + 1 = r.total then
           let s := { s with ul := { s.ul with restores := Tab.del s.ul.restores op } }
           finishOk (putOp s op { o with st := .committed }) op r.total
         else { s with ul := { s.ul with restores := Tab.put s.ul.restores op { r with counted := r.counted + 1 } } }
     | _, _ => s)

/-! ### UL_RELEASE and UL_BASE_INV -/

/-- UL_RELEASE, admitted (13 Table 13.9). -/
def releaseStart (s : State) (n : Nat) (o : Op) : State :=
  if !ulOn s then finishOp s n 0x90 0 0
  else
    match [0, 1].find? (fun i => slotState s i == 2 && (Tab.get ⟨0, []⟩ s.ul.slots i).id == leAt o.body 0 4) with
    | none => finishOp s n 0x92 0 0
    | some i => finishOk (setSlot { s with ul := { s.ul with slots := Tab.del s.ul.slots i } } i 0) n 0

/-- UL_BASE_INV (13 R387, R389). -/
def execUlBaseInv (req : Requester) (v : Word) (s : State) : Host.Outcome State Fault Refusal :=
  .next
    (gated s req (fun s =>
      if !Requester.isPf req ∨ (v.getLsbD 31 = true ∧ s.ul.drain.isSome = true) then bump s Fld.ulDeniedCnt 0
      else if v.getLsbD 31 then setF s Fld.ulStatBaseValid 0 0
      else s))

/-! ### Engine 0x06 as the ring sees it (13 R388, Table 13.9) -/

/-- Begin an admitted operation. -/
def ulStart (s : State) (n : Nat) : State :=
  match opOf s n with
  | none => s
  | some o =>
    let s := if 2 ≤ domState s 77 then latchWake s 77 7 else ungate s 77
    match o.opcode with
    | 0x0600 => cutStart s n o
    | 0x0601 => drainStart s n o
    | 0x0602 => restStart s n o
    | _ => releaseStart s n o

/-- The ranges an operation reads at fetch. -/
def ulRanges (o : Op) : List (Nat × Nat) :=
  match o.opcode with
  | 0x0600 => if 1 ≤ cutCount o ∧ cutCount o ≤ 4096 then [(leAt o.body 8 8, 32 * cutCount o)] else []
  | 0x0601 => if 1 ≤ drainTargets o ∧ drainTargets o ≤ 16 then [(leAt o.body 8 8, 32 * drainTargets o)] else []
  | 0x0602 =>
    if restCountsOk o then [(leAt o.body 8 8, 8 * restManifests o), (leAt o.body 0x10 8, 32 * restTargets o), (leAt o.body 0x18 8, 32 * restMaps o)]
    else []
  | _ => []

/-- The bytes of those ranges: the partner's, in their order, where they lie in host windows. -/
def ulBytes (s : State) : List (Nat × Nat) → List Byte → List Byte
  | [], _ => []
  | (a, n) :: rs, host => sourceBytes s a n host ++ ulBytes s rs (if inHost a then host.drop n else host)

/-- The first range that is refused. -/
def ulRangeBad (s : State) (o : Op) : Option Nat := (ulRanges o).findSome? (fun r => rangeBad s o r.1 r.2 .read)

/-- The check of an operation of engine 0x06 at fetch. -/
def ulCheck (s : State) (o : Op) (host : List Byte) : Verdict :=
  let k := qpKind s o.qp
  if o.opcode = 0x0603 ∧ zeroAt o.body 4 44 = false then .bad stBadDescriptor 0
  else if (k ≠ 0 ∧ k ≠ 4) ∨ o.bay ≠ getF s Fld.ulCfgBay 0 then .bad stNotPermitted 0
  else if !ulOn s then .bad 0x90 0
  else
    match ulRangeBad s o with
    | some e => .bad stAccessFault e
    | none =>
      let bs := ulBytes s (ulRanges o) host
      match o.opcode with
      | 0x0600 => .go 6 (planLen ((List.range (bs.length / 32)).map (planEntry bs))) (qpPartner s o) bs 0
      | 0x0603 => .go 6 0 (qpPartner s o) [] 0
      | _ => .go 5 0 (qpPartner s o) bs 0

/-- Engine 0x06. -/
def ulSpec : OpSpec := { check := ulCheck, start := ulStart }

end Sys2Proof.Machine
end

