-- ==== Sys2Proof/Machine/Storage.lean ====
section
/-! DEFINITION. The storage service (14 R407 to R417): controllers and their queues, admin and I/O commands, namespaces, and back-end
completions. Where a field of a command or of what it returns lies, and NVM Express status codes beside Table 14.5, are NVM Express's
(PRESUMED, log 91). -/

namespace Sys2Proof.Machine

/-! ### Controllers (14 R407, R408) -/

/-- The controller of a virtual function. -/
def ctrlOfFn (s : State) (ep fn : Nat) : Option Nat :=
  let first := getF s Fld.identEpVfStorageFirst ep
  let before := if ep = 0 then 0 else getF s Fld.identEpVfStorageCount 0
  if first ≤ fn ∧ fn < first + getF s Fld.identEpVfStorageCount ep then some (before + (fn - first)) else none

/-- Whether a controller is enabled (CC.EN), and its memory page size. -/
def ctrlEnabled (x : Ctrl) : Bool := bitN x.cc 0
def ctrlPage (x : Ctrl) : Nat := 4096 * 2 ^ fieldOf x.cc 10 7

/-- A status: type and code, with do-not-retry (Table 14.5; PRESUMED elsewhere, log 91). -/
def nst (sct sc : Nat) : Nat := 0x1800 + sct * 0x100 + sc
def stInvalidOpcode : Nat := nst 0 0x01
def stInvalidField : Nat := nst 0 0x02
def stInvalidNs : Nat := nst 0 0x0B
def stWriteProtected : Nat := nst 0 0x20
def stLbaRange : Nat := nst 0 0x80

/-- Entries that a completion queue can still take. -/
def cqRoom (k : Cq) : Nat := (k.head + k.size - k.tail - 1) % k.size

/-- Commands of a completion queue not yet ended. -/
def cqOwed (s : State) (c cq : Nat) : Nat :=
  (opsWhere s (fun o => match o.src with
    | .nvme c' q _ => c' == c && ((Tab.lookup (ctrlOf s c).sqs q).map (fun x => x.cq)) == some cq
    | _ => false)).length

/-- Whether a controller's function can be reached and takes part: link up, not stopped, bus master enabled. -/
def ctrlLive (s : State) (c : Nat) : Bool :=
  match ctrlFn s c with
  | some (ep, fn) => hostUp s ep && (fnOf s ep fn).stopCause == 0 && !(fnOf s ep fn).inFlr && cfgBit s ep fn cfgCommand 2
  | none => false

/-- Fetch the next command of a submission queue (14 R413, R416; 08 R223): its arrival, whether it is refused at once, the state. -/
def nvmeFetch (s : State) (n : NCmd) : Option (Nat × Bool × State) :=
  let x := ctrlOf s n.ctrl
  if !flagF s Fld.storCtlEnable 0 || !ctrlEnabled x || !ctrlLive s n.ctrl then none
  else
    match fetchGate s (getF s Fld.storCtlBay 0), Tab.lookup x.sqs n.sq with
    | some refused, some q =>
      (match popArrival q.arrivals, Tab.lookup x.cqs q.cq with
       | some (t, rest), some k =>
         if cqRoom k ≤ cqOwed s n.ctrl q.cq then none
         else some (t, refused, setCtrl s n.ctrl { x with sqs := Tab.put x.sqs n.sq { q with head := (q.head + 1) % q.size, arrivals := rest } })
       | _, _ => none)
    | _, _ => none

/-! ### Host memory -/

/-- The ranges that a command's PRPs name for a number of bytes: address and length. -/
def prpRanges (page : Nat) (n : NCmd) (len : Nat) : List (Nat × Nat) :=
  let first := Nat.min len (page - n.prp1 % page)
  let rest := len - first
  if rest = 0 then [(n.prp1, first)]
  else if rest ≤ page then [(n.prp1, first), (n.prp2, rest)]
  else (n.prp1, first) :: (List.range ((rest + page - 1) / page)).map (fun i => (n.list.getD i 0, Nat.min page (rest - i * page)))

/-- Write bytes where a list of ranges says. -/
def scatter (ep fn : Nat) : State → List (Nat × Nat) → List Byte → State
  | s, [], _ => s
  | s, (a, k) :: rs, bs => scatter ep fn (deviceWrite (holdRange s fn (hostStart ep + a) k) (hostStart ep + a) (bs.take k)) rs (bs.drop k)

/-- Post a command's data into host memory; none where it cannot be reached. -/
def prpWrite (s : State) (n : NCmd) (bs : List Byte) : Option State :=
  match ctrlFn s n.ctrl with
  | some (ep, fn) => if hostUp s ep then some (scatter ep fn s (prpRanges (ctrlPage (ctrlOf s n.ctrl)) n bs.length) bs) else none
  | none => none

/-! ### How a command ends (14 R414, R415) -/

/-- A command that is not performed completes with a status. -/
def nvmeFail (s : State) (n status : Nat) : State :=
  let s := finishOp s n status 0 0
  { s with stor := { s.stor with cmds := Tab.del s.stor.cmds n } }

/-- Post a command's data and complete it; Data Transfer Error where host memory cannot be reached. -/
def nvmeAnswer (s : State) (n : Nat) (cmd : NCmd) (bs : List Byte) : State :=
  match prpWrite s cmd bs with
  | some s => finishOk s n 0
  | none => nvmeFail s n stHostError

/-! ### Namespaces (14 R410) -/

/-- STOR_NS(c, k) as it stands. -/
def nsWords (s : State) (c k : Nat) : List Nat :=
  let i := 16 * c + k
  [(getReg s .storNsCtl i).toNat, getF s Fld.storNsConn i, getF s Fld.storNsRkey i, getF s Fld.storNsKey i, getF s Fld.storNsBase i, getF s Fld.storNsLbas i]

/-- Fields of an entry (14 Table 14.4). -/
def nsEncrypts (ns : List Nat) : Bool := nsBit ns 1
def nsRemote (ns : List Nat) : Bool := nsBit ns 2
def nsLba (ns : List Nat) : Nat := if nsBit ns 3 then 4096 else 512
def nsPort (ns : List Nat) : Nat := fieldOf (ns.getD 0 0) 10 8
def nsKey (ns : List Nat) : Nat := ns.getD 3 0
def nsBase (ns : List Nat) : Nat := ns.getD 4 0
def nsLbas (ns : List Nat) : Nat := ns.getD 5 0

/-- The entry of a namespace that a command names, if it exists. -/
def nsOf (s : State) (c nsid : Nat) : Option (List Nat) :=
  let ns := nsWords s c (nsid - 1)
  if 1 ≤ nsid ∧ nsid ≤ 16 ∧ nsBit ns 0 = true then some ns else none

/-- First LBA and number of LBAs of a Read, a Write or a Write Zeroes. -/
def cmdSlba (n : NCmd) : Nat := n.cdw10 % 2 ^ 32 + n.cdw11 % 2 ^ 32 * 2 ^ 32
def cmdNlb (n : NCmd) : Nat := n.cdw12 % 65536 + 1

/-- Ranges of a Dataset Management: first LBA and LBAs. -/
def dsmRanges (b : Backend) : List (Nat × Nat) :=
  (List.range (b.cmd.cdw10 % 256 + 1)).map (fun i => (leAt b.data (16 * i + 8) 8, leAt b.data (16 * i + 4) 4))

/-- Opcodes of Table 14.3. -/
def opcFlush : Nat := 0x00
def opcWrite : Nat := 0x01
def opcRead : Nat := 0x02
def opcZeroes : Nat := 0x08
def opcDsm : Nat := 0x09

/-- Whether a command's opcode is one of Read, Write, Write Zeroes. -/
def movesLbas (opc : Nat) : Bool := opc == opcWrite || opc == opcRead || opc == opcZeroes

/-- The status that an I/O command meets before it is performed (14 R409, R410). -/
def ioBad (s : State) (b : Backend) : Option Nat :=
  match nsOf s b.cmd.ctrl b.cmd.nsid with
  | none => some stInvalidNs
  | some ns =>
    if movesLbas b.opc then
      if b.opc ≠ opcZeroes ∧ 131072 < cmdNlb b.cmd * nsLba ns then some stInvalidField
      else if nsLbas ns < cmdSlba b.cmd + cmdNlb b.cmd then some stLbaRange
      else if b.opc ≠ opcRead ∧ nsBit ns 16 = true then some stWriteProtected
      else none
    else if b.opc = opcDsm then
      if b.cmd.cdw11 % 8 ≠ 4 then some stInvalidField
      else if (dsmRanges b).any (fun r => decide (nsLbas ns < r.1 + r.2)) then some stLbaRange
      else if nsBit ns 16 then some stWriteProtected
      else none
    else none

/-- What a command is charged (14 R413). -/
def nvmeCost (s : State) (b : Backend) : Nat :=
  if 0x100 ≤ b.opc then 0
  else
    let ns := nsWords s b.cmd.ctrl (b.cmd.nsid - 1)
    Nat.max 4096 (if movesLbas b.opc then cmdNlb b.cmd * nsLba ns else 0)

/-! ### Asynchronous events (14 R410, Table 14.2) -/

/-- The Asynchronous Event Request of a controller with a CID. -/
def aerOp (s : State) (c cid : Nat) : Option Nat :=
  (opsWhere s (fun o => o.opcode == 0x410C && (match o.src with
    | .nvme c' _ i => c' == c && i == cid
    | _ => false))).head?

/-- Deliver an event by the oldest outstanding request, or keep it, once, for the next. -/
def ctrlEvent (s : State) (c ev : Nat) : State :=
  let x := ctrlOf s c
  match x.aers with
  | cid :: rest =>
    let s := setCtrl s c { x with aers := rest }
    match aerOp s c cid with
    | some n => finishOk s n ev
    | none => s
  | [] => if x.events.contains ev then s else setCtrl s c { x with events := x.events ++ [ev] }

/-- Namespace Attribute Changed: type Notice, information 0, log page 0x04. -/
def evNsChanged : Nat := 0x040002

/-! ### Features (14 Table 14.2) -/

/-- A feature's value before it is set: every event enabled, the write cache on, no coalescing (DESIGN CHOICE, log 92). -/
def featDefault (f : Nat) : Nat := if f = 0x0B then 0x1FF else if f = 0x06 then 1 else 0

/-- The key of a feature's value: Interrupt Vector Configuration has one per vector. -/
def featKey (fid cdw11 : Nat) : Nat := if fid = 0x09 then 0x09 + 256 * (cdw11 % 65536) else fid

/-- A feature's value. -/
def featOf (x : Ctrl) (key : Nat) : Nat := Tab.get (featDefault key) x.feats key

/-- Whether a feature is offered. -/
def featOffered (fid : Nat) : Bool := [0x01, 0x06, 0x07, 0x08, 0x09, 0x0B].contains fid

/-- What Get Features, and Set Features of the number of queues, return: 64 of each, counted from 0. -/
def featValue (x : Ctrl) (fid key : Nat) : Nat := if fid = 0x07 then 0x003F003F else featOf x key

/-- The check of a feature command. -/
def featBad (b : Backend) : Bool :=
  !featOffered (b.cmd.cdw10 % 256) || fieldOf b.cmd.cdw10 31 8 != 0 || (b.cmd.cdw10 % 256 == 0x09 && decide (32 ≤ b.cmd.cdw11 % 65536))

/-! ### What Identify and Get Log Page return (14 Table 14.1, R414) -/

/-- Bytes with others laid over them. -/
def overlay (bs : List Byte) (off : Nat) (x : List Byte) : List Byte := bs.take off ++ x ++ bs.drop (off + x.length)

/-- Lay fields over free bytes: offset, size, value. -/
def fields (bs : List Byte) (fs : List (Nat × Nat × Nat)) : List Byte := fs.foldl (fun bs f => overlay bs f.1 (leBytes f.2.1 f.2.2)) bs

/-- Identify Controller: what Tables 7.1 and 14.1 give; the rest is free. -/
def identifyCtrl (free : List Byte) : List Byte :=
  fields free [(0, 2, 0xC7F2), (2, 2, 0xC7F2), (77, 1, 5), (80, 4, 0x20000), (111, 1, 1), (256, 2, 0), (259, 1, 3), (262, 1, 63), (512, 1, 0x66), (513, 1, 0x44), (516, 4, 16), (520, 2, 0x0C), (525, 1, 1), (536, 4, 0)]

/-- Identify Namespace: size, formats without metadata or protection, DLFEAT 0, write protection; the rest is free. -/
def identifyNs (free : List Byte) (ns : List Nat) : List Byte :=
  fields free [(0, 8, nsLbas ns), (8, 8, nsLbas ns), (16, 8, nsLbas ns), (25, 1, 1), (26, 1, if nsBit ns 3 then 1 else 0), (27, 1, 0), (28, 1, 0), (29, 1, 0), (33, 1, 0), (99, 1, if nsBit ns 16 then 1 else 0), (128, 4, 9 * 65536), (132, 4, 12 * 65536)]

/-- The list of namespaces above an NSID. -/
def identifyList (s : State) (c above : Nat) : List Byte :=
  let ids := (List.range 16).filter (fun k => decide (above < k + 1) && (nsOf s c (k + 1)).isSome)
  let bs := (ids.map (fun k => leBytes 4 (k + 1))).flatten
  bs ++ List.replicate (4096 - bs.length) 0

/-- Error Information: the newest entry first. -/
def errorLog (x : Ctrl) (free : List Byte) : List Byte :=
  ((List.range 64).map (fun i =>
    match x.errors[i]? with
    | some (sq, cid, st, r) =>
      fields ((free.drop (64 * i)).take 64) [(0, 8, x.errCount - i), (8, 2, sq), (10, 2, cid), (12, 2, st * 2), (32, 8, r.toNat)]
    | none => List.replicate 64 0)).flatten

/-- Commands Supported and Effects: Tables 14.2 and 14.3; those that change blocks say so. -/
def effectsLog : List Byte :=
  let row (sup chg : List Nat) : List Byte :=
    ((List.range 256).map (fun o => leBytes 4 ((if sup.contains o then 1 else 0) + if chg.contains o then 2 else 0))).flatten
  row [0x00, 0x01, 0x02, 0x04, 0x05, 0x06, 0x08, 0x09, 0x0A, 0x0C] [] ++ row [0x00, 0x01, 0x02, 0x08, 0x09] [0x01, 0x08, 0x09] ++ List.replicate 2048 0

/-- A log page, if it is offered. -/
def logPage (s : State) (c lid : Nat) : Option (List Byte × State) :=
  let free := hostDraw s (if lid = 0x01 then 4096 else 512)
  if lid = 0x01 then some (errorLog (ctrlOf s c) free.1, free.2)
  else if lid = 0x02 then some free
  else if lid = 0x05 then some (effectsLog, s)
  else none

/-- Identify's answer, or the status it meets. -/
def identifyData (s : State) (n : NCmd) : Except Nat (List Byte × State) :=
  let free := hostDraw s 4096
  let cns := n.cdw10 % 256
  if cns = 1 then .ok (identifyCtrl free.1, free.2)
  else if cns = 2 then .ok (identifyList s n.ctrl n.nsid, s)
  else if cns = 0 ∨ cns = 3 then
    match nsOf s n.ctrl n.nsid with
    | none => .error stInvalidNs
    | some ns => .ok (if cns = 0 then identifyNs free.1 ns else free.1, free.2)
  else .error stInvalidField

/-! ### Admin commands (14 Table 14.2) -/

/-- Create I/O Submission Queue: the status it meets, or the state. -/
def createSq (s : State) (n : NCmd) : Except Nat State :=
  let x := ctrlOf s n.ctrl
  let id := n.cdw10 % 65536
  let size := fieldOf n.cdw10 31 16 + 1
  if id = 0 ∨ 64 < id ∨ (Tab.lookup x.sqs id).isSome = true then .error (nst 1 0x01)
  else if size = 1 ∨ 4096 < size then .error (nst 1 0x02)
  else if bitN n.cdw11 0 = false ∨ n.prp1 % ctrlPage x ≠ 0 then .error stInvalidField
  else
    let cq := fieldOf n.cdw11 31 16
    if cq = 0 ∨ (Tab.lookup x.cqs cq).isNone = true then .error (nst 1 0x00)
    else .ok (setCtrl s n.ctrl { x with sqs := Tab.put x.sqs id { size := size, base := n.prp1, cq := cq } })

/-- Create I/O Completion Queue. -/
def createCq (s : State) (n : NCmd) : Except Nat State :=
  let x := ctrlOf s n.ctrl
  let id := n.cdw10 % 65536
  let size := fieldOf n.cdw10 31 16 + 1
  let vec := fieldOf n.cdw11 31 16
  if id = 0 ∨ 64 < id ∨ (Tab.lookup x.cqs id).isSome = true then .error (nst 1 0x01)
  else if size = 1 ∨ 4096 < size then .error (nst 1 0x02)
  else if bitN n.cdw11 0 = false ∨ n.prp1 % ctrlPage x ≠ 0 then .error stInvalidField
  else if 32 ≤ vec then .error (nst 1 0x08)
  else .ok (setCtrl s n.ctrl { x with cqs := Tab.put x.cqs id { size := size, base := n.prp1, vec := vec, ien := bitN n.cdw11 1 } })

/-- Delete I/O Submission Queue: its commands end, Command Aborted due to SQ Deletion. -/
def deleteSq (s : State) (n : NCmd) : Except Nat State :=
  let id := n.cdw10 % 65536
  if id = 0 ∨ (Tab.lookup (ctrlOf s n.ctrl).sqs id).isNone = true then .error (nst 1 0x01)
  else
    let mine := opsWhere s (fun o => match o.src with
      | .nvme c q _ => c == n.ctrl && q == id
      | _ => false)
    let s := mine.foldl (fun s m => finishOp s m 0x1008 0 0) s
    let x := ctrlOf s n.ctrl
    .ok (setCtrl s n.ctrl { x with sqs := Tab.del x.sqs id })

/-- Delete I/O Completion Queue. -/
def deleteCq (s : State) (n : NCmd) : Except Nat State :=
  let x := ctrlOf s n.ctrl
  let id := n.cdw10 % 65536
  if id = 0 ∨ (Tab.lookup x.cqs id).isNone = true then .error (nst 1 0x01)
  else if x.sqs.any (fun e => e.2.cq == id) then .error (nst 1 0x0C)
  else .ok (setCtrl s n.ctrl { x with cqs := Tab.del x.cqs id })

/-- Complete a command that returns no data. -/
def nvmeEither (s : State) (n : Nat) (r : Except Nat State) : State :=
  match r with
  | .error st => nvmeFail s n st
  | .ok s => finishOk s n 0

/-- Get Log Page. -/
def getLog (s : State) (n : Nat) (cmd : NCmd) : State :=
  match logPage s cmd.ctrl (cmd.cdw10 % 256) with
  | none => nvmeFail s n stInvalidField
  | some (log, s) =>
    let len := 4 * (fieldOf cmd.cdw10 31 16 + cmd.cdw11 % 65536 * 65536 + 1)
    let at_ := log.drop (cmd.cdw12 % 2 ^ 32)
    if 131072 < len then nvmeFail s n stInvalidField
    else nvmeAnswer s n cmd (at_.take len ++ List.replicate (len - at_.length) 0)

/-- Abort (14 R415): decided here; a target still outstanding is short of its commit point. -/
def abortCmd (s : State) (n : Nat) (cmd : NCmd) : State :=
  let sq := cmd.cdw10 % 65536
  let cid := fieldOf cmd.cdw10 31 16
  match (opsWhere s (fun o => decide (o.src = .nvme cmd.ctrl sq cid))).find? (· != n) with
  | none => finishOk s n 1
  | some t =>
    let s := finishOp s t 0x24 0 0
    let x := ctrlOf s cmd.ctrl
    let s := if sq = 0 then setCtrl s cmd.ctrl { x with aers := x.aers.filter (· != cid) } else s
    finishOk s n 0

/-- Asynchronous Event Request: up to 4 wait. -/
def awaitEvent (s : State) (n : Nat) (cmd : NCmd) : State :=
  let x := ctrlOf s cmd.ctrl
  match x.events with
  | ev :: rest => finishOk (setCtrl s cmd.ctrl { x with events := rest }) n ev
  | [] => if 4 ≤ x.aers.length then nvmeFail s n (nst 1 0x05) else setCtrl s cmd.ctrl { x with aers := x.aers ++ [cmd.cid] }

/-- Perform an admin command: the storage bay's firmware executes it. -/
def adminStart (s : State) (n : Nat) (b : Backend) : State :=
  let x := ctrlOf s b.cmd.ctrl
  let fid := b.cmd.cdw10 % 256
  let key := featKey fid b.cmd.cdw11
  match b.opc - 0x100 with
  | 0x00 => nvmeEither s n (deleteSq s b.cmd)
  | 0x01 => nvmeEither s n (createSq s b.cmd)
  | 0x02 => getLog s n b.cmd
  | 0x04 => nvmeEither s n (deleteCq s b.cmd)
  | 0x05 => nvmeEither s n (createCq s b.cmd)
  | 0x06 => (match identifyData s b.cmd with
    | .error st => nvmeFail s n st
    | .ok (bs, s) => nvmeAnswer s n b.cmd bs)
  | 0x08 => abortCmd s n b.cmd
  | 0x09 => if featBad b then nvmeFail s n stInvalidField
    else
      let s := setCtrl s b.cmd.ctrl { x with feats := Tab.store (featDefault key) x.feats key b.cmd.cdw11 }
      finishOk s n (if fid = 0x07 then featValue x fid key else 0)
  | 0x0A => if featBad b then nvmeFail s n stInvalidField else finishOk s n (featValue x fid key)
  | _ => awaitEvent s n b.cmd

/-! ### I/O commands (14 R410 to R417) -/

/-- A command's back-end work has ended well: it commits and is counted. -/
def ioDone (s : State) (n : Nat) (b : Backend) : State :=
  let bytes := if movesLbas b.opc then cmdNlb b.cmd * nsLba b.ns else 0
  finishOk (bumpN (bump s Fld.storCmdCnt 0) Fld.storByteCnt 0 bytes) n 0

/-- A command's back-end work has failed otherwise than by a lost back-end. -/
def ioError (s : State) (n status : Nat) : State := nvmeFail (bump s Fld.storBackendErrCnt 0) n status

/-- The bytes of the key that an encrypting namespace's commands use, or the status it meets (14 R417, R426). -/
def ioKey (s : State) (bay : Nat) (ns : List Nat) : Except Nat (Option (List Byte)) :=
  if !nsEncrypts ns then .ok none
  else
    match keyOfHandle s (nsKey ns) with
    | none => .error 0xA0
    | some k => if k.kind = 1 ∧ keyPermits k bay = true then .ok (some k.bytes) else .error 0xA1

/-- Encrypt or decrypt blocks from a namespace LBA on (14 R417). -/
def ioCrypt (enc : Bool) (key : Option (List Byte)) (ns : List Nat) (slba : Nat) (bs : List Byte) : List Byte :=
  match key with
  | none => bs
  | some k => xtsUnits enc k (nsLba ns) slba bs

/-- Bytes filled up with zeros, or cut, to a length. -/
def sized (bs : List Byte) (n : Nat) : List Byte := bs.take n ++ List.replicate (n - bs.length) 0

/-- What a command writes to its back-end. -/
def ioData (b : Backend) (ns : List Nat) (key : Option (List Byte)) : List Byte :=
  let len := cmdNlb b.cmd * nsLba ns
  if b.opc = opcWrite then ioCrypt true key ns (cmdSlba b.cmd) (sized b.data len)
  else if b.opc = opcZeroes then ioCrypt true key ns (cmdSlba b.cmd) (List.replicate len 0)
  else if b.opc = opcDsm then ((dsmRanges b).map (fun r => leBytes 4 0 ++ leBytes 4 r.2 ++ leBytes 8 (nsBase ns + r.1))).flatten
  else []

/-- Forward a command to the SSD of a local namespace. -/
def ioLocal (s : State) (n : Nat) (b : Backend) (ns : List Nat) (data : List Byte) : State :=
  match ssdLba s (nsPort ns) (ns.getD 1 0) with
  | .error e => if e = 0xA5 then backendFail s n else ioError s n 0xA6
  | .ok _ =>
    let opc := if b.opc = opcZeroes then opcWrite else b.opc
    let at_ := if movesLbas b.opc then (nsBase ns + cmdSlba b.cmd, cmdNlb b.cmd) else (0, if b.opc = opcDsm then b.cmd.cdw10 % 256 + 1 else 0)
    emit s (.ssd (nsPort ns) (ns.getD 1 0) opc at_.1 at_.2 data)

/-- Whether an earlier write to a Flush's namespace has yet to be acknowledged (14 R411). -/
def flushWaits (s : State) (n : Nat) (b : Backend) : Bool :=
  s.stor.cmds.any (fun e => decide (e.1 < n) && (e.2.opc == opcWrite || e.2.opc == opcZeroes) && e.2.cmd.ctrl == b.cmd.ctrl && e.2.cmd.nsid == b.cmd.nsid && !e.2.ns.isEmpty)

/-- Send a command's data to, or ask for it from, the region of a remote namespace (14 R411). -/
def ioRemote (s : State) (n bay : Nat) (b : Backend) (ns : List Nat) (data : List Byte) : State :=
  let c := nsConn ns
  if b.opc = opcFlush then (if flushWaits s n b then s else ioDone s n b)
  else if b.opc = opcDsm then ioDone s n b
  else if !ownsConn s bay c then ioError s n 0xA6
  else
    let len := cmdNlb b.cmd * nsLba ns
    let rd := b.opc == opcRead
    match xptSend s c { who := .backend n, kind := if rd then 2 else 1, n := pktCount (connOf s c).mtu len, rkind := 1, rref := ns.getD 2 0, roffset := nsBase ns + cmdSlba b.cmd * nsLba ns, len := len, data := data } with
    | .ok s => s
    | .error st => if st = 0x50 then backendFail s n else ioError s n 0xA6

/-- An admitted I/O command: it reads its namespace's entry and goes to its back-end (14 R410). -/
def ioStart (s : State) (n bay : Nat) (b : Backend) : State :=
  match ioBad s b, nsOf s b.cmd.ctrl b.cmd.nsid with
  | some st, _ => nvmeFail s n st
  | none, none => nvmeFail s n stInvalidNs
  | none, some ns =>
    match ioKey s bay ns with
    | .error st => nvmeFail s n st
    | .ok key =>
      let b := { b with ns := ns }
      let s := { s with stor := { s.stor with cmds := Tab.put s.stor.cmds n b } }
      if nsRemote ns then ioRemote s n bay b ns (ioData b ns key) else ioLocal s n b ns (ioData b ns key)

/-- An NVM Express command, admitted. -/
def nvmeStart (s : State) (n : Nat) : State :=
  match opOf s n, Tab.lookup s.stor.cmds n with
  | some o, some b => if 0x100 ≤ b.opc then adminStart s n b else ioStart s n o.bay b
  | _, _ => s

/-- The device fetches a command: it is refused, fails its checks, or goes for admission in pool 4 (14 R409, R413). An I/O command's
namespace is looked at here for its cost, and again at admission (DEDUCED, log 90). -/
def nvmeArrive (s : State) (n : NCmd) (admin : Bool) (opc : Nat) (data : List Byte) (bad : Option Nat) : State :=
  if admin ≠ (n.sq == 0) then s
  else
    match nvmeFetch s n with
    | none => s
    | some (t, refused, s) =>
      let num := s.rings.nextOp
      let b : Backend := { cmd := n, opc := if admin then 0x100 + opc else opc, data := data }
      let o : Op := { src := .nvme n.ctrl n.sq n.cid, opcode := 0x4000 + b.opc, arrival := t, bay := getF s Fld.storCtlBay 0, partner := getF s Fld.storCtrlPartner n.ctrl }
      let st := if refused then some stRefReload else bad.or (if admin then none else ioBad s b)
      let s := { s with stor := { s.stor with cmds := Tab.put s.stor.cmds num b } }
      match st with
      | none => arriveOp nvmeStart s { o with pool := 4, cost := nvmeCost s b }
      | some st =>
        let s := putOp { s with rings := { s.rings with nextOp := num + 1 } } num o
        if refused then endEarly s num st else nvmeFail s num st

/-- Whether an opcode is listed in Table 14.2 or 14.3. -/
def opcodeListed (admin : Bool) (opc : Nat) : Bool :=
  if admin then [0x00, 0x01, 0x02, 0x04, 0x05, 0x06, 0x08, 0x09, 0x0A, 0x0C].contains opc else [0x00, 0x01, 0x02, 0x08, 0x09].contains opc

/-- A row whose command is an admin command, or an I/O command. -/
def adminRow (s : State) (n : NCmd) (opc : Nat) : Host.Outcome State Fault Refusal := .next (nvmeArrive s n true opc [] none)
def ioRow (s : State) (n : NCmd) (opc : Nat) (data : List Byte) : Host.Outcome State Fault Refusal := .next (nvmeArrive s n false opc data none)

/-- CREATE_IO_SUBMISSION_QUEUE. -/
def execCreateIoSubmissionQueue (n : NCmd) (s : State) : Host.Outcome State Fault Refusal := adminRow s n 0x01
/-- DELETE_IO_SUBMISSION_QUEUE. -/
def execDeleteIoSubmissionQueue (n : NCmd) (s : State) : Host.Outcome State Fault Refusal := adminRow s n 0x00
/-- CREATE_IO_COMPLETION_QUEUE. -/
def execCreateIoCompletionQueue (n : NCmd) (s : State) : Host.Outcome State Fault Refusal := adminRow s n 0x05
/-- DELETE_IO_COMPLETION_QUEUE. -/
def execDeleteIoCompletionQueue (n : NCmd) (s : State) : Host.Outcome State Fault Refusal := adminRow s n 0x04
/-- GET_LOG_PAGE. -/
def execGetLogPage (n : NCmd) (s : State) : Host.Outcome State Fault Refusal := adminRow s n 0x02
/-- IDENTIFY. -/
def execIdentify (n : NCmd) (s : State) : Host.Outcome State Fault Refusal := adminRow s n 0x06
/-- NVME_ABORT. -/
def execNvmeAbort (n : NCmd) (s : State) : Host.Outcome State Fault Refusal := adminRow s n 0x08
/-- SET_FEATURES. -/
def execSetFeatures (n : NCmd) (s : State) : Host.Outcome State Fault Refusal := adminRow s n 0x09
/-- GET_FEATURES. -/
def execGetFeatures (n : NCmd) (s : State) : Host.Outcome State Fault Refusal := adminRow s n 0x0A
/-- ASYNCHRONOUS_EVENT_REQUEST. -/
def execAsynchronousEventRequest (n : NCmd) (s : State) : Host.Outcome State Fault Refusal := adminRow s n 0x0C
/-- NVME_FLUSH. -/
def execNvmeFlush (n : NCmd) (s : State) : Host.Outcome State Fault Refusal := ioRow s n opcFlush []
/-- NVME_WRITE. -/
def execNvmeWrite (n : NCmd) (data : List Byte) (s : State) : Host.Outcome State Fault Refusal := ioRow s n opcWrite data
/-- NVME_READ. -/
def execNvmeRead (n : NCmd) (s : State) : Host.Outcome State Fault Refusal := ioRow s n opcRead []
/-- WRITE_ZEROES. -/
def execWriteZeroes (n : NCmd) (s : State) : Host.Outcome State Fault Refusal := ioRow s n opcZeroes []
/-- DATASET_MANAGEMENT. -/
def execDatasetManagement (n : NCmd) (ranges : List Byte) (s : State) : Host.Outcome State Fault Refusal := ioRow s n opcDsm ranges
/-- INVALID_COMMAND_OPCODE (14 R409). -/
def execInvalidCommandOpcode (n : NCmd) (opcode : Byte) (s : State) : Host.Outcome State Fault Refusal :=
  .next (if opcodeListed (n.sq == 0) opcode.toNat then s else nvmeArrive s n (n.sq == 0) opcode.toNat [] (some stInvalidOpcode))

/-! ### Back-end completions (14 R411 to R415) -/

/-- Remote Flushes whose earlier writes have all been acknowledged complete. -/
def flushSettle (s : State) : State :=
  s.stor.cmds.foldl (fun s e =>
    if e.2.opc = opcFlush ∧ nsRemote e.2.ns = true ∧ flushWaits s e.1 e.2 = false then
      (match Tab.lookup s.stor.cmds e.1 with
       | some b => if b.ended then backendForget s e.1 else ioDone s e.1 b
       | none => s)
    else s) s

/-- A command's back-end work ends: status type and code, do-not-retry, data. A lost or failed one reports Table 14.5. -/
def ioEnd (s : State) (n : Nat) (b : Backend) (sct sc : Nat) (dnr : Bool) (data : List Byte) : State :=
  if b.ended then backendForget s n
  else if sct = 2 then ioError s n (0x1200 + sc + if dnr then 0x800 else 0)
  else if sct ≠ 0 ∨ sc ≠ 0 then ioError s n 0xA6
  else if b.opc = opcRead then
    match opOf s n, ioKey s ((opOf s n).elim 0 (fun o => o.bay)) b.ns with
    | some _, .ok key =>
      (match prpWrite s b.cmd (ioCrypt false key b.ns (cmdSlba b.cmd) (sized data (cmdNlb b.cmd * nsLba b.ns))) with
       | some s => ioDone s n b
       | none => nvmeFail s n stHostError)
    | _, .error st => nvmeFail s n st
    | none, _ => s
  else ioDone s n b

/-- BACKEND_COMPLETION: an SSD's completion, or the end of a region's message. -/
def execBackendCompletion (op sct sc : Nat) (dnr : Bool) (data : List Byte) (s : State) : Host.Outcome State Fault Refusal :=
  .next
    (match Tab.lookup s.stor.cmds op with
     | none => s
     | some b =>
       if b.ns.isEmpty ∨ (nsRemote b.ns = true ∧ movesLbas b.opc = false) then s
       else if nsRemote b.ns then
         match takeDone s (.backend op) with
         | none => s
         | some (st, bs, s) => flushSettle (ioEnd s op b (if st = 0 then 0 else 7) st true bs)
       else ioEnd s op b sct sc dnr data)

/-- An SSD's link goes down: what is outstanding to it completes STOR_BACKEND_DOWN (14 R412). -/
def ssdLost (s : State) (port : Nat) : State :=
  let s := (backendsOn s (fun ns => !nsRemote ns && nsPort ns == port)).foldl backendFail s
  raiseD s srcStor { code := 0x0901, aux8 := port }

/-! ### Doorbells and controller registers (14 R408, R413; 07 Table 7.6) -/

/-- A submission queue tail doorbell: the commands it is first to cover arrive now. -/
def sqDoorbell (s : State) (c sq tail : Nat) : State :=
  let x := ctrlOf s c
  if !ctrlEnabled x || !ctrlLive s c then s
  else
    match Tab.lookup x.sqs sq with
    | none => s
    | some q =>
      if q.size ≤ tail then s
      else
        let new := (tail + q.size - q.tail) % q.size
        setCtrl s c { x with sqs := Tab.put x.sqs sq { q with tail := tail, arrivals := q.arrivals ++ [(new, s.ftime)] } }

/-- A completion queue head doorbell. -/
def cqDoorbell (s : State) (c cq head : Nat) : State :=
  let x := ctrlOf s c
  match Tab.lookup x.cqs cq with
  | none => s
  | some k => if k.size ≤ head then s else setCtrl s c { x with cqs := Tab.put x.cqs cq { k with head := head } }

/-- End every command of a controller without a completion; its queues go. -/
def ctrlClear (s : State) (c : Nat) : State :=
  let x := ctrlOf s c
  let s := setCtrl s c { cc := x.cc, aqa := x.aqa, asq := x.asq, acq := x.acq }
  (opsWhere s (fun o => match o.src with
    | .nvme c' _ _ => c' == c
    | _ => false)).foldl (fun s n => finishOp s n 0x24 0 0) s

/-- A write of CC: EN from 0 to 1 makes the admin queues, from 1 to 0 resets the controller. -/
def ccWrite (s : State) (c v : Nat) : State :=
  let x := ctrlOf s c
  let s' := setCtrl s c { x with cc := v }
  if bitN v 0 = true ∧ ctrlEnabled x = false then
    let q : Sq := { size := x.aqa % 4096 + 1, base := x.asq / 4096 * 4096, cq := 0 }
    let k : Cq := { size := fieldOf x.aqa 27 16 + 1, base := x.acq / 4096 * 4096, vec := 0, ien := true }
    setCtrl s c { x with cc := v, sqs := [(0, q)], cqs := [(0, k)] }
  else if bitN v 0 = false ∧ ctrlEnabled x = true then ctrlClear s' c
  else s'

/-- A write to a storage VF's BAR0: 4 bytes, or 8 at ASQ and ACQ. Other offsets ignore writes. -/
def nvmeRegWrite (s : State) (c off v : Nat) : State :=
  let x := ctrlOf s c
  let w := v % 2 ^ 32
  if off = 0x0C then setCtrl s c { x with intm := x.intm ||| w }
  else if off = 0x10 then setCtrl s c { x with intm := x.intm - (x.intm &&& w) }
  else if off = 0x14 then ccWrite s c w
  else if off = 0x24 then (if ctrlEnabled x then s else setCtrl s c { x with aqa := w })
  else if off = 0x28 then (if ctrlEnabled x then s else setCtrl s c { x with asq := v })
  else if off = 0x30 then (if ctrlEnabled x then s else setCtrl s c { x with acq := v })
  else if 0x1000 ≤ off ∧ off < 0x1208 ∧ off % 4 = 0 then
    let y := (off - 0x1000) / 4
    if y % 2 = 0 then sqDoorbell s c (y / 2) (w % 65536) else cqDoorbell s c (y / 2) (w % 65536)
  else s

/-- NVME_SQ_DOORBELL. Outside Normal mode BAR0 is closed (14 R416). -/
def execNvmeSqDoorbell (c sq tail : Nat) (s : State) : Host.Outcome State Fault Refusal :=
  .next
    (match ctrlFn s c with
     | some (ep, fn) => gated s (.vf ep fn) (fun s => sqDoorbell s c sq tail)
     | none => s)

/-! ### STOR_NS (14 R410, R429) -/

/-- Whether a requester may write STOR_CTRL and STOR_NS: a PF, or a thread of the storage bay. -/
def storWriter (s : State) (req : Requester) : Bool := Requester.isPf req || Requester.bay s req == some (getF s Fld.storCtlBay 0)

/-- A refused write of the block. -/
def storDenied (s : State) : State := bump s Fld.storDeniedCnt 0

/-- Whether an entry may be made valid: its SSD's namespace has its LBA size and holds its range, its key is an XTS key permitted to
the storage bay. -/
def nsFit (s : State) (ns : List Nat) : Bool :=
  (if nsRemote ns then true
   else
     match Tab.lookup s.stor.ssdNs (nsPort ns * 2 ^ 32 + ns.getD 1 0) with
     | some (big, lbas) => big == nsBit ns 3 && decide (nsBase ns + nsLbas ns ≤ lbas)
     | none => false) &&
  (match ioKey s (getF s Fld.storCtlBay 0) ns with
   | .ok _ => true
   | .error _ => false)

/-- A write of an entry's word +0x00. -/
def nsCtlWrite (s : State) (req : Requester) (c k v : Nat) : State :=
  let i := 16 * c + k
  let was := flagF s Fld.storNsCtlValid i
  if !storWriter s req || (bitN v 0 && !nsFit s (v :: (nsWords s c k).drop 1)) then storDenied s
  else
    let t := setReg s .storNsCtl i (BitVec.ofNat 64 (v % 2 ^ 32 &&& 0x1070F))
    if was = bitN v 0 then t else ctrlEvent t c evNsChanged

/-- NAMESPACE_VALID_WRITE. -/
def execNamespaceValidWrite (req : Requester) (c k : Nat) (v : Word) (s : State) : Host.Outcome State Fault Refusal :=
  .next (gated s req (fun s => nsCtlWrite s req c k v.toNat))

end Sys2Proof.Machine
end

