-- ==== Sys2Proof/Machine/Crypto.lean ====
section
/-! DEFINITION. Keys, CRYPT and the rollback floor (14 R421, R425 to R427, Tables 14.9, 14.10). -/

namespace Sys2Proof.Machine

/-! ### Keys (14 R425, R426) -/

/-- A key's entry. -/
def keyAt (s : State) (i : Nat) : Key := Tab.get {} s.stor.keys i

/-- Change a key's entry; SEC_KEY_COUNT counts the keys loaded. -/
def setKey (s : State) (i : Nat) (k : Key) : State :=
  let keys := Tab.store {} s.stor.keys i k
  setF { s with stor := { s.stor with keys := keys } } Fld.secKeyCount 0 ((keys.filter (fun e => e.2.kind != 0)).length)

/-- Bytes of a key's material by kind: XTS, GCM with its salt. -/
def keySize (kind : Nat) : Nat := if kind = 1 then 64 else 36

/-- The handle of a key. -/
def keyHandle (i gen : Nat) : Nat := i + gen * 4096

/-- KEY_LOAD, admitted: the key takes the lowest free index (14 R426). -/
def keyLoadStart (s : State) (n : Nat) (o : Op) : State :=
  match (List.range 4096).find? (fun i => (keyAt s i).kind == 0) with
  | none => finishOp s n 0xA3 0 0
  | some i =>
    let kind := leAt o.body 0 1
    let a := leAt o.body 0x10 8
    match rangeReach s o a (keySize kind) .read with
    | some st => finishOp s n stHostError 0 st
    | none =>
      let gen := if (keyAt s i).gen = 255 then 1 else (keyAt s i).gen + 1
      let s := holdRange s (opFn s o) a (keySize kind)
      let k : Key := { kind := kind, gen := gen, mask := BitVec.ofNat 64 (leAt o.body 8 8), bytes := sourceBytes s a (keySize kind) o.data }
      finishOk (setKey s i k) n (keyHandle i gen)

/-- Whether an enabled namespace or an open connection names a key. -/
def keyNamed (s : State) (h : Nat) : Bool :=
  (List.range 2048).any (fun i => flagF s Fld.storNsCtlValid i && flagF s Fld.storNsCtlEncrypt i && getF s Fld.storNsKey i == h) ||
  s.xpt.conns.any (fun e => e.2.st != 0 && e.2.sec && e.2.key == h)

/-- Whether an admitted command uses a key. A CRYPT has ended when it has been admitted, a coprocessor's when it has issued. -/
def keyUsed (s : State) (h : Nat) : Bool :=
  s.stor.cmds.any (fun e => !e.2.ended && !e.2.ns.isEmpty && nsEncrypts e.2.ns && nsKey e.2.ns == h)

/-- KEY_DESTROY, admitted (14 R426). -/
def keyDestroyStart (s : State) (n : Nat) (o : Op) : State :=
  let h := leAt o.body 0 4
  if (keyOfHandle s h).isNone then finishOp s n 0xA0 0 0
  else if keyNamed s h then finishOp s n 0xA2 0 0
  else s

/-- KEY_DESTROY_DONE: nothing uses the key any more, and it is erased. -/
def execKeyDestroyDone (op : Nat) (s : State) : Host.Outcome State Fault Refusal :=
  .next
    (match running s op 0x0701 with
     | none => s
     | some o =>
       let h := leAt o.body 0 4
       match keyOfHandle s h with
       | none => finishOp s op 0xA0 0 0
       | some k => if keyUsed s h then s else finishOk (setKey s (h % 4096) { gen := k.gen }) op 0)

/-! ### CRYPT (14 Table 14.10) -/

/-- Fields of a control block. -/
def cbOp (cb : List Byte) : Nat := leAt cb 0 1
def cbUnit (cb : List Byte) : Nat := leAt cb 1 1
def cbSrc (cb : List Byte) : Nat := leAt cb 0x08 8
def cbDst (cb : List Byte) : Nat := leAt cb 0x10 8
def cbLen (cb : List Byte) : Nat := leAt cb 0x18 4
def cbTag (cb : List Byte) : Nat := leAt cb 0x20 8
def cbAad (cb : List Byte) : Nat := leAt cb 0x34 4

/-- Whether a control block is well formed. Its GCM data begin with the authenticated part, which is not written (DEDUCED, log 95). -/
def cbOk (cb : List Byte) : Bool :=
  let op := cbOp cb
  decide (1 ≤ op ∧ op ≤ 5 ∧ 1 ≤ cbLen cb ∧ cbLen cb ≤ 2 ^ 31) && zeroAt cb 0x38 8 &&
  (if op ≤ 2 then decide (cbAad cb ≤ cbLen cb)
   else if op ≤ 4 then (cbUnit cb == 9 || cbUnit cb == 12) && cbLen cb % 2 ^ cbUnit cb == 0
   else true)

/-- Bytes written at the destination. -/
def cbOut (cb : List Byte) : Nat := if cbOp cb = 5 then 48 else if cbOp cb ≤ 2 then cbLen cb - cbAad cb else cbLen cb

/-- Ranges a control block names beside itself: address, length, access. -/
def cbRanges (cb : List Byte) : List (Nat × Nat × AccKind) :=
  [(cbSrc cb, cbLen cb, .read), (cbDst cb, cbOut cb, .write)] ++
  (if cbOp cb = 1 then [(cbTag cb, 16, .write)] else if cbOp cb = 2 then [(cbTag cb, 16, .read)] else [])

/-- The work of a control block: the bytes for the destination and, of a seal, the tag; none where an open's tag fails. -/
def cryptDo (cb key src tag : List Byte) : Option (List Byte × List Byte) :=
  let nonce := (cb.drop 0x28).take 12
  let aad := src.take (cbAad cb)
  let text := src.drop (cbAad cb)
  match cbOp cb with
  | 1 => some (gcmSeal (key.take 32) nonce aad text)
  | 2 => (gcmOpen (key.take 32) nonce aad text tag).map (fun p => (p, []))
  | 3 => some (xtsUnits true key (2 ^ cbUnit cb) (leAt cb 0x28 8) src, [])
  | 4 => some (xtsUnits false key (2 ^ cbUnit cb) (leAt cb 0x28 8) src, [])
  | _ => some (sha384 src, [])

/-- The key that a control block's work uses, or KEY_INVALID (also for a key of the other kind: DEDUCED, log 94) or KEY_DENIED. -/
def cryptKey (s : State) (bay : Nat) (cb : List Byte) (h : Nat) : Except Nat (List Byte) :=
  if cbOp cb = 5 then .ok []
  else
    match keyOfHandle s h with
    | none => .error 0xA0
    | some k =>
      if k.kind ≠ (if cbOp cb ≤ 2 then 2 else 1) then .error 0xA0
      else if keyPermits k bay then .ok k.bytes
      else .error 0xA1

/-- Write the outcome where the control block says, each range by `put`. -/
def cryptPut (put : State → Nat → List Byte → Except Nat State) (s : State) (cb : List Byte) (r : List Byte × List Byte) : Except Nat State :=
  match put s (cbDst cb) r.1 with
  | .error e => .error e
  | .ok s => if cbOp cb = 1 then put s (cbTag cb) r.2 else .ok s

/-- CRYPT, admitted: it is performed. Its op holds the control block and then what its partner's memory gives of source and tag. -/
def cryptStart (s : State) (n : Nat) (o : Op) : State :=
  let cb := o.data.take 64
  let host := o.data.drop 64
  match cryptKey s o.bay cb (leAt o.body 8 4) with
  | .error st => finishOp s n st 0 0
  | .ok key =>
    match (cbRanges cb).findSome? (fun r => rangeReach s o r.1 r.2.1 r.2.2) with
    | some st => finishOp s n stHostError 0 st
    | none =>
      let s := holdRange s (opFn s o) (cbSrc cb) (cbLen cb)
      let src := sourceBytes s (cbSrc cb) (cbLen cb) host
      let tag := sourceBytes s (cbTag cb) 16 (if inHost (cbSrc cb) then host.drop (cbLen cb) else host)
      match cryptDo cb key src tag with
      | none => finishOp (undefRange (bump s Fld.secGcmFailCnt 0) (cbDst cb) (cbOut cb)) n 0xA4 0 0
      | some r =>
        match cryptPut (fun s a bs => engWrite s o a bs) s cb r with
        | .error st => finishOp s n stHostError 0 st
        | .ok s => finishOk s n (cbOut cb)

/-! ### The rollback floor (14 R421, R427) -/

/-- Whether an image that is committed carries an svn below a floor: the boot image, the full image, a bay image. -/
def floorAbove (s : State) (f : Nat) : Bool :=
  decide (s.stor.bootSvn < f) || s.thatch.full.any (fun i => decide (imgSvn i < f)) ||
  s.thatch.bays.any (fun e => e.2.image.any (fun i => decide (imgSvn i < f)))

/-- Slots that a FLOOR_ADVANCE revokes: ECDSA in bits 3:0, ML-DSA in bits 7:4. -/
def floorRevokes (o : Op) : Nat := leAt o.body 1 1 + leAt o.body 2 1 * 16

/-- A FLOOR_ADVANCE whose steps are blown completes. -/
def floorDone (s : State) (n : Nat) (o : Op) : State :=
  raiseD (finishOk s n s.stor.fuseFloor) srcSec { code := 0x0903, aux8 := s.stor.fuseFloor, aux16 := floorRevokes o }

/-- FLOOR_ADVANCE, admitted: it commits, revokes and begins to blow. A floor below the present one revokes only (DEDUCED, log 96). -/
def floorStart (s : State) (n : Nat) (o : Op) : State :=
  let f := leAt o.body 0 1
  let usable := s.stor.usable - (s.stor.usable &&& floorRevokes o)
  if floorAbove s f || decide (128 < f) || decide (usable % 16 = 0) || decide (usable / 16 = 0) then finishOp s n 0xA7 0 0
  else
    let s := putOp { s with stor := { s.stor with revoked := s.stor.revoked ||| floorRevokes o, usable := usable } } n { o with st := .committed, aux := f }
    if f ≤ s.stor.fuseFloor then floorDone s n o
    else
      let target := match s.stor.blowing with
        | some (t, m) => if t < f then (f, n) else (t, m)
        | none => (f, n)
      { s with stor := { s.stor with blowing := some target } }

/-- FLOOR_STEP_BLOWN: one step more counts; what waited for it completes. -/
def execFloorStepBlown (s : State) : Host.Outcome State Fault Refusal :=
  .next
    (match s.stor.blowing with
     | none => s
     | some (t, n) =>
       let f := s.stor.fuseFloor + 1
       let s := { s with stor := { s.stor with fuseFloor := f, blowing := if t ≤ f then none else some (t, n) } }
       (s.rings.ops.filter (fun e => e.2.opcode == 0x0703 && decide (e.2.st = .committed ∧ e.2.aux ≤ f))).foldl (fun s e => floorDone s e.1 e.2) s)

/-! ### Engine 0x07 (14 Table 14.9) -/

/-- Whether an operation came in on a PF host ring. -/
def pfRing (s : State) (o : Op) : Bool := qpKind s o.qp == 0 && getF s Fld.qpCtlFunc o.qp == 0

/-- The check of CRYPT at fetch: the control block is read here, for the cost is its length. -/
def cryptCheck (s : State) (o : Op) (host : List Byte) : Verdict :=
  let a := leAt o.body 0 8
  let kind := qpKind s o.qp
  if zeroAt o.body 12 36 = false then .bad stBadDescriptor 0
  else if kind ≠ 0 ∧ kind ≠ 4 then .bad stNotPermitted 0
  else
    match rangeBad s o a 64 .read, rangeReach s o a 64 .read with
    | some e, _ => .bad stAccessFault e
    | none, some st => .bad stHostError st
    | none, none =>
      let cb := sourceBytes s a 64 host
      if !cbOk cb then .bad stBadDescriptor 0
      else
        match (cbRanges cb).findSome? (fun r => rangeBad s o r.1 r.2.1 r.2.2) with
        | some e => .bad stAccessFault e
        | none => .go 0 (if kind = 0 then cbLen cb else 0) (qpPartner s o) (cb ++ if inHost a then host.drop 64 else host) 0

/-- The check of the engine's operations at fetch. -/
def secCheck (s : State) (o : Op) (host : List Byte) : Verdict :=
  match o.opcode with
  | 0x0700 =>
    let kind := leAt o.body 0 1
    if (kind ≠ 1 ∧ kind ≠ 2) ∨ zeroAt o.body 1 7 = false ∨ zeroAt o.body 0x18 24 = false then .bad stBadDescriptor 0
    else if !pfRing s o then .bad stNotPermitted 0
    else
      match rangeBad s o (leAt o.body 0x10 8) (keySize kind) .read with
      | some e => .bad stAccessFault e
      | none => .go 0 0 (qpPartner s o) host 0
  | 0x0701 =>
    if zeroAt o.body 4 44 = false then .bad stBadDescriptor 0
    else if !pfRing s o then .bad stNotPermitted 0
    else .go 0 0 (qpPartner s o) [] 0
  | 0x0702 => cryptCheck s o host
  | 0x0703 =>
    if 16 ≤ leAt o.body 1 1 ∨ 16 ≤ leAt o.body 2 1 ∨ zeroAt o.body 3 45 = false then .bad stBadDescriptor 0
    else if !pfRing s o then .bad stNotPermitted 0
    else .go 0 0 (qpPartner s o) [] 0
  | _ => .bad stBadOpcode 0

/-- What the engine begins at admission. -/
def secStart (s : State) (n : Nat) : State :=
  match opOf s n with
  | none => s
  | some o =>
    match o.opcode with
    | 0x0700 => keyLoadStart s n o
    | 0x0701 => keyDestroyStart s n o
    | 0x0702 => cryptStart s n o
    | _ => floorStart s n o

/-- Engine 0x07. -/
def secSpec : OpSpec := { check := secCheck, start := secStart }

end Sys2Proof.Machine
end

