-- ==== Sys2Proof/Machine/Spdm.lean ====
section
/-! DEFINITION. SPDM and IDE (14 R422 to R424, Tables 14.7, 14.8). The layout of messages and the order in which requests may come are SPDM
1.2's and the IDE key management protocol's (PRESUMED, log 97); what they leave to keys, certificates, nonces and signatures is free. A
message inside a session is shown as its plaintext. -/

namespace Sys2Proof.Machine

/-! ### The responder -/

/-- An endpoint's responder. -/
def spdmOf (s : State) (ep : Nat) : Spdm := Tab.get {} s.stor.spdm ep

/-- Change it. -/
def setSpdm (s : State) (ep : Nat) (x : Spdm) : State := { s with stor := { s.stor with spdm := Tab.store {} s.stor.spdm ep x } }

/-- A response: version, code, two parameters, the rest. -/
def spdmSend (s : State) (ep ver code p1 p2 : Nat) (body : List Byte) : State :=
  emit s (.spdm ep (leBytes 1 ver ++ leBytes 1 code ++ leBytes 1 p1 ++ leBytes 1 p2 ++ body))

/-- A response that ends in free bytes. -/
def spdmFree (s : State) (ep code p1 p2 : Nat) (body : List Byte) (n : Nat) : State :=
  let f := hostDraw s n
  spdmSend f.2 ep 0x12 code p1 p2 (body ++ f.1)

/-- ERROR: 0x01 InvalidRequest, 0x04 UnexpectedRequest, 0x07 UnsupportedRequest, 0x0A SessionLimitExceeded. -/
def spdmError (s : State) (ep e : Nat) : State := spdmSend s ep 0x12 0x7F e 0 []

/-- Whether a session is established. -/
def sessionUp (s : State) (ep id : Nat) : Bool := (spdmOf s ep).sessions.any (fun x => x.id == id && x.established)

/-- Handle a request, the DOE mailbox being reachable; one that names a session that does not exist is unexpected. -/
def spdmRow (s : State) (ep : Nat) (r : SpdmReq) (k : State → State) : Host.Outcome State Fault Refusal :=
  .next
    (if !flagF s Fld.identEpLinkLinkUp ep then s
     else
       match r.session with
       | some id => if (spdmOf s ep).sessions.any (fun x => x.id == id) then k s else spdmError s ep 0x04
       | none => k s)

/-- A request that needs the algorithms negotiated, or a session. -/
def negotiated (s : State) (ep : Nat) (r : SpdmReq) (k : State → State) : State :=
  if (spdmOf s ep).step = 3 ∨ r.session.isSome = true then k s else spdmError s ep 0x04

/-- A request that must come in an established session. -/
def inSession (s : State) (ep : Nat) (r : SpdmReq) (k : Nat → State → State) : State :=
  match r.session with
  | some id => if sessionUp s ep id then k id s else spdmError s ep 0x04
  | none => spdmError s ep 0x04

/-- GET_VERSION: version 1.2 alone; what was negotiated and every session is forgotten. -/
def execGetVersion (ep : Nat) (r : SpdmReq) (s : State) : Host.Outcome State Fault Refusal :=
  spdmRow s ep r (fun s => spdmSend (setSpdm s ep { step := 1 }) ep 0x10 0x04 0 0 (leBytes 1 0 ++ leBytes 1 1 ++ leBytes 2 0x1200))

/-- Capability flags: certificate, challenge, signed measurements, encryption, MAC, key exchange, heartbeat, key update, alias
certificate. -/
def spdmFlags : Nat := 2 + 4 + 16 + 64 + 128 + 512 + 8192 + 16384 + 262144

/-- GET_CAPABILITIES; a message has at most 4,096 DW (07 Table 7.3). -/
def execGetCapabilities (ep : Nat) (r : SpdmReq) (s : State) : Host.Outcome State Fault Refusal :=
  spdmRow s ep r (fun s =>
    if (spdmOf s ep).step = 1 then
      let f := hostDraw (setSpdm s ep { spdmOf s ep with step := 2 }) 1
      spdmSend f.2 ep 0x12 0x61 0 0 (leBytes 1 0 ++ f.1 ++ leBytes 2 0 ++ leBytes 4 spdmFlags ++ leBytes 4 16384 ++ leBytes 4 16384)
    else spdmError s ep 0x04)

/-- NEGOTIATE_ALGORITHMS: of what is offered, ECDSA P-384, SHA-384, secp384r1, AES-256-GCM, the SPDM key schedule, DMTF
measurements. -/
def execNegotiateAlgorithms (ep : Nat) (r : SpdmReq) (s : State) : Host.Outcome State Fault Refusal :=
  spdmRow s ep r (fun s =>
    if (spdmOf s ep).step = 2 then
      let pick (off n bit : Nat) : Nat := if bitN (leAt r.body off n) bit then 2 ^ bit else 0
      let alg (typ sel : Nat) : List Byte := leBytes 1 typ ++ leBytes 1 0x20 ++ leBytes 2 sel
      spdmSend (setSpdm s ep { spdmOf s ep with step := 3 }) ep 0x12 0x63 3 0
        (leBytes 2 48 ++ leBytes 1 (pick 2 1 0) ++ leBytes 1 0 ++ leBytes 4 4 ++ leBytes 4 (pick 4 4 7) ++ leBytes 4 (pick 8 4 1) ++
         leBytes 16 0 ++ alg 2 0x10 ++ alg 3 2 ++ alg 5 1)
    else spdmError s ep 0x04)

/-- GET_DIGESTS: slot 0 only. -/
def execGetDigests (ep : Nat) (r : SpdmReq) (s : State) : Host.Outcome State Fault Refusal :=
  spdmRow s ep r (fun s => negotiated s ep r (fun s => spdmFree s ep 0x01 0 1 [] 48))

/-- GET_CERTIFICATE: up to 4,000 bytes of the chain of slot 0. -/
def execGetCertificate (ep : Nat) (r : SpdmReq) (s : State) : Host.Outcome State Fault Refusal :=
  spdmRow s ep r (fun s => negotiated s ep r (fun s =>
    if r.param1.toNat % 16 ≠ 0 then spdmError s ep 0x01
    else
      let n := Nat.min (leAt r.body 2 2) 4000
      let f := hostDraw s (2 + n)
      spdmSend f.2 ep 0x12 0x02 0 0 (leBytes 2 n ++ f.1)))

/-- CHALLENGE: certificate chain hash, nonce, measurement summary where it is asked for, signature. -/
def execChallenge (ep : Nat) (r : SpdmReq) (s : State) : Host.Outcome State Fault Refusal :=
  spdmRow s ep r (fun s => negotiated s ep r (fun s =>
    if r.param1.toNat % 16 ≠ 0 then spdmError s ep 0x01
    else spdmFree s ep 0x03 0 1 [] (48 + 32 + (if r.param2 = 0 then 0 else 48) + 2 + 96)))

/-! ### Measurements (14 Table 14.8) -/

/-- The digest of an image that is committed, over all of it (04 R108). -/
def imageDigest (img : List Byte) : List Byte := sha384 img

/-- Measurement 5: over the bays in order, epoch and digest of the latest committed image. -/
def bayMeasurement (s : State) : List Byte :=
  sha384 (((List.range 64).filter (bayExists s)).map (fun b => leBytes 4 (getF s Fld.thatchBayEpoch b) ++ imageDigest (storedImage s b))).flatten

/-- A measurement's digest; the ROM's and the fuses' are the unit's own. -/
def measurement (s : State) (i : Nat) : List Byte × State :=
  match i with
  | 2 => (sha384 s.stor.bootFw, s)
  | 3 => (imageDigest (s.thatch.full.getD []), s)
  | 5 => (bayMeasurement s, s)
  | _ => hostDraw s 48

/-- DMTF type of a measurement. -/
def measurementType (i : Nat) : Nat := if i = 1 then 0 else if i = 2 then 1 else if i = 4 then 3 else 2

/-- A measurement block. -/
def measurementBlock (i : Nat) (d : List Byte) : List Byte :=
  leBytes 1 i ++ leBytes 1 1 ++ leBytes 2 51 ++ leBytes 1 (measurementType i) ++ leBytes 2 48 ++ d

/-- Blocks of a list of measurements. -/
def measurementBlocks : State → List Nat → List Byte × State
  | s, [] => ([], s)
  | s, i :: is =>
    let d := measurement s i
    let r := measurementBlocks d.2 is
    (measurementBlock i d.1 ++ r.1, r.2)

/-- GET_MEASUREMENTS: index 0 asks for their number, 0xFF for all; bit 0 of param1 for a signature. -/
def execGetMeasurements (ep : Nat) (r : SpdmReq) (s : State) : Host.Outcome State Fault Refusal :=
  spdmRow s ep r (fun s => negotiated s ep r (fun s =>
    let i := r.param2.toNat
    let is := if i = 0 then [] else if i = 0xFF then [1, 2, 3, 4, 5] else [i]
    if 5 < i ∧ i ≠ 0xFF then spdmError s ep 0x01
    else
      let b := measurementBlocks s is
      let head := leBytes 1 is.length ++ leBytes 3 b.1.length ++ b.1
      let f := hostDraw b.2 (if bitN r.param1.toNat 0 then 128 else 32)
      spdmSend f.2 ep 0x12 0x60 (if i = 0 then 5 else 0) 0 (head ++ f.1.take 32 ++ leBytes 2 0 ++ f.1.drop 32)))

/-! ### Sessions -/

/-- The lowest session number of the responder not in use (DESIGN CHOICE, log 97). -/
def freeSession (x : Spdm) (req : Nat) : Nat :=
  ((List.range 5).find? (fun k => !x.sessions.any (fun y => y.id == req + k * 65536))).getD 0

/-- KEY_EXCHANGE: up to 4 sessions. -/
def execKeyExchange (ep : Nat) (r : SpdmReq) (s : State) : Host.Outcome State Fault Refusal :=
  spdmRow s ep r (fun s => negotiated s ep r (fun s =>
    let x := spdmOf s ep
    if 4 ≤ x.sessions.length then spdmError s ep 0x0A
    else
      let req := leAt r.body 0 2
      let own := freeSession x req
      let s := setSpdm s ep { x with sessions := x.sessions ++ [{ id := req + own * 65536, established := false }] }
      spdmFree s ep 0x64 0 0 (leBytes 2 own ++ leBytes 2 0) (32 + 96 + (if r.param1 = 0 then 0 else 48) + 2 + 96 + 48)))

/-- FINISH establishes its session. -/
def execFinish (ep : Nat) (r : SpdmReq) (s : State) : Host.Outcome State Fault Refusal :=
  spdmRow s ep r (fun s =>
    match r.session with
    | none => spdmError s ep 0x04
    | some id =>
      let x := spdmOf s ep
      if sessionUp s ep id then spdmError s ep 0x04
      else
        let up (y : Session) : Session := if y.id = id then { y with established := true } else y
        spdmSend (setSpdm s ep { x with sessions := x.sessions.map up }) ep 0x12 0x65 0 0 [])

/-- HEARTBEAT. -/
def execHeartbeat (ep : Nat) (r : SpdmReq) (s : State) : Host.Outcome State Fault Refusal :=
  spdmRow s ep r (fun s => inSession s ep r (fun _ s => spdmSend s ep 0x12 0x68 0 0 []))

/-- KEY_UPDATE: the acknowledgement repeats the operation and its tag. -/
def execKeyUpdate (ep : Nat) (r : SpdmReq) (s : State) : Host.Outcome State Fault Refusal :=
  spdmRow s ep r (fun s => inSession s ep r (fun _ s => spdmSend s ep 0x12 0x69 r.param1.toNat r.param2.toNat []))

/-- END_SESSION. -/
def execEndSession (ep : Nat) (r : SpdmReq) (s : State) : Host.Outcome State Fault Refusal :=
  spdmRow s ep r (fun s => inSession s ep r (fun id s =>
    let x := spdmOf s ep
    spdmSend (setSpdm s ep { x with sessions := x.sessions.filter (fun y => y.id != id) }) ep 0x12 0x6C 0 0 []))

/-- Request codes of Table 14.7. -/
def spdmCodes : List Nat := [0x84, 0xE1, 0xE3, 0x81, 0x82, 0x83, 0xE0, 0xE4, 0xE5, 0xE8, 0xE9, 0xEC]

/-- SPDM_UNSUPPORTED_REQUEST. -/
def execSpdmUnsupportedRequest (ep : Nat) (r : SpdmReq) (code : Byte) (s : State) : Host.Outcome State Fault Refusal :=
  if spdmCodes.contains code.toNat then .next s else spdmRow s ep r (fun s => spdmError s ep 0x07)

/-! ### IDE (14 R424) -/

/-- A stream of an endpoint: 0 the link stream, 1 to 8 selective ones. -/
def ideOf (s : State) (ep stream : Nat) : Ide := Tab.get {} s.stor.ide (16 * ep + stream)

/-- Change a stream. -/
def setIde (s : State) (ep stream : Nat) (x : Ide) : State :=
  { s with stor := { s.stor with ide := Tab.store {} s.stor.ide (16 * ep + stream) x } }

/-- An IDE_KM message in an established session of the endpoint. -/
def ideRow (s : State) (ep session : Nat) (k : State → State) : Host.Outcome State Fault Refusal :=
  .next (if flagF s Fld.identEpLinkLinkUp ep && sessionUp s ep session then k s else s)

/-- An IDE_KM response object. -/
def ideSend (s : State) (ep obj stream status : Nat) (keySet rx : Bool) (sub : Nat) : State :=
  emit s (.spdm ep (leBytes 1 obj ++ leBytes 2 0 ++ leBytes 1 stream ++ leBytes 1 status ++
    leBytes 1 ((if keySet then 1 else 0) + (if rx then 0 else 2) + sub * 16) ++ leBytes 1 0))

/-- QUERY: the port's IDE registers follow; they are the endpoint's own. -/
def execQuery (ep session portIndex : Nat) (s : State) : Host.Outcome State Fault Refusal :=
  ideRow s ep session (fun s =>
    let f := hostDraw s 4
    emit f.2 (.spdm ep (leBytes 1 1 ++ leBytes 1 0 ++ leBytes 1 portIndex ++ f.1)))

/-- Whether a key set's three sub-streams have been started in both directions: the stream is then secure. -/
def setGoing (x : Ide) (ks : Bool) : Bool :=
  [false, true].all (fun rx => [0, 1, 2].all (fun sub => x.going.contains (ks, rx, sub)))

/-- The stream with its state brought up to date. -/
def ideSettle (x : Ide) : Ide := { x with secure := setGoing x false || setGoing x true }

/-- KEY_PROG: a 32-byte key and its 8-byte initial invocation field for one sub-stream of a key set. -/
def execKeyProg (ep session stream : Nat) (keySet rx : Bool) (sub : Nat) (key : List Byte) (s : State) : Host.Outcome State Fault Refusal :=
  ideRow s ep session (fun s =>
    let x := ideOf s ep stream
    if key.length ≠ 40 then ideSend s ep 3 stream 1 keySet rx sub
    else if 2 < sub then ideSend s ep 3 stream 3 keySet rx sub
    else
      let keep := x.keys.filter (fun k => !(k.1 == keySet && k.2.1 == rx && k.2.2.1 == sub))
      ideSend (setIde s ep stream { x with keys := (keySet, rx, sub, key) :: keep }) ep 3 stream 0 keySet rx sub)

/-- K_SET_GO: a sub-stream starts under a key set that has been programmed for it. -/
def execKSetGo (ep session stream : Nat) (keySet rx : Bool) (sub : Nat) (s : State) : Host.Outcome State Fault Refusal :=
  ideRow s ep session (fun s =>
    let x := ideOf s ep stream
    if x.keys.any (fun k => k.1 == keySet && k.2.1 == rx && k.2.2.1 == sub) then
      let other := x.going.filter (fun g => !(g.2.1 == rx && g.2.2 == sub))
      ideSend (setIde s ep stream (ideSettle { x with going := (keySet, rx, sub) :: other })) ep 6 stream 0 keySet rx sub
    else ideSend s ep 6 stream 0 keySet rx sub)

/-- K_SET_STOP: the sub-stream stops and its key is erased. -/
def execKSetStop (ep session stream : Nat) (keySet rx : Bool) (sub : Nat) (s : State) : Host.Outcome State Fault Refusal :=
  ideRow s ep session (fun s =>
    let x := ideOf s ep stream
    let keys := x.keys.filter (fun k => !(k.1 == keySet && k.2.1 == rx && k.2.2.1 == sub))
    ideSend (setIde s ep stream (ideSettle { x with keys := keys, going := x.going.filter (fun g => decide (g ≠ (keySet, rx, sub))) })) ep 6 stream 0 keySet rx sub)

/-- A hot reset or PERST_N returns every stream of an endpoint to Insecure and erases its keys. -/
def ideReset (s : State) (ep : Nat) : State :=
  { s with stor := { s.stor with ide := s.stor.ide.filter (fun e => e.1 / 16 != ep) } }

/-! ### Host requests that fail while they are outstanding (07 R204, 14 R424) -/

/-- Whether a held thread waits for the answer of an endpoint's host memory. -/
def waitsHost (ep : Nat) (b : Block) : Bool :=
  b.val.isNone && !b.byMsg && b.slab.isNone && !b.fence && epOfClass (classOf b.addr) == some ep

/-- The answer of a held thread's access is a status of Table 6.8. -/
def failHeld (s : State) (t st : Nat) : State :=
  let x := threadOf s t
  match x.block with
  | some b => setThread s t { x with block := some { b with byMsg := true, ans := some (.failed st) } }
  | none => s

/-- The threads and the copies with a non-posted request outstanding at an endpoint. -/
def hostThreads (s : State) (ep : Nat) : List Nat :=
  (s.rafters.threads.filter (fun e => e.2.block.any (waitsHost ep))).map (fun e => e.1)
def hostCopies (s : State) (ep : Nat) : List Nat :=
  opsWhere s (fun o => o.opcode == 0x0100 && decide (o.st = .admitted) && epOfClass (classOf (copySrc o)) == some ep)

/-- Fail one or another of an endpoint's outstanding requests: all of them, or, where the spec does not say which, each as a free bit
says. -/
def failRequests (s : State) (ep st : Nat) (all : Bool) : State :=
  let each (f : State → Nat → State) (s : State) (n : Nat) : State :=
    if all then f s n else if (drawBit s).1 then f (drawBit s).2 n else (drawBit s).2
  let s := (hostThreads s ep).foldl (each (fun s t => failHeld s t st)) s
  (hostCopies s ep).foldl (each (fun s n => finishOp s n stHostError 0 st)) s

/-- IDE_CHECK_FAILED: the stream goes Insecure. Every request may have used the link stream; which used a selective one the state does
not show. -/
def execIdeCheckFailed (ep stream : Nat) (s : State) : Host.Outcome State Fault Refusal :=
  .next
    (let x := ideOf s ep stream
     if !x.secure then s
     else
       let s := emit (setIde s ep stream { x with secure := false, going := [] }) (.aer ep 0)
       let s := raiseD (bump s Fld.secIdeFailCnt 0) srcSec { code := 0x0902, aux8 := ep, aux16 := stream }
       failRequests s ep 1 (stream == 0))

end Sys2Proof.Machine
end

