-- ==== Sys2Proof/Machine/Gutter.lean ====
section
/-! DEFINITION. The Gutter (15 R430 to R448): its channels and their drains, the trace packets that sources offer, and engine 0x08. What an
event, a refusal or a sample offers by itself stands in Notify.lean. -/

namespace Sys2Proof.Machine

/-! ### Channels (15 R433, R439) -/

/-- A refused write of the block. -/
def gutDenied (s : State) : State := bump s Fld.gutDeniedCnt 0

/-- A write of the block: a PF's only (15 R448). -/
def gutWrite (s : State) (req : Requester) (k : State → State) : State :=
  gated s req (fun s => if Requester.isPf req then k s else gutDenied s)

/-- Flushes of a channel end with a status. -/
def endFlushes (s : State) (c status : Nat) : State :=
  (s.gut.flushes.filter (fun e => e.2.1 == c)).foldl (fun s e => finishOp s e.1 status 0 0) s

/-- A channel is disabled: what it held is gone. -/
def chanDisabled (s : State) (c : Nat) : State :=
  let s := setChan s c { chanOf s c with pkts := [], ovf := none, noRoom := none }
  let s := setF (setF s Fld.gutChStatState c 0) Fld.gutChStatOvfPending c 0
  endFlushes (chanSettle s c) c 0xB0

/-- First unit of a slice and units, in a value of GUT_CH_CTL. -/
def ctlBase (v : Nat) : Nat := fieldOf v 15 8
def ctlSize (v : Nat) : Nat := fieldOf v 24 16

/-- Whether a slice keeps R433: within 256 units, disjoint from those of the enabled channels. -/
def sliceFits (s : State) (c v : Nat) : Bool :=
  decide (1 ≤ ctlSize v ∧ ctlBase v + ctlSize v ≤ 256) &&
  (List.range 4).all (fun k => k == c || !flagF s Fld.gutChCtlEnable k ||
    !overlaps (ctlBase v) (ctlSize v) (getF s Fld.gutChCtlBufBase k) (getF s Fld.gutChCtlBufSize k))

/-- Address of a channel's drain ring. -/
def drainBase (s : State) (c : Nat) : Nat := getF s Fld.gutChDbaseLo c * 65536 + getF s Fld.gutChDbaseHi c * 2 ^ 32

/-- Whether a channel's drain ring keeps R437. -/
def drainRingOk (s : State) (c : Nat) : Bool :=
  let a := drainBase s c
  let n := drainSize s c
  a % n == 0 && (openMem s a n || (match epOfClass (classOf a) with
    | some ep => within a n (hostStart ep) 0x1000000000000
    | none => false))

/-- Store a value in GUT_CH_CTL. -/
def putCtl (s : State) (c v : Nat) : State := setReg s .gutChCtl c (BitVec.ofNat 64 (v &&& 0x1FFFF03))

/-- A write of enable = 1 (15 R433): none where it is refused. -/
def chanStart (s : State) (c v : Nat) : State :=
  if flagF s Fld.gutChCtlEnable c || getF s Fld.gutChStatState c != 0 || !sliceFits s c v || !drainRingOk s c then gutDenied s
  else
    let s := setChan (putCtl s c v) c {}
    let s := [Fld.gutChSeq, Fld.gutChDhead, Fld.gutChDtail].foldl (fun s f => setF s f c 0) s
    let s := clearReg s .gutChStat c
    gutterRun (latchWake s 78 7)

/-- A write of enable = 0 (15 R439). While the channel is not disabled nothing else of the register changes (R433). -/
def chanStop (s : State) (c v : Nat) : State :=
  if getF s Fld.gutChStatState c = 1 then
    let s := setF s Fld.gutChCtlEnable c 0
    if flagF s Fld.gutChStatDrainFault c then chanDisabled s c else setF s Fld.gutChStatState c 2
  else if getF s Fld.gutChStatState c = 2 then s
  else if flagF s Fld.gutChCtlEnable c then setF s Fld.gutChCtlEnable c 0
  else putCtl s c v

/-- A write of GUT_CH_CTL. -/
def chanCtlWrite (s : State) (c v : Nat) : State := if bitN v 0 then chanStart s c v else chanStop s c v

/-- CHANNEL_ENABLE. -/
def execChannelEnable (req : Requester) (c : Nat) (v : Word) (s : State) : Host.Outcome State Fault Refusal :=
  .next (gutWrite s req (fun s => chanCtlWrite s c (v.toNat ||| 1)))

/-- CHANNEL_DISABLE. -/
def execChannelDisable (req : Requester) (c : Nat) (v : Word) (s : State) : Host.Outcome State Fault Refusal :=
  .next (gutWrite s req (fun s => chanCtlWrite s c (v.toNat / 2 * 2)))

/-- CHANNEL_STOP_DONE: a stopping channel has drained its slice. -/
def execChannelStopDone (c : Nat) (s : State) : Host.Outcome State Fault Refusal :=
  .next (if getF s Fld.gutChStatState c = 2 ∧ (chanOf s c).pkts = [] then chanDisabled s c else s)

/-! ### Trace packets (15 R431, R448, Tables 15.1, 15.3) -/

/-- Whether a rafter source's options let a packet through: trap entries, interrupts and ERETs always, branches with itrace_br; loads with
dtrace_ld, stores and atomics with dtrace_st; of the cores of core_mask. -/
def rafterEmits (s : State) (source typ : Nat) (p : List Byte) : Bool :=
  let tid := leAt p 0 2
  let kind := leAt p 2 1
  tid / 128 / 4 == source && bitN (getF s Fld.gutSrcCoreMask source) (tidCore tid) &&
  (if typ = 1 then decide (kind ≤ 3) && (kind != 0 || flagF s Fld.gutSrcItraceBr source)
   else decide (kind ≤ 2) && (if kind = 0 then flagF s Fld.gutSrcDtraceLd source else flagF s Fld.gutSrcDtraceSt source))

/-- Whether a source offers packets of a type, with a payload of this form. -/
def sourceEmits (s : State) (source typ : Nat) (p : List Byte) : Bool :=
  let n := p.length
  if source < 16 then (typ == 1 || typ == 2) && n == 32 && rafterEmits s source typ p
  else if source < 24 then
    let b := Nat.min (leAt p 0 2) 256
    typ == 0x10 && n == 16 + (b + 15) / 16 * 16
  else if source = 36 then typ == 0x30 && n == 32
  else if source = 46 then typ == 0x40 && n == 16
  else if 28 ≤ source ∧ source ≤ 31 ∧ typ = 0x20 then n == 32
  else decide (source < 46) && typ == 0x50 && n == 32

/-- TRACE_PACKET_OFFERED. -/
def execTracePacketOffered (source typ : Nat) (payload : List Byte) (s : State) : Host.Outcome State Fault Refusal :=
  .next (if sourceEmits s source typ payload then offer s source typ payload else s)

/-- The writer that a MARK packet names. -/
def markWriter : Requester → Nat
  | .thread t => t.toNat
  | .pf ep => 0x2000 + ep
  | .vf _ _ => 0

/-- An 8-byte write of GUT_MARK by a PF or a thread. -/
def markWrite (s : State) (req : Requester) (v : Dword) : State :=
  match req with
  | .vf _ _ => gutDenied s
  | _ => offer s 46 0x40 (leBytes 8 v.toNat ++ leBytes 8 (markWriter req))

/-- GUT_MARK. -/
def execGutMark (req : Requester) (_ : Nat) (v : Dword) (s : State) : Host.Outcome State Fault Refusal :=
  .next (gated s req (fun s => markWrite s req v))

/-! ### Draining (15 R437, R438) -/

/-- Write a packet into a ring, past its end on to its start. -/
def ringWrite (s : State) (base size at_ : Nat) (p : List Byte) : State :=
  deviceWrite (deviceWrite s (base + at_) (p.take (size - at_))) base (p.drop (size - at_))

/-- Notify a channel's consumer. -/
def chanFire (s : State) (c : Nat) : State :=
  let s := setChan s c { chanOf s c with unann := 0 }
  notify s (getF s Fld.gutChNotifyMode c) (getF s Fld.gutChNotifyTarget c) (getF s Fld.gutChOwnerEp c) 0 (getF s Fld.gutChOwnerBay c)

/-- A drain write fails: Table 6.8 code, R168 reason (15 R438). A stopping channel then discards its slice at once (R439). -/
def drainFault (s : State) (c status reason : Nat) : State :=
  let a := drainBase s c + getF s Fld.gutChDtail c
  let s := bump (setF s Fld.gutChStatDrainFault c 1) Fld.gutDrainFaultCnt 0
  let s := raiseD s none { code := 0x0A04, aux8 := c, aux16 := status % 16 + reason % 16 * 256, arg0 := a }
  if getF s Fld.gutChStatState c = 2 then chanDisabled s c else s

/-- Whether a channel drains: running or stopping, without a fault, in a Gutter that runs. -/
def chanDrains (s : State) (c : Nat) : Bool :=
  getF s Fld.gutChStatState c != 0 && !flagF s Fld.gutChStatDrainFault c && domUp s 78

/-- DRAIN_WRITE_DONE: the oldest packet is performed in the ring. -/
def execDrainWriteDone (c : Nat) (s : State) : Host.Outcome State Fault Refusal :=
  .next
    (match (chanOf s c).pkts with
     | [] => s
     | (_, p) :: rest =>
       if !chanDrains s c || !drainFits s c p then s
       else
         match reachStatus s (drainBase s c) 0 with
         | some st => drainFault s c st 0
         | none =>
           let t := getF s Fld.gutChDtail c
           let s := ringWrite s (drainBase s c) (drainSize s c) t p
           let s := bump (setF s Fld.gutChDtail c ((t + p.length) % drainSize s c)) Fld.gutChPktCnt c
           let x := chanOf s c
           let s := setChan s c { x with pkts := rest, unann := x.unann + 1, unannAt := if x.unann = 0 then s.ftime else x.unannAt }
           let s := if getF s Fld.gutChNotifyCoalCount c ≤ x.unann + 1 then chanFire s c else s
           let s := chanSettle s c
           if getF s Fld.gutChStatState c = 1 then chanOverflow s c else s)

/-- A write of DHEAD: within the span up to DTAIL, or discarded. -/
def dheadSet (s : State) (c v : Nat) : State :=
  let z := drainSize s c
  if v < z ∧ (v + z - getF s Fld.gutChDhead c) % z ≤ drainUsed s c then drainCheck (setF s Fld.gutChDhead c v) c else gutDenied s

/-- DHEAD_WRITE. -/
def execDheadWrite (req : Requester) (c : Nat) (v : Word) (s : State) : Host.Outcome State Fault Refusal :=
  .next (gutWrite s req (fun s => dheadSet s c v.toNat))

/-- DRAIN_STALL_TIMEOUT. -/
def execDrainStallTimeout (c : Nat) (s : State) : Host.Outcome State Fault Refusal :=
  .next
    (match (chanOf s c).noRoom with
     | none => s
     | some t =>
       if !chanDrains s c || flagF s Fld.gutChStatDrainStall c then s
       else
         let s := setF (reach s (t + getF s Fld.gutChStall c * 1000)) Fld.gutChStatDrainStall c 1
         raiseD s none { code := 0x0A03, aux8 := c, arg0 := getF s Fld.gutChDhead c, arg1 := getF s Fld.gutChDtail c })

/-- DRAIN_WRITE_FAULT. -/
def execDrainWriteFault (c status reason : Nat) (s : State) : Host.Outcome State Fault Refusal :=
  .next
    (match (chanOf s c).pkts with
     | [] => s
     | (_, p) :: _ => if chanDrains s c && drainFits s c p then drainFault s c status reason else s)

/-! ### Engine 0x08 (15 R444 to R447, Table 15.7) -/

/-- Rows of a bank. -/
def bankRows (bank : Nat) : Nat := if bank = 0 then 1024 else 4224

/-- Whether an operation's ring may name anything: a PF host ring; or only its bay's (15 R444). -/
def rowsAllowed (s : State) (o : Op) (bank first count : Nat) : Bool :=
  decide (first + count ≤ bankRows bank) &&
  (pfRing s o || bank == 0 || within first count (envOf s o.bay).ringFirst (envOf s o.bay).ringCount)
def connsAllowed (s : State) (o : Op) (first count : Nat) : Bool :=
  decide (first + count ≤ 2 ^ 20) &&
  (pfRing s o || within first count (getF s Fld.xptBayConnFirst o.bay) (getF s Fld.xptBayConnCount o.bay))
def chanAllowed (s : State) (o : Op) (c : Nat) : Bool := pfRing s o || getF s Fld.gutChOwnerBay c == o.bay

/-- The bytes of a row (15 Table 15.6). -/
def rowImage (t : Tab Nat) (row : Nat) : List Byte := ((List.range 20).map (fun i => leBytes 8 (Tab.get 0 t (20 * row + i)))).flatten

/-- Zero rows. -/
def rowsClear (t : Tab Nat) (first count : Nat) : Tab Nat := t.filter (fun e => !decide (20 * first ≤ e.1 ∧ e.1 < 20 * (first + count)))

/-- GSNAP, admitted (15 R445). Every row is copied in one step of the model. -/
def gsnapStart (s : State) (n : Nat) (o : Op) : State :=
  let bank := leAt o.body 0 1
  let first := leAt o.body 4 4
  let count := leAt o.body 8 4
  let t := if bank = 0 then s.gut.late else s.gut.adm
  let bs := leBytes 4 bank ++ leBytes 4 first ++ leBytes 4 count ++ leBytes 4 0 ++ leBytes 8 s.ftime ++ leBytes 8 s.ftime ++
    ((List.range count).map (fun i => rowImage t (first + i))).flatten
  match engWrite s o (leAt o.body 0x10 8) bs with
  | .error st => finishOp s n stHostError 0 st
  | .ok s =>
    let s := if bitN (leAt o.body 1 1) 0 then
        (if bank = 0 then { s with gut := { s.gut with late := rowsClear s.gut.late first count } }
         else { s with gut := { s.gut with adm := rowsClear s.gut.adm first count } })
      else s
    finishOk s n bs.length

/-- The open connections of a range at or above a threshold, in order. -/
def gconnHits (s : State) (first count threshold : Nat) : List (Nat × Conn) :=
  s.xpt.conns.filter (fun e => decide (first ≤ e.1 ∧ e.1 < first + count) && e.2.st != 0 && decide (threshold ≤ e.2.retx))

/-- The connections that GCONN writes, and the next one to examine. -/
def gconnFound (s : State) (o : Op) : List (Nat × Conn) × Nat :=
  let first := leAt o.body 0 4
  let count := leAt o.body 4 4
  let hits := gconnHits s first count (leAt o.body 8 8)
  let room := leAt o.body 0x18 4 / 16
  (hits.take room, match hits[room]? with
    | some e => e.1
    | none => first + count)

/-- GCONN, admitted (15 R446). -/
def gconnStart (s : State) (n : Nat) (o : Op) : State :=
  let f := gconnFound s o
  let bs := (f.1.map (fun e => leBytes 4 e.1 ++ leBytes 1 e.2.st ++ leBytes 3 0 ++ leBytes 8 e.2.retx)).flatten
  match engWrite s o (leAt o.body 0x10 8) bs with
  | .error st => finishOp s n stHostError 0 st
  | .ok s =>
    let s := if bitN (leAt o.body 0x1C 1) 0 then f.1.foldl (fun s e => setConn s e.1 { connOf s e.1 with retx := 0 }) s else s
    finishOk s n (f.1.length + f.2 * 2 ^ 32)

/-- GFLUSH, admitted (15 R447). -/
def gflushStart (s : State) (n : Nat) (o : Op) : State :=
  let c := leAt o.body 0 1
  if getF s Fld.gutChStatState c ≠ 1 then finishOp s n 0xB0 0 0
  else { s with gut := { s.gut with flushes := Tab.put s.gut.flushes n (c, leAt o.body 8 8, s.ftime + leAt o.body 0x10 4 * 1000) } }

/-- GFLUSH_DONE: 2 µs past T, every packet of a time up to T has been performed in the ring. -/
def execGflushDone (op : Nat) (s : State) : Host.Outcome State Fault Refusal :=
  .next
    (match running s op 0x0802, Tab.lookup s.gut.flushes op with
     | some _, some (c, t, d) =>
       if d < t + 2000 ∨ (chanOf s c).pkts.any (fun p => decide (p.1 ≤ t)) = true then s
       else finishOk { reach s (t + 2000) with gut := { s.gut with flushes := Tab.del s.gut.flushes op } } op (getF s Fld.gutChDtail c)
     | _, _ => s)

/-- GFLUSH_TIMEOUT. -/
def execGflushTimeout (op : Nat) (s : State) : Host.Outcome State Fault Refusal :=
  .next
    (match running s op 0x0802, Tab.lookup s.gut.flushes op with
     | some _, some (_, _, d) => finishOp (reach s d) op 0xB2 0 0
     | _, _ => s)

/-- The check of a destination; nothing to check where nothing is written. -/
def gutDst (s : State) (o : Op) (a n : Nat) : Verdict :=
  match (if n = 0 then none else rangeBad s o a n .write) with
  | some e => .bad stAccessFault e
  | none => .go 0 0 (qpPartner s o) [] 0

/-- A verdict with its cost: on host rings the bytes written, as they stand at fetch (DEDUCED, log 100). -/
def gutCost (s : State) (o : Op) (n : Nat) : Verdict → Verdict
  | .go pool _ partner data aux => .go pool (if qpKind s o.qp = 0 then n else 0) partner data aux
  | v => v

/-- Whether an operation's body keeps its reserved bytes zero and its fields in range. -/
def gutBodyOk (o : Op) : Bool :=
  match o.opcode with
  | 0x0800 => decide (leAt o.body 0 1 ≤ 1 ∧ leAt o.body 1 1 ≤ 1 ∧ 1 ≤ leAt o.body 8 4 ∧ leAt o.body 8 4 ≤ 4224) && zeroAt o.body 2 2 &&
      zeroAt o.body 0xC 4 && zeroAt o.body 0x18 24
  | 0x0801 => decide (leAt o.body 0x1C 1 ≤ 1) && zeroAt o.body 0x1D 19
  | _ => decide (leAt o.body 0 1 ≤ 3 ∧ 1 ≤ leAt o.body 0x10 4 ∧ leAt o.body 0x10 4 ≤ 1000000) && zeroAt o.body 1 7 && zeroAt o.body 0x14 28

/-- The check of the engine's operations at fetch. -/
def gutCheck (s : State) (o : Op) (_ : List Byte) : Verdict :=
  let kind := qpKind s o.qp
  if o.opcode < 0x0800 ∨ 0x0802 < o.opcode then .bad stBadOpcode 0
  else if !gutBodyOk o then .bad stBadDescriptor 0
  else if kind ≠ 0 ∧ kind ≠ 4 then .bad stNotPermitted 0
  else
    match o.opcode with
    | 0x0800 =>
      let count := leAt o.body 8 4
      if !rowsAllowed s o (leAt o.body 0 1) (leAt o.body 4 4) count then .bad 0xB1 0
      else gutCost s o (32 + 160 * count) (gutDst s o (leAt o.body 0x10 8) (32 + 160 * count))
    | 0x0801 =>
      if !connsAllowed s o (leAt o.body 0 4) (leAt o.body 4 4) then .bad 0xB1 0
      else gutCost s o (16 * (gconnFound s o).1.length) (gutDst s o (leAt o.body 0x10 8) (leAt o.body 0x18 4))
    | _ => if chanAllowed s o (leAt o.body 0 1) then .go 0 0 (qpPartner s o) [] 0 else .bad 0xB1 0

/-- What the engine begins at admission. -/
def gutStart (s : State) (n : Nat) : State :=
  match opOf s n with
  | none => s
  | some o =>
    match o.opcode with
    | 0x0800 => gsnapStart s n o
    | 0x0801 => gconnStart s n o
    | _ => gflushStart s n o

/-- Engine 0x08. -/
def gutSpec : OpSpec := { check := gutCheck, start := gutStart }

end Sys2Proof.Machine
end

