-- ==== Sys2Proof/Machine/LoftNum.lean ====
section
/-! DEFINITION. The Loft's arithmetic (12 Table 12.1, R373 to R379): elements in fp32, sums in an order the spec does not give, the
exponential and the quotient, buckets, and one row of a result. -/

namespace Sys2Proof.Machine

/-! ### Elements -/

/-- Bytes of an element of a format (12 Table 12.1). -/
def loftElemSize (fmt : Nat) : Nat := if fmt ≤ 1 then 2 else 1

/-- The floating formats of Table 12.1. -/
def loftFmt (fmt : Nat) : FFmt := if fmt = 0 then bf16 else if fmt = 1 then fp16 else if fmt = 2 then e4m3 else e5m2

/-- fp32 operations, rounded to nearest even (12 R379). -/
def add32 (a b : Nat) : Nat := (fAdd fp32 (unpack fp32 a) (unpack fp32 b)).1
def mul32 (a b : Nat) : Nat := (fMul fp32 (unpack fp32 a) (unpack fp32 b)).1
def sub32 (a b : Nat) : Nat := (fAdd fp32 (unpack fp32 a) (unpack fp32 b).negate).1
def isNan32 (a : Nat) : Bool := (unpack fp32 a).isNan

/-- An element as an fp32 pattern; `scale` is the slate's, for int8. -/
def loftElem (fmt scale x : Nat) : Nat :=
  if fmt = 4 then
    let v := (BitVec.ofNat 8 x).toInt
    mul32 (roundTo fp32 (decide (v < 0)) v.natAbs 0).1 scale
  else (convert fp32 (unpack (loftFmt fmt) x)).1

/-- `n` elements from a byte list. -/
def loftVec (fmt scale n : Nat) (bs : List Byte) : List Nat :=
  (List.range n).map (fun i => loftElem fmt scale (leAt bs (i * loftElemSize fmt) (loftElemSize fmt)))

/-! ### Sums (12 R379) -/

/-- Take the element at a place out of a list. -/
def takeAt (l : List Nat) (i : Nat) : Nat × List Nat := (l.getD i 0, l.eraseIdx i)

/-- Add two of a list's numbers until one is left; which two is the Loft's. -/
def sumTree (key : List Nat) : Nat → List Nat → Nat
  | 0, l => l.headD 0
  | fuel + 1, l =>
    match l with
    | [] => 0
    | [x] => x
    | l =>
      let p := Config.loftPick key l.length
      let a := takeAt l (p.1 % l.length)
      let b := takeAt a.2 (p.2 % a.2.length)
      sumTree key fuel (b.2 ++ [add32 a.1 b.1])

/-- The fp32 sum of a list. -/
def sum32 (key : List Nat) (l : List Nat) : Nat := sumTree (key ++ l) l.length l

/-- The fp32 sum of products. -/
def dot32 (key : List Nat) (a b : List Nat) : Nat := sum32 key (List.zipWith mul32 a b)

/-! ### Exponential and quotient (12 R379) -/

/-- A magnitude moved by at most 2 units in the last place. -/
def within2ulp (key : List Nat) (x : Nat) : Nat :=
  let d := Max.max (-2) (Min.min 2 (Config.loftUlp key))
  let m : Nat := x % 2 ^ 31
  let moved : Nat := Nat.min 0x7F7FFFFF (((m : Int) + d).toNat)
  if isNan32 x ∨ m = 0x7F800000 then x else x - m + moved

/-- e^r for 0 ≤ r < 1/2 in units of 2⁻²⁰⁰, as the first 40 terms of its series. -/
def expSeries (r : Nat) : Nat :=
  ((List.range 40).foldl (fun (p : Nat × Nat) k => (p.1 + p.2, p.2 * r / 2 ^ 200 / (k + 1))) (0, 2 ^ 200)).1

/-- Square a number in units of 2⁻²⁰⁰ `n` times. -/
def squareTimes : Nat → Nat → Nat
  | 0, x => x
  | n + 1, x => squareTimes n (x * x / 2 ^ 200)

/-- The fp32 number nearest to e^x for x ≤ 0 (below the smallest subnormal: 0). -/
def expNearest (x : FVal) : Nat :=
  match x with
  | .nan _ => fp32.qnan
  | .inf _ => 0
  | .fin _ m e =>
    if m = 0 then 0x3F800000
    else
      let sh := e + 200 - 8
      let r := if 0 ≤ sh then m * 2 ^ sh.toNat else m / 2 ^ (-sh).toNat
      if 2 ^ 200 ≤ 2 * r then 0
      else
        let y := squareTimes 8 (expSeries r)
        (roundTo fp32 false (2 * (2 ^ 400 / y) + 1) (-201)).1

/-- The Loft's natural exponential of an fp32 number at or below 0. -/
def exp32 (a : Nat) : Nat := within2ulp [0, a] (expNearest (unpack fp32 a))

/-- The Loft's final division. -/
def div32 (a b : Nat) : Nat := within2ulp [1, a, b] (fDiv fp32 (unpack fp32 a) (unpack fp32 b)).1

/-- rnd(1 / √n): the default scale (12 Table 12.7). -/
def rsqrt32 (n : Nat) : Nat :=
  let r := isqrtFrom (2 ^ 128 / n) 64 0
  (roundTo fp32 false (2 * r + (if r * r * n = 2 ^ 128 then 0 else 1)) (-65)).1

/-! ### Bias sets (12 Table 12.8, R374) -/

/-- A threshold. -/
def biasT (bs : List Byte) (b : Nat) : Nat := leAt bs (0x40 + 8 * b) 8

/-- Whether thresholds rise strictly from one place to another. -/
def biasRises (bs : List Byte) (lo hi : Nat) : Bool :=
  (List.range (hi - lo)).all (fun i => decide (biasT bs (lo + i) < biasT bs (lo + i + 1)))

/-- Whether a bias set is valid. -/
def biasOk (bs : List Byte) : Bool :=
  let mode := leAt bs 0 1
  let heads := leAt bs 1 1
  let far := leAt bs 8 8
  let shape (n top : Nat) (lo : Nat) : Bool :=
    (List.range (n + 1)).all (fun b => biasT bs b == b) && biasRises bs n (top - 1) && biasT bs top == far &&
    decide (biasT bs (top - 1) < far ∧ lo ≤ far ∧ far < 2 ^ 48)
  decide (1 ≤ heads ∧ heads ≤ 128) && bs.length == 576 + 128 * heads && zeroAt bs 2 6 && zeroAt bs 16 48 &&
  (if mode = 0 then shape 16 63 63
   else mode == 1 && shape 8 31 31 && (List.range 32).all (fun b => biasT bs (32 + b) == 0))

/-- The largest bucket up to `top` whose threshold a distance reaches. -/
def bucketUpTo (bs : List Byte) (top d : Nat) : Nat :=
  ((List.range (top + 1)).filter (fun b => decide (biasT bs b ≤ d))).foldl Nat.max 0

/-- bucket(d) (12 R374). -/
def bucketOf (bs : List Byte) (d : Int) : Nat :=
  if leAt bs 0 1 = 0 then (if d < 0 then 0 else bucketUpTo bs 63 d.toNat)
  else if d < 0 then 32 + bucketUpTo bs 31 (-d).toNat
  else bucketUpTo bs 31 d.toNat

/-- bias[h][b] as fp32. -/
def biasAt (bs : List Byte) (h b : Nat) : Nat := (convert fp32 (unpack bf16 (leAt bs (0x240 + 128 * h + 2 * b) 2))).1

/-! ### A row (12 R373, R377, R378) -/

/-- A key in range whose entry is not skipped: position, its bitmap bit, K and V. -/
structure LKey where
  pos : Nat
  bit : Bool
  k : List Nat
  v : List Nat
deriving DecidableEq, Repr

/-- What a row is computed from beside its keys: scale, masks, the context's window, the bias set, the head's global index, the query
token's position, and what fixes the order of the sums. -/
structure RowCtx where
  scale : Nat
  masks : Nat
  window : Nat
  bias : Option (List Byte)
  head : Nat
  pos : Nat
  key : List Nat
deriving DecidableEq, Repr

/-- Whether a key in range is masked for a row. -/
def keyMasked (r : RowCtx) (x : LKey) : Bool :=
  (bitN r.masks 0 && decide (r.pos < x.pos)) ||
  (bitN r.masks 1 && r.window != 0 && decide (x.pos + r.window ≤ r.pos)) ||
  (bitN r.masks 2 && x.bit)

/-- A key's score. -/
def keyScore (r : RowCtx) (q : List Nat) (x : LKey) : Nat :=
  let b := match r.bias with
    | some bs => biasAt bs r.head (bucketOf bs ((r.pos : Int) - (x.pos : Int)))
    | none => 0
  add32 (mul32 r.scale (dot32 r.key q x.k)) b

/-- The larger of two fp32 numbers. -/
def max32 (a b : Nat) : Nat := if (unpack fp32 a).less (unpack fp32 b) then b else a

/-- −∞ in fp32. -/
def negInf32 : Nat := 0xFF800000

/-- The bytes of a row: m, l, row_flags, o. -/
def rowBytes (ofmt m l flags : Nat) (o : List Nat) : List Byte :=
  leBytes 4 m ++ leBytes 4 l ++ leBytes 4 flags ++ leBytes 4 0 ++
  (o.map (fun x => if ofmt = 0 then leBytes 4 x else leBytes 2 (convert bf16 (unpack fp32 x)).1)).flatten

/-- One row: its bytes, whether every score is −∞, whether a NaN is in it. -/
def loftRow (r : RowCtx) (dim ofmt : Nat) (q : List Nat) (keys : List LKey) : List Byte × Bool × Bool :=
  let used := keys.filter (fun x => !keyMasked r x)
  let sc := used.map (keyScore r q)
  if sc.any isNan32 then
    let free (n : Nat) : Nat := (Config.loftNan (n :: r.key ++ sc)).toNat
    (rowBytes ofmt (free 0) (free 1) 2 (List.replicate dim fp32.qnan), false, true)
  else
    let m := sc.foldl max32 negInf32
    if m = negInf32 then (rowBytes ofmt negInf32 0 1 (List.replicate dim 0), true, false)
    else
      let e := sc.map (fun x => exp32 (sub32 x m))
      let l := sum32 r.key e
      let o := (List.range dim).map (fun i => div32 (dot32 (i :: r.key) e (used.map (fun x => x.v.getD i 0))) l)
      let nan := o.any isNan32
      (rowBytes ofmt m l (if nan then 2 else 0) o, false, nan)

end Sys2Proof.Machine
end

