-- ==== Sys2Proof/Machine/Loft.lean ====
section
/-! DEFINITION. The Loft (12_loft.md): contexts, chains and pools; appends, queries and bias loads, from Nawyn and from rings. -/

namespace Sys2Proof.Machine

/-! ### Configuration, contexts and chains (12 R354 to R361) -/

/-- Whether the Loft is enabled, and its bay. -/
def loftOn (s : State) : Bool := flagF s Fld.loftStatEnabled 0
def ctlBay (s : State) : Nat := getF s Fld.loftStatCtlBay 0

/-- Whether a range lies in ctl_bay's HBM or DDR slices (12 R355). -/
def inSlices (s : State) (a n : Nat) : Bool :=
  let e := envOf s (ctlBay s)
  within a n (hbmStart + e.hbmBase) e.hbmSize || within a n (ddrStart + e.ddrBase) e.ddrSize

/-- A context record (12 Table 12.4). -/
def ctxRec (s : State) (c : Nat) : List Byte := readBytes s (s.loft.ctxBase + 64 * c) 64

/-- Fields of a context record. -/
def cFmt (r : List Byte) : Nat := leAt r 1 1
def cDim (r : List Byte) : Nat := leAt r 2 2
def cLayers (r : List Byte) : Nat := leAt r 4 2
def cGroups (r : List Byte) : Nat := leAt r 6 1
def cStart (r : List Byte) : Nat := leAt r 0x10 6
def cWindow (r : List Byte) : Nat := leAt r 0x20 8

/-- Whether a record is that of a context a request may use: below ctx_count, valid, its fields in range (12 Tables 12.4, 12.6). -/
def ctxUsable (s : State) (c : Nat) : Bool :=
  let r := ctxRec s c
  decide (c < s.loft.ctxCount) && bitN (leAt r 0 1) 0 && decide (cFmt r ≤ 4) &&
  decide (16 ≤ cDim r ∧ cDim r ≤ 256 ∧ cDim r % 16 = 0) && decide (1 ≤ cLayers r ∧ cLayers r ≤ 1024 ∧ 1 ≤ cGroups r ∧ cGroups r ≤ 16)

/-- Address of the head table entry of a chain. -/
def headAddr (r : List Byte) (layer group : Nat) : Nat := leAt r 0x18 8 + 32 * (layer * cGroups r + group)

/-- A chain's end. -/
def chainEnd (s : State) (r : List Byte) (layer group : Nat) : Nat := readLe s (headAddr r layer group + 0x10) 6

/-- The chain's end of a context, layer and group, where they are in range (12 Table 12.11). -/
def chainEndOf (s : State) (c layer group : Nat) : Option Nat :=
  let r := ctxRec s c
  if loftOn s && ctxUsable s c && decide (layer < cLayers r ∧ group < cGroups r) then some (chainEnd s r layer group) else none

/-- Positions that a batten page covers. -/
def pageSpan : Nat := 8064

/-- First position of a page. -/
def pageFirst (s : State) (p : Nat) : Nat := readLe s (p + 8) 6

/-- Whether a page lies where a page may. -/
def pageOk (s : State) (p : Nat) : Bool := p % 4096 == 0 && inSlices s p 4096

/-- The page that covers a position, from a page on; the error is the address that is no page. -/
def findPage (s : State) (pos : Nat) : Nat → Nat → Except Nat Nat
  | 0, p => .error p
  | fuel + 1, p =>
    if p = 0 ∨ pageOk s p = false then .error p
    else if pos < pageFirst s p + pageSpan then .ok p
    else findPage s pos fuel (readLe s p 8)

/-- The page of a chain that covers a position. -/
def chainPage (s : State) (r : List Byte) (layer group pos : Nat) : Except Nat Nat :=
  findPage s pos (pos / pageSpan + 2) (readLe s (headAddr r layer group) 8)

/-- Address of the entry for a position in a page. -/
def entryAddr (s : State) (p pos : Nat) : Nat := p + 0x40 + 8 * ((pos - pageFirst s p) / 16)

/-- Size of a slate (12 R357). -/
def slateSize (r : List Byte) : Nat := 64 + 32 * cDim r * loftElemSize (cFmt r)

/-- A slate address of a batten entry. -/
def entrySlate (e : Nat) : Nat := fieldOf e 51 6 * 64

/-- A failed slate check (12 R372). -/
def badSlate (s : State) (ctx a : Nat) : State :=
  raiseD (bump s Fld.loftBadSlateCnt 0) srcLoft { code := 0x0702, arg0 := ctx, arg1 := a % 2 ^ 52 }

/-! ### Pools (12 R362) -/

/-- Log2 size, level and base of a pool. -/
def poolLog2 (s : State) (i : Nat) : Nat := getF s Fld.loftPoolCfgLog2Size i
def poolLevelNow (s : State) (i : Nat) : Nat :=
  (getF s Fld.loftPoolTail i + 2 ^ 20 - getF s Fld.loftPoolHead i) % 2 ^ poolLog2 s i
def poolBase (s : State) (i : Nat) : Nat := getF s Fld.loftPoolBaseLo i * 8 + getF s Fld.loftPoolBaseHi i * 2 ^ 32

/-- Show a pool's level. -/
def poolShow (s : State) (i : Nat) : State := setF s Fld.loftPoolLevel i (poolLevelNow s i)

/-- LOFT_POOL_LOW, at most once per ms. -/
def poolLow (s : State) (i : Nat) : State :=
  let lv := poolLevelNow s i
  if getF s Fld.loftPoolCfgLowMark i ≤ lv then s
  else
    let due := match Tab.lookup s.loft.lowAt i with
      | some t => decide (t + 1000000 ≤ s.ftime)
      | none => true
    if due then
      raiseD { s with loft := { s.loft with lowAt := Tab.put s.loft.lowAt i s.ftime } } srcLoft { code := 0x0701, aux8 := i, arg0 := lv }
    else s

/-- Take `n` addresses from a pool. -/
def poolPop (s : State) (i n : Nat) : List Nat × State :=
  if n = 0 then ([], s)
  else
    let h := getF s Fld.loftPoolHead i
    let as := (List.range n).map (fun k => readLe s (poolBase s i + 8 * ((h + k) % 2 ^ poolLog2 s i)) 8)
    (as, poolLow (poolShow (setF s Fld.loftPoolHead i (h + n)) i) i)

/-- LOFT_POOL_TAIL_WRITE: a PF or a thread of ctl_bay (12 R386). -/
def execLoftPoolTailWrite (req : Requester) (i : Nat) (v : Word) (s : State) : Host.Outcome State Fault Refusal :=
  .next
    (gated s req (fun s =>
      if Requester.isPf req || (loftOn s && Requester.bay s req == some (ctlBay s)) then
        poolShow (setF s Fld.loftPoolTail i v.toNat) i
      else bump s Fld.loftDeniedCnt 0))

/-! ### Appends (12 R363 to R366) -/

/-- Fields of an append header (12 Table 12.5). -/
def aCtx (b : List Byte) : Nat := leAt b 0 4
def aLayer (b : List Byte) : Nat := leAt b 4 2
def aGroup (b : List Byte) : Nat := leAt b 6 1
def aPos (b : List Byte) : Nat := leAt b 8 6
def aN (b : List Byte) : Nat := leAt b 0x10 2

/-- Whether an fp32 number is finite and nonzero. -/
def finite32 (x : Nat) : Bool := x / 2 ^ 23 % 256 != 255 && x % 2 ^ 31 != 0

/-- The slate that holds a position, as its batten entry names it now. -/
def slateAt (s : State) (r : List Byte) (layer group pos : Nat) : Option Nat :=
  match chainPage s r layer group pos with
  | .ok p =>
    let e := readLe s (entryAddr s p pos) 8
    if bitN e 0 then some (entrySlate e) else none
  | .error _ => none

/-- Whether the partly filled tail slate has other scales. -/
def scaleDiffers (s : State) (r b : List Byte) : Bool :=
  cFmt r == 4 && aPos b % 16 != 0 &&
  (match slateAt s r (aLayer b) (aGroup b) (aPos b) with
   | some a => readLe s (a + 0xC) 4 != leAt b 0x14 4 || readLe s (a + 0x10) 4 != leAt b 0x18 4
   | none => false)

/-- Checks 1 to 4 of Table 12.6: the status of the first that fails. -/
def appendCheck (s : State) (b : List Byte) : Option Nat :=
  let c := aCtx b
  let r := ctxRec s c
  let known := loftOn s && ctxUsable s c
  if !loftOn s then some 0x80
  else if b.length < 32 ∨ zeroAt b 0x0E 2 = false ∨ zeroAt b 0x12 2 = false ∨ zeroAt b 0x1C 4 = false ∨ aN b = 0 ∨ 4096 < aN b then some 0x81
  else if !known then some 0x82
  else if b.length ≠ 32 + 2 * aN b * cDim r * loftElemSize (cFmt r) ∨ leAt b 7 1 ≠ cFmt r then some 0x81
  else if cFmt r = 4 ∧ (finite32 (leAt b 0x14 4) && finite32 (leAt b 0x18 4)) = false then some 0x81
  else if cLayers r ≤ aLayer b ∨ cGroups r ≤ aGroup b then some 0x82
  else if !inSlices s (headAddr r (aLayer b) (aGroup b)) 32 then some 0x84
  else if bitN (leAt r 0 1) 1 then some 0x87
  else if aPos b ≠ chainEnd s r (aLayer b) (aGroup b) ∨ 2 ^ 48 < aPos b + aN b then some 0x85
  else if scaleDiffers s r b then some 0x88
  else none

/-- Cost of an append (12 R366). -/
def appendCost (b : List Byte) : Nat := (b.length + 65535) / 65536

/-- First positions of the slates that an append begins. -/
def newSlates (pos n : Nat) : List Nat :=
  let f := (pos + 15) / 16 * 16
  (List.range ((pos + n + 15 - f) / 16)).map (fun i => f + 16 * i)

/-- Whether a page of the chain covers a position already. -/
def hasPage (s : State) (r b : List Byte) (f : Nat) : Bool :=
  match chainPage s r (aLayer b) (aGroup b) f with
  | .ok _ => true
  | .error _ => false

/-- The first position of the page that an append would link next: behind the tail page, or the first slate's (12 R359). -/
def nextPageFirst (s : State) (r b : List Byte) (f : Nat) : Nat :=
  let t := readLe s (headAddr r (aLayer b) (aGroup b) + 8) 8
  if t = 0 then f else pageFirst s t + pageSpan

/-- Slates and pages that an append needs from the pools (12 R364, R365). -/
def appendNeeds (s : State) (r b : List Byte) : Nat × Nat :=
  let fs := newSlates (aPos b) (aN b)
  let slates := (fs.filter (fun f => (slateAt s r (aLayer b) (aGroup b) f).isNone)).length
  let beyond := fs.filter (fun f => !hasPage s r b f)
  let pages := match beyond.head?, beyond.getLast? with
    | some a, some z =>
      let base := nextPageFirst s r b a
      (z - base) / pageSpan + 1
    | _, _ => 0
  (slates, pages)

/-- An append is admitted: check 5, and its pops (12 R364, R365). It commits. Its position must still be the chain's end (DEDUCED, log
85). -/
def appendStart (s : State) (n : Nat) (o : Op) (x : LReq) : State :=
  let b := o.data
  let r := ctxRec s (aCtx b)
  let need := appendNeeds s r b
  if chainEnd s r (aLayer b) (aGroup b) ≠ aPos b then finishOp s n 0x85 0 0
  else if poolLevelNow s (leAt r 7 1 % 64) < need.1 ∨ poolLevelNow s (leAt r 8 1 % 64) < need.2 then
    finishOp (bump s Fld.loftNoSlateCnt 0) n 0x86 0 0
  else
    let p := poolPop s (leAt r 7 1 % 64) need.1
    let q := poolPop p.2 (leAt r 8 1 % 64) need.2
    let s := { q.2 with loft := { q.2.loft with reqs := Tab.put q.2.loft.reqs n { x with slates := p.1, pages := q.1 } } }
    putOp s n { o with st := .committed }

/-- Link a page behind the chain's tail: zeroed, then its header (12 R359, R362). -/
def linkPage (s : State) (r b : List Byte) (p first : Nat) : State :=
  let h := headAddr r (aLayer b) (aGroup b)
  let t := readLe s (h + 8) 8
  let s := writeBytes s p (List.replicate 4096 0)
  let s := writeLe s (p + 8) 8 first
  let s := writeLe (writeLe s (p + 0x12) 2 (aLayer b)) (p + 0x14) 1 (aGroup b)
  let s := if t = 0 then writeLe s h 8 p else writeLe s t 8 p
  writeLe s (h + 8) 8 p

/-- The pages an append needs, linked one after another. -/
def linkPages (s : State) (r b : List Byte) (f : Nat) : List Nat → State
  | [] => s
  | p :: ps => linkPages (linkPage s r b p (nextPageFirst s r b f)) r b f ps

/-- A new slate's header, with mask 0 (12 R358, Table 12.2). -/
def slateHeader (r b : List Byte) (first : Nat) : List Byte :=
  let sc (off : Nat) : Nat := if cFmt r = 4 then leAt b off 4 else 0
  leBytes 8 first ++ leBytes 1 0 ++ leBytes 1 (cFmt r) ++ leBytes 2 0 ++ leBytes 4 (sc 0x14) ++ leBytes 4 (sc 0x18) ++
  leBytes 2 (aLayer b) ++ leBytes 1 (aGroup b) ++ leBytes 1 0 ++ leBytes 4 (aCtx b) ++ List.replicate 36 0

/-- Begin a slate: its batten entry, if it takes a popped slate, and its header. -/
def beginSlate (r b : List Byte) (st : State × List Nat) (f : Nat) : State × List Nat :=
  let (s, free) := st
  match chainPage s r (aLayer b) (aGroup b) f with
  | .error _ => st
  | .ok p =>
    let ea := entryAddr s p f
    let e := readLe s ea 8
    let a := if bitN e 0 then entrySlate e else free.headD 0
    let rest := if bitN e 0 then free else free.tail
    let s := if bitN e 0 then s else writeLe s ea 8 (a + 1)
    let used := (f - pageFirst s p) / 16 + 1
    let s := if readLe s (p + 0x10) 2 < used then writeLe s (p + 0x10) 2 used else s
    (writeBytes s a (slateHeader r b f), rest)

/-- Write one token's K and V into its slate. -/
def writeToken (r b : List Byte) (s : State) (i : Nat) : State :=
  let pos := aPos b + i
  match slateAt s r (aLayer b) (aGroup b) pos with
  | none => s
  | some a =>
    let w := cDim r * loftElemSize (cFmt r)
    let t := pos % 16
    let s := writeBytes s (a + 0x40 + t * w) ((b.drop (32 + i * w)).take w)
    writeBytes s (a + 0x40 + (16 + t) * w) ((b.drop (32 + (aN b + i) * w)).take w)

/-- Write the count of a slate that an append touched. -/
def writeCount (r b : List Byte) (s : State) (f : Nat) : State :=
  match slateAt s r (aLayer b) (aGroup b) f with
  | none => s
  | some a => writeLe s (a + 8) 1 (Nat.min 16 (aPos b + aN b - f))

/-- An append's writes, and then the chain's end (12 R365). -/
def appendWrites (s : State) (r b : List Byte) (x : LReq) : State :=
  let fs := newSlates (aPos b) (aN b)
  let first := ((fs.filter (fun f => !hasPage s r b f)).head?).getD 0
  let s := linkPages s r b first x.pages
  let s := (fs.foldl (beginSlate r b) (s, x.slates)).1
  let s := (List.range (aN b)).foldl (writeToken r b) s
  let touched := if aPos b % 16 = 0 then fs else (aPos b / 16 * 16) :: fs
  let s := touched.foldl (writeCount r b) s
  writeLe s (headAddr r (aLayer b) (aGroup b) + 0x10) 8 (aPos b + aN b)

/-- A popped address that is none of a slate or page (12 R355, R362). -/
def badPop (s : State) (r : List Byte) (x : LReq) : Option Nat :=
  match x.slates.find? (fun a => a % 64 != 0 || !inSlices s a (slateSize r)) with
  | some a => some a
  | none => x.pages.find? (fun a => !pageOk s a)

/-- LOFT_APPEND_DONE. -/
def execLoftAppendDone (op : Nat) (s : State) : Host.Outcome State Fault Refusal :=
  .next
    (match opOf s op, lreqOf s op with
     | some o, some x =>
       if o.opcode ≠ 0x0501 ∨ o.st ≠ .committed ∨ domUp s 73 = false then s
       else
         let r := ctxRec s (aCtx o.data)
         match badPop s r x with
         | some a => finishOp (badSlate s (aCtx o.data) a) op 0x84 0 0
         | none => finishOk (appendWrites s r o.data x) op (aPos o.data + aN o.data)
     | _, _ => s)

/-! ### Queries (12 R369 to R379) -/

/-- Fields of a query header (12 Table 12.7). -/
def qNseq (b : List Byte) : Nat := leAt b 0 2
def qLayer (b : List Byte) : Nat := leAt b 2 2
def qGroup (b : List Byte) : Nat := leAt b 4 1
def qNq (b : List Byte) : Nat := leAt b 5 1
def qHq (b : List Byte) : Nat := leAt b 6 1
def qFmt (b : List Byte) : Nat := leAt b 7 1
def qHead0 (b : List Byte) : Nat := leAt b 8 1
def qBias (b : List Byte) : Nat := leAt b 9 1
def qMasks (b : List Byte) : Nat := leAt b 0xA 1
def qOfmt (b : List Byte) : Nat := leAt b 0xB 1
def qRtc (b : List Byte) : Nat := leAt b 0xC 1

/-- A sequence entry: context, pos0, limit. -/
def qSeq (b : List Byte) (i : Nat) : Nat × Nat × Nat :=
  (leAt b (32 + 16 * i) 4, leAt b (36 + 16 * i) 6, leAt b (42 + 16 * i) 6)

/-- The record of a query's first context, whose fmt and head_dim every context shares. -/
def qRec (s : State) (b : List Byte) : List Byte := ctxRec s (qSeq b 0).1

/-- Whether a query's header is in range. -/
def queryHeaderOk (b : List Byte) : Bool :=
  decide (32 ≤ b.length) && decide (1 ≤ qNseq b ∧ qNseq b ≤ 256) && decide (1 ≤ qNq b ∧ qNq b ≤ 16) &&
  decide (1 ≤ qHq b ∧ qHq b ≤ 128 ∧ qHead0 b + qHq b ≤ 128) && decide (qFmt b ≤ 1 ∧ qMasks b ≤ 7 ∧ qOfmt b ≤ 1 ∧ qRtc b ≤ 7) &&
  (decide (qBias b ≤ 63) || qBias b == 0xFF) && zeroAt b 0xD 3 && zeroAt b 0x14 12

/-- Whether a context may serve a query beside the first one. -/
def queryCtxOk (s : State) (b : List Byte) (i : Nat) : Bool :=
  let c := (qSeq b i).1
  let r := ctxRec s c
  ctxUsable s c && decide (qLayer b < cLayers r ∧ qGroup b < cGroups r) && cFmt r == cFmt (qRec s b) && cDim r == cDim (qRec s b)

/-- Length of a query whose first context is known. -/
def queryLen (s : State) (b : List Byte) : Nat := 32 + 16 * qNseq b + qNseq b * qNq b * qHq b * cDim (qRec s b) * 2

/-- Bytes of a row, and of a result. -/
def qRowSize (s : State) (b : List Byte) : Nat := 16 + cDim (qRec s b) * (if qOfmt b = 0 then 4 else 2)
def resultSize (s : State) (b : List Byte) : Nat := 64 + qNseq b * qNq b * qHq b * qRowSize s b

/-- A bias set that is loaded. -/
def biasSet (s : State) (k : Nat) : Option (List Byte) :=
  match Tab.lookup s.loft.bias k with
  | some bs => some bs
  | none => none

/-- Whether a query's bias set is loaded with enough heads. -/
def biasFits (s : State) (b : List Byte) : Bool :=
  qBias b == 0xFF ||
  (match biasSet s (qBias b) with
   | some bs => decide (qHead0 b + qHq b ≤ leAt bs 1 1)
   | none => false)

/-- Whether a load of a bias set is under way: then check 4 waits for it (12 R375). -/
def biasLoading (s : State) (k : Nat) : Bool := s.loft.reqs.any (fun e => e.2.kind == 2 && leAt e.2.payload 0 1 == k)

/-- The link that leads back to a source (12 R370). -/
def linkBack (s : State) (src : Nat) (linkLocal : Bool) (link : Nat) : Option Nat := if linkLocal then some link else routeFor s src

/-- Checks 1 to 5 of R370, and LOFT_TOO_LARGE of an LQUERY's result length: status and result. -/
def queryCheck (s : State) (b : List Byte) (room : Nat) : Option (Nat × Nat) :=
  if !loftOn s then some (0x80, 0)
  else if !queryHeaderOk b ∨ b.length < 32 + 16 * qNseq b then some (0x81, 0)
  else if ctxUsable s (qSeq b 0).1 ∧ b.length ≠ queryLen s b then some (0x81, 0)
  else
    match (List.range (qNseq b)).find? (fun i => !queryCtxOk s b i) with
    | some i => some (0x82, i)
    | none =>
      if !biasFits s b ∧ biasLoading s (qBias b) = false then some (0x89, 0)
      else if 1048576 < resultSize s b ∨ room < resultSize s b then some (0x83, 0)
      else none

/-- Start and end of a sequence of a query, as memory has them now (12 R371). -/
def seqBounds (s : State) (b : List Byte) (i : Nat) : Nat × Nat :=
  let q := qSeq b i
  let r := ctxRec s q.1
  let e := chainEnd s r (qLayer b) (qGroup b)
  (cStart r, if q.2.2 ≠ 0 ∧ q.2.2 < e then q.2.2 else e)

/-- Starts and ends of a query's sequences. -/
def queryBounds (s : State) (b : List Byte) : List (Nat × Nat) := (List.range (qNseq b)).map (seqBounds s b)

/-- Cost of a query (12 R381). -/
def queryCost (s : State) (b : List Byte) : Nat :=
  let r := qRec s b
  let sMax := ((queryBounds s b).map seqSlates).foldl Nat.max 0
  let f := if cFmt r ≤ 1 then 2 else 1
  (f * 4 * qNseq b * 16 * sMax * qNq b * qHq b * cDim r + 999999) / 1000000

/-- A query is dispatched: ticket, starts and ends (12 R367, R371). Its bias set, where a load was under way when it came, is checked
now. -/
def queryStart (s : State) (n : Nat) (o : Op) (x : LReq) : State :=
  if !biasFits s o.data then finishOp s n 0x89 0 0
  else
    let t := getF s Fld.loftTicket 0
    let s := bump s Fld.loftTicket 0
    let x := { x with ticket := some t, bounds := queryBounds s o.data }
    let s := { s with loft := { s.loft with reqs := Tab.put s.loft.reqs n x } }
    setF s Fld.loftRetired 0 (loftRetired s)

/-- The keys of one slate: those below `stop`. -/
def slateKeys (s : State) (r : List Byte) (a f stop : Nat) : List LKey :=
  let w := cDim r * loftElemSize (cFmt r)
  let mask := readLe s (a + 0xA) 2
  (List.range (Nat.min 16 (stop - f))).map (fun t =>
    { pos := f + t, bit := bitN mask t, k := loftVec (cFmt r) (readLe s (a + 0xC) 4) (cDim r) (readBytes s (a + 0x40 + t * w) w), v := loftVec (cFmt r) (readLe s (a + 0x10) 4) (cDim r) (readBytes s (a + 0x40 + (16 + t) * w) w) })

/-- Whether a slate passes the checks of R372. -/
def slateOk (s : State) (b r : List Byte) (ctx a f : Nat) : Bool :=
  inSlices s a (slateSize r) && readLe s (a + 0x18) 4 == ctx && readLe s (a + 0x14) 2 == qLayer b && readLe s (a + 0x16) 1 == qGroup b &&
  readLe s (a + 9) 1 == cFmt r && readLe s a 8 == f

/-- The keys of a sequence, slate by slate; or the address of a bad slate. An entry in range that is not valid is one (DEDUCED, log 86). -/
def seqKeys (s : State) (b r : List Byte) (ctx stop : Nat) : List Nat → Except Nat (List LKey)
  | [] => .ok []
  | f :: fs =>
    match chainPage s r (qLayer b) (qGroup b) f with
    | .error a => .error a
    | .ok p =>
      let e := readLe s (entryAddr s p f) 8
      let a := entrySlate e
      if bitN e 1 then seqKeys s b r ctx stop fs
      else if bitN e 0 = false ∨ slateOk s b r ctx a f = false then .error a
      else (seqKeys s b r ctx stop fs).map (fun l => slateKeys s r a f stop ++ l)

/-- A query vector: sequence, token, head. -/
def queryVec (b : List Byte) (dim i j h : Nat) : List Nat :=
  let at_ := 32 + 16 * qNseq b + ((i * qNq b + j) * qHq b + h) * dim * 2
  loftVec (qFmt b) 0 dim (b.drop at_)

/-- The rows of one sequence. -/
def seqRows (s : State) (b : List Byte) (i : Nat) (bounds : Nat × Nat) (keys : List LKey) : List (List Byte × Bool × Bool) :=
  let r := ctxRec s (qSeq b i).1
  let sc := leAt b 0x10 4
  let scale := if sc = 0 then rsqrt32 (cDim r) else sc
  ((List.range (qNq b)).map (fun j => (List.range (qHq b)).map (fun h =>
    let rc : RowCtx := { scale := scale, masks := qMasks b, window := cWindow r, bias := if qBias b = 0xFF then none else biasSet s (qBias b), head := qHead0 b + h, pos := (qSeq b i).2.1 + j, key := [qNseq b, qNq b, qHq b, cDim r, i, j, h, bounds.1, bounds.2] }
    loftRow rc (cDim r) (qOfmt b) (queryVec b (cDim r) i j h) keys))).flatten

/-- The rows of every sequence, or context and address of a bad slate. -/
def queryRows (s : State) (b : List Byte) : Nat → List (Nat × Nat) → Except (Nat × Nat) (List (List Byte × Bool × Bool))
  | _, [] => .ok []
  | i, bd :: bs =>
    let ctx := (qSeq b i).1
    let fs := (List.range (seqSlates bd)).map (fun k => bd.1 + 16 * k)
    match seqKeys s b (ctxRec s ctx) ctx bd.2 fs with
    | .error a => .error (ctx, a)
    | .ok keys => (queryRows s b (i + 1) bs).map (fun l => seqRows s b i bd keys ++ l)

/-- The result block of a query served: header and rows (12 R377). -/
def resultBlock (s : State) (n : Nat) (o : Op) (x : LReq) (rows : List (List Byte × Bool × Bool)) : List Byte :=
  let k := completionOf s n o 0 (x.ticket.getD 0) 0
  let flags := bit1 k.delayed + bit1 (rows.any (fun r => r.2.1)) * 2 + bit1 (rows.any (fun r => r.2.2)) * 4
  loftHeader 0 rows.length k.result flags k.queued (judgedByte k.judged k.pool) x.bounds ++ (rows.map (fun r => r.1)).flatten

/-- What a served query adds to the counters. -/
def queryCounts (s : State) (x : LReq) (rows : List (List Byte × Bool × Bool)) : State :=
  let t := loftSums x.bounds
  let s := bumpN (bumpN s Fld.loftPadTokenCnt 0 t.1) Fld.loftTokenCnt 0 t.2
  bumpN s Fld.loftMaskedRowCnt 0 (rows.filter (fun r => r.2.1)).length

/-- Send a result over Nawyn; with no way back the query is lost (12 R377, R382). -/
def resultSend (s : State) (n : Nat) (o : Op) (x : LReq) (block : List Byte) (node tag : Nat) : State :=
  let s := { s with loft := { s.loft with reqs := Tab.put s.loft.reqs n { x with sent := true } } }
  match loftSend s (.op n) x node (qRtc o.data) 0x21 0 tag 0 block with
  | .ok t => t
  | .error t => opGone t n 0x70

/-- LOFT_QUERY_DONE. -/
def execLoftQueryDone (op : Nat) (memErr : Bool) (s : State) : Host.Outcome State Fault Refusal :=
  .next
    (match running s op 0x0500, lreqOf s op with
     | some o, some x =>
       if x.sent ∨ domUp s 73 = false then s
       else if memErr then finishOp s op stMemError 0 0
       else
         match queryRows s o.data 0 x.bounds with
         | .error (c, a) => finishOp (badSlate s c a) op 0x84 0 0
         | .ok rows =>
           let block := resultBlock s op o x rows
           let s := queryCounts s x rows
           match o.src with
           | .loft node tag => resultSend s op o x block node tag
           | _ =>
             match engWrite s o x.raddr block with
             | .error st => finishOp s op stHostError 0 st
             | .ok s => finishOk (putOp s op { o with st := .committed }) op block.length
     | _, _ => s)

/-! ### Bias loads (12 R375) -/

/-- Set a loaded bit. -/
def biasLoaded (s : State) (k : Nat) (v : Bool) : State :=
  let f : Fld := if k < 32 then ⟨.loftBiasLoadedLo, k, k⟩ else ⟨.loftBiasLoadedHi, k - 32, k - 32⟩
  setF s f 0 (bit1 v)

/-- LBIAS_LOAD, admitted: it waits for the queries on the set that have come. -/
def biasStart (s : State) (n : Nat) (o : Op) (x : LReq) : State :=
  let k := leAt o.body 0 1
  let earlier := opsWhere s (fun e => e.opcode == 0x0500 && leAt e.data 9 1 == k)
  { s with loft := { s.loft with reqs := Tab.put s.loft.reqs n { x with kind := 2, payload := BitVec.ofNat 8 k :: x.payload, waitsFor := earlier } } }

/-- LBIAS_LOAD_DONE. -/
def execLbiasLoadDone (op : Nat) (s : State) : Host.Outcome State Fault Refusal :=
  .next
    (match running s op 0x0502, lreqOf s op with
     | some _, some x =>
       if x.waitsFor.any (fun n => (opOf s n).isSome) ∨ domUp s 73 = false then s
       else
         let k := leAt x.payload 0 1
         let bs := x.payload.drop 1
         if biasOk bs then
           finishOk (biasLoaded { s with loft := { s.loft with bias := Tab.put s.loft.bias k bs } } k true) op 0
         else
           finishOp (biasLoaded { s with loft := { s.loft with bias := Tab.del s.loft.bias k } } k false) op 0x89 0 0
     | _, _ => s)

/-! ### Admission (12 R371, R381) -/

/-- What an admitted operation of engine 0x05, or a Nawyn request, begins. -/
def loftStart (s : State) (n : Nat) : State :=
  match opOf s n with
  | none => s
  | some o =>
    let s := if 2 ≤ domState s 73 then latchWake s 73 7 else ungate s 73
    let x : LReq := (lreqOf s n).getD { kind := if o.opcode = 0x0501 then 0 else if o.opcode = 0x0500 then 1 else 2, payload := o.data, raddr := leAt o.body 0x10 8 }
    let s := { s with loft := { s.loft with reqs := Tab.put s.loft.reqs n x } }
    match o.opcode with
    | 0x0500 => queryStart s n o x
    | 0x0501 => appendStart s n o x
    | _ => biasStart s n o x

/-- The partner record of a Nawyn source: none without an enabled entry (12 R381). -/
def nodePartner (s : State) (node : Nat) : Option Nat :=
  if flagF s Fld.loftNodeEnable node then some (getF s Fld.loftNodePartner node) else none

/-- Nawyn requests that wait for admission. -/
def loftWaiting (s : State) : Nat :=
  (opsWhere s (fun o => decide (o.st = .waiting) && (match o.src with | .loft _ _ => true | _ => false))).length

/-- Status and result of what a Nawyn request meets at arrival (12 R364, R370). -/
def loftMeets (s : State) (m : NHdr) (b : List Byte) (query : Bool) : Option (Nat × Nat) :=
  if query then
    match queryCheck s b 1048576 with
    | some e => some e
    | none =>
      match linkBack s m.src m.linkLocal m.link with
      | some l => if l < 16 && !fitsCourse s l (qRtc b) (msgFlits (resultSize s b)) then some (0x72, 0) else none
      | none => none
  else (appendCheck s b).map (fun e => (e, 0))

/-- An append or query arrives over Nawyn (12 R381; 02 Table 2.3 source 4). -/
def loftArrive (s : State) (m : NHdr) (b : List Byte) (query : Bool) : State :=
  let s := latchWake s 73 4
  let n := s.rings.nextOp
  let full := decide (getF s Fld.loftMaxWait 0 < loftWaiting s)
  let x : LReq := { kind := bit1 query, payload := b, link := m.link, linkLocal := m.linkLocal, tc := m.tc }
  let o : Op := { src := .loft m.src m.tag, opcode := if query then 0x0500 else 0x0501, arrival := s.ftime, bay := ctlBay s, pool := 3, data := b, cost := if query then queryCost s b else appendCost b, partner := (nodePartner s m.src).getD 0 }
  let s := { s with loft := { s.loft with reqs := Tab.put s.loft.reqs n x } }
  match loftMeets s m b query with
  | some (st, r) =>
    let o := { o with pool := 0x3F, cost := 0 }
    finishOp (putOp { s with rings := { s.rings with nextOp := n + 1 } } n o) n st r 0
  | none =>
    if full then refuse (putOp { s with rings := { s.rings with nextOp := n + 1 } } n o) n stRefCapacity
    else if (nodePartner s m.src).isNone then refuse (putOp { s with rings := { s.rings with nextOp := n + 1 } } n o) n stRefBudget
    else arriveOp loftStart s o

/-- LOFT_APPEND. -/
def execLoftAppend (m : NHdr) (payload : List Byte) (s : State) : Host.Outcome State Fault Refusal :=
  .next (nawynArrive s m 0x22 payload (fun s => loftArrive s m payload false))

/-- LOFT_QUERY. -/
def execLoftQuery (m : NHdr) (payload : List Byte) (s : State) : Host.Outcome State Fault Refusal :=
  .next (nawynArrive s m 0x20 payload (fun s => loftArrive s m payload true))

/-! ### LOFT_ABORT (12 R383) -/

/-- Outstanding requests of a source with a tag, earliest first. -/
def loftTargets (s : State) (node tag : Nat) : List Nat := opsWhere s (fun o => decide (o.src = .loft node tag))

/-- A LOFT_ABORT: the target ends with its own answer first. A result already handed to a link does not stand in its way. -/
def loftAbortMsg (s : State) (m : NHdr) : State :=
  let done := (loftTargets s m.src m.tag).isEmpty
  match (loftTargets s m.src m.tag).head? with
  | none => replyMsg s m 0x25 0x25 (if done && s.loft.ended.contains (m.src, m.tag) then 1 else 2) []
  | some n =>
    match opOf s n, lreqOf s n with
    | some o, some x =>
      if o.st = .committed then replyMsg s m 0x25 0x25 0 []
      else
        let s := { s with loft := { s.loft with reqs := Tab.put s.loft.reqs n { x with sent := false } } }
        replyMsg (finishOp s n stAborted 0 0) m 0x25 stAborted 0 []
    | _, _ => s

/-- LOFT_ABORT. -/
def execLoftAbort (m : NHdr) (s : State) : Host.Outcome State Fault Refusal :=
  .next (nawynArrive s m 0x24 [] (fun s => loftAbortMsg s m))

/-! ### Ring operations (12 R384) -/

/-- Address and length of an operation's block. -/
def loftBlock (o : Op) : Nat × Nat := if o.opcode = 0x0502 then (leAt o.body 8 8, leAt o.body 0x10 4) else (leAt o.body 0 8, leAt o.body 8 4)

/-- Whether the reserved bytes of a body are 0. -/
def loftBodyOk (o : Op) : Bool :=
  match o.opcode with
  | 0x0500 => zeroAt o.body 12 4 && zeroAt o.body 28 20
  | 0x0501 => zeroAt o.body 12 36
  | _ => decide (leAt o.body 0 1 ≤ 63) && zeroAt o.body 1 7 && zeroAt o.body 20 28

/-- Whether a ring may carry an operation of engine 0x05. -/
def loftAllowed (s : State) (o : Op) : Bool :=
  let k := qpKind s o.qp
  let pf := k == 0 && getF s Fld.qpCtlFunc o.qp == 0
  (k == 0 || k == 2 || k == 4) && (o.opcode != 0x0502 || pf || (loftOn s && o.bay == ctlBay s))

/-- The check of an operation of engine 0x05 at fetch. -/
def loftCheck (s : State) (o : Op) (host : List Byte) : Verdict :=
  let (a, n) := loftBlock o
  let block := sourceBytes s a n host
  let go (cost : Nat) : Verdict := .go 3 cost (qpPartner s o) block 0
  if !loftBodyOk o then .bad stBadDescriptor 0
  else if !loftAllowed s o then .bad stNotPermitted 0
  else
    match (if n = 0 then none else rangeBad s o a n .read), (if o.opcode = 0x0500 ∧ leAt o.body 0x18 4 ≠ 0 then rangeBad s o (leAt o.body 0x10 8) (leAt o.body 0x18 4) .write else none) with
    | some e, _ => .bad stAccessFault e
    | none, some e => .bad stAccessFault e
    | none, none =>
      match o.opcode with
      | 0x0500 =>
        (match queryCheck s block (leAt o.body 0x18 4) with
         | some (st, r) => .bad st 0 r
         | none => go (queryCost s block))
      | 0x0501 =>
        (match appendCheck s block with
         | some st => .bad st 0
         | none => go (appendCost block))
      | _ => if !loftOn s then .bad 0x80 0 else go 1

/-- Engine 0x05 as the ring sees it. -/
def loftSpec : OpSpec := { check := loftCheck, start := loftStart }

end Sys2Proof.Machine
end

