-- ==== Sys2Proof/Machine/Xpt.lean ====
section
/-! DEFINITION. Dormer windows, regions, the receiver of the eave transport, and what a requester makes of its answers (10 R281
to R290, R300 to R309, R316 to R320). -/

namespace Sys2Proof.Machine

/-! ### Windows (10 R281 to R285) -/

/-- A window. -/
def winOf (s : State) (w : Nat) : Win := Tab.get {} s.xpt.wins w

/-- Change a window. -/
def setWin (s : State) (w : Nat) (x : Win) : State := { s with xpt := { s.xpt with wins := Tab.store {} s.xpt.wins w x } }

/-- Whether a window lies in a bay's range. -/
def ownsWin (s : State) (bay w : Nat) : Bool :=
  decide (getF s Fld.xptBayWinFirst bay ≤ w ∧ w < getF s Fld.xptBayWinFirst bay + getF s Fld.xptBayWinCount bay)

/-- Whether a revoke of a window still runs (10 Table 10.2 step 4). -/
def revoking (s : State) (w : Nat) : Bool :=
  s.rings.ops.any (fun e => e.2.opcode == 0x0311 && decide (e.2.st ≠ .waiting) && leAt e.2.body 0 2 == w)

/-- The free windows of a bay that have been free longest. Between windows that have never been used the spec names no order. -/
def freeWins (s : State) (bay : Nat) : List Nat :=
  let lo := getF s Fld.xptBayWinFirst bay
  let ws := ((List.range (Nat.min (getF s Fld.xptBayWinCount bay) (65536 - lo))).map (· + lo)).filter
    (fun w => !(winOf s w).isOpen && (winOf s w).holdEnd.isNone && !revoking s w)
  match (ws.map (fun w => (winOf s w).freeRank)) with
  | [] => []
  | r :: rs => ws.filter (fun w => (winOf s w).freeRank == rs.foldl Nat.min r)

/-- Take one of some numbers: any of them, by a free value. -/
def pickFree (s : State) (ws : List Nat) : Option Nat × State :=
  match ws with
  | [] => (none, s)
  | [w] => (some w, s)
  | w :: _ =>
    let d := drawDword s
    (some (ws.getD (d.1.toNat % ws.length) w), d.2)

/-- Close a window: its generation advances in the same cycle, and a wrapped one is held for 1 s (10 R283, R285). -/
def closeWin (s : State) (w : Nat) : State :=
  let x := winOf s w
  let g := nextVersion x.gen
  let hold := if g = 1 then some (s.ftime + 1000000000) else none
  setWin { s with xpt := { s.xpt with nextRank := s.xpt.nextRank + 1 } } w { x with isOpen := false, gen := g, deadline := none, freeRank := s.xpt.nextRank, holdEnd := hold }

/-- Why a range may not be exposed: ACCESS_FAULT's reason code (10 R281 check 3). -/
def exposeBad (s : State) (o : Op) (a n rights : Nat) : Option Nat :=
  let ks := (if bitN rights 0 then [AccKind.read] else []) ++ (if bitN rights 1 then [AccKind.write] else []) ++
    (if bitN rights 2 then [AccKind.read, AccKind.write] else [])
  if classOf a ≠ classOf (a + n - 1) then some 48
  else
    match ks.findSome? (fun k => paneRange s o.bay a n k) with
    | some r => some (r * 16)
    | none => if inHost a then (if (qpOwner s o.qp).isSome ∧ rangeOut s o a n = false then none else some 48)
        else if inEnvelope s o.bay a n then none else some 48

/-- Whether the rights, size and connection of an exposure are well formed (10 R281 check 2, R287). -/
def exposeOk (s : State) (o : Op) (conn rights a n limit : Nat) : Bool :=
  decide (1 ≤ rights ∧ rights < 8) && decide (1 ≤ n ∧ n ≤ limit) && (conn == 0xFFFFF || (decide (conn < 2 ^ 20) && ownsConn s o.bay conn)) &&
  (!bitN rights 2 || (match classOf a with | some c => c.isMem | none => false))

/-- DORMER_OPEN, admitted (10 R281). -/
def dormerOpenStart (s : State) (n : Nat) (o : Op) : State :=
  let conn := leAt o.body 0 4
  let rights := leAt o.body 4 1
  let base := leAt o.body 8 8
  let size := leAt o.body 16 8
  let life := leAt o.body 24 4
  if freeWins s o.bay = [] then finishOp s n 0x58 0 0
  else if !exposeOk s o conn rights base size (2 ^ 40) then finishOp s n stBadDescriptor 0 0
  else
    match exposeBad s o base size rights with
    | some e => finishOp s n stAccessFault 0 e
    | none =>
      match pickFree s (freeWins s o.bay) with
      | (none, s) => finishOp s n 0x58 0 0
      | (some w, s) =>
        let dl := if life = 0 then none else some (s.ftime + life * 1000)
        let x := { winOf s w with isOpen := true, conn := conn, bay := o.bay, rights := rights, base := base, size := size, deadline := dl, opener := o.qp }
        finishOk (setWin s w x) n (w + x.gen * 65536)

/-- DORMER_REVOKE, admitted (10 R283): it completes when the accesses accepted before it have. -/
def dormerRevokeStart (s : State) (n : Nat) (o : Op) : State :=
  let w := leAt o.body 0 2
  let x := winOf s w
  if !x.isOpen ∨ x.gen ≠ leAt o.body 2 2 then finishOp s n 0x59 x.gen 0
  else closeWin s w

/-- DORMER_REVOKE_DONE. -/
def execDormerRevokeDone (op : Nat) (s : State) : Host.Outcome State Fault Refusal :=
  .next
    (match running s op 0x0311 with
     | some o => finishOk s op (winOf s (leAt o.body 0 2)).gen
     | none => s)

/-- To the event ring of the ring that opened a window or registered a region. -/
def raiseW (s : State) (ring bay : Nat) (ev : Event) : State := raiseR s srcDormer ring { ev with bay := bay }

/-- DORMER_EXPIRY (10 R284). -/
def execDormerExpiry (w : Nat) (s : State) : Host.Outcome State Fault Refusal :=
  .next
    (let x := winOf s w
     match x.deadline with
     | some t =>
       if !x.isOpen then s
       else
         let s := closeWin (reach s t) w
         raiseW s x.opener x.bay { code := 0x0509, aux16 := w, arg1 := (winOf s w).gen }
     | none => s)

/-- WINDOW_WRAP_HOLD_EXPIRY (10 R285). -/
def execWindowWrapHoldExpiry (w : Nat) (s : State) : Host.Outcome State Fault Refusal :=
  .next
    (match (winOf s w).holdEnd with
     | some t => setWin { reach s t with xpt := { s.xpt with nextRank := s.xpt.nextRank + 1 } } w { winOf s w with holdEnd := none, freeRank := s.xpt.nextRank }
     | none => s)

/-! ### Regions (10 R286 to R289) -/

/-- The address of a region entry. -/
def rgnAddr (s : State) (i : Nat) : Nat := addrOf s .rgnBaseLo .rgnBaseHi 0 + 32 * i

/-- Look at a region entry: it is cached, most recently used first of 16,384; a miss counts (10 R286). -/
def touchRgn (s : State) (i : Nat) : State :=
  let s := if s.xpt.rgnCache.contains i then s else bump s Fld.xptRgnMissCnt 0
  { s with xpt := { s.xpt with rgnCache := (i :: s.xpt.rgnCache.filter (· != i)).take 16384 } }

/-- A region entry's 32 bytes. -/
def rgnEntry (s : State) (i : Nat) : List Byte := readBytes s (rgnAddr s i) 32

/-- Whether an index lies in a bay's range and in the table. -/
def ownsRgn (s : State) (bay i : Nat) : Bool :=
  decide (getF s Fld.xptBayRgnFirst bay ≤ i ∧ i < getF s Fld.xptBayRgnFirst bay + getF s Fld.xptBayRgnCount bay ∧ i < getF s Fld.rgnCount 0)

/-- REGION_REG, admitted (10 R287). -/
def regionRegStart (s : State) (n : Nat) (o : Op) : State :=
  let i := leAt o.body 0 4
  let rights := leAt o.body 4 1
  let base := leAt o.body 8 8
  let len := leAt o.body 16 8
  let conn := leAt o.body 24 4
  if !ownsRgn s o.bay i then finishOp s n 0x5A 0 0
  else
    let s := touchRgn s i
    let e := rgnEntry s i
    if bitN (leAt e 0 1) 0 then finishOp s n 0x5A 0 0
    else if !exposeOk s o conn rights base len (2 ^ 44) then finishOp s n stBadDescriptor 0 0
    else
      match exposeBad s o base len rights with
      | some x => finishOp s n stAccessFault 0 x
      | none =>
        let tag := (leAt e 1 1 + 1) % 256
        let bs := leBytes 1 (1 + 2 * rights) ++ leBytes 1 tag ++ leBytes 1 o.bay ++ leBytes 1 0 ++ leBytes 4 conn ++ leBytes 8 base ++
          leBytes 8 len ++ leBytes 8 0
        let s := writeBytes s (rgnAddr s i) bs
        let s := { s with xpt := { s.xpt with rgnOpener := Tab.put s.xpt.rgnOpener i o.qp } }
        finishOk s n (i + tag * 2 ^ 24)

/-- REGION_DEREG, admitted (10 R289). -/
def regionDeregStart (s : State) (n : Nat) (o : Op) : State :=
  let i := leAt o.body 0 3
  if !ownsRgn s o.bay i then finishOp s n 0x5A 0 0
  else
    let s := touchRgn s i
    let e := rgnEntry s i
    if !bitN (leAt e 0 1) 0 ∨ leAt e 1 1 ≠ leAt o.body 3 1 then finishOp s n 0x5A 0 0
    else writeBytes s (rgnAddr s i) (leBytes 1 (leAt e 0 1 - 1))

/-- REGION_DEREG_DONE. -/
def execRegionDeregDone (op : Nat) (s : State) : Host.Outcome State Fault Refusal :=
  .next (if (running s op 0x0313).isSome then finishOk s op 0 else s)

/-! ### Access checks (10 R282, R288) -/

/-- Whether an event limited to one per ms per connection may be raised. -/
def perMs (s : State) (last : Option Nat) : Bool :=
  match last with
  | some t => decide (t + 1000000 ≤ s.ftime)
  | none => true

/-- WINDOW_STALE_HIT. -/
def staleHit (s : State) (c w gen : Nat) : State :=
  let x := connOf s c
  if perMs s x.staleAt then
    let s := bump (setConn s c { x with staleAt := some s.ftime }) Fld.xptStaleCnt 0
    raiseW s (winOf s w).opener (winOf s w).bay { code := 0x0505, aux16 := w, arg0 := c, arg1 := gen + (winOf s w).gen * 65536 }
  else s

/-- KEY_VIOLATION; `valid` says whether the key names a valid entry. -/
def keyViolation (s : State) (c key check : Nat) (valid : Bool) : State :=
  let x := connOf s c
  if perMs s x.keyAt then
    let s := bump (setConn s c { x with keyAt := some s.ftime }) Fld.xptKeyViolCnt 0
    let ev : Event := { code := 0x0506, bay := x.bay, aux8 := check, arg0 := c, arg1 := key }
    match Tab.lookup s.xpt.rgnOpener (key % 2 ^ 24) with
    | some r => if valid then raiseR s srcDormer r ev else raiseD s srcDormer ev
    | none => raiseD s srcDormer ev
  else s

/-- The checks on a window: the address, or the syndrome. -/
def checkWindow (s : State) (c rref off len right : Nat) : Except (Nat × State) (Nat × State) :=
  let w := rref % 65536
  let x := winOf s w
  if !x.isOpen ∨ x.gen ≠ rref / 65536 then .error (3, staleHit s c w (rref / 65536))
  else if !(x.conn == c || (x.conn == 0xFFFFF && (connOf s c).bay == x.bay)) then .error (5, s)
  else if !bitN x.rights right then .error (5, s)
  else if x.size < off + len then .error (5, s)
  else .ok (x.base + off, s)

/-- The checks on a region. -/
def checkRegion (s : State) (c key off len right : Nat) : Except (Nat × State) (Nat × State) :=
  let i := key % 2 ^ 24
  if getF s Fld.rgnCount 0 ≤ i then .error (4, keyViolation s c key 1 false)
  else
    let s := touchRgn s i
    let e := rgnEntry s i
    let conn := leAt e 4 4
    if !bitN (leAt e 0 1) 0 then .error (4, keyViolation s c key 2 false)
    else if leAt e 1 1 ≠ key / 2 ^ 24 then .error (4, keyViolation s c key 3 true)
    else if !(conn == c || (conn == 0xFFFFF && (connOf s c).bay == leAt e 2 1)) then .error (4, keyViolation s c key 4 true)
    else if !bitN (leAt e 0 1) (right + 1) then .error (4, keyViolation s c key 5 true)
    else if leAt e 16 8 < off + len then .error (4, keyViolation s c key 6 true)
    else .ok (leAt e 8 8 + off, s)

/-- The checks on a request: the fabric address, or a syndrome of Table 10.7. A host window that cannot be reached answers
REMOTE_ERROR, a kind that is not used INVALID (DEDUCED, log 64). -/
def checkRemote (s : State) (c : Nat) (rh : RemHdr) (len right : Nat) : Except (Nat × State) (Nat × State) :=
  let r := if rh.rkind = 0 then checkWindow s c rh.rref.toNat rh.offset.toNat len right
    else if rh.rkind = 1 then checkRegion s c rh.rref.toNat rh.offset.toNat len right
    else .error (6, s)
  match r with
  | .error e => .error e
  | .ok (a, s) => if (reachStatus s a 0).isSome then .error (7, s) else .ok (a, s)

/-! ### What the receiver sends (10 R303 to R305) -/

/-- Send an answer, charged to the connection's partner (10 R280). -/
def sendAnswer (s : State) (c op : Nat) (first last ece : Bool) (psn : Nat) (ext payload : List Byte) : State :=
  let s := chargePartner s (connOf s c).partner 1 (16 + ext.length + payload.length)
  sendPkt s c op false first last ece psn ext payload

/-- AH of Table 10.6. -/
def ahBytes (syn value : Nat) : List Byte := beBytes 1 syn ++ beBytes 1 0 ++ beBytes 2 value

/-- Send an ACK for e - 1; one for a duplicate carries no ece (10 R302, R309). -/
def sendAck (s : State) (c : Nat) (dup : Bool) : State :=
  let x := connOf s c
  let s := setConn s c { x with coal := 0, coalFrom := none, ce := x.ce && dup, lastAck := some s.ftime }
  sendAnswer s c 8 false false (x.ce && !dup) (psnAdd x.e (2 ^ 24 - 1)) (ahBytes 0 0) []

/-- Send a NAK, which also acknowledges the PSN before its own (10 R305). -/
def sendNak (s : State) (c syn psn value : Nat) : State :=
  let x := connOf s c
  sendAnswer (setConn s c { x with coal := 0, coalFrom := none }) c 9 false false false psn (ahBytes syn value) []

/-- A terminal NAK for the expected packet; e passes `n` PSNs, and the rest of the message is skipped (10 R304). -/
def termNak (s : State) (c : Nat) (h : PktHdr) (syn n : Nat) (skips : Bool) : State :=
  let s := sendNak s c syn h.psn 0
  let x := connOf s c
  if x.st ≠ 1 then s
  else setConn s c { x with e := psnAdd x.e n, skip := skips && !h.last, seqNak := false, inMsg := false, recv := none, coalFrom := some s.ftime }

/-- Send the ACK that a packet performed or skipped calls for (10 R305, R309). -/
def ackDue (s : State) (c : Nat) (asked ce : Bool) : State :=
  let x := connOf s c
  let stale := match x.lastAck with
    | some t => decide (t + 50000 ≤ s.ftime)
    | none => true
  if asked || decide (getF s Fld.xptAckCoalPkts 0 ≤ x.coal) || (ce && stale) then sendAck s c false else s

/-- The expected packet has been performed: e passes its PSNs. `asked` says whether it is to be acknowledged at once. -/
def performed (s : State) (c : Nat) (h : PktHdr) (n : Nat) (asked : Bool) : State :=
  let x := connOf s c
  let x := { x with e := psnAdd x.e n, skip := false, seqNak := false, inMsg := !h.last, coal := x.coal + 1, coalFrom := some (x.coalFrom.getD s.ftime), ce := x.ce || h.ce }
  ackDue (setConn s c x) c asked h.ce

/-- The expected packet is skipped (10 R304). -/
def skipped (s : State) (c : Nat) (h : PktHdr) (n : Nat) : State :=
  let x := connOf s c
  let x := { x with e := psnAdd x.e n, skip := !h.last, seqNak := false, coal := x.coal + 1, coalFrom := some (x.coalFrom.getD s.ftime), ce := x.ce || h.ce }
  ackDue (setConn s c x) c false h.ce

/-! ### Requests (10 R301 to R304, R319, R320) -/

/-- Whether a request packet begins or goes on as R294 lays down; `goes` says whether the message under way is of its kind. -/
def inPlace (x : Conn) (h : PktHdr) (goes : Bool) : Bool := if h.first then !x.inMsg else x.inMsg && goes

/-- A WRITE packet (10 R301). -/
def doWrite (s : State) (c : Nat) (h : PktHdr) (rh : RemHdr) (bs : List Byte) : State :=
  let x := connOf s c
  if !inPlace x h x.recv.isNone then termNak s c h 6 1 true
  else
    match checkRemote s c rh bs.length 1 with
    | .error (syn, s) => termNak s c h syn 1 true
    | .ok (a, s) => performed (writeBytes s a bs) c h 1 h.ackreq

/-- The oldest RECV_POST of a ring that no message holds (10 R319). -/
def recvFree (s : State) (ring : Nat) : Option Nat :=
  let held (n : Nat) : Bool := s.xpt.conns.any (fun e => decide (e.2.recv.map (fun r => r.1) = some n))
  (opsWhere s (fun o => decide (o.src = .ring ring) && o.opcode == 0x0306 && decide (o.st = .admitted))).find? (fun n => !held n)

/-- A SEND packet into its RECV_POST (10 R319). -/
def sendInto (s : State) (c : Nat) (h : PktHdr) (n got : Nat) (bs : List Byte) : State :=
  match opOf s n with
  | none => termNak s c h 7 1 true
  | some o =>
    if leAt o.body 16 4 < got + bs.length then termNak (finishOp s n 0x56 0 0) c h 6 1 true
    else
      match (if bs.isEmpty then .ok s else engWrite s o (leAt o.body 8 8 + got) bs) with
      | .error st => termNak (finishOp s n stHostError 0 st) c h 7 1 true
      | .ok s =>
        let all := got + bs.length
        let s := setConn s c { connOf s c with recv := if h.last then none else some (n, all) }
        let s := performed s c h 1 h.ackreq
        if h.last then finishOk (putOp s n { o with st := .committed }) n all else s

/-- A SEND packet (10 R308, R319). -/
def doSend (s : State) (c : Nat) (h : PktHdr) (bs : List Byte) : State :=
  let x := connOf s c
  if !inPlace x h x.recv.isSome then termNak s c h 6 1 true
  else
    match x.recv with
    | some (n, got) => sendInto s c h n got bs
    | none =>
      match recvFree s x.home with
      | none => sendNak s c 2 h.psn (getF s Fld.xptRnrUs 0)
      | some n => sendInto s c h n 0 bs

/-- The READ_RESP packets of a read of a range (10 R294). -/
def sendResponses (s : State) (c psn a len : Nat) : State :=
  let mtu := (connOf s c).mtu
  let n := pktCount mtu len
  (List.range n).foldl (fun s i =>
    let d := fetchBytes s (a + i * mtu) (Nat.min mtu (len - i * mtu))
    sendAnswer d.2 c 3 (i == 0) (i + 1 == n) false (psnAdd psn i) [] d.1) s

/-- A READ_REQ (10 R294, R301). -/
def doRead (s : State) (c : Nat) (h : PktHdr) (rh : RemHdr) (len : Nat) : State :=
  let n := pktCount (connOf s c).mtu len
  if (connOf s c).inMsg ∨ !h.first ∨ !h.last then termNak s c h 6 n false
  else
    match checkRemote s c rh len 0 with
    | .error (syn, s) => termNak s c h syn n false
    | .ok (a, s) => performed (sendResponses s c h.psn a len) c h n h.ackreq

/-- An ATOMIC_RESP, which is also the acknowledgement of its request (10 R294; DEDUCED, log 66). -/
def sendOld (s : State) (c psn : Nat) (old : Dword) : State := sendAnswer s c 6 true true false psn (ahBytes 0 0 ++ beBytes 8 old.toNat) []

/-- An atomic (10 R301, R302): `f` gives the new value from the old. -/
def doAtomic (s : State) (c : Nat) (h : PktHdr) (rh : RemHdr) (f : Dword → Dword) : State :=
  if (connOf s c).inMsg ∨ !h.first ∨ !h.last ∨ rh.offset.toNat % 8 ≠ 0 then termNak s c h 6 1 false
  else
    match checkRemote s c rh 8 2 with
    | .error (syn, s) => termNak s c h syn 1 false
    | .ok (a, s) =>
      let old : Dword := BitVec.ofNat 64 (readLe s a 8)
      let s := writeLe s a 8 (f old).toNat
      let x := connOf s c
      let s := setConn s c { x with replay := ((h.psn, old) :: x.replay).take 16 }
      performed (sendOld s c h.psn old) c h 1 false

/-- A WINDOW_NOTIFY (10 R320). -/
def doNotify (s : State) (c : Nat) (h : PktHdr) (w g : Half) (rights : Byte) (size1 : Dword) (cookie : Word) : State :=
  if (connOf s c).inMsg ∨ !h.first ∨ !h.last then termNak s c h 6 1 true
  else
    let s := raiseC s c { code := 0x0508, aux8 := rights.toNat, aux16 := w.toNat, arg0 := size1.toNat % 2 ^ 40 + c * 2 ^ 40, arg1 := g.toNat + cookie.toNat * 65536 }
    performed s c h 1 h.ackreq

/-- A duplicate (10 R302): reads run again, atomics are answered from the replay cache, anything else is acknowledged. -/
def doDuplicate (s : State) (c : Nat) (h : PktHdr) (b : PktBody) : State :=
  let s := bump s Fld.xptDupCnt 0
  let replay (s : State) : State :=
    match (connOf s c).replay.find? (fun e => e.1 == h.psn) with
    | some e => sendOld s c h.psn e.2
    | none => sendAck s c true
  match b with
  | .readReq rh len =>
    (match checkRemote s c rh len 0 with
     | .error (syn, s) => sendNak s c syn h.psn 0
     | .ok (a, s) => sendResponses s c h.psn a len)
  | .fetchAdd .. => replay s
  | .cmpSwap .. => replay s
  | _ => sendAck s c true

/-- PSNs a request takes. -/
def bodyPsns (x : Conn) (b : PktBody) : Nat :=
  match b with
  | .readReq _ len => pktCount x.mtu len
  | _ => 1

/-- The expected request. CMP_SWAP compares with opnd1 and swaps in opnd2 (DEDUCED, log 69). -/
def doExpected (s : State) (c : Nat) (h : PktHdr) (b : PktBody) : State :=
  match b with
  | .send bs => doSend s c h bs
  | .write rh bs => doWrite s c h rh bs
  | .readReq rh len => doRead s c h rh len
  | .fetchAdd rh v => doAtomic s c h rh (fun old => old + v)
  | .cmpSwap rh x y => doAtomic s c h rh (fun old => if old = x then y else old)
  | .notify w g r z k => doNotify s c h w g r z k
  | .readResp _ | .atomicResp _ | .ack | .nak .. => s

/-- A request under go-back-N (10 R300 to R304). -/
def doRequest (s : State) (c : Nat) (h : PktHdr) (b : PktBody) : State :=
  let x := connOf s c
  let d := psnDist x.e h.psn
  if 2 ^ 23 ≤ d then doDuplicate s c h b
  else if d ≠ 0 then
    (if x.seqNak then s
     else sendNak (bump (setConn s c { x with seqNak := true }) Fld.xptSeqNakCnt 0) c 1 x.e 0)
  else if x.skip ∧ h.first = false then skipped s c h (bodyPsns x b)
  else doExpected (setConn s c { x with skip := false }) c h b

/-! ### Answers (10 R306 to R308) -/

/-- The message whose next missing response is at una, with its place. -/
def awaited (x : Conn) (psn : Nat) (read : Bool) : Option (Nat × Msg) :=
  (x.msgs.zipIdx.map (fun e => (e.2, e.1))).find? (fun e =>
    (if read then e.2.kind == 2 else e.2.kind == 4 || e.2.kind == 5) && e.2.sent != 0 && decide (e.2.got < e.2.n) &&
    psnAdd e.2.psn0 e.2.got == psn && psn == x.una)

/-- A response has come in order: una passes it. -/
def tookResponse (s : State) (c i : Nat) (m : Msg) : State :=
  let x := connOf s c
  setConn s c { x with msgs := x.msgs.set i { m with got := m.got + 1 }, una := psnAdd x.una 1, retry := 0, rnr := 0, retryFrom := s.ftime }

/-- Where the data of a read goes: into local memory for an operation, else kept with its message. -/
def keepData (s : State) (m : Msg) (mtu : Nat) (bs : List Byte) : Except Nat (State × Msg) :=
  match m.who with
  | .op n =>
    (match opOf s n with
     | some o => (engWrite s o (m.laddr + m.got * mtu) bs).map (fun s => (s, m))
     | none => .ok (s, m))
  | _ => .ok (s, { m with data := m.data ++ bs })

/-- A READ_RESP (10 R306, Table 10.10). -/
def doReadResp (s : State) (c : Nat) (h : PktHdr) (bs : List Byte) : State :=
  let x := connOf s c
  match awaited x h.psn true with
  | none => s
  | some (i, m) =>
    if m.dead then settleConn (tookResponse s c i m) c
    else
      match keepData s m x.mtu bs with
      | .error st => endMsg (tookResponse s c i { m with dead := true }) m stHostError st
      | .ok (s, m) =>
        if m.got + 1 = m.n then settleConn (endMsg (tookResponse s c i { m with dead := true }) m 0 0) c
        else tookResponse s c i m

/-- An ATOMIC_RESP (10 R306): the old value goes to laddr. -/
def doAtomicResp (s : State) (c : Nat) (h : PktHdr) (old : Dword) : State :=
  let x := connOf s c
  match awaited x h.psn false with
  | none => s
  | some (i, m) =>
    let s := tookResponse s c i { m with dead := true }
    let m := { m with data := leBytes 8 old.toNat }
    match m.who with
    | .op n =>
      (match opOf s n with
       | some o =>
         if m.dead then settleConn s c
         else
           (match engWrite s o m.laddr m.data with
            | .error st => settleConn (endMsg s m stHostError st) c
            | .ok s => settleConn (endMsg s m 0 0) c)
       | none => settleConn s c)
    | _ => settleConn s c

/-- The status of a terminal NAK (10 Table 10.7, 10.12). -/
def nakStatus (syn : Nat) : Nat := 0x4E + syn

/-- A terminal NAK at a PSN ends the message that holds it (10 R306). -/
def doTerminal (s : State) (c psn syn : Nat) : State :=
  let x := connOf s c
  match (x.msgs.zipIdx.map (fun e => (e.2, e.1))).find? (fun e => e.2.sent != 0 && decide (psnDist e.2.psn0 psn < msgSpan e.2)) with
  | none => s
  | some (i, m) => endMsg (putMsg s c i { m with dead := true }) m (nakStatus syn) 0

/-- A NAK (10 R305 to R308): it acknowledges the PSN before its own. -/
def doNak (s : State) (c : Nat) (h : PktHdr) (syn value : Nat) : State :=
  let x := connOf s c
  if psnDist x.una x.nxt ≤ psnDist x.una h.psn then s
  else
    let s := if x.una = h.psn then s else ackTo s c (psnAdd h.psn (2 ^ 24 - 1))
    if (connOf s c).st ≠ 1 then s
    else
      match syn with
      | 1 => retryConn s c h.psn
      | 2 => if (connOf s c).rnrWait.isSome then s else setConn s c { connOf s c with rnrWait := some (s.ftime + value * 1000, h.psn) }
      | 3 | 4 | 5 | 6 | 7 => doTerminal s c h.psn syn
      | _ => s

/-! ### Receiving (10 R291, R293, R299, R317) -/

/-- The failed check of R317, as AUTH_FAIL reports it. -/
def secFailure (x : Conn) (h : PktHdr) : Option Nat :=
  if x.sec ≠ h.sec then some 3
  else if !x.sec then none
  else if !h.tagOk then some 1
  else if h.nonce ≤ x.rxNonce then some 2
  else none

/-- A packet that fails R317 is discarded. -/
def authFail (s : State) (c k : Nat) : State :=
  let s := bump s (if k = 2 then Fld.xptReplayCnt else Fld.xptAuthFailCnt) 0
  let x := connOf s c
  if perMs s x.authAt then raiseC (setConn s c { x with authAt := some s.ftime }) c { code := 0x050A, aux8 := k, arg0 := c } else s

/-- A packet of a READY connection whose context is there. -/
def takePkt (s : State) (h : PktHdr) (b : PktBody) : State :=
  let c := h.conn
  let s := touchCtx s c
  let x := connOf s c
  if x.st ≠ 1 then s
  else
    match secFailure x h with
    | some k => authFail s c k
    | none =>
      let s := if x.sec then setConn s c { x with rxNonce := h.nonce } else s
      let s := match b with
        | .ack => ackTo (if h.ece then dcDecrease s c else s) c h.psn
        | .nak syn v => doNak s c h syn v
        | .readResp bs => doReadResp s c h bs
        | .atomicResp old => doAtomicResp s c h old
        | _ => doRequest s c h b
      pump s c

/-- Whether a storm drops what arrives for a connection (10 R312). -/
def eaveDropped (s : State) (h : PktHdr) : Bool := stormDrops s h.port (connOf s h.conn).prio

/-- Whether a packet fits no open connection, or not its addresses or sub-port (10 R291). -/
def noConn (s : State) (h : PktHdr) : Bool :=
  let x := connOf s h.conn
  decide (x.st = 0 ∨ h.port ≠ x.port ∨ h.srcIp ≠ x.peerIp ∨ h.dstIp ≠ x.localIp)

/-- A packet of an open connection is taken, or waits for its context (10 R299). -/
def eaveTake (s : State) (h : PktHdr) (b : PktBody) : State :=
  if ctxCached s h.conn then takePkt s h b
  else
    let s := if s.xpt.fillWait.any (fun p => p.1.conn == h.conn) then s else bump s Fld.xptCtxMissCnt 0
    { s with xpt := { s.xpt with fillWait := s.xpt.fillWait ++ [(h, b)] } }

/-- An eave transport packet arrives (10 R291, R299). -/
def eaveIn (s : State) (h : PktHdr) (b : PktBody) : State :=
  if !portUp s h.port then s
  else if noConn s h then bump (ungate s 76) Fld.xptNoconnCnt 0
  else if eaveDropped s h then bump (ungate s 76) Fld.xptStormDropCnt 0
  else eaveTake (ungate s 76) h b

/-- SEND_PACKET. -/
def execSendPacket (h : PktHdr) (payload : List Byte) (s : State) : Host.Outcome State Fault Refusal := .next (eaveIn s h (.send payload))
/-- WRITE_PACKET. -/
def execWritePacket (h : PktHdr) (rh : RemHdr) (payload : List Byte) (s : State) : Host.Outcome State Fault Refusal :=
  .next (eaveIn s h (.write rh payload))
/-- READ_REQ_PACKET. -/
def execReadReqPacket (h : PktHdr) (rh : RemHdr) (len : Word) (s : State) : Host.Outcome State Fault Refusal :=
  .next (eaveIn s h (.readReq rh len.toNat))
/-- READ_RESP_PACKET. -/
def execReadRespPacket (h : PktHdr) (payload : List Byte) (s : State) : Host.Outcome State Fault Refusal :=
  .next (eaveIn s h (.readResp payload))
/-- FETCH_ADD_PACKET. -/
def execFetchAddPacket (h : PktHdr) (rh : RemHdr) (opnd1 : Dword) (s : State) : Host.Outcome State Fault Refusal :=
  .next (eaveIn s h (.fetchAdd rh opnd1))
/-- CMP_SWAP_PACKET. -/
def execCmpSwapPacket (h : PktHdr) (rh : RemHdr) (opnd1 opnd2 : Dword) (s : State) : Host.Outcome State Fault Refusal :=
  .next (eaveIn s h (.cmpSwap rh opnd1 opnd2))
/-- ATOMIC_RESP_PACKET. -/
def execAtomicRespPacket (h : PktHdr) (old : Dword) (s : State) : Host.Outcome State Fault Refusal := .next (eaveIn s h (.atomicResp old))
/-- WINDOW_NOTIFY_PACKET. -/
def execWindowNotifyPacket (h : PktHdr) (window gen : Half) (rights : Byte) (size1 : Dword) (cookie : Word) (s : State) :
    Host.Outcome State Fault Refusal :=
  .next (eaveIn s h (.notify window gen rights size1 cookie))
/-- ACK_PACKET. -/
def execAckPacket (h : PktHdr) (s : State) : Host.Outcome State Fault Refusal := .next (eaveIn s h .ack)
/-- NAK_PACKET. -/
def execNakPacket (h : PktHdr) (syndrome : Byte) (value : Half) (s : State) : Host.Outcome State Fault Refusal :=
  .next (eaveIn s h (.nak syndrome.toNat value.toNat))

/-- BAD_EAVE_PACKET (10 R293). One whose version and opcode are good is no such packet. -/
def execBadEavePacket (h : PktHdr) (version opcode : Nat) (s : State) : Host.Outcome State Fault Refusal :=
  .next
    (if !portUp s h.port then s
    else if version = 1 ∧ opcode ≤ 9 then s
    else bump (ungate s 76) Fld.xptBadOpCnt 0)

/-- ACK_COALESCE_TIMEOUT (10 R305). -/
def execAckCoalesceTimeout (conn : Nat) (s : State) : Host.Outcome State Fault Refusal :=
  .next
    (let x := connOf s conn
     match x.coalFrom with
     | some t => if x.st = 1 then sendAck (reach s (t + getF s Fld.xptAckCoalNs 0)) conn false else s
     | none => s)

/-! ### PFC (10 R311, R312) -/

/-- Nanoseconds of a pause of some quanta of 512 bit times (IEEE 802.1Qbb, PRESUMED, log 70). -/
def pauseNs (s : State) (p quanta : Nat) : Nat := (quanta * 512 + portGbps s p - 1) / portGbps s p

/-- One priority of a received PFC frame. -/
def pfcTake (s : State) (p q quanta : Nat) : State :=
  if !pfcOn s p q then s
  else
    let x := pfcOf s p q
    if quanta = 0 then egressFlush (setPfc s p q { x with paused := none }) p q
    else
      let since := match x.paused with
        | some (a, t) => if s.ftime < t then a else s.ftime
        | none => s.ftime
      setPfc s p q { x with paused := some (since, s.ftime + pauseNs s p quanta) }

/-- PFC_FRAME_RECEIVED. While a storm of direction 0 is recovered from, received pause is ignored. -/
def execPfcFrameReceived (port : Nat) (enables : Byte) (quanta : List Half) (s : State) : Host.Outcome State Fault Refusal :=
  .next
    (if !portUp s port then s
    else
      (List.range 8).foldl (fun s q =>
        if bitN enables.toNat q && !stormOut s port q then pfcTake s port q (quanta.getD q 0).toNat else s) (egressDue s))

/-- PFC_REFRESH. -/
def execPfcRefresh (port q : Nat) (s : State) : Host.Outcome State Fault Refusal :=
  .next (if (pfcOf s port q).xoff.isSome ∧ portUp s port ∧ pfcOn s port q then emit s (.pfc port q true) else s)

/-- PFC_STORM_DETECTED (10 R312). -/
def execPfcStormDetected (port q : Nat) (own : Bool) (s : State) : Host.Outcome State Fault Refusal :=
  .next
    (let x := pfcOf s port q
     let wait := getF s Fld.xptStormStormMs 0 * 1000000
     if own then
       (match x.xoff with
        | some t =>
          if x.dropping then s
          else raiseD (setPfc (reach s (t + wait)) port q { x with dropping := true }) srcXpt { code := 0x0503, aux8 := port, aux16 := q + 0x100 }
        | none => s)
     else
       match x.paused with
       | some (a, t) =>
         if t < a + wait ∨ x.ignore.isSome = true then s
         else
           let s := reach s (a + wait)
           let s := setPfc s port q { x with paused := none, ignore := some (s.ftime + getF s Fld.xptStormRecoverMs 0 * 1000000) }
           egressFlush (raiseD s srcXpt { code := 0x0503, aux8 := port, aux16 := q }) port q
       | none => s)

/-- PFC_STORM_RECOVERY. -/
def execPfcStormRecovery (port q : Nat) (own : Bool) (s : State) : Host.Outcome State Fault Refusal :=
  .next
    (let x := pfcOf s port q
     if own then
       (if x.dropping ∧ bufUse s port q < xonAt s port then
          raiseD (setPfc s port q { x with dropping := false }) srcXpt { code := 0x0503, aux8 := port, aux16 := q + 0x300 }
        else s)
     else
       match x.ignore with
       | some t => raiseD (setPfc (reach s t) port q { x with ignore := none }) srcXpt { code := 0x0503, aux8 := port, aux16 := q + 0x200 }
       | none => s)

/-! ### Operations on rings (10 R281 to R299, R318) -/

/-- A message of an operation. -/
def opMsg (s : State) (n : Nat) (o : Op) : Msg :=
  let len := leAt o.body 12 4
  let k := o.opcode - 0x0300
  let mtu := (connOf s (leAt o.body 0 4)).mtu
  { who := .op n, kind := if k = 3 then 4 else if k = 4 then 5 else k, n := if k ≤ 2 then pktCount mtu len else 1, rkind := leAt o.body 4 1, rref := leAt o.body 8 4, roffset := leAt o.body 16 8, len := len, laddr := leAt o.body 24 8, opnd1 := BitVec.ofNat 64 (leAt o.body 32 8), opnd2 := BitVec.ofNat 64 (leAt o.body 40 8) }

/-- A WINDOW_NOTIFY names an open window of its bay under its generation (10 Table 10.11; DEDUCED, log 68). -/
def notifyStart (s : State) (n : Nat) (o : Op) : Except Nat State :=
  let w := leAt o.body 8 2
  let x := winOf s w
  if !x.isOpen ∨ x.gen ≠ leAt o.body 10 2 then .ok (finishOp s n 0x59 x.gen 0)
  else xptSend s (leAt o.body 0 4) { who := .op n, kind := 7, n := 1, rkind := x.rights, rref := leAt o.body 8 4, roffset := x.size - 1, len := leAt o.body 12 4 }

/-- Begin an admitted message. -/
def messageStart (s : State) (n : Nat) (o : Op) : State :=
  match (if o.opcode = 0x0305 then notifyStart s n o else xptSend s (leAt o.body 0 4) (opMsg s n o)) with
  | .ok s => s
  | .error st => finishOp s n st 0 (if st = 0x50 then (connOf s (leAt o.body 0 4)).reason else 0)

/-- Bytes of headers beside a payload of mtu (10 R295). -/
def hdrBytes (f : Nat) : Nat :=
  14 + (if bitN f 7 then 4 else 0) + (if bitN f 6 then 40 else 20) + 8 + 16 + 16 + if bitN f 8 then 24 else 0

/-- The context that a parameter block opens (10 Table 10.8). -/
def openedConn (s : State) (o : Op) (b : List Byte) : Conn :=
  let f := leAt b 0x3C 4
  let port := f % 64
  let limit (v d : Nat) : Nat := if v = 0 then d else v
  { st := 1, bay := o.bay, home := o.qp, localIp := beAt b 0 16, peerIp := beAt b 16 16, peerMac := beAt b 32 6, vlanTci := leAt b 38 2, peerConn := leAt b 40 4 % 2 ^ 20, partner := leAt b 44 4 % 2 ^ 20, key := leAt b 0x38 4, port := port, ipv6 := bitN f 6, vlan := bitN f 7, sec := bitN f 8, mtu := 1024 * 2 ^ fieldOf f 10 9, prio := fieldOf f 13 11, dscp := fieldOf f 19 14, retryLimit := limit (fieldOf f 22 20) (getF s Fld.xptRetryRetryLimit 0), rnrLimit := limit (fieldOf f 25 23) (getF s Fld.xptRetryRnrLimit 0), una := leAt b 0x30 3, nxt := leAt b 0x30 3, e := leAt b 0x34 3, rc := lineRate s port, rt := lineRate s port }

/-- Whether a parameter block may open a connection (10 R295). -/
def openOk (s : State) (o : Op) (b : List Byte) : Bool :=
  let f := leAt b 0x3C 4
  decide (f < 2 ^ 26) && portUp s (f % 64) && pfcOn s (f % 64) (fieldOf f 13 11) &&
  decide (1024 * 2 ^ fieldOf f 10 9 + hdrBytes f ≤ 9212) &&
  (!bitN f 8 || (match keyOfHandle s (leAt b 0x38 4) with | some k => k.kind == 2 && keyPermits k o.bay | none => false))

/-- CONN_OPEN, admitted (10 R295). -/
def connOpenStart (s : State) (n : Nat) (o : Op) : State :=
  let c := leAt o.body 0 4
  let a := leAt o.body 8 8
  if (connOf s c).st ≠ 0 then finishOp s n 0x57 0 0
  else if a % 64 ≠ 0 then finishOp s n stBadDescriptor 0 0
  else if !inEnvelope s o.bay a 64 then finishOp s n stAccessFault 0 48
  else
    let b := readBytes s a 64
    if !openOk s o b then finishOp s n stBadDescriptor 0 0
    else finishOk (touchCtx (setConn s c (openedConn s o b)) c) n 0

/-- CONN_CLOSE, admitted (10 R298): the connection is CLOSING until its operations have ended. -/
def connCloseStart (s : State) (n : Nat) (o : Op) : State :=
  let c := leAt o.body 0 4
  let x := connOf s c
  if x.st ≠ 1 ∧ x.st ≠ 2 then finishOp s n 0x57 0 0
  else setConn s c { x with st := 3, closeOp := some n, rnrWait := none }

/-- CONN_CLOSE_DONE: every outstanding operation ends, short of its commit point with ABORTED, and the connection is FREE. -/
def execConnCloseDone (conn : Nat) (s : State) : Host.Outcome State Fault Refusal :=
  .next
    (let x := connOf s conn
     if x.st ≠ 3 then s
     else
       let s := setConn s conn { x with msgs := [] }
       let s := x.msgs.foldl (fun s m => endMsg s m 0x24 0) s
       let s := (opsWhere s (forConn conn)).foldl (fun s n => finishOp s n 0x24 0 0) s
       let s := { s with xpt := { s.xpt with conns := Tab.del s.xpt.conns conn, ctxCache := s.xpt.ctxCache.filter (· != conn), fillWait := s.xpt.fillWait.filter (fun p => p.1.conn != conn) } }
       match x.closeOp with
       | some n => if (running s n 0x0321).isSome then finishOk s n 0 else s
       | none => s)

/-- CONN_QUERY, admitted (10 R298). -/
def connQueryStart (s : State) (n : Nat) (o : Op) : State :=
  let x := connOf s (leAt o.body 0 4)
  finishOk s n (x.nxt + x.e * 2 ^ 24 + x.st * 2 ^ 48)

/-- What an operation of engine 0x03 begins when it is admitted. -/
def xptStart (s : State) (n : Nat) : State :=
  match opOf s n with
  | none => s
  | some o =>
    match o.opcode with
    | 0x0306 => s
    | 0x0310 => dormerOpenStart s n o
    | 0x0311 => dormerRevokeStart s n o
    | 0x0312 => regionRegStart s n o
    | 0x0313 => regionDeregStart s n o
    | 0x0320 => connOpenStart s n o
    | 0x0321 => connCloseStart s n o
    | 0x0322 => connQueryStart s n o
    | _ => messageStart s n o

/-- Whether the reserved bytes of a body are 0 and its lengths in range (10 Table 10.11). -/
def xptBodyOk (o : Op) : Bool :=
  let len := leAt o.body 12 4
  match o.opcode with
  | 0x0300 => zeroAt o.body 5 3 && decide (len ≤ 2 ^ 31)
  | 0x0301 | 0x0302 => zeroAt o.body 5 3 && decide (1 ≤ len ∧ len ≤ 2 ^ 31) && decide (leAt o.body 4 1 ≤ 1)
  | 0x0303 | 0x0304 => zeroAt o.body 5 3 && len == 8 && leAt o.body 16 8 % 8 == 0 && decide (leAt o.body 4 1 ≤ 1)
  | 0x0305 => zeroAt o.body 4 4 && zeroAt o.body 16 32
  | 0x0306 => zeroAt o.body 4 4 && zeroAt o.body 20 28
  | 0x0310 => zeroAt o.body 5 3 && zeroAt o.body 28 20
  | 0x0311 => zeroAt o.body 4 44
  | 0x0312 => zeroAt o.body 5 3 && zeroAt o.body 28 20
  | 0x0313 => zeroAt o.body 4 44
  | 0x0320 => zeroAt o.body 4 4 && zeroAt o.body 16 32
  | _ => zeroAt o.body 4 44

/-- Whether an operation names a connection or a window of its bay (10 R318). -/
def xptNamesOk (s : State) (o : Op) : Bool :=
  let c := leAt o.body 0 4
  match o.opcode with
  | 0x0310 | 0x0312 | 0x0313 => true
  | 0x0311 => ownsWin s o.bay (leAt o.body 0 2)
  | 0x0305 => ownsConn s o.bay c && ownsWin s o.bay (leAt o.body 8 2) && decide (c < getF s Fld.xptConnCount 0)
  | _ => ownsConn s o.bay c && decide (c < getF s Fld.xptConnCount 0)

/-- The local range of an operation: address, length, how it is accessed. -/
def xptRange (o : Op) : Option (Nat × Nat × AccKind) :=
  let len := leAt o.body 12 4
  let a := leAt o.body 24 8
  match o.opcode with
  | 0x0300 | 0x0301 => if len = 0 then none else some (a, len, .read)
  | 0x0302 => some (a, len, .write)
  | 0x0303 | 0x0304 => some (a, 8, .write)
  | 0x0306 => if leAt o.body 16 4 = 0 then none else some (leAt o.body 8 8, leAt o.body 16 4, .write)
  | _ => none

/-- Cost of an operation (10 Table 10.10). -/
def xptCost (s : State) (o : Op) : Nat :=
  let len := leAt o.body 12 4
  match o.opcode with
  | 0x0300 | 0x0301 => len + 64 * pktCount (connOf s (leAt o.body 0 4)).mtu len
  | 0x0302 => len + 64
  | 0x0303 | 0x0304 | 0x0305 => 64
  | 0x0306 => if (qpOwner s o.qp).isSome then leAt o.body 16 4 else 0
  | _ => 0

/-- The check of an operation of engine 0x03 at fetch. -/
def xptCheck (s : State) (o : Op) (_ : List Byte) : Verdict :=
  let x := connOf s (leAt o.body 0 4)
  let message := decide (0x0300 ≤ o.opcode ∧ o.opcode ≤ 0x0306)
  let kind := qpKind s o.qp
  if !xptBodyOk o then .bad stBadDescriptor 0
  else if kind = 2 ∨ kind = 3 then .bad stNotPermitted 0
  else if !xptNamesOk s o then .bad 0x5B 0
  else if message && x.st == 2 then .bad 0x50 x.reason
  else if message && x.st != 1 && o.opcode != 0x0306 then .bad 0x57 0
  else
    let go : Verdict := .go (if o.opcode = 0x0306 then 0 else 1) (xptCost s o) (qpPartner s o) [] 0
    match xptRange o with
    | none => go
    | some (a, n, k) =>
      match rangeBad s o a n k with
      | some e => .bad stAccessFault e
      | none => go

/-- Engine 0x03 as the ring sees it. -/
def xptSpec : OpSpec := { check := xptCheck, start := xptStart }

/-- CONTEXT_FILL_DONE (10 R299): what waited for the context goes on; a failed fill puts the connection in ERROR. -/
def execContextFillDone (conn : Nat) (ok : Bool) (s : State) : Host.Outcome State Fault Refusal :=
  .next
    (if (connOf s conn).st = 0 ∨ ctxCached s conn = true then s
    else
      let s := touchCtx s conn
      let s := if ok then s else connErr s conn 4
      let ps := s.xpt.fillWait.filter (fun p => p.1.conn == conn)
      let s := { s with xpt := { s.xpt with fillWait := s.xpt.fillWait.filter (fun p => p.1.conn != conn) } }
      let s := ps.foldl (fun s p => takePkt s p.1 p.2) s
      (opsWhere s (fun o => decide (o.st = .waiting) && (o.opcode == 0x0321 || o.opcode == 0x0322) && leAt o.body 0 4 == conn)).foldl (judge xptStart) s)

/-- CONTEXT_WRITE_BACK_FAIL: of a connection whose context has left the cache (10 R297, R299). -/
def execContextWriteBackFail (conn : Nat) (s : State) : Host.Outcome State Fault Refusal :=
  .next (if (connOf s conn).st = 0 ∨ ctxCached s conn = true then s else connErr s conn 4)

end Sys2Proof.Machine
end

