-- ==== Sys2Proof/Machine/Ring.lean ====
section
/-! DEFINITION. Queue pairs and event rings (08 R215 to R228): enabling and stopping, doorbells, fetch, ABORT; and admission
(08 R229 to R239). -/

namespace Sys2Proof.Machine

/-! ### What each operation is (08 Table 8.5) -/

/-- The operations of the engines, by opcode; NOP and ABORT are decided at fetch. -/
def listedOps : List Nat :=
  [0x0100, 0x0200, 0x0201, 0x0300, 0x0301, 0x0302, 0x0303, 0x0304, 0x0305, 0x0306, 0x0310, 0x0311, 0x0312, 0x0313, 0x0320, 0x0321, 0x0322,
   0x0400, 0x0401, 0x0402, 0x0403, 0x0500, 0x0501, 0x0502, 0x0600, 0x0601, 0x0602, 0x0603, 0x0700, 0x0701, 0x0702, 0x0703, 0x0800, 0x0801,
   0x0802]

/-- The engine of an operation. -/
def engineOf (opcode : Nat) : OpSpec :=
  match opcode / 256 with
  | 1 => copySpec
  | 2 => if opcode = 0x0200 then txSpec else rxSpec
  | 3 => xptSpec
  | 4 => nawynSpec
  | 5 => loftSpec
  | 6 => ulSpec
  | 7 => secSpec
  | _ => gutSpec

/-- What begins when an operation of any source is admitted. -/
def startOf (s : State) (n : Nat) : State :=
  match opOf s n with
  | none => s
  | some o =>
    match o.src with
    | .packet _ => packetStart s n
    | .nvme _ _ _ => nvmeStart s n
    | .loft _ _ => loftStart s n
    | .ring _ => (engineOf o.opcode).start s n

/-! ### Enabling and stopping (08 R215 to R218) -/

/-- Count a refused write of the rings' or the admission registers (08 R216, R243). -/
def admDenied (s : State) : State := bump s Fld.admDeniedCnt 0

/-- Whether a requester may configure a ring: either PF, or a thread of the bay whose range holds it (08 R216). -/
def ringWriter (s : State) (req : Requester) (evr : Bool) (n : Nat) : Bool :=
  Requester.isPf req ||
  (match Requester.bay s req with
   | some b => (if evr then bayOfEvr s n else bayOfQp s n) == some b
   | none => false)

/-- Bases of a queue pair's rings and of an event ring. -/
def sqBase (s : State) (q : Nat) : Nat := addrOf s .qpSqBaseLo .qpSqBaseHi q
def cqBase (s : State) (q : Nat) : Nat := addrOf s .qpCqBaseLo .qpCqBaseHi q
def evrBase (s : State) (e : Nat) : Nat := addrOf s .evrBaseLo .evrBaseHi e

/-- Whether a ring's memory lies where R215 has it: a host ring in its owner's host window, any other in the bay's envelope. -/
def ringPlaced (s : State) (owner : Option Nat) (bay a n : Nat) : Bool :=
  match owner with
  | some ep => within a n (hostStart ep) 0x1000000000000
  | none => inEnvelope s bay a n

/-- Whether a queue pair may be enabled: its bay's RING_ALLOC lists it, and its rings lie where they must (08 R215, 04 R100). -/
def qpEnableOk (s : State) (q : Nat) : Bool :=
  match bayOfQp s q with
  | none => false
  | some b =>
    let own := (qpOwner s q).map (fun f => f.1)
    (bayOf s b).rings.contains q && ringPlaced s own b (sqBase s q) (64 * qpDepth s q) && ringPlaced s own b (cqBase s q) (32 * qpDepth s q)

/-- Whether an event ring may be enabled. -/
def evrEnableOk (s : State) (e : Nat) : Bool :=
  match bayOfEvr s e with
  | none => false
  | some b => ringPlaced s (if flagF s Fld.evrCtlHost e then some (getF s Fld.evrCtlEp e) else none) b (evrBase s e) (32 * evrDepth s e)

/-- Enable a disabled or stopped queue pair (08 R217). One that may not be enabled stays as it is, and the write counts as refused
(DESIGN CHOICE, log 101). -/
def qpEnable (s : State) (q : Nat) : State :=
  let st := getF s Fld.qpStatState q
  if st = 1 ∨ st = 2 then s
  else if !qpEnableOk s q then admDenied s
  else
    let s := [Fld.qpSqHead, Fld.qpSqTail, Fld.qpCqTail, Fld.qpCqHead].foldl (fun s f => setF s f q 0) s
    let s := setF (setF s Fld.qpCqTailPhase q 1) Fld.qpStatCqFull q 0
    let s := setQp (setF (setF s Fld.qpCtlEnable q 1) Fld.qpStatState q 1) q {}
    qpSettle s q

/-- Enable an event ring (08 R217); full, lost and seq start anew. The TARP_EXIT that is owed comes first on a host's
(02 R61). -/
def evrEnable (s : State) (e : Nat) : State :=
  if flagF s Fld.evrCtlEnable e then s
  else if !evrEnableOk s e then admDenied s
  else
    let s := [Fld.evrTail, Fld.evrHead, Fld.evrStatFull, Fld.evrStatLost].foldl (fun s f => setF s f e 0) s
    let s := setEvr (setF (setF s Fld.evrTailPhase e 1) Fld.evrCtlEnable e 1) e {}
    if s.ridge.exitOwed && flagF s Fld.evrCtlHost e then tellExit s else s

/-- Begin to stop an enabled queue pair (08 R218). -/
def qpDisable (s : State) (q : Nat) : State :=
  if getF s Fld.qpStatState q = 1 then setF (setF s Fld.qpStatState q 2) Fld.qpCtlEnable q 0 else s

/-- Disable an event ring. -/
def evrDisable (s : State) (e : Nat) : State := setF s Fld.evrCtlEnable e 0

/-- RING_ENABLE: a write of enable = 1. -/
def execRingEnable (req : Requester) (evr : Bool) (n : Nat) (s : State) : Host.Outcome State Fault Refusal :=
  .next
    (gated s req (fun s =>
      if !ringWriter s req evr n then admDenied s
      else if evr then evrEnable s n else qpEnable s n))

/-- RING_DISABLE: a write of enable = 0. -/
def execRingDisable (req : Requester) (evr : Bool) (n : Nat) (s : State) : Host.Outcome State Fault Refusal :=
  .next
    (gated s req (fun s =>
      if !ringWriter s req evr n then admDenied s
      else if evr then evrDisable s n else qpDisable s n))

/-- Operations of a queue pair. -/
def qpOps (s : State) (q : Nat) : List Nat := opsWhere s (fun o => decide (o.src = .ring q))

/-- End the operations among `ns` that are short of their commit points as ABORTED (07 R201 step 2, 08 R240). -/
def abortOps (s : State) (ns : List Nat) : State :=
  ns.foldl (fun s n =>
    match opOf s n with
    | some o => if o.st = .committed then s else finishOp s n stAborted 0 0
    | none => s) s

/-- RING_STOP_DONE: every operation of a stopping queue pair has ended, and the ring is disabled. One past its commit point ends by its
own engine first (08 R218, R240). -/
def execRingStopDone (evr : Bool) (n : Nat) (s : State) : Host.Outcome State Fault Refusal :=
  .next
    (if evr || getF s Fld.qpStatState n != 2 then s
     else
       match qpOwner s n with
       | some (ep, fn) =>
         if (fnOf s ep fn).stopCause ≠ 0 then s
         else
           let s := abortOps s (qpOps s n)
           if (qpOps s n).isEmpty then setF s Fld.qpStatState n 0 else s
       | none =>
         let s := abortOps s (qpOps s n)
         if (qpOps s n).isEmpty then setF s Fld.qpStatState n 0 else s)

/-! ### Doorbells (08 R220 to R222) -/

/-- A discarded doorbell field (08 R221). -/
def badDoorbell (s : State) (evr : Bool) (n : Nat) (v : Dword) : State :=
  let s := bump s Fld.admDbBadCnt 0
  let b := (if evr then bayOfEvr s n else bayOfQp s n).getD 0xFF
  let ev : Event := { code := 0x0301, bay := b, aux8 := if evr then 1 else 0, aux16 := n, arg0 := v.toNat }
  if evr then evrPut s n ev else raiseR s none n ev

/-- Whether an index lies in the span from a head to a tail. -/
def inSpan (d head tail h : Nat) : Bool := decide (h < d ∧ (h + d - head) % d ≤ (tail + d - head) % d)

/-- Completion slots of a queue pair that hold entries, and descriptors available. -/
def cqUsed (s : State) (q : Nat) : Nat := (getF s Fld.qpCqTail q + qpDepth s q - getF s Fld.qpCqHead q) % qpDepth s q
def sqAvail (s : State) (q : Nat) : Nat := (getF s Fld.qpSqTail q + qpDepth s q - getF s Fld.qpSqHead q) % qpDepth s q

/-- Whether the CQ has a slot to reserve, counting those of operations not yet completed (08 R223; log 10). -/
def ringRoom (s : State) (q : Nat) : Bool := decide (cqUsed s q + (qpOps s q).length + 1 < qpDepth s q)

/-- A sq_tail is accepted (08 R222): descriptors first covered take the write's time; the unfetched bit is set. -/
def takeTail (s : State) (q t : Nat) : State :=
  let had := sqAvail s q
  let s := setF s Fld.qpSqTail q t
  let x := qpOf s q
  let known := (x.arrivals.map (fun a => a.1)).sum
  let n := sqAvail s q
  let s := if known < n then setQp s q { x with arrivals := x.arrivals ++ [(n - known, s.ftime)] } else s
  if had = 0 ∧ 0 < n then wakeWatchers s (bitUnfetched q) else s

/-- A cq_head is accepted: slots free, and a stall ends (08 R224). -/
def takeHead (s : State) (q h : Nat) : State :=
  let s := setF s Fld.qpCqHead q h
  if ringRoom s q then setQp (setF s Fld.qpStatCqFull q 0) q { qpOf s q with stalled := false } else s

/-- A queue pair's doorbell. With a field accepted, its pending bit is set and the service rafter woken (08 R222, 05 Table 5.3; of either
field, DEDUCED, log 102). -/
def qpDoorbell (s : State) (q : Nat) (v : Dword) : State :=
  let on := decide (getF s Fld.qpStatState q = 1)
  let t := v.toNat % 65536
  let h := v.toNat / 2 ^ 32 % 65536
  let okT := on && decide (t < qpDepth s q)
  let okH := on && inSpan (qpDepth s q) (getF s Fld.qpCqHead q) (getF s Fld.qpCqTail q) h
  let s := if v.getLsbD 31 then (if okT then takeTail s q t else badDoorbell s false q v) else s
  let s := if v.getLsbD 63 then (if okH then takeHead s q h else badDoorbell s false q v) else s
  if (v.getLsbD 31 && okT) || (v.getLsbD 63 && okH) then
    latchWake (writeGlobal s (bitDoorbell q) true) (getF s Fld.qpCtlServiceRafter q) 1
  else s

/-- An event ring's doorbell (08 R220, R221, R228). -/
def evrDoorbell (s : State) (e : Nat) (v : Dword) : State :=
  let h := v.toNat % 65536
  if !v.getLsbD 31 then s
  else if flagF s Fld.evrCtlEnable e && inSpan (evrDepth s e) (getF s Fld.evrHead e) (getF s Fld.evrTail e) h then
    evrFreed (setF s Fld.evrHead e h) e
  else badDoorbell s true e v

/-- DOORBELL_WRITE. -/
def execDoorbellWrite (req : Requester) (n : Nat) (v : Dword) (s : State) : Host.Outcome State Fault Refusal :=
  .next (gated s req (fun s => qpDoorbell s n v))

/-- EVENT_RING_DOORBELL. -/
def execEventRingDoorbell (req : Requester) (n : Nat) (v : Dword) (s : State) : Host.Outcome State Fault Refusal :=
  .next (gated s req (fun s => evrDoorbell s n v))

/-- CQ_STALL_TIMEOUT (08 R224). -/
def execCqStallTimeout (qp : Nat) (s : State) : Host.Outcome State Fault Refusal :=
  .next
    (if getF s Fld.qpStatState qp ≠ 1 ∨ sqAvail s qp = 0 ∨ ringRoom s qp = true ∨ (qpOf s qp).stalled = true then s
     else
       let s := setQp (setF s Fld.qpStatCqFull qp 1) qp { qpOf s qp with stalled := true }
       raiseR (bump s Fld.admCqStallCnt 0) none qp { code := 0x0302, bay := (bayOfQp s qp).getD 0xFF, aux16 := qp })

/-- NOTIFY_COALESCE_TIMEOUT (08 R219; 15 Table 15.7): of a queue pair (0), an event ring (1) or a Gutter channel (2). coal_us 0 means that
no delay is set (log 13). -/
def execNotifyCoalesceTimeout (kind n : Nat) (s : State) : Host.Outcome State Fault Refusal :=
  .next
    (let due (count at_ us : Nat) (fire : State → State) : State := if count = 0 ∨ us = 0 then s else fire (reach s (at_ + us * 1000))
     match kind with
     | 0 => due (qpOf s n).unann (qpOf s n).unannAt (getF s Fld.qpNotifyCoalUs n) (fun s => qpFire s n)
     | 1 => due (evrOf s n).unann (evrOf s n).unannAt (getF s Fld.evrNotifyCoalUs n) (fun s => evrFire s n)
     | 2 => due (chanOf s n).unann (chanOf s n).unannAt (getF s Fld.gutChNotifyCoalUs n) (fun s => chanFire s n)
     | _ => s)

/-! ### Fetch (08 R223, Table 8.4) -/

/-- Whether a host ring's memory can be reached; another ring's always can. -/
def ringReached (s : State) (q : Nat) : Bool :=
  match qpOwner s q with
  | some (ep, _) => hostUp s ep
  | none => true

/-- Take the next descriptor of a queue pair, if the device fetches from it now: its arrival, its bay, and whether it is refused for the
hold limit. -/
def fetchTake (s : State) (q : Nat) : Option (Nat × Nat × Bool × State) :=
  if getF s Fld.qpStatState q ≠ 1 ∨ sqAvail s q = 0 ∨ ringRoom s q = false ∨ ringReached s q = false then none
  else if getF s Fld.qpLimitMaxWaitOps q ≤ getF s Fld.qpStatWaiting q then none
  else
    match bayOfQp s q, popArrival (qpOf s q).arrivals with
    | some b, some (t, rest) =>
      (match fetchGate s b with
       | none => none
       | some refused =>
         let s := setF s Fld.qpSqHead q ((getF s Fld.qpSqHead q + 1) % qpDepth s q)
         some (t, b, refused, setQp s q { qpOf s q with arrivals := rest }))
    | _, _ => none

/-- The operation that a descriptor spells. -/
def descOp (q b t : Nat) (d : List Byte) : Op :=
  { src := .ring q, opId := BitVec.ofNat 64 (leAt d 8 8), opcode := leAt d 0 2, fence := bitN (leAt d 2 1) 0, notifyNow := bitN (leAt d 2 1) 1, body := (d.drop 16).take 48, arrival := t, bay := b }

/-- Give an operation its number, without admission. -/
def enrol (s : State) (o : Op) : Nat × State :=
  (s.rings.nextOp, putOp { s with rings := { s.rings with nextOp := s.rings.nextOp + 1 } } s.rings.nextOp o)

/-- Decide an ABORT (08 R241). It is itself past its commit point. -/
def abortOp (s : State) (q n : Nat) (target : Dword) : State :=
  match (opsWhere s (fun o => decide (o.src = .ring q) && o.opId == target)).head? with
  | none => finishOp s n stTooLate (if (qpOf s q).ended.contains target then 1 else 2) 0
  | some m =>
    match opOf s m, opOf s n with
    | some t, some a =>
      if t.st = .committed then finishOp s n stTooLate 0 0
      else endEarly (putOp s n { a with aux := m }) m stAborted
    | _, _ => s

/-- A fetched operation: its checks in the order of Table 8.7 (log 57), and then admission. -/
def fetchedOp (s : State) (q : Nat) (o : Op) (d data : List Byte) (refused : Bool) : State :=
  let e := enrol s o
  let n := e.1
  let flagsOk := decide (leAt d 2 1 < 4) && zeroAt d 3 5
  if refused then endEarly e.2 n stRefReload
  else if o.opcode = 0x0000 ∨ o.opcode = 0x0001 then
    let s := putOp e.2 n { o with st := .committed, queued := e.2.ftime - o.arrival }
    if !flagsOk || !zeroAt o.body (if o.opcode = 0 then 0 else 8) 48 then finishOp s n stBadDescriptor 0 0
    else if o.opcode = 0 then finishOk s n 0
    else abortOp s q n (BitVec.ofNat 64 (leAt o.body 0 8))
  else if !listedOps.contains o.opcode then finishOp e.2 n stBadOpcode 0 0
  else if !flagsOk then finishOp e.2 n stBadDescriptor 0 0
  else
    match (engineOf o.opcode).check s o data with
    | .bad st ext res => finishOp e.2 n st res ext
    | .go pool cost partner bs aux => arriveOp startOf s { o with pool := pool, cost := cost, partner := partner, data := bs, aux := aux }

/-- The device fetches a descriptor (08 R223): its 64 bytes, and the bytes of its partner's memory that its operation reads. -/
def fetchDesc (s : State) (q : Nat) (d data : List Byte) : State :=
  match fetchTake s q with
  | none => s
  | some (t, b, refused, s) => fetchedOp s q (descOp q b t d) d data refused

/-- The descriptor that the SQ holds at its head: the owner's memory for a host ring. -/
def sqEntry (s : State) (q : Nat) (host : List Byte) : List Byte := sourceBytes s (sqBase s q + 64 * getF s Fld.qpSqHead q) 64 host

/-- DESCRIPTOR_FETCH. -/
def execDescriptorFetch (qp : Nat) (host data : List Byte) (s : State) : Host.Outcome State Fault Refusal :=
  .next (fetchDesc s qp (sqEntry s qp host) data)

/-! ### Admission (08 R232 to R236) -/

/-- Whether a considered operation holds its tokens and is first of its partner in its pool. -/
def adReady (s : State) (n : Nat) (o : Op) : Bool := considered s n o && holdsTokens s o == some true && !behind s n o

/-- The millisecond of fabric time, and G units already served in it. -/
def gUsedNow (s : State) (p : Nat) : Nat := if (poolOf s p).gMs = s.ftime / 1000000 then (poolOf s p).gUsed else 0

/-- Whether a G operation fits ADM_POOL_GRES in this millisecond; while the pool is short G shares what there is (08 R233). -/
def gFits (s : State) (o : Op) : Bool :=
  flagF s Fld.admPoolStatShort o.pool || decide (gUsedNow s o.pool + o.cost ≤ getF s Fld.admPoolGres o.pool)

/-- The class under which a ready operation is served: G beyond its reserve is served as E. -/
def servedAs (s : State) (o : Op) : Nat := if classOfOp s o = 0 ∧ gFits s o = false then 1 else classOfOp s o

/-- Whether another operation must be served before one of class `cls` (08 R233): of a higher class; among G, one that came
before. -/
def servedBefore (s : State) (n cls pool : Nat) : Bool :=
  s.rings.ops.any (fun e =>
    e.1 != n && e.2.pool == pool && adReady s e.1 e.2 &&
    (decide (servedAs s e.2 < cls) || (cls == 0 && servedAs s e.2 == 0 && !flagF s Fld.admPoolStatShort pool && decide (e.1 < n))))

/-- Note G demand beyond the reserve: counted, and raised once per ms at most (08 R233). -/
def gOver (s : State) (o : Op) : State :=
  let s := bump s Fld.admGOverCnt o.pool
  let ms := s.ftime / 1000000
  let x := poolOf s o.pool
  if x.overMs = some ms then s
  else
    raiseD (setPool s o.pool { x with overMs := some ms }) none { code := 0x0304, bay := o.bay, aux8 := o.pool, arg0 := poolLive s o.pool, arg1 := tagOfOp s o }

/-- Note G units served. -/
def gServe (s : State) (o : Op) : State :=
  setPool s o.pool { poolOf s o.pool with gMs := s.ftime / 1000000, gUsed := gUsedNow s o.pool + o.cost }

/-- Serve a ready operation. -/
def serve (s : State) (n : Nat) (o : Op) : State :=
  let cls := servedAs s o
  let s := if classOfOp s o = 0 then (if cls = 0 then gServe s o else gOver s o) else s
  admitOp startOf s n cls

/-- ADMISSION of an operation: it is refused at once where Table 8.12 says so, or served in its turn. -/
def execAdmission (op : Nat) (s : State) : Host.Outcome State Fault Refusal :=
  .next
    (match opOf s op with
     | none => s
     | some o =>
       if !considered s op o then s
       else if adReady s op o && !(classOfOp s o == 2 && shedsNow s o.pool) then
         (if servedBefore s op (servedAs s o) o.pool then s else serve s op o)
       else judge startOf s op)

/-- When a considered operation's wait for tokens ends (08 Table 8.12, R235). -/
def budgetEnd (s : State) (o : Op) : Nat := o.arrival + getF s Fld.admPoolWaitBudgetWaitMs o.pool * 1000000

/-- When its wait for capacity ends, counted anew from the end of a cap (08 Table 8.12, R235, R236). -/
def capEnd (s : State) (o : Op) : Nat :=
  Nat.max o.arrival (poolOf s o.pool).capLifted +
  (if classOfOp s o = 2 then getF s Fld.admPoolStgtSWaitUs o.pool * 1000 else getF s Fld.admPoolWaitEWaitMs o.pool * 1000000)

/-- Refuse a wait for capacity. A G operation beyond the reserve is judged as E while the pool is not short (08 R233, R239). -/
def capRefuse (s : State) (n : Nat) (o : Op) : State :=
  let short := flagF s Fld.admPoolStatShort o.pool
  if classOfOp s o = 0 then
    (if short then refuseCap (bump s Fld.admGShortCnt o.pool) n
     else if gFits s o then s
     else refuseCap (putOp s n { o with judged := 1 }) n)
  else refuseCap s n

/-- ADMISSION_WAIT_EXPIRY (08 R235, R236, Table 8.12). -/
def execAdmissionWaitExpiry (op : Nat) (s : State) : Host.Outcome State Fault Refusal :=
  .next
    (match opOf s op with
     | none => s
     | some o =>
       if !considered s op o then s
       else
         match holdsTokens s o with
         | none => judge startOf s op
         | some false =>
           if partnerRef s o.partner = .miss then s
           else if classOfOp s o = 2 then refuse s op stRefBudget
           else
             let t := reach s (budgetEnd s o)
             if holdsTokens t o = some false then refuse t op stRefBudget else s
         | some true =>
           if poolCapped s o.pool then s else capRefuse (reach s (capEnd s o)) op o)

/-- The E operations of a pool that wait for it, and since when (08 R234; every considered one, DEDUCED, log 103). -/
def eWaits (s : State) (p : Nat) : List Nat :=
  (s.rings.ops.filter (fun e => e.2.pool == p && considered s e.1 e.2 && classOfOp s e.2 == 1)).map (fun e => Nat.max e.2.arrival (poolOf s p).capLifted)

/-- Refuse every waiting S operation of a pool (08 R234). -/
def shedAll (s : State) (p : Nat) : State :=
  (opsWhere s (waitsIn p)).foldl (fun s n =>
    match opOf s n with
    | some o => if considered s n o && classOfOp s o == 2 then refuseCap s n else s
    | none => s) s

/-- SHEDDING_START (08 R234): the oldest waiting E operation has queued longer than its target. -/
def execSheddingStart (pool : Nat) (s : State) : Host.Outcome State Fault Refusal :=
  .next
    (match eWaits s pool with
     | [] => s
     | t :: ts =>
       if 7 ≤ pool ∨ poolCapped s pool = true ∨ flagF s Fld.admPoolStatShedding pool = true then s
       else
         let due := ts.foldl Nat.min t + getF s Fld.admPoolTgtETgtUs pool * 1000 + 1
         shedAll (setF (reach s due) Fld.admPoolStatShedding pool 1) pool)

/-- SHEDDING_END (08 R234): no waiting E operation exceeds its target. -/
def execSheddingEnd (pool : Nat) (s : State) : Host.Outcome State Fault Refusal :=
  .next
    (if 7 ≤ pool then s
     else if poolCapped s pool || (eWaits s pool).all (fun t => decide (s.ftime ≤ t + getF s Fld.admPoolTgtETgtUs pool * 1000)) then
       setF s Fld.admPoolStatShedding pool 0
     else s)

/-! ### Partner records (08 R229, R230) -/

/-- Judge the waiting operations of a partner anew, in fetch order. -/
def judgePartner (s : State) (all : Bool) (i : Nat) : State :=
  (opsWhere s (fun o => decide (o.st = .waiting) && (all || o.partner == i))).foldl (fun s n => judge startOf s n) s

/-- A bucket as memory holds it now, with the device's own tokens, clipped to the new burst. -/
def keepTokens (old new : Bucket) : Bucket :=
  { new with tokens := if (new.burst * 1000000 : Nat) < old.tokens then (new.burst * 1000000 : Nat) else old.tokens }

/-- Reload a cached record (08 R230). -/
def partnerReload (s : State) (i : Nat) : State :=
  match Tab.lookup s.rings.partners i with
  | none => s
  | some p =>
    let p := p.accrue s.ftime
    let m := readPartner s i
    let x := { m with buckets := List.zipWith keepTokens p.buckets m.buckets }
    { s with rings := { s.rings with partners := Tab.put s.rings.partners i x } }

/-- A write of ADM_PREC_SYNC (08 R230). The records are reloaded within the command, so sync_busy reads 0 (log 104). -/
def partnerSync (s : State) (v : Word) : State :=
  let all := v.getLsbD 30
  let i := v.toNat % 2 ^ 20
  if !v.getLsbD 31 then s
  else
    let is := if all then s.rings.partners.map (fun e => e.1) else [i]
    judgePartner (is.foldl partnerReload s) all i

/-- PARTNER_SYNC. -/
def execPartnerSync (req : Requester) (v : Word) (s : State) : Host.Outcome State Fault Refusal :=
  .next (gated s req (fun s => if Requester.isPf req then partnerSync s v else admDenied s))

/-- Write a cached record's tokens back to memory and drop it (08 R229). -/
def partnerEvict (s : State) (i : Nat) : State :=
  match Tab.lookup s.rings.partners i with
  | none => s
  | some p =>
    let p := p.accrue s.ftime
    let put (s : State) (e : Bucket × Nat) : State :=
      if e.1.pool = 0xFF then s else writeLe s (precAddr s i + 0x10 + 16 * e.2 + 0xC) 4 (BitVec.ofInt 32 (e.1.tokens / 1000000)).toNat
    let s := p.buckets.zipIdx.foldl put s
    { s with rings := { s.rings with partners := Tab.del s.rings.partners i } }

/-- PARTNER_RECORD_FILL: a record that an operation waits for is cached; with 4,096 cached, `evict` makes room. -/
def execPartnerRecordFill (index evict : Nat) (s : State) : Host.Outcome State Fault Refusal :=
  .next
    (if partnerRef s index ≠ .miss then s
     else
       let s := if 4096 ≤ s.rings.partners.length then partnerEvict s evict else s
       if 4096 ≤ s.rings.partners.length then s
       else
         judgePartner { s with rings := { s.rings with partners := Tab.put s.rings.partners index (readPartner s index) } } false index)

end Sys2Proof.Machine
end

