-- ==== Sys2Proof/Machine/RingOps.lean ====
section
/-! DEFINITION. The rows that name an operation: the device's fetch of a descriptor with the row's operands (08 R223, Table 8.4). -/

namespace Sys2Proof.Machine

/-- Lay a little-endian field into bytes: offset, size, value. -/
def layField (bs : List Byte) (f : Nat × Nat × Nat) : List Byte := bs.take f.1 ++ leBytes f.2.1 f.2.2 ++ bs.drop (f.1 + f.2.1)

/-- A descriptor's 64 bytes (08 Table 8.4): opcode, op_id, flags, and the body's fields at their offsets; reserved bytes are 0. -/
def descBytes (opcode : Nat) (opId : Dword) (flags : Nat) (fs : List (Nat × Nat × Nat)) : List Byte :=
  leBytes 2 opcode ++ leBytes 1 flags ++ List.replicate 5 0 ++ leBytes 8 opId.toNat ++ fs.foldl layField (List.replicate 48 0)

/-- Fetch such a descriptor. -/
def ringRow (s : State) (q opcode : Nat) (opId : Dword) (flags : Nat) (fs : List (Nat × Nat × Nat)) (data : List Byte) :
    Host.Outcome State Fault Refusal :=
  .next (fetchDesc s q (descBytes opcode opId flags fs) data)

/-- NOP (08 R226). -/
def execNop (qp : Nat) (opId : Dword) (flags : Nat) (s : State) : Host.Outcome State Fault Refusal :=
  ringRow s qp 0x0000 opId flags [] []

/-- ABORT (08 R241). -/
def execAbort (qp : Nat) (opId : Dword) (flags : Nat) (target : Dword) (s : State) : Host.Outcome State Fault Refusal :=
  ringRow s qp 0x0001 opId flags [(0, 8, target.toNat)] []

/-- COPY (08 R226). -/
def execCopy (qp : Nat) (opId : Dword) (flags : Nat) (src dst : Dword) (len : Word) (s : State) : Host.Outcome State Fault Refusal :=
  ringRow s qp 0x0100 opId flags [(0, 8, src.toNat), (8, 8, dst.toNat), (0x10, 4, len.toNat)] []

/-- TX (09 Table 9.8). -/
def execTx (qp : Nat) (opId : Dword) (flags : Nat) (addr : Dword) (len : Word) (ctl tci l3 l4 : Half) (s : State) : Host.Outcome State Fault Refusal :=
  ringRow s qp 0x0200 opId flags [(0, 8, addr.toNat), (8, 4, len.toNat), (0xc, 2, ctl.toNat), (0xe, 2, tci.toNat), (0x10, 2, l3.toNat), (0x12, 2, l4.toNat)] []

/-- RX_POST (09 Table 9.8). -/
def execRxPost (qp : Nat) (opId : Dword) (flags : Nat) (addr : Dword) (len : Word) (hlen : Half) (haddr : Dword) (s : State) : Host.Outcome State Fault Refusal :=
  ringRow s qp 0x0201 opId flags [(0, 8, addr.toNat), (8, 4, len.toNat), (0xc, 2, hlen.toNat), (0x10, 8, haddr.toNat)] []

/-- SEND (10 Table 10.11). -/
def execSend (qp : Nat) (opId : Dword) (flags : Nat) (conn : Word) (len : Word) (laddr : Dword) (s : State) : Host.Outcome State Fault Refusal :=
  ringRow s qp 0x0300 opId flags [(0, 4, conn.toNat), (0xc, 4, len.toNat), (0x18, 8, laddr.toNat)] []

/-- WRITE (10 Table 10.11). -/
def execWrite (qp : Nat) (opId : Dword) (flags : Nat) (conn : Word) (rkind : Byte) (rref len : Word) (roffset laddr : Dword) (s : State) : Host.Outcome State Fault Refusal :=
  ringRow s qp 0x0301 opId flags [(0, 4, conn.toNat), (4, 1, rkind.toNat), (8, 4, rref.toNat), (0xc, 4, len.toNat), (0x10, 8, roffset.toNat), (0x18, 8, laddr.toNat)] []

/-- READ (10 Table 10.11). -/
def execRead (qp : Nat) (opId : Dword) (flags : Nat) (conn : Word) (rkind : Byte) (rref len : Word) (roffset laddr : Dword) (s : State) : Host.Outcome State Fault Refusal :=
  ringRow s qp 0x0302 opId flags [(0, 4, conn.toNat), (4, 1, rkind.toNat), (8, 4, rref.toNat), (0xc, 4, len.toNat), (0x10, 8, roffset.toNat), (0x18, 8, laddr.toNat)] []

/-- FETCH_ADD (10 Table 10.11). -/
def execFetchAdd (qp : Nat) (opId : Dword) (flags : Nat) (conn : Word) (rkind : Byte) (rref len : Word) (roffset laddr opnd1 : Dword) (s : State) : Host.Outcome State Fault Refusal :=
  ringRow s qp 0x0303 opId flags [(0, 4, conn.toNat), (4, 1, rkind.toNat), (8, 4, rref.toNat), (0xc, 4, len.toNat), (0x10, 8, roffset.toNat), (0x18, 8, laddr.toNat), (0x20, 8, opnd1.toNat)] []

/-- CMP_SWAP (10 Table 10.11). -/
def execCmpSwap (qp : Nat) (opId : Dword) (flags : Nat) (conn : Word) (rkind : Byte) (rref len : Word) (roffset laddr opnd1 opnd2 : Dword) (s : State) : Host.Outcome State Fault Refusal :=
  ringRow s qp 0x0304 opId flags [(0, 4, conn.toNat), (4, 1, rkind.toNat), (8, 4, rref.toNat), (0xc, 4, len.toNat), (0x10, 8, roffset.toNat), (0x18, 8, laddr.toNat), (0x20, 8, opnd1.toNat), (0x28, 8, opnd2.toNat)] []

/-- WINDOW_NOTIFY (10 Table 10.11). -/
def execWindowNotify (qp : Nat) (opId : Dword) (flags : Nat) (conn rref cookie : Word) (s : State) : Host.Outcome State Fault Refusal :=
  ringRow s qp 0x0305 opId flags [(0, 4, conn.toNat), (8, 4, rref.toNat), (0xc, 4, cookie.toNat)] []

/-- RECV_POST (10 Table 10.11). -/
def execRecvPost (qp : Nat) (opId : Dword) (flags : Nat) (conn : Word) (addr : Dword) (len : Word) (s : State) : Host.Outcome State Fault Refusal :=
  ringRow s qp 0x0306 opId flags [(0, 4, conn.toNat), (8, 8, addr.toNat), (0x10, 4, len.toNat)] []

/-- DORMER_OPEN (10 Table 10.11). -/
def execDormerOpen (qp : Nat) (opId : Dword) (flags : Nat) (conn : Word) (rights : Byte) (base size : Dword) (lifetimeUs : Word) (s : State) : Host.Outcome State Fault Refusal :=
  ringRow s qp 0x0310 opId flags [(0, 4, conn.toNat), (4, 1, rights.toNat), (8, 8, base.toNat), (0x10, 8, size.toNat), (0x18, 4, lifetimeUs.toNat)] []

/-- DORMER_REVOKE (10 Table 10.11). -/
def execDormerRevoke (qp : Nat) (opId : Dword) (flags : Nat) (rref : Word) (s : State) : Host.Outcome State Fault Refusal :=
  ringRow s qp 0x0311 opId flags [(0, 4, rref.toNat)] []

/-- REGION_REG (10 Table 10.11). -/
def execRegionReg (qp : Nat) (opId : Dword) (flags : Nat) (index : Word) (rights : Byte) (base len : Dword) (conn : Word) (s : State) : Host.Outcome State Fault Refusal :=
  ringRow s qp 0x0312 opId flags [(0, 4, index.toNat), (4, 1, rights.toNat), (8, 8, base.toNat), (0x10, 8, len.toNat), (0x18, 4, conn.toNat)] []

/-- REGION_DEREG (10 Table 10.11). -/
def execRegionDereg (qp : Nat) (opId : Dword) (flags : Nat) (key : Word) (s : State) : Host.Outcome State Fault Refusal :=
  ringRow s qp 0x0313 opId flags [(0, 4, key.toNat)] []

/-- CONN_OPEN (10 Table 10.11). -/
def execConnOpen (qp : Nat) (opId : Dword) (flags : Nat) (conn : Word) (params : Dword) (s : State) : Host.Outcome State Fault Refusal :=
  ringRow s qp 0x0320 opId flags [(0, 4, conn.toNat), (8, 8, params.toNat)] []

/-- CONN_CLOSE (10 Table 10.11). -/
def execConnClose (qp : Nat) (opId : Dword) (flags : Nat) (conn : Word) (s : State) : Host.Outcome State Fault Refusal :=
  ringRow s qp 0x0321 opId flags [(0, 4, conn.toNat)] []

/-- CONN_QUERY (10 Table 10.11). -/
def execConnQuery (qp : Nat) (opId : Dword) (flags : Nat) (conn : Word) (s : State) : Host.Outcome State Fault Refusal :=
  ringRow s qp 0x0322 opId flags [(0, 4, conn.toNat)] []

/-- NSEND (11 Table 11.6). -/
def execNsend (qp : Nat) (opId : Dword) (flags : Nat) (node : Half) (tc : Byte) (dstQp : Half) (laddr : Dword) (len : Word) (s : State) : Host.Outcome State Fault Refusal :=
  ringRow s qp 0x0400 opId flags [(0, 2, node.toNat), (2, 1, tc.toNat), (4, 2, dstQp.toNat), (8, 8, laddr.toNat), (0x10, 4, len.toNat)] []

/-- NWRITE (11 Table 11.6). -/
def execNwrite (qp : Nat) (opId : Dword) (flags : Nat) (node : Half) (tc : Byte) (laddr : Dword) (len : Word) (roffset : Dword) (s : State) : Host.Outcome State Fault Refusal :=
  ringRow s qp 0x0401 opId flags [(0, 2, node.toNat), (2, 1, tc.toNat), (8, 8, laddr.toNat), (0x10, 4, len.toNat), (0x18, 8, roffset.toNat)] []

/-- NREAD (11 Table 11.6). -/
def execNread (qp : Nat) (opId : Dword) (flags : Nat) (node : Half) (tc : Byte) (laddr : Dword) (len : Word) (roffset : Dword) (s : State) : Host.Outcome State Fault Refusal :=
  ringRow s qp 0x0402 opId flags [(0, 2, node.toNat), (2, 1, tc.toNat), (8, 8, laddr.toNat), (0x10, 4, len.toNat), (0x18, 8, roffset.toNat)] []

/-- NRECV_POST (11 Table 11.6). -/
def execNrecvPost (qp : Nat) (opId : Dword) (flags : Nat) (addr : Dword) (len : Word) (s : State) : Host.Outcome State Fault Refusal :=
  ringRow s qp 0x0403 opId flags [(0, 8, addr.toNat), (8, 4, len.toNat)] []

/-- LQUERY (12 Table 12.10). -/
def execLquery (qp : Nat) (opId : Dword) (flags : Nat) (addr : Dword) (len : Word) (raddr : Dword) (rlen : Word) (host : List Byte) (s : State) : Host.Outcome State Fault Refusal :=
  ringRow s qp 0x0500 opId flags [(0, 8, addr.toNat), (8, 4, len.toNat), (0x10, 8, raddr.toNat), (0x18, 4, rlen.toNat)] host

/-- LAPPEND (12 Table 12.10). -/
def execLappend (qp : Nat) (opId : Dword) (flags : Nat) (addr : Dword) (len : Word) (host : List Byte) (s : State) : Host.Outcome State Fault Refusal :=
  ringRow s qp 0x0501 opId flags [(0, 8, addr.toNat), (8, 4, len.toNat)] host

/-- LBIAS_LOAD (12 Table 12.10). -/
def execLbiasLoad (qp : Nat) (opId : Dword) (flags : Nat) (set : Byte) (addr : Dword) (len : Word) (host : List Byte) (s : State) : Host.Outcome State Fault Refusal :=
  ringRow s qp 0x0502 opId flags [(0, 1, set.toNat), (8, 8, addr.toNat), (0x10, 4, len.toNat)] host

/-- UL_CUT (13 Tables 13.3, 13.5, 13.8, 13.9). -/
def execUlCut (qp : Nat) (opId : Dword) (flags : Nat) (cutId : Word) (rangeCount : Half) (plan : Dword) (readyTimeoutMs : Word) (host : List Byte) (s : State) : Host.Outcome State Fault Refusal :=
  ringRow s qp 0x0600 opId flags [(0, 4, cutId.toNat), (4, 2, rangeCount.toNat), (8, 8, plan.toNat), (0x10, 4, readyTimeoutMs.toNat)] host

/-- UL_DRAIN (13 Tables 13.3, 13.5, 13.8, 13.9). -/
def execUlDrain (qp : Nat) (opId : Dword) (flags : Nat) (cutId : Word) (targetCount manifestTarget dflags : Byte) (table manifestOffset capacity : Dword) (host : List Byte) (s : State) : Host.Outcome State Fault Refusal :=
  ringRow s qp 0x0601 opId flags [(0, 4, cutId.toNat), (4, 1, targetCount.toNat), (5, 1, manifestTarget.toNat), (6, 1, dflags.toNat), (8, 8, table.toNat), (0x10, 8, manifestOffset.toNat), (0x18, 8, capacity.toNat)] host

/-- UL_RESTORE (13 Tables 13.3, 13.5, 13.8, 13.9). -/
def execUlRestore (qp : Nat) (opId : Dword) (flags : Nat) (manifestCount : Half) (targetCount : Byte) (mapCount : Word) (manifests targets maps : Dword) (host : List Byte) (s : State) : Host.Outcome State Fault Refusal :=
  ringRow s qp 0x0602 opId flags [(0, 2, manifestCount.toNat), (2, 1, targetCount.toNat), (4, 4, mapCount.toNat), (8, 8, manifests.toNat), (0x10, 8, targets.toNat), (0x18, 8, maps.toNat)] host

/-- UL_RELEASE (13 Tables 13.3, 13.5, 13.8, 13.9). -/
def execUlRelease (qp : Nat) (opId : Dword) (flags : Nat) (cutId : Word) (s : State) : Host.Outcome State Fault Refusal :=
  ringRow s qp 0x0603 opId flags [(0, 4, cutId.toNat)] []

/-- KEY_LOAD (14 Table 14.9). -/
def execKeyLoad (qp : Nat) (opId : Dword) (flags : Nat) (kind : Byte) (bayMask addr : Dword) (host : List Byte) (s : State) : Host.Outcome State Fault Refusal :=
  ringRow s qp 0x0700 opId flags [(0, 1, kind.toNat), (8, 8, bayMask.toNat), (0x10, 8, addr.toNat)] host

/-- KEY_DESTROY (14 Table 14.9). -/
def execKeyDestroy (qp : Nat) (opId : Dword) (flags : Nat) (handle : Word) (s : State) : Host.Outcome State Fault Refusal :=
  ringRow s qp 0x0701 opId flags [(0, 4, handle.toNat)] []

/-- CRYPT (14 Table 14.9). -/
def execCrypt (qp : Nat) (opId : Dword) (flags : Nat) (addr : Dword) (handle : Word) (host : List Byte) (s : State) : Host.Outcome State Fault Refusal :=
  ringRow s qp 0x0702 opId flags [(0, 8, addr.toNat), (8, 4, handle.toNat)] host

/-- FLOOR_ADVANCE (14 Table 14.9). -/
def execFloorAdvance (qp : Nat) (opId : Dword) (flags : Nat) (floor ecdsa mldsa : Byte) (s : State) : Host.Outcome State Fault Refusal :=
  ringRow s qp 0x0703 opId flags [(0, 1, floor.toNat), (1, 1, ecdsa.toNat), (2, 1, mldsa.toNat)] []

/-- GSNAP (15 R445 to R447). -/
def execGsnap (qp : Nat) (opId : Dword) (flags : Nat) (bank sflags : Byte) (first count : Word) (dst : Dword) (s : State) : Host.Outcome State Fault Refusal :=
  ringRow s qp 0x0800 opId flags [(0, 1, bank.toNat), (1, 1, sflags.toNat), (4, 4, first.toNat), (8, 4, count.toNat), (0x10, 8, dst.toNat)] []

/-- GCONN (15 R445 to R447). -/
def execGconn (qp : Nat) (opId : Dword) (flags : Nat) (first count : Word) (threshold dst : Dword) (dstLen : Word) (cflags : Byte) (s : State) : Host.Outcome State Fault Refusal :=
  ringRow s qp 0x0801 opId flags [(0, 4, first.toNat), (4, 4, count.toNat), (8, 8, threshold.toNat), (0x10, 8, dst.toNat), (0x18, 4, dstLen.toNat), (0x1c, 1, cflags.toNat)] []

/-- GFLUSH (15 R445 to R447). -/
def execGflush (qp : Nat) (opId : Dword) (flags : Nat) (channel : Byte) (t : Dword) (timeoutUs : Word) (s : State) : Host.Outcome State Fault Refusal :=
  ringRow s qp 0x0802 opId flags [(0, 1, channel.toNat), (8, 8, t.toNat), (0x10, 4, timeoutUs.toNat)] []

end Sys2Proof.Machine
end

