-- ==== Sys2Proof/Machine/Host.lean ====
section
/-! DEFINITION. The host endpoints (07 R186 to R207): links, resets, D-states, function stops, configuration writes, apertures, VF BARs,
ATS; and the downstream root ports (07 R213, R214). -/

namespace Sys2Proof.Machine

/-! ### Functions -/

/-- Whether a function is there: the PF, or a VF that VF Enable, NumVFs and ARI Capable Hierarchy give (07 R195). -/
def fnExists (s : State) (ep fn : Nat) : Bool :=
  fn == 0 ||
  (cfgBit s ep 0 cfgSriov 0 && decide (fn ≤ 255 ∧ fn ≤ (cfgWord s ep 0 0x160).toNat % 65536) &&
    (cfgBit s ep 0 cfgSriov 4 || decide (fn ≤ 7)))

/-- The VFs of an endpoint. -/
def vfsOf (s : State) (ep : Nat) : List Nat := (List.range 256).filter (fun n => n != 0 && fnExists s ep n)

/-- Every function of an endpoint. -/
def fnsOf (s : State) (ep : Nat) : List Nat := 0 :: vfsOf s ep

/-- The LTR that an endpoint reports, in µs: 200 while every queue pair of its functions is empty, else 10 (07 R207). -/
def ltrUs (s : State) (ep : Nat) : Nat :=
  let busy := (List.range 4096).any (fun q => (qpOwner s q).any (fun f => f.1 == ep) && (sqAvail s q != 0 || !(qpOps s q).isEmpty))
  if busy then 10 else 200

/-! ### Function stop (07 R201) -/

/-- The enabled or stopping queue pairs owned by functions of an endpoint. -/
def fnQps (s : State) (ep : Nat) (fns : List Nat) : List Nat :=
  (List.range 4096).filter (fun q =>
    let st := getF s Fld.qpStatState q
    (st == 1 || st == 2) && (qpOwner s q).any (fun f => f.1 == ep && fns.contains f.2))

/-- Begin to stop functions (07 R201 step 1): fetching ends and later doorbells are discarded. A stop in progress keeps its cause. -/
def stopFns (s : State) (ep : Nat) (fns : List Nat) (cause : Nat) : State :=
  let s := (fnQps s ep fns).foldl (fun s q => setF (setF s Fld.qpStatState q 2) Fld.qpCtlEnable q 0) s
  fns.foldl (fun s n => if (fnOf s ep n).stopCause = 0 then setFn s ep n { fnOf s ep n with stopCause := cause } else s) s

/-- Operations owned by a function: of its queue pairs and of its storage controller. -/
def fnOps (s : State) (ep fn : Nat) : List Nat :=
  opsWhere s (fun o => match o.src with
    | .ring q => qpOwner s q == some (ep, fn)
    | .nvme c _ _ => ctrlFn s c == some (ep, fn)
    | _ => false)

/-- Whether an operation is past its commit point and ends by its own engine. -/
def ownEnd (s : State) (n : Nat) : Bool := (opOf s n).any (fun o => decide (o.st = .committed) && o.opcode != 0x0001)

/-- FUNCTION_STOP_DONE (07 R201 steps 2 to 5): the function's operations have ended; one past its commit point ends by its own engine
first. A storage controller is disabled and its queues are gone (DEDUCED, log 106). -/
def execFunctionStopDone (ep fn : Nat) (s : State) : Host.Outcome State Fault Refusal :=
  .next
    (let f := fnOf s ep fn
     let ns := fnOps s ep fn
     if f.stopCause = 0 ∨ ns.any (ownEnd s) = true then s
     else
       let n := (ns.filter (fun n => (opOf s n).any (fun o => decide (o.st ≠ .committed)))).length
       let s := bumpN (abortOps s ns) Fld.identEpStopAbortCnt ep n
       let s := match ctrlOfFn s ep fn with
         | some c =>
           if fn = 0 then s
           else if [1, 3, 5].contains f.stopCause then setCtrl (ctrlClear s c) c {}
           else setCtrl (ctrlClear s c) c { ctrlOf (ctrlClear s c) c with cc := (ctrlOf s c).cc / 2 * 2 }
         | none => s
       let s := (fnQps s ep [fn]).foldl (fun s q => setF s Fld.qpStatState q 3) s
       let s := setFn s ep fn { fnOf s ep fn with stopCause := 0 }
       raiseD s (srcHost ep) { code := 0x0201, aux8 := f.stopCause, aux16 := (Config.epBus ep).toNat * 256 + fn, arg0 := n, arg1 := ep })

/-- The configuration dwords of a PF that a reset of the endpoint or an FLR leaves: AER (07 R203), and PME_En, without which no PME
event could follow in D3cold (07 R206; DEDUCED, log 107). -/
def cfgSticky (fn off : Nat) : Bool := fn == 0 && (decide (0x100 ≤ off ∧ off < 0x148) || off == cfgPmcsr)

/-- A function at its reset configuration values, with no vector enabled. -/
def fnReset (fn : Nat) (f : Fn) : Fn :=
  { cfg := Tab.keep (cfgSticky fn) f.cfg, pmeStatus := f.pmeStatus, stopCause := f.stopCause, inFlr := f.inFlr }

/-- Forget the ATS translations of functions. -/
def atsDrop (s : State) (ep : Nat) (fns : List Nat) : State :=
  setEp s ep { epOf s ep with ats := (epOf s ep).ats.filter (fun e => !fns.contains e.1) }

/-- Return functions to their reset configuration values; a storage controller with its VF, once its stop is over. -/
def resetFns (s : State) (ep : Nat) (fns : List Nat) : State :=
  let s := fns.foldl (fun s n =>
    let s := setFn s ep n (fnReset n (fnOf s ep n))
    if n = 0 then setF s Fld.identEpDstateDstate ep 0
    else match ctrlOfFn s ep n with
      | some c => if (fnOf s ep n).stopCause = 0 then setCtrl (ctrlClear s c) c {} else s
      | none => s) s
  atsDrop s ep fns

/-- Begin an FLR: of a PF, every VF of it stops too. -/
def flrBegin (s : State) (ep fn : Nat) : State :=
  if (fnOf s ep fn).inFlr || !fnExists s ep fn then s
  else
    let s := setFn s ep fn { fnOf s ep fn with inFlr := true }
    let s := stopFns s ep [fn] 1
    if fn = 0 then stopFns s ep (vfsOf s ep) 2 else s

/-- FLR. -/
def execFlr (ep fn : Nat) (s : State) : Host.Outcome State Fault Refusal :=
  .next (if flagF s Fld.identEpLinkLinkUp ep then flrBegin s ep fn else s)

/-- FLR_DONE (07 R202): once the stop is over, the function holds its reset values. -/
def execFlrDone (ep fn : Nat) (s : State) : Host.Outcome State Fault Refusal :=
  .next
    (let fns := if fn = 0 then fnsOf s ep else [fn]
     if !(fnOf s ep fn).inFlr || fns.any (fun n => (fnOf s ep n).stopCause != 0) then s
     else
       let s := resetFns s ep fns
       setFn s ep fn { fnOf s ep fn with inFlr := false })

/-- VF Enable goes from 1 to 0: every VF stops (07 R201). -/
def vfsEnd (s : State) (ep : Nat) : State :=
  if cfgBit s ep 0 cfgSriov 0 then
    let fns := vfsOf s ep
    let s := stopFns s ep fns 2
    setFn s ep 0 { fnOf s ep 0 with cfg := Tab.put (fnOf s ep 0).cfg cfgSriov (cfgWord s ep 0 cfgSriov &&& 0xFFFFFFFE) }
  else s

/-- VF_ENABLE_CLEAR. -/
def execVfEnableClear (ep : Nat) (s : State) : Host.Outcome State Fault Refusal :=
  .next (if flagF s Fld.identEpLinkLinkUp ep then vfsEnd s ep else s)

/-- Bus Master Enable goes from 1 to 0 (07 R201). -/
def busMasterEnd (s : State) (ep fn : Nat) : State :=
  if fnExists s ep fn && cfgBit s ep fn cfgCommand 2 then
    let s := stopFns s ep [fn] 6
    setFn s ep fn { fnOf s ep fn with cfg := Tab.put (fnOf s ep fn).cfg cfgCommand (cfgWord s ep fn cfgCommand &&& 0xFFFFFFFB) }
  else s

/-- BUS_MASTER_ENABLE_CLEAR. -/
def execBusMasterEnableClear (ep fn : Nat) (s : State) : Host.Outcome State Fault Refusal :=
  .next (if flagF s Fld.identEpLinkLinkUp ep then busMasterEnd s ep fn else s)

/-! ### Links and resets (07 R186 to R188, R203, R204) -/

/-- Widths an endpoint trains at. -/
def epWidths : List Nat := [1, 2, 4, 8, 16]

/-- EP_LINK_UP: FLIT mode always at 64 GT/s (07 R186). -/
def execEpLinkUp (ep speed width : Nat) (flit : Bool) (s : State) : Host.Outcome State Fault Refusal :=
  .next
    (if flagF s Fld.identEpLinkLinkUp ep || flagF s Fld.identEpDstatePerst ep || !epWidths.contains width || decide (speed < 1 ∨ 6 < speed) then s
     else
       let s := [(Fld.identEpLinkSpeed, speed), (Fld.identEpLinkWidth, width), (Fld.identEpLinkFlitMode, if flit ∨ speed = 6 then 1 else 0),
         (Fld.identEpLinkLinkUp, 1), (Fld.identEpLinkL0pWidth, width)].foldl (fun s f => setF s f.1 ep f.2) s
       let s := setEp s ep { epOf s ep with l1 := 0 }
       poolsSettle (raiseD s (srcHost ep) { code := 0x0203, aux8 := ep, aux16 := (getReg s .identEpLink ep).toNat % 65536 }))

/-- A link goes down: its non-posted requests fail with host_down, and every function stops (07 R203, R204). -/
def epLinkLost (s : State) (ep : Nat) : State :=
  let s := setF s Fld.identEpLinkLinkUp ep 0
  let s := bump s Fld.identEpLinkDownCnt ep
  let s := raiseD s (srcHost ep) { code := 0x0202, aux8 := ep, aux16 := (getReg s .identEpLink ep).toNat % 65536 }
  let s := setEp s ep { epOf s ep with l1 := 0, ats := [], atsOwed := 0 }
  poolsSettle (failRequests (stopFns s ep (fnsOf s ep) 4) ep 3 true)

/-- EP_LINK_DOWN. -/
def execEpLinkDown (ep : Nat) (s : State) : Host.Outcome State Fault Refusal :=
  .next (if flagF s Fld.identEpLinkLinkUp ep then epLinkLost s ep else s)

/-- LINK_HOT_RESET: the link retrains at once and does not count as down (DEDUCED, log 108). -/
def execLinkHotReset (ep : Nat) (s : State) : Host.Outcome State Fault Refusal :=
  .next
    (if !flagF s Fld.identEpLinkLinkUp ep then s
     else
       let fns := fnsOf s ep
       let s := failRequests (stopFns s ep fns 3) ep 3 true
       let s := ideReset (resetFns s ep fns) ep
       setEp s ep { epOf s ep with l1 := 0, ats := [], atsOwed := 0 })

/-- PERST_ASSERT: PERST_N of the endpoint goes low. -/
def execPerstAssert (ep : Nat) (s : State) : Host.Outcome State Fault Refusal :=
  .next
    (if flagF s Fld.identEpDstatePerst ep then s
     else
       let fns := fnsOf s ep
       let s := stopFns s ep fns 5
       let s := if flagF s Fld.identEpLinkLinkUp ep then epLinkLost s ep else s
       setF (ideReset (resetFns s ep fns) ep) Fld.identEpDstatePerst ep 1)

/-- PERST_DEASSERT: the SRIS strap is sampled and WAKE_N released (07 R187, R206). The endpoint leaves D3cold (02 R49). -/
def execPerstDeassert (ep : Nat) (sris : Bool) (s : State) : Host.Outcome State Fault Refusal :=
  .next
    (if !flagF s Fld.identEpDstatePerst ep then s
     else
       let s := driveWakeN (setF s Fld.identEpDstatePerst ep 0) ep false
       roofSource (setEp s ep { epOf s ep with sris := sris }) (4 + ep) [])

/-- A PF enters D3hot: its VFs stop with it, and the endpoint enters L1 (07 R201, R205, R207). VFs have no D-state of their own. -/
def d3Enter (s : State) (ep : Nat) : State :=
  if (fnOf s ep 0).dstate ≠ 0 then s
  else
    let s := stopFns s ep (fnsOf s ep) 7
    let s := setFn s ep 0 { fnOf s ep 0 with dstate := 3 }
    setEp (setF s Fld.identEpDstateDstate ep 3) ep { epOf s ep with l1 := 1 }

/-- A PF returns to D0: pending vectors are sent (07 R198), and Roof Sleep may end (02 R49). -/
def d0Enter (s : State) (ep : Nat) : State :=
  if (fnOf s ep 0).dstate = 0 then s
  else
    let s := setFn s ep 0 { fnOf s ep 0 with dstate := 0 }
    let s := setEp (setF s Fld.identEpDstateDstate ep 0) ep { epOf s ep with l1 := 0 }
    roofSource ((fnsOf s ep).foldl (fun s n => msixFlush s ep n) s) (4 + ep) []

/-- D3HOT_ENTRY. -/
def execD3hotEntry (ep fn : Nat) (s : State) : Host.Outcome State Fault Refusal :=
  .next (if fn = 0 ∧ flagF s Fld.identEpLinkLinkUp ep = true then d3Enter s ep else s)

/-- D0_RETURN. -/
def execD0Return (ep fn : Nat) (s : State) : Host.Outcome State Fault Refusal :=
  .next (if fn = 0 ∧ flagF s Fld.identEpLinkLinkUp ep = true then d0Enter s ep else s)

/-- PME_RESEND (07 R206). -/
def execPmeResend (ep fn : Nat) (s : State) : Host.Outcome State Fault Refusal :=
  .next (if flagF s Fld.identEpLinkLinkUp ep ∧ (fnOf s ep fn).dstate = 3 ∧ (fnOf s ep fn).pmeStatus = true then emit s (.pme ep fn) else s)

/-- L0P_WIDTH_HALVING (07 R207): down to x4. -/
def execL0pWidthHalving (ep : Nat) (s : State) : Host.Outcome State Fault Refusal :=
  .next
    (let w := getF s Fld.identEpLinkL0pWidth ep
     if flagF s Fld.identEpLinkLinkUp ep ∧ 4 < w then setF s Fld.identEpLinkL0pWidth ep (w / 2) else s)

/-- L0P_WIDTH_RESTORE. -/
def execL0pWidthRestore (ep : Nat) (s : State) : Host.Outcome State Fault Refusal :=
  .next (if flagF s Fld.identEpLinkLinkUp ep then setF s Fld.identEpLinkL0pWidth ep (getF s Fld.identEpLinkWidth ep) else s)

/-- CLKREQ_N_DEASSERT (07 R207): from L1 by PCI-PM in D3hot, or by ASPM, to the deepest substate that L1 PM Substates Control 1 enables: bits
0 and 1 PCI-PM L1.2 and L1.1, bits 2 and 3 ASPM L1.2 and L1.1 (PRESUMED, log 8). -/
def execClkreqNDeassert (ep : Nat) (s : State) : Host.Outcome State Fault Refusal :=
  .next
    (let pm := decide (getF s Fld.identEpDstateDstate ep = 3)
     let aspm := !pm && cfgBit s ep 0 cfgLinkCtl 1
     let k := if pm then 0 else 2
     if !flagF s Fld.identEpLinkLinkUp ep || !(pm || aspm) then s
     else
       let l := if cfgBit s ep 0 cfgL1ss k then 3 else if cfgBit s ep 0 cfgL1ss (k + 1) then 2 else 1
       setEp s ep { epOf s ep with l1 := l })

/-! ### Configuration writes (07 R189, R190, R195, R201) -/

/-- The bits of a configuration dword that the host may write (07 Tables 7.1 to 7.3; where they lie PRESUMED, log 8). -/
def cfgMask (fn off : Nat) : Word :=
  if fn = 0 then
    match off with
    | 0x04 => 0x00000146 | 0x0C => 0xFF | 0x3C => 0xFF
    | 0x10 => 0xFC000000 | 0x14 => 0xFFFFFFFF | 0x1C => 0xFFFFFFC0 | 0x20 => 0xFFF00000 | 0x24 => 0xFFFFFFFF
    | 0x44 => 0x100 | 0x50 => 0xC0000000 | 0x68 => 0x79FF | 0x70 => 0x1CA | 0x88 => 0x140F | 0x90 => 0xF
    | 0x108 => 0x0FFFF030 | 0x10C => 0x0FFFF030 | 0x114 => 0xF1C1 | 0x118 => 0x140
    | 0x158 => 0x19 | 0x160 => 0xFFFF | 0x170 => 0xFFFFFFFF
    | 0x174 => 0xFFFF0000 | 0x178 => 0xFFFFFFFF | 0x17C => 0xFFFF0000 | 0x180 => 0xFFFFFFFF
    | 0x194 => 0x801F0000 | 0x19C => 0x00010000 | 0x2B8 => 0xE3FFFF0F | 0x2BC => 0xFB | 0x2C8 => 0x7C
    | _ => 0
  else
    match off with
    | 0x04 => 4 | 0x0C => 0xFF | 0x3C => 0xFF | 0x50 => 0xC0000000 | 0x10C => 0x80000000
    | _ => 0

/-- The byte lanes of a write. -/
def laneMask (be : BitVec 4) : Word :=
  BitVec.ofNat 32 ((List.range 4).foldl (fun n i => n + if be.getLsbD i then 255 * 256 ^ i else 0) 0)

/-- What a configuration dword holds after a write: NumVFs keeps its value while VF Enable is 1. -/
def cfgMerge (s : State) (ep fn off : Nat) (v lanes : Word) : Word :=
  let old := cfgWord s ep fn off
  let m := if fn = 0 ∧ off = 0x160 ∧ cfgBit s ep 0 cfgSriov 0 = true then 0 else cfgMask fn off &&& lanes
  (old &&& ~~~m) ||| (v &&& m)

/-- Store a configuration dword. -/
def cfgStore (s : State) (ep fn off : Nat) (w : Word) : State :=
  setFn s ep fn { fnOf s ep fn with cfg := Tab.store (cfgReset fn off) (fnOf s ep fn).cfg off w }

/-- A write of PMCSR: PME_Status is cleared by writing 1; the D-state is D0 or D3hot. -/
def pmcsrWrite (s : State) (ep : Nat) (v lanes : Word) : State :=
  let s := if (v &&& lanes).getLsbD 15 then setFn s ep 0 { fnOf s ep 0 with pmeStatus := false } else s
  if !lanes.getLsbD 0 then s
  else if v.toNat % 4 = 3 then d3Enter s ep
  else if v.toNat % 4 = 0 then d0Enter s ep
  else s

/-- The effects of a configuration write beside the bits it stores. -/
def cfgEffect (s : State) (ep fn off : Nat) (v lanes : Word) : State :=
  if off = cfgPmcsr ∧ fn = 0 then pmcsrWrite s ep v lanes
  else if off = 0x68 ∧ (v &&& lanes).getLsbD 15 = true then flrBegin s ep fn
  else if off = cfgMsix then msixFlush s ep fn
  else s

/-- CONFIG_WRITE: a write of a function that is there. Clearing Bus Master Enable or VF Enable stops functions. -/
def execConfigWrite (ep fn off : Nat) (v : Word) (be : BitVec 4) (s : State) : Host.Outcome State Fault Refusal :=
  .next
    (let lanes := laneMask be
     if !flagF s Fld.identEpLinkLinkUp ep || !fnExists s ep fn then s
     else
       let w := cfgMerge s ep fn off v lanes
       let s := if off = cfgCommand ∧ w.getLsbD 2 = false then busMasterEnd s ep fn else s
       let s := if off = cfgSriov ∧ fn = 0 ∧ w.getLsbD 0 = false then vfsEnd s ep else s
       cfgEffect (cfgStore s ep fn off w) ep fn off v lanes)

/-! ### Memory requests of the host (07 R193 to R198) -/

/-- Answer a read of up to 4,096 bytes, 8 at a time. -/
def answerBytes (s : State) (req : Requester) (bs : List Byte) : State :=
  (List.range ((bs.length + 7) / 8)).foldl (fun s i => emit s (.answer req (some (BitVec.ofNat 64 (leAt bs (8 * i) 8))))) s

/-- An access through an aperture that its enable and its address allow (07 R193). -/
def apertureGo (s : State) (ep : Nat) (write : Bool) (a n : Nat) (bs : List Byte) : State :=
  let s := touchPurlin s
  if write then writeBytes s a (bs.take n) else answerBytes s (.pf ep) (readBytes s a n)

/-- APERTURE_ACCESS: a request to BAR2/3. The BARs do not decode in D3hot (07 R205); outside Normal mode nothing is reached (07 R194). -/
def execApertureAccess (ep off len : Nat) (write : Bool) (bytes : List Byte) (s : State) : Host.Outcome State Fault Refusal :=
  .next
    (let req := Requester.pf ep
     let i := off / gib
     let n := Nat.min len 4096
     let a := getF s Fld.identEpAperBase (256 * ep + i) * gib + off % gib
     let open_ := flagF s (if write then Fld.identEpAperWrEn else Fld.identEpAperRdEn) (256 * ep + i)
     if !flagF s Fld.identEpLinkLinkUp ep || decide (256 ≤ i) || n == 0 then s
     else if !hostUp s ep then (if write then s else emit s (.answer req none))
     else if mode s ≠ 1 then
       (if write then bump s Fld.pwrTarpDiscardCnt 0 else answerBytes s req (List.replicate n 0xFF))
     else if open_ && openMem s a n then apertureGo s ep write a n (bytes ++ List.replicate n 0)
     else
       let s := bump s Fld.identEpAperFaultCnt ep
       if write then s else emit s (.answer req none))

/-- A doorbell of a general VF (07 R197). -/
def vfDoorbell (s : State) (ep vf k : Nat) (v : Dword) : State :=
  let q := getF s Fld.identEpVfQpFirst (256 * ep + vf) + k
  if getF s Fld.identEpVfQpCount (256 * ep + vf) ≤ k ∨ 4096 ≤ q then bump s Fld.identEpDbDiscardCnt ep
  else if qpKind s q ≠ 0 ∨ getF s Fld.qpCtlEp q ≠ ep ∨ getF s Fld.qpCtlFunc q ≠ vf then bump s Fld.identEpDbDiscardCnt ep
  else qpDoorbell s q v

/-- VF_DOORBELL_WRITE: a write to a VF's BAR0. -/
def execVfDoorbellWrite (ep vf off : Nat) (v : Dword) (s : State) : Host.Outcome State Fault Refusal :=
  .next
    (if !hostUp s ep || vf == 0 || !fnExists s ep vf then s
     else
       gated s (.vf ep vf) (fun s =>
         match ctrlOfFn s ep vf with
         | some c => nvmeRegWrite s c off v.toNat
         | none => if off < 0x1000 ∨ off % 8 ≠ 0 then s else vfDoorbell s ep vf ((off - 0x1000) / 8) v))

/-- VF_STORAGE_WRITE: a write of IDENT_EP_VF_STORAGE (07 R196, R212). A first of 0 is an unused encoding. -/
def vfStorageWrite (s : State) (req : Requester) (ep : Nat) (v : Word) : State :=
  let first := v.toNat % 256
  let count := v.toNat / 256 % 256
  if req ≠ .pf ep ∨ cfgBit s ep 0 cfgSriov 0 = true ∨ 128 < count + getF s Fld.identEpVfStorageCount (1 - ep) then
    bump s Fld.identHostDeniedCnt 0
  else
    let s := setF s Fld.identEpVfStorageCount ep count
    if first = 0 then s else setF s Fld.identEpVfStorageFirst ep first

/-- VF_STORAGE_WRITE. -/
def execVfStorageWrite (req : Requester) (ep : Nat) (v : Word) (s : State) : Host.Outcome State Fault Refusal :=
  .next (vfStorageWrite s req ep v)

/-- MSIX_UNMASK (07 R198). -/
def execMsixUnmask (ep fn vec : Nat) (s : State) : Host.Outcome State Fault Refusal :=
  .next
    (if !hostUp s ep || !fnExists s ep fn || decide ((if fn = 0 then 2048 else 32) ≤ vec) then s
     else msixFlush (setFn s ep fn { fnOf s ep fn with unmasked := insertNat vec (fnOf s ep fn).unmasked }) ep fn)

/-! ### ATS and timeouts (07 R191, R199) -/

/-- ATS_INVALIDATE: a range of a function's translations. -/
def execAtsInvalidate (ep fn addr size : Nat) (s : State) : Host.Outcome State Fault Refusal :=
  .next
    (if !flagF s Fld.identEpLinkLinkUp ep then s
     else
       let x := epOf s ep
       let hit (e : Nat × Nat) : Bool := e.1 == fn && overlaps (e.2 * 4096) 4096 addr size
       setEp s ep { x with ats := x.ats.filter (fun e => !hit e), atsOwed := x.atsOwed + 1 })

/-- ATS_INVALIDATE_COMPLETION: every request that used one has been performed. -/
def execAtsInvalidateCompletion (ep : Nat) (s : State) : Host.Outcome State Fault Refusal :=
  .next
    (let x := epOf s ep
     if x.atsOwed = 0 then s else emit (setEp s ep { x with atsOwed := x.atsOwed - 1 }) (.atsDone ep))

/-- COMPLETION_TIMEOUT (07 R191): a thread's or a COPY's non-posted request fails with host_timeout. -/
def execCompletionTimeout (ep : Nat) (tid : Option Tid) (op : Nat) (s : State) : Host.Outcome State Fault Refusal :=
  .next
    (match tid with
     | some t => if (hostThreads s ep).contains t.toNat then failHeld s t.toNat 2 else s
     | none => if (hostCopies s ep).contains op then finishOp s op stHostError 0 2 else s)

/-! ### Root ports (07 R213, R214; 14 R412) -/

/-- Change a root port. -/
def setRootPort (s : State) (p : Nat) (x : RootPort) : State :=
  { s with host := { s.host with rootPorts := Tab.store {} s.host.rootPorts p x } }

/-- Take in the namespaces of an SSD: NSID, whether its LBAs have 4,096 bytes, LBAs. -/
def takeNs (s : State) (port : Nat) (nss : List (Nat × Bool × Nat)) : State :=
  let t := Tab.keep (fun k => k / 2 ^ 32 != port) s.stor.ssdNs
  { s with stor := { s.stor with ssdNs := nss.foldl (fun t n => Tab.put t (port * 2 ^ 32 + n.1) n.2) t } }

/-- RP_LINK_UP: the device that a port finds is taken, or refused. -/
def execRpLinkUp (port : Nat) (type1 multiFn : Bool) (cls : Nat) (nss : List (Nat × Bool × Nat)) (s : State) :
    Host.Outcome State Fault Refusal :=
  .next
    (if 8 ≤ port ∨ (Tab.get {} s.host.rootPorts port).up = true then s
     else if type1 || multiFn || cls != 0x010802 then
       raiseD (setRootPort s port { up := false, disabled := true }) srcStor { code := 0x0205, aux8 := port }
     else takeNs (setRootPort s port { up := true, disabled := false }) port nss)

/-- Whether a drain has a write outstanding to an SSD, and which shingle it names. -/
def drainOnPort (s : State) (d : Drain) (port : Nat) : Option Nat :=
  let on (t : Target) : Bool := t.kind == 0 && t.rootPort == port
  match d.writes.find? (fun i => on (shingleTarget s d i)) with
  | some i => some i
  | none => if 2 ≤ d.phase ∧ on (manifestTo d) = true then some d.next else none

/-- A drain and the restores with an access outstanding to a lost SSD end UL_TARGET_FAIL with STOR_BACKEND_DOWN (13 R400, R404). -/
def ulPortLost (s : State) (port : Nat) : State :=
  let s := match s.ul.drain with
    | some d => (drainOnPort s d port).elim s (fun i => drainWriteFail s d 0xA5 i)
    | none => s
  s.ul.restores.foldl (fun s e =>
    match e.2.todo with
    | (t, _) :: _ =>
      (match e.2.targets[t]? with
       | some tg => if tg.kind = 0 ∧ tg.rootPort = port then finishOp s e.1 0x97 0 0xA5 else s
       | none => s)
    | [] => s) s

/-- RP_LINK_DOWN. -/
def execRpLinkDown (port : Nat) (s : State) : Host.Outcome State Fault Refusal :=
  .next
    (if !(Tab.get {} s.host.rootPorts port).up then s
     else
       let s := raiseD (setRootPort s port {}) srcStor { code := 0x0204, aux8 := port }
       ulPortLost (ssdLost s port) port)

end Sys2Proof.Machine
end

