-- ==== Sys2Proof/Machine/CtlSpace.lean ====
section
/-! DEFINITION. Accesses of the control space (00 R10 to R19, R464; 02 R59): what a write does to each register by its access codes,
the writers each block admits, and what a read returns. Every access that a thread or a host makes goes through `ctlWrite` and
`ctlRead`. -/

namespace Sys2Proof.Machine

/-- The state a meaning goes on to. -/
def nextOf (s : State) : Host.Outcome State Fault Refusal → State
  | .next t => t
  | _ => s

/-! ### Fields (00 R12 to R17, Table 0.5) -/

/-- A field after a write of `v` to its register that holds `old`: an unused encoding, a locked field, a read-only one and a trigger
keep what is there. -/
def fieldWrite (locked : Bool) (v old : Nat) (f : FieldDesc) : Nat :=
  let x := fieldOf v f.hi f.lo
  match f.acc with
  | .rw => if f.min ≤ x ∧ x ≤ f.max then withField old f.hi f.lo x else old
  | .rwl => if locked = false ∧ f.min ≤ x ∧ x ≤ f.max then withField old f.hi f.lo x else old
  | .w1c => withField old f.hi f.lo (fieldOf old f.hi f.lo - (fieldOf old f.hi f.lo &&& x))
  | .ro | .rc | .wo => old

/-- A register's value after a write. -/
def writtenVal (s : State) (r : Reg) (i : Nat) (locked : Bool) (v : Nat) : Nat :=
  r.desc.fields.foldl (fieldWrite locked v) (getReg s r i).toNat

/-- Write a register field by field. -/
def putFields (s : State) (r : Reg) (i v : Nat) : State := setReg s r i (BitVec.ofNat 64 (writtenVal s r i false v))

/-- A whole write that is refused: counted, nothing changes. -/
def refuseIf (s : State) (bad : Bool) (cnt : Fld) (k : State → State) : State := if bad then bump s cnt 0 else k s

/-- A write that only a PF may make. -/
def pfOnly (s : State) (req : Requester) (cnt : Fld) (k : State → State) : State := refuseIf s (!Requester.isPf req) cnt k

/-! ### Which accesses R10 allows -/

/-- The register at an offset, or whose upper half lies there. -/
def regOver (off : Nat) : Option (Reg × Nat) :=
  match Reg.at? off with
  | some x => some x
  | none =>
    match Reg.at? (off - 4) with
    | some x => if 4 ≤ off ∧ x.1.desc.width = 64 then some x else none
    | none => none

/-- Whether a register has a field that clears on a read, or that only takes writes. -/
def hasAction (r : Reg) : Bool := r.desc.fields.any (fun f => decide (f.acc = .rc) || decide (f.acc = .wo))

/-- Whether an access is misaligned or wrongly sized (00 R10, R464). -/
def ctlBad (off size : Nat) (write : Bool) : Bool :=
  if size = 4 then
    off % 4 != 0 || decide (0x4000000 < off + 4) ||
    (match regOver off with
     | some (r, _) => r.desc.width == 64 && (write || hasAction r)
     | none => false)
  else if size = 8 then
    off % 8 != 0 || decide (0x4000000 < off + 8) ||
    (match Reg.at? off with
     | some (r, _) => r.desc.width != 64
     | none => (regOver (off + 4)).isSome)
  else true

/-- Whether an offset stays open to hosts outside Normal mode (02 R58). -/
def ctlOpen (off : Nat) : Bool := decide (off < 0x10000) || decide (0x3C00000 ≤ off)

/-- An access that R11 refuses: counted. A 4-byte write to the doorbell range counts in ADM_DB_BAD_CNT too where the doorbells are open
(08 R220, 02 R59; DEDUCED, log 109). -/
def ctlRefuse (s : State) (off size : Nat) (write : Bool) : State :=
  let s := bump s Fld.identMisalignCnt 0
  if write && size == 4 && decide (0x100000 ≤ off ∧ off < 0x108800) && mode s == 1 then bump s Fld.admDbBadCnt 0 else s

/-! ### IDENT, host face and mailbox (07 R196, R208, R212) -/

/-- The endpoint whose area a register instance belongs to. -/
def epAreaOf (r : Reg) (i : Nat) : Option Nat :=
  match r with
  | .identEpLink | .identEpDstate | .identEpVfStorage | .identEpWakeEn | .identEpStopAbortCnt | .identEpAperFaultCnt | .identEpDbDiscardCnt
  | .identEpLinkDownCnt | .identMbxCtl | .identMbxStat => some i
  | .identEpAper | .identEpVfQp => some (i / 256)
  | .identMbxReq | .identMbxResp => some (i / 1024)
  | _ => none

/-- The request buffer of a mailbox. -/
def mbxRequest (s : State) (e : Nat) : List Byte :=
  ((List.range 1024).map (fun k => leBytes 4 (getReg s .identMbxReq (1024 * e + k)).toNat)).flatten

/-- A write of IDENT_MBX_CTL.go (07 R208). -/
def mbxGo (s : State) (e : Nat) : State :=
  if flagF s Fld.identMbxStatBusy e then setF s Fld.identMbxStatOverrun e 1
  else mbxArrive (setF s Fld.identMbxStatBusy e 1) e (mbxRequest s e) 0

/-- A write in the block. -/
def ctlIdent (s : State) (req : Requester) (r : Reg) (i v : Nat) : State :=
  match epAreaOf r i with
  | none => putFields s r i v
  | some e =>
    if r = .identEpVfStorage then vfStorageWrite s req e (BitVec.ofNat 32 v)
    else
      refuseIf s (decide (req ≠ .pf e)) Fld.identHostDeniedCnt (fun s =>
        if r = .identMbxCtl then (if bitN v 31 then mbxGo s e else s)
        else if r = .identEpVfQp ∧ 4096 < fieldOf v 11 0 + fieldOf v 24 12 then s
        else putFields s r i v)

/-! ### Thatch control (04 R110 to R118) -/

/-- A write of THATCH_CMD. -/
def thatchCmdWrite (s : State) (v : Nat) : State :=
  let b := fieldOf v 13 8
  if !bayExists s b then thatchDeny s
  else if !bitN v 31 then s
  else
    match fieldOf v 2 0 with
    | 1 => thatchReloadCmd s b (bitN v 16)
    | 2 => thatchCommitCmd s b
    | 3 => thatchCancelCmd s b
    | _ => s

/-- A write of THATCH_QUIESCE: from a thread of the bay it names only. -/
def thatchQuiesceWrite (s : State) (req : Requester) (b : Nat) (go : Bool) : State :=
  if Requester.bay s req ≠ some b then thatchDeny s
  else if go then thatchQuiesceCmd s b
  else s

/-- A write in the block. -/
def ctlThatch (s : State) (req : Requester) (r : Reg) (i v : Nat) : State :=
  if r = .thatchQuiesce then thatchQuiesceWrite s req (fieldOf v 5 0) (bitN v 31)
  else
    pfOnly s req Fld.thatchDeniedCnt (fun s => if r = .thatchCmd then thatchCmdWrite s v else putFields s r i v)

/-! ### Rings (08 R215 to R219) -/

/-- Whether QP_CTL's RWL fields are locked: the bay that owns the queue pair has its thatch committed and is not struck (00 R17). -/
def rwlLocked (s : State) (q : Nat) : Bool :=
  match bayOfQp s q with
  | some b => !(bayOf s b).struck
  | none => false

/-- Whether a write carries a locked field's value changed. -/
def lockedDiffers (s : State) (r : Reg) (i v : Nat) : Bool :=
  r.desc.fields.any (fun f => decide (f.acc = .rwl) && fieldOf v f.hi f.lo != fieldOf (getReg s r i).toNat f.hi f.lo)

/-- A write of QP_CTL: its fields first, then what enable asks for (08 R216 to R218). -/
def qpCtlWrite (s : State) (q v : Nat) : State :=
  let locked := rwlLocked s q
  let s := if locked && lockedDiffers s .qpCtl q v then bump s Fld.identLockedWrCnt 0 else s
  let st := getF s Fld.qpStatState q
  let deep := decide (st = 1 ∨ st = 2) && !locked && fieldOf v 8 4 != getF s Fld.qpCtlLog2Depth q
  let s := if deep then admDenied s else s
  let w := if deep then withField v 8 4 (getF s Fld.qpCtlLog2Depth q) else v
  let w := withField w 0 0 (getF s Fld.qpCtlEnable q)
  let s := setReg s .qpCtl q (BitVec.ofNat 64 (writtenVal s .qpCtl q locked w))
  if bitN v 0 then qpEnable s q else qpDisable s q

/-- A write of EVR_CTL. -/
def evrCtlWrite (s : State) (e v : Nat) : State :=
  let on := flagF s Fld.evrCtlEnable e
  let deep := on && fieldOf v 5 1 != getF s Fld.evrCtlLog2Depth e
  let s := if deep then admDenied s else s
  let w := if deep then withField v 5 1 (getF s Fld.evrCtlLog2Depth e) else v
  let s := putFields s .evrCtl e (withField w 0 0 (getF s Fld.evrCtlEnable e))
  if bitN v 0 then evrEnable s e else evrDisable s e

/-- A value for a notification register with an unused target kept out (08 Table 8.3, R219): with mode 1 the device's own vector of a PF,
and a vector past the owner's table; with mode 2 a flag past 1,023. -/
def notifyVal (old v : Nat) (owner : Option (Nat × Nat)) : Nat :=
  let m := if fieldOf v 1 0 = 3 then fieldOf old 1 0 else fieldOf v 1 0
  let t := fieldOf v 12 2
  let bad := match m with
    | 1 => (match owner with
      | some (_, fn) => if fn = 0 then t == 0 else decide (32 ≤ t)
      | none => false)
    | 2 => decide (1024 ≤ t)
    | _ => false
  if bad then withField v 12 2 (fieldOf old 12 2) else v

/-- The function that owns an event ring. -/
def evrOwner (s : State) (e : Nat) : Option (Nat × Nat) :=
  if flagF s Fld.evrCtlHost e then some (getF s Fld.evrCtlEp e, getF s Fld.evrCtlFunc e) else none

/-- Whether a ring counts as enabled for a write of its bases (08 R216; of a stopping queue pair DEDUCED, log 101). -/
def ringBusy (s : State) (evr : Bool) (n : Nat) : Bool :=
  if evr then flagF s Fld.evrCtlEnable n else getF s Fld.qpStatState n == 1 || getF s Fld.qpStatState n == 2

/-- A write in the block. -/
def ctlRing (s : State) (req : Requester) (r : Reg) (i v : Nat) : State :=
  let evr := decide (0x240000 ≤ r.desc.off)
  refuseIf s (!ringWriter s req evr i) Fld.admDeniedCnt (fun s =>
    match r with
    | .qpSqBaseLo | .qpSqBaseHi | .qpCqBaseLo | .qpCqBaseHi | .evrBaseLo | .evrBaseHi =>
      refuseIf s (ringBusy s evr i) Fld.admDeniedCnt (fun s => putFields s r i v)
    | .qpCtl => qpCtlWrite s i v
    | .evrCtl => evrCtlWrite s i v
    | .qpNotify => putFields s r i (notifyVal (getReg s r i).toNat v (qpOwner s i))
    | .evrNotify => putFields s r i (notifyVal (getReg s r i).toNat v (evrOwner s i))
    | .qpLimit => qpSettle (putFields s r i v) i
    | _ => putFields s r i v)

/-! ### Tables in memory (08 R229, 10 R286, R299) -/

/-- Whether a table keeps its place: in HBM or DDR, outside every bay's slices and the thatch store. -/
def tablePlaced (s : State) (lo hi : Reg) (count size : Nat) : Bool := inPlatform s (addrOf s lo hi 0) (size * Nat.max count 1)

/-- A write of one half of a table's base. With no entry yet, a base whose other half is still 0 is unfinished and is taken as it comes
(DESIGN CHOICE, log 110). -/
def baseWrite (s : State) (r lo hi : Reg) (cnt : Fld) (count size v : Nat) (k : State → State) : State :=
  let t := putFields s r 0 v
  let open_ := count == 0 && (getReg t lo 0 == 0 || getReg t hi 0 == 0)
  if open_ || tablePlaced t lo hi count size then k t else bump s cnt 0

/-- A write of a table's count: one that would carry the table outside its place is refused like a base (DEDUCED, log 110). -/
def countWrite (s : State) (r lo hi : Reg) (cnt : Fld) (size v : Nat) (k : State → State) : State :=
  let t := putFields s r 0 v
  let n := (getReg t r 0).toNat
  if n = 0 ∨ tablePlaced t lo hi n size = true then k t else bump s cnt 0

/-! ### Admission (08 R229 to R231, R243) -/

/-- A write in the block. -/
def ctlAdm (s : State) (req : Requester) (r : Reg) (i v : Nat) : State :=
  pfOnly s req Fld.admDeniedCnt (fun s =>
    match r with
    | .admPrecBaseLo | .admPrecBaseHi =>
      baseWrite s r .admPrecBaseLo .admPrecBaseHi Fld.admDeniedCnt (getF s Fld.admPrecCount 0) 64 v id
    | .admPrecCount => countWrite s r .admPrecBaseLo .admPrecBaseHi Fld.admDeniedCnt 64 v id
    | .admPrecSync => partnerSync s (BitVec.ofNat 32 v)
    | .admPoolCap => poolSettle (putFields s r i v) i
    | .admPoolGres =>
      refuseIf s (decide (Nat.min (getF s Fld.admPoolCap i) (poolFloor s i) < v)) Fld.admDeniedCnt (fun s => poolSettle (putFields s r i v) i)
    | _ => putFields s r i v)

/-! ### Truss, Reed and the switch (09 R265, R277) -/

/-- A write of TRUSS_RULE_CMD with go. An op the table does not list gives BAD_ARG (DEDUCED, log 113). -/
def ruleCmdWrite (s : State) (req : Requester) (v : Nat) : State :=
  let t := fieldOf v 11 8
  match fieldOf v 3 0 with
  | 1 => nextOf s (execRuleAdd req t s)
  | 2 => nextOf s (execRuleDelete req t s)
  | 3 => nextOf s (execRuleModify req t s)
  | 4 => nextOf s (execRuleSetMiss req t s)
  | 5 => nextOf s (execRuleCommitOp req s)
  | 6 => nextOf s (execRuleDiscard req s)
  | _ => ruleCmd s req (fun s => ruleStat s cmdBadArg)

/-- A write of SW_FDB_CMD with go. -/
def fdbCmdWrite (s : State) (req : Requester) (v : Nat) : State :=
  let vlan := fieldOf v 15 4
  match fieldOf v 3 0 with
  | 1 => nextOf s (execFdbAddStatic req vlan s)
  | 2 => nextOf s (execFdbDelete req vlan s)
  | 3 => nextOf s (execFdbLookup req vlan s)
  | 4 => nextOf s (execFdbClearFlap req vlan s)
  | 5 => nextOf s (execFdbFlush req s)
  | _ => fdbStat s cmdBadArg

/-- Whether the function or the bay of an internal vport exists (09 R246, R277). -/
def vportExists (s : State) (v : Nat) : Bool :=
  if v < 0x240 then fnExists s ((v - 64) / 256) ((v - 64) % 256) else bayExists s (v - 0x240)

/-- A write of SW_PORT_CFG: the breakout, of the first sub-port of a port only, changes while the port is down (09 R277). -/
def portCfgWrite (s : State) (p v : Nat) : State :=
  let old := getF s Fld.swPortCfgBreakout p
  let v := if p % 8 = 0 then v else withField v 3 2 old
  if fieldOf v 3 2 ≠ old ∧ (s.truss.portsUp.any (fun x => x / 8 == p / 8)) = true then
    putFields (bump s Fld.trussDeniedCnt 0) .swPortCfg p (withField v 3 2 old)
  else putFields s .swPortCfg p v

/-- A write in the two blocks. -/
def ctlTruss (s : State) (req : Requester) (r : Reg) (i v : Nat) : State :=
  pfOnly s req Fld.trussDeniedCnt (fun s =>
    match r with
    | .trussRuleCmd => if bitN v 31 then ruleCmdWrite s req v else s
    | .swFdbCmd => if bitN v 31 then fdbCmdWrite s req v else s
    | .swPortCfg => portCfgWrite s i v
    | .swVportMac | .swVportCfg | .swVportRing => if vportExists s i then putFields s r i v else s
    | _ => putFields s r i v)

/-! ### Dormers, regions and the transport (10 R286, R299, R323) -/

/-- Whether a bay's range would overlap another bay's of its kind. -/
def rangeClash (s : State) (first count : Fld) (b : Nat) : Bool :=
  (List.range 64).any (fun k => k != b && decide (0 < getF s count b ∧ 0 < getF s count k) &&
    overlaps (getF s first b) (getF s count b) (getF s first k) (getF s count k))

/-- A write of one word of a bay's range. -/
def rangeWrite (s : State) (r : Reg) (first count : Fld) (b v : Nat) : State :=
  let t := putFields s r b v
  if rangeClash t first count b then bump s Fld.xptDeniedCnt 0 else t

/-- A write in the block. -/
def ctlXpt (s : State) (req : Requester) (r : Reg) (i v : Nat) : State :=
  let rmap := decide (r = .xptBayRmapLo ∨ r = .xptBayRmapHi ∨ r = .xptBayRmapCount)
  refuseIf s (!Requester.isPf req && !(rmap && Requester.bay s req == some i)) Fld.xptDeniedCnt (fun s =>
    match r with
    | .xptConnBaseLo | .xptConnBaseHi =>
      baseWrite s r .xptConnBaseLo .xptConnBaseHi Fld.xptDeniedCnt (getF s Fld.xptConnCount 0) 256 v id
    | .xptConnCount => countWrite s r .xptConnBaseLo .xptConnBaseHi Fld.xptDeniedCnt 256 v id
    | .rgnBaseLo | .rgnBaseHi => baseWrite s r .rgnBaseLo .rgnBaseHi Fld.xptDeniedCnt (getF s Fld.rgnCount 0) 32 v id
    | .rgnCount => countWrite s r .rgnBaseLo .rgnBaseHi Fld.xptDeniedCnt 32 v id
    | .xptBayConnFirst | .xptBayConnCount => rangeWrite s r Fld.xptBayConnFirst Fld.xptBayConnCount i v
    | .xptBayWinFirst | .xptBayWinCount => rangeWrite s r Fld.xptBayWinFirst Fld.xptBayWinCount i v
    | .xptBayRgnFirst | .xptBayRgnCount => rangeWrite s r Fld.xptBayRgnFirst Fld.xptBayRgnCount i v
    | .xptPfcThr => (List.range 8).foldl (fun s q => pfcSettle s i q) (putFields s r i v)
    | _ => putFields s r i v)

/-! ### Nawyn (11 R341, R345) -/

/-- A frequency correction is a signed number of parts per billion, at most 500,000 either way (11 Table 11.8). -/
def freqOk (v : Nat) : Bool := decide (-500000 ≤ (BitVec.ofNat 32 v).toInt ∧ (BitVec.ofNat 32 v).toInt ≤ 500000)

/-- A write of NAWYN_TIME_CTL: a device that does not follow runs free; one that follows another link locks anew (11 R341, R342;
DEDUCED, log 114). -/
def timeCtlWrite (s : State) (v : Nat) : State :=
  let t := putFields s .nawynTimeCtl 0 v
  if follower t && follower s && getF t Fld.nawynTimeCtlUpLink 0 == getF s Fld.nawynTimeCtlUpLink 0 then t
  else setF { t with nawyn := { t.nawyn with good := 0 } } Fld.nawynTimeStatState 0 0

/-- A write in the block. -/
def ctlNawyn (s : State) (req : Requester) (r : Reg) (i : Nat) (v : Dword) : State :=
  pfOnly s req Fld.nawynDeniedCnt (fun s =>
    match r with
    | .nawynLinkCfg => linkCfgWrite s req i (v.setWidth 32)
    | .nawynCrsCmd => if v.getLsbD 31 then nextOf s (execCourseArm req i s) else s
    | .nawynTimeOfs => nextOf s (execTimeOfsWrite req v s)
    | .nawynTimeFreq => if freqOk v.toNat then putFields s r i v.toNat else s
    | .nawynTimeCtl => timeCtlWrite s v.toNat
    | _ => putFields s r i v.toNat)

/-! ### Loft (12 R362, R386) -/

/-- A write of LOFT_POOL_CFG: log2_size changes only while head equals tail. -/
def poolCfgWrite (s : State) (i v : Nat) : State :=
  let old := getF s Fld.loftPoolCfgLog2Size i
  if fieldOf v 4 0 ≠ old ∧ getF s Fld.loftPoolHead i ≠ getF s Fld.loftPoolTail i then
    poolShow (putFields (bump s Fld.loftDeniedCnt 0) .loftPoolCfg i (withField v 4 0 old)) i
  else poolShow (putFields s .loftPoolCfg i v) i

/-- A write in the block. -/
def ctlLoft (s : State) (req : Requester) (r : Reg) (i v : Nat) : State :=
  let pool := decide (0x2008000 ≤ r.desc.off ∧ r.desc.off < 0x2009000)
  if pool then
    refuseIf s (!(Requester.isPf req || (loftOn s && Requester.bay s req == some (ctlBay s)))) Fld.loftDeniedCnt (fun s =>
      match r with
      | .loftPoolBaseLo | .loftPoolBaseHi =>
        refuseIf s (getF s Fld.loftPoolHead i != getF s Fld.loftPoolTail i) Fld.loftDeniedCnt (fun s => putFields s r i v)
      | .loftPoolCfg => poolCfgWrite s i v
      | .loftPoolTail => nextOf s (execLoftPoolTailWrite req i (BitVec.ofNat 32 v) s)
      | _ => putFields s r i v)
  else
    refuseIf s (!(Requester.isPf req && decide (r = .loftMaxWait ∨ r = .loftNode))) Fld.loftDeniedCnt (fun s => putFields s r i v)

/-! ### Underlay (13 R387, R389) -/

/-- Whether the whole Underlay lies in the DDR slice of its bay. -/
def ulPlaced (s : State) : Bool :=
  let e := envOf s (getF s Fld.ulCfgBay 0)
  within (ulBase s) (2 * ulSlotSize s + 2 * ulAreaSize s) (ddrStart + e.ddrBase) e.ddrSize

/-- A write in the block. Placement is judged while the Underlay is enabled (DEDUCED, log 111). -/
def ctlUl (s : State) (req : Requester) (r : Reg) (i v : Nat) : State :=
  pfOnly s req Fld.ulDeniedCnt (fun s =>
    match r with
    | .ulCfg | .ulBaseLo | .ulBaseHi | .ulSlotSize =>
      let t := putFields s r i v
      refuseIf s (slotState s 0 != 0 || slotState s 1 != 0 || (ulOn t && !ulPlaced t)) Fld.ulDeniedCnt (fun _ => t)
    | .ulBaseInv => nextOf s (execUlBaseInv req (BitVec.ofNat 32 v) s)
    | _ => putFields s r i v)

/-! ### Storage and security (14 R410, R429) -/

/-- A write in the block. -/
def ctlStor (s : State) (req : Requester) (r : Reg) (i v : Nat) : State :=
  match r with
  | .storCtl => refuseIf s (!Requester.isPf req || flagF s Fld.storCtlEnable 0) Fld.storDeniedCnt (fun s => putFields s r i v)
  | .storCtrl => refuseIf s (!storWriter s req) Fld.storDeniedCnt (fun s => putFields s r i v)
  | .storNsCtl => nsCtlWrite s req (i / 16) (i % 16) v
  | .storNsConn | .storNsRkey | .storNsKey | .storNsBase | .storNsLbas =>
    refuseIf s (!storWriter s req || flagF s Fld.storNsCtlValid i) Fld.storDeniedCnt (fun s => putFields s r i v)
  | _ => bump s Fld.storDeniedCnt 0

/-! ### Gutter (15 R433, R437, R448) -/

/-- A write in the block. -/
def ctlGut (s : State) (req : Requester) (r : Reg) (i : Nat) (v : Dword) : State :=
  if r = .gutMark then markWrite s req v
  else
    pfOnly s req Fld.gutDeniedCnt (fun s =>
      match r with
      | .gutChCtl => chanCtlWrite s i (v.toNat % 2 ^ 32)
      | .gutChDhead => dheadSet s i (v.toNat % 2 ^ 32)
      | .gutChDbaseLo | .gutChDbaseHi | .gutChDsize =>
        refuseIf s (flagF s Fld.gutChCtlEnable i || getF s Fld.gutChStatState i != 0) Fld.gutDeniedCnt (fun s => putFields s r i v.toNat)
      | .gutChNotify => putFields s r i (notifyVal (getReg s r i).toNat v.toNat none)
      | .gutSrc => putFields s r i (if i < 16 then v.toNat else withField v.toNat 23 16 0)
      | _ => putFields s r i v.toNat)

/-! ### Clocks and power (02 R38, R41, R52, R56, R465; 03 R66, R78, R79, R84, R88, R91) -/

/-- Host software: a function of an endpoint. -/
def fromHost : Requester → Bool
  | .thread _ => false
  | _ => true

/-- Whether a requester may write PWR_DOM_CTL of a domain (02 R41). -/
def domWriter (s : State) (req : Requester) (d : Nat) : Bool :=
  fromHost req || (decide (d < 64) && (match Requester.bay s req with
    | some b => bayOfRafter s d == some b
    | none => false))

/-- A write of PWR_DOM_CTL (02 R38, R465, Table 2.15). -/
def domCtlWrite (s : State) (req : Requester) (d v : Nat) : State :=
  if 78 < d then s
  else
    refuseIf s (!domWriter s req d) Fld.pwrDeniedCnt (fun s =>
      let s := putFields s .pwrDomCtl d v
      let s := if bitN v 3 then (let s := latchWake s d 6; if bitN v 2 then s else setF s Fld.pwrDomStatOffPending d 0) else s
      if !bitN v 2 then s
      else if d == purlin || domLimited s d then bump s Fld.pwrDeniedCnt 0
      else setF s Fld.pwrDomStatOffPending d 1)

/-- A write of PWR_CTL (02 R56, R57, Table 2.11). -/
def pwrCtlWrite (s : State) (req : Requester) (v : Nat) : State :=
  pfOnly s req Fld.pwrDeniedCnt (fun s =>
    let s := if bitN v 0 then tarpEnter s 6 else s
    if bitN v 1 then bootNow s else s)

/-- A write of PWR_BAY_RST (02 R52). -/
def bayRstWrite (s : State) (req : Requester) (bay : Nat) (go : Bool) : State :=
  refuseIf s (!Requester.isPf req || !go || !bayExists s bay) Fld.pwrDeniedCnt (fun s => bayResetStart s bay)

/-- A write of PWR_CHAIN_CTL (03 R66, R75). -/
def chainCtlWrite (s : State) (v : Nat) : State :=
  let s := putFields s .pwrChainCtl 0 v
  if bitN v 1 then chainRelease s else s

/-- A write of PWR_NODE_ID: a host's (03 R78). One by a thread changes nothing (DEDUCED, log 112). -/
def nodeIdWrite (s : State) (req : Requester) (v : Nat) : State :=
  let n := fieldOf v 11 0
  if !fromHost req || n == 0xFFF then s
  else setF (setF s Fld.pwrNodeIdNodeId 0 n) Fld.pwrNodeIdWritten 0 1

/-- A write of PWR_THERM_THRESH: accepted or ignored whole (03 R88). -/
def thermWrite (s : State) (v : Nat) : State :=
  let warn := fieldOf v 7 0
  let hard := fieldOf v 15 8
  let emerg := fieldOf v 23 16
  let clear := fieldOf v 31 24
  if 70 ≤ warn ∧ warn ≤ 105 ∧ 80 ≤ hard ∧ hard ≤ 110 ∧ 90 ≤ emerg ∧ emerg ≤ 115 ∧ 60 ≤ clear ∧ clear ≤ 110 ∧ warn < hard ∧ hard < emerg ∧
      clear < emerg then
    setReg s .pwrThermThresh 0 (BitVec.ofNat 64 (v % 2 ^ 32))
  else bump s Fld.pwrDeniedCnt 0

/-- Whether PWR_CON_BAUD.inc gives 9,600 to 4,000,000 baud (03 R79). -/
def baudOk (inc : Nat) : Bool := decide (9600 * 2 ^ 28 ≤ 200000000 * inc ∧ 200000000 * inc ≤ 4000000 * 2 ^ 28)

/-- A write of PWR_ACC_CTL: its delays, then the request, which is host software's to make (03 R92; of a thread DEDUCED, log 112). -/
def accCtlWrite (s : State) (req : Requester) (n v : Nat) : State :=
  let s := putFields s .pwrAccCtl n v
  if fromHost req then accRequest s n (fieldOf v 1 0) else s

/-- A write in the block. -/
def ctlPwr (s : State) (req : Requester) (r : Reg) (i v : Nat) : State :=
  match r with
  | .pwrCtl => pwrCtlWrite s req v
  | .pwrBayRst => bayRstWrite s req (fieldOf v 5 0) (bitN v 31)
  | .pwrDomCtl => domCtlWrite s req i v
  | .pwrChainCtl => chainCtlWrite s v
  | .pwrNodeId => nodeIdWrite s req v
  | .pwrConBaud => if baudOk (fieldOf v 23 0) then putFields s r i v else s
  | .pwrConTx => conTx s (BitVec.ofNat 8 v)
  | .pwrThermThresh => thermWrite s v
  | .pwrAccCtl => accCtlWrite s req i v
  | _ => putFields s r i v

/-! ### One access -/

/-- What a write of a register does, in its block (07 Table 7.5). -/
def regWrite (s : State) (req : Requester) (r : Reg) (i : Nat) (v : Dword) : State :=
  let n := v.toNat
  let off := r.desc.off
  if off < 0x10000 then ctlIdent s req r i n
  else if off < 0x100000 then ctlThatch s req r i n
  else if off < 0x108000 then qpDoorbell s i v
  else if off < 0x200000 then evrDoorbell s i v
  else if off < 0x400000 then ctlRing s req r i n
  else if off < 0x800000 then ctlAdm s req r i n
  else if off < 0x1000000 then ctlTruss s req r i n
  else if off < 0x1800000 then ctlXpt s req r i n
  else if off < 0x2000000 then ctlNawyn s req r i v
  else if off < 0x2800000 then ctlLoft s req r i n
  else if off < 0x3000000 then ctlUl s req r i n
  else if off < 0x3800000 then ctlStor s req r i n
  else if off < 0x3C00000 then ctlGut s req r i v
  else ctlPwr s req r i n

/-- A write that R10 allows. At an offset that holds no register it changes nothing (00 R464); outside Normal mode a host's to a closed
offset is discarded and counted (02 R59). -/
def ctlWrite (s : State) (req : Requester) (off size : Nat) (v : Dword) : State :=
  let v := if size = 4 then v &&& 0xFFFFFFFF else v
  let k := fun s => match Reg.at? off with
    | some (r, i) => regWrite s req r i v
    | none => s
  if ctlOpen off then k s else gated s req k

/-- NAWYN_PTP_INFO: the head entry (11 R344). -/
def ptpInfoNow (s : State) : Nat :=
  match s.nawyn.ptp with
  | [] => 0
  | e :: _ => e.1

/-- STOR_CTRL_ID (14 R407). -/
def ctrlIdNow (s : State) (c : Nat) : Nat :=
  match ctrlFn s c with
  | some (ep, fn) => fn + 256 * ep + 512
  | none => 0

/-- STOR_CTRL_OUT: commands admitted and not ended, discarded back-end work among them (14 R415). -/
def ctrlOutNow (s : State) (c : Nat) : Nat :=
  (s.stor.cmds.filter (fun e => e.2.cmd.ctrl == c && (e.2.ended || (match opOf s e.1 with
    | some o => decide (o.st ≠ .waiting)
    | none => true)))).length

/-- What a read of a register returns, and what it does (00 Table 0.5). -/
def regRead (s : State) (r : Reg) (i : Nat) : Dword × State :=
  match r with
  | .thatchStoreBase => (BitVec.ofNat 64 (s.thatch.ddrGiB - 4), s)
  | .admPoolFloor => (BitVec.ofNat 64 (poolFloor s i), s)
  | .admPoolLive => (BitVec.ofNat 64 (poolLive s i), s)
  | .trussOldInflight => (BitVec.ofNat 64 (oldInflight s), s)
  | .nawynTime => (BitVec.ofNat 64 s.ftime, s)
  | .nawynPtpInfo => (BitVec.ofNat 64 (ptpInfoNow s), s)
  | .nawynPtpTime => ptpPop s
  | .nawynLateMax => (getReg s r i, setReg s r i 0)
  | .secFloor => (BitVec.ofNat 64 s.stor.fuseFloor, s)
  | .secSlotStat => (BitVec.ofNat 64 (s.stor.usable + 256 * s.stor.revoked), s)
  | .storCtrlId => (BitVec.ofNat 64 (ctrlIdNow s i), s)
  | .storCtrlOut => (BitVec.ofNat 64 (ctrlOutNow s i), s)
  | .pwrConRx => ((BitVec.ofNat 64 (conRead s).1), (conRead s).2)
  | _ => (getReg s r i, s)

/-- A read that R10 allows: of one register, of one half of a 64-bit one, or of offsets that hold none, which read 0 (00 R19, R464). -/
def ctlRead (s : State) (off size : Nat) : Dword × State :=
  match regOver off with
  | none => (0, s)
  | some (r, i) =>
    let a := regRead s r i
    if size = 8 then a
    else if Reg.at? off = none then ((a.1 >>> (32 : Nat)) &&& 0xFFFFFFFF, a.2)
    else (a.1 &&& 0xFFFFFFFF, a.2)

/-! ### The commands -/

/-- An access that R10 forbids, as its requester sees it (00 R11, 07 R192). -/
def badAccess (s : State) (req : Requester) (off size : Nat) (write : Bool) : State :=
  let s := ctlRefuse s off size write
  match req with
  | .thread t =>
    if (threadOf s t.toNat).st = .ready then
      trap s t.toNat { cause := causeMisalign, v0 := BitVec.ofNat 64 (ctrlStart + off) }
    else s
  | _ => if write then s else emit s (.answer req (some (if size = 8 then BitVec.allOnes 64 else 0xFFFFFFFF)))

/-- REGISTER_WRITE. -/
def execRegisterWrite (req : Requester) (off size : Nat) (v : Dword) (s : State) : Host.Outcome State Fault Refusal :=
  .next (if ctlBad off size true then badAccess s req off size true else ctlWrite s req off size v)

/-- MISALIGNED_CONTROL_ACCESS: none where the access is one that R10 allows. -/
def execMisalignedControlAccess (req : Requester) (off size : Nat) (write : Bool) (_ : Dword) (s : State) : Host.Outcome State Fault Refusal :=
  .next (if ctlBad off size write then badAccess s req off size write else s)

/-- OFF_REQ: a write of PWR_DOM_CTL with off_req. -/
def execOffReq (req : Requester) (d : Nat) (v : Word) (s : State) : Host.Outcome State Fault Refusal :=
  .next (domCtlWrite s req d (v ||| 4).toNat)

/-- WAKE_REQ: a write of PWR_DOM_CTL with wake_req. -/
def execWakeReq (req : Requester) (d : Nat) (v : Word) (s : State) : Host.Outcome State Fault Refusal :=
  .next (domCtlWrite s req d (v ||| 8).toNat)

/-- BAY_RESET: a write of PWR_BAY_RST. -/
def execBayReset (req : Requester) (bay : Nat) (go : Bool) (s : State) : Host.Outcome State Fault Refusal :=
  .next (bayRstWrite s req bay go)

/-- BOOT_NOW: a write of PWR_CTL.boot_now. -/
def execBootNow (req : Requester) (s : State) : Host.Outcome State Fault Refusal := .next (pwrCtlWrite s req 2)

/-- TARP_FORCE_WRITE: a write of PWR_CTL.tarp_force. -/
def execTarpForceWrite (req : Requester) (s : State) : Host.Outcome State Fault Refusal := .next (pwrCtlWrite s req 1)

/-- CHAIN_RELEASE_WRITE: a write of PWR_CHAIN_CTL with release. -/
def execChainReleaseWrite (_ : Requester) (v : Word) (s : State) : Host.Outcome State Fault Refusal :=
  .next (chainCtlWrite s (v ||| 2).toNat)

/-- NODE_ID_WRITE. -/
def execNodeIdWrite (req : Requester) (v : Word) (s : State) : Host.Outcome State Fault Refusal := .next (nodeIdWrite s req v.toNat)

/-- CON_TX_WRITE. -/
def execConTxWrite (_ : Requester) (c : Byte) (s : State) : Host.Outcome State Fault Refusal := .next (conTx s c)

/-- CON_RX_READ. -/
def execConRxRead (req : Requester) (s : State) : Host.Outcome State Fault Refusal :=
  .next (emit (conRead s).2 (.answer req (some (BitVec.ofNat 64 (conRead s).1))))

/-- THERM_THRESH_WRITE. -/
def execThermThreshWrite (_ : Requester) (v : Word) (s : State) : Host.Outcome State Fault Refusal := .next (thermWrite s v.toNat)

/-- A command of the thatch control block, from a PF only, in Normal mode (04 R110). -/
def thatchPf (s : State) (req : Requester) (bay : Nat) (k : State → State) : State :=
  gated s req (fun s => if !Requester.isPf req || !bayExists s bay then thatchDeny s else k s)

/-- THATCH_RELOAD (04 R111). -/
def execThatchReload (req : Requester) (bay : Nat) (auto : Bool) (s : State) : Host.Outcome State Fault Refusal :=
  .next (thatchPf s req bay (fun s => thatchReloadCmd s bay auto))

/-- THATCH_COMMIT_OP (04 R117). -/
def execThatchCommitOp (req : Requester) (bay : Nat) (s : State) : Host.Outcome State Fault Refusal :=
  .next (thatchPf s req bay (fun s => thatchCommitCmd s bay))

/-- THATCH_CANCEL (04 R118). -/
def execThatchCancel (req : Requester) (bay : Nat) (s : State) : Host.Outcome State Fault Refusal :=
  .next (thatchPf s req bay (fun s => thatchCancelCmd s bay))

/-- THATCH_QUIESCE (04 R113). -/
def execThatchQuiesce (req : Requester) (bay : Nat) (go : Bool) (s : State) : Host.Outcome State Fault Refusal :=
  .next (gated s req (fun s => thatchQuiesceWrite s req bay go))

end Sys2Proof.Machine
end

