-- ==== Sys2Proof/Machine/IsaMem.lean ====
section
/-! DEFINITION. The Olxavon instructions that access memory (05 R140, R141, R145, R150 to R153, Table 5.13; 06 R159, R172 to R178), and
how a held access ends. -/

namespace Sys2Proof.Machine

/-! ### One access -/

/-- The misaligned-access rule of the control space for a thread's access that R140 allows (00 R10, R11). -/
def ctlMisfit (w : Way) (a n : Nat) (write : Bool) : Bool := w.cls == .ctrl && ctlBad (a - ctrlStart) n write

/-- A thread's access through its checks: `go` with the way it takes, or the trap it takes. -/
def access (s : State) (t a n : Nat) (k : AccKind) (go : State → Way → State) : State :=
  let r := accessWay s t a n k
  match r.1 with
  | .error i => trap r.2 t i
  | .ok w =>
    if ctlMisfit w a n (k == .write) then trap (ctlRefuse r.2 (a - ctrlStart) n (k == .write)) t (misalign a) else go r.2 w

/-- What a load's request meets: its value at once (device memory and control space; the value is fixed at issue, log 117), a wait for
an answer that comes by a message or by ACCESS_COMPLETION, or a status of Table 6.8. -/
inductive LoadMeets where
  | now (v : Nat)
  | wait (byMsg : Bool)
  | fail (st : Nat)
deriving DecidableEq, Repr

/-- A load's request. -/
def requestLoad (s : State) (t a n : Nat) (w : Way) : LoadMeets × State :=
  match w.cls with
  | .ctrl => let r := ctlRead s (a - ctrlStart) n; (.now r.1.toNat, r.2)
  | .hostA | .hostB =>
    let ep := if w.cls = .hostA then 0 else 1
    match hostStatus s ep w.aux with
    | some st => (.fail st, s)
    | none => (.wait false, atsHold s ep 0 a)
  | .nawyn =>
    match nawynLoad s t a n with
    | .ok s => (.wait true, s)
    | .error st => (.fail st, s)
  | .remote =>
    match remoteAccess s t ((bayOfTid s t).getD 64) a (w.aux % 2 ^ 32) (a - w.pane) n none with
    | .ok s => (.wait true, s)
    | .error st => (.fail st, s)
  | _ => (.now (readLe s a n), s)

/-- A thread's store, after its instruction has retired: it acts at once, or is posted (06 R173). One that fails latches
INT_STORE_ERR (06 R177). -/
def storeDo (s : State) (t a n : Nat) (v : Dword) (w : Way) : State :=
  let v := BitVec.ofNat 64 (v.toNat % 2 ^ (8 * n))
  let bs := leBytes n v.toNat
  let s := dtrace s t 1 n a v
  let post := fun s => setThread s t { threadOf s t with posted := (threadOf s t).posted ++ [a] }
  match w.cls with
  | .ctrl => ctlWrite s (.thread (BitVec.ofNat 13 t)) (a - ctrlStart) n v
  | .hostA | .hostB =>
    let ep := if w.cls = .hostA then 0 else 1
    match hostStatus s ep w.aux with
    | some st => postedFail (post s) t a st
    | none => writeBytes (atsHold s ep 0 a) a bs
  | .nawyn =>
    let r := nawynStore (post s) t a bs
    if r.2 then r.1 else postedFail r.1 t a 4
  | .remote =>
    match remoteAccess (post s) t ((bayOfTid s t).getD 64) a (w.aux % 2 ^ 32) (a - w.pane) n (some bs) with
    | .ok s => s
    | .error st => postedFail (post s) t a st
  | _ => writeBytes s a bs

/-! ### Loads and stores (05 R140, Table 5.5, Table 5.13; 06 R159) -/

/-- Issue a non-blocking load: its value is on its way to `rd`. -/
def launchLoad (x : Thread) (rd a : Nat) (v : Dword) (len : Nat) : Thread :=
  { x with loads := (x.loads.map (fun l => if l.rd = rd then { l with rd := 0 } else l)) ++ [{ rd := rd, val := v, addr := a, pc := x.pc }], badLoads := x.badLoads.filter (fun l => l.1 != rd || rd == 0), pc := nextPc x len }

/-- A load of `n` bytes by an instruction of `len` bytes. Through a pane of memory type 0 it does not hold the thread, unless 8 are
outstanding: then it issues later. -/
def loadInstr (s : State) (t rd a n : Nat) (sgn : Bool) (len : Nat) : State :=
  access s t a n .read (fun s w =>
    let x := threadOf s t
    if w.mtype = 0 ∧ 8 ≤ x.loads.length then s
    else
      let r := requestLoad s t a n w
      let b : Block := { rd := rd, val := none, size := n, sgn := sgn, npc := nextPc x len, addr := a }
      match r.1 with
      | .now v =>
        let v := extendLoad n sgn v
        let s := dtrace r.2 t 0 n a v
        if w.mtype = 0 then setThread s t (launchLoad (threadOf s t) rd a v len) else hold s t { b with val := some v }
      | .wait m => hold r.2 t { b with byMsg := m }
      | .fail st => trap r.2 t (remoteFault a st))

/-- A store of `n` bytes by an instruction of `len` bytes. -/
def storeInstr (s : State) (t a n : Nat) (v : Dword) (len : Nat) : State :=
  access s t a n .write (fun s w => storeDo (advance s t len) t a n v w)

/-- The effective address g[ra] + displacement. -/
def effAddr (s : State) (tid : Tid) (ra : RegNo) (d : Dword) : Nat := ((threadOf s tid.toNat).reg ra.toNat + d).toNat

/-- A load of Table 5.5. -/
def issueLoad (op : LoadOp) (tid : Tid) (rd ra : RegNo) (imm : Half) (s : State) : Host.Outcome State Fault Refusal :=
  .next (issueI s tid (.load op rd ra imm) (fun s =>
    loadInstr s tid.toNat rd.toNat (effAddr s tid ra (imm.signExtend 64)) (loadShape op).1 (loadShape op).2 4))

/-- LB (05 Table 5.5). -/
def execLb (tid : Tid) (rd ra : RegNo) (imm : Half) (s : State) : Host.Outcome State Fault Refusal := issueLoad .lb tid rd ra imm s
/-- LBU (05 Table 5.5). -/
def execLbu (tid : Tid) (rd ra : RegNo) (imm : Half) (s : State) : Host.Outcome State Fault Refusal := issueLoad .lbu tid rd ra imm s
/-- LH (05 Table 5.5). -/
def execLh (tid : Tid) (rd ra : RegNo) (imm : Half) (s : State) : Host.Outcome State Fault Refusal := issueLoad .lh tid rd ra imm s
/-- LHU (05 Table 5.5). -/
def execLhu (tid : Tid) (rd ra : RegNo) (imm : Half) (s : State) : Host.Outcome State Fault Refusal := issueLoad .lhu tid rd ra imm s
/-- LW (05 Table 5.5). -/
def execLw (tid : Tid) (rd ra : RegNo) (imm : Half) (s : State) : Host.Outcome State Fault Refusal := issueLoad .lw tid rd ra imm s
/-- LWU (05 Table 5.5). -/
def execLwu (tid : Tid) (rd ra : RegNo) (imm : Half) (s : State) : Host.Outcome State Fault Refusal := issueLoad .lwu tid rd ra imm s
/-- LD (05 Table 5.5). -/
def execLd (tid : Tid) (rd ra : RegNo) (imm : Half) (s : State) : Host.Outcome State Fault Refusal := issueLoad .ld tid rd ra imm s

/-- A store of Table 5.5. -/
def issueStore (op : StoreOp) (tid : Tid) (rd ra : RegNo) (imm : Half) (s : State) : Host.Outcome State Fault Refusal :=
  .next (issueI s tid (.store op rd ra imm) (fun s =>
    storeInstr s tid.toNat (effAddr s tid ra (imm.signExtend 64)) (storeSize op) ((threadOf s tid.toNat).reg rd.toNat) 4))

/-- SB (05 Table 5.5). -/
def execSb (tid : Tid) (rd ra : RegNo) (imm : Half) (s : State) : Host.Outcome State Fault Refusal := issueStore .sb tid rd ra imm s
/-- SH (05 Table 5.5). -/
def execSh (tid : Tid) (rd ra : RegNo) (imm : Half) (s : State) : Host.Outcome State Fault Refusal := issueStore .sh tid rd ra imm s
/-- SW (05 Table 5.5). -/
def execSw (tid : Tid) (rd ra : RegNo) (imm : Half) (s : State) : Host.Outcome State Fault Refusal := issueStore .sw tid rd ra imm s
/-- SD (05 Table 5.5). -/
def execSd (tid : Tid) (rd ra : RegNo) (imm : Half) (s : State) : Host.Outcome State Fault Refusal := issueStore .sd tid rd ra imm s

/-- An extended load (05 Table 5.13). -/
def issueLoadX (op : ExtLoad) (tid : Tid) (rd ra : RegNo) (imm : BitVec 42) (s : State) : Host.Outcome State Fault Refusal :=
  .next (issueI s tid (.extLoad op rd ra imm) (fun s =>
    loadInstr s tid.toNat rd.toNat (effAddr s tid ra (imm.signExtend 64)) (extLoadShape op).1 (extLoadShape op).2 8))

/-- LDX (05 Table 5.13). -/
def execLdx (tid : Tid) (rd ra : RegNo) (imm : BitVec 42) (s : State) : Host.Outcome State Fault Refusal := issueLoadX .ldx tid rd ra imm s
/-- LWX (05 Table 5.13). -/
def execLwx (tid : Tid) (rd ra : RegNo) (imm : BitVec 42) (s : State) : Host.Outcome State Fault Refusal := issueLoadX .lwx tid rd ra imm s
/-- LWUX (05 Table 5.13). -/
def execLwux (tid : Tid) (rd ra : RegNo) (imm : BitVec 42) (s : State) : Host.Outcome State Fault Refusal := issueLoadX .lwux tid rd ra imm s

/-- An extended store (05 Table 5.13). -/
def issueStoreX (op : ExtStore) (tid : Tid) (rd ra : RegNo) (imm : BitVec 42) (s : State) : Host.Outcome State Fault Refusal :=
  .next (issueI s tid (.extStore op rd ra imm) (fun s =>
    storeInstr s tid.toNat (effAddr s tid ra (imm.signExtend 64)) (extStoreSize op) ((threadOf s tid.toNat).reg rd.toNat) 8))

/-- SDX (05 Table 5.13). -/
def execSdx (tid : Tid) (rd ra : RegNo) (imm : BitVec 42) (s : State) : Host.Outcome State Fault Refusal := issueStoreX .sdx tid rd ra imm s
/-- SWX (05 Table 5.13). -/
def execSwx (tid : Tid) (rd ra : RegNo) (imm : BitVec 42) (s : State) : Host.Outcome State Fault Refusal := issueStoreX .swx tid rd ra imm s

/-! ### Atomics (05 R141) -/

/-- The new value of an atomic's location, from its old one, g[rb] and g[rd]. -/
def amoVal (op : AmoOp) (dword : Bool) (old : Nat) (b d : Dword) : Nat :=
  if dword then (amoN op (BitVec.ofNat 64 old) b d).toNat
  else (amoN op (BitVec.ofNat 32 old) (b.setWidth 32) (d.setWidth 32)).toNat

/-- An atomic: its step is made at issue; the thread is held until it completes (06 R159). With rl it issues once the earlier stores
are performed; what aq orders has happened at issue already (05 R141; log 22). -/
def issueAmo (op : AmoOp) (tid : Tid) (dword aq rl : Bool) (rd ra rb : RegNo) (s : State) : Host.Outcome State Fault Refusal :=
  .next (issueI s tid (.amo op dword aq rl rd ra rb) (fun s =>
    let t := tid.toNat
    let x := threadOf s t
    let a := (x.reg ra.toNat).toNat
    let n := if dword then 8 else 4
    if rl && !x.posted.isEmpty then s
    else access s t a n .atomic (fun s _ =>
      let old := readLe s a n
      let v := extendLoad n (!dword) old
      let s := dtrace (writeLe s a n (amoVal op dword old (x.reg rb.toNat) (x.reg rd.toNat))) t 2 n a v
      hold s t { rd := rd.toNat, val := some v, size := n, npc := nextPc x 4, addr := a, kind := 3 })))

/-- AMOSWAP (05 Table 5.8). -/
def execAmoswap (tid : Tid) (dword aq rl : Bool) (rd ra rb : RegNo) (s : State) : Host.Outcome State Fault Refusal := issueAmo .swap tid dword aq rl rd ra rb s
/-- AMOADD (05 Table 5.8). -/
def execAmoadd (tid : Tid) (dword aq rl : Bool) (rd ra rb : RegNo) (s : State) : Host.Outcome State Fault Refusal := issueAmo .add tid dword aq rl rd ra rb s
/-- AMOAND (05 Table 5.8). -/
def execAmoand (tid : Tid) (dword aq rl : Bool) (rd ra rb : RegNo) (s : State) : Host.Outcome State Fault Refusal := issueAmo .and tid dword aq rl rd ra rb s
/-- AMOOR (05 Table 5.8). -/
def execAmoor (tid : Tid) (dword aq rl : Bool) (rd ra rb : RegNo) (s : State) : Host.Outcome State Fault Refusal := issueAmo .or tid dword aq rl rd ra rb s
/-- AMOXOR (05 Table 5.8). -/
def execAmoxor (tid : Tid) (dword aq rl : Bool) (rd ra rb : RegNo) (s : State) : Host.Outcome State Fault Refusal := issueAmo .xor tid dword aq rl rd ra rb s
/-- AMOMIN (05 Table 5.8). -/
def execAmomin (tid : Tid) (dword aq rl : Bool) (rd ra rb : RegNo) (s : State) : Host.Outcome State Fault Refusal := issueAmo .min tid dword aq rl rd ra rb s
/-- AMOMAX (05 Table 5.8). -/
def execAmomax (tid : Tid) (dword aq rl : Bool) (rd ra rb : RegNo) (s : State) : Host.Outcome State Fault Refusal := issueAmo .max tid dword aq rl rd ra rb s
/-- AMOMINU (05 Table 5.8). -/
def execAmominu (tid : Tid) (dword aq rl : Bool) (rd ra rb : RegNo) (s : State) : Host.Outcome State Fault Refusal := issueAmo .minu tid dword aq rl rd ra rb s
/-- AMOMAXU (05 Table 5.8). -/
def execAmomaxu (tid : Tid) (dword aq rl : Bool) (rd ra rb : RegNo) (s : State) : Host.Outcome State Fault Refusal := issueAmo .maxu tid dword aq rl rd ra rb s
/-- CAS (05 Table 5.8). -/
def execCas (tid : Tid) (dword aq rl : Bool) (rd ra rb : RegNo) (s : State) : Host.Outcome State Fault Refusal := issueAmo .cas tid dword aq rl rd ra rb s

/-! ### Instructions that make several accesses -/

/-- How such an instruction stands: its form, the steps left to it, what it has loaded, and the number of the next load. -/
structure Multi where
  i : Olx
  steps : Nat
  got : List Dword
  at_ : Nat
deriving DecidableEq, Repr

/-- The next load of such an instruction: its value, or none where a trap was taken or the load holds the thread. One that has been
answered already is not made again. -/
def loadOne (s : State) (t a n : Nat) (m : Multi) : Option Nat × State :=
  match m.got[m.at_]? with
  | some v => (some v.toNat, s)
  | none =>
    let r := accessWay s t a n .read
    match r.1 with
    | .error i => (none, trap r.2 t i)
    | .ok w =>
      if ctlMisfit w a n false then (none, trap (ctlRefuse r.2 (a - ctrlStart) n false) t (misalign a))
      else
        let q := requestLoad r.2 t a n w
        let b : Block := { rd := 0, val := none, size := n, npc := (threadOf s t).pc, addr := a, cont := some m.i, got := m.got, steps := m.steps }
        match q.1 with
        | .now v =>
          let s := dtrace q.2 t 0 n a (BitVec.ofNat 64 v)
          if w.mtype = 0 then (some v, s) else (none, hold s t { b with val := some (BitVec.ofNat 64 v) })
        | .wait k => (none, hold q.2 t { b with byMsg := k })
        | .fail st => (none, trap q.2 t (remoteFault a st))

/-- CHKD: the two loads of its descriptor, then the check (05 R145). -/
def runChkd (s : State) (t : Nat) (sgn : Bool) (ra rb : RegNo) (got : List Dword) : State :=
  let x := threadOf s t
  let d := (x.reg rb.toNat).toNat
  let i : Olx := .chkd sgn ra rb
  if 2 ^ 52 ≤ d then trap s t (paneFault d .read (6, 0))
  else if d % 16 ≠ 0 then trap s t (misalign d)
  else
    let lo := loadOne s t d 8 ⟨i, 0, got, 0⟩
    match lo.1 with
    | none => lo.2
    | some lo' =>
      let got := if got.isEmpty then [BitVec.ofNat 64 lo'] else got
      let hi := loadOne lo.2 t (d + 8) 8 ⟨i, 0, got, 1⟩
      match hi.1 with
      | none => hi.2
      | some hi' =>
        checkBounds hi.2 t sgn (x.reg ra.toNat) (BitVec.ofNat 64 lo') (BitVec.ofNat 64 hi') (BitVec.ofNat 64 d)

/-- CHKD (05 R145). -/
def execChkd (tid : Tid) (sgn : Bool) (ra rb : RegNo) (s : State) : Host.Outcome State Fault Refusal :=
  .next (issueI s tid (.chkd sgn ra rb) (fun s => runChkd s tid.toNat sgn ra rb []))

/-! ### Micro-routines (05 R150 to R153) -/

/-- How one step of a routine ends: go on, the routine completes, or the thread stops (a trap, or a load that holds it). -/
inductive LongEnd where
  | more | done | stop
deriving DecidableEq, Repr

/-- The operands of a routine. -/
structure LongArgs where
  op : LongOp
  esz : BitVec 2
  dir : Bool
  cond : Bool
  rd : RegNo
  ra : RegNo
  rb : RegNo
deriving DecidableEq, Repr

/-- The instruction of a routine. -/
def LongArgs.olx (g : LongArgs) : Olx := .long g.op g.esz g.dir g.cond g.rd g.ra g.rb

/-- Element bytes, and a pointer after its element. -/
def LongArgs.e (g : LongArgs) : Nat := 2 ^ g.esz.toNat
def LongArgs.step (g : LongArgs) (p : Dword) : Dword := if g.dir then p - BitVec.ofNat 64 g.e else p + BitVec.ofNat 64 g.e

/-- The pointers of a routine (05 Table 5.11), and the first that is not aligned to its element. -/
def LongArgs.pointers (g : LongArgs) : List RegNo :=
  match g.op with
  | .movb => [g.ra, g.rd]
  | .fill | .scanb => [g.rd]
  | .crcb | .hashb => [g.ra]
def LongArgs.misaligned (g : LongArgs) (x : Thread) : Option Nat :=
  (g.pointers.map (fun r => (x.reg r.toNat).toNat)).find? (fun a => a % g.e != 0)

/-- One step of a routine: one element, then the operand registers (05 R152, R153). -/
def longStep (s : State) (t : Nat) (g : LongArgs) (key : List Byte) (m : Multi) : LongEnd × State :=
  let x := threadOf s t
  let d := x.reg g.rd.toNat
  let a := x.reg g.ra.toNat
  let c := x.reg g.rb.toNat
  let less := fun (x : Thread) => x.put g.rb.toNat (c - 1)
  let store := fun (s : State) (v : Dword) (up : Thread → Thread) =>
    let r := accessWay s t d.toNat g.e .write
    match r.1 with
    | .error i => (LongEnd.stop, trap r.2 t i)
    | .ok w =>
      if ctlMisfit w d.toNat g.e true then (LongEnd.stop, trap (ctlRefuse r.2 (d.toNat - ctrlStart) g.e true) t (misalign d.toNat))
      else (LongEnd.more, storeDo (setThread r.2 t (less (up (threadOf r.2 t)))) t d.toNat g.e v w)
  match g.op with
  | .movb =>
    let l := loadOne s t a.toNat g.e m
    match l.1 with
    | none => (.stop, l.2)
    | some v => store l.2 (BitVec.ofNat 64 v) (fun x => (x.put g.rd.toNat (g.step d)).put g.ra.toNat (g.step a))
  | .fill => store s a (fun x => x.put g.rd.toNat (g.step d))
  | .scanb =>
    let l := loadOne s t d.toNat g.e m
    match l.1 with
    | none => (.stop, l.2)
    | some v =>
      if (decide (v = a.toNat % 2 ^ (8 * g.e))) != g.cond then (.done, l.2)
      else (.more, setThread l.2 t (less ((threadOf l.2 t).put g.rd.toNat (g.step d))))
  | .crcb =>
    let l := loadOne s t a.toNat 1 m
    match l.1 with
    | none => (.stop, l.2)
    | some v =>
      let crc := crcByte (d.toNat % 2 ^ 32) (BitVec.ofNat 8 v)
      (.more, setThread l.2 t (less (((threadOf l.2 t).put g.rd.toNat (BitVec.ofNat 64 crc)).put g.ra.toNat (a + 1))))
  | .hashb =>
    let kofs := fieldOf d.toNat 47 32
    if x.hkeyLen.toNat < kofs + 5 then
      (.stop, trap s t { cause := causeBounds, v0 := BitVec.ofNat 64 kofs, v1 := 0, v2 := x.hkeyLen - 4 })
    else
      let l := loadOne s t a.toNat 1 m
      match l.1 with
      | none => (.stop, l.2)
      | some v =>
        let h := toeplitzByte key kofs (BitVec.ofNat 8 v) (d.toNat % 2 ^ 32)
        let st := BitVec.ofNat 64 (h % 2 ^ 32 + (kofs + 1) % 2 ^ 16 * 2 ^ 32)
        (.more, setThread l.2 t (less (((threadOf l.2 t).put g.rd.toNat st).put g.ra.toNat (a + 1))))

/-- Up to a number of steps; between steps an interrupt that is due stops the routine (05 R150, 06 R184). `kept` answers serve every
step; an answer beyond them belongs to the step under way. -/
def longSteps (t : Nat) (g : LongArgs) (key : List Byte) (kept : Nat) : Nat → State → List Dword → State
  | 0, s, _ => if (threadOf s t).st = .ready ∧ (threadOf s t).reg g.rb.toNat = 0 then advance s t 4 else s
  | n + 1, s, got =>
    if (threadOf s t).st ≠ .ready then s
    else if (threadOf s t).reg g.rb.toNat = 0 then advance s t 4
    else if got.length ≤ kept && (takeable s t).isSome then s
    else
      let r := longStep s t g key ⟨g.olx, n + 1, got, kept⟩
      match r.1 with
      | .stop => r.2
      | .done => advance r.2 t 4
      | .more => longSteps t g key kept n r.2 (got.take kept)

/-- The key bytes of HASHB, each an ordinary load (05 R153). -/
def loadKey (t a : Nat) (g : LongArgs) (steps : Nat) (got : List Dword) : Nat → Nat → State → List Byte → Option (List Byte) × State
  | 0, _, s, key => (some key, s)
  | n + 1, k, s, key =>
    let l := loadOne s t (a + k) 1 ⟨g.olx, steps, got ++ (key.drop got.length).map (fun b => b.setWidth 64), k⟩
    match l.1 with
    | none => (none, l.2)
    | some v => loadKey t a g steps got n (k + 1) l.2 (key ++ [BitVec.ofNat 8 v])

/-- A routine from what it has loaded already. -/
def runLong (s : State) (t : Nat) (g : LongArgs) (steps : Nat) (got : List Dword) : State :=
  let x := threadOf s t
  if x.reg g.rb.toNat = 0 then advance s t 4
  else
    match g.misaligned x with
    | some a => trap s t (misalign a)
    | none =>
      if g.op = .hashb then
        let k := loadKey t (x.hkeyAddr.toNat % 2 ^ 52) g steps got x.hkeyLen.toNat 0 s []
        match k.1 with
        | none => k.2
        | some key =>
          longSteps t g key key.length steps k.2 (key.map (fun b => b.setWidth 64) ++ got.drop key.length)
      else longSteps t g [] 0 steps s got

/-- A routine as a row issues it: up to `steps` steps of it. -/
def issueLong (tid : Tid) (g : LongArgs) (steps : Nat) (s : State) : Host.Outcome State Fault Refusal :=
  .next (issueI s tid g.olx (fun s => runLong s tid.toNat g steps []))

/-- MOVB (05 R152). -/
def execMovb (tid : Tid) (esz : BitVec 2) (dir : Bool) (rd ra rb : RegNo) (steps : Nat) (s : State) : Host.Outcome State Fault Refusal :=
  issueLong tid ⟨.movb, esz, dir, false, rd, ra, rb⟩ steps s
/-- FILL (05 R152). -/
def execFill (tid : Tid) (esz : BitVec 2) (dir : Bool) (rd ra rb : RegNo) (steps : Nat) (s : State) : Host.Outcome State Fault Refusal :=
  issueLong tid ⟨.fill, esz, dir, false, rd, ra, rb⟩ steps s
/-- SCANB (05 R152). -/
def execScanb (tid : Tid) (esz : BitVec 2) (dir cond : Bool) (rd ra rb : RegNo) (steps : Nat) (s : State) : Host.Outcome State Fault Refusal :=
  issueLong tid ⟨.scanb, esz, dir, cond, rd, ra, rb⟩ steps s
/-- CRCB (05 R152). -/
def execCrcb (tid : Tid) (rd ra rb : RegNo) (steps : Nat) (s : State) : Host.Outcome State Fault Refusal :=
  issueLong tid ⟨.crcb, 0, false, false, rd, ra, rb⟩ steps s
/-- HASHB (05 R153). -/
def execHashb (tid : Tid) (rd ra rb : RegNo) (steps : Nat) (s : State) : Host.Outcome State Fault Refusal :=
  issueLong tid ⟨.hashb, 0, false, false, rd, ra, rb⟩ steps s

/-! ### How a held thread goes on (06 R159, R178) -/

/-- A held thread becomes ready at the next instruction, with its register written. -/
def release (s : State) (t : Nat) (b : Block) (v : Dword) : State :=
  setThread s t ((threadOf s t).released b.rd v b.npc)

/-- A held thread becomes ready at its own instruction. -/
def unhold (s : State) (t : Nat) : State := setThread s t { threadOf s t with st := .ready, block := none }

/-- Go on with an instruction that makes several accesses. -/
def resume (s : State) (t : Nat) (i : Olx) (steps : Nat) (got : List Dword) : State :=
  match i with
  | .chkd sgn ra rb => runChkd s t sgn ra rb got
  | .long op esz dir cond rd ra rb => runLong s t ⟨op, esz, dir, cond, rd, ra, rb⟩ steps got
  | _ => s

/-- A held access is answered with a value. -/
def answered (s : State) (t : Nat) (b : Block) (v : Dword) : State :=
  match b.cont with
  | some i => resume (unhold s t) t i b.steps (b.got ++ [v])
  | none => release s t b v

/-- A held access meets an uncorrectable error: no register is written; what an atomic leaves in its location is open (06 R178; log
118). -/
def heldMemErr (s : State) (t : Nat) (b : Block) : State :=
  let s := if b.kind = 3 then undefRange s b.addr b.size else s
  trap (unhold s t) t { cause := causeMemError, v0 := BitVec.ofNat 64 b.addr, v1 := (threadOf s t).pc, v2 := BitVec.ofNat 64 b.kind }

/-- Whether an uncorrectable error can meet a held access: of device memory, or of memory outside the device. -/
def canMemErr (b : Block) : Bool := decide (b.kind ≤ 3) && decide (classOf b.addr ≠ some .ctrl)

/-- What an answer does to a held thread. -/
def completeHeld (s : State) (t : Nat) (b : Block) (a : Answer) : State :=
  match a, b.val with
  | .data _, some v => answered s t b v
  | .data v, none =>
    let v := extendLoad b.size b.sgn v.toNat
    answered (dtrace s t b.kind b.size b.addr v) t b v
  | .failed st, none => if 1 ≤ st ∧ st ≤ 8 then trap (unhold s t) t (remoteFault b.addr st) else s
  | .failed _, some _ => s
  | .memErr, _ => if canMemErr b then heldMemErr s t b else s

/-- ACCESS_COMPLETION (06 R159). An access whose answer comes by a message takes that answer. A slab answers by SLAB_RESPONSE. -/
def execAccessCompletion (tid : Tid) (ans : Answer) (s : State) : Host.Outcome State Fault Refusal :=
  .next
    (let t := tid.toNat
     match (threadOf s t).block with
     | none => s
     | some b =>
       if b.slab.isSome then s
       else if b.fence then (if (threadOf s t).posted = [] then release s t b 0 else s)
       else
         match (if b.byMsg then b.ans else some ans) with
         | none => s
         | some a => completeHeld s t b a)

/-- NONBLOCKING_LOAD_RETURN (06 R159): the oldest load on its way to the register ends. -/
def execNonblockingLoadReturn (tid : Tid) (rd : RegNo) (memErr : Bool) (s : State) : Host.Outcome State Fault Refusal :=
  .next
    (let t := tid.toNat
     let x := threadOf s t
     match x.loads.find? (fun l => l.rd == rd.toNat) with
     | none => s
     | some l =>
       let x := { x with loads := x.loads.erase l }
       if memErr then setThread s t { x with badLoads := x.badLoads ++ [(l.rd, l.addr, l.pc)] }
       else setThread s t (x.put l.rd l.val))

/-- POSTED_STORE_FAILURE (06 R177). -/
def execPostedStoreFailure (tid : Tid) (addr : Nat) (status : Nat) (s : State) : Host.Outcome State Fault Refusal :=
  .next (if 1 ≤ status ∧ status ≤ 8 then postedFail s tid.toNat addr status else s)

end Sys2Proof.Machine
end

