-- ==== Sys2Proof/Machine/Coproc.lean ====
section
/-! DEFINITION. The open block (05 R154, R155): the Loft, crypto and Shingle coprocessors (12 Table 12.11, 14 Table 14.11, 13 Table
13.10) and the open fabric slabs (04 R122 to R125). -/

namespace Sys2Proof.Machine

/-! ### Fixed coprocessors -/

/-- The domain of a fixed coprocessor, if it has one (02 Table 2.1). -/
def copDomain (unit : BitVec 3) : Option Nat := if unit = 0 then some 73 else if unit = 2 then some 77 else none

/-- Issue a function of a fixed coprocessor: `f` gives its result, or the status of the CPFAULT it traps with. The thread is held until
it completes (05 R155); its result is taken at issue (log 117). -/
def issueCop (unit : BitVec 3) (func : BitVec 12) (tid : Tid) (ver : BitVec 4) (rd rb : RegNo) (f : State → Dword → Dword → Except Nat Dword × State)
    (s : State) : Host.Outcome State Fault Refusal :=
  let i : Olx := .cop unit ver rd rb func
  .next (issueI s tid i (fun s =>
    let t := tid.toNat
    if ver ≠ 1 then trap s t (cpAbsent 3 i)
    else
      let s := match copDomain unit with
        | some d => latchWake s d 7
        | none => s
      let x := threadOf s t
      let r := f s (x.reg rd.toNat) (x.reg rb.toNat)
      match r.1 with
      | .ok v => holdVal r.2 t rd.toNat v 4
      | .error st => trap r.2 t (cpFault st (word0 i))))

/-- A result, or status 2 where there is none. -/
def orTwo (v : Option Nat) : Except Nat Dword :=
  match v with
  | some v => .ok (BitVec.ofNat 64 v)
  | none => .error 2

/-- LEND (12 Table 12.11). -/
def execLend (tid : Tid) (ver : BitVec 4) (rd rb : RegNo) (s : State) : Host.Outcome State Fault Refusal :=
  issueCop 0 1 tid ver rd rb (fun s a b => (orTwo (chainEndOf s a.toNat (fieldOf b.toNat 15 0) (fieldOf b.toNat 23 16)), s)) s

/-- LTICKET (12 Table 12.11). -/
def execLticket (tid : Tid) (ver : BitVec 4) (rd rb : RegNo) (s : State) : Host.Outcome State Fault Refusal :=
  issueCop 0 2 tid ver rd rb (fun s _ _ => (.ok (getReg s .loftTicket 0), s)) s

/-- LRETIRED (12 Table 12.11). -/
def execLretired (tid : Tid) (ver : BitVec 4) (rd rb : RegNo) (s : State) : Host.Outcome State Fault Refusal :=
  issueCop 0 3 tid ver rd rb (fun s _ _ => (.ok (BitVec.ofNat 64 (loftRetired s)), s)) s

/-- LBUCKET (12 Table 12.11, R374). -/
def execLbucket (tid : Tid) (ver : BitVec 4) (rd rb : RegNo) (s : State) : Host.Outcome State Fault Refusal :=
  issueCop 0 4 tid ver rd rb (fun s a b => (orTwo ((biasSet s b.toNat).map (fun bs => bucketOf bs a.toInt)), s)) s

/-- LPOOL (12 Table 12.11). The level of a pool that does not exist is a free value (log 115). -/
def execLpool (tid : Tid) (ver : BitVec 4) (rd rb : RegNo) (s : State) : Host.Outcome State Fault Refusal :=
  issueCop 0 5 tid ver rd rb (fun s a _ =>
    if a.toNat < 64 then (.ok (BitVec.ofNat 64 (poolLevelNow s a.toNat)), s)
    else let d := drawDword s; (.ok d.1, d.2)) s

/-- Whether the thread's pane table grants a coprocessor a range of device memory or of a host window that can be reached (06 R168, 07
R204; other classes are refused: DESIGN CHOICE, log 119). -/
def copReach (s : State) (t a n : Nat) (k : AccKind) : Bool :=
  let b := (bayOfTid s t).getD 64
  let cls := match classOf a with
    | some c => c.isMem || c.isHost
    | none => false
  cls && (n == 0 || ((paneRange s b a n k).isNone &&
    (match translate s b a k with
     | .ok m => (reachStatus s a m.2).isNone
     | .error _ => false)))

/-- CRYPT on a control block that is well formed and reached. -/
def cryptFunction (s : State) (t : Nat) (cb : List Byte) (h : Nat) : Except Nat Dword × State :=
  match cryptKey s ((bayOfTid s t).getD 64) cb h with
  | .error _ => (.error 3, s)
  | .ok key =>
    let src := fetchBytes s (cbSrc cb) (cbLen cb)
    let tag := if cbOp cb = 2 then fetchBytes src.2 (cbTag cb) 16 else ([], src.2)
    match cryptDo cb key src.1 tag.1 with
    | none => (.error 4, undefRange (bump tag.2 Fld.secGcmFailCnt 0) (cbDst cb) (cbOut cb))
    | some r =>
      match cryptPut (fun s a bs => .ok (writeBytes (holdRange s 0 a bs.length) a bs)) tag.2 cb r with
      | .error _ => (.error 2, tag.2)
      | .ok s => (.ok (BitVec.ofNat 64 (cbOut cb)), s)

/-- CRYPT, the coprocessor's function (14 R428). -/
def execCryptFunction (tid : Tid) (ver : BitVec 4) (rd rb : RegNo) (s : State) : Host.Outcome State Fault Refusal :=
  issueCop 1 1 tid ver rd rb (fun s a h =>
    if !copReach s tid.toNat a.toNat 64 .read then (.error 2, s)
    else
      let cb := fetchBytes s a.toNat 64
      if cbOk cb.1 && decide (cbLen cb.1 ≤ 65536) && (cbRanges cb.1).all (fun r => copReach cb.2 tid.toNat r.1 r.2.1 r.2.2) then
        cryptFunction cb.2 tid.toNat cb.1 h.toNat
      else (.error 2, cb.2)) s

/-- RANDOM (14 Table 14.11): the generator's bits are a free value. -/
def execRandom (tid : Tid) (ver : BitVec 4) (rd rb : RegNo) (s : State) : Host.Outcome State Fault Refusal :=
  issueCop 1 2 tid ver rd rb (fun s _ _ => let d := drawDword s; (.ok d.1, d.2)) s

/-- KEYINFO (14 Table 14.11). -/
def keyInfo (s : State) (t h : Nat) : Nat :=
  match keyOfHandle s h with
  | some k => k.kind % 256 + (if keyPermits k ((bayOfTid s t).getD 64) then 256 else 0)
  | none => 0

/-- KEYINFO (14 Table 14.11). -/
def execKeyinfo (tid : Tid) (ver : BitVec 4) (rd rb : RegNo) (s : State) : Host.Outcome State Fault Refusal :=
  issueCop 1 3 tid ver rd rb (fun s a _ => (.ok (BitVec.ofNat 64 (keyInfo s tid.toNat a.toNat)), s)) s

/-- Bytes of a shingle. -/
def shingleBytes : Nat := 65536

/-- SHASH of a shingle that is aligned and reached: bytes 0 to 7 of its hash; bytes 8 to 15 are latched for the thread. -/
def shashAt (s : State) (t a : Nat) : Dword × State :=
  let bs := fetchBytes s a shingleBytes
  let h := shingleHash bs.1
  (BitVec.ofNat 64 (leAt h 0 8), setThread bs.2 t { threadOf bs.2 t with shashHi := BitVec.ofNat 64 (leAt h 8 8) })

/-- SHASH (13 R406, Table 13.10). -/
def execShash (tid : Tid) (ver : BitVec 4) (rd rb : RegNo) (s : State) : Host.Outcome State Fault Refusal :=
  issueCop 2 1 tid ver rd rb (fun s a _ =>
    if a.toNat % shingleBytes ≠ 0 ∨ copReach s tid.toNat a.toNat shingleBytes .read = false then (.error 2, s)
    else let r := shashAt s tid.toNat a.toNat; (.ok r.1, r.2)) s

/-- SHASH_HI (13 Table 13.10). -/
def execShashHi (tid : Tid) (ver : BitVec 4) (rd rb : RegNo) (s : State) : Host.Outcome State Fault Refusal :=
  issueCop 2 2 tid ver rd rb (fun s _ _ => (.ok (threadOf s tid.toNat).shashHi, s)) s

/-- SSTAT (13 Table 13.10). -/
def execSstat (tid : Tid) (ver : BitVec 4) (rd rb : RegNo) (s : State) : Host.Outcome State Fault Refusal :=
  issueCop 2 3 tid ver rd rb (fun s _ _ => (.ok (getReg s .ulStat 0), s)) s

/-! ### Open fabric slabs (04 R122 to R125) -/

/-- A slab. -/
def slabOf (s : State) (n : Nat) : Slab := Tab.get {} s.thatch.slabs n

/-- Why a slab instruction of a thread is not dispatched (04 R122). -/
def slabRefusal (s : State) (t n : Nat) (ver : BitVec 4) : Option Nat :=
  if bitN (envOf s ((bayOfTid s t).getD 64)).slabMask n = false then some 1
  else if (slabOf s n).inReset then some 2
  else if (slabOf s n).version ≠ ver.toNat then some 3
  else none

/-- The fabric time by which a slab's response is due: latency_max of its cycles from now, rounded up. -/
def slabDue (s : State) (n : Nat) : Nat :=
  s.ftime + ((slabOf s n).latencyMax * 1000 + (slabOf s n).clockMhz - 1) / (slabOf s n).clockMhz

/-- SLAB_INSTRUCTION (04 R122, R123, Table 4.14). -/
def execSlabInstruction (tid : Tid) (slab : BitVec 2) (ver : BitVec 4) (rd rb : RegNo) (func : BitVec 12) (s : State) :
    Host.Outcome State Fault Refusal :=
  let i : Olx := .cop (slab.setWidth 3 ||| (4 : BitVec 3)) ver rd rb func
  let n := slab.toNat
  .next (issueI s tid i (fun s =>
    let t := tid.toNat
    match slabRefusal s t n ver with
    | some why => trap s t (cpAbsent why i)
    | none =>
      let x := threadOf s t
      hold (emit s (.slabReq n t func.toNat (x.reg rd.toNat) (x.reg rb.toNat))) t
        { rd := rd.toNat, val := none, npc := nextPc x 4, kind := 4, slab := some (n, slabDue s n), word := i.encode.1 }))

/-- A held slab instruction ends with CPFAULT. -/
def slabFault (s : State) (t : Nat) (b : Block) (status : Nat) : State := trap (unhold s t) t (cpFault status (b.word.setWidth 64))

/-- A slab's response did not arrive in time (04 R123). -/
def slabLate (s : State) (t : Nat) (b : Block) : State := slabFault (bump s Fld.thatchSlabTimeoutCnt 0) t b 15

/-- The slab that a thread waits for, and the time its response is due. -/
def slabWait (s : State) (t : Nat) : Option (Block × Nat × Nat) :=
  match (threadOf s t).block with
  | some b => b.slab.map (fun w => (b, w.1, w.2))
  | none => none

/-- SLAB_RESPONSE (04 R123). One that no thread waits for is a late one, and is discarded. -/
def execSlabResponse (tid : Tid) (slab : BitVec 2) (result : Dword) (status : BitVec 4) (s : State) : Host.Outcome State Fault Refusal :=
  .next
    (match slabWait s tid.toNat with
     | none => s
     | some (b, n, due) =>
       if n ≠ slab.toNat then s
       else if due < s.ftime then slabLate s tid.toNat b
       else if status = 0 then release s tid.toNat b result
       else slabFault s tid.toNat b status.toNat)

/-- SLAB_TIMEOUT (04 R123). -/
def execSlabTimeout (tid : Tid) (s : State) : Host.Outcome State Fault Refusal :=
  .next
    (match slabWait s tid.toNat with
     | none => s
     | some (b, _, due) => slabLate (reach s due) tid.toNat b)

/-- Whether a slab's access goes through: device memory that its bay's pane tables grant (04 R124; DESIGN CHOICE, log 116). -/
def slabReach (s : State) (b a n : Nat) (k : AccKind) : Bool :=
  (match classOf a with
   | some c => c.isMem
   | none => false) && (paneRange s b a n k).isNone

/-- SLAB_MEMORY_ACCESS (04 R124): a read of as many bytes as `bytes` has, or a write of them. -/
def execSlabMemoryAccess (slab : BitVec 2) (addr : Dword) (write : Bool) (bytes : List Byte) (s : State) : Host.Outcome State Fault Refusal :=
  let n := slab.toNat
  let a := addr.toNat
  .next
    (match bayOfSlab s n with
     | none => s
     | some b =>
       if (slabOf s n).inReset ∨ bytes.length = 0 ∨ 64 < bytes.length then s
       else if slabReach s b a bytes.length (if write then .write else .read) then
         (if write then writeBytes s a bytes else emit s (.slabData n (readBytes s a bytes.length)))
       else
         let s := if write then s else emit s (.slabData n (List.replicate bytes.length 0xFF))
         raiseD (bump s Fld.thatchSlabMemFaultCnt 0) srcThatch { code := 0x0105, bay := b, aux8 := n, arg0 := a })

end Sys2Proof.Machine
end

