-- ==== Sys2Proof/Machine/Wire.lean ====
section
/-! DEFINITION. From the wire to the eave transport and to Truss (09 R244 to R248, R270; 10 R291 to R293, R311, R312): frames
received, eave transport packets among them, and frames sent from rings. -/

namespace Sys2Proof.Machine

/-! ### Eave transport packets in frames (10 R291 to R293, Tables 10.4 to 10.6) -/

/-- Where the eave header of a frame lies, and the addresses of its packet. -/
structure EaveAt where
  /-- offset of the IP header, and its version -/
  ip : Nat × Nat := (0, 4)
  /-- offset of the base header -/
  off : Nat := 0
  srcIp : Nat := 0
  dstIp : Nat := 0
deriving DecidableEq, Repr

/-- An IPv4 address in ::ffff:a.b.c.d form (10 Table 10.8). -/
def mappedIp (a : Nat) : Nat := 0xFFFF00000000 + a

/-- The eave transport packet that a frame carries (10 R291): at most one tag, IPv4 without options or IPv6 without extension headers,
UDP to XPT_CTL.udp_port. A fragment is no UDP datagram (DEDUCED, log 161). -/
def eaveAt (s : State) (f : List Byte) : Option EaveAt :=
  match ipAt f with
  | none => none
  | some (l3, v) =>
    let l4 := if v = 4 then l3 + 20 else l3 + 40
    let udp := if v = 4 then decide (beAt f l3 1 = 0x45 ∧ beAt f (l3 + 9) 1 = 17 ∧ beAt f (l3 + 6) 2 % 0x4000 = 0)
      else decide (beAt f l3 1 / 16 = 6 ∧ beAt f (l3 + 6) 1 = 17)
    if 18 < l3 ∨ udp = false ∨ f.length < l4 + 24 ∨ beAt f (l4 + 2) 2 ≠ getF s Fld.xptCtlUdpPort 0 then none
    else some (if v = 4 then { ip := (l3, 4), off := l4 + 8, srcIp := mappedIp (beAt f (l3 + 12) 4), dstIp := mappedIp (beAt f (l3 + 16) 4) }
      else { ip := (l3, 6), off := l4 + 8, srcIp := beAt f (l3 + 8) 16, dstIp := beAt f (l3 + 24) 16 })

/-- Bytes of the extension header of an opcode (10 Tables 10.5, 10.6). -/
def extBytes (op : Nat) : Nat :=
  match op with
  | 1 => 16
  | 2 | 4 => 24
  | 5 => 32
  | 6 => 12
  | 7 => 24
  | 8 | 9 => 4
  | _ => 0

/-- RH at an offset. -/
def rhAt (p : List Byte) (e : Nat) : RemHdr :=
  { rkind := beAt p e 1, rref := BitVec.ofNat 32 (beAt p (e + 4) 4), offset := BitVec.ofNat 64 (beAt p (e + 8) 8) }

/-- A packet past its base header: its opcode, the offset of its extension header, its payload. -/
def bodyAt (op : Nat) (p : List Byte) (e : Nat) (payload : List Byte) : PktBody :=
  let d (o : Nat) : Dword := BitVec.ofNat 64 (beAt p (e + o) 8)
  match op with
  | 0 => .send payload
  | 1 => .write (rhAt p e) payload
  | 2 => .readReq (rhAt p e) (beAt p (e + 16) 4)
  | 3 => .readResp payload
  | 4 => .fetchAdd (rhAt p e) (d 16)
  | 5 => .cmpSwap (rhAt p e) (d 16) (d 24)
  | 6 => .atomicResp (d 4)
  | 7 => .notify (BitVec.ofNat 16 (beAt p e 2)) (BitVec.ofNat 16 (beAt p (e + 2) 2)) (BitVec.ofNat 8 (beAt p (e + 4) 1)) (d 8) (BitVec.ofNat 32 (beAt p (e + 16) 4))
  | 8 => .ack
  | _ => .nak (beAt p e 1) (beAt p (e + 2) 2)

/-- The payload of a packet, and whether its tag verifies: opened under its connection's key where it is secured (10 R316, R317). -/
def openPayload (s : State) (c : Nat) (sec : Bool) (nonce : Nat) (hdr body tag : List Byte) : List Byte × Bool :=
  if !sec then (body, true)
  else
    match keyOfHandle s (connOf s c).key with
    | none => (body, false)
    | some k =>
      match gcmOpen (k.bytes.take 32) ((k.bytes.drop 32).take 4 ++ beBytes 8 nonce) hdr body tag with
      | some pt => (pt, true)
      | none => (body, false)

/-- The header and body of a packet of a frame that arrived at a port. -/
def eavePkt (s : State) (port : Nat) (f : List Byte) (w : EaveAt) : PktHdr × PktBody :=
  let p := f.drop w.off
  let op := beAt p 0 1 % 32
  let fl := beAt p 1 1
  let sec := bitN fl 4
  let e := if sec then 24 else 16
  let n := e + extBytes op
  let plen := beAt p 2 2
  let c := beAt p 4 4 % 2 ^ 20
  let nonce := if sec then beAt p 16 8 else 0
  let r := openPayload s c sec nonce (p.take n) ((p.drop n).take plen) ((p.drop (n + plen)).take 16)
  ({ conn := c, psn := beAt p 8 4 % 2 ^ 24, ackreq := bitN fl 7, first := bitN fl 6, last := bitN fl 5, ece := bitN fl 3, ce := ecnOf f w.ip == 3, sec := sec, tagOk := r.2, nonce := nonce, port := port, srcIp := w.srcIp, dstIp := w.dstIp },
    bodyAt op p e r.1)

/-- A frame that carries an eave transport packet reaches a bay vport (10 R291, R293). -/
def eaveFrame (s : State) (port : Nat) (f : List Byte) (w : EaveAt) : State :=
  let b := beAt f w.off 1
  if b / 32 ≠ 1 ∨ 9 < b % 32 then bump s Fld.xptBadOpCnt 0
  else
    let x := eavePkt s port f w
    if noConn s x.1 then bump s Fld.xptNoconnCnt 0 else eaveTake s x.1 x.2

/-! ### From the wire to Truss (09 R244 to R248; 10 R311, R312) -/

/-- A copy for an internal vport: taken by the eave transport (10 R291), bridged at once where its port is in mode 0, or waiting for its
pipeline (09 R247). -/
def copyIn (s : State) (port vport : Nat) (f : List Byte) : State :=
  let c : Copy := { frame := f, port := port, vport := vport }
  if 0x240 ≤ vport ∧ (eaveAt s f).isSome then eaveFrame s port f ((eaveAt s f).getD {})
  else if !copyParsed s port then rxDeliver s c (defaultRing s vport) 0 0 none
  else
    let n := s.truss.nextCopy
    let s := putCopy { s with truss := { s.truss with nextCopy := n + 1 } } n c
    let pipe := 65 + copyPipe s c
    pfcSettle (if 2 ≤ domState s pipe then latchWake s pipe 7 else ungate s pipe) port (framePrio f)

/-- The switch sends a frame to its ports; `q` is the priority it leaves with. -/
def switchFrame (s : State) (src q : Nat) (f : List Byte) : State :=
  (forwardTo s src f).foldl (fun s p => if isExternal p then frameOut s p q f else copyIn s src p f) s

/-- A frame's source address is held statically by another port (09 R274). -/
def spoofed (s : State) (port : Nat) (f : List Byte) : Bool :=
  match whereIs s (fdbKey (frameVlan f) (srcMac f)) with
  | some (p, st) => st && p != port
  | none => false

/-- FRAME_RECEIVED: the eave MAC's checks, PFC on ingress, learning and forwarding. -/
def execFrameReceived (port ts : Nat) (frame : List Byte) (fcsOk : Bool) (s : State) : Host.Outcome State Fault Refusal :=
  .next
    (let q := framePrio frame
     if !portUp s port then s
     else if !fcsOk ∨ frame.length + 4 < 64 ∨ 9216 < frame.length + 4 then bump (ungate s 76) Fld.swRxErrCnt port
     else if stormDrops s port q then bump (ungate s 76) Fld.xptStormDropCnt 0
     else if bufferDrops s port q frame.length then bump (ungate s 76) Fld.swRxDropCnt port
     else
       let s := ungate s 76
       let learns := flagF s Fld.swPortCfgLearn port
       if learns && spoofed s port frame then bump s Fld.swSpoofCnt 0
       else
         let s := if learns then learnAsk s ts port (fdbKey (frameVlan frame) (srcMac frame)) else s
         switchFrame s port q frame)

/-! ### Frames sent from rings (09 R246, R270) -/

/-- Whether a known unicast frame's port is an external sub-port that is down. -/
def portDown (s : State) (src : Nat) (f : List Byte) : Bool :=
  !isGroup (dstMac f) && (forwardTo s src f).any (fun p => isExternal p && !portUp s p)

/-- TX_DONE: the last byte is handed to the eave MAC (09 R246, R270; 08 Table 8.13). It waits while a priority it leaves by is
paused (10 R311). -/
def execTxDone (op : Nat) (host : List Byte) (failed : Nat) (s : State) : Host.Outcome State Fault Refusal :=
  .next
    (match running s op 0x0200 with
     | none => s
     | some o =>
       let a := leAt o.body 0 8
       if failed ≠ 0 then dataError s op failed
       else
         match rangeReach s o a (txLen o) .read with
         | some st => finishOp s op stHostError 0 st
         | none =>
           let f := txFrame o (sourceBytes s a (txLen o) host)
           let v := ringVport s o.qp
           if flagF s Fld.swVportCfgAntiSpoof v && srcMac f != vportMac s v then finishOp s op 0x43 0 0
           else if portDown s v f then finishOp s op 0x42 0 0
           else if (forwardTo s v f).any (fun p => isExternal p && egressPaused s p (txPrio o)) then s
           else
             let s := holdRange (putOp s op { o with st := .committed }) (opFn s o) a (txLen o)
             finishOk (switchFrame (ungate s 76) v (txPrio o) f) op f.length)

end Sys2Proof.Machine
end

