-- ==== Sys2Proof/Machine/Dispatch.lean ====
section
/-! DEFINITION. What each command does to everything but the queue: one arm per row of spec/opcode_table.json. -/

namespace Sys2Proof.Machine

/-- The effect of a command. -/
def exec (i : Instr) (s : State) : Host.Outcome State Fault Refusal :=
  match i with
  | .registerWrite req off size v => Sys2Proof.Machine.execRegisterWrite req off size v s
  | .misalignedControlAccess req off size write v => Sys2Proof.Machine.execMisalignedControlAccess req off size write v s
  | .powerOnResetExit => Sys2Proof.Machine.execPowerOnResetExit s
  | .powerLoss => Sys2Proof.Machine.execPowerLoss s
  | .crystalDetectionDone edges => Sys2Proof.Machine.execCrystalDetectionDone edges s
  | .crystalFail => Sys2Proof.Machine.execCrystalFail s
  | .resetNAssert => Sys2Proof.Machine.execResetNAssert s
  | .boardPgFall => Sys2Proof.Machine.execBoardPgFall s
  | .resetNRise => Sys2Proof.Machine.execResetNRise s
  | .dozeEntry d => Sys2Proof.Machine.execDozeEntry d s
  | .napDelayExpiry d => Sys2Proof.Machine.execNapDelayExpiry d s
  | .offEntryStart d => Sys2Proof.Machine.execOffEntryStart d s
  | .quiesceDone d => Sys2Proof.Machine.execQuiesceDone d s
  | .powerDownDone d => Sys2Proof.Machine.execPowerDownDone d s
  | .domainWakeDone d => Sys2Proof.Machine.execDomainWakeDone d s
  | .offReq req d v => Sys2Proof.Machine.execOffReq req d v s
  | .wakeReq req d v => Sys2Proof.Machine.execWakeReq req d v s
  | .roofSleepConditionsHeld => Sys2Proof.Machine.execRoofSleepConditionsHeld s
  | .roofPointOfNoReturn => Sys2Proof.Machine.execRoofPointOfNoReturn s
  | .roofSleepEntered => Sys2Proof.Machine.execRoofSleepEntered s
  | .roofWakeSource bit offDoms => Sys2Proof.Machine.execRoofWakeSource bit offDoms s
  | .roofTimerExpiry => Sys2Proof.Machine.execRoofTimerExpiry s
  | .roofExitDigestCheck ok => Sys2Proof.Machine.execRoofExitDigestCheck ok s
  | .roofExit => Sys2Proof.Machine.execRoofExit s
  | .bayReset req bay go => Sys2Proof.Machine.execBayReset req bay go s
  | .bayResetDone bay => Sys2Proof.Machine.execBayResetDone bay s
  | .bootSourceTimeout => Sys2Proof.Machine.execBootSourceTimeout s
  | .bootHeaderCheck hdr => Sys2Proof.Machine.execBootHeaderCheck hdr s
  | .bootImageReadDone image => Sys2Proof.Machine.execBootImageReadDone image s
  | .bootSignatureCheckDone bootSigsOk thatchSigsOk => Sys2Proof.Machine.execBootSignatureCheckDone bootSigsOk thatchSigsOk s
  | .backoffExpiry => Sys2Proof.Machine.execBackoffExpiry s
  | .networkBootTick => Sys2Proof.Machine.execNetworkBootTick s
  | .neighbourTurnTimeout => Sys2Proof.Machine.execNeighbourTurnTimeout s
  | .bootNow req => Sys2Proof.Machine.execBootNow req s
  | .tarpForceWrite req => Sys2Proof.Machine.execTarpForceWrite req s
  | .tarpEntryDone => Sys2Proof.Machine.execTarpEntryDone s
  | .assignQuery enIn others => Sys2Proof.Machine.execAssignQuery enIn others s
  | .assignSet enIn uid address => Sys2Proof.Machine.execAssignSet enIn uid address s
  | .ident address => Sys2Proof.Machine.execIdent address s
  | .status address => Sys2Proof.Machine.execStatus address s
  | .sensorRead address index => Sys2Proof.Machine.execSensorRead address index s
  | .mailboxWrite address flags bytes => Sys2Proof.Machine.execMailboxWrite address flags bytes s
  | .mailboxRead address => Sys2Proof.Machine.execMailboxRead address s
  | .accPower address n request => Sys2Proof.Machine.execAccPower address n request s
  | .accStatus address => Sys2Proof.Machine.execAccStatus address s
  | .wake address => Sys2Proof.Machine.execWake address s
  | .tarpForce address => Sys2Proof.Machine.execTarpForce address s
  | .resetWarm address c0 c1 => Sys2Proof.Machine.execResetWarm address c0 c1 s
  | .release address => Sys2Proof.Machine.execRelease address s
  | .chainBadFrame address why cmd isRead => Sys2Proof.Machine.execChainBadFrame address why cmd isRead s
  | .chainTimeout => Sys2Proof.Machine.execChainTimeout s
  | .chainReleaseWrite req v => Sys2Proof.Machine.execChainReleaseWrite req v s
  | .nodeIdWrite req v => Sys2Proof.Machine.execNodeIdWrite req v s
  | .consoleCharacter c stopHigh => Sys2Proof.Machine.execConsoleCharacter c stopHigh s
  | .consoleBreak => Sys2Proof.Machine.execConsoleBreak s
  | .conTxWrite req c => Sys2Proof.Machine.execConTxWrite req c s
  | .consoleTxCharacterSent => Sys2Proof.Machine.execConsoleTxCharacterSent s
  | .conRxRead req => Sys2Proof.Machine.execConRxRead req s
  | .sensorSample temps mv => Sys2Proof.Machine.execSensorSample temps mv s
  | .thermtrip => Sys2Proof.Machine.execThermtrip s
  | .thermThreshWrite req v => Sys2Proof.Machine.execThermThreshWrite req v s
  | .accOnRequest n => Sys2Proof.Machine.execAccOnRequest n s
  | .accOffRequest n => Sys2Proof.Machine.execAccOffRequest n s
  | .accResetPulse n => Sys2Proof.Machine.execAccResetPulse n s
  | .accPgRise n => Sys2Proof.Machine.execAccPgRise n s
  | .accRstDelayExpiry n => Sys2Proof.Machine.execAccRstDelayExpiry n s
  | .accOffDelayExpiry n => Sys2Proof.Machine.execAccOffDelayExpiry n s
  | .accPulseExpiry n => Sys2Proof.Machine.execAccPulseExpiry n s
  | .accPgTimeout n => Sys2Proof.Machine.execAccPgTimeout n s
  | .accPgLost n => Sys2Proof.Machine.execAccPgLost n s
  | .thatchReload req bay auto => Sys2Proof.Machine.execThatchReload req bay auto s
  | .thatchFetchDone readOk image => Sys2Proof.Machine.execThatchFetchDone readOk image s
  | .thatchSignaturesDone sigsOk => Sys2Proof.Machine.execThatchSignaturesDone sigsOk s
  | .thatchChecksDone => Sys2Proof.Machine.execThatchChecksDone s
  | .strikeLift => Sys2Proof.Machine.execStrikeLift s
  | .thatchQuiesce req bay go => Sys2Proof.Machine.execThatchQuiesce req bay go s
  | .drainLimitExpiry => Sys2Proof.Machine.execDrainLimitExpiry s
  | .holdLimitExpiry bay => Sys2Proof.Machine.execHoldLimitExpiry bay s
  | .thatchApplyStart => Sys2Proof.Machine.execThatchApplyStart s
  | .thatchApplyDone ok => Sys2Proof.Machine.execThatchApplyDone ok s
  | .thatchCommitOp req bay => Sys2Proof.Machine.execThatchCommitOp req bay s
  | .thatchCancel req bay => Sys2Proof.Machine.execThatchCancel req bay s
  | .thatchReapplyDone ok => Sys2Proof.Machine.execThatchReapplyDone ok s
  | .powerBudgetTick bay estimate => Sys2Proof.Machine.execPowerBudgetTick bay estimate s
  | .slabInstruction tid slab ver rd rb func => Sys2Proof.Machine.execSlabInstruction tid slab ver rd rb func s
  | .slabResponse tid slab result status => Sys2Proof.Machine.execSlabResponse tid slab result status s
  | .slabTimeout tid => Sys2Proof.Machine.execSlabTimeout tid s
  | .slabMemoryAccess slab addr write bytes => Sys2Proof.Machine.execSlabMemoryAccess slab addr write bytes s
  | .add tid w rd ra rb => Sys2Proof.Machine.execAdd tid w rd ra rb s
  | .sub tid w rd ra rb => Sys2Proof.Machine.execSub tid w rd ra rb s
  | .and tid w rd ra rb => Sys2Proof.Machine.execAnd tid w rd ra rb s
  | .or tid w rd ra rb => Sys2Proof.Machine.execOr tid w rd ra rb s
  | .xor tid w rd ra rb => Sys2Proof.Machine.execXor tid w rd ra rb s
  | .andn tid w rd ra rb => Sys2Proof.Machine.execAndn tid w rd ra rb s
  | .sll tid w rd ra rb => Sys2Proof.Machine.execSll tid w rd ra rb s
  | .srl tid w rd ra rb => Sys2Proof.Machine.execSrl tid w rd ra rb s
  | .sra tid w rd ra rb => Sys2Proof.Machine.execSra tid w rd ra rb s
  | .rotr tid w rd ra rb => Sys2Proof.Machine.execRotr tid w rd ra rb s
  | .slt tid w rd ra rb => Sys2Proof.Machine.execSlt tid w rd ra rb s
  | .sltu tid w rd ra rb => Sys2Proof.Machine.execSltu tid w rd ra rb s
  | .min tid w rd ra rb => Sys2Proof.Machine.execMin tid w rd ra rb s
  | .max tid w rd ra rb => Sys2Proof.Machine.execMax tid w rd ra rb s
  | .minu tid w rd ra rb => Sys2Proof.Machine.execMinu tid w rd ra rb s
  | .maxu tid w rd ra rb => Sys2Proof.Machine.execMaxu tid w rd ra rb s
  | .clz tid w rd ra => Sys2Proof.Machine.execClz tid w rd ra s
  | .ctz tid w rd ra => Sys2Proof.Machine.execCtz tid w rd ra s
  | .popc tid w rd ra => Sys2Proof.Machine.execPopc tid w rd ra s
  | .bswap tid w rd ra => Sys2Proof.Machine.execBswap tid w rd ra s
  | .sextb tid rd ra => Sys2Proof.Machine.execSextb tid rd ra s
  | .sexth tid rd ra => Sys2Proof.Machine.execSexth tid rd ra s
  | .sextw tid rd ra => Sys2Proof.Machine.execSextw tid rd ra s
  | .addi tid rd ra imm => Sys2Proof.Machine.execAddi tid rd ra imm s
  | .andi tid rd ra imm => Sys2Proof.Machine.execAndi tid rd ra imm s
  | .ori tid rd ra imm => Sys2Proof.Machine.execOri tid rd ra imm s
  | .xori tid rd ra imm => Sys2Proof.Machine.execXori tid rd ra imm s
  | .shi tid op w rd ra sh => Sys2Proof.Machine.execShi tid op w rd ra sh s
  | .slti tid rd ra imm => Sys2Proof.Machine.execSlti tid rd ra imm s
  | .sltiu tid rd ra imm => Sys2Proof.Machine.execSltiu tid rd ra imm s
  | .lui tid rd imm => Sys2Proof.Machine.execLui tid rd imm s
  | .mul tid w rd ra rb => Sys2Proof.Machine.execMul tid w rd ra rb s
  | .mulh tid w rd ra rb => Sys2Proof.Machine.execMulh tid w rd ra rb s
  | .mulhu tid w rd ra rb => Sys2Proof.Machine.execMulhu tid w rd ra rb s
  | .div tid w rd ra rb => Sys2Proof.Machine.execDiv tid w rd ra rb s
  | .divu tid w rd ra rb => Sys2Proof.Machine.execDivu tid w rd ra rb s
  | .rem tid w rd ra rb => Sys2Proof.Machine.execRem tid w rd ra rb s
  | .remu tid w rd ra rb => Sys2Proof.Machine.execRemu tid w rd ra rb s
  | .lb tid rd ra imm => Sys2Proof.Machine.execLb tid rd ra imm s
  | .lbu tid rd ra imm => Sys2Proof.Machine.execLbu tid rd ra imm s
  | .lh tid rd ra imm => Sys2Proof.Machine.execLh tid rd ra imm s
  | .lhu tid rd ra imm => Sys2Proof.Machine.execLhu tid rd ra imm s
  | .lw tid rd ra imm => Sys2Proof.Machine.execLw tid rd ra imm s
  | .lwu tid rd ra imm => Sys2Proof.Machine.execLwu tid rd ra imm s
  | .ld tid rd ra imm => Sys2Proof.Machine.execLd tid rd ra imm s
  | .sb tid rd ra imm => Sys2Proof.Machine.execSb tid rd ra imm s
  | .sh tid rd ra imm => Sys2Proof.Machine.execSh tid rd ra imm s
  | .sw tid rd ra imm => Sys2Proof.Machine.execSw tid rd ra imm s
  | .sd tid rd ra imm => Sys2Proof.Machine.execSd tid rd ra imm s
  | .amoswap tid dword aq rl rd ra rb => Sys2Proof.Machine.execAmoswap tid dword aq rl rd ra rb s
  | .amoadd tid dword aq rl rd ra rb => Sys2Proof.Machine.execAmoadd tid dword aq rl rd ra rb s
  | .amoand tid dword aq rl rd ra rb => Sys2Proof.Machine.execAmoand tid dword aq rl rd ra rb s
  | .amoor tid dword aq rl rd ra rb => Sys2Proof.Machine.execAmoor tid dword aq rl rd ra rb s
  | .amoxor tid dword aq rl rd ra rb => Sys2Proof.Machine.execAmoxor tid dword aq rl rd ra rb s
  | .amomin tid dword aq rl rd ra rb => Sys2Proof.Machine.execAmomin tid dword aq rl rd ra rb s
  | .amomax tid dword aq rl rd ra rb => Sys2Proof.Machine.execAmomax tid dword aq rl rd ra rb s
  | .amominu tid dword aq rl rd ra rb => Sys2Proof.Machine.execAmominu tid dword aq rl rd ra rb s
  | .amomaxu tid dword aq rl rd ra rb => Sys2Proof.Machine.execAmomaxu tid dword aq rl rd ra rb s
  | .cas tid dword aq rl rd ra rb => Sys2Proof.Machine.execCas tid dword aq rl rd ra rb s
  | .fenceAcq tid => Sys2Proof.Machine.execFenceAcq tid s
  | .fenceRel tid => Sys2Proof.Machine.execFenceRel tid s
  | .fenceFull tid => Sys2Proof.Machine.execFenceFull tid s
  | .fenceI tid => Sys2Proof.Machine.execFenceI tid s
  | .mfs tid rd n => Sys2Proof.Machine.execMfs tid rd n s
  | .mts tid ra n => Sys2Proof.Machine.execMts tid ra n s
  | .tctlStart tid ra => Sys2Proof.Machine.execTctlStart tid ra s
  | .tctlReset tid ra => Sys2Proof.Machine.execTctlReset tid ra s
  | .paneInv tid ra => Sys2Proof.Machine.execPaneInv tid ra s
  | .swtrap tid n => Sys2Proof.Machine.execSwtrap tid n s
  | .brk tid => Sys2Proof.Machine.execBrk tid s
  | .eret tid => Sys2Proof.Machine.execEret tid s
  | .fadd tid fmt rd ra rb => Sys2Proof.Machine.execFadd tid fmt rd ra rb s
  | .fsub tid fmt rd ra rb => Sys2Proof.Machine.execFsub tid fmt rd ra rb s
  | .fmul tid fmt rd ra rb => Sys2Proof.Machine.execFmul tid fmt rd ra rb s
  | .fmadd tid fmt rd ra rb => Sys2Proof.Machine.execFmadd tid fmt rd ra rb s
  | .fmin tid fmt rd ra rb => Sys2Proof.Machine.execFmin tid fmt rd ra rb s
  | .fmax tid fmt rd ra rb => Sys2Proof.Machine.execFmax tid fmt rd ra rb s
  | .fdiv tid rd ra rb => Sys2Proof.Machine.execFdiv tid rd ra rb s
  | .fsqrt tid rd ra => Sys2Proof.Machine.execFsqrt tid rd ra s
  | .feq tid fmt rd ra rb => Sys2Proof.Machine.execFeq tid fmt rd ra rb s
  | .flt tid fmt rd ra rb => Sys2Proof.Machine.execFlt tid fmt rd ra rb s
  | .fle tid fmt rd ra rb => Sys2Proof.Machine.execFle tid fmt rd ra rb s
  | .fabs tid fmt rd ra => Sys2Proof.Machine.execFabs tid fmt rd ra s
  | .fneg tid fmt rd ra => Sys2Proof.Machine.execFneg tid fmt rd ra s
  | .cvtN tid fmt kind sat src rd ra rb => Sys2Proof.Machine.execCvtN tid fmt kind sat src rd ra rb s
  | .cvtWl tid fmt kind sat src rd ra => Sys2Proof.Machine.execCvtWl tid fmt kind sat src rd ra s
  | .cvtWh tid fmt kind sat src rd ra => Sys2Proof.Machine.execCvtWh tid fmt kind sat src rd ra s
  | .f2i tid rd ra => Sys2Proof.Machine.execF2i tid rd ra s
  | .i2f tid rd ra => Sys2Proof.Machine.execI2f tid rd ra s
  | .beq tid ra rb off => Sys2Proof.Machine.execBeq tid ra rb off s
  | .bne tid ra rb off => Sys2Proof.Machine.execBne tid ra rb off s
  | .blt tid ra rb off => Sys2Proof.Machine.execBlt tid ra rb off s
  | .bge tid ra rb off => Sys2Proof.Machine.execBge tid ra rb off s
  | .bltu tid ra rb off => Sys2Proof.Machine.execBltu tid ra rb off s
  | .bgeu tid ra rb off => Sys2Proof.Machine.execBgeu tid ra rb off s
  | .jal tid off => Sys2Proof.Machine.execJal tid off s
  | .j tid off => Sys2Proof.Machine.execJ tid off s
  | .jalr tid rd ra imm => Sys2Proof.Machine.execJalr tid rd ra imm s
  | .djnz tid ra off => Sys2Proof.Machine.execDjnz tid ra off s
  | .djnzl tid ra off => Sys2Proof.Machine.execDjnzl tid ra off s
  | .blog tid op bd ba b2 => Sys2Proof.Machine.execBlog tid op bd ba b2 s
  | .setb tid cond bd ra rb => Sys2Proof.Machine.execSetb tid cond bd ra rb s
  | .bb tid sense bs off => Sys2Proof.Machine.execBb tid sense bs off s
  | .bset tid bs => Sys2Proof.Machine.execBset tid bs s
  | .bclr tid bs => Sys2Proof.Machine.execBclr tid bs s
  | .btog tid bs => Sys2Proof.Machine.execBtog tid bs s
  | .btas tid bs bp => Sys2Proof.Machine.execBtas tid bs bp s
  | .bmovt tid bs bp => Sys2Proof.Machine.execBmovt tid bs bp s
  | .bmovf tid bs bp => Sys2Proof.Machine.execBmovf tid bs bp s
  | .brd tid bs rg => Sys2Proof.Machine.execBrd tid bs rg s
  | .bwr tid bs rg => Sys2Proof.Machine.execBwr tid bs rg s
  | .wait tid all clr rd ra rb => Sys2Proof.Machine.execWait tid all clr rd ra rb s
  | .waitSatisfied tid => Sys2Proof.Machine.execWaitSatisfied tid s
  | .waitTimeout tid => Sys2Proof.Machine.execWaitTimeout tid s
  | .chk tid sgn rd ra rb => Sys2Proof.Machine.execChk tid sgn rd ra rb s
  | .chki tid ra imm => Sys2Proof.Machine.execChki tid ra imm s
  | .chkd tid sgn ra rb => Sys2Proof.Machine.execChkd tid sgn ra rb s
  | .movb tid esz dir rd ra rb steps => Sys2Proof.Machine.execMovb tid esz dir rd ra rb steps s
  | .fill tid esz dir rd ra rb steps => Sys2Proof.Machine.execFill tid esz dir rd ra rb steps s
  | .scanb tid esz dir cond rd ra rb steps => Sys2Proof.Machine.execScanb tid esz dir cond rd ra rb steps s
  | .crcb tid rd ra rb steps => Sys2Proof.Machine.execCrcb tid rd ra rb steps s
  | .hashb tid rd ra rb steps => Sys2Proof.Machine.execHashb tid rd ra rb steps s
  | .lix tid rd imm => Sys2Proof.Machine.execLix tid rd imm s
  | .luix tid rd imm => Sys2Proof.Machine.execLuix tid rd imm s
  | .addix tid rd ra imm => Sys2Proof.Machine.execAddix tid rd ra imm s
  | .andix tid rd ra imm => Sys2Proof.Machine.execAndix tid rd ra imm s
  | .orix tid rd ra imm => Sys2Proof.Machine.execOrix tid rd ra imm s
  | .xorix tid rd ra imm => Sys2Proof.Machine.execXorix tid rd ra imm s
  | .ldx tid rd ra imm => Sys2Proof.Machine.execLdx tid rd ra imm s
  | .lwx tid rd ra imm => Sys2Proof.Machine.execLwx tid rd ra imm s
  | .lwux tid rd ra imm => Sys2Proof.Machine.execLwux tid rd ra imm s
  | .sdx tid rd ra imm => Sys2Proof.Machine.execSdx tid rd ra imm s
  | .swx tid rd ra imm => Sys2Proof.Machine.execSwx tid rd ra imm s
  | .jalx tid rd imm => Sys2Proof.Machine.execJalx tid rd imm s
  | .illegalInstruction tid w0 w1 => Sys2Proof.Machine.execIllegalInstruction tid w0 w1 s
  | .noCoprocessorFitted tid ver rd rb func => Sys2Proof.Machine.execNoCoprocessorFitted tid ver rd rb func s
  | .lend tid ver rd rb => Sys2Proof.Machine.execLend tid ver rd rb s
  | .lticket tid ver rd rb => Sys2Proof.Machine.execLticket tid ver rd rb s
  | .lretired tid ver rd rb => Sys2Proof.Machine.execLretired tid ver rd rb s
  | .lbucket tid ver rd rb => Sys2Proof.Machine.execLbucket tid ver rd rb s
  | .lpool tid ver rd rb => Sys2Proof.Machine.execLpool tid ver rd rb s
  | .cryptFunction tid ver rd rb => Sys2Proof.Machine.execCryptFunction tid ver rd rb s
  | .random tid ver rd rb => Sys2Proof.Machine.execRandom tid ver rd rb s
  | .keyinfo tid ver rd rb => Sys2Proof.Machine.execKeyinfo tid ver rd rb s
  | .shash tid ver rd rb => Sys2Proof.Machine.execShash tid ver rd rb s
  | .shashHi tid ver rd rb => Sys2Proof.Machine.execShashHi tid ver rd rb s
  | .sstat tid ver rd rb => Sys2Proof.Machine.execSstat tid ver rd rb s
  | .accessCompletion tid ans => Sys2Proof.Machine.execAccessCompletion tid ans s
  | .nonblockingLoadReturn tid rd memErr => Sys2Proof.Machine.execNonblockingLoadReturn tid rd memErr s
  | .postedStoreFailure tid addr status => Sys2Proof.Machine.execPostedStoreFailure tid addr status s
  | .tdeadlineExpiry tid => Sys2Proof.Machine.execTdeadlineExpiry tid s
  | .interruptTaken tid => Sys2Proof.Machine.execInterruptTaken tid s
  | .epLinkUp ep speed width flit => Sys2Proof.Machine.execEpLinkUp ep speed width flit s
  | .epLinkDown ep => Sys2Proof.Machine.execEpLinkDown ep s
  | .linkHotReset ep => Sys2Proof.Machine.execLinkHotReset ep s
  | .perstAssert ep => Sys2Proof.Machine.execPerstAssert ep s
  | .perstDeassert ep sris => Sys2Proof.Machine.execPerstDeassert ep sris s
  | .flr ep fn => Sys2Proof.Machine.execFlr ep fn s
  | .vfEnableClear ep => Sys2Proof.Machine.execVfEnableClear ep s
  | .busMasterEnableClear ep fn => Sys2Proof.Machine.execBusMasterEnableClear ep fn s
  | .d3hotEntry ep fn => Sys2Proof.Machine.execD3hotEntry ep fn s
  | .d0Return ep fn => Sys2Proof.Machine.execD0Return ep fn s
  | .functionStopDone ep fn => Sys2Proof.Machine.execFunctionStopDone ep fn s
  | .flrDone ep fn => Sys2Proof.Machine.execFlrDone ep fn s
  | .configWrite ep fn off v be => Sys2Proof.Machine.execConfigWrite ep fn off v be s
  | .apertureAccess ep off len write bytes => Sys2Proof.Machine.execApertureAccess ep off len write bytes s
  | .vfDoorbellWrite ep vf off v => Sys2Proof.Machine.execVfDoorbellWrite ep vf off v s
  | .msixUnmask ep fn vec => Sys2Proof.Machine.execMsixUnmask ep fn vec s
  | .atsInvalidate ep fn addr size => Sys2Proof.Machine.execAtsInvalidate ep fn addr size s
  | .atsInvalidateCompletion ep => Sys2Proof.Machine.execAtsInvalidateCompletion ep s
  | .completionTimeout ep tid op => Sys2Proof.Machine.execCompletionTimeout ep tid op s
  | .pmeResend ep fn => Sys2Proof.Machine.execPmeResend ep fn s
  | .l0pWidthHalving ep => Sys2Proof.Machine.execL0pWidthHalving ep s
  | .l0pWidthRestore ep => Sys2Proof.Machine.execL0pWidthRestore ep s
  | .vfStorageWrite req ep v => Sys2Proof.Machine.execVfStorageWrite req ep v s
  | .mbxPing => Sys2Proof.Machine.execMbxPing s
  | .mbxStatus => Sys2Proof.Machine.execMbxStatus s
  | .bootBegin => Sys2Proof.Machine.execBootBegin s
  | .bootBlock => Sys2Proof.Machine.execBootBlock s
  | .bootEnd => Sys2Proof.Machine.execBootEnd s
  | .logRead => Sys2Proof.Machine.execLogRead s
  | .mbxTarpForce => Sys2Proof.Machine.execMbxTarpForce s
  | .mbxResetWarm => Sys2Proof.Machine.execMbxResetWarm s
  | .mbxAccPower => Sys2Proof.Machine.execMbxAccPower s
  | .barePortFrame etherType src msg => Sys2Proof.Machine.execBarePortFrame etherType src msg s
  | .rpLinkUp port type1 multiFn cls nss => Sys2Proof.Machine.execRpLinkUp port type1 multiFn cls nss s
  | .rpLinkDown port => Sys2Proof.Machine.execRpLinkDown port s
  | .ringEnable req evr n => Sys2Proof.Machine.execRingEnable req evr n s
  | .ringDisable req evr n => Sys2Proof.Machine.execRingDisable req evr n s
  | .ringStopDone evr n => Sys2Proof.Machine.execRingStopDone evr n s
  | .doorbellWrite req n v => Sys2Proof.Machine.execDoorbellWrite req n v s
  | .eventRingDoorbell req n v => Sys2Proof.Machine.execEventRingDoorbell req n v s
  | .descriptorFetch qp host data => Sys2Proof.Machine.execDescriptorFetch qp host data s
  | .nop qp opId flags => Sys2Proof.Machine.execNop qp opId flags s
  | .abort qp opId flags target => Sys2Proof.Machine.execAbort qp opId flags target s
  | .copy qp opId flags src dst len => Sys2Proof.Machine.execCopy qp opId flags src dst len s
  | .copyDone op host failed => Sys2Proof.Machine.execCopyDone op host failed s
  | .cqStallTimeout qp => Sys2Proof.Machine.execCqStallTimeout qp s
  | .notifyCoalesceTimeout kind n => Sys2Proof.Machine.execNotifyCoalesceTimeout kind n s
  | .partnerSync req v => Sys2Proof.Machine.execPartnerSync req v s
  | .partnerRecordFill index evict => Sys2Proof.Machine.execPartnerRecordFill index evict s
  | .admission op => Sys2Proof.Machine.execAdmission op s
  | .admissionWaitExpiry op => Sys2Proof.Machine.execAdmissionWaitExpiry op s
  | .sheddingStart pool => Sys2Proof.Machine.execSheddingStart pool s
  | .sheddingEnd pool => Sys2Proof.Machine.execSheddingEnd pool s
  | .frameReceived port ts frame fcsOk => Sys2Proof.Machine.execFrameReceived port ts frame fcsOk s
  | .trussParse copy => Sys2Proof.Machine.execTrussParse copy s
  | .reedDispatch copy => Sys2Proof.Machine.execReedDispatch copy s
  | .reedReturn copy => Sys2Proof.Machine.execReedReturn copy s
  | .reedTimeout copy => Sys2Proof.Machine.execReedTimeout copy s
  | .ruleAdd req table => Sys2Proof.Machine.execRuleAdd req table s
  | .ruleDelete req table => Sys2Proof.Machine.execRuleDelete req table s
  | .ruleModify req table => Sys2Proof.Machine.execRuleModify req table s
  | .ruleSetMiss req table => Sys2Proof.Machine.execRuleSetMiss req table s
  | .ruleCommitOp req => Sys2Proof.Machine.execRuleCommitOp req s
  | .ruleDiscard req => Sys2Proof.Machine.execRuleDiscard req s
  | .ruleCommitDeferred => Sys2Proof.Machine.execRuleCommitDeferred s
  | .tx qp opId flags addr len ctl tci l3 l4 => Sys2Proof.Machine.execTx qp opId flags addr len ctl tci l3 l4 s
  | .txDone op host failed => Sys2Proof.Machine.execTxDone op host failed s
  | .rxPost qp opId flags addr len hlen haddr => Sys2Proof.Machine.execRxPost qp opId flags addr len hlen haddr s
  | .learn => Sys2Proof.Machine.execLearn s
  | .entryAgeing vlan mac => Sys2Proof.Machine.execEntryAgeing vlan mac s
  | .fdbAddStatic req vlan => Sys2Proof.Machine.execFdbAddStatic req vlan s
  | .fdbDelete req vlan => Sys2Proof.Machine.execFdbDelete req vlan s
  | .fdbLookup req vlan => Sys2Proof.Machine.execFdbLookup req vlan s
  | .fdbClearFlap req vlan => Sys2Proof.Machine.execFdbClearFlap req vlan s
  | .fdbFlush req => Sys2Proof.Machine.execFdbFlush req s
  | .dormerOpen qp opId flags conn rights base size lifetimeUs => Sys2Proof.Machine.execDormerOpen qp opId flags conn rights base size lifetimeUs s
  | .dormerRevoke qp opId flags rref => Sys2Proof.Machine.execDormerRevoke qp opId flags rref s
  | .dormerRevokeDone op => Sys2Proof.Machine.execDormerRevokeDone op s
  | .dormerExpiry w => Sys2Proof.Machine.execDormerExpiry w s
  | .windowWrapHoldExpiry w => Sys2Proof.Machine.execWindowWrapHoldExpiry w s
  | .regionReg qp opId flags index rights base len conn => Sys2Proof.Machine.execRegionReg qp opId flags index rights base len conn s
  | .regionDereg qp opId flags key => Sys2Proof.Machine.execRegionDereg qp opId flags key s
  | .regionDeregDone op => Sys2Proof.Machine.execRegionDeregDone op s
  | .sendPacket h payload => Sys2Proof.Machine.execSendPacket h payload s
  | .writePacket h rh payload => Sys2Proof.Machine.execWritePacket h rh payload s
  | .readReqPacket h rh len => Sys2Proof.Machine.execReadReqPacket h rh len s
  | .readRespPacket h payload => Sys2Proof.Machine.execReadRespPacket h payload s
  | .fetchAddPacket h rh opnd1 => Sys2Proof.Machine.execFetchAddPacket h rh opnd1 s
  | .cmpSwapPacket h rh opnd1 opnd2 => Sys2Proof.Machine.execCmpSwapPacket h rh opnd1 opnd2 s
  | .atomicRespPacket h old => Sys2Proof.Machine.execAtomicRespPacket h old s
  | .windowNotifyPacket h window gen rights size1 cookie => Sys2Proof.Machine.execWindowNotifyPacket h window gen rights size1 cookie s
  | .ackPacket h => Sys2Proof.Machine.execAckPacket h s
  | .nakPacket h syndrome value => Sys2Proof.Machine.execNakPacket h syndrome value s
  | .badEavePacket h version opcode => Sys2Proof.Machine.execBadEavePacket h version opcode s
  | .retryTimeout conn => Sys2Proof.Machine.execRetryTimeout conn s
  | .rnrWaitExpiry conn => Sys2Proof.Machine.execRnrWaitExpiry conn s
  | .ackCoalesceTimeout conn => Sys2Proof.Machine.execAckCoalesceTimeout conn s
  | .contextFillDone conn ok => Sys2Proof.Machine.execContextFillDone conn ok s
  | .send qp opId flags conn len laddr => Sys2Proof.Machine.execSend qp opId flags conn len laddr s
  | .write qp opId flags conn rkind rref len roffset laddr => Sys2Proof.Machine.execWrite qp opId flags conn rkind rref len roffset laddr s
  | .read qp opId flags conn rkind rref len roffset laddr => Sys2Proof.Machine.execRead qp opId flags conn rkind rref len roffset laddr s
  | .fetchAdd qp opId flags conn rkind rref len roffset laddr opnd1 => Sys2Proof.Machine.execFetchAdd qp opId flags conn rkind rref len roffset laddr opnd1 s
  | .cmpSwap qp opId flags conn rkind rref len roffset laddr opnd1 opnd2 => Sys2Proof.Machine.execCmpSwap qp opId flags conn rkind rref len roffset laddr opnd1 opnd2 s
  | .windowNotify qp opId flags conn rref cookie => Sys2Proof.Machine.execWindowNotify qp opId flags conn rref cookie s
  | .recvPost qp opId flags conn addr len => Sys2Proof.Machine.execRecvPost qp opId flags conn addr len s
  | .connOpen qp opId flags conn params => Sys2Proof.Machine.execConnOpen qp opId flags conn params s
  | .connClose qp opId flags conn => Sys2Proof.Machine.execConnClose qp opId flags conn s
  | .connCloseDone conn => Sys2Proof.Machine.execConnCloseDone conn s
  | .connQuery qp opId flags conn => Sys2Proof.Machine.execConnQuery qp opId flags conn s
  | .pfcFrameReceived port enables quanta => Sys2Proof.Machine.execPfcFrameReceived port enables quanta s
  | .pfcRefresh port q => Sys2Proof.Machine.execPfcRefresh port q s
  | .pfcStormDetected port q own => Sys2Proof.Machine.execPfcStormDetected port q own s
  | .pfcStormRecovery port q own => Sys2Proof.Machine.execPfcStormRecovery port q own s
  | .rateIncreaseTimer conn => Sys2Proof.Machine.execRateIncreaseTimer conn s
  | .nawynLinkEnable req link v => Sys2Proof.Machine.execNawynLinkEnable req link v s
  | .nawynLinkDisable req link v => Sys2Proof.Machine.execNawynLinkDisable req link v s
  | .nawynDetectRetry link => Sys2Proof.Machine.execNawynDetectRetry link s
  | .nawynPeerDetected link => Sys2Proof.Machine.execNawynPeerDetected link s
  | .nawynAlignDone link lanes => Sys2Proof.Machine.execNawynAlignDone link lanes s
  | .nawynExchange link peer peerHalf credits schedId armAt ok => Sys2Proof.Machine.execNawynExchange link peer peerHalf credits schedId armAt ok s
  | .laneLockLoss link => Sys2Proof.Machine.execLaneLockLoss link s
  | .nawynRetrainDone link lanes ok => Sys2Proof.Machine.execNawynRetrainDone link lanes ok s
  | .nakFlit link h seq => Sys2Proof.Machine.execNakFlit link h seq s
  | .linkAckReceived link h => Sys2Proof.Machine.execLinkAckReceived link h s
  | .replayTimeout link => Sys2Proof.Machine.execReplayTimeout link s
  | .timeFlit link h tTx tRxPrev tTxPrev schedId armAt => Sys2Proof.Machine.execTimeFlit link h tTx tRxPrev tTxPrev schedId armAt s
  | .timeFlitTick link => Sys2Proof.Machine.execTimeFlitTick link s
  | .nawynSend m payload => Sys2Proof.Machine.execNawynSend m payload s
  | .nawynWrite m payload => Sys2Proof.Machine.execNawynWrite m payload s
  | .nawynReadReq m host failed => Sys2Proof.Machine.execNawynReadReq m host failed s
  | .nawynReadResp m payload => Sys2Proof.Machine.execNawynReadResp m payload s
  | .undelivered m dropped => Sys2Proof.Machine.execUndelivered m dropped s
  | .bootMessage m payload => Sys2Proof.Machine.execBootMessage m payload s
  | .packetMessage m payload => Sys2Proof.Machine.execPacketMessage m payload s
  | .nawynBadMtype m mtype payload => Sys2Proof.Machine.execNawynBadMtype m mtype payload s
  | .nsend qp opId flags node tc dstQp laddr len => Sys2Proof.Machine.execNsend qp opId flags node tc dstQp laddr len s
  | .nwrite qp opId flags node tc laddr len roffset => Sys2Proof.Machine.execNwrite qp opId flags node tc laddr len roffset s
  | .nread qp opId flags node tc laddr len roffset => Sys2Proof.Machine.execNread qp opId flags node tc laddr len roffset s
  | .nrecvPost qp opId flags addr len => Sys2Proof.Machine.execNrecvPost qp opId flags addr len s
  | .readTimeout tag => Sys2Proof.Machine.execReadTimeout tag s
  | .messageStart link tc host => Sys2Proof.Machine.execMessageStart link tc host s
  | .courseArm req link => Sys2Proof.Machine.execCourseArm req link s
  | .courseActivation link => Sys2Proof.Machine.execCourseActivation link s
  | .windowInstanceEnd link w k => Sys2Proof.Machine.execWindowInstanceEnd link w k s
  | .timeOfsWrite req v => Sys2Proof.Machine.execTimeOfsWrite req v s
  | .ptpTimestamp port tx msgType seqId => Sys2Proof.Machine.execPtpTimestamp port tx msgType seqId s
  | .ptpTimeRead req => Sys2Proof.Machine.execPtpTimeRead req s
  | .lateMaxRead req link => Sys2Proof.Machine.execLateMaxRead req link s
  | .loftAppend m payload => Sys2Proof.Machine.execLoftAppend m payload s
  | .lappend qp opId flags addr len host => Sys2Proof.Machine.execLappend qp opId flags addr len host s
  | .loftAppendDone op => Sys2Proof.Machine.execLoftAppendDone op s
  | .loftQuery m payload => Sys2Proof.Machine.execLoftQuery m payload s
  | .lquery qp opId flags addr len raddr rlen host => Sys2Proof.Machine.execLquery qp opId flags addr len raddr rlen host s
  | .loftQueryDone op memErr => Sys2Proof.Machine.execLoftQueryDone op memErr s
  | .lbiasLoad qp opId flags set addr len host => Sys2Proof.Machine.execLbiasLoad qp opId flags set addr len host s
  | .lbiasLoadDone op => Sys2Proof.Machine.execLbiasLoadDone op s
  | .loftAbort m => Sys2Proof.Machine.execLoftAbort m s
  | .loftPoolTailWrite req pool v => Sys2Proof.Machine.execLoftPoolTailWrite req pool v s
  | .ulCut qp opId flags cutId rangeCount plan readyTimeoutMs host => Sys2Proof.Machine.execUlCut qp opId flags cutId rangeCount plan readyTimeoutMs host s
  | .cutReady m => Sys2Proof.Machine.execCutReady m s
  | .groupCopyDone group => Sys2Proof.Machine.execGroupCopyDone group s
  | .cutReadyTimeout => Sys2Proof.Machine.execCutReadyTimeout s
  | .cutAbandonComplete => Sys2Proof.Machine.execCutAbandonComplete s
  | .ulDrain qp opId flags cutId targetCount manifestTarget dflags table manifestOffset capacity host => Sys2Proof.Machine.execUlDrain qp opId flags cutId targetCount manifestTarget dflags table manifestOffset capacity host s
  | .shingleHashed => Sys2Proof.Machine.execShingleHashed s
  | .shingleWriteAck index status => Sys2Proof.Machine.execShingleWriteAck index status s
  | .manifestBodyAck status => Sys2Proof.Machine.execManifestBodyAck status s
  | .manifestHeaderAck status => Sys2Proof.Machine.execManifestHeaderAck status s
  | .ulDrainTimeoutExpiry => Sys2Proof.Machine.execUlDrainTimeoutExpiry s
  | .ulRestore qp opId flags manifestCount targetCount mapCount manifests targets maps host => Sys2Proof.Machine.execUlRestore qp opId flags manifestCount targetCount mapCount manifests targets maps host s
  | .restoreShingleRead op data status => Sys2Proof.Machine.execRestoreShingleRead op data status s
  | .restoreWriteAck op => Sys2Proof.Machine.execRestoreWriteAck op s
  | .ulRelease qp opId flags cutId => Sys2Proof.Machine.execUlRelease qp opId flags cutId s
  | .ulBaseInv req v => Sys2Proof.Machine.execUlBaseInv req v s
  | .nvmeSqDoorbell c sq tail => Sys2Proof.Machine.execNvmeSqDoorbell c sq tail s
  | .createIoSubmissionQueue n => Sys2Proof.Machine.execCreateIoSubmissionQueue n s
  | .deleteIoSubmissionQueue n => Sys2Proof.Machine.execDeleteIoSubmissionQueue n s
  | .createIoCompletionQueue n => Sys2Proof.Machine.execCreateIoCompletionQueue n s
  | .deleteIoCompletionQueue n => Sys2Proof.Machine.execDeleteIoCompletionQueue n s
  | .getLogPage n => Sys2Proof.Machine.execGetLogPage n s
  | .identify n => Sys2Proof.Machine.execIdentify n s
  | .nvmeAbort n => Sys2Proof.Machine.execNvmeAbort n s
  | .setFeatures n => Sys2Proof.Machine.execSetFeatures n s
  | .getFeatures n => Sys2Proof.Machine.execGetFeatures n s
  | .asynchronousEventRequest n => Sys2Proof.Machine.execAsynchronousEventRequest n s
  | .nvmeFlush n => Sys2Proof.Machine.execNvmeFlush n s
  | .nvmeWrite n data => Sys2Proof.Machine.execNvmeWrite n data s
  | .nvmeRead n => Sys2Proof.Machine.execNvmeRead n s
  | .writeZeroes n => Sys2Proof.Machine.execWriteZeroes n s
  | .datasetManagement n ranges => Sys2Proof.Machine.execDatasetManagement n ranges s
  | .invalidCommandOpcode n opcode => Sys2Proof.Machine.execInvalidCommandOpcode n opcode s
  | .backendCompletion op sct sc dnr data => Sys2Proof.Machine.execBackendCompletion op sct sc dnr data s
  | .namespaceValidWrite req c k v => Sys2Proof.Machine.execNamespaceValidWrite req c k v s
  | .keyLoad qp opId flags kind bayMask addr host => Sys2Proof.Machine.execKeyLoad qp opId flags kind bayMask addr host s
  | .keyDestroy qp opId flags handle => Sys2Proof.Machine.execKeyDestroy qp opId flags handle s
  | .keyDestroyDone op => Sys2Proof.Machine.execKeyDestroyDone op s
  | .crypt qp opId flags addr handle host => Sys2Proof.Machine.execCrypt qp opId flags addr handle host s
  | .floorAdvance qp opId flags floor ecdsa mldsa => Sys2Proof.Machine.execFloorAdvance qp opId flags floor ecdsa mldsa s
  | .floorStepBlown => Sys2Proof.Machine.execFloorStepBlown s
  | .getVersion ep r => Sys2Proof.Machine.execGetVersion ep r s
  | .getCapabilities ep r => Sys2Proof.Machine.execGetCapabilities ep r s
  | .negotiateAlgorithms ep r => Sys2Proof.Machine.execNegotiateAlgorithms ep r s
  | .getDigests ep r => Sys2Proof.Machine.execGetDigests ep r s
  | .getCertificate ep r => Sys2Proof.Machine.execGetCertificate ep r s
  | .challenge ep r => Sys2Proof.Machine.execChallenge ep r s
  | .getMeasurements ep r => Sys2Proof.Machine.execGetMeasurements ep r s
  | .keyExchange ep r => Sys2Proof.Machine.execKeyExchange ep r s
  | .finish ep r => Sys2Proof.Machine.execFinish ep r s
  | .heartbeat ep r => Sys2Proof.Machine.execHeartbeat ep r s
  | .keyUpdate ep r => Sys2Proof.Machine.execKeyUpdate ep r s
  | .endSession ep r => Sys2Proof.Machine.execEndSession ep r s
  | .spdmUnsupportedRequest ep r code => Sys2Proof.Machine.execSpdmUnsupportedRequest ep r code s
  | .query ep session portIndex => Sys2Proof.Machine.execQuery ep session portIndex s
  | .keyProg ep session stream keySet rx sub key => Sys2Proof.Machine.execKeyProg ep session stream keySet rx sub key s
  | .kSetGo ep session stream keySet rx sub => Sys2Proof.Machine.execKSetGo ep session stream keySet rx sub s
  | .kSetStop ep session stream keySet rx sub => Sys2Proof.Machine.execKSetStop ep session stream keySet rx sub s
  | .ideCheckFailed ep stream => Sys2Proof.Machine.execIdeCheckFailed ep stream s
  | .channelEnable req c v => Sys2Proof.Machine.execChannelEnable req c v s
  | .channelDisable req c v => Sys2Proof.Machine.execChannelDisable req c v s
  | .channelStopDone c => Sys2Proof.Machine.execChannelStopDone c s
  | .tracePacketOffered source typ payload => Sys2Proof.Machine.execTracePacketOffered source typ payload s
  | .drainWriteDone c => Sys2Proof.Machine.execDrainWriteDone c s
  | .dheadWrite req c v => Sys2Proof.Machine.execDheadWrite req c v s
  | .drainStallTimeout c => Sys2Proof.Machine.execDrainStallTimeout c s
  | .drainWriteFault c status reason => Sys2Proof.Machine.execDrainWriteFault c status reason s
  | .gutMark req k v => Sys2Proof.Machine.execGutMark req k v s
  | .gsnap qp opId flags bank sflags first count dst => Sys2Proof.Machine.execGsnap qp opId flags bank sflags first count dst s
  | .gconn qp opId flags first count threshold dst dstLen cflags => Sys2Proof.Machine.execGconn qp opId flags first count threshold dst dstLen cflags s
  | .gflush qp opId flags channel t timeoutUs => Sys2Proof.Machine.execGflush qp opId flags channel t timeoutUs s
  | .gflushDone op => Sys2Proof.Machine.execGflushDone op s
  | .gflushTimeout op => Sys2Proof.Machine.execGflushTimeout op s
  | .pllLockTimeout d => Sys2Proof.Machine.execPllLockTimeout d s
  | .spiResetWaitExpiry => Sys2Proof.Machine.execSpiResetWaitExpiry s
  | .sfdpReadDone mode => Sys2Proof.Machine.execSfdpReadDone mode s
  | .boardPgRise => Sys2Proof.Machine.execBoardPgRise s
  | .bootReadError => Sys2Proof.Machine.execBootReadError s
  | .consoleBreakEnd => Sys2Proof.Machine.execConsoleBreakEnd s
  | .consoleLineHoldExpiry => Sys2Proof.Machine.execConsoleLineHoldExpiry s
  | .linkUp port => Sys2Proof.Machine.execLinkUp port s
  | .linkDown port => Sys2Proof.Machine.execLinkDown port s
  | .badFlit link how seq => Sys2Proof.Machine.execBadFlit link how seq s
  | .contextWriteBackFail conn => Sys2Proof.Machine.execContextWriteBackFail conn s
  | .clkreqNDeassert ep => Sys2Proof.Machine.execClkreqNDeassert ep s

end Sys2Proof.Machine
end

