-- ==== Sys2Proof/Safety.lean ====
section
/-! DEFINITION. What counts as a safe run of the block, and the terms in which claims speak of a thread's instruction. -/

namespace Sys2Proof

/-- A step that leaves a next state: no command stops the block (the spec gives it no stop). -/
def safeStep (s : Machine.State) : Prop := ∃ t, Machine.step s = .next t

namespace Machine

/-- An instruction of a thread issues and executes: the thread is ready in a rafter that runs, no interrupt is due, no load on its way
or returned with an error concerns it, its fetch is granted (06 R158, R159, R168, R178, R179), and the instruction follows the operand
rules of 05 R135. -/
def Issues (s : State) (tid : Tid) (i : Olx) : Prop :=
  (threadOf s tid.toNat).st = .ready ∧ domUp s (tidRafter tid.toNat) = true ∧ takeable s tid.toNat = none ∧
  badLoadFor (threadOf s tid.toNat) i.reads i.fences = none ∧ loadHolds (threadOf s tid.toNat) i.reads i.fences = false ∧
  (fetchFault s tid.toNat).1 = none ∧ i.wf = true

/-- The state once a thread's instruction has been fetched: its rafter may have cached the pane of its pc. -/
def afterFetch (s : State) (tid : Tid) : State := (fetchFault s tid.toNat).2

/-- Register `r` of a thread. -/
def regOf (s : State) (tid : Tid) (r : RegNo) : Dword := (threadOf s tid.toNat).reg r.toNat

/-- A 64-bit result, or with w set the sign-extended 32-bit result of bits 31:0 (05 R138). -/
def atWidth (w : Bool) (f : (n : Nat) → BitVec n → BitVec n → BitVec n) (a b : Dword) : Dword :=
  if w then (f 32 (a.setWidth 32) (b.setWidth 32)).signExtend 64 else f 64 a b

end Machine

end Sys2Proof
end

