-- ==== Sys2Proof/Certificates/Slice0/Obligations.lean ====
section
/-! DEFINITION. The statements for the provers. -/

open Sys2Proof Sys2Proof.Machine

/-- A step takes the command at the front of the queue and is exec of it on the state with the queue's rest. -/
def Obligations.StepRunsFront : Prop :=
  ∀ (c : Instr) (rest : List Instr) (s : State), step { s with pending := c :: rest } = exec c { s with pending := rest }

/-- Table 5.6 (05 R138): the next state of every ALU instruction that issues. -/
def Obligations.IntegerAluResults : Prop :=
  ∀ (s : State) (tid : Tid) (w : Bool) (rd ra rb : RegNo),
    let a := regOf s tid ra
    let b := regOf s tid rb
    let gives (v : Dword) : Host.Outcome State Fault Refusal := .next (retire (afterFetch s tid) tid.toNat rd.toNat v 4)
    (Issues s tid (.alu .add w rd ra rb) → exec (.add tid w rd ra rb) s = gives (atWidth w (fun _ x y => x + y) a b)) ∧
    (Issues s tid (.alu .sub w rd ra rb) → exec (.sub tid w rd ra rb) s = gives (atWidth w (fun _ x y => x - y) a b)) ∧
    (Issues s tid (.alu .and w rd ra rb) → exec (.and tid w rd ra rb) s = gives (atWidth w (fun _ x y => x &&& y) a b)) ∧
    (Issues s tid (.alu .or w rd ra rb) → exec (.or tid w rd ra rb) s = gives (atWidth w (fun _ x y => x ||| y) a b)) ∧
    (Issues s tid (.alu .xor w rd ra rb) → exec (.xor tid w rd ra rb) s = gives (atWidth w (fun _ x y => x ^^^ y) a b)) ∧
    (Issues s tid (.alu .andn w rd ra rb) → exec (.andn tid w rd ra rb) s = gives (atWidth w (fun _ x y => x &&& ~~~y) a b)) ∧
    (Issues s tid (.alu .sll w rd ra rb) → exec (.sll tid w rd ra rb) s = gives (atWidth w (fun n x y => x <<< (y.toNat % n)) a b)) ∧
    (Issues s tid (.alu .srl w rd ra rb) → exec (.srl tid w rd ra rb) s = gives (atWidth w (fun n x y => x >>> (y.toNat % n)) a b)) ∧
    (Issues s tid (.alu .sra w rd ra rb) → exec (.sra tid w rd ra rb) s = gives (atWidth w (fun n x y => x.sshiftRight (y.toNat % n)) a b)) ∧
    (Issues s tid (.alu .rotr w rd ra rb) → exec (.rotr tid w rd ra rb) s = gives (atWidth w (fun n x y => x.rotateRight (y.toNat % n)) a b)) ∧
    (Issues s tid (.alu .slt w rd ra rb) → exec (.slt tid w rd ra rb) s = gives (atWidth w (fun n x y => BitVec.ofNat n (if x.toInt < y.toInt then 1 else 0)) a b)) ∧
    (Issues s tid (.alu .sltu w rd ra rb) → exec (.sltu tid w rd ra rb) s = gives (atWidth w (fun n x y => BitVec.ofNat n (if x.toNat < y.toNat then 1 else 0)) a b)) ∧
    (Issues s tid (.alu .min w rd ra rb) → exec (.min tid w rd ra rb) s = gives (atWidth w (fun n x y => BitVec.ofInt n (Min.min x.toInt y.toInt)) a b)) ∧
    (Issues s tid (.alu .max w rd ra rb) → exec (.max tid w rd ra rb) s = gives (atWidth w (fun n x y => BitVec.ofInt n (Max.max x.toInt y.toInt)) a b)) ∧
    (Issues s tid (.alu .minu w rd ra rb) → exec (.minu tid w rd ra rb) s = gives (atWidth w (fun n x y => BitVec.ofNat n (Min.min x.toNat y.toNat)) a b)) ∧
    (Issues s tid (.alu .maxu w rd ra rb) → exec (.maxu tid w rd ra rb) s = gives (atWidth w (fun n x y => BitVec.ofNat n (Max.max x.toNat y.toNat)) a b)) ∧
    (Issues s tid (.alu .clz w rd ra 0) → exec (.clz tid w rd ra) s = gives (atWidth w (fun n x _ => BitVec.ofNat n ((List.range n).countP (fun i => decide (x.toNat < 2 ^ (n - 1 - i))))) a 0)) ∧
    (Issues s tid (.alu .ctz w rd ra 0) → exec (.ctz tid w rd ra) s = gives (atWidth w (fun n x _ => BitVec.ofNat n ((List.range n).countP (fun i => decide (x.toNat % 2 ^ (i + 1) = 0)))) a 0)) ∧
    (Issues s tid (.alu .popc w rd ra 0) → exec (.popc tid w rd ra) s = gives (atWidth w (fun n x _ => BitVec.ofNat n ((List.range n).countP (fun i => x.getLsbD i))) a 0)) ∧
    (Issues s tid (.alu .bswap w rd ra 0) → exec (.bswap tid w rd ra) s = gives (atWidth w (fun n x _ => BitVec.ofNat n (beNat (leBytes (n / 8) x.toNat))) a 0)) ∧
    (Issues s tid (.alu .sextb false rd ra 0) → exec (.sextb tid rd ra) s = gives ((a.setWidth 8).signExtend 64)) ∧
    (Issues s tid (.alu .sexth false rd ra 0) → exec (.sexth tid rd ra) s = gives ((a.setWidth 16).signExtend 64)) ∧
    (Issues s tid (.alu .sextw false rd ra 0) → exec (.sextw tid rd ra) s = gives ((a.setWidth 32).signExtend 64))

/-- The next state of every instruction with an immediate that issues (05 Tables 5.5, 5.13). -/
def Obligations.ImmediateResults : Prop :=
  ∀ (s : State) (tid : Tid) (w : Bool) (rd ra : RegNo) (imm : Half) (sh : BitVec 6) (imm42 : BitVec 42),
    let a := regOf s tid ra
    let gives (v : Dword) : Host.Outcome State Fault Refusal := .next (retire (afterFetch s tid) tid.toNat rd.toNat v 4)
    let gives8 (v : Dword) : Host.Outcome State Fault Refusal := .next (retire (afterFetch s tid) tid.toNat rd.toNat v 8)
    (Issues s tid (.imm .addi rd ra imm) → exec (.addi tid rd ra imm) s = gives (a + imm.signExtend 64)) ∧
    (Issues s tid (.imm .andi rd ra imm) → exec (.andi tid rd ra imm) s = gives (a &&& imm.setWidth 64)) ∧
    (Issues s tid (.imm .ori rd ra imm) → exec (.ori tid rd ra imm) s = gives (a ||| imm.setWidth 64)) ∧
    (Issues s tid (.imm .xori rd ra imm) → exec (.xori tid rd ra imm) s = gives (a ^^^ imm.setWidth 64)) ∧
    (Issues s tid (.imm .slti rd ra imm) → exec (.slti tid rd ra imm) s = gives (if a.toInt < imm.toInt then 1 else 0)) ∧
    (Issues s tid (.imm .sltiu rd ra imm) → exec (.sltiu tid rd ra imm) s = gives (if a.toNat < (imm.signExtend 64 : Dword).toNat then 1 else 0)) ∧
    (Issues s tid (.shi .sll w rd ra sh) → exec (.shi tid .sll w rd ra sh) s = gives (atWidth w (fun n x _ => x <<< (sh.toNat % n)) a 0)) ∧
    (Issues s tid (.shi .srl w rd ra sh) → exec (.shi tid .srl w rd ra sh) s = gives (atWidth w (fun n x _ => x >>> (sh.toNat % n)) a 0)) ∧
    (Issues s tid (.shi .sra w rd ra sh) → exec (.shi tid .sra w rd ra sh) s = gives (atWidth w (fun n x _ => x.sshiftRight (sh.toNat % n)) a 0)) ∧
    (Issues s tid (.shi .rotr w rd ra sh) → exec (.shi tid .rotr w rd ra sh) s = gives (atWidth w (fun n x _ => x.rotateRight (sh.toNat % n)) a 0)) ∧
    (Issues s tid (.lui rd imm) → exec (.lui tid rd imm) s = gives (BitVec.ofInt 64 (imm.toInt * 65536))) ∧
    (Issues s tid (.lix rd imm42) → exec (.lix tid rd imm42) s = gives8 (imm42.signExtend 64)) ∧
    (Issues s tid (.luix rd imm42) → exec (.luix tid rd imm42) s = gives8 (BitVec.ofNat 64 (imm42.toNat * 2 ^ 22))) ∧
    (Issues s tid (.ext .addix rd ra imm42) → exec (.addix tid rd ra imm42) s = gives8 (a + imm42.signExtend 64)) ∧
    (Issues s tid (.ext .andix rd ra imm42) → exec (.andix tid rd ra imm42) s = gives8 (a &&& imm42.setWidth 64)) ∧
    (Issues s tid (.ext .orix rd ra imm42) → exec (.orix tid rd ra imm42) s = gives8 (a ||| imm42.setWidth 64)) ∧
    (Issues s tid (.ext .xorix rd ra imm42) → exec (.xorix tid rd ra imm42) s = gives8 (a ^^^ imm42.setWidth 64))

/-- 05 R139, Table 5.7; 06 R159. -/
def Obligations.MultiplyDivideResults : Prop :=
  (∀ (s : State) (tid : Tid) (w : Bool) (rd ra rb : RegNo),
    let a := regOf s tid ra
    let b := regOf s tid rb
    let gives (v : Dword) : Host.Outcome State Fault Refusal := .next (retire (afterFetch s tid) tid.toNat rd.toNat v 4)
    let heldFor (c : Instr) (v : Dword) : Prop := ∃ t, exec c s = .next t ∧ (threadOf t tid.toNat).st = .blocked ∧
      ∀ x, exec (.accessCompletion tid (.data x)) t =
        .next (setThread (afterFetch s tid) tid.toNat ((threadOf s tid.toNat).released rd.toNat v (nextPc (threadOf s tid.toNat) 4)))
    (Issues s tid (.muldiv .mul w rd ra rb) → exec (.mul tid w rd ra rb) s = gives (atWidth w (fun _ x y => x * y) a b)) ∧
    (Issues s tid (.muldiv .mulh w rd ra rb) → exec (.mulh tid w rd ra rb) s = gives (atWidth w (fun n x y => BitVec.ofInt n (x.toInt * y.toInt / 2 ^ n)) a b)) ∧
    (Issues s tid (.muldiv .mulhu w rd ra rb) → exec (.mulhu tid w rd ra rb) s = gives (atWidth w (fun n x y => BitVec.ofNat n (x.toNat * y.toNat / 2 ^ n)) a b)) ∧
    (Issues s tid (.muldiv .div w rd ra rb) → heldFor (.div tid w rd ra rb) (atWidth w (fun n x y => if y = 0 then BitVec.allOnes n else BitVec.ofInt n (Int.tdiv x.toInt y.toInt)) a b)) ∧
    (Issues s tid (.muldiv .divu w rd ra rb) → heldFor (.divu tid w rd ra rb) (atWidth w (fun n x y => if y = 0 then BitVec.allOnes n else BitVec.ofNat n (x.toNat / y.toNat)) a b)) ∧
    (Issues s tid (.muldiv .rem w rd ra rb) → heldFor (.rem tid w rd ra rb) (atWidth w (fun n x y => if y = 0 then x else BitVec.ofInt n (Int.tmod x.toInt y.toInt)) a b)) ∧
    (Issues s tid (.muldiv .remu w rd ra rb) → heldFor (.remu tid w rd ra rb) (atWidth w (fun n x y => if y = 0 then x else BitVec.ofNat n (x.toNat % y.toNat)) a b))) ∧
  (∀ n : Nat, 0 < n → BitVec.ofInt n (Int.tdiv (BitVec.intMin n).toInt (-1)) = BitVec.intMin n ∧ Int.tmod (BitVec.intMin n).toInt (-1) = 0)

/-- 05 R149, Table 5.12: lanes and flags are those of fpVal; the flags are sticky (R129). -/
def Obligations.FloatResults : Prop :=
  ∀ (s : State) (tid : Tid) (fmt : BitVec 3) (kind sat src : Bool) (rd ra rb : RegNo),
    let d := regOf s tid rd
    let a := regOf s tid ra
    let b := regOf s tid rb
    let x := threadOf s tid.toNat
    let joined (flags : Nat) : State := setThread (afterFetch s tid) tid.toNat { x with fstat := x.fstat ||| flags }
    let gives (r : Dword × Nat) : Host.Outcome State Fault Refusal :=
      .next (retire (joined r.2) tid.toNat rd.toNat r.1 4)
    let heldFor (c : Instr) (r : Dword × Nat) : Prop := ∃ t, exec c s = .next t ∧ (threadOf t tid.toNat).st = .blocked ∧
      ∀ v, exec (.accessCompletion tid (.data v)) t =
        .next (setThread (joined r.2) tid.toNat ((threadOf (joined r.2) tid.toNat).released rd.toNat r.1 (nextPc x 4)))
    (Issues s tid (.fp .add fmt false false false rd ra rb) → exec (.fadd tid fmt rd ra rb) s = gives (fpVal .add (fmt : BitVec 3).toNat false false false d a b)) ∧
    (Issues s tid (.fp .sub fmt false false false rd ra rb) → exec (.fsub tid fmt rd ra rb) s = gives (fpVal .sub (fmt : BitVec 3).toNat false false false d a b)) ∧
    (Issues s tid (.fp .mul fmt false false false rd ra rb) → exec (.fmul tid fmt rd ra rb) s = gives (fpVal .mul (fmt : BitVec 3).toNat false false false d a b)) ∧
    (Issues s tid (.fp .madd fmt false false false rd ra rb) → exec (.fmadd tid fmt rd ra rb) s = gives (fpVal .madd (fmt : BitVec 3).toNat false false false d a b)) ∧
    (Issues s tid (.fp .min fmt false false false rd ra rb) → exec (.fmin tid fmt rd ra rb) s = gives (fpVal .min (fmt : BitVec 3).toNat false false false d a b)) ∧
    (Issues s tid (.fp .max fmt false false false rd ra rb) → exec (.fmax tid fmt rd ra rb) s = gives (fpVal .max (fmt : BitVec 3).toNat false false false d a b)) ∧
    (Issues s tid (.fp .eq fmt false false false rd ra rb) → exec (.feq tid fmt rd ra rb) s = gives (fpVal .eq (fmt : BitVec 3).toNat false false false d a b)) ∧
    (Issues s tid (.fp .lt fmt false false false rd ra rb) → exec (.flt tid fmt rd ra rb) s = gives (fpVal .lt (fmt : BitVec 3).toNat false false false d a b)) ∧
    (Issues s tid (.fp .le fmt false false false rd ra rb) → exec (.fle tid fmt rd ra rb) s = gives (fpVal .le (fmt : BitVec 3).toNat false false false d a b)) ∧
    (Issues s tid (.fp .abs fmt false false false rd ra 0) → exec (.fabs tid fmt rd ra) s = gives (fpVal .abs (fmt : BitVec 3).toNat false false false d a 0)) ∧
    (Issues s tid (.fp .neg fmt false false false rd ra 0) → exec (.fneg tid fmt rd ra) s = gives (fpVal .neg (fmt : BitVec 3).toNat false false false d a 0)) ∧
    (Issues s tid (.fp .cvtN fmt kind sat src rd ra rb) → exec (.cvtN tid fmt kind sat src rd ra rb) s = gives (fpVal .cvtN (fmt : BitVec 3).toNat kind sat src d a b)) ∧
    (Issues s tid (.fp .cvtWl fmt kind sat src rd ra 0) → exec (.cvtWl tid fmt kind sat src rd ra) s = gives (fpVal .cvtWl (fmt : BitVec 3).toNat kind sat src d a 0)) ∧
    (Issues s tid (.fp .cvtWh fmt kind sat src rd ra 0) → exec (.cvtWh tid fmt kind sat src rd ra) s = gives (fpVal .cvtWh (fmt : BitVec 3).toNat kind sat src d a 0)) ∧
    (Issues s tid (.fp .f2i 0 false false false rd ra 0) → exec (.f2i tid rd ra) s = gives (fpVal .f2i (0 : BitVec 3).toNat false false false d a 0)) ∧
    (Issues s tid (.fp .i2f 0 false false false rd ra 0) → exec (.i2f tid rd ra) s = gives (fpVal .i2f (0 : BitVec 3).toNat false false false d a 0)) ∧
    (Issues s tid (.fp .div 0 false false false rd ra rb) → heldFor (.fdiv tid rd ra rb) (fpVal .div 0 false false false d a b)) ∧
    (Issues s tid (.fp .sqrt 0 false false false rd ra 0) → heldFor (.fsqrt tid rd ra) (fpVal .sqrt 0 false false false d a 0))

/-- 05 R142 to R144, Table 5.13. -/
def Obligations.ControlFlowTargets : Prop :=
  ∀ (s : State) (tid : Tid) (rd ra rb : RegNo) (off : Half) (off20 : BitVec 20) (off26 : BitVec 26) (imm42 : BitVec 42),
    let a := regOf s tid ra
    let b := regOf s tid rb
    let t := tid.toNat
    let f := afterFetch s tid
    let x := threadOf s tid.toNat
    (Issues s tid (.br .beq ra rb off) → exec (.beq tid ra rb off) s = .next (if a = b then jump f t (x.pc + 4 * off.signExtend 64) else advance f t 4)) ∧
    (Issues s tid (.br .bne ra rb off) → exec (.bne tid ra rb off) s = .next (if a ≠ b then jump f t (x.pc + 4 * off.signExtend 64) else advance f t 4)) ∧
    (Issues s tid (.br .blt ra rb off) → exec (.blt tid ra rb off) s = .next (if a.toInt < b.toInt then jump f t (x.pc + 4 * off.signExtend 64) else advance f t 4)) ∧
    (Issues s tid (.br .bge ra rb off) → exec (.bge tid ra rb off) s = .next (if b.toInt ≤ a.toInt then jump f t (x.pc + 4 * off.signExtend 64) else advance f t 4)) ∧
    (Issues s tid (.br .bltu ra rb off) → exec (.bltu tid ra rb off) s = .next (if a.toNat < b.toNat then jump f t (x.pc + 4 * off.signExtend 64) else advance f t 4)) ∧
    (Issues s tid (.br .bgeu ra rb off) → exec (.bgeu tid ra rb off) s = .next (if b.toNat ≤ a.toNat then jump f t (x.pc + 4 * off.signExtend 64) else advance f t 4)) ∧
    (Issues s tid (.jal off26) → exec (.jal tid off26) s = .next (jump (setThread f t (x.write 31 (x.pc + 4))) t (x.pc + 4 * off26.signExtend 64))) ∧
    (Issues s tid (.j off26) → exec (.j tid off26) s = .next (jump f t (x.pc + 4 * off26.signExtend 64))) ∧
    (Issues s tid (.jalr rd ra off) → (a + off.signExtend 64).toNat % 4 = 0 → exec (.jalr tid rd ra off) s = .next (jump (setThread f t (x.write rd.toNat (x.pc + 4))) t (a + off.signExtend 64))) ∧
    (Issues s tid (.jalr rd ra off) → (a + off.signExtend 64).toNat % 4 ≠ 0 → exec (.jalr tid rd ra off) s = .next (trap f t { cause := 2, v0 := a + off.signExtend 64 })) ∧
    (Issues s tid (.jalx rd imm42) → exec (.jalx tid rd imm42) s = .next (jump (setThread f t (x.write rd.toNat (x.pc + 8))) t (x.pc + 4 * imm42.signExtend 64))) ∧
    (Issues s tid (.djnz ra off) → exec (.djnz tid ra off) s = .next (let g := setThread f t (x.write ra.toNat (a - 1)); if a = 1 then advance g t 4 else jump g t (x.pc + 4 * off.signExtend 64))) ∧
    (Issues s tid (.djnzl ra off20) → exec (.djnzl tid ra off20) s = .next (let g := setThread f t (x.write ra.toNat (a - 1)); if a = 1 then advance g t 4 else jump g t (x.pc + 4 * off20.signExtend 64)))

/-- 05 R131 to R134, R146, R147. -/
def Obligations.BitInstructions : Prop :=
  ∀ (s : State) (tid : Tid) (bs : BitVec 9) (bp bd ba b2 : Byte) (rg ra rb : RegNo) (op : BlogOp) (cond : SetCond) (sense : Bool) (off : Half) (n : Nat),
    let t := tid.toNat
    let f := afterFetch s tid
    let x := threadOf s tid.toNat
    let old := bitValue f t n
    let names (i : Olx) (u : BitUse) : Prop := Issues s tid i ∧ bitOfSpec x bs = .ok n ∧ bitAllowed f t n u = true
    let writes (v : Bool) : Host.Outcome State Fault Refusal := .next (advance (writeBit f t n v) t 4)
    (names (.bitop .set bs 0 0) .change → exec (.bset tid bs) s = writes true) ∧
    (names (.bitop .clr bs 0 0) .clear → exec (.bclr tid bs) s = writes false) ∧
    (names (.bitop .tog bs 0 0) .change → exec (.btog tid bs) s = writes (!old)) ∧
    (names (.bitop .tas bs bp 0) .change → exec (.btas tid bs bp) s = .next (advance (writeBit (writeBit f t bp.toNat old) t n true) t 4)) ∧
    (names (.bitop .movt bs bp 0) (.put (x.priv.getLsbD bp.toNat)) → exec (.bmovt tid bs bp) s = writes (x.priv.getLsbD bp.toNat)) ∧
    (names (.bitop .movf bs bp 0) .read → exec (.bmovf tid bs bp) s = .next (advance (writeBit f t bp.toNat old) t 4)) ∧
    (names (.bitop .rd bs 0 rg) .read → exec (.brd tid bs rg) s = .next (retire f t rg.toNat (if old then 1 else 0) 4)) ∧
    (names (.bitop .wr bs 0 rg) (.put ((x.reg rg.toNat).getLsbD 0)) → exec (.bwr tid bs rg) s = writes ((x.reg rg.toNat).getLsbD 0)) ∧
    (names (.bb sense bs off) .read → exec (.bb tid sense bs off) s = .next (if old = sense then jump f t (target x off) else advance f t 4)) ∧
    (Issues s tid (.blog op bd ba b2) → exec (.blog tid op bd ba b2) s =
      .next (advance (writeBit f t bd.toNat
        (match op with
         | .and => x.priv.getLsbD ba.toNat && x.priv.getLsbD b2.toNat
         | .or => x.priv.getLsbD ba.toNat || x.priv.getLsbD b2.toNat
         | .xor => x.priv.getLsbD ba.toNat ^^ x.priv.getLsbD b2.toNat
         | .andn => x.priv.getLsbD ba.toNat && !x.priv.getLsbD b2.toNat)) t 4)) ∧
    (Issues s tid (.setb cond bd ra rb) → exec (.setb tid cond bd ra rb) s =
      .next (advance (writeBit f t bd.toNat
        (match cond with
         | .eq => decide (x.reg ra.toNat = x.reg rb.toNat)
         | .ne => decide (x.reg ra.toNat ≠ x.reg rb.toNat)
         | .lt => decide ((x.reg ra.toNat).toInt < (x.reg rb.toNat).toInt)
         | .ge => decide ((x.reg rb.toNat).toInt ≤ (x.reg ra.toNat).toInt)
         | .ltu => decide ((x.reg ra.toNat).toNat < (x.reg rb.toNat).toNat)
         | .geu => decide ((x.reg rb.toNat).toNat ≤ (x.reg ra.toNat).toNat)
         | .tst => decide (x.reg ra.toNat &&& x.reg rb.toNat ≠ 0)
         | .tstz => decide (x.reg ra.toNat &&& x.reg rb.toNat = 0))) t 4)) ∧
    (∀ v, Issues s tid (.bitop .set bs 0 0) → bitOfSpec x bs = .error v → exec (.bset tid bs) s = .next (trap f t (bitFault v (.bitop .set bs 0 0)))) ∧
    (Issues s tid (.bitop .set bs 0 0) → bitOfSpec x bs = .ok n → bitAllowed f t n .change = false →
      exec (.bset tid bs) s = .next (trap f t (bitFault (BitVec.ofNat 64 n) (.bitop .set bs 0 0))))

/-- The bit address space (05 Table 5.2): reads after writes. -/
def Obligations.BitReadBack : Prop :=
  ∀ (s : State) (t n m : Nat) (v : Bool),
    (n < 0x100 ∨ (0x10000 ≤ n ∧ n < 0x20000) → bitValue (writeBit s t n v) t n = v) ∧
    (n < 0x100 ∨ (0x10000 ≤ n ∧ n < 0x20000) → m ≠ n → m < 0x100 ∨ (0x10000 ≤ m ∧ m < 0x20000) →
      bitValue (writeBit s t n v) t m = bitValue s t m) ∧
    (n < 0x100 ∨ (0x10000 ≤ n ∧ n < 0x20000) →
      (writeBit s t n v).mem = s.mem ∧ (writeBit s t n v).regs = s.regs ∧ ∀ u r, (threadOf (writeBit s t n v) u).reg r = (threadOf s u).reg r) ∧
    ((0x800000 ≤ n ∧ n < 0x801000) ∨ (0x810000 ≤ n ∧ n < 0x820000) → bitValue (writeGlobal s n v) t n = v)

/-- 05 R145. -/
def Obligations.BoundsChecks : Prop :=
  ∀ (s : State) (tid : Tid) (sgn : Bool) (rd ra rb : RegNo) (imm : BitVec 21),
    let f := afterFetch s tid
    let t := tid.toNat
    let v := regOf s tid ra
    let inside (sgn : Bool) (lo hi : Dword) : Prop := if sgn then lo.toInt ≤ v.toInt ∧ v.toInt < hi.toInt else lo.toNat ≤ v.toNat ∧ v.toNat < hi.toNat
    let info (lo hi d : Dword) : TrapInfo := { cause := 5, v0 := v, v1 := lo, v2 := hi, v3 := d }
    (Issues s tid (.chk sgn rd ra rb) → inside sgn (regOf s tid rb) (regOf s tid rd) → exec (.chk tid sgn rd ra rb) s = .next (advance f t 4)) ∧
    (Issues s tid (.chk sgn rd ra rb) → ¬ inside sgn (regOf s tid rb) (regOf s tid rd) →
      exec (.chk tid sgn rd ra rb) s = .next (trap f t (info (regOf s tid rb) (regOf s tid rd) 0))) ∧
    (Issues s tid (.chki ra imm) → inside false 0 (imm.setWidth 64) → exec (.chki tid ra imm) s = .next (advance f t 4)) ∧
    (Issues s tid (.chki ra imm) → ¬ inside false 0 (imm.setWidth 64) → exec (.chki tid ra imm) s = .next (trap f t (info 0 (imm.setWidth 64) 0))) ∧
    (let d := (regOf s tid rb).toNat
     Issues s tid (.chkd sgn ra rb) → d < 2 ^ 52 → d % 16 ≠ 0 → exec (.chkd tid sgn ra rb) s = .next (trap f t { cause := 2, v0 := BitVec.ofNat 64 d })) ∧
    (let d := (regOf s tid rb).toNat
     let a1 := accessWay f t d 8 .read
     let s1 := dtrace a1.2 t 0 8 d (BitVec.ofNat 64 (readLe a1.2 d 8))
     let a2 := accessWay s1 t (d + 8) 8 .read
     let s2 := dtrace a2.2 t 0 8 (d + 8) (BitVec.ofNat 64 (readLe a2.2 (d + 8) 8))
     ∀ w1 w2, Issues s tid (.chkd sgn ra rb) → d < 2 ^ 52 → d % 16 = 0 →
      a1.1 = .ok w1 → w1.cls.isMem = true → w1.mtype = 0 → a2.1 = .ok w2 → w2.cls.isMem = true → w2.mtype = 0 →
      let lo := BitVec.ofNat 64 (readLe a1.2 d 8)
      let hi := BitVec.ofNat 64 (readLe a2.2 (d + 8) 8)
      exec (.chkd tid sgn ra rb) s = .next (checkBounds s2 t sgn v lo hi (BitVec.ofNat 64 d))) ∧
    (∀ lo hi : Dword, hi.toNat ≤ lo.toNat → ¬ inside false lo hi)

/-- System registers (05 R156, Table 5.9; 06 Table 6.9, R161, R170). -/
def Obligations.SystemRegisterAccess : Prop :=
  ∀ (s : State) (tid : Tid) (rd ra : RegNo) (n : BitVec 7),
    let f := afterFetch s tid
    let t := tid.toNat
    let x := threadOf s t
    let b := (bayOfTid f t).getD 64
    let v := regOf s tid ra
    let tgt := v.toNat % 2 ^ 13
    (∀ w : Dword, (n, w) ∈ [((0x00 : BitVec 7), BitVec.ofNat 64 t), (0x02, BitVec.ofNat 64 x.fstat), (0x04, BitVec.ofNat 64 f.ftime), (0x05, x.hkeyAddr), (0x06, x.hkeyLen),
        (0x10, x.tvec), (0x12, x.epc), (0x13, BitVec.ofNat 64 x.cause), (0x14, x.tval0), (0x15, x.tval1), (0x16, x.tval2), (0x17, x.tval3),
        (0x18, x.imask.setWidth 64), (0x1A, x.tdeadline), (0x1B, x.ibit), (0x1C, x.tstartPc), (0x1D, 0), (0x1E, x.targ), (0x21, 0)] →
      Issues s tid (.mfs rd n) → exec (.mfs tid rd n) s = .next (retire f t rd.toNat w 4)) ∧
    (Issues s tid (.mfs rd n) → 0x23 ≤ n.toNat ∨ (0x07 ≤ n.toNat ∧ n.toNat < 0x10) ∨ n.toNat = 0x1F →
      exec (.mfs tid rd n) s = .next (trap f t { cause := 1, v0 := (Olx.mfs rd n).encode.1.setWidth 64 })) ∧
    (∀ y : Thread, (n, y) ∈ [((0x02 : BitVec 7), { x with fstat := v.toNat % 32 }), (0x05, { x with hkeyAddr := v &&& 0x000FFFFFFFFFFFFF }),
        (0x06, { x with hkeyLen := if 5 ≤ v.toNat ∧ v.toNat ≤ 64 then v else x.hkeyLen }),
        (0x10, { x with tvec := v &&& ~~~3 }), (0x11, { x with ie := v.getLsbD 0, prevIe := v.getLsbD 1, inTrap := v.getLsbD 2 }), (0x12, { x with epc := v }),
        (0x13, { x with cause := v.toNat % 32 }), (0x14, { x with tval0 := v }), (0x15, { x with tval1 := v }), (0x16, { x with tval2 := v }), (0x17, { x with tval3 := v }),
        (0x18, { x with imask := v.setWidth 4 }), (0x1A, { x with tdeadline := v }), (0x1C, { x with tstartPc := v }), (0x1E, { x with targ := v })] →
      Issues s tid (.mts ra n) → exec (.mts tid ra n) s = .next (advance (setThread f t y) t 4)) ∧
    (Issues s tid (.mts ra n) → n = 0x1B → v.getLsbD 63 = false ∨ bitAllowed f t (v.toNat % 2 ^ 24) .read = true →
      exec (.mts tid ra n) s = .next (advance (setThread f t { x with ibit := v &&& 0x8000000000FFFFFF }) t 4)) ∧
    (Issues s tid (.mts ra n) → n ∈ [(0x00 : BitVec 7), 0x01, 0x03, 0x04, 0x19] ∨ 0x23 ≤ n.toNat ∨ (0x07 ≤ n.toNat ∧ n.toNat < 0x10) ∨ n.toNat = 0x1F →
      exec (.mts tid ra n) s = .next (trap f t { cause := 1, v0 := (Olx.mts ra n).encode.1.setWidth 64 })) ∧
    (Issues s tid (.mts ra n) → n = 0x20 →
      exec (.mts tid ra n) s = .next (setBay (advance f t 4) b { bayOf f b with paneRoot := v &&& 0x000FFFFFFFFF0001 })) ∧
    (Issues s tid (.mts ra n) → n = 0x22 → exec (.mts tid ra n) s = .next (setBay (advance f t 4) b { bayOf f b with restorePc := v })) ∧
    (Issues s tid (.mts ra 0x1D) → v.toNat = tgt + 2 ^ 13 → bayOfTid f tgt = bayOfTid f t → (threadOf s tgt).st = .parked →
      exec (.tctlStart tid ra) s = .next (startThread (advance f t 4) tgt x.tstartPc [x.targ])) ∧
    (Issues s tid (.mts ra 0x1D) → v.toNat = tgt + 2 ^ 13 → bayOfTid f tgt = bayOfTid f t → (threadOf s tgt).st ≠ .parked →
      exec (.tctlStart tid ra) s = .next (trap f t { cause := 12, v0 := v, v1 := 2 })) ∧
    (Issues s tid (.mts ra 0x1D) → v.toNat = tgt + 2 ^ 14 → bayOfTid f tgt = bayOfTid f t →
      exec (.tctlReset tid ra) s = .next (setThread (if tgt = t then f else advance f t 4) tgt {})) ∧
    (Issues s tid (.mts ra 0x1D) → v.toNat = tgt + 2 ^ 14 → bayOfTid f tgt ≠ bayOfTid f t →
      exec (.tctlReset tid ra) s = .next (trap f t { cause := 12, v0 := v, v1 := 1 })) ∧
    (Issues s tid (.mts ra 0x21) → ∃ u, exec (.paneInv tid ra) s = .next u ∧ (threadOf u t).pc = nextPc x 4 ∧
      ∀ p, p ∈ u.rafters.panes ↔ p ∈ f.rafters.panes ∧
        ¬ (bayOfRafter f p.rafter = bayOfTid f t ∧ (v.getLsbD 0 = true ∨ (p.base ≤ fieldOf v.toNat 51 16 * 2 ^ 16 ∧ fieldOf v.toNat 51 16 * 2 ^ 16 < p.base + 2 ^ p.log2))))

/-- Traps and ERET (05 R143, R157; 06 R180 to R182). -/
def Obligations.TrapEntry : Prop :=
  ∀ (s : State) (tid : Tid) (n : BitVec 7) (w0 w1 : Word) (ver : BitVec 4) (rd rb : RegNo) (func : BitVec 12),
    let f := afterFetch s tid
    let t := tid.toNat
    let x := threadOf s t
    let enters (c : Nat) (v0 v1 saved : Dword) : Host.Outcome State Fault Refusal :=
      .next (setThread (itrace f t 1 c x.pc x.tvec) t
        { x with epc := saved, cause := c, tval0 := v0, tval1 := v1, tval2 := 0, tval3 := 0, prevIe := x.ie, ie := false, inTrap := true,
                 pc := toPc x.tvec, st := .ready, block := none, wait := none })
    let halts (c : Nat) (v0 v1 saved : Dword) : Host.Outcome State Fault Refusal :=
      .next (haltThread (itrace f t 1 c x.pc x.tvec) t { cause := c, v0 := v0, v1 := v1 } saved)
    let traps (e : Host.Outcome State Fault Refusal) (c : Nat) (v0 v1 saved : Dword) : Prop :=
      (x.inTrap = false ∧ x.tvec ≠ 0 → e = enters c v0 v1 saved) ∧ (x.inTrap = true ∨ x.tvec = 0 → e = halts c v0 v1 saved)
    (Issues s tid (.swtrap n) → traps (exec (.swtrap tid n) s) 8 (n.setWidth 64) 0 (nextPc x 4)) ∧
    (Issues s tid .brk → traps (exec (.brk tid) s) 9 0 0 x.pc) ∧
    (decodeOlx w0 w1 = none → Issues s tid .brk →
      traps (exec (.illegalInstruction tid w0 w1) s) 1 (w0.setWidth 64) (if w0.toNat / 2 ^ 26 = 0x37 then w1.setWidth 64 else 0) x.pc) ∧
    (Issues s tid (.cop 3 ver rd rb func) → traps (exec (.noCoprocessorFitted tid ver rd rb func) s) 6 4 ((Olx.cop 3 ver rd rb func).encode.1.setWidth 64) x.pc) ∧
    (Issues s tid .eret → x.inTrap = false → traps (exec (.eret tid) s) 1 (Olx.eret.encode.1.setWidth 64) 0 x.pc) ∧
    (Issues s tid .eret → x.inTrap = true → x.epc.toNat % 4 = 0 →
      exec (.eret tid) s = .next (setThread (itrace f t 3 0 x.pc (toPc x.epc)) t { x with pc := toPc x.epc, ie := x.prevIe, inTrap := false })) ∧
    (Issues s tid .eret → x.inTrap = true → x.epc.toNat % 4 ≠ 0 → exec (.eret tid) s = halts 2 x.epc 0 x.pc)

/-- 06 R180, R181: entry then return. -/
def Obligations.TrapThenReturn : Prop :=
  ∀ (s u v : State) (tid : Tid) (n : BitVec 7), Issues s tid (.swtrap n) → (threadOf s tid.toNat).inTrap = false → (threadOf s tid.toNat).tvec ≠ 0 →
    exec (.swtrap tid n) s = .next u → Issues u tid .eret → exec (.eret tid) u = .next v →
    let x := threadOf s tid.toNat
    let y := threadOf v tid.toNat
    y.pc = nextPc x 4 ∧ y.ie = x.ie ∧ y.inTrap = false ∧ y.st = .ready ∧ (∀ r, y.reg r = x.reg r) ∧ y.priv = x.priv ∧ y.fstat = x.fstat ∧
      y.tvec = x.tvec ∧ y.imask = x.imask ∧ y.tdeadline = x.tdeadline ∧ y.epc = nextPc x 4

/-- Fences, WAIT and interrupts (05 R148, 06 R163, R176, R177, R179). -/
def Obligations.FencesAndWaits : Prop :=
  ∀ (s : State) (tid : Tid) (all clr : Bool) (rd ra rb : RegNo) (k : FenceOp) (w : Wait) (c : Nat),
    let f := afterFetch s tid
    let t := tid.toNat
    let x := threadOf s t
    let fence : FenceOp → Instr := fun k => match k with
      | .acq => .fenceAcq tid
      | .rel => .fenceRel tid
      | .full => .fenceFull tid
      | .ifetch => .fenceI tid
    let base := (regOf s tid ra).toNat
    let mask := regOf s tid rb
    let got := sample f t base mask
    let enough (all : Bool) (mask v : Dword) : Prop := if all then v = mask else v ≠ 0
    let legal : Prop := base < 2 ^ 24 ∧ base % 64 = 0 ∧ oneRange base = true ∧ mask ≠ 0 ∧ waitRefused f t base mask clr = none
    (Issues s tid (.fence k) → k = .acq ∨ k = .ifetch ∨ x.posted = [] → exec (fence k) s = .next (advance f t 4)) ∧
    (Issues s tid (.fence k) → k = .rel ∨ k = .full → x.posted ≠ [] →
      exec (fence k) s = .next (setThread f t { x with st := .blocked, block := some { rd := 0, val := none, npc := nextPc x 4, fence := true } })) ∧
    (Issues s tid (.wait all clr rd ra rb) → base % 64 ≠ 0 ∨ mask = 0 →
      exec (.wait tid all clr rd ra rb) s = .next (trap f t (bitFault (regOf s tid ra) (.wait all clr rd ra rb)))) ∧
    (Issues s tid (.wait all clr rd ra rb) → legal → enough all mask got →
      exec (.wait tid all clr rd ra rb) s = .next (waitEnd f t base clr rd.toNat got)) ∧
    (Issues s tid (.wait all clr rd ra rb) → legal → ¬ enough all mask got → exec (.wait tid all clr rd ra rb) s =
      .next (setThread f t { x with st := .waiting, wait := some ⟨base, mask, all, clr, rd.toNat, if regOf s tid rd = 0 then none else some (f.ftime + (regOf s tid rd).toNat)⟩ })) ∧
    (x.st = .waiting → domUp s (tidRafter t) = true → x.wait = some w → enough w.all w.mask (sample s t w.base w.mask) →
      exec (.waitSatisfied tid) s = .next (waitEnd (ungate s (tidRafter t)) t w.base w.clr w.rd (sample s t w.base w.mask))) ∧
    (x.wait = some w → w.deadline = some c →
      let u := latchWake { s with ftime := Nat.max s.ftime c } (tidRafter t) 5
      let got := sample u t w.base w.mask
      (enough w.all w.mask got → exec (.waitTimeout tid) s = .next (waitEnd u t w.base w.clr w.rd got)) ∧
      (¬ enough w.all w.mask got → exec (.waitTimeout tid) s = .next (waitEnd u t w.base false w.rd 0))) ∧
    ((threadOf (waitEnd s t base clr rd.toNat mask) t).reg rd.toNat = (if rd = 0 then 0 else mask) ∧ (threadOf (waitEnd s t base clr rd.toNat mask) t).pc = nextPc x 4 ∧
      (threadOf (waitEnd s t base clr rd.toNat mask) t).st = .ready ∧ (threadOf (waitEnd s t base clr rd.toNat mask) t).wait = none) ∧
    (x.st = .ready ∨ x.st = .waiting → domUp s (tidRafter t) = true → takeable s t = some c → exec (.interruptTaken tid) s = .next (takeInt (ungate s (tidRafter t)) t c)) ∧
    (takeable s t = some c ↔ x.ie = true ∧ x.inTrap = false ∧ c < 4 ∧ x.imask.getLsbD c = true ∧ intPending s t c = true ∧
      ∀ d < c, ¬ (x.imask.getLsbD d = true ∧ intPending s t d = true)) ∧
    (x.tdeadline ≠ 0 → x.st = .ready → exec (.tdeadlineExpiry tid) s = .next { s with ftime := Nat.max s.ftime x.tdeadline.toNat })

/-- Loads (05 R140, Tables 5.5 and 5.13; 06 R159). -/
def Obligations.LoadResults : Prop :=
  ∀ (s f2 : State) (tid : Tid) (rd ra : RegNo) (imm : Half) (im2 : BitVec 42) (w : Way) (i : Instr) (o : Olx) (n : Nat) (sgn : Bool) (len : Nat) (d : Dword) (ans : Dword),
    (i, o, n, sgn, len, d) ∈ [
      (Instr.lb tid rd ra imm, Olx.load .lb rd ra imm, 1, true, 4, imm.signExtend 64), (.lbu tid rd ra imm, .load .lbu rd ra imm, 1, false, 4, imm.signExtend 64),
      (.lh tid rd ra imm, .load .lh rd ra imm, 2, true, 4, imm.signExtend 64), (.lhu tid rd ra imm, .load .lhu rd ra imm, 2, false, 4, imm.signExtend 64),
      (.lw tid rd ra imm, .load .lw rd ra imm, 4, true, 4, imm.signExtend 64), (.lwu tid rd ra imm, .load .lwu rd ra imm, 4, false, 4, imm.signExtend 64),
      (.ld tid rd ra imm, .load .ld rd ra imm, 8, false, 4, imm.signExtend 64), (.ldx tid rd ra im2, .extLoad .ldx rd ra im2, 8, false, 8, im2.signExtend 64),
      (.lwx tid rd ra im2, .extLoad .lwx rd ra im2, 4, true, 8, im2.signExtend 64), (.lwux tid rd ra im2, .extLoad .lwux rd ra im2, 4, false, 8, im2.signExtend 64)] →
    Issues s tid o →
    let t := tid.toNat
    let x := threadOf s t
    let f := afterFetch s tid
    let a := (regOf s tid ra + d).toNat
    let v : Dword := if sgn then (BitVec.ofNat (8 * n) (readLe f2 a n)).signExtend 64 else BitVec.ofNat 64 (readLe f2 a n)
    (a < 2 ^ 52 → a % n ≠ 0 → exec i s = .next (trap f t { cause := 2, v0 := BitVec.ofNat 64 a })) ∧
    (2 ^ 52 ≤ a → exec i s = .next (trap f t { cause := 3, v0 := BitVec.ofNat 64 a, v1 := 0x60 })) ∧
    (∀ k, accessWay f t a n .read = (.error k, f2) → exec i s = .next (trap f2 t k)) ∧
    (accessWay f t a n .read = (.ok w, f2) → w.cls.isMem = true → w.mtype = 0 → x.loads.length < 8 → traced s t = false →
      ∃ u, exec i s = .next u ∧ (threadOf u t).pc = nextPc x len ∧ (threadOf u t).st = .ready ∧ (∀ r, (threadOf u t).reg r = x.reg r) ∧
        (∀ b, readByte u b = readByte s b) ∧
        (¬ (∃ l ∈ x.loads, l.rd = rd.toNat) → rd ≠ 0 →
          ∃ y, exec (.nonblockingLoadReturn tid rd false) u = .next y ∧ regOf y tid rd = v ∧ (threadOf y t).loads = x.loads ∧
            ∀ r : RegNo, r ≠ rd → regOf y tid r = regOf s tid r)) ∧
    (accessWay f t a n .read = (.ok w, f2) → w.cls.isMem = true → w.mtype ≠ 0 → traced s t = false →
      ∃ u, exec i s = .next u ∧ (threadOf u t).st = .blocked ∧ (∀ b, readByte u b = readByte s b) ∧
        ∃ y, exec (.accessCompletion tid (.data ans)) u = .next y ∧ (threadOf y t).st = .ready ∧ (threadOf y t).pc = nextPc x len ∧
          ∀ r : RegNo, regOf y tid r = if r = 0 then 0 else if r = rd then v else regOf s tid r)

/-- Stores (05 R140, Tables 5.5 and 5.13). -/
def Obligations.StoreResults : Prop :=
  ∀ (s f2 : State) (tid : Tid) (rd ra : RegNo) (imm : Half) (im2 : BitVec 42) (w : Way) (i : Instr) (o : Olx) (n : Nat) (len : Nat) (d : Dword),
    (i, o, n, len, d) ∈ [
      (Instr.sb tid rd ra imm, Olx.store .sb rd ra imm, 1, 4, imm.signExtend 64), (.sh tid rd ra imm, .store .sh rd ra imm, 2, 4, imm.signExtend 64),
      (.sw tid rd ra imm, .store .sw rd ra imm, 4, 4, imm.signExtend 64), (.sd tid rd ra imm, .store .sd rd ra imm, 8, 4, imm.signExtend 64),
      (.sdx tid rd ra im2, .extStore .sdx rd ra im2, 8, 8, im2.signExtend 64), (.swx tid rd ra im2, .extStore .swx rd ra im2, 4, 8, im2.signExtend 64)] →
    Issues s tid o →
    let t := tid.toNat
    let x := threadOf s t
    let f := afterFetch s tid
    let a := (regOf s tid ra + d).toNat
    (a < 2 ^ 52 → a % n ≠ 0 → exec i s = .next (trap f t { cause := 2, v0 := BitVec.ofNat 64 a })) ∧
    (∀ k, accessWay f t a n .write = (.error k, f2) → exec i s = .next (trap f2 t k)) ∧
    (accessWay f t a n .write = (.ok w, f2) → w.cls.isMem = true → traced s t = false →
      ∃ u, exec i s = .next u ∧ (∀ k, k < n → readByte u (a + k) = BitVec.ofNat 8 ((regOf s tid rd).toNat / 2 ^ (8 * k))) ∧
        (∀ b, b < a ∨ a + n ≤ b → readByte u b = readByte s b) ∧
        (threadOf u t).pc = nextPc x len ∧ (∀ v r, (threadOf u v).reg r = (threadOf s v).reg r) ∧ u.regs = s.regs)

/-- Atomics (05 R141, Table 5.8; 06 R159). -/
def Obligations.AtomicResults : Prop :=
  ∀ (s f2 : State) (tid : Tid) (dw aq rl : Bool) (rd ra rb : RegNo) (w : Way) (i : Instr) (op : AmoOp) (ans : Dword),
    (i, op) ∈ [(Instr.amoswap tid dw aq rl rd ra rb, AmoOp.swap), (.amoadd tid dw aq rl rd ra rb, .add), (.amoand tid dw aq rl rd ra rb, .and), (.amoor tid dw aq rl rd ra rb, .or),
      (.amoxor tid dw aq rl rd ra rb, .xor), (.amomin tid dw aq rl rd ra rb, .min), (.amomax tid dw aq rl rd ra rb, .max), (.amominu tid dw aq rl rd ra rb, .minu),
      (.amomaxu tid dw aq rl rd ra rb, .maxu), (.cas tid dw aq rl rd ra rb, .cas)] →
    Issues s tid (.amo op dw aq rl rd ra rb) →
    let t := tid.toNat
    let x := threadOf s t
    let f := afterFetch s tid
    let a := (regOf s tid ra).toNat
    let n := if dw then 8 else 4
    let new (m : Nat) (old b d : BitVec m) : BitVec m := match op with
      | .swap => b
      | .add => old + b
      | .and => old &&& b
      | .or => old ||| b
      | .xor => old ^^^ b
      | .min => if old.toInt < b.toInt then old else b
      | .max => if old.toInt < b.toInt then b else old
      | .minu => if old.toNat < b.toNat then old else b
      | .maxu => if old.toNat < b.toNat then b else old
      | .cas => if old = d then b else old
    let old := readLe s a n
    (rl = true → x.posted ≠ [] → exec i s = .next f) ∧
    (rl = false ∨ x.posted = [] → a < 2 ^ 52 → a % n ≠ 0 → exec i s = .next (trap f t { cause := 2, v0 := BitVec.ofNat 64 a })) ∧
    (rl = false ∨ x.posted = [] → accessWay f t a n .atomic = (.ok w, f2) → w.cls.isMem = true → traced s t = false →
      ∃ u, exec i s = .next u ∧ (threadOf u t).st = .blocked ∧ u.regs = s.regs ∧
        readLe u a n = (new (8 * n) (BitVec.ofNat (8 * n) old) ((regOf s tid rb).setWidth (8 * n)) ((regOf s tid rd).setWidth (8 * n))).toNat ∧
        (∀ b, b < a ∨ a + n ≤ b → readByte u b = readByte s b) ∧
        ∃ y, exec (.accessCompletion tid (.data ans)) u = .next y ∧ (threadOf y t).st = .ready ∧ (threadOf y t).pc = nextPc x 4 ∧ y.mem = u.mem ∧
          ∀ r : RegNo, regOf y tid r = if r = 0 then 0 else if r = rd then (BitVec.ofNat (8 * n) old).signExtend 64 else regOf s tid r)

/-- Ends of accesses (06 R159, R174, R177, R178, Table 6.8). -/
def Obligations.HeldAccessEnds : Prop :=
  ∀ (s : State) (tid : Tid) (b : Block) (st addr : Nat) (rd ra rb : RegNo) (w : Bool) (l : NbLoad),
    let t := tid.toNat
    let x := threadOf s t
    let un := setThread s t { x with st := .ready, block := none }
    (x.block = some b → b.slab = none → b.fence = false → b.byMsg = false → b.val = none → 1 ≤ st → st ≤ 8 →
      exec (.accessCompletion tid (.failed st)) s = .next (trap un t { cause := 11, v0 := BitVec.ofNat 64 b.addr, v1 := BitVec.ofNat 64 st })) ∧
    (x.block = some b → b.slab = none → b.fence = false → b.byMsg = false → b.kind < 3 → classOf b.addr ≠ some .ctrl →
      exec (.accessCompletion tid .memErr) s = .next (trap un t { cause := 10, v0 := BitVec.ofNat 64 b.addr, v1 := x.pc, v2 := BitVec.ofNat 64 b.kind })) ∧
    (x.block = some b → b.slab = none → b.fence = true → x.posted = [] →
      exec (.accessCompletion tid (.data 0)) s = .next (setThread s t (x.released b.rd 0 b.npc))) ∧
    (x.loads = [l] → l.rd = rd.toNat → rd ≠ 0 → x.badLoads = [] →
      ∃ u, exec (.nonblockingLoadReturn tid rd true) s = .next u ∧ (∀ r, (threadOf u t).reg r = x.reg r) ∧ (threadOf u t).loads = [] ∧
        (x.st = .ready → domUp s (tidRafter t) = true → takeable s t = none →
          exec (.add tid w ra rd rb) u = .next (trap (setThread u t { threadOf u t with badLoads := [] }) t { cause := 10, v0 := BitVec.ofNat 64 l.addr, v1 := l.pc }))) ∧
    (1 ≤ st → st ≤ 8 → addr ∈ x.posted → x.intStore = none →
      ∃ u, exec (.postedStoreFailure tid addr st) s = .next u ∧ (threadOf u t).intStore = some (addr, st) ∧ (threadOf u t).posted = x.posted.erase addr ∧
        intPending u t 3 = true ∧ (∀ r, (threadOf u t).reg r = x.reg r) ∧ u.mem = s.mem)

/-- Micro-routines (05 R150, R152, R153). -/
def Obligations.RoutineSteps : Prop :=
  ∀ (s f1 f2 : State) (tid : Tid) (esz : BitVec 2) (dir cond : Bool) (rd ra rb : RegNo) (n v : Nat) (w : Way) (key : List Byte),
    let t := tid.toNat
    let f := afterFetch s tid
    let x := threadOf s t
    let e := 2 ^ esz.toNat
    let d := regOf s tid rd
    let a := regOf s tid ra
    let c := regOf s tid rb
    let by_ (p : Dword) : Dword := if dir then p - BitVec.ofNat 64 e else p + BitVec.ofNat 64 e
    let distinct : Prop := rd ≠ 0 ∧ ra ≠ 0 ∧ rb ≠ 0 ∧ rd ≠ ra ∧ rd ≠ rb ∧ ra ≠ rb
    let after (u : State) (d' a' : Dword) : Prop :=
      regOf u tid rd = d' ∧ regOf u tid ra = a' ∧ regOf u tid rb = c - 1 ∧ (∀ r, r ≠ rd → r ≠ ra → r ≠ rb → regOf u tid r = regOf s tid r) ∧
        (threadOf u t).pc = (if c = 1 then nextPc x 4 else x.pc)
    let g (op : LongOp) (esz : BitVec 2) (dir cond : Bool) : LongArgs := ⟨op, esz, dir, cond, rd, ra, rb⟩
    let first (op : LongOp) (esz : BitVec 2) (dir cond : Bool) : Multi := ⟨.long op esz dir cond rd ra rb, 1, [], 0⟩
    (Issues s tid (.long .movb esz dir false rd ra rb) → c = 0 → exec (.movb tid esz dir rd ra rb n) s = .next (advance f t 4)) ∧
    (Issues s tid (.long .fill esz dir false rd ra rb) → c = 0 → exec (.fill tid esz dir rd ra rb n) s = .next (advance f t 4)) ∧
    (Issues s tid (.long .scanb esz dir cond rd ra rb) → c = 0 → exec (.scanb tid esz dir cond rd ra rb n) s = .next (advance f t 4)) ∧
    (Issues s tid (.long .crcb 0 false false rd ra rb) → c = 0 → exec (.crcb tid rd ra rb n) s = .next (advance f t 4)) ∧
    (Issues s tid (.long .hashb 0 false false rd ra rb) → c = 0 → exec (.hashb tid rd ra rb n) s = .next (advance f t 4)) ∧
    (Issues s tid (.long .fill esz dir false rd ra rb) → c ≠ 0 → d.toNat % e ≠ 0 → exec (.fill tid esz dir rd ra rb n) s = .next (trap f t { cause := 2, v0 := d })) ∧
    (Issues s tid (.long .movb esz dir false rd ra rb) → distinct → c ≠ 0 → d.toNat % e = 0 → a.toNat % e = 0 → traced s t = false →
      loadOne f t a.toNat e (first .movb esz dir false) = (some v, f1) → accessWay f1 t d.toNat e .write = (.ok w, f2) → threadOf f1 t = x → w.cls.isMem = true →
      traced f2 t = false →
      ∃ u, exec (.movb tid esz dir rd ra rb 1) s = .next u ∧ after u (by_ d) (by_ a) ∧ readLe u d.toNat e = v % 2 ^ (8 * e) ∧
        ∀ b, b < d.toNat ∨ d.toNat + e ≤ b → readByte u b = readByte f1 b) ∧
    (Issues s tid (.long .fill esz dir false rd ra rb) → distinct → c ≠ 0 → d.toNat % e = 0 → traced s t = false →
      accessWay f t d.toNat e .write = (.ok w, f2) → w.cls.isMem = true →
      ∃ u, exec (.fill tid esz dir rd ra rb 1) s = .next u ∧ after u (by_ d) a ∧ readLe u d.toNat e = a.toNat % 2 ^ (8 * e) ∧
        ∀ b, b < d.toNat ∨ d.toNat + e ≤ b → readByte u b = readByte s b) ∧
    (Issues s tid (.long .scanb esz dir cond rd ra rb) → distinct → c ≠ 0 → d.toNat % e = 0 →
      loadOne f t d.toNat e (first .scanb esz dir cond) = (some v, f1) → threadOf f1 t = x →
      (xor (decide (v = a.toNat % 2 ^ (8 * e))) cond = true → exec (.scanb tid esz dir cond rd ra rb 1) s = .next (advance f1 t 4)) ∧
      (xor (decide (v = a.toNat % 2 ^ (8 * e))) cond = false → ∃ u, exec (.scanb tid esz dir cond rd ra rb 1) s = .next u ∧ after u (by_ d) a ∧ u.mem = f1.mem)) ∧
    (Issues s tid (.long .crcb 0 false false rd ra rb) → distinct → c ≠ 0 →
      loadOne f t a.toNat 1 (first .crcb 0 false false) = (some v, f1) → threadOf f1 t = x →
      ∃ u, exec (.crcb tid rd ra rb 1) s = .next u ∧ u.mem = f1.mem ∧
        after u (BitVec.ofNat 64 ((List.range 8).foldl (fun q _ => if q % 2 = 1 then q / 2 ^^^ 0x82F63B78 else q / 2) ((d.toNat % 2 ^ 32) ^^^ (v % 256)))) (a + 1)) ∧
    (Issues s tid (.long .hashb 0 false false rd ra rb) → c ≠ 0 → x.hkeyLen = 0 →
      exec (.hashb tid rd ra rb 1) s = .next (trap f t { cause := 5, v0 := BitVec.ofNat 64 (fieldOf d.toNat 47 32), v1 := 0, v2 := x.hkeyLen - 4 })) ∧
    (Issues s tid (.long .hashb 0 false false rd ra rb) → distinct → c ≠ 0 → fieldOf d.toNat 47 32 + 5 ≤ x.hkeyLen.toNat → x.hkeyLen.toNat = key.length →
      loadKey t (x.hkeyAddr.toNat % 2 ^ 52) (g .hashb 0 false false) 1 [] key.length 0 f [] = (some key, f1) → threadOf f1 t = x → takeable f1 t = none →
      loadOne f1 t a.toNat 1 ⟨.long .hashb 0 false false rd ra rb, 1, key.map (fun b => b.setWidth 64), key.length⟩ = (some v, f2) → threadOf f2 t = x →
      ∃ u, exec (.hashb tid rd ra rb 1) s = .next u ∧ u.mem = f2.mem ∧
        after u (BitVec.ofNat 64 (toeplitzByte key (fieldOf d.toNat 47 32) (BitVec.ofNat 8 v) (d.toNat % 2 ^ 32) % 2 ^ 32 + (fieldOf d.toNat 47 32 + 1) % 2 ^ 16 * 2 ^ 32)) (a + 1))

/-- The fixed coprocessors (05 R155, 12 Table 12.11, 13 Table 13.10, 14 Table 14.11). -/
def Obligations.CoprocessorResults : Prop :=
  ∀ (s : State) (tid : Tid) (ver : BitVec 4) (rd rb : RegNo) (v : Nat) (bs cb : List Byte) (why : Nat) (key : List Byte) (i : Instr) (unit : BitVec 3) (func : BitVec 12) (u : State) (w : Dword),
    let t := tid.toNat
    let f := afterFetch s tid
    let loft := latchWake f 73 7
    let shin := latchWake f 77 7
    let op (unit : BitVec 3) (func : BitVec 12) : Olx := .cop unit 1 rd rb func
    let holds (g : State) (v : Dword) : Host.Outcome State Fault Refusal :=
      .next (setThread g t { threadOf g t with st := .blocked, block := some { rd := rd.toNat, val := some v, npc := nextPc (threadOf g t) 4, kind := 4 } })
    let refuses (g : State) (st : Nat) (i : Olx) : Host.Outcome State Fault Refusal :=
      .next (trap g t { cause := 7, v0 := BitVec.ofNat 64 st, v1 := i.encode.1.setWidth 64 })
    let a (g : State) := regOf g tid rd
    let b (g : State) := regOf g tid rb
    (Issues s tid (op 0 1) → chainEndOf loft (a loft).toNat (fieldOf (b loft).toNat 15 0) (fieldOf (b loft).toNat 23 16) = some v → exec (.lend tid 1 rd rb) s = holds loft (BitVec.ofNat 64 v)) ∧
    (Issues s tid (op 0 1) → chainEndOf loft (a loft).toNat (fieldOf (b loft).toNat 15 0) (fieldOf (b loft).toNat 23 16) = none → exec (.lend tid 1 rd rb) s = refuses loft 2 (op 0 1)) ∧
    (Issues s tid (op 0 2) → exec (.lticket tid 1 rd rb) s = holds loft (getReg loft .loftTicket 0)) ∧
    (Issues s tid (op 0 3) → exec (.lretired tid 1 rd rb) s = holds loft (BitVec.ofNat 64 (loftRetired loft))) ∧
    (Issues s tid (op 0 4) → biasSet loft (b loft).toNat = some bs → exec (.lbucket tid 1 rd rb) s = holds loft (BitVec.ofNat 64 (bucketOf bs (a loft).toInt))) ∧
    (Issues s tid (op 0 4) → biasSet loft (b loft).toNat = none → exec (.lbucket tid 1 rd rb) s = refuses loft 2 (op 0 4)) ∧
    (Issues s tid (op 0 5) → (a loft).toNat < 64 → exec (.lpool tid 1 rd rb) s = holds loft (BitVec.ofNat 64
      ((getF loft Fld.loftPoolTail (a loft).toNat + 2 ^ 20 - getF loft Fld.loftPoolHead (a loft).toNat) % 2 ^ getF loft Fld.loftPoolCfgLog2Size (a loft).toNat))) ∧
    (Issues s tid (op 1 2) → ∃ v, exec (.random tid 1 rd rb) s = holds { f with freeCtr := f.freeCtr + 1 } v) ∧
    (Issues s tid (op 1 3) → exec (.keyinfo tid 1 rd rb) s = holds f (BitVec.ofNat 64 (match keyOfHandle f (a f).toNat with
      | some k => k.kind % 256 + (if keyPermits k ((bayOfTid f t).getD 64) = true then 256 else 0)
      | none => 0))) ∧
    (Issues s tid (op 1 1) → copReach f t (a f).toNat 64 .read = false → exec (.cryptFunction tid 1 rd rb) s = refuses f 2 (op 1 1)) ∧
    (Issues s tid (op 1 1) → copReach f t (a f).toNat 64 .read = true → fetchBytes f (a f).toNat 64 = (cb, u) → cbOk cb = true → cbLen cb ≤ 65536 →
      (∀ r ∈ cbRanges cb, copReach u t r.1 r.2.1 r.2.2 = true) → cryptKey u ((bayOfTid u t).getD 64) cb (b f).toNat = .error why →
      exec (.cryptFunction tid 1 rd rb) s = refuses u 3 (op 1 1)) ∧
    (Issues s tid (op 1 1) → copReach f t (a f).toNat 64 .read = true → fetchBytes f (a f).toNat 64 = (cb, u) → cbOk cb = true → cbLen cb ≤ 65536 →
      (∀ r ∈ cbRanges cb, copReach u t r.1 r.2.1 r.2.2 = true) → cryptKey u ((bayOfTid u t).getD 64) cb (b f).toNat = .ok key → cbOp cb ≠ 2 →
      (cryptDo cb key (fetchBytes u (cbSrc cb) (cbLen cb)).1 []).isSome = true →
      ∃ g, exec (.cryptFunction tid 1 rd rb) s = holds g (BitVec.ofNat 64 (cbOut cb)) ∧ threadOf g t = threadOf s t ∧ g.regs = s.regs) ∧
    (Issues s tid (op 2 1) → (a shin).toNat % 65536 ≠ 0 ∨ copReach shin t (a shin).toNat 65536 .read = false → exec (.shash tid 1 rd rb) s = refuses shin 2 (op 2 1)) ∧
    (Issues s tid (op 2 1) → (a shin).toNat % 65536 = 0 → copReach shin t (a shin).toNat 65536 .read = true → fetchBytes shin (a shin).toNat 65536 = (bs, u) →
      let g := setThread u t { threadOf u t with shashHi := BitVec.ofNat 64 (leAt (shingleHash bs) 8 8) }
      exec (.shash tid 1 rd rb) s = holds g (BitVec.ofNat 64 (leAt (shingleHash bs) 0 8))) ∧
    (Issues s tid (op 2 2) → exec (.shashHi tid 1 rd rb) s = holds shin (threadOf shin t).shashHi) ∧
    (Issues s tid (op 2 3) → exec (.sstat tid 1 rd rb) s = holds shin (getReg shin .ulStat 0)) ∧
    ((i, unit, func) ∈ [(Instr.lend tid ver rd rb, (0 : BitVec 3), (1 : BitVec 12)), (.lticket tid ver rd rb, 0, 2), (.lretired tid ver rd rb, 0, 3), (.lbucket tid ver rd rb, 0, 4),
        (.lpool tid ver rd rb, 0, 5), (.cryptFunction tid ver rd rb, 1, 1), (.random tid ver rd rb, 1, 2), (.keyinfo tid ver rd rb, 1, 3), (.shash tid ver rd rb, 2, 1),
        (.shashHi tid ver rd rb, 2, 2), (.sstat tid ver rd rb, 2, 3)] → Issues s tid (.cop unit ver rd rb func) → ver ≠ 1 →
      exec i s = .next (trap f t { cause := 6, v0 := 3, v1 := (Olx.cop unit ver rd rb func).encode.1.setWidth 64 })) ∧
    (∃ y, exec (.accessCompletion tid (.data 0)) (setThread s t { threadOf s t with st := .blocked, block := some { rd := rd.toNat, val := some w, npc := nextPc (threadOf s t) 4, kind := 4 } }) = .next y ∧
      regOf y tid rd = (if rd = 0 then 0 else w) ∧ (threadOf y t).pc = nextPc (threadOf s t) 4 ∧ (threadOf y t).st = .ready)

/-- Open fabric slabs (04 R122 to R124). -/
def Obligations.SlabInstructions : Prop :=
  ∀ (s : State) (tid : Tid) (slab : BitVec 2) (ver : BitVec 4) (rd rb : RegNo) (func : BitVec 12) (result : Dword) (status : BitVec 4) (b : Block) (n due bay : Nat) (addr : Dword) (bytes : List Byte),
    let t := tid.toNat
    let f := afterFetch s tid
    let x := threadOf s t
    let i : Olx := .cop (slab.setWidth 3 ||| 4) ver rd rb func
    let sl := Tab.get {} s.thatch.slabs slab.toNat
    let own : Prop := bitN (envOf f ((bayOfTid f t).getD 64)).slabMask slab.toNat = true
    let absent (r : Nat) : Host.Outcome State Fault Refusal := .next (trap f t { cause := 6, v0 := BitVec.ofNat 64 r, v1 := i.encode.1.setWidth 64 })
    let faults (g : State) (st : Nat) : Host.Outcome State Fault Refusal :=
      .next (trap (setThread g t { threadOf g t with st := .ready, block := none }) t { cause := 7, v0 := BitVec.ofNat 64 st, v1 := b.word.setWidth 64 })
    (Issues s tid i → ¬ own → exec (.slabInstruction tid slab ver rd rb func) s = absent 1) ∧
    (Issues s tid i → own → sl.inReset = true → exec (.slabInstruction tid slab ver rd rb func) s = absent 2) ∧
    (Issues s tid i → own → sl.inReset = false → sl.version ≠ ver.toNat → exec (.slabInstruction tid slab ver rd rb func) s = absent 3) ∧
    (Issues s tid i → own → sl.inReset = false → sl.version = ver.toNat →
      ∃ u, exec (.slabInstruction tid slab ver rd rb func) s = .next u ∧ u.out = .slabReq slab.toNat t func.toNat (regOf s tid rd) (regOf s tid rb) :: f.out ∧
        (threadOf u t).st = .blocked ∧
        (threadOf u t).block = some { rd := rd.toNat, val := none, npc := nextPc x 4, kind := 4, slab := some (slab.toNat, slabDue f slab.toNat), word := i.encode.1 }) ∧
    (x.block = some b → b.slab = some (slab.toNat, due) → s.ftime ≤ due → exec (.slabResponse tid slab result 0) s = .next (setThread s t (x.released b.rd result b.npc))) ∧
    (x.block = some b → b.slab = some (slab.toNat, due) → s.ftime ≤ due → status ≠ 0 → exec (.slabResponse tid slab result status) s = faults s status.toNat) ∧
    (x.block = some b → b.slab = some (n, due) →
      exec (.slabTimeout tid) s = faults (bump { s with ftime := Nat.max s.ftime due } Fld.thatchSlabTimeoutCnt 0) 15) ∧
    (bayOfSlab s slab.toNat = some bay → sl.inReset = false → 1 ≤ bytes.length → bytes.length ≤ 64 → slabReach s bay addr.toNat bytes.length .write = true →
      ∃ u, exec (.slabMemoryAccess slab addr true bytes) s = .next u ∧ u.regs = s.regs ∧ u.rafters = s.rafters ∧
        (∀ k (h : k < bytes.length), readByte u (addr.toNat + k) = bytes[k]) ∧ ∀ c, c < addr.toNat ∨ addr.toNat + bytes.length ≤ c → readByte u c = readByte s c) ∧
    (bayOfSlab s slab.toNat = some bay → sl.inReset = false → 1 ≤ bytes.length → bytes.length ≤ 64 → slabReach s bay addr.toNat bytes.length .read = true →
      exec (.slabMemoryAccess slab addr false bytes) s = .next { s with out := .slabData slab.toNat (readBytes s addr.toNat bytes.length) :: s.out }) ∧
    (bayOfSlab s slab.toNat = some bay → sl.inReset = false → 1 ≤ bytes.length → bytes.length ≤ 64 → slabReach s bay addr.toNat bytes.length .read = false →
      exec (.slabMemoryAccess slab addr false bytes) s =
        .next (raiseD (bump { s with out := .slabData slab.toNat (List.replicate bytes.length 0xFF) :: s.out } Fld.thatchSlabMemFaultCnt 0) (some 45)
          { code := 0x0105, bay := bay, aux8 := slab.toNat, arg0 := addr.toNat }))

/-- The fast domains (02 R37 to R45, R465). -/
def Obligations.DomainPowerSteps : Prop :=
  ∀ (s : State) (d : Nat) (req : Requester) (v : Word), d < 79 →
    let settled : Prop := (domOf s d).phase = .stable ∧ s.ridge.roof = .awake ∧ (domOf s d).enabled = true
    let phase (u : State) := (domOf u d).phase
    (settled → domState s d = 0 → domIdle s d = true → 1 ≤ getF s Fld.pwrDomCtlIdleFloor d →
      ∃ u, exec (.dozeEntry d) s = .next u ∧ domState u d = 1 ∧ phase u = .stable ∧ (domOf u d).dozeSince = s.ftime ∧ u.mem = s.mem ∧ u.rafters = s.rafters) ∧
    (settled → domState s d = 1 → domIdle s d = true → getF s Fld.pwrDomCtlIdleFloor d = 2 → domLimited s d = false →
      ∃ u, exec (.napDelayExpiry d) s = .next u ∧ domState u d = 1 ∧ phase u = .entry false ∧ getF u Fld.pwrDomStatInTransition d = 1 ∧
        u.ftime = Nat.max s.ftime ((domOf s d).dozeSince + getF s Fld.pwrDomCtlNapDelayUs d * 1000) ∧ u.mem = s.mem ∧ u.rafters = s.rafters) ∧
    (settled → d ≠ 74 → domState s d ≠ 3 → getF s Fld.pwrDomStatOffPending d = 1 → domIdle s d = true →
      ∃ u, exec (.offEntryStart d) s = .next u ∧ domState u d = domState s d ∧ phase u = .entry true ∧ getF u Fld.pwrDomStatInTransition d = 1 ∧ u.mem = s.mem) ∧
    (∀ off, s.ridge.roof = .awake → phase s = .entry off → ∃ u, exec (.quiesceDone d) s = .next u ∧ phase u = .past off false ∧ u.regs = s.regs ∧ u.mem = s.mem) ∧
    (s.ridge.roof = .awake → phase s = .past false false →
      ∃ u, exec (.powerDownDone d) s = .next u ∧ domState u d = 2 ∧ phase u = .stable ∧ getF u Fld.pwrDomStatInTransition d = 0 ∧ u.mem = s.mem ∧ u.rafters = s.rafters) ∧
    (s.ridge.roof = .awake → phase s = .past true false →
      ∃ u, exec (.powerDownDone d) s = .next u ∧ domState u d = 3 ∧ phase u = .stable ∧ getF u Fld.pwrDomStatOffPending d = 0 ∧ (d < 64 → ∀ t, tidRafter t = d → threadOf u t = {})) ∧
    (s.ridge.roof = .awake → phase s = .past false true → d = 74 → ∃ u, exec (.powerDownDone d) s = .next u ∧ domState u d = 2 ∧ phase u = .waking) ∧
    (s.ridge.roof = .awake → phase s = .waking → d = 74 ∨ domUp s 74 = true → domState s d = 2 → d ≠ 78 →
      ∃ u, exec (.domainWakeDone d) s = .next u ∧ domState u d = 0 ∧ phase u = .stable ∧ (domOf u d).firstSrc = 0 ∧
        ((domOf s d).firstSrc ≠ 0 → getF u Fld.pwrDomStatLastWakeSrc d = (domOf s d).firstSrc % 8) ∧ u.mem = s.mem ∧ u.rafters = s.rafters) ∧
    (s.ridge.roof = .awake → phase s = .waking → domUp s 74 = true → domState s d = 3 → d < 64 → (∀ b, bayOfRafter s d = some b → (bayOf s b).restorePc = 0) →
      ∃ u, exec (.domainWakeDone d) s = .next u ∧ domState u d = 0 ∧ getF u Fld.pwrDomStatRestoreNeeded d = 1 ∧ ∀ t, tidRafter t = d → threadOf u t = {}) ∧
    (Requester.isPf req = true → d ≠ 74 → domLimited s d = false → v.getLsbD 3 = false →
      ∃ u, exec (.offReq req d v) s = .next u ∧ getF u Fld.pwrDomStatOffPending d = 1 ∧ getF u Fld.pwrDeniedCnt 0 = getF s Fld.pwrDeniedCnt 0 ∧ u.mem = s.mem) ∧
    (Requester.isPf req = true → d = 74 → v.getLsbD 3 = false →
      ∃ u, exec (.offReq req d v) s = .next u ∧ getF u Fld.pwrDomStatOffPending d = getF s Fld.pwrDomStatOffPending d ∧ getF u Fld.pwrDeniedCnt 0 = (getF s Fld.pwrDeniedCnt 0 + 1) % 2 ^ 64) ∧
    (Requester.isPf req = true → v.getLsbD 2 = false → settled → (domOf s d).started = true → domState s d = 2 → d ≠ 74 → (domOf s 74).phase = .stable → domState s 74 = 0 →
      ∃ u, exec (.wakeReq req d v) s = .next u ∧ phase u = .waking ∧ (domOf u d).firstSrc = (if (domOf s d).firstSrc = 0 then 6 else (domOf s d).firstSrc) ∧
        getF u Fld.pwrDomStatOffPending d = 0 ∧ getF u Fld.pwrDomStatInTransition d = 1) ∧
    (∀ t, bayOfTid s t.toNat = none → exec (.offReq (.thread t) d v) s = .next (bump s Fld.pwrDeniedCnt 0) ∧ exec (.wakeReq (.thread t) d v) s = .next (bump s Fld.pwrDeniedCnt 0))

/-- Roof Sleep (02 R47 to R50). -/
def Obligations.RoofSleepSteps : Prop :=
  ∀ (s : State) (bit : Nat) (l : List Nat),
    (s.ridge.roof = .awake → roofConditions s = true →
      ∃ u, exec .roofSleepConditionsHeld s = .next u ∧ (∃ k, u.ridge.roof = .entry k) ∧ u.regs = s.regs ∧ u.mem = s.mem) ∧
    (roofConditions s = true → (∀ r, r < 64 → 2 ≤ domState s r) ∧ s.rings.ops = [] ∧ mode s = 1 ∧ getF s Fld.pwrStateRoofAllowed 0 ≠ 0 ∧ getF s Fld.thatchStatPhase 0 = 0) ∧
    (∀ k, s.ridge.roof = .entry k → bit ≤ 6 → (getReg s .pwrRoofWakeEn 0).getLsbD bit = true →
      ∃ u, exec (.roofWakeSource bit []) s = .next u ∧ u.ridge.roof = .awake ∧ getF u Fld.pwrRoofAbortCnt 0 = (getF s Fld.pwrRoofAbortCnt 0 + 1) % 2 ^ 64) ∧
    (∀ k, s.ridge.roof = .entry k → ∃ u, exec .roofPointOfNoReturn s = .next u ∧ u.ridge.roof = .past none ∧ ∀ d, d < 79 → d ≠ 74 → domState u d = 3) ∧
    (s.ridge.roof = .past none → bit ≤ 6 → (getReg s .pwrRoofWakeEn 0).getLsbD bit = true → exec (.roofWakeSource bit l) s = .next (setRoof s (.past (some bit)))) ∧
    (s.ridge.roof = .past none →
      ∃ u, exec .roofSleepEntered s = .next u ∧ u.ridge.roof = .asleep ∧ domState u 74 = 3 ∧ getF u Fld.pwrRoofEntryCnt 0 = (getF s Fld.pwrRoofEntryCnt 0 + 1) % 2 ^ 64) ∧
    (s.ridge.roof = .asleep → bit ≤ 6 → (getReg s .pwrRoofWakeEn 0).getLsbD bit = true →
      ∃ u, exec (.roofWakeSource bit l) s = .next u ∧ u.ridge.roof = .exiting false ∧ getReg u .pwrRoofWakeSrc 0 = BitVec.ofNat 64 (2 ^ bit)) ∧
    (s.ridge.roof = .asleep → getReg s .pwrRoofTimer 0 ≠ 0 → (getReg s .pwrRoofWakeEn 0).getLsbD 0 = true →
      ∃ u, exec .roofTimerExpiry s = .next u ∧ u.ridge.roof = .exiting false ∧ getReg u .pwrRoofWakeSrc 0 = 1) ∧
    ((getReg s .pwrRoofWakeEn 0).getLsbD bit = false ∨ 7 ≤ bit → exec (.roofWakeSource bit l) s = .next s) ∧
    (s.ridge.roof = .exiting false → exec (.roofExitDigestCheck true) s = .next (setRoof s (.exiting true))) ∧
    (s.ridge.roof = .exiting false → getF s Fld.pwrStateThermalHold 0 = 1 →
      ∃ u, exec (.roofExitDigestCheck false) s = .next u ∧ u.ridge.roof = .awake ∧ mode u = 0 ∧ getF u Fld.pwrStateRoofAllowed 0 = 0 ∧
        ∀ b, b < 64 → getReg u .thatchBayEpoch b = 0) ∧
    (s.ridge.roof = .exiting true → (List.range 64).any (bayExists s) = false →
      ∃ u, exec .roofExit s = .next u ∧ u.ridge.roof = .awake)

/-- Resets and modes (02 R33, R34, R51, R52, R55 to R58; 16 R455 to R457). -/
def Obligations.ResetCommands : Prop :=
  ∀ (s : State) (edges bay t : Nat) (req : Requester),
    (s.ridge.por = true → ∃ u, exec .powerOnResetExit s = .next u ∧ u.ridge.por = false ∧ u.ridge.detecting = true ∧ u.ridge.spiResetHigh = false ∧ u.regs = s.regs ∧ u.mem = s.mem) ∧
    (∃ u, exec .powerLoss s = .next u ∧ (∀ r i, getReg u r i = r.resetVal i) ∧ u.ftime = 0 ∧ u.ridge.por = true ∧ u.pending = s.pending ∧ u.rafters = {} ∧
      u.stor.revoked = s.stor.revoked ∧ u.stor.fuseFloor = s.stor.fuseFloor ∧ ∀ e, e ∈ u.mem ↔ e ∈ s.mem ∧ (classOf e.1 = some .hostA ∨ classOf e.1 = some .hostB)) ∧
    (s.ridge.detecting = true → s.ridge.por = false → s.ridge.resetLow = true →
      ∃ u, exec (.crystalDetectionDone edges) s = .next u ∧ u.ridge.detecting = false ∧ getF u Fld.pwrStateClkSrc 0 = (if 45000 ≤ edges ∧ edges ≤ 55000 then 0 else 1)) ∧
    (s.ridge.detecting = false → s.ridge.por = false → getF s Fld.pwrStateClkSrc 0 = 0 →
      ∃ u, exec .crystalFail s = .next (raiseD u srcRidge { code := 0x0001, aux8 := 1, arg0 := getF u Fld.pwrClkFailCnt 0 }) ∧
        getF u Fld.pwrStateClkSrc 0 = 1 ∧ getF u Fld.pwrClkFailCnt 0 = (getF s Fld.pwrClkFailCnt 0 + 1) % 2 ^ 64 ∧ mode u = mode s) ∧
    (∀ c ∈ [Instr.resetNAssert, .boardPgFall], s.ridge.por = false → s.ridge.resetLow = false → s.ridge.pgLow = false → getF s Fld.bootAttempts 0 ≠ 0 →
      ∃ u, exec c s = .next u ∧ u.ftime = s.ftime ∧ mode u = 0 ∧ u.rafters = {} ∧ getF u Fld.pwrWarmRstCnt 0 = (getF s Fld.pwrWarmRstCnt 0 + 1) % 2 ^ 64 ∧
        (∀ r ∈ [Reg.bootAttempts, .pwrBootOrder, .pwrRoofWakeEn, .pwrDeniedCnt, .pwrClkFailCnt], getReg u r 0 = getReg s r 0) ∧
        (∀ i, getReg u .thatchBayEpoch i = 0) ∧ u.pending = s.pending ∧
        (c = .resetNAssert → u.ridge.resetLow = true) ∧ (c = .boardPgFall → u.ridge.pgLow = true ∧ getF u Fld.pwrBoardPgCnt 0 = (getF s Fld.pwrBoardPgCnt 0 + 1) % 2 ^ 64)) ∧
    (s.ridge.resetLow = true → s.ridge.pgLow = true → exec .resetNRise s = .next { s with ridge := { s.ridge with resetLow := false } } ∧
      exec .boardPgRise s = .next { s with ridge := { s.ridge with pgLow := false } }) ∧
    (s.ridge.resetLow = true → s.ridge.pgLow = false → s.ridge.por = false → s.ridge.detecting = false →
      exec .resetNRise s = .next (startCycle { s with ridge := { s.ridge with resetLow := false } })) ∧
    (s.ridge.pgLow = true → s.ridge.resetLow = false → s.ridge.por = false → s.ridge.detecting = false →
      exec .boardPgRise s = .next (startCycle { s with ridge := { s.ridge with pgLow := false } })) ∧
    (Requester.isPf req = true → bayExists s bay = true → (bayOf s bay).struck = false →
      ∃ u, exec (.bayReset req bay true) s = .next u ∧ bay ∈ u.ridge.resetting ∧ (∀ t, tidRafter t ∈ raftersOf s bay → threadOf u t = {}) ∧
        (∀ k, k / 65536 ∈ raftersOf s bay → Tab.get false u.rafters.shared k = false) ∧ u.regs = s.regs) ∧
    (Requester.isPf req = false → exec (.bayReset req bay true) s = .next (bump s Fld.pwrDeniedCnt 0) ∧ exec (.bootNow req) s = .next (bump s Fld.pwrDeniedCnt 0) ∧
      exec (.tarpForceWrite req) s = .next (bump s Fld.pwrDeniedCnt 0)) ∧
    (bay ∈ s.ridge.resetting → (bayOf s bay).struck = false → exec (.bayResetDone bay) s =
      .next (raiseD (startBayUp { s with ridge := { s.ridge with resetting := s.ridge.resetting.filter (· != bay) } } bay 5) srcRidge { code := 0x0005, bay := bay })) ∧
    (s.ridge.backoffEnd = some t → bootHeld s = false → mode s ≠ 1 →
      exec .backoffExpiry s = .next (startCycle { s with ftime := Nat.max s.ftime t }) ∧ (Requester.isPf req = true → exec (.bootNow req) s = .next (startCycle s))) ∧
    (Requester.isPf req = true → mode s = 2 → (getF s Fld.pwrStateTarpSeen 0).testBit 5 = false →
      ∃ u, exec (.tarpForceWrite req) s = .next u ∧ getF u Fld.pwrStateTarpSeen 0 = getF s Fld.pwrStateTarpSeen 0 + 32 ∧ mode u = 2) ∧
    (Requester.isPf req = true → mode s ≠ 2 → exec (.tarpForceWrite req) s = .next (tarpEnter s 6)) ∧
    (s.ridge.tarpEntry = some false → s.rings.ops = [] →
      ∃ u, exec .tarpEntryDone s = .next u ∧ u.ridge.tarpEntry = none ∧ u.ridge.barePort = true ∧ u.truss.portsUp = [] ∧ u.ridge.resetting = [] ∧
        ∀ d, d < 79 → domState u d = 3 ∧ (domOf u d).enabled = false)

/-- The boot loop (02 R53 to R56, 14 R420, 16 R461). -/
def Obligations.BootSteps : Prop :=
  ∀ (s : State) (a : Attempt) (hdr img : List Byte) (m src r k : Nat) (sig1 sig2 : Bool), s.ridge.attempt = some a →
    let goes (e : Host.Outcome State Fault Refusal) (b : Attempt) : Prop := e = .next (setAttempt s (some b))
    let u := usableSlots s a.image
    let t := bootThatch a.image
    let c := if checks24 s .boot t ≠ 1 then checks24 s .boot t else if check5 u t sig2 ≠ 1 then 6 else check6 s t
    (a.stage = .spiReset → goes (exec .spiResetWaitExpiry s) { a with stage := .sfdp }) ∧
    (a.stage = .sfdp → exec (.sfdpReadDone m) s = .next { s with ridge := { s.ridge with spiMode := m % 4, attempt := some { a with stage := .header } } }) ∧
    (a.stage = .header → a.src ≤ 2 → 128 ≤ hdr.length → bootHeaderOk hdr = true → a.size = 0 → a.image = [] →
      goes (exec (.bootHeaderCheck hdr) s) { a with stage := .body, size := leAt hdr 8 8, image := hdr.take 128 }) ∧
    (a.stage = .header → a.src ≤ 2 → 128 ≤ hdr.length → bootHeaderOk hdr = false → exec (.bootHeaderCheck hdr) s = .next (attemptFail s 3)) ∧
    (a.stage = .body → a.src ≤ 2 → img.length = a.size → img.take 128 = a.image.take 128 → goes (exec (.bootImageReadDone img) s) { a with stage := .hashing, image := img }) ∧
    (a.stage = .hashing → exec (.bootSignatureCheckDone sig1 sig2) s =
      .next (if check5 u a.image sig1 ≠ 1 then attemptFail s 4
        else if leAt a.image 0x10 4 < secFloor s then attemptFail s 5
        else if c ≠ 1 then attemptFail (setF s Fld.thatchStatResult 0 c) (bootResultOf c)
        else attemptOk s a u)) ∧
    (∃ v, attemptOk s a u = v ∧ v.ridge.loading = true ∧ v.thatch.staging = t ∧ v.stor.bootFw = bootFirmware a.image ∧ v.ridge.attempt = none) ∧
    (exec .bootSourceTimeout s = .next (attemptFail s 2)) ∧
    (a.stage = .sfdp ∨ a.stage = .header ∨ a.stage = .body → exec .bootReadError s = .next (attemptFail s 6)) ∧
    (a.src = 5 → a.path = none → a.link < 15 → goes (exec .neighbourTurnTimeout s) { a with link := a.link + 1 }) ∧
    (a.src = 5 → a.path = none → a.link = 15 → exec .neighbourTurnTimeout s = .next (attemptFail s 2)) ∧
    (a.src = 4 → a.path = none → ∃ b, exec .networkBootTick s = .next { s with freeCtr := s.freeCtr + 1, out := .frame 0 b :: s.out } ∧ b.take 6 = List.replicate 6 0xFF) ∧
    (a.src ≤ 4 → a.path = none → k = a.slot + 1 → k ≤ 4 → slotSrc s k = src → 1 ≤ src → src ≤ 4 → r < 8 → getF s Fld.bootAttempts 0 < 2 ^ 32 - 1 →
      ∃ w, attemptFail s r = w ∧ getF w Fld.pwrBootStatLastSrc 0 = a.src ∧ getF w Fld.pwrBootStatLastResult 0 = r ∧ getF w Fld.pwrBootStatCurSrc 0 = src ∧
        getF w Fld.bootAttempts 0 = getF s Fld.bootAttempts 0 + 1 ∧ ∃ b, w.ridge.attempt = some b ∧ b.slot = k ∧ b.src = src ∧ b.image = []) ∧
    (a.src ≤ 4 → a.path = none → a.slot = 4 → s.ridge.firstCycle = false →
      ∃ w, attemptFail s r = w ∧ w.ridge.attempt = none ∧ w.ridge.failedCycles = s.ridge.failedCycles + 1 ∧ getF w Fld.pwrBootStatCycleActive 0 = 0 ∧
        w.ridge.backoffEnd = some (s.ftime + Nat.min (2 ^ s.ridge.failedCycles) 64 * 1000000000))

/-- Accelerators (03 R91 to R94, Table 3.5). -/
def Obligations.AcceleratorSteps : Prop :=
  ∀ (s : State) (n req : Nat), n < 16 →
    let shows (u : State) (en rst : Nat) (st : Nat) : Prop := getF u Fld.pwrAccStatPwrEn n = en ∧ getF u Fld.pwrAccStatRstN n = rst ∧ getF u Fld.pwrAccStatState n = st
    let idle : Prop := (accOf s n).step = 0 ∧ (accOf s n).request = 0 ∧ getF s Fld.pwrThermStatTripped 0 = 0
    let others (u : State) : Prop := ∀ k, k ≠ n → getReg u .pwrAccStat k = getReg s .pwrAccStat k ∧ accOf u k = accOf s k
    (idle → getF s Fld.pwrAccStatState n = 0 → ∃ u, exec (.accOnRequest n) s = .next u ∧ shows u 1 0 1 ∧ others u ∧ u.mem = s.mem ∧
      (accOf u n).step = (if getF s Fld.pwrAccStatPg n = 0 then 1 else 2)) ∧
    (idle → getF s Fld.pwrAccStatState n = 2 → ∃ u, exec (.accOnRequest n) s = .next u ∧ shows u 1 1 3 ∧ others u) ∧
    (idle → getF s Fld.pwrAccStatPwrEn n = 1 → ∃ u, exec (.accOffRequest n) s = .next u ∧ shows u 1 0 4 ∧ (accOf u n).step = 3 ∧ others u) ∧
    (idle → getF s Fld.pwrAccStatPwrEn n = 0 → exec (.accOffRequest n) s = .next s) ∧
    (idle → getF s Fld.pwrAccStatState n = 3 → ∃ u, exec (.accResetPulse n) s = .next u ∧ shows u 1 0 2 ∧ (accOf u n).step = 4 ∧ others u) ∧
    ((accOf s n).step = 1 → (accOf s n).request ≠ 2 → ∃ u, exec (.accPgRise n) s = .next u ∧ getF u Fld.pwrAccStatPg n = 1 ∧ accOf u n = { step := 2, request := 0 } ∧ others u) ∧
    ((accOf s n).step = 2 → (accOf s n).request = 0 → ∃ u, exec (.accRstDelayExpiry n) s = .next u ∧ shows u 1 1 3 ∧ (accOf u n).step = 0 ∧ others u) ∧
    ((accOf s n).step = 3 → (accOf s n).request = 0 → ∃ u, exec (.accOffDelayExpiry n) s = .next u ∧ shows u 0 0 0 ∧ (accOf u n).step = 0 ∧ others u) ∧
    ((accOf s n).step = 4 → (accOf s n).request = 0 → ∃ u, exec (.accPulseExpiry n) s = .next u ∧ shows u 1 1 3 ∧ (accOf u n).step = 0 ∧ others u) ∧
    ((accOf s n).step = 1 → ∃ u, exec (.accPgTimeout n) s = .next (raiseD u srcRidge { code := 0x0008, aux8 := n, aux16 := 1 }) ∧ shows u 0 0 5 ∧
      getF u Fld.pwrAccStatFaultCause n = 1 ∧ getF u Fld.pwrAccFaultCnt 0 = (getF s Fld.pwrAccFaultCnt 0 + 1) % 2 ^ 64 ∧ others u) ∧
    (getF s Fld.pwrAccStatPg n = 1 → getF s Fld.pwrAccStatPwrEn n = 1 → ∃ u, exec (.accPgLost n) s = .next (raiseD u srcRidge { code := 0x0008, aux8 := n, aux16 := 2 }) ∧
      shows u 0 0 5 ∧ getF u Fld.pwrAccStatFaultCause n = 2 ∧ getF u Fld.pwrAccStatPg n = 0 ∧ others u) ∧
    ((accOf s n).step ≠ 0 → 1 ≤ req → req ≤ 2 → getF s Fld.pwrThermStatTripped 0 = 0 →
      exec (if req = 1 then .accOnRequest n else .accOffRequest n) s = .next (setAcc s n { accOf s n with request := req })) ∧
    ((∀ k, k < 16 → getF s Fld.pwrAccStatPwrEn k = 0) → ∃ u, exec .thermtrip s = .next u ∧ getF u Fld.pwrThermStatTripped 0 = 1 ∧ ∀ k, getReg u .pwrAccStat k = getReg s .pwrAccStat k) ∧
    (n = 15 → (∀ k, k < 15 → getF s Fld.pwrAccStatPwrEn k = 0) → getF s Fld.pwrAccStatPwrEn 15 = 1 →
      ∃ u, exec .thermtrip s = .next (raiseD u srcRidge { code := 0x0008, aux8 := n, aux16 := 3 }) ∧ getF u Fld.pwrThermStatTripped 0 = 1 ∧ shows u 0 0 5 ∧ getF u Fld.pwrAccStatFaultCause n = 3)

/-- The chain (03 R65 to R77, Tables 3.1 to 3.3). -/
def Obligations.ChainFrames : Prop :=
  ∀ (s : State) (ad n r i why : Nat) (uid : Dword) (others : List Dword) (bytes : List Byte),
    let mine : Prop := chainMine s ad = true
    let free : Prop := inReset s = false ∧ getF s Fld.pwrChainAddrAddressed 0 = 0
    let locked : Prop := getF s Fld.pwrChainCtlCtlLock 0 = 1
    let answers (e : Host.Outcome State Fault Refusal) (cmd : Nat) (w body : List Byte) : Prop :=
      let p := leBytes 1 s.chain.lastStatus ++ leBytes 1 body.length ++ body
      e = .next { s with chain := { s.chain with lastStatus := 0 }, out := .chain (p ++ leBytes 1 (crc8 (chainWritePhase ad cmd w ++ leBytes 1 (2 * ad + 1) ++ p))) :: s.out }
    let leaves (u : State) (st : Nat) : State := { u with chain := { u.chain with lastStatus := st } }
    (free → (∀ u ∈ others, unitId s < u.toNat) → ∃ u f, exec (.assignQuery true others) s = .next u ∧ u.out = .chain f :: s.out ∧ (f.drop 2).take 8 = beBytes 8 (unitId s) ∧ u.mem = s.mem) ∧
    (free → uid.toNat = unitId s → 0x10 ≤ ad → ad ≤ 0x6B → ∃ u, exec (.assignSet true uid ad) s = .next u ∧ getF u Fld.pwrChainAddrAddress 0 = ad ∧ getF u Fld.pwrChainAddrAddressed 0 = 1 ∧
      getF u Fld.pwrChainAddrEnOut 0 = 1 ∧ u.chain.lastStatus = 0 ∧ (getF s Fld.pwrNodeIdWritten 0 = 0 → getF u Fld.pwrNodeIdNodeId 0 = 0x800 + ad - 0x10)) ∧
    (free → uid.toNat = unitId s → ad < 0x10 ∨ 0x6B < ad → ∃ u, exec (.assignSet true uid ad) s = .next u ∧ u.chain.lastStatus = 4 ∧ getF u Fld.pwrChainAddrAddressed 0 = 0) ∧
    (mine → answers (exec (.ident ad) s) 0x10 [] (beBytes 2 (getF s Fld.identIdVendorId 0) ++ beBytes 2 (getF s Fld.identIdDeviceId 0) ++ beBytes 1 0x10 ++ beBytes 1 ad ++
      beBytes 2 (nodeId s) ++ beBytes 8 (unitId s))) ∧
    (mine → answers (exec (.status ad) s) 0x11 [] (beBytes 4 (getReg s .pwrState 0).toNat ++ beBytes 4 (getReg s .bootAttempts 0).toNat ++ beBytes 4 (getReg s .pwrBootStat 0).toNat)) ∧
    (mine → i ≤ 0x0F → answers (exec (.sensorRead ad i) s) 0x12 (leBytes 1 i) (beBytes 2 (getReg s .pwrTemp i).toNat)) ∧
    (mine → i ≤ 7 → answers (exec (.sensorRead ad (0x20 + i)) s) 0x12 (leBytes 1 (0x20 + i)) (beBytes 2 (getF s Fld.pwrVmonMv i))) ∧
    (mine → answers (exec (.accStatus ad) s) 0x31 [] ((List.range 16).flatMap (fun k => leBytes 1 (getReg s .pwrAccStat k).toNat))) ∧
    (mine → s.chain.msgOut = bytes → bytes ≠ [] → bytes.length ≤ 254 →
      ∃ u f, exec (.mailboxRead ad) s = .next u ∧ u.chain.msgOut = [] ∧ u.out = .chain f :: s.out ∧ (f.drop 2).take (1 + bytes.length) = leBytes 1 1 ++ bytes) ∧
    (mine → bytes.length ≤ 254 → s.chain.msgIn = none → s.chain.msgEnded = false →
      exec (.mailboxWrite ad 0 bytes) s = .next { s with chain := { s.chain with lastStatus := 0, msgIn := some bytes, msgEnded := false } }) ∧
    (mine → ¬ locked → n < 16 → r ≤ 3 → exec (.accPower ad n r) s = .next (leaves (accRequest s n r) 0)) ∧
    (mine → ¬ locked → exec (.tarpForce ad) s = .next (leaves (tarpEnter s 6) 0) ∧ exec (.resetWarm ad 0xA5 0x5A) s = .next (resetEnd (warmResetCounted s)) ∧
      (why ≠ 0x5A → exec (.resetWarm ad 0xA5 why) s = .next (leaves s 4))) ∧
    (mine → locked → ∀ c ∈ [Instr.accPower ad n r, .tarpForce ad, .resetWarm ad i why], exec c s = .next (leaves (bump s Fld.pwrDeniedCnt 0) 5)) ∧
    (mine → s.ridge.roof = .awake → exec (.wake ad) s = .next (leaves (pmeEvent (pmeEvent s 0 0 0) 1 0 0) 0)) ∧
    (mine → s.ridge.roof = .asleep → exec (.wake ad) s = .next (leaves (roofSource s 1 []) 0)) ∧
    (mine → ∃ u, exec (.release ad) s = .next u ∧ getF u Fld.pwrChainAddrAddressed 0 = 0 ∧ getF u Fld.pwrChainAddrAddress 0 = 0 ∧ getF u Fld.pwrChainAddrEnOut 0 = 0 ∧
      (getF s Fld.pwrNodeIdWritten 0 = 0 → getF u Fld.pwrNodeIdNodeId 0 = 0xFFF)) ∧
    (mine → 1 ≤ why → why ≤ 3 → exec (.chainBadFrame ad why i false) s = .next (leaves (bump s Fld.pwrChainErrCnt 0) why)) ∧
    (exec .chainTimeout s = .next (bump s Fld.pwrChainTimeoutCnt 0)) ∧
    (chainMine s ad = false → ∀ c ∈ [Instr.ident ad, .status ad, .sensorRead ad i, .accStatus ad, .mailboxRead ad, .mailboxWrite ad i bytes, .accPower ad n r, .tarpForce ad, .resetWarm ad i why,
      .wake ad, .release ad, .chainBadFrame ad why i true], exec c s = .next s)

/-- Console and sensors (03 R79 to R90). -/
def Obligations.ConsoleAndSensors : Prop :=
  ∀ (s : State) (c : Byte) (stop e : Bool) (req : Requester) (v : Word) (rest : List (Byte × Bool)) (temps : List Half),
    (s.console.inBreak = true → exec (.consoleCharacter c stop) s = .next s) ∧
    (s.console.inBreak = false → s.console.rx.length < 64 → ∃ u, exec (.consoleCharacter c stop) s = .next u ∧ u.console.rx = s.console.rx ++ [(c, !stop)] ∧
      getF u Fld.pwrConStatRxLevel 0 = s.console.rx.length + 1 ∧ getF u Fld.pwrConFrameCnt 0 = (getF s Fld.pwrConFrameCnt 0 + if stop then 0 else 1) % 2 ^ 64 ∧ u.mem = s.mem) ∧
    (s.console.inBreak = false → s.console.rx.length = 64 → ∃ u, exec (.consoleCharacter c stop) s = .next u ∧ u.console = s.console ∧ getF u Fld.pwrConStatOvr 0 = 1 ∧
      getF u Fld.pwrConOverrunCnt 0 = (getF s Fld.pwrConOverrunCnt 0 + 1) % 2 ^ 64) ∧
    (s.console.rx = (c, e) :: rest → ∃ u, exec (.conRxRead req) s = .next u ∧ u.console.rx = rest ∧
      u.out = .answer req (some (BitVec.ofNat 64 (c.toNat + (if e then 0x100 else 0) + 0x200))) :: s.out) ∧
    (s.console.rx = [] → exec (.conRxRead req) s = .next { s with out := .answer req (some 0) :: s.out }) ∧
    (s.console.inBreak = false → s.console.rx.length < 64 → ∃ u, exec .consoleBreak s = .next (roofSource (raiseD u srcRidge { code := 0x0009 }) 2 []) ∧
      u.console.inBreak = true ∧ u.console.rx = s.console.rx ++ [(0, true)] ∧ getF u Fld.pwrConStatBrk 0 = 1 ∧ getF u Fld.pwrConBreakCnt 0 = (getF s Fld.pwrConBreakCnt 0 + 1) % 2 ^ 64) ∧
    (exec .consoleBreakEnd s = .next { s with console := { s.console with inBreak := false } }) ∧
    (s.console.tx.length < 64 → s.console.sending.isSome = true → ∃ u, exec (.conTxWrite req c) s = .next u ∧ u.console.tx = s.console.tx ++ [c] ∧
      getF u Fld.pwrConStatTxLevel 0 = s.console.tx.length + 1) ∧
    (s.console.tx = [] → s.console.sending = none → ∃ u, exec (.conTxWrite req c) s = .next u ∧ u.console.sending = some c ∧ u.console.tx = []) ∧
    (s.console.tx.length = 64 → exec (.conTxWrite req c) s = .next (bump s Fld.pwrConOverrunCnt 0)) ∧
    (s.console.sending = some c → s.console.logWaiting = 0 → s.console.tx = [] → ∃ u, exec .consoleTxCharacterSent s = .next u ∧ u.out = .con c :: s.out ∧
      u.console.sending = none ∧ (u.console.midLine = true ↔ c ≠ 0x0A) ∧ u.regs = s.regs) ∧
    (s.console.midLine = true → s.console.logWaiting = 0 → exec .consoleLineHoldExpiry s = .next { s with console := { s.console with holdLost := true } }) ∧
    (temps.length = 16 → (∀ i, i < 16 → temps[i]? = some tempNone) → ∃ u, exec (.sensorSample temps []) s = .next u ∧ getReg u .pwrTempMax 0 = 0x8000 ∧
      (∀ i, i < 16 → getReg u .pwrTemp i = 0x8000) ∧ getF u Fld.pwrThermStatLevel 0 = getF s Fld.pwrThermStatLevel 0) ∧
    (∀ t : Half, t ≠ tempNone → ∃ u, exec (.sensorSample [t] []) s = .next (thermSample u t 0) ∧ getReg u .pwrTempMax 0 = t.setWidth 64 ∧ getReg u .pwrTemp 0 = t.setWidth 64 ∧
      getReg u .pwrTemp 1 = 0x8000) ∧
    (let n := v.toNat
     let warn := n % 256
     let hard := n / 2 ^ 8 % 256
     let emerg := n / 2 ^ 16 % 256
     let clear := n / 2 ^ 24
     let fine : Prop := 70 ≤ warn ∧ warn ≤ 105 ∧ 80 ≤ hard ∧ hard ≤ 110 ∧ 90 ≤ emerg ∧ emerg ≤ 115 ∧ 60 ≤ clear ∧ clear ≤ 110 ∧ warn < hard ∧ hard < emerg ∧ clear < emerg
     (fine → exec (.thermThreshWrite req v) s = .next (setReg s .pwrThermThresh 0 (v.setWidth 64))) ∧
     (¬ fine → exec (.thermThreshWrite req v) s = .next (bump s Fld.pwrDeniedCnt 0)))

/-- The Ridge mailbox (07 R208 to R211, Table 7.10; 02 R58). -/
def Obligations.MailboxMessages : Prop :=
  ∀ (s : State) (p mac et : Nat) (bs blk : List Byte) (a : Attempt), s.host.ridgeQ = [(p, bs, mac)] →
    let body := msgPayload p bs
    let fits (n : Nat) : Prop := msgLen p bs = n ∧ body.length = n
    let answered (u : State) (st : Nat) (out : List Byte) : State :=
      let r := respond u p mac (msgType bs) (msgSeq p bs) st out
      { r with host := { r.host with ridgeQ := [] } }
    let answers (e : Host.Outcome State Fault Refusal) (st : Nat) (out : List Byte) : Prop := e = .next (answered s st out)
    let locked : Prop := (p = 2 ∨ p = 3) ∧ getF s Fld.pwrChainCtlCtlLock 0 = 1
    (msgType bs = 0x01 → fits 0 → answers (exec .mbxPing s) 0 (pingPayload s)) ∧
    (msgType bs = 0x01 → 1 ≤ msgLen p bs → answers (exec .mbxPing s) 2 []) ∧
    (msgType bs = 0x02 → fits 0 → answers (exec .mbxStatus s) 0 (statusPayload s)) ∧
    (msgType bs = 0x20 → fits 0 → exec .logRead s = .next (answered { s with host := { s.host with log := s.host.log.drop 4080 } } 0 (s.host.log.take 4080))) ∧
    (msgType bs = 0x30 → fits 0 → ¬ locked → exec .mbxTarpForce s = .next (mbxReply (tarpEnter s 6) 0 [])) ∧
    (msgType bs = 0x31 → fits 2 → ¬ locked → body = [0xA5, 0x5A] → exec .mbxResetWarm s = .next (resetEnd (warmResetCounted (answered s 0 [])))) ∧
    (msgType bs = 0x31 → fits 2 → ¬ locked → body ≠ [0xA5, 0x5A] → answers (exec .mbxResetWarm s) 2 []) ∧
    (msgType bs = 0x32 → fits 2 → ¬ locked → leAt body 0 1 < 16 → leAt body 1 1 ≤ 3 → exec .mbxAccPower s = .next (mbxReply (accRequest s (leAt body 0 1) (leAt body 1 1)) 0 [])) ∧
    (locked → (msgType bs = 0x30 → fits 0 → exec .mbxTarpForce s = .next (answered (bump s Fld.pwrDeniedCnt 0) 5 [])) ∧
      (msgType bs = 0x31 → fits 2 → exec .mbxResetWarm s = .next (answered (bump s Fld.pwrDeniedCnt 0) 5 [])) ∧
      (msgType bs = 0x32 → fits 2 → exec .mbxAccPower s = .next (answered (bump s Fld.pwrDeniedCnt 0) 5 []))) ∧
    (msgType bs = 0x10 → fits 8 → s.ridge.attempt = some a → a.path = none → pushPath a p = true →
      exec .bootBegin s = .next (answered (setAttempt s (some { a with path := some p, stage := .header, size := leAt body 0 8, image := [] })) 0 [])) ∧
    (msgType bs = 0x10 → fits 8 → s.ridge.attempt = none → answers (exec .bootBegin s) 6 (statusPayload s)) ∧
    (msgType bs = 0x11 → msgLen p bs = body.length → 9 ≤ body.length → body.length ≤ 4080 → s.ridge.attempt = some a → a.path = some p → a.stage ≠ .hashing →
      leAt body 0 8 = a.image.length → a.image.length + (body.drop 8).length ≤ a.size →
      exec .bootBlock s = .next (answered (setAttempt s (some { a with image := a.image ++ body.drop 8 })) 0 [])) ∧
    (msgType bs = 0x11 → msgLen p bs = body.length → 9 ≤ body.length → body.length ≤ 4080 → s.ridge.attempt = some a → a.path = some p → a.stage ≠ .hashing →
      leAt body 0 8 ≠ a.image.length → answers (exec .bootBlock s) 3 []) ∧
    (msgType bs = 0x12 → msgLen p bs = 0 → s.ridge.attempt = some a → a.path = some p → a.stage = .body → a.size = a.image.length → a.size = leAt a.image 8 8 →
      exec .bootEnd s = .next (setAttempt s (some { a with stage := .hashing }))) ∧
    (msgType bs = 0x12 → msgLen p bs = 0 → s.ridge.attempt = some a → a.path = some p → a.stage = .body → a.image.length < a.size → answers (exec .bootEnd s) 3 []) ∧
    (et ≠ 0x88B5 → exec (.barePortFrame et mac blk) s = .next s) ∧
    (inReset s = false → s.ridge.barePort = true → 16 ≤ blk.length →
      exec (.barePortFrame 0x88B5 mac blk) s = .next (mbxArrive (roofSource (pmeEvent (pmeEvent s 0 0 1) 1 0 1) 6 []) 3 blk mac))

/-- The reload of a bay (04 R107, R110 to R118). -/
def Obligations.ThatchReloadSteps : Prop :=
  ∀ (s : State) (req : Requester) (b d c : Nat) (auto ok : Bool) (img : List Byte),
    let open_ : Prop := hostClosed s req = false ∧ Requester.isPf req = true
    let stage (n : Nat) : State := { s with thatch := { s.thatch with stage := n } }
    let fails (c : Nat) : State := { s with thatch := { s.thatch with stage := 5, failResult := c } }
    let begun : State := { setReg s .thatchStat 0 (BitVec.ofNat 64 (1 + b * 256)) with
      thatch := { s.thatch with stage := 1, auto := auto, failResult := 0, staging := [] } }
    (open_ → bayExists s b = true → phase s = 0 → 0 < srcLen s → srcLen s ≤ 0x40000000 → srcLen s % 64 = 0 → exec (.thatchReload req b auto) s = .next (strike begun b)) ∧
    (open_ → bayExists s b = true → phase s = 0 → srcLen s = 0 ∨ srcLen s % 64 ≠ 0 →
      exec (.thatchReload req b auto) s = .next (strike { begun with thatch := { begun.thatch with stage := 5, failResult := 3 } } b)) ∧
    (open_ → bayExists s b = true → phase s ≠ 0 → exec (.thatchReload req b auto) s = .next (setF s Fld.thatchStatResult 0 2)) ∧
    (hostClosed s req = false → Requester.isPf req = false ∨ bayExists s b = false → ∀ i ∈ [Instr.thatchReload req b auto, .thatchCommitOp req b, .thatchCancel req b],
      exec i s = .next (bump s Fld.thatchDeniedCnt 0)) ∧
    (hostClosed s req = false → Requester.bay s req = some b → (bayOf s b).struck = true → (bayOf s b).quiesced = false →
      ∃ u, exec (.thatchQuiesce req b true) s = .next u ∧ (bayOf u b).quiesced = true ∧ u.regs = s.regs ∧
        ∀ t, tidRafter t ∈ raftersOf s b → (threadOf u t).st = .stopped) ∧
    (phase s = 1 → s.thatch.stage = 1 → srcReadable s = true → (fetched s img).length = srcLen s →
      let u : State := { s with thatch := { s.thatch with staging := fetched s img } }
      let c := checks24 u (.reload (curBay s) (srcLen s)) (fetched s img)
      exec (.thatchFetchDone true img) s =
        .next { u with thatch := if c = 1 then { u.thatch with stage := 2 } else { u.thatch with stage := 5, failResult := c } }) ∧
    (phase s = 1 → s.thatch.stage = 1 → exec (.thatchFetchDone false img) s = .next (fails 12)) ∧
    (phase s = 1 → s.thatch.stage = 2 → let c := check5 s.stor.usable s.thatch.staging ok
      exec (.thatchSignaturesDone ok) s = .next (if c = 1 then stage 3 else fails c)) ∧
    (phase s = 1 → s.thatch.stage = 3 → s.ridge.loading = false → let c := if check6 s s.thatch.staging = 1 then checks710 s s.thatch.staging else 7
      exec .thatchChecksDone s = .next (if c = 1 then stage 4 else fails c)) ∧
    (s.thatch.stage = 3 → s.ridge.loading = true → checks710 s s.thatch.staging ≠ 1 → exec .thatchChecksDone s = .next (fullLoadFail s (checks710 s s.thatch.staging) 2)) ∧
    (phase s = 1 → s.thatch.stage = 5 → (bayOf s (curBay s)).quiesced = true → s.thatch.failResult = c → c ≠ 13 →
      exec .strikeLift s = .next (bump (raiseD (reloadOver (endStrike s (curBay s) 3) c) srcThatch { code := 0x0103, bay := curBay s, aux8 := c }) Fld.thatchRefuseCnt 0)) ∧
    (phase s ≠ 0 → (bayOf s (curBay s)).struck = true → (bayOf s (curBay s)).quiesced = false → s.rings.ops = [] →
      ∃ u, exec .drainLimitExpiry s = .next u ∧ getF u Fld.thatchStatForcedDrain 0 = 1 ∧ getF u Fld.thatchForcedDrainCnt 0 = (getF s Fld.thatchForcedDrainCnt 0 + 1) % 2 ^ 64 ∧
        (bayOf u (curBay s)).quiesced = true ∧ u.ftime = Nat.max s.ftime ((bayOf s (curBay s)).struckAt + getF s Fld.thatchDrainLimit 0 * 1000000)) ∧
    ((bayOf s b).struck = true → getF s Fld.thatchBayStatHoldExpired b = 0 → s.rings.ops = [] →
      ∃ u, exec (.holdLimitExpiry b) s = .next (raiseD u srcThatch { code := 0x0104, bay := b, arg0 := (envOf s b).holdLimitMs }) ∧ getF u Fld.thatchBayStatHoldExpired b = 1 ∧
        u.ftime = Nat.max s.ftime ((bayOf s b).struckAt + (envOf s b).holdLimitMs * 1000000)) ∧
    (s.thatch.stage = 4 → s.ridge.loading = false → phase s = 1 → (bayOf s (curBay s)).quiesced = true →
      exec .thatchApplyStart s = .next (applyBay s.thatch.staging (envOf s (curBay s)) (setPhase s 2) (curBay s))) ∧
    (phase s = 2 → s.ridge.loading = false → s.thatch.auto = false → ∃ u, exec (.thatchApplyDone true) s = .next u ∧ phase u = 3 ∧ getF u Fld.thatchBayStatState (curBay s) = 3 ∧ u.mem = s.mem) ∧
    (phase s = 2 → s.ridge.loading = false → s.thatch.auto = true → exec (.thatchApplyDone true) s = .next (commitReload s)) ∧
    (phase s = 2 → s.ridge.loading = true → exec (.thatchApplyDone true) s = .next (commitFull (setPhase s 0))) ∧
    (phase s = 2 → s.ridge.loading = false → exec (.thatchApplyDone false) s = .next (tarpEnter (setF s Fld.thatchStatResult 0 14) 2)) ∧
    (open_ → bayExists s b = true → phase s = 3 → curBay s = b → exec (.thatchCommitOp req b) s = .next (commitReload s)) ∧
    (open_ → bayExists s b = true → phase s = 1 → curBay s = b → exec (.thatchCancel req b) s = .next (fails 13)) ∧
    (open_ → bayExists s b = true → phase s = 3 → curBay s = b →
      exec (.thatchCancel req b) s = .next (setStage (setPhase (applyBay (storedImage s b) (envOf s b) s b) 6) 0)) ∧
    (phase s = 6 → exec (.thatchReapplyDone true) s = .next (reloadOver (endStrike s (curBay s) 6) 13) ∧
      exec (.thatchReapplyDone false) s = .next (tarpEnter (setF s Fld.thatchStatResult 0 14) 2)) ∧
    (d < 79 → (domOf s d).phase = .waking → domState s d = 3 → phase s ≠ 2 →
      ∃ u, exec (.pllLockTimeout d) s = .next u ∧ (domOf u d).phase = .stable ∧ domState u d = 3 ∧ getF u Fld.pwrDomStatInTransition d = 0)

/-- Access codes (00 R12 to R14, Table 0.5), over the whole register map. -/
def Obligations.RegisterFieldWrites : Prop :=
  ∀ (s : State) (r : Reg) (i v : Nat),
    let u := putFields s r i v
    let old := getReg s r i
    let new := getReg u r i
    (∀ f ∈ r.desc.fields, let x := fieldOf v f.hi f.lo
      fieldOf new.toNat f.hi f.lo = (match f.acc with
        | .rw | .rwl => if f.min ≤ x ∧ x ≤ f.max then x else fieldOf old.toNat f.hi f.lo
        | .w1c => fieldOf old.toNat f.hi f.lo &&& (x ^^^ (2 ^ (f.hi - f.lo + 1) - 1))
        | .ro | .rc | .wo => fieldOf old.toNat f.hi f.lo)) ∧
    (∀ k, (∀ f ∈ r.desc.fields, k < f.lo ∨ f.hi < k) → new.getLsbD k = old.getLsbD k) ∧
    (∀ r' i', (r', i') ≠ (r, i) → getReg u r' i' = getReg s r' i') ∧
    u.mem = s.mem ∧ u.rafters = s.rafters ∧ u.rings = s.rings ∧ u.out = s.out

/-- Control-space accesses (00 R10, R11, R464; 02 R58, R59). -/
def Obligations.ControlSpaceWrites : Prop :=
  ∀ (s : State) (req : Requester) (off size i bay est : Nat) (r : Reg) (v : Dword) (n : Word) (wr : Bool),
    let w := if size = 4 then v &&& 0xFFFFFFFF else v
    let openHere : Prop := ctlOpen off = true ∨ hostClosed s req = false
    let counted := bump s Fld.identMisalignCnt 0
    let outside : Prop := off < 0x100000 ∨ 0x108800 ≤ off
    (ctlBad off size wr = true → outside → ∀ t, req = .thread t → (threadOf s t.toNat).st = .ready →
      exec (.misalignedControlAccess req off size wr v) s = .next (trap counted t.toNat { cause := 2, v0 := BitVec.ofNat 64 (0x40000000 + off) }) ∧
      (wr = true → exec (.registerWrite req off size v) s = .next (trap counted t.toNat { cause := 2, v0 := BitVec.ofNat 64 (0x40000000 + off) }))) ∧
    (ctlBad off size true = true → outside → ∀ e, req = .pf e →
      exec (.registerWrite req off size v) s = .next counted ∧ exec (.misalignedControlAccess req off size true v) s = .next counted) ∧
    (ctlBad off 8 false = true → outside → ∀ e, req = .pf e →
      exec (.misalignedControlAccess req off 8 false v) s = .next { counted with out := .answer req (some 0xFFFFFFFFFFFFFFFF) :: counted.out }) ∧
    (ctlBad off size wr = false → exec (.misalignedControlAccess req off size wr v) s = .next s) ∧
    (ctlBad off size true = false → openHere → Reg.at? off = none → exec (.registerWrite req off size v) s = .next s) ∧
    (ctlBad off size true = false → ctlOpen off = false → hostClosed s req = true → exec (.registerWrite req off size v) s = .next (bump s Fld.pwrTarpDiscardCnt 0)) ∧
    (ctlBad off size true = false → openHere → Reg.at? off = some (r, i) → exec (.registerWrite req off size v) s = .next (regWrite s req r i w)) ∧
    (Requester.isPf req = true → r ∈ [Reg.admPoolTgt, .swCtl, .xptRetry, .xptMaxOut, .pwrRoofTimer, .pwrRoofWakeEn, .pwrBootOrder] → regWrite s req r 0 w = putFields s r 0 w.toNat) ∧
    (Requester.isPf req = false → regWrite s req .admPoolCap i w = bump s Fld.admDeniedCnt 0 ∧ regWrite s req .swPortCfg i w = bump s Fld.trussDeniedCnt 0 ∧
      regWrite s req .thatchSrcLen i w = bump s Fld.thatchDeniedCnt 0 ∧ regWrite s req .ulCfg i w = bump s Fld.ulDeniedCnt 0 ∧ regWrite s req .gutSrc i w = bump s Fld.gutDeniedCnt 0 ∧
      regWrite s req .nawynTimeCtl i w = bump s Fld.nawynDeniedCnt 0) ∧
    (∀ e, req = .pf e → n.toNat % 4096 ≠ 0xFFF → ∃ u, exec (.nodeIdWrite req n) s = .next u ∧ getF u Fld.pwrNodeIdNodeId 0 = n.toNat % 4096 ∧ getF u Fld.pwrNodeIdWritten 0 = 1 ∧ u.mem = s.mem) ∧
    (∀ e, req = .pf e → n.toNat % 4096 = 0xFFF → exec (.nodeIdWrite req n) s = .next s) ∧
    (∃ u, exec (.chainReleaseWrite req n) s = .next u ∧ getF u Fld.pwrChainAddrAddressed 0 = 0 ∧ getF u Fld.pwrChainAddrEnOut 0 = 0 ∧ getF u Fld.pwrChainCtlCtlLock 0 = n.toNat % 2) ∧
    (bayExists s bay = true → (envOf s bay).powerBudget < est → ∃ u, exec (.powerBudgetTick bay est) s = .next u ∧ u.regs = s.regs ∧ u.mem = s.mem ∧
      (bayOf u bay).capMhz = Nat.max 100 ((if (bayOf s bay).capMhz = 0 then 2600 else (bayOf s bay).capMhz) - 100))

/-- Endpoints (07 R186 to R188, R201 to R207), root ports (07 R213). -/
def Obligations.HostLinksAndStops : Prop :=
  ∀ (s : State) (ep fn speed width : Nat) (flit sris : Bool) (nss : List (Nat × Bool × Nat)) (cls port : Nat), ep < 2 → fn < 256 → port < 8 →
    let up : Prop := getF s Fld.identEpLinkLinkUp ep = 1
    let calm : Prop := (∀ q, q < 4096 → getF s Fld.qpStatState q = 0) ∧ cfgBit s ep 0 cfgSriov 0 = false
    let stopped (u : State) (n c : Nat) : Prop := (fnOf u ep n).stopCause = c
    (¬ up → getF s Fld.identEpDstatePerst ep = 0 → width ∈ [1, 2, 4, 8, 16] → 1 ≤ speed → speed ≤ 6 →
      ∃ u, exec (.epLinkUp ep speed width flit) s = .next (poolsSettle (raiseD u (some (38 + ep)) { code := 0x0203, aux8 := ep, aux16 := (getReg u .identEpLink ep).toNat % 65536 })) ∧
        getF u Fld.identEpLinkLinkUp ep = 1 ∧ getF u Fld.identEpLinkSpeed ep = speed ∧ getF u Fld.identEpLinkWidth ep = width ∧ getF u Fld.identEpLinkL0pWidth ep = width ∧
        getF u Fld.identEpLinkFlitMode ep = (if flit ∨ speed = 6 then 1 else 0) ∧ u.mem = s.mem) ∧
    (up → exec (.epLinkDown ep) s = .next (epLinkLost s ep)) ∧
    (up → cfgBit s ep 0 cfgSriov 0 = false → exec (.linkHotReset ep) s = .next (let v := ideReset (resetFns (failRequests (stopFns s ep [0] 3) ep 3 true) ep [0]) ep
        setEp v ep { epOf v ep with l1 := 0, ats := [], atsOwed := 0 })) ∧
    (getF s Fld.identEpDstatePerst ep = 0 → ¬ up → calm → (fnOf s ep 0).stopCause = 0 →
      ∃ u, exec (.perstAssert ep) s = .next u ∧ getF u Fld.identEpDstatePerst ep = 1 ∧ getF u Fld.identEpDstateDstate ep = 0 ∧ stopped u 0 5 ∧ (fnOf u ep 0).unmasked = [] ∧ u.mem = s.mem) ∧
    (getF s Fld.identEpDstatePerst ep = 1 → s.ridge.roof = .awake → ∃ u, exec (.perstDeassert ep sris) s = .next u ∧ getF u Fld.identEpDstatePerst ep = 0 ∧ (epOf u ep).sris = sris ∧
      (if ep = 0 then u.ridge.wakeN.1 else u.ridge.wakeN.2) = false) ∧
    (up → calm → fn = 0 → (fnOf s ep 0).inFlr = false → (fnOf s ep 0).stopCause = 0 → ∃ u, exec (.flr ep fn) s = .next u ∧ stopped u 0 1 ∧ (fnOf u ep 0).inFlr = true ∧ u.mem = s.mem) ∧
    (calm → fn = 0 → (fnOf s ep 0).inFlr = true → (fnOf s ep 0).stopCause = 0 →
      ∃ u, exec (.flrDone ep fn) s = .next u ∧ (fnOf u ep 0).inFlr = false ∧ (fnOf u ep 0).unmasked = [] ∧ (fnOf u ep 0).dstate = 0 ∧ (∀ o, cfgSticky 0 o = false → cfgWord u ep 0 o = cfgReset 0 o)) ∧
    ((fnOf s ep fn).stopCause = speed → speed ≠ 0 → s.rings.ops = [] → (∀ q, q < 4096 → getF s Fld.qpStatState q = 0) → fn = 0 →
      ∃ u, exec (.functionStopDone ep fn) s =
        .next (raiseD u (some (38 + ep)) { code := 0x0201, aux8 := speed, aux16 := (Config.epBus ep).toNat * 256 + fn, arg0 := 0, arg1 := ep }) ∧ stopped u fn 0 ∧ u.mem = s.mem) ∧
    (up → calm → cfgBit s ep 0 cfgCommand 2 = true → (fnOf s ep 0).stopCause = 0 → ∃ u, exec (.busMasterEnableClear ep 0) s = .next u ∧ stopped u 0 6 ∧ cfgBit u ep 0 cfgCommand 2 = false ∧ u.mem = s.mem) ∧
    (up → cfgBit s ep 0 cfgSriov 0 = true → (∀ q, q < 4096 → getF s Fld.qpStatState q = 0) → (∀ n, (fnOf s ep n).stopCause = 0) →
      ∃ u, exec (.vfEnableClear ep) s = .next u ∧ cfgBit u ep 0 cfgSriov 0 = false ∧ (∀ n, 1 ≤ n → fnExists s ep n = true → stopped u n 2) ∧ u.mem = s.mem) ∧
    (up → calm → (fnOf s ep 0).dstate = 0 → (fnOf s ep 0).stopCause = 0 →
      ∃ u, exec (.d3hotEntry ep 0) s = .next u ∧ (fnOf u ep 0).dstate = 3 ∧ getF u Fld.identEpDstateDstate ep = 3 ∧ (epOf u ep).l1 = 1 ∧ stopped u 0 7 ∧ u.mem = s.mem) ∧
    (up → calm → (fnOf s ep 0).dstate = 3 → (fnOf s ep 0).pba = [] → s.ridge.roof = .awake →
      ∃ u, exec (.d0Return ep 0) s = .next u ∧ (fnOf u ep 0).dstate = 0 ∧ getF u Fld.identEpDstateDstate ep = 0 ∧ (epOf u ep).l1 = 0 ∧ u.mem = s.mem) ∧
    (up → (fnOf s ep fn).dstate = 3 → (fnOf s ep fn).pmeStatus = true → exec (.pmeResend ep fn) s = .next { s with out := .pme ep fn :: s.out }) ∧
    (up → getF s Fld.identEpLinkL0pWidth ep = 16 → ∃ u, exec (.l0pWidthHalving ep) s = .next u ∧ getF u Fld.identEpLinkL0pWidth ep = 8 ∧ u.mem = s.mem) ∧
    (up → getF s Fld.identEpLinkL0pWidth ep ≤ 4 → exec (.l0pWidthHalving ep) s = .next s) ∧
    (up → ∃ u, exec (.l0pWidthRestore ep) s = .next u ∧ getF u Fld.identEpLinkL0pWidth ep = getF s Fld.identEpLinkWidth ep ∧ u.mem = s.mem) ∧
    (up → getF s Fld.identEpDstateDstate ep = 3 → ∃ u, exec (.clkreqNDeassert ep) s = .next u ∧
      (epOf u ep).l1 = (if cfgBit s ep 0 cfgL1ss 0 = true then 3 else if cfgBit s ep 0 cfgL1ss 1 = true then 2 else 1) ∧ u.regs = s.regs) ∧
    ((Tab.get {} s.host.rootPorts port).up = false → ∃ u, exec (.rpLinkUp port false false 0x010802 []) s = .next u ∧ (Tab.get {} u.host.rootPorts port).up = true ∧ u.regs = s.regs) ∧
    ((Tab.get {} s.host.rootPorts port).up = false → cls ≠ 0x010802 → ∃ u, exec (.rpLinkUp port false false cls nss) s = .next (raiseD u srcStor { code := 0x0205, aux8 := port }) ∧
      (Tab.get {} u.host.rootPorts port).up = false ∧ (Tab.get {} u.host.rootPorts port).disabled = true) ∧
    ((Tab.get {} s.host.rootPorts port).up = true → ∃ u, (Tab.get {} u.host.rootPorts port).up = false ∧
      exec (.rpLinkDown port) s = .next (ulPortLost (ssdLost (raiseD u srcStor { code := 0x0204, aux8 := port }) port) port))

/-- Host accesses (07 R189 to R199, R212). -/
def Obligations.HostAccesses : Prop :=
  ∀ (s : State) (ep fn off n vec op k : Nat) (v : Word) (dv : Dword) (be : BitVec 4) (tid : Tid) (bytes : List Byte), ep < 2 → fn < 256 →
    let up : Prop := getF s Fld.identEpLinkLinkUp ep = 1
    let lanes := laneMask be
    let i := off / 2 ^ 30
    let a := getF s Fld.identEpAperBase (256 * ep + i) * 2 ^ 30 + off % 2 ^ 30
    let through : Prop := up ∧ off < 256 * 2 ^ 30 ∧ 1 ≤ n ∧ n ≤ 4096 ∧ hostUp s ep = true
    (up → fnExists s ep fn = true → fn ≠ 0 → off = 0x0C → ∃ u, exec (.configWrite ep fn off v be) s = .next u ∧
      cfgWord u ep fn off = ((cfgWord s ep fn off &&& ~~~(0xFF &&& lanes)) ||| (v &&& (0xFF &&& lanes))) ∧ (∀ o, o ≠ off → cfgWord u ep fn o = cfgWord s ep fn o) ∧ u.regs = s.regs ∧ u.mem = s.mem) ∧
    (up → off = 0x00 → ∃ u, exec (.configWrite ep 0 off v be) s = .next u ∧ ∀ o, cfgWord u ep 0 o = cfgWord s ep 0 o) ∧
    (up → fnExists s ep fn = false → exec (.configWrite ep fn off v be) s = .next s) ∧
    (through → mode s = 1 → getF s Fld.identEpAperWrEn (256 * ep + i) = 1 → openMem s a n = true → bytes.length = n → domUp s 74 = true →
      ∃ u, exec (.apertureAccess ep off n true bytes) s = .next u ∧ (∀ j (h : j < bytes.length), readByte u (a + j) = bytes[j]) ∧ (∀ b, b < a ∨ a + n ≤ b → readByte u b = readByte s b) ∧ u.out = s.out) ∧
    (through → mode s = 1 → getF s Fld.identEpAperRdEn (256 * ep + i) = 1 → openMem s a 8 = true → n = 8 →
      ∃ u, exec (.apertureAccess ep off 8 false bytes) s = .next u ∧ (∃ w, u.out = .answer (.pf ep) (some w) :: (touchPurlin s).out ∧ w = BitVec.ofNat 64 (leNat (readBytes (touchPurlin s) a 8))) ∧ u.mem = (touchPurlin s).mem) ∧
    (through → mode s = 1 → getF s Fld.identEpAperWrEn (256 * ep + i) = 0 → exec (.apertureAccess ep off n true bytes) s = .next (bump s Fld.identEpAperFaultCnt ep)) ∧
    (through → mode s ≠ 1 → exec (.apertureAccess ep off n true bytes) s = .next (bump s Fld.pwrTarpDiscardCnt 0)) ∧
    (hostUp s ep = true → fn ≠ 0 → fnExists s ep fn = true → mode s = 1 → ctrlOfFn s ep fn = none →
      let q := getF s Fld.identEpVfQpFirst (256 * ep + fn) + k
      (k < getF s Fld.identEpVfQpCount (256 * ep + fn) → q < 4096 → qpKind s q = 0 → getF s Fld.qpCtlEp q = ep → getF s Fld.qpCtlFunc q = fn →
        exec (.vfDoorbellWrite ep fn (0x1000 + 8 * k) dv) s = .next (qpDoorbell s q dv)) ∧
      (getF s Fld.identEpVfQpCount (256 * ep + fn) ≤ k → exec (.vfDoorbellWrite ep fn (0x1000 + 8 * k) dv) s = .next (bump s Fld.identEpDbDiscardCnt ep))) ∧
    (cfgBit s ep 0 cfgSriov 0 = false → v.toNat / 256 % 256 + getF s Fld.identEpVfStorageCount (1 - ep) ≤ 128 → 1 ≤ v.toNat % 256 →
      ∃ u, exec (.vfStorageWrite (.pf ep) ep v) s = .next u ∧ getF u Fld.identEpVfStorageFirst ep = v.toNat % 256 ∧ getF u Fld.identEpVfStorageCount ep = v.toNat / 256 % 256 ∧ u.mem = s.mem) ∧
    (cfgBit s ep 0 cfgSriov 0 = true → exec (.vfStorageWrite (.pf ep) ep v) s = .next (bump s Fld.identHostDeniedCnt 0)) ∧
    (hostUp s ep = true → fnExists s ep fn = true → vec < 32 → (fnOf s ep fn).pba = [vec] →
      (let u := setFn s ep fn { fnOf s ep fn with unmasked := insertNat vec (fnOf s ep fn).unmasked }
       vecOpen u ep fn vec = true → ∃ w, exec (.msixUnmask ep fn vec) s = .next w ∧ w.out = .msix ep fn vec :: s.out ∧ (fnOf w ep fn).pba = [] ∧ vec ∈ (fnOf w ep fn).unmasked ∧ w.regs = s.regs)) ∧
    (up → ∃ u, exec (.atsInvalidate ep fn (4096 * k) 4096) s = .next u ∧ (fn, k) ∉ (epOf u ep).ats ∧ (epOf u ep).atsOwed = (epOf s ep).atsOwed + 1 ∧
      (∀ e, e ∈ (epOf s ep).ats → e.1 ≠ fn → e ∈ (epOf u ep).ats) ∧ u.regs = s.regs) ∧
    (1 ≤ (epOf s ep).atsOwed → ∃ u, exec (.atsInvalidateCompletion ep) s = .next u ∧ u.out = .atsDone ep :: s.out ∧ (epOf u ep).atsOwed = (epOf s ep).atsOwed - 1 ∧ u.regs = s.regs) ∧
    (tid.toNat ∈ hostThreads s ep → exec (.completionTimeout ep (some tid) op) s = .next (failHeld s tid.toNat 2)) ∧
    (op ∈ hostCopies s ep → exec (.completionTimeout ep none op) s = .next (finishOp s op stHostError 0 2))

/-- Rings (08 R215 to R218). -/
def Obligations.RingEnableAndStop : Prop :=
  ∀ (s : State) (req : Requester) (t : Tid) (n op : Nat) (o : Op), Requester.isPf req = true → mode s = 1 →
    ((getF s Fld.qpStatState n = 0 ∨ getF s Fld.qpStatState n = 3) → qpEnableOk s n = true → ∃ u, exec (.ringEnable req false n) s = .next u ∧
      getF u Fld.qpStatState n = 1 ∧ getF u Fld.qpCtlEnable n = 1 ∧ getF u Fld.qpSqHead n = 0 ∧ getF u Fld.qpSqTail n = 0 ∧ getF u Fld.qpCqHead n = 0 ∧ getF u Fld.qpCqTail n = 0 ∧
      getF u Fld.qpCqTailPhase n = 1 ∧ getF u Fld.qpStatCqFull n = 0 ∧ getF u Fld.qpCtlKind n = getF s Fld.qpCtlKind n ∧ (∀ r i, i ≠ n → getReg u r i = getReg s r i) ∧
      u.mem = s.mem ∧ u.out = s.out ∧ u.rings.ops = s.rings.ops) ∧
    (getF s Fld.qpStatState n = 0 → qpEnableOk s n = false → exec (.ringEnable req false n) s = .next (bump s Fld.admDeniedCnt 0)) ∧
    (getF s Fld.evrCtlEnable n = 0 → evrEnableOk s n = true → s.ridge.exitOwed = false → ∃ u, exec (.ringEnable req true n) s = .next u ∧
      getF u Fld.evrCtlEnable n = 1 ∧ getF u Fld.evrTail n = 0 ∧ getF u Fld.evrHead n = 0 ∧ getF u Fld.evrTailPhase n = 1 ∧ getF u Fld.evrStatFull n = 0 ∧ getF u Fld.evrStatLost n = 0 ∧
      (∀ r i, i ≠ n → getReg u r i = getReg s r i) ∧ u.mem = s.mem ∧ u.out = s.out) ∧
    (getF s Fld.qpStatState n = 1 → ∃ u, exec (.ringDisable req false n) s = .next u ∧ getF u Fld.qpStatState n = 2 ∧ getF u Fld.qpCtlEnable n = 0 ∧
      getF u Fld.qpSqHead n = getF s Fld.qpSqHead n ∧ (∀ r i, i ≠ n → getReg u r i = getReg s r i) ∧ u.rings = s.rings ∧ u.mem = s.mem) ∧
    (getF s Fld.qpStatState n ≠ 1 → exec (.ringDisable req false n) s = .next s) ∧
    (∃ u, exec (.ringDisable req true n) s = .next u ∧ getF u Fld.evrCtlEnable n = 0 ∧ (∀ r i, i ≠ n → getReg u r i = getReg s r i) ∧ u.mem = s.mem) ∧
    (bayOfTid s t.toNat ≠ bayOfQp s n → exec (.ringEnable (.thread t) false n) s = .next (bump s Fld.admDeniedCnt 0) ∧
      exec (.ringDisable (.thread t) false n) s = .next (bump s Fld.admDeniedCnt 0)) ∧
    (getF s Fld.qpStatState n = 2 → (∀ ep fn, qpOwner s n = some (ep, fn) → (fnOf s ep fn).stopCause = 0) →
      (qpOps s n = [] → ∃ u, exec (.ringStopDone false n) s = .next u ∧ getF u Fld.qpStatState n = 0 ∧ (∀ r i, i ≠ n → getReg u r i = getReg s r i) ∧ u.rings = s.rings ∧ u.mem = s.mem) ∧
      (qpOps s n = [op] → opOf s op = some o → o.st = .committed → exec (.ringStopDone false n) s = .next s) ∧
      (qpOps s n = [op] → opOf s op = some o → o.st ≠ .committed → exec (.ringStopDone false n) s =
        .next (if (qpOps (finishOp s op stAborted 0 0) n).isEmpty then setF (finishOp s op stAborted 0 0) Fld.qpStatState n 0 else finishOp s op stAborted 0 0)))

/-- Doorbells and notices (08 R219 to R224). -/
def Obligations.DoorbellsAndNotices : Prop :=
  ∀ (s : State) (req : Requester) (n e : Nat) (v : Dword),
    let t := v.toNat % 65536
    let h := v.toNat / 2 ^ 32 % 65536
    let on : Prop := getF s Fld.qpStatState n = 1
    (mode s = 1 → on → v.getLsbD 31 = true → v.getLsbD 63 = false → t < qpDepth s n →
      (∃ w, exec (.doorbellWrite req n v) s = .next (latchWake (writeGlobal w (bitDoorbell n) true) (getF w Fld.qpCtlServiceRafter n) 1) ∧
        getF w Fld.qpSqTail n = t ∧ getF w Fld.qpSqHead n = getF s Fld.qpSqHead n ∧ w.mem = s.mem ∧
        (sqAvail w n > ((qpOf s n).arrivals.map (fun a => a.1)).sum → (qpOf w n).arrivals = (qpOf s n).arrivals ++ [(sqAvail w n - ((qpOf s n).arrivals.map (fun a => a.1)).sum, s.ftime)]))) ∧
    (mode s = 1 → on → v.getLsbD 31 = false → v.getLsbD 63 = true → h < qpDepth s n →
      (h + qpDepth s n - getF s Fld.qpCqHead n) % qpDepth s n ≤ (getF s Fld.qpCqTail n + qpDepth s n - getF s Fld.qpCqHead n) % qpDepth s n →
      ∃ w, exec (.doorbellWrite req n v) s = .next (latchWake (writeGlobal w (bitDoorbell n) true) (getF s Fld.qpCtlServiceRafter n) 1) ∧ getF w Fld.qpCqHead n = h ∧ w.mem = s.mem) ∧
    (mode s = 1 → v.getLsbD 31 = true → v.getLsbD 63 = false → (¬ on ∨ qpDepth s n ≤ t) → exec (.doorbellWrite req n v) s =
      .next (raiseR (bump s Fld.admDbBadCnt 0) none n { code := 0x0301, bay := (bayOfQp s n).getD 0xFF, aux8 := 0, aux16 := n, arg0 := v.toNat })) ∧
    (mode s = 1 → v.getLsbD 31 = false → v.getLsbD 63 = false → exec (.doorbellWrite req n v) s = .next s) ∧
    (mode s ≠ 1 → Requester.isPf req = true → exec (.doorbellWrite req n v) s = .next (bump s Fld.pwrTarpDiscardCnt 0) ∧ exec (.eventRingDoorbell req e v) s = .next (bump s Fld.pwrTarpDiscardCnt 0)) ∧
    (mode s = 1 → v.getLsbD 31 = true → getF s Fld.evrCtlEnable e = 1 → getF s Fld.evrStatFull e = 0 → t < evrDepth s e →
      (t + evrDepth s e - getF s Fld.evrHead e) % evrDepth s e ≤ (getF s Fld.evrTail e + evrDepth s e - getF s Fld.evrHead e) % evrDepth s e →
      ∃ u, exec (.eventRingDoorbell req e v) s = .next u ∧ getF u Fld.evrHead e = t ∧ (∀ r i, r ≠ .evrHead ∨ i ≠ e → getReg u r i = getReg s r i) ∧ u.mem = s.mem) ∧
    (mode s = 1 → v.getLsbD 31 = true → getF s Fld.evrCtlEnable e = 0 → exec (.eventRingDoorbell req e v) s =
      .next (evrPut (bump s Fld.admDbBadCnt 0) e { code := 0x0301, bay := (bayOfEvr s e).getD 0xFF, aux8 := 1, aux16 := e, arg0 := v.toNat })) ∧
    (mode s = 1 → v.getLsbD 31 = false → exec (.eventRingDoorbell req e v) s = .next s) ∧
    (on → sqAvail s n ≠ 0 → ringRoom s n = false → (qpOf s n).stalled = false → ∃ u, exec (.cqStallTimeout n) s = .next (raiseR u none n { code := 0x0302, bay := (bayOfQp s n).getD 0xFF, aux16 := n }) ∧
      getF u Fld.qpStatCqFull n = 1 ∧ (qpOf u n).stalled = true ∧ getF u Fld.admCqStallCnt 0 = (getF s Fld.admCqStallCnt 0 + 1) % 2 ^ 64 ∧ u.mem = s.mem) ∧
    ((qpOf s n).stalled = true → exec (.cqStallTimeout n) s = .next s) ∧
    (0 < (qpOf s n).unann → getF s Fld.qpNotifyCoalUs n ≠ 0 →
      let u := setQp (reach s ((qpOf s n).unannAt + getF s Fld.qpNotifyCoalUs n * 1000)) n { qpOf s n with unann := 0 }
      (getF s Fld.qpNotifyMode n = 0 → exec (.notifyCoalesceTimeout 0 n) s = .next u) ∧
      (getF s Fld.qpNotifyMode n = 1 → vecOpen s (getF s Fld.qpCtlEp n) (getF s Fld.qpCtlFunc n) (getF s Fld.qpNotifyTarget n) = true →
        exec (.notifyCoalesceTimeout 0 n) s = .next (emit u (.msix (getF s Fld.qpCtlEp n) (getF s Fld.qpCtlFunc n) (getF s Fld.qpNotifyTarget n)))) ∧
      (getF s Fld.qpNotifyMode n = 2 → bayOfQp s n = some e → exec (.notifyCoalesceTimeout 0 n) s = .next (setFlag u e (getF s Fld.qpNotifyTarget n)))) ∧
    (0 < (evrOf s e).unann → getF s Fld.evrNotifyCoalUs e ≠ 0 → getF s Fld.evrNotifyMode e = 0 → exec (.notifyCoalesceTimeout 1 e) s =
      .next (setEvr (reach s ((evrOf s e).unannAt + getF s Fld.evrNotifyCoalUs e * 1000)) e { evrOf s e with unann := 0 })) ∧
    ((qpOf s n).unann = 0 → exec (.notifyCoalesceTimeout 0 n) s = .next s)

/-- The device's fetch of each operation (08 R222 to R226, R241). -/
def Obligations.OperationsFetched : Prop :=
  ∀ (s s' : State) (q b t flags : Nat) (opId : Dword) (host : List Byte), fetchTake s q = some (t, b, false, s') → flags < 4 →
    let n := s'.rings.nextOp
    let enrolled (o : Op) : State := putOp { s' with rings := { s'.rings with nextOp := n + 1 } } n o
    let fetched (i : Instr) (opcode : Nat) (fs : List (Nat × Nat × Nat)) (data : List Byte) : Prop :=
      ∃ body : List Byte, body.length = 48 ∧ (∀ f, f ∈ fs → leAt body f.1 f.2.1 = f.2.2) ∧ (∀ k, k < 48 → (∀ f, f ∈ fs → k < f.1 ∨ f.1 + f.2.1 ≤ k) → body[k]? = some 0) ∧
        let o : Op := { src := .ring q, opId := opId, opcode := opcode, fence := bitN flags 0, notifyNow := bitN flags 1, body := body, arrival := t, bay := b }
        (∀ st ext res, (engineOf opcode).check s' o data = .bad st ext res → exec i s = .next (finishOp (enrolled o) n st res ext)) ∧
        (∀ pool cost partner bs aux, (engineOf opcode).check s' o data = .go pool cost partner bs aux →
          let w := { o with pool := pool, cost := cost, partner := partner, data := bs, aux := aux }
          exec i s = .next (arriveOp startOf s' w) ∧
          (1 ≤ cost → getF s' Fld.admPrecCount 0 = 0 → ctxReady s' w = true → exec i s = .next (qpSettle (enrolled w) q)))
    (∀ src dst : Dword, ∀ len : Word, fetched (.copy q opId flags src dst len) 0x0100 [(0, 8, src.toNat), (8, 8, dst.toNat), (16, 4, len.toNat)] []) ∧
    (∀ addr : Dword, ∀ len : Word, ∀ ctl tci l3 l4 : Half, fetched (.tx q opId flags addr len ctl tci l3 l4) 0x0200 [(0, 8, addr.toNat), (8, 4, len.toNat), (12, 2, ctl.toNat), (14, 2, tci.toNat), (16, 2, l3.toNat), (18, 2, l4.toNat)] []) ∧
    (∀ addr haddr : Dword, ∀ len : Word, ∀ hlen : Half, fetched (.rxPost q opId flags addr len hlen haddr) 0x0201 [(0, 8, addr.toNat), (8, 4, len.toNat), (12, 2, hlen.toNat), (16, 8, haddr.toNat)] []) ∧
    (∀ conn rref len cookie index key lifetime : Word, ∀ rkind rights : Byte, ∀ off laddr x y : Dword,
      fetched (.send q opId flags conn len laddr) 0x0300 [(0, 4, conn.toNat), (12, 4, len.toNat), (24, 8, laddr.toNat)] [] ∧
      fetched (.write q opId flags conn rkind rref len off laddr) 0x0301 [(0, 4, conn.toNat), (4, 1, rkind.toNat), (8, 4, rref.toNat), (12, 4, len.toNat), (16, 8, off.toNat), (24, 8, laddr.toNat)] [] ∧
      fetched (.read q opId flags conn rkind rref len off laddr) 0x0302 [(0, 4, conn.toNat), (4, 1, rkind.toNat), (8, 4, rref.toNat), (12, 4, len.toNat), (16, 8, off.toNat), (24, 8, laddr.toNat)] [] ∧
      fetched (.fetchAdd q opId flags conn rkind rref len off laddr x) 0x0303 [(0, 4, conn.toNat), (4, 1, rkind.toNat), (8, 4, rref.toNat), (12, 4, len.toNat), (16, 8, off.toNat), (24, 8, laddr.toNat), (32, 8, x.toNat)] [] ∧
      fetched (.cmpSwap q opId flags conn rkind rref len off laddr x y) 0x0304 [(0, 4, conn.toNat), (4, 1, rkind.toNat), (8, 4, rref.toNat), (12, 4, len.toNat), (16, 8, off.toNat), (24, 8, laddr.toNat), (32, 8, x.toNat), (40, 8, y.toNat)] [] ∧
      fetched (.windowNotify q opId flags conn rref cookie) 0x0305 [(0, 4, conn.toNat), (8, 4, rref.toNat), (12, 4, cookie.toNat)] [] ∧
      fetched (.recvPost q opId flags conn laddr len) 0x0306 [(0, 4, conn.toNat), (8, 8, laddr.toNat), (16, 4, len.toNat)] [] ∧
      fetched (.dormerOpen q opId flags conn rights x y lifetime) 0x0310 [(0, 4, conn.toNat), (4, 1, rights.toNat), (8, 8, x.toNat), (16, 8, y.toNat), (24, 4, lifetime.toNat)] [] ∧
      fetched (.dormerRevoke q opId flags rref) 0x0311 [(0, 4, rref.toNat)] [] ∧
      fetched (.regionReg q opId flags index rights x y conn) 0x0312 [(0, 4, index.toNat), (4, 1, rights.toNat), (8, 8, x.toNat), (16, 8, y.toNat), (24, 4, conn.toNat)] [] ∧
      fetched (.regionDereg q opId flags key) 0x0313 [(0, 4, key.toNat)] [] ∧ fetched (.connOpen q opId flags conn x) 0x0320 [(0, 4, conn.toNat), (8, 8, x.toNat)] [] ∧
      fetched (.connClose q opId flags conn) 0x0321 [(0, 4, conn.toNat)] [] ∧ fetched (.connQuery q opId flags conn) 0x0322 [(0, 4, conn.toNat)] []) ∧
    (∀ node dq : Half, ∀ tc : Byte, ∀ laddr off : Dword, ∀ len : Word,
      fetched (.nsend q opId flags node tc dq laddr len) 0x0400 [(0, 2, node.toNat), (2, 1, tc.toNat), (4, 2, dq.toNat), (8, 8, laddr.toNat), (16, 4, len.toNat)] [] ∧
      fetched (.nwrite q opId flags node tc laddr len off) 0x0401 [(0, 2, node.toNat), (2, 1, tc.toNat), (8, 8, laddr.toNat), (16, 4, len.toNat), (24, 8, off.toNat)] [] ∧
      fetched (.nread q opId flags node tc laddr len off) 0x0402 [(0, 2, node.toNat), (2, 1, tc.toNat), (8, 8, laddr.toNat), (16, 4, len.toNat), (24, 8, off.toNat)] [] ∧
      fetched (.nrecvPost q opId flags laddr len) 0x0403 [(0, 8, laddr.toNat), (8, 4, len.toNat)] []) ∧
    (∀ addr raddr : Dword, ∀ len rlen : Word, ∀ set : Byte,
      fetched (.lquery q opId flags addr len raddr rlen host) 0x0500 [(0, 8, addr.toNat), (8, 4, len.toNat), (16, 8, raddr.toNat), (24, 4, rlen.toNat)] host ∧
      fetched (.lappend q opId flags addr len host) 0x0501 [(0, 8, addr.toNat), (8, 4, len.toNat)] host ∧
      fetched (.lbiasLoad q opId flags set addr len host) 0x0502 [(0, 1, set.toNat), (8, 8, addr.toNat), (16, 4, len.toNat)] host) ∧
    (∀ cut w : Word, ∀ cnt : Half, ∀ x y z : Byte, ∀ a1 a2 a3 : Dword,
      fetched (.ulCut q opId flags cut cnt a1 w host) 0x0600 [(0, 4, cut.toNat), (4, 2, cnt.toNat), (8, 8, a1.toNat), (16, 4, w.toNat)] host ∧
      fetched (.ulDrain q opId flags cut x y z a1 a2 a3 host) 0x0601 [(0, 4, cut.toNat), (4, 1, x.toNat), (5, 1, y.toNat), (6, 1, z.toNat), (8, 8, a1.toNat), (16, 8, a2.toNat), (24, 8, a3.toNat)] host ∧
      fetched (.ulRestore q opId flags cnt x w a1 a2 a3 host) 0x0602 [(0, 2, cnt.toNat), (2, 1, x.toNat), (4, 4, w.toNat), (8, 8, a1.toNat), (16, 8, a2.toNat), (24, 8, a3.toNat)] host ∧
      fetched (.ulRelease q opId flags cut) 0x0603 [(0, 4, cut.toNat)] []) ∧
    (∀ h : Word, ∀ x y z : Byte, ∀ a1 a2 : Dword,
      fetched (.keyLoad q opId flags x a1 a2 host) 0x0700 [(0, 1, x.toNat), (8, 8, a1.toNat), (16, 8, a2.toNat)] host ∧ fetched (.keyDestroy q opId flags h) 0x0701 [(0, 4, h.toNat)] [] ∧
      fetched (.crypt q opId flags a1 h host) 0x0702 [(0, 8, a1.toNat), (8, 4, h.toNat)] host ∧ fetched (.floorAdvance q opId flags x y z) 0x0703 [(0, 1, x.toNat), (1, 1, y.toNat), (2, 1, z.toNat)] []) ∧
    (∀ x y : Byte, ∀ a b c : Word, ∀ p r : Dword,
      fetched (.gsnap q opId flags x y a b p) 0x0800 [(0, 1, x.toNat), (1, 1, y.toNat), (4, 4, a.toNat), (8, 4, b.toNat), (16, 8, p.toNat)] [] ∧
      fetched (.gconn q opId flags a b r p c y) 0x0801 [(0, 4, a.toNat), (4, 4, b.toNat), (8, 8, r.toNat), (16, 8, p.toNat), (24, 4, c.toNat), (28, 1, y.toNat)] [] ∧
      fetched (.gflush q opId flags x r a) 0x0802 [(0, 1, x.toNat), (8, 8, r.toNat), (16, 4, a.toNat)] []) ∧
    (∃ o : Op, o.opId = opId ∧ o.src = .ring q ∧ o.st = .committed ∧ o.arrival = t ∧ o.queued = s'.ftime - t ∧ exec (.nop q opId flags) s = .next (finishOp (enrolled o) n 0 0 0)) ∧
    (∀ target : Dword, target ≠ opId → (∀ e, e ∈ s'.rings.ops → e.2.src = .ring q → e.2.opId ≠ target) →
      ∃ o : Op, o.opId = opId ∧ o.src = .ring q ∧ o.st = .committed ∧ o.arrival = t ∧
        exec (.abort q opId flags target) s = .next (finishOp (enrolled o) n stTooLate (if (qpOf s' q).ended.contains target then 1 else 2) 0)) ∧
    (leAt (sqEntry s q host) 0 2 ∉ listedOps → 2 ≤ leAt (sqEntry s q host) 0 2 →
      exec (.descriptorFetch q host []) s = .next (finishOp (enrolled (descOp q b t (sqEntry s q host))) n stBadOpcode 0 0)) ∧
    (leAt (sqEntry s q host) 0 2 = 0 → leAt (sqEntry s q host) 2 1 < 4 → (∀ k, 3 ≤ k → k < 8 → (sqEntry s q host)[k]? = some 0) → (∀ k, 16 ≤ k → k < 64 → (sqEntry s q host)[k]? = some 0) →
      exec (.descriptorFetch q host []) s = .next (finishOp (enrolled { descOp q b t (sqEntry s q host) with st := .committed, queued := s'.ftime - t }) n 0 0 0))

/-- Admission (08 R229 to R237, Table 8.12). -/
def Obligations.AdmissionSteps : Prop :=
  ∀ (s : State) (req : Requester) (n q i pool : Nat) (o : Op) (p : Partner) (v : Word), opOf s n = some o →
    (considered s n o = true → holdsTokens s o = some true → behind s n o = false → classOfOp s o = 1 → servedBefore s n 1 o.pool = false → o.opcode = 0x0100 → o.src = .ring q →
      getF s Fld.admPrecCount 0 = 0 → ∃ w, exec (.admission n) s = .next (qpSettle w q) ∧ opOf w n = some { o with st := .admitted, judged := 1, queued := s.ftime - o.arrival } ∧
        getF w Fld.admServedCnt o.pool = (getF s Fld.admServedCnt o.pool + 1) % 2 ^ 64 ∧ w.mem = s.mem ∧ w.ftime = s.ftime) ∧
    (considered s n o = true → holdsTokens s o = some true → behind s n o = false → classOfOp s o = 1 → servedBefore s n 1 o.pool = false → exec (.admission n) s = .next (admitOp startOf s n 1)) ∧
    (considered s n o = true → holdsTokens s o = some true → behind s n o = false → classOfOp s o = 1 → servedBefore s n 1 o.pool = true → exec (.admission n) s = .next s) ∧
    (considered s n o = true → partnerRef s o.partner = .bad → exec (.admission n) s = .next (endEarly (bump s Fld.admRefBudgetCnt o.pool) n stRefBudget)) ∧
    (considered s n o = false → exec (.admission n) s = .next s ∧ exec (.admissionWaitExpiry n) s = .next s) ∧
    (considered s n o = true → getF s Fld.admPrecCount 0 = 0 → poolCapped s o.pool = false →
      ∃ u, exec (.admissionWaitExpiry n) s = .next (endEarly (bump u Fld.admRefCapCnt o.pool) n stRefCapacity) ∧
        u.ftime = Nat.max s.ftime (Nat.max o.arrival (poolOf s o.pool).capLifted + getF s Fld.admPoolWaitEWaitMs o.pool * 1000000) ∧ u.regs = s.regs ∧ u.rings = s.rings) ∧
    (considered s n o = true → getF s Fld.admPrecCount 0 = 0 → poolCapped s o.pool = true → exec (.admissionWaitExpiry n) s = .next s) ∧
    (considered s n o = true → partnerRef s o.partner = .found p → p.cls ≤ 1 →
      let t := reach s (o.arrival + getF s Fld.admPoolWaitBudgetWaitMs o.pool * 1000000)
      holdsTokens t o = some false → holdsTokens s o = some false → exec (.admissionWaitExpiry n) s = .next (endEarly (bump t Fld.admRefBudgetCnt o.pool) n stRefBudget)) ∧
    (pool < 7 → poolCapped s pool = false → getF s Fld.admPoolStatShedding pool = 0 → eWaits s pool = [q] → ∃ u, exec (.sheddingStart pool) s = .next (shedAll u pool) ∧
      getF u Fld.admPoolStatShedding pool = 1 ∧ u.ftime = Nat.max s.ftime (q + getF s Fld.admPoolTgtETgtUs pool * 1000 + 1) ∧ u.rings = s.rings) ∧
    (eWaits s pool = [] → exec (.sheddingStart pool) s = .next s ∧ (pool < 7 → exec (.sheddingEnd pool) s = .next (setF s Fld.admPoolStatShedding pool 0))) ∧
    (mode s = 1 → Requester.isPf req = true → v.getLsbD 31 = true → v.getLsbD 30 = false → i = v.toNat % 2 ^ 20 → Tab.lookup s.rings.partners i = some p → s.rings.ops = [(n, o)] → o.partner ≠ i →
      ∃ u x, exec (.partnerSync req v) s = .next u ∧ Tab.lookup u.rings.partners i = some x ∧ x.cls = (readPartner s i).cls ∧ x.valid = (readPartner s i).valid ∧ x.weight = (readPartner s i).weight ∧
        x.buckets = List.zipWith keepTokens (p.accrue s.ftime).buckets (readPartner s i).buckets ∧ u.regs = s.regs ∧ u.mem = s.mem) ∧
    (mode s = 1 → Requester.isPf req = true → v.getLsbD 31 = false → exec (.partnerSync req v) s = .next s) ∧
    (mode s = 1 → Requester.isPf req = false → exec (.partnerSync req v) s = .next (bump s Fld.admDeniedCnt 0)) ∧
    (partnerRef s i = .miss → s.rings.partners.length < 4096 → s.rings.ops = [(n, o)] → o.partner ≠ i →
      ∃ u, exec (.partnerRecordFill i q) s = .next u ∧ Tab.lookup u.rings.partners i = some (readPartner s i) ∧ (∀ j, j ≠ i → Tab.lookup u.rings.partners j = Tab.lookup s.rings.partners j) ∧ u.regs = s.regs ∧ u.mem = s.mem) ∧
    (partnerRef s i ≠ .miss → exec (.partnerRecordFill i q) s = .next s)

/-- Completion entries (08 R227, Table 8.6). -/
def Obligations.CompletionEntries : Prop :=
  ∀ (s : State) (q : Nat) (k : Completion), isRefusal k.status = false → q < 4096 →
    let t := getF s Fld.qpCqTail q
    let a := addrOf s .qpCqBaseLo .qpCqBaseHi q + 32 * t
    let ph := getF s Fld.qpCqTailPhase q
    let u := complete s q k
    classOf a = some .hbm →
    readLe u a 8 = k.opId.toNat ∧ readLe u (a + 8) 8 = k.result % 2 ^ 64 ∧ readLe u (a + 16) 6 = Nat.min k.queued (2 ^ 48 - 1) ∧ readLe u (a + 22) 2 = getF s Fld.qpSqHead q ∧
    readLe u (a + 24) 1 = k.status % 256 ∧ readLe u (a + 25) 1 = k.judged % 4 + k.pool % 64 * 4 ∧ readLe u (a + 26) 2 = q ∧ readLe u (a + 28) 2 = k.ext % 65536 ∧
    readLe u (a + 31) 1 = ph + (if k.delayed then 2 else 0) ∧
    (∀ b, b < a ∨ a + 32 ≤ b → readByte u b = readByte s b) ∧
    getF u Fld.qpCqTail q = (t + 1) % qpDepth s q % 65536 ∧ (t + 1 ≠ qpDepth s q → getF u Fld.qpCqTailPhase q = ph) ∧ (t + 1 = qpDepth s q → getF u Fld.qpCqTailPhase q = 1 - ph) ∧
    (k.now = false → (qpOf s q).unann + 1 < getF s Fld.qpNotifyCoalCount q → (qpOf u q).unann = (qpOf s q).unann + 1 ∧ u.out = s.out)

/-- The Gutter (15 R430 to R439). -/
def Obligations.GutterChannels : Prop :=
  ∀ (s : State) (req : Requester) (t : Tid) (c src typ status reason : Nat) (v : Word) (d : Dword) (payload p : List Byte) (time : Nat) (rest : List (Nat × List Byte)), c < 4 →
    let n := p.length
    let dt := getF s Fld.gutChDtail c
    let ring := getF s Fld.gutChDbaseLo c * 65536 + getF s Fld.gutChDbaseHi c * 2 ^ 32
    let clear : Prop := getF s Fld.gutChStatState c = 1 ∧ getF s Fld.gutChStatDrainFault c = 0 ∧ domState s 78 = 0 ∧ (chanOf s c).pkts = (time, p) :: rest
    (Requester.isPf req = true → mode s = 1 →
      (getF s Fld.gutChCtlEnable c = 0 → getF s Fld.gutChStatState c = 0 → sliceFits s c (v.toNat ||| 1) = true → drainRingOk s c = true →
        ∃ u, exec (.channelEnable req c v) s = .next (gutterRun (latchWake u 78 7)) ∧ getF u Fld.gutChCtlEnable c = 1 ∧ getF u Fld.gutChCtlBufBase c = v.toNat / 2 ^ 8 % 2 ^ 8 ∧
          getF u Fld.gutChCtlBufSize c = v.toNat / 2 ^ 16 % 2 ^ 9 ∧ getF u Fld.gutChSeq c = 0 ∧ getF u Fld.gutChDhead c = 0 ∧ getF u Fld.gutChDtail c = 0 ∧ chanOf u c = {} ∧
          (∀ r i, i ≠ c → getReg u r i = getReg s r i) ∧ u.mem = s.mem) ∧
      (sliceFits s c (v.toNat ||| 1) = false → exec (.channelEnable req c v) s = .next (bump s Fld.gutDeniedCnt 0)) ∧
      (getF s Fld.gutChCtlEnable c = 1 → exec (.channelEnable req c v) s = .next (bump s Fld.gutDeniedCnt 0)) ∧
      (getF s Fld.gutChStatState c = 1 → getF s Fld.gutChStatDrainFault c = 0 → exec (.channelDisable req c v) s = .next (setF (setF s Fld.gutChCtlEnable c 0) Fld.gutChStatState c 2)) ∧
      (getF s Fld.gutChStatState c = 2 → exec (.channelDisable req c v) s = .next s) ∧
      (v.toNat < drainSize s c → (v.toNat + drainSize s c - getF s Fld.gutChDhead c) % drainSize s c ≤ drainUsed s c →
        exec (.dheadWrite req c v) s = .next (drainCheck (setF s Fld.gutChDhead c v.toNat) c)) ∧
      (drainSize s c ≤ v.toNat → exec (.dheadWrite req c v) s = .next (bump s Fld.gutDeniedCnt 0))) ∧
    (mode s = 1 → exec (.channelEnable (.thread t) c v) s = .next (bump s Fld.gutDeniedCnt 0) ∧ exec (.channelDisable (.thread t) c v) s = .next (bump s Fld.gutDeniedCnt 0) ∧
      exec (.dheadWrite (.thread t) c v) s = .next (bump s Fld.gutDeniedCnt 0)) ∧
    (getF s Fld.gutChStatState c = 2 → (chanOf s c).pkts = [] → s.gut.flushes = [] → ∃ w, exec (.channelStopDone c) s = .next (chanSettle w c) ∧ getF w Fld.gutChStatState c = 0 ∧ getF w Fld.gutChStatOvfPending c = 0 ∧ (chanOf w c).pkts = [] ∧ (chanOf w c).ovf = none ∧ w.mem = s.mem) ∧
    (getF s Fld.gutChStatState c ≠ 2 → exec (.channelStopDone c) s = .next s) ∧
    (exec (.gutMark (.thread t) 8 d) s = .next (offer s 46 0x40 (leBytes 8 d.toNat ++ leBytes 8 t.toNat)) ∧
      (mode s = 1 → exec (.gutMark (.pf 1) 8 d) s = .next (offer s 46 0x40 (leBytes 8 d.toNat ++ leBytes 8 0x2001)))) ∧
    (sourceEmits s src typ payload = true → getF s Fld.gutSrcEnable src = 1 → getF s Fld.gutSrcChannel src = c → getF s Fld.gutChStatState c = 1 → (chanOf s c).ovf = none →
      (getF s Fld.gutChCtlMode c = 1 ∨ getF s Fld.gutChStatShed c ≤ getF s Fld.gutSrcPriority src) →
      let units := 1 + (payload.length + 15) / 16
      chanFill s c + 16 * units ≤ chanSize s c →
      ∃ u x, exec (.tracePacketOffered src typ payload) s = .next (chanSettle u c) ∧ (chanOf u c).pkts = (chanOf s c).pkts ++ [(s.ftime, x)] ∧ x.length = 16 * units ∧ leAt x 0 1 = src % 256 ∧ leAt x 1 1 = units % 256 ∧
        leAt x 2 1 = typ % 256 ∧ leAt x 3 1 = getF s Fld.gutSrcPriority src ∧ leAt x 4 4 = getF s Fld.gutChSeq c ∧ leAt x 8 8 = s.ftime % 2 ^ 64 ∧ (x.drop 16).take payload.length = payload ∧
        getF u Fld.gutChSeq c = (getF s Fld.gutChSeq c + 1) % 2 ^ 32 ∧ u.mem = s.mem ∧ u.out = s.out) ∧
    (getF s Fld.gutSrcEnable src = 0 → exec (.tracePacketOffered src typ payload) s = .next s) ∧
    (clear → (getF s Fld.gutChDtail c + n ≤ drainSize s c) → drainUsed s c + n < drainSize s c → classOf ring = some .hbm → getF s Fld.gutChNotifyCoalCount c > (chanOf s c).unann + 1 → (chanOf s c).ovf = none → getF s Fld.gutChCtlMode c = 1 →
      ∃ u, exec (.drainWriteDone c) s = .next u ∧ readBytes u (ring + dt) n = p ∧ (∀ b, b < ring + dt ∨ ring + dt + n ≤ b → readByte u b = readByte s b) ∧ getF u Fld.gutChDtail c = (dt + n) % drainSize s c % 2 ^ 32 ∧
        (chanOf u c).pkts = rest ∧ (chanOf u c).unann = (chanOf s c).unann + 1) ∧
    (clear → drainSize s c ≤ drainUsed s c + n → exec (.drainWriteDone c) s = .next s) ∧
    ((chanOf s c).pkts = [] → exec (.drainWriteDone c) s = .next s ∧ exec (.drainWriteFault c status reason) s = .next s) ∧
    (clear → drainUsed s c + n < drainSize s c → ∃ u, exec (.drainWriteFault c status reason) s =
        .next (raiseD u none { code := 0x0A04, aux8 := c, aux16 := status % 16 + reason % 16 * 256, arg0 := ring + dt } |> fun w => if getF w Fld.gutChStatState c = 2 then chanDisabled w c else w) ∧
      getF u Fld.gutChStatDrainFault c = 1 ∧ getF u Fld.gutDrainFaultCnt 0 = (getF s Fld.gutDrainFaultCnt 0 + 1) % 2 ^ 64 ∧ u.mem = s.mem) ∧
    (clear → getF s Fld.gutChStatDrainStall c = 0 → (chanOf s c).noRoom = some time → ∃ u, exec (.drainStallTimeout c) s =
        .next (raiseD u none { code := 0x0A03, aux8 := c, arg0 := getF s Fld.gutChDhead c, arg1 := dt }) ∧ getF u Fld.gutChStatDrainStall c = 1 ∧
      u.ftime = Nat.max s.ftime (time + getF s Fld.gutChStall c * 1000) ∧ u.mem = s.mem) ∧
    ((chanOf s c).noRoom = none → exec (.drainStallTimeout c) s = .next s)

/-- COPY (08 R226) and the Gutter's operations (15 R445 to R447). -/
def Obligations.CopyAndGutterOperations : Prop :=
  ∀ (s : State) (n c t dl failed : Nat) (o : Op) (host : List Byte), opOf s n = some o →
    let a := leAt o.body 0 8
    let b := leAt o.body 8 8
    let len := leAt o.body 16 4
    (o.opcode = 0x0100 → o.st = .admitted → classOf a = some .hbm → classOf b = some .hbm → ∃ u w, exec (.copyDone n host 0) s = .next (finishOp w n 0 len 0) ∧
      (∀ i, i < len → readByte u (b + i) = readByte s (a + i)) ∧ (∀ x, x < b ∨ b + len ≤ x → readByte u x = readByte s x) ∧ u.regs = s.regs ∧ w = putOp u n { o with st := .committed }) ∧
    (o.opcode = 0x0100 → o.st = .admitted → 1 ≤ failed → failed ≤ 3 → (inHost a = true ∨ inHost b = true) → exec (.copyDone n host failed) s = .next (finishOp s n 5 0 failed)) ∧
    (o.opcode = 0x0100 → o.st = .admitted → failed = 4 → exec (.copyDone n host failed) s = .next (finishOp s n 6 0 0)) ∧
    (o.opcode = 0x0100 → o.st ≠ .admitted → exec (.copyDone n host failed) s = .next s) ∧
    (o.opcode = 0x0802 → o.st = .admitted → Tab.lookup s.gut.flushes n = some (c, t, dl) →
      (t + 2000 ≤ dl → (∀ p, p ∈ (chanOf s c).pkts → t < p.1) → ∃ u, exec (.gflushDone n) s = .next (finishOp u n 0 (getF s Fld.gutChDtail c) 0) ∧ u.ftime = Nat.max s.ftime (t + 2000) ∧ Tab.lookup u.gut.flushes n = none ∧
        u.regs = s.regs ∧ u.mem = s.mem ∧ u.rings = s.rings) ∧
      ((∃ p, p ∈ (chanOf s c).pkts ∧ p.1 ≤ t) → exec (.gflushDone n) s = .next s) ∧
      exec (.gflushTimeout n) s = .next (finishOp (reach s dl) n 0xB2 0 0)) ∧
    (Tab.lookup s.gut.flushes n = none → exec (.gflushDone n) s = .next s ∧ exec (.gflushTimeout n) s = .next s) ∧
    (o.opcode = 0x0802 → leAt o.body 0 1 = c →
      (getF s Fld.gutChStatState c ≠ 1 → gutStart s n = finishOp s n 0xB0 0 0) ∧
      (getF s Fld.gutChStatState c = 1 → Tab.lookup (gutStart s n).gut.flushes n = some (c, leAt o.body 8 8, s.ftime + leAt o.body 16 4 * 1000) ∧ (gutStart s n).regs = s.regs ∧ (gutStart s n).mem = s.mem)) ∧
    (o.opcode = 0x0800 → leAt o.body 0 1 = 0 → leAt o.body 1 1 = 0 → classOf (leAt o.body 16 8) = some .hbm → ∃ u, gutStart s n = finishOp u n 0 (32 + 160 * leAt o.body 8 4) 0 ∧
      (∀ r f, r < leAt o.body 8 4 → f < 20 → readLe u (leAt o.body 16 8 + 32 + 160 * r + 8 * f) 8 = Tab.get 0 s.gut.late (20 * (leAt o.body 4 4 + r) + f) % 2 ^ 64) ∧ u.gut.late = s.gut.late ∧ u.regs = s.regs) ∧
    (o.opcode = 0x0801 → classOf (leAt o.body 16 8) = some .hbm → leAt o.body 28 1 = 0 →
      let hits := gconnHits s (leAt o.body 0 4) (leAt o.body 4 4) (leAt o.body 8 8)
      hits.length ≤ leAt o.body 24 4 / 16 → ∃ u, gutStart s n = finishOp u n 0 (hits.length + (leAt o.body 0 4 + leAt o.body 4 4) * 2 ^ 32) 0 ∧
        (∀ j e, hits[j]? = some e → readLe u (leAt o.body 16 8 + 16 * j) 4 = e.1 % 2 ^ 32 ∧ readLe u (leAt o.body 16 8 + 16 * j + 4) 1 = e.2.st % 256 ∧
          readLe u (leAt o.body 16 8 + 16 * j + 8) 8 = e.2.retx % 2 ^ 64) ∧ u.xpt = s.xpt ∧ u.regs = s.regs)

/-- Frames, Truss and Reed (09 R244 to R260, R270). -/
def Obligations.FramesParsedAndSent : Prop :=
  ∀ (s : State) (k port ts p n : Nat) (c : Copy) (o : Op) (frame host : List Byte),
    (copyOf s k = some c →
      let g := s.truss.graph
      let pipe := copyPipe s c
      let nd := nodeAt g c.node
      let c0 : Copy := { frame := c.frame, port := c.port, vport := c.vport, version := getF s Fld.trussVerCurrent 0, node := copyStart s c, spanEnd := c.frame.length, since := c.since }
      let run := reedProgram s.truss.reedProgs (leAt (nodeAt g c.node) 0x15 1) c
      (c.stage = 0 → domUp s (65 + pipe) = true → (parseLoop g 26 c0).2 ≠ .reed →
        exec (.trussParse k) s = .next (afterParse (bump (ungate s (65 + pipe)) Fld.trussPipePktCnt pipe) k (parseLoop g 26 c0).1 (parseLoop g 26 c0).2)) ∧
      (c.stage = 0 → domUp s (65 + pipe) = true → (parseLoop g 26 c0).2 = .reed → reedWaiting s pipe < 512 → ∃ u, exec (.trussParse k) s = .next u ∧
        copyOf u k = some { (parseLoop g 26 c0).1 with stage := 1 } ∧ getF u Fld.trussReedPktCnt 0 = (getF s Fld.trussReedPktCnt 0 + 1) % 2 ^ 64 ∧ u.mem = s.mem) ∧
      (c.stage ≠ 0 → exec (.trussParse k) s = .next s) ∧
      (nodeCount g ≤ c.node → parseLoop g 26 c = (c, .bad 6)) ∧
      (c.node < nodeCount g → nodeFlag nd 2 = true → parseLoop g 26 c = (c, .reed)) ∧
      (c.node < nodeCount g → nodeFlag nd 2 = false → nodeFlag nd 0 = false →
        (24 ≤ c.depth → parseLoop g 26 c = (c, .bad 3)) ∧
        (c.depth < 24 → leAt nd 4 2 < leAt nd 2 2 → parseLoop g 26 c = (c, .bad 1)) ∧
        (c.depth < 24 → leAt nd 2 2 ≤ leAt nd 4 2 → c.frame.length < c.off + leAt nd 4 2 → parseLoop g 26 c = (c, .bad 5)) ∧
        (c.depth < 24 → leAt nd 2 2 ≤ leAt nd 4 2 → c.off + leAt nd 4 2 ≤ c.frame.length → 512 < c.off + leAt nd 4 2 → parseLoop g 26 c = (c, .bad 4)) ∧
        (c.depth < 24 → leAt nd 2 2 ≤ leAt nd 4 2 → c.off + leAt nd 4 2 ≤ c.frame.length → c.off + leAt nd 4 2 ≤ 512 → leAt nd 0x0E 1 = 0 → leAt nd 0x14 1 = 0 → nodeFlag nd 1 = true →
          ∃ d, parseLoop g 26 c = (d, .done) ∧ d.off = c.off + leAt nd 4 2 ∧ d.depth = c.depth + 1 ∧ d.stack = c.stack ++ [(leAt nd 0 1, c.off)] ∧ d.spanEnd = c.spanEnd ∧ d.frame = c.frame)) ∧
      (c.stage = 1 → (∀ e, e ∈ s.truss.copies → e.2.stage = 1 → k ≤ e.1) → reedBusy s < 256 → domUp s 64 = true → exec (.reedDispatch k) s = .next (putCopy (ungate s 64) k { c with stage := 2, since := s.ftime })) ∧
      (c.stage = 1 → 256 ≤ reedBusy s → exec (.reedDispatch k) s = .next s) ∧
      (c.stage = 2 → ∀ m g1 g4 g5 g6, run.how = .ret m g1 g4 g5 g6 →
        let ends (x : ParseOut) : Prop := exec (.reedReturn k) s = .next (afterParse s k { c with md := run.md } x)
        let first : Prop := 2 < m ∨ g6 < 1 ∨ 8 < g6 ∨ g1 < c.off ∨ (m = 2 ∧ (g5 < 1 ∨ 6 < g5))
        (first → ends (.bad 8)) ∧ (¬ first → 24 < c.depth + g6 → ends (.bad 3)) ∧ (¬ first → c.depth + g6 ≤ 24 → c.frame.length < g1 → ends (.bad 5)) ∧
        (¬ first → c.depth + g6 ≤ 24 → g1 ≤ c.frame.length → 512 < g1 → ends (.bad 4)) ∧
        (¬ first → c.depth + g6 ≤ 24 → g1 ≤ c.frame.length → g1 ≤ 512 → (c.spanEnd < g4 ∨ g4 < g1) → ends (.bad 2)) ∧
        (¬ first → c.depth + g6 ≤ 24 → g1 ≤ c.frame.length → g1 ≤ 512 → g4 ≤ c.spanEnd → g1 ≤ g4 →
          (m = 0 → nodeCount g ≤ g5 → ends (.bad 6)) ∧
          (m = 0 → g5 < nodeCount g →
            let d : Copy := { c with md := run.md, depth := c.depth + g6, spanEnd := g4, off := g1, node := g5, stack := c.stack ++ [(leAt nd 0 1, c.off)] }
            exec (.reedReturn k) s = .next (afterParse s k (parseLoop g 26 d).1 (parseLoop g 26 d).2)) ∧ (m = 2 → ends (.bad g5)) ∧
          (m = 1 → exec (.reedReturn k) s =
            .next (afterParse s k { c with md := run.md, depth := c.depth + g6, spanEnd := g4, off := g1, node := g5, stack := c.stack ++ [(leAt nd 0 1, c.off)] } .done)))) ∧
      (c.stage = 2 → ∀ cls cause, run.how = .bad cls → run.cause = some cause → ∃ u, exec (.reedReturn k) s = .next (afterParse u k { c with md := run.md } (.bad cls)) ∧
        getF u Fld.trussReedLastCause 0 = cause % 32 ∧ getF u Fld.trussReedLastProgram 0 = leAt nd 0x15 1) ∧
      (c.stage = 2 → ∃ u d, exec (.reedTimeout k) s = .next (afterParse u k d (.bad 7)) ∧ u.ftime = Nat.max s.ftime (c.since + 4000) ∧ d = { c with md := d.md } ∧ u.regs = s.regs) ∧
      (c.stage ≠ 2 → exec (.reedReturn k) s = .next s ∧ exec (.reedTimeout k) s = .next s)) ∧
    (let q := framePrio frame
     (portUp s port = false → exec (.frameReceived port ts frame true) s = .next s) ∧
     (portUp s port = true → exec (.frameReceived port ts frame false) s = .next (bump (ungate s 76) Fld.swRxErrCnt port)) ∧
     (portUp s port = true → (frame.length < 60 ∨ 9212 < frame.length) → exec (.frameReceived port ts frame true) s = .next (bump (ungate s 76) Fld.swRxErrCnt port)) ∧
     (portUp s port = true → 60 ≤ frame.length → frame.length ≤ 9212 → stormDrops s port q = false →
       (bufferDrops s port q frame.length = true → exec (.frameReceived port ts frame true) s = .next (bump (ungate s 76) Fld.swRxDropCnt port)) ∧
       (bufferDrops s port q frame.length = false → getF s Fld.swPortCfgLearn port = 0 → exec (.frameReceived port ts frame true) s = .next (switchFrame (ungate s 76) port q frame)) ∧
       (bufferDrops s port q frame.length = false → getF s Fld.swPortCfgLearn port = 1 → spoofed (ungate s 76) port frame = false →
         exec (.frameReceived port ts frame true) s = .next (switchFrame (learnAsk (ungate s 76) ts port (fdbKey (frameVlan frame) (srcMac frame))) port q frame)) ∧
       (bufferDrops s port q frame.length = false → getF s Fld.swPortCfgLearn port = 1 → spoofed (ungate s 76) port frame = true →
         exec (.frameReceived port ts frame true) s = .next (bump (ungate s 76) Fld.swSpoofCnt 0))) ∧
     (forwardTo s port frame = [p] → p < 64 → portUp s p = true → ipAt frame = none → pfcOn s p q = false → s.xpt.egress = [] →
       switchFrame s port q frame = (if stormOut s p q then bumpN s Fld.xptStormDropCnt 0 1 else { s with out := .frame p frame :: s.out }))) ∧
    (opOf s n = some o → o.opcode = 0x0200 → o.st = .admitted →
      let a := leAt o.body 0 8
      let len := leAt o.body 8 4
      let v := ringVport s o.qp
      let f := readBytes s a len ++ List.replicate (60 - len) 0
      (classOf a = some .hbm → leAt o.body 12 2 % 8 = 0 →
        (getF s Fld.swVportCfgAntiSpoof v = 1 → srcMac f ≠ vportMac s v → exec (.txDone n host 0) s = .next (finishOp s n 0x43 0 0)) ∧
        (getF s Fld.swVportCfgAntiSpoof v = 0 → portDown s v f = true → exec (.txDone n host 0) s = .next (finishOp s n 0x42 0 0)) ∧
        (getF s Fld.swVportCfgAntiSpoof v = 0 → portDown s v f = false → (forwardTo s v f).any (fun p => isExternal p && egressPaused s p (txPrio o)) = false →
          ∃ u, exec (.txDone n host 0) s = .next (finishOp (switchFrame (ungate u 76) v (txPrio o) f) n 0 (Nat.max len 60) 0) ∧ u = putOp s n { o with st := .committed })) ∧
      (exec (.txDone n host 4) s = .next (finishOp s n 6 0 0) ∧ exec (.txDone n host 2) s = .next (finishOp s n 5 0 2)))

/-- Rule commands (09 R262 to R267, Table 9.7). -/
def Obligations.RuleTableCommands : Prop :=
  ∀ (s : State) (req : Requester) (tid : Tid) (t : Nat),
    let r := argRule s t
    let stg := s.truss.staging
    let status (u : State) (n : Nat) : Prop := getF u Fld.trussRuleStatStatus 0 = n ∧ u.truss.cur = s.truss.cur ∧ u.truss.prev = s.truss.prev ∧ u.mem = s.mem ∧ u.out = s.out
    let ends (i : Instr) (n : Nat) : Prop := ∃ u, exec i s = .next u ∧ status u n ∧ u.truss = s.truss
    (mode s = 1 → Requester.isPf req = true → getF s Fld.trussRuleStatBusy 0 = 0 →
      (argOk s t = true → actOk t r.act = true → holdsRule s stg.rules r = false → rulesDiffer s (stg.rules ++ [r]) s.truss.cur.rules ≤ 65536 →
        ((stg.rules ++ [r]).filter (fun x => x.table == t)).length + (s.truss.cur.rules.filter (fun x => x.table == t && !(stg.rules ++ [r]).contains x)).length ≤ (tableDef s.truss.graph t).2.2.2 →
        ∃ u, exec (.ruleAdd req t) s = .next u ∧ status u 0 ∧ u.truss.staging.rules = stg.rules ++ [r] ∧ u.truss.staging.miss = stg.miss) ∧
      (argOk s t = true → actOk t r.act = true → holdsRule s stg.rules r = false → 65536 < rulesDiffer s (stg.rules ++ [r]) s.truss.cur.rules → ends (.ruleAdd req t) 4) ∧
      (argOk s t = true → actOk t r.act = true → holdsRule s stg.rules r = true → ends (.ruleAdd req t) 2) ∧
      (argOk s t = false → ends (.ruleAdd req t) 5 ∧ ends (.ruleDelete req t) 5 ∧ ends (.ruleModify req t) 5) ∧
      (actOk t r.act = false → ends (.ruleAdd req t) 5 ∧ ends (.ruleModify req t) 5 ∧ ends (.ruleSetMiss req t) 5) ∧
      (argOk s t = true → holdsRule s stg.rules r = false → ends (.ruleDelete req t) 3 ∧ (actOk t r.act = true → ends (.ruleModify req t) 3)) ∧
      (argOk s t = true → holdsRule s stg.rules r = true →
        let kept := stg.rules.filter (fun x => !sameRule (kindOfTable s t) x r)
        rulesDiffer s kept s.truss.cur.rules ≤ 65536 →
        (kept.filter (fun x => x.table == t)).length + (s.truss.cur.rules.filter (fun x => x.table == t && !kept.contains x)).length ≤ (tableDef s.truss.graph t).2.2.2 →
        ∃ u, exec (.ruleDelete req t) s = .next u ∧ status u 0 ∧ u.truss.staging.rules = kept) ∧
      (argOk s t = true → actOk t r.act = true → holdsRule s stg.rules r = true →
        let done := stg.rules.map (fun x => if sameRule (kindOfTable s t) x r then { x with act := r.act } else x)
        rulesDiffer s done s.truss.cur.rules ≤ 65536 →
        (done.filter (fun x => x.table == t)).length + (s.truss.cur.rules.filter (fun x => x.table == t && !done.contains x)).length ≤ (tableDef s.truss.graph t).2.2.2 →
        ∃ u, exec (.ruleModify req t) s = .next u ∧ status u 0 ∧ u.truss.staging.rules = done) ∧
      (s.truss.graph ≠ [] → kindOfTable s t ≠ 0 → actOk t (argAct s) = true → ∃ u, exec (.ruleSetMiss req t) s = .next u ∧ status u 0 ∧ Tab.get 4 u.truss.staging.miss t = argAct s ∧
        (∀ x, x ≠ t → Tab.get 4 u.truss.staging.miss x = Tab.get 4 stg.miss x) ∧ u.truss.staging.rules = stg.rules) ∧
      (∃ u, exec (.ruleDiscard req) s = .next u ∧ status u 0 ∧ u.truss.staging = s.truss.cur) ∧
      ((getF s Fld.trussVerPrevious 0 = 0 ∨ oldInflight s = 0) →
        let v := getF s Fld.trussVerCurrent 0
        let w := if v = 0xFFFF then 1 else v + 1
        ∃ u, exec (.ruleCommitOp req) s = .next (raiseT u srcSwitch { code := 0x0404, aux16 := w, arg0 := v }) ∧ u.truss.cur = stg ∧ u.truss.prev = s.truss.cur ∧ getF u Fld.trussVerCurrent 0 = w ∧
          getF u Fld.trussVerPrevious 0 = v ∧ getF u Fld.trussRuleStatStatus 0 = 0 ∧ getF u Fld.trussRuleStatBusy 0 = 0 ∧ getF u Fld.trussCommitCnt 0 = (getF s Fld.trussCommitCnt 0 + 1) % 2 ^ 64 ∧ u.mem = s.mem) ∧
      (getF s Fld.trussVerPrevious 0 ≠ 0 → oldInflight s ≠ 0 → ∃ u, exec (.ruleCommitOp req) s = .next u ∧ status u 6 ∧ getF u Fld.trussRuleStatBusy 0 = 1 ∧ u.truss.commitWaits = true)) ∧
    (mode s = 1 → Requester.isPf req = true → getF s Fld.trussRuleStatBusy 0 = 1 → ends (.ruleAdd req t) 1 ∧ ends (.ruleDelete req t) 1 ∧ ends (.ruleModify req t) 1 ∧ ends (.ruleSetMiss req t) 1 ∧
      ends (.ruleDiscard req) 1 ∧ ends (.ruleCommitOp req) 1) ∧
    (mode s = 1 → exec (.ruleAdd (.thread tid) t) s = .next (bump s Fld.trussDeniedCnt 0) ∧ exec (.ruleCommitOp (.thread tid)) s = .next (bump s Fld.trussDeniedCnt 0)) ∧
    (s.truss.commitWaits = true → oldInflight s = 0 → exec .ruleCommitDeferred s = .next (commitRules s)) ∧
    ((s.truss.commitWaits = false ∨ oldInflight s ≠ 0) → exec .ruleCommitDeferred s = .next s)

/-- The switch (09 R273 to R277). -/
def Obligations.SwitchSteps : Prop :=
  ∀ (s : State) (req : Requester) (tid : Tid) (ts port key vlan mac p : Nat) (e : FdbEnt) (m1 m2 m3 : Nat × Nat) (t4 p4 : Nat), port < 64 →
    let s0 : State := { s with truss := { s.truss with learnQ := [] } }
    (s.truss.learnQ = [(ts, port, key)] → vportByKey s key = none →
      (Tab.lookup s.truss.fdb key = none → s.truss.fdb.length < 4 → exec .learn s =
        .next { s0 with truss := { s0.truss with fdb := Tab.put s.truss.fdb key { port := port, static := false, flapping := false, moves := [], hitAt := s.ftime } } }) ∧
      (Tab.lookup s.truss.fdb key = some e →
        (e.port = port → exec .learn s = .next { s0 with truss := { s0.truss with fdb := Tab.put s.truss.fdb key { e with hitAt := s.ftime } } }) ∧
        (e.port ≠ port → e.static = true → exec .learn s = .next (bump s0 Fld.swSpoofCnt 0)) ∧
        (e.port ≠ port → e.static = false → e.flapping = true → exec .learn s = .next (bump s0 Fld.swFlapIgnoredCnt 0)) ∧
        (e.port ≠ port → e.static = false → e.flapping = false → e.moves.length < 4 → ∃ u, exec .learn s = .next (raiseT u srcSwitch { code := 0x0401, aux16 := port, arg0 := key, arg1 := e.port }) ∧
          Tab.lookup u.truss.fdb key = some { e with port := port, moves := (ts, e.port) :: e.moves, hitAt := s.ftime } ∧ getF u Fld.swMoveCnt 0 = (getF s Fld.swMoveCnt 0 + 1) % 2 ^ 64 ∧ u.mem = s.mem) ∧
        (e.port ≠ port → e.static = false → e.flapping = false → e.moves = [m1, m2, m3, (t4, p4)] → ts < t4 + 1000000 → ∃ u, exec .learn s =
          .next (raiseT u srcSwitch { code := 0x0402, aux16 := p4, arg0 := key }) ∧ Tab.lookup u.truss.fdb key = some { e with port := p4, flapping := true, hitAt := s.ftime } ∧
          getF u Fld.swFlapCnt 0 = (getF s Fld.swFlapCnt 0 + 1) % 2 ^ 64))) ∧
    (s.truss.learnQ = [(ts, port, key)] → vportByKey s key = some p → exec .learn s = .next (bump s0 Fld.swSpoofCnt 0)) ∧
    (∀ a b, s.truss.learnQ = [a, b] → (a.1 < b.1 ∨ (a.1 = b.1 ∧ a.2.1 ≤ b.2.1)) → learnNext s.truss.learnQ = some a) ∧
    (s.truss.learnQ = [] → exec .learn s = .next s) ∧
    (Tab.lookup s.truss.fdb (vlan * 2 ^ 48 + mac) = some e →
      (getF s Fld.swCtlAgeS 0 ≠ 0 → e.static = false → e.flapping = false → ∃ u, exec (.entryAgeing vlan mac) s = .next u ∧ Tab.lookup u.truss.fdb (vlan * 2 ^ 48 + mac) = none ∧
        u.ftime = Nat.max s.ftime (e.hitAt + getF s Fld.swCtlAgeS 0 * 1000000000) ∧ (∀ k, k ≠ vlan * 2 ^ 48 + mac → Tab.lookup u.truss.fdb k = Tab.lookup s.truss.fdb k) ∧ u.regs = s.regs) ∧
      ((getF s Fld.swCtlAgeS 0 = 0 ∨ e.static = true ∨ e.flapping = true) → exec (.entryAgeing vlan mac) s = .next s)) ∧
    (mode s = 1 → Requester.isPf req = true →
      let k := vlan * 2 ^ 48 + (getF s Fld.swFdbMacLo 0 + getF s Fld.swFdbMacHi 0 * 2 ^ 32)
      let at_ := getF s Fld.swFdbPort 0
      let ends (u : State) (n : Nat) : Prop := getF u Fld.swFdbStatStatus 0 = n ∧ getF u Fld.swFdbStatBusy 0 = 0 ∧ u.mem = s.mem ∧ u.out = s.out
      (at_ ≤ 0x27F → vportByKey s k = none → Tab.lookup s.truss.fdb k = none → ∃ u, exec (.fdbAddStatic req vlan) s = .next u ∧ ends u 0 ∧
        Tab.lookup u.truss.fdb k = some { port := at_, static := true, flapping := false, moves := [], hitAt := s.ftime }) ∧
      (0x27F < at_ → ∃ u, exec (.fdbAddStatic req vlan) s = .next u ∧ ends u 5 ∧ u.truss = s.truss) ∧
      (at_ ≤ 0x27F → Tab.lookup s.truss.fdb k = some e → e.static = true → ∃ u, exec (.fdbAddStatic req vlan) s = .next u ∧ ends u 2 ∧ u.truss = s.truss) ∧
      (Tab.lookup s.truss.fdb k = none → (∃ u, exec (.fdbDelete req vlan) s = .next u ∧ ends u 3 ∧ u.truss = s.truss) ∧ (∃ u, exec (.fdbClearFlap req vlan) s = .next u ∧ ends u 3 ∧ u.truss = s.truss) ∧
        (vportByKey s k = none → ∃ u, exec (.fdbLookup req vlan) s = .next u ∧ ends u 3 ∧ u.truss = s.truss)) ∧
      (Tab.lookup s.truss.fdb k = some e → (∃ u, exec (.fdbDelete req vlan) s = .next u ∧ ends u 0 ∧ Tab.lookup u.truss.fdb k = none) ∧
        (∃ u, exec (.fdbClearFlap req vlan) s = .next u ∧ ends u 0 ∧ Tab.lookup u.truss.fdb k = some { e with flapping := false, moves := [], hitAt := s.ftime }) ∧
        (vportByKey s k = none → e.port < 1024 → ∃ u, exec (.fdbLookup req vlan) s = .next u ∧ ends u 0 ∧ u.truss = s.truss ∧ getF u Fld.swFdbStatPort 0 = e.port ∧
          getF u Fld.swFdbStatStatic 0 = (if e.static then 1 else 0) ∧ getF u Fld.swFdbStatFlapping 0 = (if e.flapping then 1 else 0))) ∧
      (∃ u, exec (.fdbFlush req) s = .next u ∧ ends u 0 ∧ u.truss.fdb = s.truss.fdb.filter (fun x => x.2.static || x.2.port != at_))) ∧
    (mode s = 1 → exec (.fdbAddStatic (.thread tid) vlan) s = .next (bump s Fld.trussDeniedCnt 0) ∧ exec (.fdbFlush (.thread tid)) s = .next (bump s Fld.trussDeniedCnt 0)) ∧
    (portUp s port = false → portExists s port = true → ∃ u, exec (.linkUp port) s =
        .next (poolsSettle (limitWake (limitWake (limitWake (raiseD u srcXpt { code := 0x0502, aux8 := port }) 76) 64) (65 + getF (raiseD u srcXpt { code := 0x0502, aux8 := port }) Fld.trussPortCfgPipe port))) ∧
      portUp u port = true ∧ (∀ q, q ≠ port → portUp u q = portUp s q) ∧ u.regs = s.regs) ∧
    ((portUp s port = true ∨ portExists s port = false) → exec (.linkUp port) s = .next s) ∧
    (portUp s port = true → ∃ u, exec (.linkDown port) s = .next (poolsSettle (raiseD u srcXpt { code := 0x0501, aux8 := port })) ∧ portUp u port = false ∧ (∀ q, q ≠ port → portUp u q = portUp s q) ∧
      (∀ x, x ∈ u.xpt.egress ↔ x ∈ s.xpt.egress ∧ x.1 ≠ port) ∧ u.regs = s.regs) ∧
    (portUp s port = false → exec (.linkDown port) s = .next s)

/-- Packets of the eave transport (10 R282, R291 to R308). -/
def Obligations.EavePackets : Prop :=
  ∀ (s : State) (h : PktHdr) (rh : RemHdr) (bs : List Byte) (len cookie : Word) (v1 v2 : Dword) (wn gn value : Half) (rights syn : Byte) (n : Nat) (o : Op) (m : Msg),
    let c := h.conn
    let x := connOf s c
    let w := touchCtx (ungate s 76) c
    let e1 := setConn w c { x with skip := false }
    let ready : Prop := portUp s h.port = true ∧ x.st = 1 ∧ h.port = x.port ∧ h.srcIp = x.peerIp ∧ h.dstIp = x.localIp ∧ eaveDropped s h = false ∧ ctxCached s c = true ∧ x.sec = false ∧ h.sec = false
    let expected : Prop := ready ∧ psnDist x.e h.psn = 0 ∧ (x.skip = true → h.first = true)
    let fresh : Prop := expected ∧ x.inMsg = false ∧ h.first = true
    let sole : Prop := fresh ∧ h.last = true
    let win := winOf s (rh.rref.toNat % 65536)
    let a := win.base + rh.offset.toNat
    let granted (k right : Nat) : Prop := rh.rkind = 0 ∧ win.isOpen = true ∧ win.gen = rh.rref.toNat / 65536 ∧ (win.conn = c ∨ (win.conn = 0xFFFFF ∧ x.bay = win.bay)) ∧ bitN win.rights right = true ∧
      rh.offset.toNat + k ≤ win.size ∧ inHost a = false
    let stale : Prop := rh.rkind = 0 ∧ (win.isOpen = false ∨ win.gen ≠ rh.rref.toNat / 65536)
    let goes (i : Instr) (r : State) : Prop := exec i s = .next (pump r c)
    (fresh → granted bs.length 1 → goes (.writePacket h rh bs) (performed (writeBytes e1 a bs) c h 1 h.ackreq)) ∧
    (expected → h.first = false → x.inMsg = true → x.recv = none → granted bs.length 1 → goes (.writePacket h rh bs) (performed (writeBytes e1 a bs) c h 1 h.ackreq)) ∧
    (fresh → stale → goes (.writePacket h rh bs) (termNak (staleHit e1 c (rh.rref.toNat % 65536) (rh.rref.toNat / 65536)) c h 3 1 true)) ∧
    (expected → h.first = true → x.inMsg = true → goes (.writePacket h rh bs) (termNak e1 c h 6 1 true)) ∧
    (ready → psnDist x.e h.psn = 0 → x.skip = true → h.first = false → goes (.writePacket h rh bs) (skipped w c h 1) ∧ goes (.sendPacket h bs) (skipped w c h 1)) ∧
    (ready → 0 < psnDist x.e h.psn → psnDist x.e h.psn < 2 ^ 23 →
      (x.seqNak = true → goes (.writePacket h rh bs) w ∧ goes (.sendPacket h bs) w) ∧
      (x.seqNak = false → ∃ u, goes (.writePacket h rh bs) (sendNak u c 1 x.e 0) ∧ (connOf u c).seqNak = true ∧ (connOf u c).e = x.e ∧ getF u Fld.xptSeqNakCnt 0 = (getF s Fld.xptSeqNakCnt 0 + 1) % 2 ^ 64 ∧ u.mem = s.mem)) ∧
    (ready → 2 ^ 23 ≤ psnDist x.e h.psn → goes (.writePacket h rh bs) (sendAck (bump w Fld.xptDupCnt 0) c true) ∧ goes (.sendPacket h bs) (sendAck (bump w Fld.xptDupCnt 0) c true) ∧
      goes (.windowNotifyPacket h wn gn rights v1 cookie) (sendAck (bump w Fld.xptDupCnt 0) c true) ∧
      (granted len.toNat 0 → goes (.readReqPacket h rh len) (sendResponses (bump w Fld.xptDupCnt 0) c h.psn a len.toNat)) ∧
      (∀ old, x.replay.find? (fun e => e.1 == h.psn) = some (h.psn, old) → goes (.fetchAddPacket h rh v1) (sendOld (bump w Fld.xptDupCnt 0) c h.psn old) ∧ goes (.cmpSwapPacket h rh v1 v2) (sendOld (bump w Fld.xptDupCnt 0) c h.psn old))) ∧
    (sole → granted len.toNat 0 → goes (.readReqPacket h rh len) (performed (sendResponses e1 c h.psn a len.toNat) c h (pktCount x.mtu len.toNat) h.ackreq)) ∧
    (sole → granted 8 2 → rh.offset.toNat % 8 = 0 →
      let old : Dword := BitVec.ofNat 64 (readLe s a 8)
      (∃ u, goes (.fetchAddPacket h rh v1) (performed (sendOld u c h.psn old) c h 1 false) ∧ readLe u a 8 = (old + v1).toNat ∧ (∀ b, b < a ∨ a + 8 ≤ b → readByte u b = readByte s b) ∧ (connOf u c).replay = ((h.psn, old) :: x.replay).take 16) ∧
      (∃ u, goes (.cmpSwapPacket h rh v1 v2) (performed (sendOld u c h.psn old) c h 1 false) ∧ readLe u a 8 = (if old = v1 then v2 else old).toNat ∧ (∀ b, b < a ∨ a + 8 ≤ b → readByte u b = readByte s b))) ∧
    (fresh → x.recv = none → recvFree e1 x.home = none → goes (.sendPacket h bs) (sendNak e1 c 2 h.psn (getF e1 Fld.xptRnrUs 0))) ∧
    (sole → x.recv = none → recvFree e1 x.home = some n → opOf s n = some o → bs.length ≤ leAt o.body 16 4 → classOf (leAt o.body 8 8) = some .hbm →
      ∃ u, goes (.sendPacket h bs) (finishOp (putOp (performed u c h 1 h.ackreq) n { o with st := .committed }) n 0 bs.length 0) ∧ (∀ i (hi : i < bs.length), readByte u (leAt o.body 8 8 + i) = bs[i]) ∧
        (∀ b, b < leAt o.body 8 8 ∨ leAt o.body 8 8 + bs.length ≤ b → readByte u b = readByte s b) ∧ connOf u c = { x with skip := false, recv := none }) ∧
    (sole → goes (.windowNotifyPacket h wn gn rights v1 cookie) (performed (raiseR e1 srcXpt x.home
      { code := 0x0508, bay := x.bay, aux8 := rights.toNat, aux16 := wn.toNat, arg0 := v1.toNat % 2 ^ 40 + c * 2 ^ 40, arg1 := gn.toNat + cookie.toNat * 65536 }) c h 1 h.ackreq)) ∧
    (ready → h.ece = false → psnDist x.una x.nxt ≤ psnDist x.una h.psn → goes (.ackPacket h) w) ∧
    (ready → h.ece = false → psnDist x.una h.psn < psnDist x.una x.nxt → (∀ k, k ∈ x.msgs → k.kind ∉ [2, 4, 5]) → psnAdd h.psn 1 ≠ x.una →
      goes (.ackPacket h) (settleConn (setConn w c { x with una := psnAdd h.psn 1, retry := 0, rnr := 0, retryFrom := s.ftime }) c)) ∧
    (ready → h.psn = x.una → psnDist x.una x.nxt ≠ 0 → x.una < 2 ^ 24 →
      goes (.nakPacket h 1 value) (retryConn w c h.psn) ∧
      (x.rnrWait = none → goes (.nakPacket h 2 value) (setConn w c { x with rnrWait := some (s.ftime + value.toNat * 1000, h.psn) })) ∧
      (∀ k, syn = BitVec.ofNat 8 k → 3 ≤ k → k ≤ 7 → x.msgs = [m] → m.sent ≠ 0 → psnDist m.psn0 h.psn < msgSpan m →
        goes (.nakPacket h syn value) (endMsg (putMsg w c 0 { m with dead := true }) m (0x4E + k) 0))) ∧
    (ready → x.msgs = [] → goes (.readRespPacket h bs) w ∧ goes (.atomicRespPacket h v1) w) ∧
    (ready → x.msgs = [m] → m.who = .op n → opOf s n = some o → m.dead = false → m.sent ≠ 0 → m.got < m.n → psnAdd m.psn0 m.got = h.psn → h.psn = x.una →
      (m.kind = 2 → classOf (m.laddr + m.got * x.mtu) = some .hbm →
        (m.got + 1 < m.n → ∃ u, goes (.readRespPacket h bs) u ∧ u.mem = (writeBytes s (m.laddr + m.got * x.mtu) bs).mem ∧ (connOf u c).una = psnAdd x.una 1 ∧ (connOf u c).msgs = [{ m with got := m.got + 1 }] ∧ (connOf u c).retry = 0) ∧
        (m.got + 1 = m.n → ∃ u, goes (.readRespPacket h bs) (settleConn (finishOp u n 0 m.len 0) c) ∧ u.mem = (writeBytes s (m.laddr + m.got * x.mtu) bs).mem ∧ (connOf u c).una = psnAdd x.una 1)) ∧
      ((m.kind = 4 ∨ m.kind = 5) → classOf m.laddr = some .hbm →
        ∃ u, goes (.atomicRespPacket h v1) (settleConn (finishOp u n 0 v1.toNat 0) c) ∧ readLe u m.laddr 8 = v1.toNat ∧ (∀ b, b < m.laddr ∨ m.laddr + 8 ≤ b → readByte u b = readByte s b) ∧ (connOf u c).una = psnAdd x.una 1)) ∧
    (portUp s h.port = true → x.st = 0 → exec (.ackPacket h) s = .next (bump (ungate s 76) Fld.xptNoconnCnt 0)) ∧
    (portUp s h.port = false → exec (.ackPacket h) s = .next s) ∧
    (portUp s h.port = true → x.st = 1 → h.port = x.port → h.srcIp = x.peerIp → h.dstIp = x.localIp → eaveDropped s h = false →
      (ctxCached s c = false → s.xpt.fillWait = [] → ∃ u, exec (.ackPacket h) s = .next u ∧ u.xpt.fillWait = [(h, .ack)] ∧ getF u Fld.xptCtxMissCnt 0 = (getF s Fld.xptCtxMissCnt 0 + 1) % 2 ^ 64 ∧ u.mem = s.mem ∧ u.xpt.conns = s.xpt.conns) ∧
      (ctxCached s c = true → x.sec ≠ h.sec → exec (.ackPacket h) s = .next (authFail w c 3)))

/-- Timers and PFC (10 R305 to R315). -/
def Obligations.EaveTimersAndPfc : Prop :=
  ∀ (s : State) (c p q t u0 ver op : Nat) (h : PktHdr) (quanta : List Half), p < 64 → q < 8 →
    let x := connOf s c
    let f := pfcOf s p q
    let g : Rat := 1 / ((2 ^ getF s Fld.xptEcnGShift 0 : Nat) : Rat)
    let line := lineRate s x.port
    (x.st = 1 → x.lastDec = none → x.periods < 5 → exec (.rateIncreaseTimer c) s = .next (setConn s c { x with alpha := (1 - g) * x.alpha, rc := (x.rc + x.rt) / 2, periods := x.periods + 1 })) ∧
    (x.st = 1 → x.lastDec = none → 5 ≤ x.periods →
      let up := x.rt + ((getF s Fld.xptEcnAi 0 * 100000000 : Nat) : Rat)
      let rt := if line < up then line else up
      exec (.rateIncreaseTimer c) s = .next (setConn s c { x with alpha := (1 - g) * x.alpha, rt := rt, rc := (x.rc + rt) / 2, periods := x.periods + 1 })) ∧
    (x.st ≠ 1 → exec (.rateIncreaseTimer c) s = .next s ∧ exec (.retryTimeout c) s = .next s ∧ exec (.ackCoalesceTimeout c) s = .next s ∧ exec (.rnrWaitExpiry c) s = .next s) ∧
    (x.st = 1 → x.una ≠ x.nxt → x.rnrWait = none →
      let r := setConn (reach s (x.retryFrom + getF s Fld.xptRetryRetryUs 0 * 1000)) c { x with retry := x.retry + 1 }
      exec (.retryTimeout c) s = .next (pump (if x.retryLimit < x.retry + 1 then connErr r c 1 else resendFrom r c x.una) c)) ∧
    (x.st = 1 → x.una = x.nxt → exec (.retryTimeout c) s = .next s) ∧
    (x.st = 1 → x.rnrWait = some (t, u0) →
      let r := setConn (reach s t) c { x with rnr := x.rnr + 1, rnrWait := none }
      exec (.rnrWaitExpiry c) s = .next (if x.rnrLimit < x.rnr + 1 then connErr r c 2 else pump (resendFrom r c u0) c)) ∧
    (x.st = 1 → x.coalFrom = some t → exec (.ackCoalesceTimeout c) s = .next (sendAck (reach s (t + getF s Fld.xptAckCoalNs 0)) c false)) ∧
    (x.sec = false → portUp s x.port = true → pfcOn s x.port x.prio = false → stormOut s x.port x.prio = false → s.xpt.egress = [] →
      ∃ u b outer hdr, sendAck s c false = u ∧ u.out = .eave c b outer hdr [] :: s.out ∧ beAt outer 0 6 = x.peerMac % 2 ^ 48 ∧ beAt outer 6 6 = vportMac s (bayVport x.bay) ∧ beAt outer (outer.length - 8) 2 = 0xC000 + c % 0x4000 ∧
        beAt outer (outer.length - 6) 2 = getF s Fld.xptCtlUdpPort 0 ∧ beAt outer (outer.length - 4) 2 = 28 ∧ (x.ipv6 = false → beAt outer (outer.length - 2) 2 = 0) ∧
        hdr.length = 20 ∧ beAt hdr 0 1 = 0x28 ∧ beAt hdr 2 2 = 0 ∧ beAt hdr 4 4 = x.peerConn % 2 ^ 32 ∧ beAt hdr 8 4 = psnAdd x.e (2 ^ 24 - 1) ∧
        (connOf u c).coal = 0 ∧ (connOf u c).coalFrom = none ∧ (connOf u c).e = x.e ∧ u.mem = s.mem) ∧
    (portUp s h.port = true → (ver ≠ 1 ∨ 9 < op) → exec (.badEavePacket h ver op) s = .next (bump (ungate s 76) Fld.xptBadOpCnt 0)) ∧
    (portUp s h.port = false → exec (.badEavePacket h ver op) s = .next s) ∧
    (∀ (d : List Byte) (w : EaveAt) (v : Nat), eaveAt s d = some w → 0x240 ≤ v → forwardTo s p d = [v] →
      beAt d (w.off - 6) 2 = getF s Fld.xptCtlUdpPort 0 ∧
      (beAt d w.off 1 / 32 ≠ 1 → switchFrame s p q d = bump s Fld.xptBadOpCnt 0) ∧
      (beAt d w.off 1 = 0x28 → bitN (beAt d (w.off + 1) 1) 4 = false →
        let k := (eavePkt s p d w).1
        k.conn = beAt d (w.off + 4) 4 % 2 ^ 20 ∧ k.psn = beAt d (w.off + 8) 4 % 2 ^ 24 ∧ k.port = p ∧ k.sec = false ∧ k.srcIp = w.srcIp ∧ k.dstIp = w.dstIp ∧
        switchFrame s p q d = (if noConn s k then bump s Fld.xptNoconnCnt 0 else eaveTake s k .ack))) ∧
    (portUp s p = true → s.xpt.egress = [] → pfcOn s p q = true → stormOut s p q = false →
      (quanta.getD q 0 ≠ 0 → f.paused = none → exec (.pfcFrameReceived p (BitVec.ofNat 8 (2 ^ q)) quanta) s = .next (setPfc s p q { f with paused := some (s.ftime, s.ftime + pauseNs s p (quanta.getD q 0).toNat) })) ∧
      (quanta.getD q 0 = 0 → exec (.pfcFrameReceived p (BitVec.ofNat 8 (2 ^ q)) quanta) s = .next (setPfc s p q { f with paused := none }))) ∧
    (portUp s p = true → s.xpt.egress = [] → (pfcOn s p q = false ∨ stormOut s p q = true) → exec (.pfcFrameReceived p (BitVec.ofNat 8 (2 ^ q)) quanta) s = .next s) ∧
    (portUp s p = true → pfcOn s p q = true → f.xoff = some t → exec (.pfcRefresh p q) s = .next { s with out := .pfc p q true :: s.out }) ∧
    (f.xoff = none → exec (.pfcRefresh p q) s = .next s) ∧
    (let wait := getF s Fld.xptStormStormMs 0 * 1000000
     (f.xoff = some t → f.dropping = false → exec (.pfcStormDetected p q true) s =
        .next (raiseD (setPfc (reach s (t + wait)) p q { f with dropping := true }) srcXpt { code := 0x0503, aux8 := p, aux16 := q + 0x100 })) ∧
     (f.paused = some (t, u0) → t + wait ≤ u0 → f.ignore = none → ∃ u, exec (.pfcStormDetected p q false) s = .next (egressFlush (raiseD u srcXpt { code := 0x0503, aux8 := p, aux16 := q }) p q) ∧
        u.ftime = Nat.max s.ftime (t + wait) ∧ pfcOf u p q = { f with paused := none, ignore := some (u.ftime + getF s Fld.xptStormRecoverMs 0 * 1000000) } ∧ u.regs = s.regs) ∧
     (f.xoff = none → exec (.pfcStormDetected p q true) s = .next s) ∧ (f.paused = none → exec (.pfcStormDetected p q false) s = .next s) ∧
     (f.dropping = true → bufUse s p q < xonAt s p → exec (.pfcStormRecovery p q true) s = .next (raiseD (setPfc s p q { f with dropping := false }) srcXpt { code := 0x0503, aux8 := p, aux16 := q + 0x300 })) ∧
     (f.ignore = some t → exec (.pfcStormRecovery p q false) s = .next (raiseD (setPfc (reach s t) p q { f with ignore := none }) srcXpt { code := 0x0503, aux8 := p, aux16 := q + 0x200 })) ∧
     (f.dropping = false → exec (.pfcStormRecovery p q true) s = .next s) ∧ (f.ignore = none → exec (.pfcStormRecovery p q false) s = .next s))

/-- Dormers, regions, connections (10 R281 to R299). -/
def Obligations.DormersRegionsConnections : Prop :=
  ∀ (s : State) (n w t c : Nat) (o : Op),
    let x := winOf s w
    let closed (u : State) : Prop := (winOf u w).isOpen = false ∧ (winOf u w).gen = (if x.gen = 0xFFFF then 1 else x.gen + 1) ∧ (winOf u w).deadline = none ∧ (∀ k, k ≠ w → winOf u k = winOf s k) ∧ u.mem = s.mem
    (opOf s n = some o →
      (o.opcode = 0x0310 → freeWins s o.bay = [w] → exposeOk s o (leAt o.body 0 4) (leAt o.body 4 1) (leAt o.body 8 8) (leAt o.body 16 8) (2 ^ 40) = true →
        exposeBad s o (leAt o.body 8 8) (leAt o.body 16 8) (leAt o.body 4 1) = none →
        ∃ u, xptStart s n = finishOp u n 0 (w + x.gen * 65536) 0 ∧ (winOf u w).isOpen = true ∧ (winOf u w).gen = x.gen ∧ (winOf u w).conn = leAt o.body 0 4 ∧ (winOf u w).rights = leAt o.body 4 1 ∧ (winOf u w).base = leAt o.body 8 8 ∧
          (winOf u w).size = leAt o.body 16 8 ∧ (winOf u w).deadline = (if leAt o.body 24 4 = 0 then none else some (s.ftime + leAt o.body 24 4 * 1000)) ∧ (∀ k, k ≠ w → winOf u k = winOf s k) ∧ u.mem = s.mem) ∧
      (o.opcode = 0x0310 → freeWins s o.bay = [] → xptStart s n = finishOp s n 0x58 0 0) ∧
      (o.opcode = 0x0311 → w = leAt o.body 0 2 → x.isOpen = true → x.gen = leAt o.body 2 2 → closed (xptStart s n)) ∧
      (o.opcode = 0x0311 → w = leAt o.body 0 2 → (x.isOpen = false ∨ x.gen ≠ leAt o.body 2 2) → xptStart s n = finishOp s n 0x59 x.gen 0) ∧
      (o.opcode = 0x0311 → o.st = .admitted → w = leAt o.body 0 2 → exec (.dormerRevokeDone n) s = .next (finishOp s n 0 x.gen 0)) ∧
      (o.opcode = 0x0313 → o.st = .admitted → exec (.regionDeregDone n) s = .next (finishOp s n 0 0 0)) ∧
      (o.opcode = 0x0312 → c = leAt o.body 0 4 →
        let a := rgnAddr s c
        (ownsRgn s o.bay c = false → xptStart s n = finishOp s n 0x5A 0 0) ∧
        (ownsRgn s o.bay c = true → leAt (rgnEntry s c) 0 1 % 2 = 0 → exposeOk s o (leAt o.body 24 4) (leAt o.body 4 1) (leAt o.body 8 8) (leAt o.body 16 8) (2 ^ 44) = true →
          exposeBad s o (leAt o.body 8 8) (leAt o.body 16 8) (leAt o.body 4 1) = none →
          let tag := (leAt (rgnEntry s c) 1 1 + 1) % 256
          ∃ u, xptStart s n = finishOp u n 0 (c + tag * 2 ^ 24) 0 ∧ readLe u a 1 = (1 + 2 * leAt o.body 4 1) % 256 ∧ readLe u (a + 1) 1 = tag ∧ readLe u (a + 2) 1 = o.bay % 256 ∧ readLe u (a + 4) 4 = leAt o.body 24 4 ∧
            readLe u (a + 8) 8 = leAt o.body 8 8 ∧ readLe u (a + 16) 8 = leAt o.body 16 8 ∧ (∀ b, b < a ∨ a + 32 ≤ b → readByte u b = readByte s b))) ∧
      (o.opcode = 0x0313 → c = leAt o.body 0 3 → ownsRgn s o.bay c = true → leAt (rgnEntry s c) 0 1 % 2 = 1 → leAt (rgnEntry s c) 1 1 = leAt o.body 3 1 →
        readLe (xptStart s n) (rgnAddr s c) 1 = leAt (rgnEntry s c) 0 1 - 1 ∧ (∀ b, b ≠ rgnAddr s c → readByte (xptStart s n) b = readByte s b)) ∧
      (o.opcode = 0x0320 → c = leAt o.body 0 4 → (connOf s c).st ≠ 0 → xptStart s n = finishOp s n 0x57 0 0) ∧
      (o.opcode = 0x0320 → c = leAt o.body 0 4 → (connOf s c).st = 0 → leAt o.body 8 8 % 64 = 0 → inEnvelope s o.bay (leAt o.body 8 8) 64 = true → openOk s o (readBytes s (leAt o.body 8 8) 64) = true →
        ∃ u, xptStart s n = finishOp u n 0 0 0 ∧ (connOf u c).st = 1 ∧ (connOf u c).bay = o.bay ∧ (connOf u c).home = o.qp ∧ (connOf u c).msgs = [] ∧ ctxCached u c = true ∧ u.mem = s.mem ∧ u.regs = s.regs) ∧
      (o.opcode = 0x0321 → c = leAt o.body 0 4 → (connOf s c).st = 1 → (connOf (xptStart s n) c).st = 3 ∧ (connOf (xptStart s n) c).closeOp = some n ∧ (connOf (xptStart s n) c).msgs = (connOf s c).msgs) ∧
      (o.opcode = 0x0321 → c = leAt o.body 0 4 → (connOf s c).st = 0 → xptStart s n = finishOp s n 0x57 0 0) ∧
      (o.opcode = 0x0322 → c = leAt o.body 0 4 → xptStart s n = finishOp s n 0 ((connOf s c).nxt + (connOf s c).e * 2 ^ 24 + (connOf s c).st * 2 ^ 48) 0) ∧
      (o.opcode = 0x0321 → o.st = .admitted → (connOf s c).st = 3 → (connOf s c).msgs = [] → (connOf s c).closeOp = some n → opsWhere s (forConn c) = [] →
        ∃ u, exec (.connCloseDone c) s = .next (finishOp u n 0 0 0) ∧ Tab.lookup u.xpt.conns c = none ∧ ctxCached u c = false ∧ (∀ k, k ≠ c → connOf u k = connOf s k) ∧ u.mem = s.mem ∧ u.rings = s.rings)) ∧
    (x.isOpen = true → x.deadline = some t → ∃ u, exec (.dormerExpiry w) s = .next (raiseR u srcDormer x.opener { code := 0x0509, bay := x.bay, aux16 := w, arg1 := (winOf u w).gen }) ∧ closed u ∧ u.ftime = Nat.max s.ftime t) ∧
    ((x.isOpen = false ∨ x.deadline = none) → exec (.dormerExpiry w) s = .next s) ∧
    (x.holdEnd = some t → ∃ u, exec (.windowWrapHoldExpiry w) s = .next u ∧ (winOf u w).holdEnd = none ∧ (winOf u w).gen = x.gen ∧ (winOf u w).isOpen = x.isOpen ∧ u.ftime = Nat.max s.ftime t ∧ u.mem = s.mem ∧ u.regs = s.regs) ∧
    (x.holdEnd = none → exec (.windowWrapHoldExpiry w) s = .next s) ∧
    ((connOf s c).st ≠ 3 → exec (.connCloseDone c) s = .next s) ∧
    ((connOf s c).st ≠ 0 → ctxCached s c = false → s.xpt.fillWait = [] → s.rings.ops = [] →
      (∃ u, exec (.contextFillDone c true) s = .next u ∧ ctxCached u c = true ∧ u.xpt.conns = s.xpt.conns ∧ u.mem = s.mem ∧ u.regs = s.regs) ∧
      ((connOf s c).st = 2 → exec (.contextFillDone c false) s = .next (touchCtx s c)) ∧
      ((connOf s c).st = 1 → (connOf s c).msgs = [] → ∃ u, exec (.contextFillDone c false) s = .next u ∧ (connOf u c).st = 2 ∧ (connOf u c).reason = 4) ∧
      exec (.contextWriteBackFail c) s = .next (connErr s c 4)) ∧
    (ctxCached s c = true → exec (.contextFillDone c true) s = .next s ∧ exec (.contextWriteBackFail c) s = .next s)

/-- Nawyn links (11 R325 to R331). -/
def Obligations.NawynLinkSteps : Prop :=
  ∀ (s : State) (req : Requester) (t : Tid) (l peer n seq : Nat) (v : Word) (lanes : BitVec 4) (half : Bool) (cr : List Nat) (id : Word) (arm : Dword) (h : FlitAck) (f : Flit) (m : NMsg) (o : Op), l < 16 →
    let st := getF s Fld.nawynLinkStatState l
    let x := linkOf s l
    let count (u : State) (fld : Fld) : Prop := getF u fld l = (getF s fld l + 1) % 2 ^ 64
    let train (u : State) (k : Nat) : Prop := getF u Fld.nawynLinkStatState l = k ∧ (∀ r i, (r ≠ .nawynLinkStat ∧ r ≠ .nawynLinkCfg ∧ r ≠ .nawynRetrainCnt) ∨ i ≠ l → getReg u r i = getReg s r i) ∧ u.mem = s.mem ∧ u.out = s.out ∧ u.nawyn = s.nawyn
    (Requester.isPf req = true → mode s = 1 → st = 0 → v.toNat % 2 = 1 → v.toNat / 2 % 4 ≠ 3 → domState s 75 ≠ 3 → x.active = none → ∃ u, exec (.nawynLinkEnable req l v) s = .next u ∧ train u 1 ∧
      getF u Fld.nawynLinkCfgEnable l = 1 ∧ getF u Fld.nawynLinkCfgMaxWidth l = v.toNat / 2 % 4 ∧ getF u Fld.nawynLinkCfgHalfRate l = v.toNat / 8 % 2 ∧ getF u Fld.nawynLinkCfgCourseEn l = v.toNat / 16 % 2) ∧
    (Requester.isPf req = true → mode s = 1 → v.toNat % 2 = 0 → ∃ u, exec (.nawynLinkDisable req l v) s = .next (linkDown u l 0) ∧ getF u Fld.nawynLinkCfgEnable l = 0 ∧ u.nawyn = s.nawyn ∧ getF u Fld.nawynLinkStatState l = st ∧ u.mem = s.mem) ∧
    (linkUp s l = false → ∃ u, linkDown s l 0 = u ∧ getF u Fld.nawynLinkStatState l = 0 ∧ linkOf u l = x.keepDown ∧ u.mem = s.mem ∧ u.out = s.out) ∧
    (mode s = 1 → exec (.nawynLinkEnable (.thread t) l v) s = .next (bump s Fld.nawynDeniedCnt 0) ∧ exec (.nawynLinkDisable (.thread t) l v) s = .next (bump s Fld.nawynDeniedCnt 0)) ∧
    (mayTrain s l = true → st ≤ 1 → ∃ u, exec (.nawynDetectRetry l) s = .next u ∧ train u 1) ∧
    (mayTrain s l = true → st = 1 → ∃ u, exec (.nawynPeerDetected l) s = .next u ∧ train u 2) ∧
    (mayTrain s l = false → exec (.nawynDetectRetry l) s = .next s ∧ exec (.nawynPeerDetected l) s = .next s) ∧
    (st = 2 →
      (getF s Fld.nawynLinkCfgMaxWidth l = 2 → ∃ u, exec (.nawynAlignDone l 15) s = .next u ∧ train u 3 ∧ getF u Fld.nawynLinkStatWidth l = 2) ∧
      (1 ≤ getF s Fld.nawynLinkCfgMaxWidth l → ∃ u, exec (.nawynAlignDone l 12) s = .next u ∧ train u 3 ∧ getF u Fld.nawynLinkStatWidth l = 1) ∧
      (∃ u, exec (.nawynAlignDone l 2) s = .next u ∧ train u 3 ∧ getF u Fld.nawynLinkStatWidth l = 0) ∧
      (∃ u, exec (.nawynAlignDone l 0) s = .next u ∧ train u 1 ∧ count u Fld.nawynRetrainCnt)) ∧
    (st ≠ 2 → exec (.nawynAlignDone l lanes) s = .next s) ∧
    (st = 3 → cr.length = 8 → (∀ k, k ∈ cr → 1 ≤ k ∧ k ≤ 4095) → peer ≠ nodeId s → peer < 4096 → ∃ u, exec (.nawynExchange l peer half cr id arm true) s = .next (sweepOversize (linkIsUp u l peer) l) ∧
      (∀ c, c < 8 → Tab.get 0 (linkOf u l).credits c = cr.getD c 0) ∧ getF u Fld.nawynLinkStatPeerNode l = peer ∧ getF u Fld.nawynLinkStatIdClash l = 0 ∧
      getF u Fld.nawynLinkStatHalfRate l = (if getF s Fld.nawynLinkCfgHalfRate l = 1 ∨ half = true then 1 else 0) ∧ (linkOf u l).replay = [] ∧ (linkOf u l).active = x.active ∧ u.mem = s.mem ∧ u.out = s.out) ∧
    (st = 3 → (∃ k, k ∈ cr ∧ k = 0) → ∃ u, exec (.nawynExchange l peer half cr id arm true) s = .next u ∧ train u 1 ∧ count u Fld.nawynRetrainCnt) ∧
    (st = 3 → ∃ u, exec (.nawynExchange l peer half cr id arm false) s = .next u ∧ train u 1 ∧ count u Fld.nawynRetrainCnt) ∧
    (st = 5 → ∃ u, exec (.laneLockLoss l) s = .next u ∧ train u 6) ∧ (st ≠ 5 → exec (.laneLockLoss l) s = .next s) ∧
    (st = 6 → ∃ u, exec (.nawynRetrainDone l 1 true) s = .next (pumpLink (sweepOversize (poolsSettle u) l) l) ∧ getF u Fld.nawynLinkStatState l = 5 ∧ getF u Fld.nawynLinkStatWidth l = 0 ∧ linkOf u l = { x with replayFrom := s.ftime, replays := 0 } ∧ u.mem = s.mem) ∧
    (st = 6 → x.fails = [] → ∃ u, exec (.nawynRetrainDone l lanes false) s = .next u ∧ getF u Fld.nawynLinkStatState l = 6 ∧ (linkOf u l).fails = [s.ftime] ∧ count u Fld.nawynRetrainCnt ∧ u.mem = s.mem) ∧
    (st = 5 → h.ackValid = true → x.replay = [f] → (h.ack + 1024 - f.seq) % 1024 < 512 → f.eom = false → x.started = [] → ∃ u, exec (.linkAckReceived l h) s = .next u ∧ (linkOf u l).replay = [] ∧ (linkOf u l).replays = 0 ∧
      Tab.get 0 (linkOf u l).credits h.crTc = Tab.get 0 x.credits h.crTc + (h.crCount + 256 - Tab.get 0 x.crSeen h.crTc) % 256 ∧ Tab.get 0 (linkOf u l).crSeen h.crTc = h.crCount ∧ count u Fld.nawynFlitRxCnt ∧ u.mem = s.mem ∧ u.out = s.out) ∧
    (st = 5 → h.ackValid = true → x.replay = [f] → (h.ack + 1024 - f.seq) % 1024 < 512 → f.eom = true → x.started = [(m, [])] → m.src = .op n → opOf s n = some o → o.opcode = 0x0401 → leAt m.hdr 4 1 = 1 →
      ∃ u, exec (.linkAckReceived l h) s = .next (pumpLink (finishOp u n 0 (leAt o.body 16 4) 0) l) ∧ (linkOf u l).replay = [] ∧ (linkOf u l).started = [] ∧ u.mem = s.mem) ∧
    (st = 5 → h.ackValid = false → x.replay = [f] → ∃ u, exec (.linkAckReceived l h) s = .next (pumpLink u l) ∧ (linkOf u l).replay = [f] ∧ (linkOf u l).started = x.started) ∧
    (st = 5 → exec (.nakFlit l h seq) s = .next (replayFrom (ackEffects (bump s Fld.nawynFlitRxCnt l) l h) l ((linkOf (ackEffects (bump s Fld.nawynFlitRxCnt l) l h) l).replay.dropWhile (fun f => f.seq != seq)))) ∧
    (st = 5 → x.replay = [f] →
      (x.replays < getF s Fld.nawynRetryReplayLimit 0 → ∃ u hd, exec (.replayTimeout l) s = .next u ∧ hd.ftype = 1 ∧ hd.seq = f.seq ∧ hd.tc = f.tc ∧ hd.som = f.som ∧ hd.eom = f.eom ∧ hd.ack = (x.rxSeq + 1023) % 1024 ∧ hd.ackValid = x.rxAny ∧
        u.out = .flit l (flitBytes hd f.payload) :: s.out ∧ count u Fld.nawynReplayCnt ∧ count u Fld.nawynFlitTxCnt ∧ (linkOf u l).replays = x.replays + 1 ∧ (linkOf u l).replay = [f] ∧
        u.ftime = Nat.max s.ftime (x.replayFrom + getF s Fld.nawynRetryReplayNs 0) ∧ u.mem = s.mem) ∧
      (getF s Fld.nawynRetryReplayLimit 0 ≤ x.replays → ∃ u, exec (.replayTimeout l) s = .next u ∧ getF u Fld.nawynLinkStatState l = 6 ∧ (linkOf u l).replays = 0 ∧ (linkOf u l).replay = [f] ∧ u.out = s.out)) ∧
    (x.replay = [] → exec (.replayTimeout l) s = .next s) ∧
    (st = 5 → x.nakSent = false → ∃ u hd, exec (.badFlit l 1 seq) s = .next u ∧ hd.ftype = 2 ∧ u.out = .flit l (flitBytes hd (leBytes 2 x.rxSeq)) :: s.out ∧ (linkOf u l).nakSent = true ∧ count u Fld.nawynFlitBadCnt ∧ count u Fld.nawynFlitRxCnt ∧ u.mem = s.mem) ∧
    (st = 5 → x.nakSent = true → ∃ u, exec (.badFlit l 0 seq) s = .next u ∧ u.out = s.out ∧ u.nawyn = s.nawyn ∧ count u Fld.nawynFlitBadCnt) ∧
    (st = 5 → 512 ≤ (seq + 1024 - x.rxSeq) % 1024 → exec (.badFlit l 2 seq) s = .next (bump s Fld.nawynFlitRxCnt l)) ∧
    (∀ hd : FlitHead, hd.ftype < 16 → hd.tc < 8 → hd.seq < 1024 → hd.ack < 1024 → hd.crTc < 8 → hd.crCount < 256 →
      fieldOf hd.num 3 0 = hd.ftype ∧ fieldOf hd.num 6 4 = hd.tc ∧ fieldOf hd.num 18 9 = hd.seq ∧ fieldOf hd.num 28 19 = hd.ack ∧ fieldOf hd.num 32 30 = hd.crTc ∧ fieldOf hd.num 40 33 = hd.crCount)

/-- Nawyn messages (11 R333 to R339). -/
def Obligations.NawynMessages : Prop :=
  ∀ (s : State) (m : NHdr) (bs host : List Byte) (mt : Byte) (a n l2 : Nat) (o : Op) (r : NRead),
    let t := takeFlits s m (msgFlits bs.length)
    let t0 := takeFlits s m (msgFlits 0)
    let up : Prop := m.link < 16 ∧ getF s Fld.nawynLinkStatState m.link = 5
    let mine : Prop := up ∧ m.linkLocal = false ∧ getF t Fld.nawynLinkStatIdClash m.link = 0 ∧ nodeId t ≠ 0xFFF ∧ m.dst ≠ 0xFFF ∧ m.dst = nodeId t
    let mine0 : Prop := up ∧ m.linkLocal = false ∧ getF t0 Fld.nawynLinkStatIdClash m.link = 0 ∧ nodeId t0 ≠ 0xFFF ∧ m.dst ≠ 0xFFF ∧ m.dst = nodeId t0
    let q := m.arg % 4096
    let w := latchWake t (getF t Fld.qpCtlServiceRafter q) 4
    (mine → aperAddr t m.src (m.arg % 2 ^ 38) bs.length true = some a → ∃ u, exec (.nawynWrite m bs) s = .next u ∧ (∀ i (h : i < bs.length), readByte u (a + i) = bs[i]) ∧ (∀ b, b < a ∨ a + bs.length ≤ b → readByte u b = readByte t b)) ∧
    (mine → aperAddr t m.src (m.arg % 2 ^ 38) bs.length true = none → exec (.nawynWrite m bs) s = .next (undeliver (bump t Fld.nawynAperFaultCnt 0) m.tc (hdrBytes24 m 1 bs.length) 3)) ∧
    (mine0 → aperAddr t0 m.src (m.arg % 2 ^ 38) (m.arg / 2 ^ 38 % 2 ^ 21) false = some a → ∃ u, u.mem = t0.mem ∧
      exec (.nawynReadReq m host false) s = .next (sendOwn u m.src m.tc 3 0 m.tag (m.arg % 2 ^ 38) (readBytes t0 a (m.arg / 2 ^ 38 % 2 ^ 21))) ∧ exec (.nawynReadReq m host true) s = .next (sendOwn u m.src m.tc 3 1 m.tag (m.arg % 2 ^ 38) [])) ∧
    (mine0 → aperAddr t0 m.src (m.arg % 2 ^ 38) (m.arg / 2 ^ 38 % 2 ^ 21) false = none → exec (.nawynReadReq m host false) s = .next (sendOwn (bump t0 Fld.nawynAperFaultCnt 0) m.src m.tc 3 1 m.tag (m.arg % 2 ^ 38) [])) ∧
    (mine → nrecvFor w q = some (n, o) →
      (bs.length ≤ leAt o.body 8 4 → classOf (leAt o.body 0 8) = some .hbm → ∃ u, exec (.nawynSend m bs) s = .next (finishOp (putOp u n { o with st := .committed }) n 0 bs.length 0) ∧
        (∀ i (h : i < bs.length), readByte u (leAt o.body 0 8 + i) = bs[i]) ∧ (∀ b, b < leAt o.body 0 8 ∨ leAt o.body 0 8 + bs.length ≤ b → readByte u b = readByte t b)) ∧
      (leAt o.body 8 4 < bs.length → exec (.nawynSend m bs) s = .next (finishOp w n 0x75 0 0))) ∧
    (mine → nrecvFor w q = none → exec (.nawynSend m bs) s = .next (undeliver (rxDropEvent (bump w Fld.nawynRxDropCnt 0) q m.src) m.tc (hdrBytes24 m 0 bs.length) 4)) ∧
    (mine → exec (.packetMessage m bs) s = .next (nrecv t m 6 (getF t Fld.nawynCtlPktQp 0) bs)) ∧
    (mine → Tab.lookup t.nawyn.reads m.tag = none → exec (.nawynReadResp m bs) s = .next (bump t Fld.nawynLateRespCnt 0)) ∧
    (mine → Tab.lookup t.nawyn.reads m.tag = some r → r.node = m.src → r.src = .op n → opOf t n = some o →
      (m.status = 0 → bs.length = r.len → classOf r.laddr = some .hbm → ∃ u, exec (.nawynReadResp m bs) s = .next (finishOp (putOp u n { o with st := .committed }) n 0 bs.length 0) ∧ Tab.lookup u.nawyn.reads m.tag = none ∧
        (∀ i (h : i < bs.length), readByte u (r.laddr + i) = bs[i]) ∧ (∀ b, b < r.laddr ∨ r.laddr + bs.length ≤ b → readByte u b = readByte t b)) ∧
      (m.status ≠ 0 → exec (.nawynReadResp m bs) s = .next (finishOp (dropRead t m.tag) n 0x74 0 0))) ∧
    (mine → Tab.lookup t.nawyn.reads m.tag = some r → (r.node ≠ m.src ∨ (m.status = 0 ∧ bs.length ≠ r.len)) → exec (.nawynReadResp m bs) s = .next (bump t Fld.nawynLateRespCnt 0)) ∧
    (Tab.lookup s.nawyn.reads a = some r → r.src = .op n → exec (.readTimeout a) s = .next (finishOp (dropRead (reach s r.deadline) a) n 0x71 0 0)) ∧
    (Tab.lookup s.nawyn.reads a = none → exec (.readTimeout a) s = .next s) ∧
    (mine → exec (.undelivered m bs) s = .next (raiseD t (srcNawyn (m.link % 16)) { code := 0x0608, aux8 := m.status, aux16 := leAt bs 4 1, arg0 := leAt bs 0 2 % 4096 + leAt bs 12 4 * 2 ^ 32, arg1 := m.src })) ∧
    (up → m.linkLocal = true → (t.ridge.attempt = none → exec (.bootMessage m bs) s = .next t) ∧
      (∀ at_, t.ridge.attempt = some at_ → at_.src = 5 → at_.link = m.link → exec (.bootMessage m bs) s = .next (mbxArrive (setAttempt t (some { at_ with tc := m.tc })) (pathNawyn m.link) bs 0))) ∧
    (mine → listedMtype mt.toNat = false → exec (.nawynBadMtype m mt bs) s = .next (undeliver (bump t Fld.nawynBadMtypeCnt 0) m.tc (hdrBytes24 m mt.toNat bs.length) 5)) ∧
    (listedMtype mt.toNat = true → exec (.nawynBadMtype m mt bs) s = .next s) ∧
    (up → m.linkLocal = false → getF t Fld.nawynLinkStatIdClash m.link = 0 → nodeId t ≠ 0xFFF → m.dst ≠ 0xFFF → m.dst ≠ nodeId t →
      (m.hops = 0 → exec (.nawynSend m bs) s = .next (undeliver t m.tc (hdrBytes24 m 0 bs.length) 2)) ∧
      (m.hops ≠ 0 → routeFor t m.dst = none → exec (.nawynSend m bs) s = .next (undeliver t m.tc (hdrBytes24 m 0 bs.length) 1)) ∧
      (m.hops ≠ 0 → routeFor t m.dst = some l2 → fitsCourse t l2 m.tc (msgFlits bs.length) = true → ∃ u x, exec (.nawynSend m bs) s = .next u ∧ u.nawyn.waiting = t.nawyn.waiting ++ [x] ∧ x.link = l2 ∧ x.tc = m.tc ∧ x.data = bs ∧
        x.hdr = hdrBytes24 { m with hops := m.hops - 1, crs := 0 } 0 bs.length ∧ u.mem = t.mem ∧ u.regs = t.regs)) ∧
    (m.link < 16 → getF s Fld.nawynLinkStatState m.link ≠ 5 → exec (.nawynWrite m bs) s = .next s ∧ exec (.nawynSend m bs) s = .next s ∧ exec (.undelivered m bs) s = .next s) ∧
    (m.link < 16 → ∃ u, t = idleFlit (measureLate (ackEffects u m.link m.fa) m.link m.tc m.crs m.src) m.link ∧ (linkOf u m.link).rxSeq = ((linkOf s m.link).rxSeq + msgFlits bs.length) % 1024 ∧ (linkOf u m.link).nakSent = false ∧
      Tab.get 0 (linkOf u m.link).crRet m.tc = (Tab.get 0 (linkOf s m.link).crRet m.tc + msgFlits bs.length) % 256 ∧ getF u Fld.nawynFlitRxCnt m.link = (getF s Fld.nawynFlitRxCnt m.link + msgFlits bs.length) % 2 ^ 64 ∧ u.mem = s.mem)

/-- Time and courses (11 R341 to R352). -/
def Obligations.NawynTimeAndCourses : Prop :=
  ∀ (s : State) (req : Requester) (t : Tid) (l tc w k port mt sq : Nat) (tx : Bool) (v a b c : Dword) (id : Word) (h : FlitAck) (e : Nat × Nat) (es : List (Nat × Nat)) (m : NMsg) (g : Course) (wr : Tab Nat) (host : List Byte) (win : Nat × Nat × Nat), l < 16 →
    let x := linkOf s l
    let pf : Prop := Requester.isPf req = true ∧ mode s = 1
    (pf → 1000 ≤ v.toInt → s.nawyn.frac < 1000000000 → ∃ u, exec (.timeOfsWrite req v) s = .next (bump (raiseD u (srcTime s) { code := 0x0606, arg0 := v.toNat }) Fld.nawynTimeStepCnt 0) ∧ u.ftime = s.ftime + v.toNat ∧ u.nawyn.corr = s.nawyn.corr) ∧
    (pf → v.toInt < 1000 → exec (.timeOfsWrite req v) s = .next { s with nawyn := { s.nawyn with corr := s.nawyn.corr + v.toInt * 1000000000 } }) ∧
    (mode s = 1 → exec (.timeOfsWrite (.thread t) v) s = .next (bump s Fld.nawynDeniedCnt 0) ∧ exec (.courseArm (.thread t) l) s = .next (bump s Fld.nawynDeniedCnt 0)) ∧
    (getF s Fld.nawynLinkStatState l = 5 → ∃ u hd p, exec (.timeFlitTick l) s = .next u ∧ hd.ftype = 3 ∧ u.out = .flit l (flitBytes hd p) :: s.out ∧ p.length = 40 ∧ leAt p 0 8 = s.ftime % 2 ^ 64 ∧ leAt p 8 8 = x.lastRx % 2 ^ 64 ∧ leAt p 16 8 = x.lastTx % 2 ^ 64 ∧
      leAt p 24 8 = (x.active.elim 0 (fun c => c.id)) % 2 ^ 64 ∧ leAt p 32 8 = (x.active.elim 0 (fun c => c.armAt)) % 2 ^ 64 ∧ u.mem = s.mem) ∧
    (getF s Fld.nawynLinkStatState l ≠ 5 → exec (.timeFlitTick l) s = .next s ∧ exec (.timeFlit l h a b c id v) s = .next s) ∧
    (getF s Fld.nawynLinkStatState l = 5 → ∃ u, exec (.timeFlit l h a b c id v) s = .next (courseCompare (timeMeasure u l a.toNat b.toNat c.toNat) l id.toNat v.toNat) ∧ (linkOf u l).lastTx = a.toNat ∧ (linkOf u l).lastRx = u.ftime) ∧
    (c.toNat ≠ 0 → follower s = false → b.toNat ≤ a.toNat → c.toNat + (a.toNat - b.toNat) ≤ s.ftime → ∃ u, timeMeasure s l a.toNat b.toNat c.toNat = u ∧
      getF u Fld.nawynLinkDelay l = Nat.min ((s.ftime - c.toNat - (a.toNat - b.toNat)) / 2) 0xFFFF ∧ u.ftime = s.ftime ∧ u.nawyn = s.nawyn) ∧
    (timeMeasure s l a.toNat b.toNat 0 = s) ∧
    (bitN (getReg s .nawynPtpEn 0).toNat port = true → s.nawyn.ptp.length < 256 → exec (.ptpTimestamp port tx mt sq) s = .next { s with nawyn := { s.nawyn with
      ptp := s.nawyn.ptp ++ [(1 + (if tx then 2 else 0) + port % 64 * 4 + mt % 16 * 256 + sq % 65536 * 65536, s.ftime)] } }) ∧
    (bitN (getReg s .nawynPtpEn 0).toNat port = true → 256 ≤ s.nawyn.ptp.length → exec (.ptpTimestamp port tx mt sq) s = .next (bump s Fld.nawynPtpOvfCnt 0)) ∧
    (bitN (getReg s .nawynPtpEn 0).toNat port = false → exec (.ptpTimestamp port tx mt sq) s = .next s) ∧
    (mode s = 1 → s.nawyn.ptp = e :: es → exec (.ptpTimeRead req) s = .next { s with nawyn := { s.nawyn with ptp := es }, out := .answer req (some (BitVec.ofNat 64 e.2)) :: s.out }) ∧
    (mode s ≠ 1 → Requester.isPf req = true → exec (.ptpTimeRead req) s = .next { s with out := .answer req (some (BitVec.allOnes 64)) :: s.out } ∧
      exec (.lateMaxRead req l) s = .next { s with out := .answer req (some (BitVec.allOnes 64)) :: s.out }) ∧
    (mode s = 1 → ∃ u, exec (.lateMaxRead req l) s = .next u ∧ u.out = .answer req (some (BitVec.ofNat 64 (getF s Fld.nawynLateMax l))) :: s.out ∧ getF u Fld.nawynLateMax l = 0 ∧ (∀ r i, r ≠ .nawynLateMax ∨ i ≠ l → getReg u r i = getReg s r i) ∧ u.mem = s.mem) ∧
    (pf → let g := stagedCourse s l
      (courseOk g = true → s.ftime + 10000 ≤ g.armAt → ∃ u, exec (.courseArm req l) s = .next u ∧ (linkOf u l).pending = some g ∧ (linkOf u l).active = x.active ∧ getF u Fld.nawynCrsStat l = 1 ∧ u.mem = s.mem) ∧
      (courseOk g = false → exec (.courseArm req l) s = .next (setF s Fld.nawynCrsStat l 2)) ∧
      (courseOk g = true → g.armAt < s.ftime + 10000 → exec (.courseArm req l) s = .next (setF s Fld.nawynCrsStat l 3))) ∧
    (courseOk g = true ↔ (1000 ≤ g.cycle ∧ g.cycle ≤ 1000000 ∧ winsOrdered g.wins = true ∧ ∀ z, z ∈ g.wins → z.2.1 ≤ g.cycle ∧ z.1 + 8 ≤ z.2.1)) ∧
    (x.pending = some g → g.wins = [] → ∃ u, exec (.courseActivation l) s = .next u ∧ (linkOf u l).active = none ∧ (linkOf u l).pending = none ∧ getF u Fld.nawynCrsActiveId l = 0 ∧ getF u Fld.nawynLinkStatCourseActive l = 0 ∧ getF u Fld.nawynCrsStat l = 0 ∧
      u.ftime = Nat.max s.ftime g.armAt ∧ u.mem = s.mem) ∧
    (x.pending = some g → g.wins ≠ [] → ∃ u, exec (.courseActivation l) s = .next (raiseD u (srcNawyn l) { code := 0x0603, aux8 := l, arg0 := g.id, arg1 := g.armAt % 2 ^ 56 }) ∧ (linkOf u l).active = some g ∧ (linkOf u l).pending = none ∧
      getF u Fld.nawynCrsActiveId l = g.id % 2 ^ 32 ∧ getF u Fld.nawynLinkStatCourseActive l = getF s Fld.nawynLinkCfgCourseEn l ∧ u.ftime = Nat.max s.ftime g.armAt ∧ u.mem = s.mem) ∧
    (x.pending = none → exec (.courseActivation l) s = .next s) ∧
    (firstWaiting s l tc = none → exec (.messageStart l tc host) s = .next s) ∧
    (firstWaiting s l tc = some m → m.tc = tc → getF s Fld.nawynLinkStatState l = 5 → sendingAt x = none → x.busyPs ≤ s.ftime * 1000 → courseOf s l = none → x.pending = none → wrrTurn s l tc = some wr → m.from_ = none →
      ∃ u, exec (.messageStart l tc host) s = .next (pumpLink u l) ∧ u.nawyn.waiting = s.nawyn.waiting.erase m ∧ (linkOf u l).wrr = wr ∧ (linkOf u l).busyPs = s.ftime * 1000 + m.flits * flitPs s l ∧
        ((linkOf u l).started.map (fun z => z.2)) = (x.started.map (fun z => z.2)) ++ [m.hdr.set 6 0 ++ m.data] ∧ u.mem = s.mem) ∧
    (firstWaiting s 16 tc = some m → m.src = .own → m.from_ = none → ∃ u, exec (.messageStart 16 tc host) s = .next u ∧ u.nawyn.waiting = s.nawyn.waiting.erase m ∧ u.nawyn.locals = s.nawyn.locals ++ [m] ∧ u.mem = s.mem ∧ u.regs = s.regs) ∧
    (x.active = some g → g.wins[w]? = some win → Tab.get 0 x.ended w ≤ k → Tab.get 0 x.measured w ≤ k → ∃ u, exec (.windowInstanceEnd l w k) s = .next u ∧ Tab.get 0 (linkOf u l).ended w = k + 1 ∧
      getF u Fld.nawynWinEmptyCnt l = (getF s Fld.nawynWinEmptyCnt l + 1) % 2 ^ 64 ∧ Tab.get 0 u.gut.late (20 * (64 * l + w) + 17) = (Tab.get 0 s.gut.late (20 * (64 * l + w) + 17) + 1) % 2 ^ 64 ∧
      u.ftime = Nat.max s.ftime (g.armAt + k * g.cycle + win.2.1 + getF s Fld.nawynLinkDelay l) ∧ u.mem = s.mem) ∧
    (x.active = some g → k < Tab.get 0 x.ended w → exec (.windowInstanceEnd l w k) s = .next s) ∧ (x.active = none → exec (.windowInstanceEnd l w k) s = .next s)

/-- The Loft (12 R362 to R383). -/
def Obligations.LoftCommands : Prop :=
  ∀ (s : State) (req : Requester) (i p f : Nat) (v : Word) (m : NHdr) (b : List Byte) (query : Bool) (st r k a c : Nat) (o : Op) (x : LReq) (rows : List (List Byte × Bool × Bool)) (ns : List Nat),
    let t := takeFlits s m (msgFlits b.length)
    let t0 := takeFlits s m (msgFlits 0)
    let mine (t : State) : Prop := m.link < 16 ∧ getF s Fld.nawynLinkStatState m.link = 5 ∧ (m.linkLocal = true ∨ (getF t Fld.nawynLinkStatIdClash m.link = 0 ∧ nodeId t ≠ 0xFFF ∧ m.dst ≠ 0xFFF ∧ m.dst = nodeId t))
    let w := latchWake t 73 4
    let n := w.rings.nextOp
    let z : State := { w with loft := { w.loft with reqs := Tab.put w.loft.reqs n { kind := bit1 query, payload := b, link := m.link, linkLocal := m.linkLocal, tc := m.tc } } }
    let cmd : Instr := if query then .loftQuery m b else .loftAppend m b
    let arrived (u : State) (o : Op) : Prop := opOf u n = some o ∧ o.src = .loft m.src m.tag ∧ o.data = b ∧ o.bay = ctlBay w ∧ o.arrival = w.ftime ∧ u.rings.nextOp = n + 1 ∧ u.mem = w.mem ∧ u.regs = w.regs
    (i < 64 → mode s = 1 → (Requester.isPf req = true ∨ (loftOn s = true ∧ Requester.bay s req = some (ctlBay s))) → ∃ u, exec (.loftPoolTailWrite req i v) s = .next u ∧ getF u Fld.loftPoolTail i = v.toNat % 2 ^ 20 ∧
      getF u Fld.loftPoolLevel i = (v.toNat % 2 ^ 20 + 2 ^ 20 - getF s Fld.loftPoolHead i) % 2 ^ poolLog2 s i % 2 ^ 20 ∧ (∀ r j, (r ≠ .loftPoolTail ∧ r ≠ .loftPoolLevel) ∨ j ≠ i → getReg u r j = getReg s r j) ∧ u.mem = s.mem ∧ u.out = s.out) ∧
    (mode s = 1 → Requester.isPf req = false → Requester.bay s req ≠ some (ctlBay s) → exec (.loftPoolTailWrite req i v) s = .next (bump s Fld.loftDeniedCnt 0)) ∧
    (mine t → loftMeets z m b query = some (st, r) → ∃ u o, exec cmd s = .next (finishOp u n st r 0) ∧ arrived u o ∧ o.pool = 0x3F ∧ o.cost = 0) ∧
    (mine t → loftMeets z m b query = none → getF w Fld.loftMaxWait 0 < loftWaiting w → ∃ u o, exec cmd s = .next (refuse u n 0x21) ∧ arrived u o ∧ o.pool = 3) ∧
    (mine t → loftMeets z m b query = none → loftWaiting w ≤ getF w Fld.loftMaxWait 0 → getF w Fld.loftNodeEnable m.src = 0 → ∃ u o, exec cmd s = .next (refuse u n 0x20) ∧ arrived u o ∧ o.pool = 3) ∧
    (mine t → loftMeets z m b query = none → loftWaiting w ≤ getF w Fld.loftMaxWait 0 → getF w Fld.loftNodeEnable m.src = 1 → ∃ o, exec cmd s = .next (arriveOp loftStart z o) ∧ o.pool = 3 ∧ o.src = .loft m.src m.tag ∧ o.data = b ∧
      o.partner = getF w Fld.loftNodePartner m.src ∧ o.cost = (if query then queryCost z b else (b.length + 65535) / 65536) ∧ o.opcode = (if query then 0x0500 else 0x0501) ∧ o.st = .waiting) ∧
    (loftOn s = false → appendCheck s b = some 0x80 ∧ queryCheck s b k = some (0x80, 0)) ∧
    (loftOn s = true → aN b = 0 ∨ 4096 < aN b ∨ b.length < 32 → appendCheck s b = some 0x81) ∧
    (loftOn s = true → 32 ≤ b.length → zeroAt b 0xE 2 = true → zeroAt b 0x12 2 = true → zeroAt b 0x1C 4 = true → 1 ≤ aN b → aN b ≤ 4096 →
      (ctxUsable s (aCtx b) = false → appendCheck s b = some 0x82) ∧
      (ctxUsable s (aCtx b) = true → cFmt (ctxRec s (aCtx b)) ≠ leAt b 7 1 → appendCheck s b = some 0x81) ∧
      (ctxUsable s (aCtx b) = true → cFmt (ctxRec s (aCtx b)) = leAt b 7 1 → leAt b 7 1 < 4 → b.length = 32 + 2 * aN b * cDim (ctxRec s (aCtx b)) * loftElemSize (leAt b 7 1) →
        (cLayers (ctxRec s (aCtx b)) ≤ aLayer b ∨ cGroups (ctxRec s (aCtx b)) ≤ aGroup b → appendCheck s b = some 0x82) ∧
        (aLayer b < cLayers (ctxRec s (aCtx b)) → aGroup b < cGroups (ctxRec s (aCtx b)) → inSlices s (headAddr (ctxRec s (aCtx b)) (aLayer b) (aGroup b)) 32 = true →
          (bitN (leAt (ctxRec s (aCtx b)) 0 1) 1 = true → appendCheck s b = some 0x87) ∧
          (bitN (leAt (ctxRec s (aCtx b)) 0 1) 1 = false → aPos b ≠ chainEnd s (ctxRec s (aCtx b)) (aLayer b) (aGroup b) → appendCheck s b = some 0x85) ∧
          (bitN (leAt (ctxRec s (aCtx b)) 0 1) 1 = false → aPos b = chainEnd s (ctxRec s (aCtx b)) (aLayer b) (aGroup b) → aPos b + aN b ≤ 2 ^ 48 → appendCheck s b = none)))) ∧
    (loftOn s = true → queryHeaderOk b = false → queryCheck s b k = some (0x81, 0)) ∧
    (loftOn s = true → queryHeaderOk b = true → 32 + 16 * qNseq b ≤ b.length → ctxUsable s (qSeq b 0).1 = false → queryCheck s b k = some (0x82, 0)) ∧
    (chainEnd s (ctxRec s (aCtx o.data)) (aLayer o.data) (aGroup o.data) = aPos o.data → (poolLevelNow s (leAt (ctxRec s (aCtx o.data)) 7 1 % 64) < (appendNeeds s (ctxRec s (aCtx o.data)) o.data).1 ∨
      poolLevelNow s (leAt (ctxRec s (aCtx o.data)) 8 1 % 64) < (appendNeeds s (ctxRec s (aCtx o.data)) o.data).2) → appendStart s p o x = finishOp (bump s Fld.loftNoSlateCnt 0) p 0x86 0 0) ∧
    (opOf s p = some o → lreqOf s p = some x → domUp s 73 = true → o.opcode = 0x0501 → o.st = .committed →
      (badPop s (ctxRec s (aCtx o.data)) x = some a → exec (.loftAppendDone p) s = .next (finishOp (raiseD (bump s Fld.loftBadSlateCnt 0) srcLoft { code := 0x0702, arg0 := aCtx o.data, arg1 := a % 2 ^ 52 }) p 0x84 0 0)) ∧
      (badPop s (ctxRec s (aCtx o.data)) x = none → ∃ u, exec (.loftAppendDone p) s = .next (finishOp u p 0 (aPos o.data + aN o.data) 0) ∧ readLe u (headAddr (ctxRec s (aCtx o.data)) (aLayer o.data) (aGroup o.data) + 0x10) 8 = aPos o.data + aN o.data ∧
        u.regs = s.regs ∧ u.rings = s.rings ∧ u.loft = s.loft ∧ u.out = s.out)) ∧
    (opOf s p = none → exec (.loftAppendDone p) s = .next s ∧ exec (.loftQueryDone p true) s = .next s ∧ exec (.lbiasLoadDone p) s = .next s) ∧
    (leAt (slateHeader (ctxRec s c) b f) 0 8 = f % 2 ^ 64 ∧ leAt (slateHeader (ctxRec s c) b f) 8 1 = 0 ∧ leAt (slateHeader (ctxRec s c) b f) 9 1 = cFmt (ctxRec s c) ∧ leAt (slateHeader (ctxRec s c) b f) 0xA 2 = 0 ∧
      leAt (slateHeader (ctxRec s c) b f) 0x14 2 = aLayer b ∧ leAt (slateHeader (ctxRec s c) b f) 0x18 4 = aCtx b ∧ (slateHeader (ctxRec s c) b f).length = 64) ∧
    (running s p 0x0500 = some o → lreqOf s p = some x → x.sent = false → domUp s 73 = true →
      (exec (.loftQueryDone p true) s = .next (finishOp s p 0x06 0 0)) ∧
      (queryRows s o.data 0 x.bounds = .error (c, a) → exec (.loftQueryDone p false) s = .next (finishOp (raiseD (bump s Fld.loftBadSlateCnt 0) srcLoft { code := 0x0702, arg0 := c, arg1 := a % 2 ^ 52 }) p 0x84 0 0)) ∧
      (queryRows s o.data 0 x.bounds = .ok rows → o.src = .ring k → classOf x.raddr = some .hbm → ∃ u, exec (.loftQueryDone p false) s = .next (finishOp (putOp u p { o with st := .committed }) p 0 (resultBlock s p o x rows).length 0) ∧
        (∀ j (h : j < (resultBlock s p o x rows).length), readByte u (x.raddr + j) = (resultBlock s p o x rows)[j]) ∧ (∀ y, y < x.raddr ∨ x.raddr + (resultBlock s p o x rows).length ≤ y → readByte u y = readByte s y) ∧
        getF u Fld.loftMaskedRowCnt 0 = (getF s Fld.loftMaskedRowCnt 0 + (rows.filter (fun r => r.2.1)).length) % 2 ^ 64 ∧ getF u Fld.loftTokenCnt 0 = (getF s Fld.loftTokenCnt 0 + (x.bounds.map (fun q => q.2 - q.1)).sum) % 2 ^ 64) ∧
      (queryRows s o.data 0 x.bounds = .ok rows → o.src = .loft k a → ∃ u, exec (.loftQueryDone p false) s = .next (resultSend u p o x (resultBlock s p o x rows) k a) ∧ u.mem = s.mem ∧ u.rings = s.rings ∧ u.loft = s.loft ∧
        getF u Fld.loftPadTokenCnt 0 = (getF s Fld.loftPadTokenCnt 0 + (x.bounds.map (fun q => 16 * (x.bounds.map seqSlates).foldl Nat.max 0 - (q.2 - q.1))).sum) % 2 ^ 64)) ∧
    (running s p 0x0502 = some o → lreqOf s p = some x → domUp s 73 = true → (∀ j, j ∈ x.waitsFor → opOf s j = none) → leAt x.payload 0 1 < 32 →
      (biasOk (x.payload.drop 1) = true → ∃ u, exec (.lbiasLoadDone p) s = .next (finishOp u p 0 0 0) ∧ biasSet u (leAt x.payload 0 1) = some (x.payload.drop 1) ∧ bitN (getReg u .loftBiasLoadedLo 0).toNat (leAt x.payload 0 1) = true ∧ u.mem = s.mem) ∧
      (biasOk (x.payload.drop 1) = false → ∃ u, exec (.lbiasLoadDone p) s = .next (finishOp u p 0x89 0 0) ∧ biasSet u (leAt x.payload 0 1) = none ∧ bitN (getReg u .loftBiasLoadedLo 0).toNat (leAt x.payload 0 1) = false ∧ u.mem = s.mem)) ∧
    (mine t0 → loftTargets t0 m.src m.tag = [] → exec (.loftAbort m) s = .next (replyMsg t0 m 0x25 0x25 (if t0.loft.ended.contains (m.src, m.tag) then 1 else 2) [])) ∧
    (mine t0 → loftTargets t0 m.src m.tag = p :: ns → opOf t0 p = some o → lreqOf t0 p = some x →
      (o.st = .committed → exec (.loftAbort m) s = .next (replyMsg t0 m 0x25 0x25 0 [])) ∧
      (o.st ≠ .committed → ∃ u, exec (.loftAbort m) s = .next (replyMsg (finishOp u p 0x24 0 0) m 0x25 0x24 0 []) ∧ u.rings = t0.rings ∧ u.mem = t0.mem ∧ u.regs = t0.regs))

/-- The Underlay (13 R389 to R404). -/
def Obligations.UnderlayCommands : Prop :=
  ∀ (s : State) (req : Requester) (v : Word) (m : NHdr) (c : CutCopy) (d : Drain) (o : Op) (r : Restore) (g p i ext st dl status b tgt loc logical node off l n : Nat) (bs hash : List Byte) (rest : List (Nat × Nat × List Byte × Nat × Nat × Nat)) (q : PlanRange),
    let t := takeFlits s m (msgFlits 0)
    let w := latchWake t 77 4
    let mine : Prop := m.link < 16 ∧ getF s Fld.nawynLinkStatState m.link = 5 ∧ m.linkLocal = false ∧ getF t Fld.nawynLinkStatIdClash m.link = 0 ∧ nodeId t ≠ 0xFFF ∧ m.dst ≠ 0xFFF ∧ m.dst = nodeId t
    let mg := m.arg / 2 ^ 32 % 256
    let plan := (copyingCut s c).plan
    let others (u : State) : Prop := u.mem = s.mem ∧ u.loft = s.loft ∧ u.xpt = s.xpt ∧ u.stor = s.stor ∧ u.rafters = s.rafters
    (mine → w.ul.copy = none → exec (.cutReady m) s = .next (bump w Fld.ulTokenBadCnt 0)) ∧
    (mine → w.ul.copy = some c →
      ((copyingCut w c).id ≠ m.arg % 2 ^ 32 ∨ (∀ q, q ∈ (copyingCut w c).plan → q.group ≠ mg ∨ q.node ≠ m.src) → exec (.cutReady m) s = .next (bump w Fld.ulTokenBadCnt 0)) ∧
      ((copyingCut w c).id = m.arg % 2 ^ 32 → q ∈ (copyingCut w c).plan → q.group = mg → q.node = m.src →
        (mg ∈ c.taken ∨ c.abandon ≠ none → exec (.cutReady m) s = .next w) ∧
        (mg ∉ c.taken → c.abandon = none → ∃ u, exec (.cutReady m) s = .next (copyGroup u c.slot mg (copyingCut w c).plan) ∧ u.ul.copy = some { c with taken := c.taken ++ [mg] } ∧ u.mem = w.mem ∧ u.regs = w.regs ∧ u.out = w.out))) ∧
    (((readChunks n).map (fun k => k.2)).sum = n ∧ ∀ k, k ∈ readChunks n → k.2 ≤ 1048576 ∧ k.1 + k.2 ≤ n) ∧
    (s.ul.copy = none → exec (.groupCopyDone g) s = .next s ∧ exec .cutReadyTimeout s = .next s ∧ exec .cutAbandonComplete s = .next s) ∧
    (s.ul.copy = some c → g ∈ c.taken → g ∉ c.copied → c.abandon = none → (∀ e, e ∈ c.reads → e.2 ≠ g) →
      ((∀ q, q ∈ plan → q.group ∈ c.copied ∨ q.group = g) → c.slot < 2 → opOf s c.op = some o → ∃ u, exec (.groupCopyDone g) s = .next (finishOp (putOp u c.op { o with st := .committed }) c.op 0 (planLen plan) 0) ∧
        u.ul.copy = none ∧ slotState u c.slot = 2 ∧ getF u Fld.ulCutCnt 0 = (getF s Fld.ulCutCnt 0 + 1) % 2 ^ 64 ∧ getF u Fld.ulCopyByteCnt 0 = (getF s Fld.ulCopyByteCnt 0 + planLen (plan.filter (fun r => r.group == g))) % 2 ^ 64 ∧ others u) ∧
      (q ∈ plan → q.group ∉ c.copied → q.group ≠ g → ∃ u, exec (.groupCopyDone g) s = .next u ∧ u.ul.copy = some { c with copied := c.copied ++ [g] } ∧ u.rings = s.rings ∧ others u ∧
        getF u Fld.ulCopyByteCnt 0 = (getF s Fld.ulCopyByteCnt 0 + planLen (plan.filter (fun r => r.group == g))) % 2 ^ 64)) ∧
    (s.ul.copy = some c → g ∉ c.taken ∨ g ∈ c.copied ∨ c.abandon ≠ none → exec (.groupCopyDone g) s = .next s) ∧
    (s.ul.copy = some c → c.abandon = none → (planGroups plan).find? (fun g => !c.taken.contains g) = some g → ∃ u, exec .cutReadyTimeout s = .next u ∧ u.ftime = Nat.max s.ftime c.deadline ∧
      u.ul.copy = some { c with abandon := some (0x95, 0, g, u.ftime + getF s Fld.nawynCtlReadTimeoutUs 0 * 1000) } ∧ u.regs = s.regs ∧ u.rings = s.rings ∧ u.out = s.out ∧ others u) ∧
    (s.ul.copy = some c → c.abandon ≠ none ∨ (∀ q, q ∈ plan → q.group ∈ c.taken) → exec .cutReadyTimeout s = .next s) ∧
    (s.ul.copy = some c → c.abandon = some (st, ext, g, dl) → opOf s c.op = some o →
      (c.reads = [] → exec .cutAbandonComplete s = .next (finishOp s c.op st (refusalResult s c.op o st) ext)) ∧
      (c.reads ≠ [] → exec .cutAbandonComplete s = .next (finishOp (reach s dl) c.op st (refusalResult (reach s dl) c.op o st) ext))) ∧
    (s.ul.drain = none → exec .shingleHashed s = .next s ∧ exec (.shingleWriteAck i status) s = .next s ∧ exec (.manifestBodyAck status) s = .next s ∧ exec (.manifestHeaderAck status) s = .next s ∧ exec .ulDrainTimeoutExpiry s = .next s) ∧
    (s.ul.drain = some d → exec .ulDrainTimeoutExpiry s = .next (finishOp (reach s d.deadline) d.op 0x99 0 0)) ∧
    (s.ul.drain = some d → opOf s d.op = some o →
      let k := planShingles (drainCut s d).plan
      let a := ulSlot s d.slot + 65536 * d.next
      let e := newEntry s d (drainCut s d).plan.length d.next
      let tg := d.targets.getD (d.changed % d.targets.length) (manifestTo d)
      let h := shingleHash (readBytes s a 65536)
      (s.ul.copy ≠ none ∨ k ≤ d.next → exec .shingleHashed s = .next s) ∧
      (s.ul.copy = none → d.next + 1 < k → domUp s 77 = true →
        (d.full = false → readBytes s (baseEntry s d.next) 16 = h → ∃ u, exec .shingleHashed s = .next u ∧ readBytes u e 32 = readBytes s (baseEntry s d.next) 32 ∧ (∀ y, y < e ∨ e + 32 ≤ y → readByte u y = readByte s y) ∧
          u.ul.drain = some { d with next := d.next + 1 } ∧ getF u Fld.ulHashedCnt 0 = (getF s Fld.ulHashedCnt 0 + 1) % 2 ^ 64 ∧ u.rings = s.rings ∧ u.out = s.out) ∧
        (d.full = true ∨ readBytes s (baseEntry s d.next) 16 ≠ h →
          (tg.len < 65536 * (d.changed / d.targets.length + 1) → exec .shingleHashed s = .next (finishOp s d.op 0x98 0 0)) ∧
          (65536 * (d.changed / d.targets.length + 1) ≤ tg.len → ulTokens s o 65536 = false → exec .shingleHashed s = .next s) ∧
          (65536 * (d.changed / d.targets.length + 1) ≤ tg.len → ulTokens s o 65536 = true → tg.kind = 0 → rawLba s tg.rootPort tg.nsidConn (tg.base + 65536 * (d.changed / d.targets.length)) 65536 = .ok b → ∃ u x, exec .shingleHashed s = .next u ∧
            u.ul.drain = some { d with next := d.next + 1, changed := d.changed + 1, writes := d.writes ++ [d.next] } ∧ u.out = .ssd tg.rootPort tg.nsidConn 1 ((tg.base + 65536 * (d.changed / d.targets.length)) / b) (65536 / b) x :: s.out ∧
            readBytes u e 32 = shingleEntry h (d.changed % d.targets.length) (drainCut s d).id (tg.base + 65536 * (d.changed / d.targets.length)) ∧ (∀ y, y < e ∨ e + 32 ≤ y → readByte u y = readByte s y) ∧ u.rings.ops = s.rings.ops)))) ∧
    (s.ul.drain = some d → opOf s d.op = some o → i ∈ d.writes → (shingleTarget s d i).kind = 0 →
      (status ≠ 0 → exec (.shingleWriteAck i status) s = .next (finishOp s d.op 0x97 (i * 2 ^ 32) status)) ∧
      (d.writes.erase i ≠ [] → ∃ u, exec (.shingleWriteAck i 0) s = .next u ∧ u.ul.drain = some { d with writes := d.writes.erase i } ∧ getF u Fld.ulChangedCnt 0 = (getF s Fld.ulChangedCnt 0 + 1) % 2 ^ 64 ∧ u.rings = s.rings ∧ u.mem = s.mem ∧ u.out = s.out) ∧
      (d.writes = [i] → d.phase ≤ 1 → d.next = planShingles (drainCut s d).plan → exec (.shingleWriteAck i 0) s = .next (bodyWrite (bump s Fld.ulChangedCnt 0) { d with writes := [] } o))) ∧
    (s.ul.drain = some d → i ∉ d.writes → exec (.shingleWriteAck i status) s = .next s) ∧
    (s.ul.drain = some d → opOf s d.op = some o → (manifestTo d).kind = 0 →
      (d.phase = 2 → status ≠ 0 → exec (.manifestBodyAck status) s = .next (finishOp s d.op 0x97 (d.next * 2 ^ 32) status)) ∧
      (d.phase = 2 → rawLba s (manifestTo d).rootPort (manifestTo d).nsidConn d.manifestOffset 64 = .ok b → ∃ u, exec (.manifestBodyAck 0) s = .next u ∧ u.ul.drain = some { d with phase := 3 } ∧
        u.out = .ssd (manifestTo d).rootPort (manifestTo d).nsidConn 1 (d.manifestOffset / b) (64 / b) (readBytes s (ulArea s (1 - getF s Fld.ulStatBaseArea 0)) 64) :: s.out ∧ u.mem = s.mem ∧ u.rings.ops = s.rings.ops) ∧
      (d.phase ≠ 2 → exec (.manifestBodyAck status) s = .next s) ∧ (d.phase ≠ 3 → exec (.manifestHeaderAck status) s = .next s) ∧
      (d.phase = 3 → status ≠ 0 → exec (.manifestHeaderAck status) s = .next (finishOp s d.op 0x97 (d.next * 2 ^ 32) status)) ∧
      (d.phase = 3 → d.slot < 2 → ∃ u, exec (.manifestHeaderAck 0) s = .next (finishOp (putOp (bump (raiseD u srcUl { code := 0x0802, arg0 := (drainCut s d).id, arg1 := d.changed }) Fld.ulCommitCnt 0) d.op { o with st := .committed }) d.op 0 (d.changed + (if d.full then 2 ^ 63 else 0)) 0) ∧
        u.ul.drain = none ∧ slotState u d.slot = 0 ∧ getF u Fld.ulStatBaseValid 0 = 1 ∧ getF u Fld.ulStatBaseArea 0 = 1 - getF s Fld.ulStatBaseArea 0 ∧ getF u Fld.ulBaseCut 0 = (drainCut s d).id % 2 ^ 32 ∧ u.mem = s.mem ∧ u.rings = s.rings ∧ u.out = s.out)) ∧
    (running s p 0x0602 = some o → Tab.lookup s.ul.restores p = some r → r.todo = (tgt, loc, hash, logical, node, off) :: rest → (r.targets[tgt]?).map (fun x => x.kind) = some 0 →
      (status ≠ 0 → exec (.restoreShingleRead p bs status) s = .next (finishOp s p 0x97 0 status)) ∧
      (shingleHash bs ≠ hash → exec (.restoreShingleRead p bs 0) s = .next (finishOp s p 0x9C logical 0)) ∧
      (shingleHash bs = hash → routeFor s node = some l → fitsCourse s l (getF s Fld.ulCtlCopyTc 0) (msgFlits bs.length) = true → ∃ u x, exec (.restoreShingleRead p bs 0) s = .next (restRead u p o) ∧ u.nawyn.waiting = s.nawyn.waiting ++ [x] ∧ x.data = bs ∧ x.link = l ∧
        x.hdr = msgHeader node 4 (nodeId s) false 1 0 bs.length 0 off ∧ Tab.lookup u.ul.restores p = some { r with todo := rest, written := r.written + 1 } ∧ u.mem = s.mem ∧ u.regs = s.regs ∧ u.rings = s.rings) ∧
      (shingleHash bs = hash → routeFor s node = none → ∃ u, exec (.restoreShingleRead p bs 0) s = .next (finishOp u p 0x70 0 0) ∧ u.nawyn = s.nawyn ∧ u.mem = s.mem ∧ u.rings = s.rings)) ∧
    (running s p 0x0602 = some o → Tab.lookup s.ul.restores p = some r →
      (r.acked ≤ r.counted → exec (.restoreWriteAck p) s = .next s) ∧
      (r.counted < r.acked → r.counted + 1 = r.total → ∃ u, exec (.restoreWriteAck p) s = .next (finishOp (putOp u p { o with st := .committed }) p 0 r.total 0) ∧ Tab.lookup u.ul.restores p = none ∧ getF u Fld.ulRestoreCnt 0 = (getF s Fld.ulRestoreCnt 0 + 1) % 2 ^ 64 ∧ u.rings = s.rings ∧ others u) ∧
      (r.counted < r.acked → r.counted + 1 ≠ r.total → ∃ u, exec (.restoreWriteAck p) s = .next u ∧ Tab.lookup u.ul.restores p = some { r with counted := r.counted + 1 } ∧ getF u Fld.ulRestoreCnt 0 = (getF s Fld.ulRestoreCnt 0 + 1) % 2 ^ 64 ∧ u.rings = s.rings ∧ others u)) ∧
    (Requester.isPf req = true → mode s = 1 → v.getLsbD 31 = true → s.ul.drain = none → ∃ u, exec (.ulBaseInv req v) s = .next u ∧ getF u Fld.ulStatBaseValid 0 = 0 ∧ getF u Fld.ulStatBaseArea 0 = getF s Fld.ulStatBaseArea 0 ∧ slotState u 0 = slotState s 0 ∧ slotState u 1 = slotState s 1 ∧
      (∀ x j, x ≠ .ulStat → getReg u x j = getReg s x j) ∧ others u) ∧
    (mode s = 1 → Requester.isPf req = false ∨ (v.getLsbD 31 = true ∧ s.ul.drain ≠ none) → exec (.ulBaseInv req v) s = .next (bump s Fld.ulDeniedCnt 0)) ∧
    (Requester.isPf req = true → mode s = 1 → v.getLsbD 31 = false → exec (.ulBaseInv req v) s = .next s)

/-- NVM Express commands (14 R407 to R416). -/
def Obligations.StorageCommandsFetched : Prop :=
  ∀ (s u : State) (n : NCmd) (data : List Byte) (op : Byte) (t st num c : Nat) (q : Sq) (k : Cq) (b : Backend) (o : Op) (ev : Nat) (rest : List Nat),
    let admin : List (Instr × Nat) := [(.deleteIoSubmissionQueue n, 0), (.createIoSubmissionQueue n, 1), (.getLogPage n, 2), (.deleteIoCompletionQueue n, 4), (.createIoCompletionQueue n, 5), (.identify n, 6), (.nvmeAbort n, 8), (.setFeatures n, 9), (.getFeatures n, 10), (.asynchronousEventRequest n, 12)]
    let io : List (Instr × Nat × List Byte) := [(.nvmeFlush n, 0, []), (.nvmeWrite n data, 1, data), (.nvmeRead n, 2, []), (.writeZeroes n, 8, []), (.datasetManagement n data, 9, data)]
    let num' := u.rings.nextOp
    let rec_ (x : State) (opc : Nat) (d : List Byte) : State := { x with stor := { x.stor with cmds := Tab.put x.stor.cmds x.rings.nextOp { cmd := n, opc := opc, data := d } } }
    let mine (o : Op) : Prop := o.src = .nvme n.ctrl n.sq n.cid ∧ o.arrival = t ∧ o.bay = getF u Fld.storCtlBay 0 ∧ o.partner = getF u Fld.storCtrlPartner n.ctrl
    let ended (x : State) (o : Op) : Prop := opOf x num' = some o ∧ mine o ∧ x.rings.nextOp = num' + 1 ∧ x.mem = s.mem ∧ x.regs = s.regs ∧ x.out = s.out
    let x0 := ctrlOf s n.ctrl
    let adm (opc : Nat) : Prop := opOf s num = some o ∧ Tab.lookup s.stor.cmds num = some b ∧ b.opc = 0x100 + opc ∧ b.cmd = n
    let id := n.cdw10 % 65536
    (∀ e, e ∈ admin → n.sq = 0 → nvmeFetch s n = some (t, false, u) → ∃ o, exec e.1 s = .next (arriveOp nvmeStart (rec_ u (0x100 + e.2) []) o) ∧ mine o ∧ o.pool = 4 ∧ o.cost = 0 ∧ o.opcode = 0x4100 + e.2) ∧
    (∀ e, e ∈ admin → n.sq = 0 → nvmeFetch s n = some (t, true, u) → ∃ x o, exec e.1 s = .next (endEarly x num' 0x23) ∧ ended x o) ∧
    (∀ e, e ∈ admin → nvmeFetch s n = none ∨ n.sq ≠ 0 → exec e.1 s = .next s) ∧
    (∀ e, e ∈ io → n.sq ≠ 0 → nvmeFetch s n = some (t, false, u) → ioBad u { cmd := n, opc := e.2.1, data := e.2.2 } = none → ∃ o, exec e.1 s = .next (arriveOp nvmeStart (rec_ u e.2.1 e.2.2) o) ∧ mine o ∧ o.pool = 4 ∧ o.opcode = 0x4000 + e.2.1 ∧
      o.cost = (if e.2.1 = 0 ∨ e.2.1 = 9 then 4096 else Nat.max 4096 ((n.cdw12 % 65536 + 1) * nsLba (nsWords u n.ctrl (n.nsid - 1))))) ∧
    (∀ e, e ∈ io → n.sq ≠ 0 → nvmeFetch s n = some (t, false, u) → ioBad u { cmd := n, opc := e.2.1, data := e.2.2 } = some st → ∃ x o, exec e.1 s = .next (nvmeFail x num' st) ∧ ended x o) ∧
    (∀ e, e ∈ io → n.sq ≠ 0 → nvmeFetch s n = some (t, true, u) → ∃ x o, exec e.1 s = .next (endEarly x num' 0x23) ∧ ended x o) ∧
    (∀ e, e ∈ io → nvmeFetch s n = none ∨ n.sq = 0 → exec e.1 s = .next s) ∧
    (opcodeListed (n.sq == 0) op.toNat = true → exec (.invalidCommandOpcode n op) s = .next s) ∧
    (opcodeListed (n.sq == 0) op.toNat = false → nvmeFetch s n = some (t, false, u) → ∃ x o, exec (.invalidCommandOpcode n op) s = .next (nvmeFail x num' 0x1801) ∧ ended x o) ∧
    (nvmeFetch s n = some (t, false, u) → ∃ q, Tab.lookup x0.sqs n.sq = some q ∧ u.mem = s.mem ∧ u.regs = s.regs ∧ u.rings = s.rings ∧ mode s = 1 ∧ getF s Fld.storCtlEnable 0 = 1 ∧ bitN x0.cc 0 = true ∧
      (Tab.lookup (ctrlOf u n.ctrl).sqs n.sq).map (fun q => q.head) = some ((q.head + 1) % q.size) ∧ (ctrlOf u n.ctrl).cqs = x0.cqs) ∧
    (mode s ≠ 1 ∨ getF s Fld.storCtlEnable 0 = 0 ∨ bitN x0.cc 0 = false ∨ Tab.lookup x0.sqs n.sq = none → nvmeFetch s n = none) ∧
    (nsOf u n.ctrl n.nsid = none → ioBad u { cmd := n, opc := 2 } = some 0x180B ∧ ioBad u { cmd := n, opc := 0 } = some 0x180B) ∧
    ((nsOf u n.ctrl n.nsid).map nsLba = some 4096 → 32 ≤ n.cdw12 % 65536 → ioBad u { cmd := n, opc := 1, data := data } = some 0x1802) ∧
    (adm 1 → 1 ≤ id → id ≤ 64 → Tab.lookup x0.sqs id = none → 1 ≤ n.cdw10 / 65536 % 65536 → n.cdw10 / 65536 % 65536 < 4096 → n.cdw11 % 2 = 1 → n.prp1 % ctrlPage x0 = 0 → n.cdw11 / 65536 % 65536 ≠ 0 → Tab.lookup x0.cqs (n.cdw11 / 65536 % 65536) = some k →
      ∃ u, nvmeStart s num = finishOp u num 0 0 0 ∧ Tab.lookup (ctrlOf u n.ctrl).sqs id = some { size := n.cdw10 / 65536 % 65536 + 1, base := n.prp1, cq := n.cdw11 / 65536 % 65536 } ∧ (ctrlOf u n.ctrl).cqs = x0.cqs) ∧
    (adm 5 → 1 ≤ id → id ≤ 64 → Tab.lookup x0.cqs id = none → 1 ≤ n.cdw10 / 65536 % 65536 → n.cdw10 / 65536 % 65536 < 4096 → n.cdw11 % 2 = 1 → n.prp1 % ctrlPage x0 = 0 → n.cdw11 / 65536 % 65536 < 32 →
      ∃ u, nvmeStart s num = finishOp u num 0 0 0 ∧ (Tab.lookup (ctrlOf u n.ctrl).cqs id).map (fun k => (k.size, k.base, k.vec)) = some (n.cdw10 / 65536 % 65536 + 1, n.prp1, n.cdw11 / 65536 % 65536) ∧ (ctrlOf u n.ctrl).sqs = x0.sqs) ∧
    (adm 4 → id ≠ 0 → Tab.lookup x0.cqs id = some k → (∀ e, e ∈ x0.sqs → e.2.cq ≠ id) → ∃ u, nvmeStart s num = finishOp u num 0 0 0 ∧ Tab.lookup (ctrlOf u n.ctrl).cqs id = none ∧ (ctrlOf u n.ctrl).sqs = x0.sqs) ∧
    (adm 4 → id ≠ 0 → Tab.lookup x0.cqs id = some k → (c, q) ∈ x0.sqs → q.cq = id → nvmeStart s num = nvmeFail s num 0x190C) ∧
    (adm 0 → (id = 0 ∨ Tab.lookup x0.sqs id = none) → nvmeStart s num = nvmeFail s num 0x1901) ∧
    (adm 9 → featBad b = false → n.cdw10 % 256 ≠ 7 → ∃ u, nvmeStart s num = finishOp u num 0 0 0 ∧ featOf (ctrlOf u n.ctrl) (featKey (n.cdw10 % 256) n.cdw11) = n.cdw11 ∧ u.regs = s.regs ∧ u.mem = s.mem) ∧
    (adm 10 → featBad b = false → n.cdw10 % 256 ≠ 7 → nvmeStart s num = finishOp s num 0 (featOf x0 (featKey (n.cdw10 % 256) n.cdw11)) 0) ∧
    ((adm 9 ∨ adm 10) → n.cdw10 % 256 = 2 → nvmeStart s num = nvmeFail s num 0x1802) ∧
    (adm 8 → (opsWhere s (fun o => decide (o.src = .nvme n.ctrl id (n.cdw10 / 65536 % 65536)))).find? (fun m => m != num) = none → nvmeStart s num = finishOp s num 0 1 0) ∧
    (adm 8 → id ≠ 0 → (opsWhere s (fun o => decide (o.src = .nvme n.ctrl id (n.cdw10 / 65536 % 65536)))).find? (fun m => m != num) = some c → nvmeStart s num = finishOp (finishOp s c 0x24 0 0) num 0 0 0) ∧
    (adm 12 → x0.events = ev :: rest → ∃ u, nvmeStart s num = finishOp u num 0 ev 0 ∧ (ctrlOf u n.ctrl).events = rest) ∧
    (adm 12 → x0.events = [] → x0.aers.length < 4 → ∃ u, nvmeStart s num = u ∧ (ctrlOf u n.ctrl).aers = x0.aers ++ [n.cid] ∧ u.rings = s.rings ∧ u.out = s.out) ∧
    (adm 12 → x0.events = [] → 4 ≤ x0.aers.length → nvmeStart s num = nvmeFail s num 0x1905)

/-- Storage data path (14 R410 to R417). -/
def Obligations.StorageDataPath : Prop :=
  ∀ (s u : State) (req : Requester) (c sq tail ep fn k op sct sc_ st bay lbas : Nat) (big dnr : Bool) (v : Word) (q : Sq) (b : Backend) (o : Op) (data : List Byte) (kb : Key) (ns : List Nat) (cid : Nat) (rest : List Nat),
    let x := ctrlOf s c
    let i := 16 * c + k
    let pf : Prop := mode s = 1 ∧ Requester.isPf req = true
    let bytes := if movesLbas b.opc then (b.cmd.cdw12 % 65536 + 1) * nsLba b.ns else 0
    (ctrlFn s c = some (ep, fn) → mode s = 1 →
      (ctrlEnabled x = true → ctrlLive s c = true → Tab.lookup x.sqs sq = some q → tail < q.size → ∃ u, exec (.nvmeSqDoorbell c sq tail) s = .next u ∧ Tab.lookup (ctrlOf u c).sqs sq = some { q with tail := tail, arrivals := q.arrivals ++ [((tail + q.size - q.tail) % q.size, s.ftime)] } ∧
        (∀ y, y ≠ sq → Tab.lookup (ctrlOf u c).sqs y = Tab.lookup x.sqs y) ∧ (∀ y, y ≠ c → ctrlOf u y = ctrlOf s y) ∧ u.mem = s.mem ∧ u.regs = s.regs ∧ u.rings = s.rings ∧ u.out = s.out) ∧
      (ctrlEnabled x = false ∨ ctrlLive s c = false ∨ Tab.lookup x.sqs sq = none → exec (.nvmeSqDoorbell c sq tail) s = .next s) ∧
      (Tab.lookup x.sqs sq = some q → q.size ≤ tail → exec (.nvmeSqDoorbell c sq tail) s = .next s)) ∧
    (ctrlFn s c = some (ep, fn) → mode s ≠ 1 → exec (.nvmeSqDoorbell c sq tail) s = .next (bump s Fld.pwrTarpDiscardCnt 0)) ∧
    (c < 128 → k < 16 → mode s = 1 → Requester.isPf req = true ∨ Requester.bay s req = some (getF s Fld.storCtlBay 0) → (v.toNat % 2 = 0 ∨ nsFit s (v.toNat :: (nsWords s c k).drop 1) = true) → ∃ u, getF u Fld.storNsCtlValid i = v.toNat % 2 ∧ getF u Fld.storNsCtlEncrypt i = v.toNat / 2 % 2 ∧
      getF u Fld.storNsCtlKind i = v.toNat / 4 % 2 ∧ getF u Fld.storNsCtlLba4k i = v.toNat / 8 % 2 ∧ getF u Fld.storNsCtlRootPort i = v.toNat / 256 % 8 ∧ getF u Fld.storNsCtlReadOnly i = v.toNat / 65536 % 2 ∧
      (∀ r j, r ≠ .storNsCtl ∨ j ≠ i → getReg u r j = getReg s r j) ∧ u.stor = s.stor ∧ u.mem = s.mem ∧ u.out = s.out ∧
      (getF s Fld.storNsCtlValid i = v.toNat % 2 → exec (.namespaceValidWrite req c k v) s = .next u) ∧ (getF s Fld.storNsCtlValid i ≠ v.toNat % 2 → exec (.namespaceValidWrite req c k v) s = .next (ctrlEvent u c 0x040002))) ∧
    (pf → v.toNat % 2 = 1 → nsFit s (v.toNat :: (nsWords s c k).drop 1) = false → exec (.namespaceValidWrite req c k v) s = .next (bump s Fld.storDeniedCnt 0)) ∧
    (mode s = 1 → Requester.isPf req = false → Requester.bay s req ≠ some (getF s Fld.storCtlBay 0) → exec (.namespaceValidWrite req c k v) s = .next (bump s Fld.storDeniedCnt 0)) ∧
    (x.aers = [] → ∃ u, ctrlEvent s c 0x040002 = u ∧ 0x040002 ∈ (ctrlOf u c).events ∧ u.regs = s.regs ∧ u.mem = s.mem) ∧
    (x.aers = cid :: rest → aerOp s c cid = some op → ∃ u, ctrlEvent s c 0x040002 = finishOp u op 0 0x040002 0 ∧ (ctrlOf u c).aers = rest ∧ u.rings = s.rings) ∧
    (nsRemote ns = false → nsEncrypts ns = false → (nsFit s ns = true ↔ ∃ lbas, Tab.lookup s.stor.ssdNs (nsPort ns * 2 ^ 32 + ns.getD 1 0) = some (nsBit ns 3, lbas) ∧ nsBase ns + nsLbas ns ≤ lbas)) ∧
    (ioBad s b = none → nsOf s b.cmd.ctrl b.cmd.nsid = some ns → nsRemote ns = false → (Tab.get {} s.host.rootPorts (nsPort ns)).up = true → Tab.lookup s.stor.ssdNs (nsPort ns * 2 ^ 32 + ns.getD 1 0) = some (big, lbas) →
      (nsEncrypts ns = false → b.opc = 2 → ∃ u, ioStart s op bay b = u ∧ u.out = .ssd (nsPort ns) (ns.getD 1 0) 2 (nsBase ns + cmdSlba b.cmd) (b.cmd.cdw12 % 65536 + 1) [] :: s.out ∧ Tab.lookup u.stor.cmds op = some { b with ns := ns } ∧ u.mem = s.mem ∧ u.regs = s.regs ∧ u.rings = s.rings) ∧
      (nsEncrypts ns = false → b.opc = 1 → b.data.length = (b.cmd.cdw12 % 65536 + 1) * nsLba ns → ∃ u, ioStart s op bay b = u ∧ u.out = .ssd (nsPort ns) (ns.getD 1 0) 1 (nsBase ns + cmdSlba b.cmd) (b.cmd.cdw12 % 65536 + 1) b.data :: s.out ∧ u.mem = s.mem) ∧
      (nsEncrypts ns = true → keyOfHandle s (nsKey ns) = some kb → kb.kind = 1 → keyPermits kb bay = true → b.opc = 8 → ∃ u, ioStart s op bay b = u ∧
        u.out = .ssd (nsPort ns) (ns.getD 1 0) 1 (nsBase ns + cmdSlba b.cmd) (b.cmd.cdw12 % 65536 + 1) (xtsUnits true kb.bytes (nsLba ns) (cmdSlba b.cmd) (List.replicate ((b.cmd.cdw12 % 65536 + 1) * nsLba ns) 0)) :: s.out ∧ u.mem = s.mem)) ∧
    (ioBad s b = none → nsOf s b.cmd.ctrl b.cmd.nsid = some ns →
      (nsEncrypts ns = true → keyOfHandle s (nsKey ns) = none → ioStart s op bay b = nvmeFail s op 0xA0) ∧
      (nsEncrypts ns = true → keyOfHandle s (nsKey ns) = some kb → (kb.kind ≠ 1 ∨ keyPermits kb bay = false) → ioStart s op bay b = nvmeFail s op 0xA1) ∧
      (nsEncrypts ns = false → nsRemote ns = false → (Tab.get {} s.host.rootPorts (nsPort ns)).up = false → ∃ u, ioStart s op bay b = backendFail u op ∧ Tab.lookup u.stor.cmds op = some { b with ns := ns } ∧ u.regs = s.regs ∧ u.rings = s.rings ∧ u.mem = s.mem)) ∧
    (Tab.lookup s.stor.cmds op = some b → b.ended = false → backendFail s op = backendForget (finishOp (bump s Fld.storBackendErrCnt 0) op 0xA5 0 0) op) ∧
    (ioBad s b = some st → ioStart s op bay b = nvmeFail s op st) ∧
    (Tab.lookup s.stor.cmds op = none → exec (.backendCompletion op sct sc_ dnr data) s = .next s) ∧
    (Tab.lookup s.stor.cmds op = some b → b.ns = [] → exec (.backendCompletion op sct sc_ dnr data) s = .next s) ∧
    (Tab.lookup s.stor.cmds op = some b → b.ns ≠ [] → nsRemote b.ns = false →
      (b.ended = true → exec (.backendCompletion op sct sc_ dnr data) s = .next (backendForget s op)) ∧
      (b.ended = false → sct = 2 → exec (.backendCompletion op sct sc_ dnr data) s = .next (nvmeFail (bump s Fld.storBackendErrCnt 0) op (0x1200 + sc_ + (if dnr then 0x800 else 0)))) ∧
      (b.ended = false → sct ≠ 2 → (sct ≠ 0 ∨ sc_ ≠ 0) → exec (.backendCompletion op sct sc_ dnr data) s = .next (nvmeFail (bump s Fld.storBackendErrCnt 0) op 0xA6)) ∧
      (b.ended = false → b.opc ≠ 2 → ∃ u, exec (.backendCompletion op 0 0 dnr data) s = .next (finishOp u op 0 0 0) ∧ getF u Fld.storCmdCnt 0 = (getF s Fld.storCmdCnt 0 + 1) % 2 ^ 64 ∧ getF u Fld.storByteCnt 0 = (getF s Fld.storByteCnt 0 + bytes) % 2 ^ 64 ∧ u.mem = s.mem ∧ u.stor = s.stor ∧ u.out = s.out) ∧
      (b.ended = false → b.opc = 2 → opOf s op = some o → nsEncrypts b.ns = false →
        (prpWrite s b.cmd (sized data ((b.cmd.cdw12 % 65536 + 1) * nsLba b.ns)) = none → exec (.backendCompletion op 0 0 dnr data) s = .next (nvmeFail s op stHostError)) ∧
        (prpWrite s b.cmd (sized data ((b.cmd.cdw12 % 65536 + 1) * nsLba b.ns)) = some u → ∃ w, exec (.backendCompletion op 0 0 dnr data) s = .next (finishOp w op 0 0 0) ∧ getF w Fld.storCmdCnt 0 = (getF u Fld.storCmdCnt 0 + 1) % 2 ^ 64 ∧ w.mem = u.mem ∧ w.out = u.out))) ∧
    (leAt (cqeBytes 5 6 7 8 9 st true) 0 4 = 5 ∧ leAt (cqeBytes 5 6 7 8 9 st true) 4 4 = 6 ∧ leAt (cqeBytes 5 6 7 8 9 st true) 8 2 = 7 ∧ leAt (cqeBytes 5 6 7 8 9 st true) 10 2 = 8 ∧ leAt (cqeBytes 5 6 7 8 9 st true) 12 2 = 9 ∧ leAt (cqeBytes 5 6 7 8 9 st true) 14 2 = (st * 2 + 1) % 65536)

/-- Security (14 R421 to R427). -/
def Obligations.SecurityCommands : Prop :=
  ∀ (s : State) (ep sid stream sub n h tt nn port : Nat) (r : SpdmReq) (code : Byte) (o : Op) (k : Key) (ks rx : Bool) (key : List Byte),
    let x := spdmOf s ep
    let up : Prop := getF s Fld.identEpLinkLinkUp ep = 1
    let fine : Prop := up ∧ (r.session = none ∨ ∃ id, r.session = some id ∧ ∃ y, y ∈ x.sessions ∧ y.id = id)
    let said (u : State) (code p1 p2 : Nat) : Prop := ∃ b, u.out = .spdm ep (leBytes 1 0x12 ++ leBytes 1 code ++ leBytes 1 p1 ++ leBytes 1 p2 ++ b) :: s.out
    let same (u : State) : Prop := u.regs = s.regs ∧ u.mem = s.mem ∧ u.rings = s.rings ∧ u.stor.ide = s.stor.ide ∧ u.stor.keys = s.stor.keys
    let err (e : Nat) : State := { s with out := .spdm ep (leBytes 1 0x12 ++ leBytes 1 0x7F ++ leBytes 1 e ++ leBytes 1 0) :: s.out }
    let rows : List Instr := [.getVersion ep r, .getCapabilities ep r, .negotiateAlgorithms ep r, .getDigests ep r, .getCertificate ep r, .challenge ep r, .getMeasurements ep r, .keyExchange ep r, .finish ep r, .heartbeat ep r, .keyUpdate ep r, .endSession ep r]
    let tables : List Instr := [.getDigests ep r, .getCertificate ep r, .challenge ep r, .getMeasurements ep r, .keyExchange ep r]
    let ide := ideOf s ep stream
    let km : Prop := up ∧ sessionUp s ep sid = true
    (running s n 0x0701 = none → exec (.keyDestroyDone n) s = .next s) ∧
    (running s n 0x0701 = some o → leAt o.body 0 4 = h → keyOfHandle s h = some k →
      (keyUsed s h = true → exec (.keyDestroyDone n) s = .next s) ∧
      (keyUsed s h = false → ∃ u, exec (.keyDestroyDone n) s = .next (finishOp u n 0 0 0) ∧ keyOfHandle u h = none ∧ (keyAt u (h % 4096)).bytes = [] ∧ (keyAt u (h % 4096)).gen = k.gen ∧ (∀ i, i ≠ h % 4096 → keyAt u i = keyAt s i) ∧ u.rings = s.rings ∧ u.mem = s.mem)) ∧
    (running s n 0x0701 = some o → keyOfHandle s (leAt o.body 0 4) = none → exec (.keyDestroyDone n) s = .next (finishOp s n 0xA0 0 0)) ∧
    (keyOfHandle s h = some k → k.kind ≠ 0 ∧ k.gen = h / 4096 ∧ h < 2 ^ 20 ∧ k = keyAt s (h % 4096)) ∧
    (s.stor.blowing = none → exec .floorStepBlown s = .next s) ∧
    (s.stor.blowing = some (tt, nn) → (∀ e, e ∈ s.rings.ops → e.2.opcode ≠ 0x0703) → ∃ u, exec .floorStepBlown s = .next u ∧ u.stor.fuseFloor = s.stor.fuseFloor + 1 ∧ u.stor.blowing = (if tt ≤ s.stor.fuseFloor + 1 then none else some (tt, nn)) ∧ u.regs = s.regs ∧ u.mem = s.mem ∧ u.out = s.out) ∧
    (∀ c, c ∈ rows → ¬ up → exec c s = .next s) ∧
    (∀ c id, c ∈ rows → up → r.session = some id → (∀ y, y ∈ x.sessions → y.id ≠ id) → exec c s = .next (err 4)) ∧
    (fine → ∃ u, exec (.getVersion ep r) s = .next u ∧ spdmOf u ep = { step := 1 } ∧ u.out = .spdm ep (leBytes 1 0x10 ++ leBytes 1 4 ++ leBytes 1 0 ++ leBytes 1 0 ++ (leBytes 1 0 ++ leBytes 1 1 ++ leBytes 2 0x1200)) :: s.out ∧ same u) ∧
    (fine → x.step = 1 → ∃ u, exec (.getCapabilities ep r) s = .next u ∧ said u 0x61 0 0 ∧ spdmOf u ep = { x with step := 2 } ∧ same u) ∧
    (fine → x.step ≠ 1 → exec (.getCapabilities ep r) s = .next (err 4)) ∧
    (fine → x.step = 2 → ∃ u, exec (.negotiateAlgorithms ep r) s = .next u ∧ said u 0x63 3 0 ∧ spdmOf u ep = { x with step := 3 } ∧ same u) ∧
    (fine → x.step ≠ 2 → exec (.negotiateAlgorithms ep r) s = .next (err 4)) ∧
    (∀ c, c ∈ tables → up → r.session = none → x.step ≠ 3 → exec c s = .next (err 4)) ∧
    (fine → x.step = 3 → r.param1 = 0 →
      (∃ u, exec (.getDigests ep r) s = .next u ∧ said u 0x01 0 1 ∧ spdmOf u ep = x ∧ same u) ∧ (∃ u, exec (.getCertificate ep r) s = .next u ∧ said u 0x02 0 0 ∧ spdmOf u ep = x ∧ same u) ∧
      (∃ u, exec (.challenge ep r) s = .next u ∧ said u 0x03 0 1 ∧ spdmOf u ep = x ∧ same u) ∧
      (r.param2.toNat ≤ 5 ∨ r.param2 = 0xFF → ∃ u, exec (.getMeasurements ep r) s = .next u ∧ said u 0x60 (if r.param2 = 0 then 5 else 0) 0 ∧ spdmOf u ep = x ∧ same u) ∧
      (5 < r.param2.toNat → r.param2 ≠ 0xFF → exec (.getMeasurements ep r) s = .next (err 1)) ∧
      (x.sessions.length < 4 → ∃ u e, exec (.keyExchange ep r) s = .next u ∧ said u 0x64 0 0 ∧ spdmOf u ep = { x with sessions := x.sessions ++ [e] } ∧ e.established = false ∧ (∀ y, y ∈ x.sessions → y.id ≠ e.id) ∧ same u) ∧
      (4 ≤ x.sessions.length → exec (.keyExchange ep r) s = .next (err 10))) ∧
    (fine → x.step = 3 → r.param1 = 1 → exec (.getCertificate ep r) s = .next (err 1) ∧ exec (.challenge ep r) s = .next (err 1)) ∧
    (fine → r.session = some sid → sessionUp s ep sid = false → (∃ u, exec (.finish ep r) s = .next u ∧ said u 0x65 0 0 ∧ sessionUp u ep sid = true ∧ (spdmOf u ep).sessions.length = x.sessions.length ∧ same u) ∧
      exec (.heartbeat ep r) s = .next (err 4) ∧ exec (.keyUpdate ep r) s = .next (err 4) ∧ exec (.endSession ep r) s = .next (err 4)) ∧
    (up → r.session = some sid → sessionUp s ep sid = true → exec (.finish ep r) s = .next (err 4) ∧ (∃ u, exec (.heartbeat ep r) s = .next u ∧ said u 0x68 0 0 ∧ spdmOf u ep = x ∧ same u) ∧
      (∃ u, exec (.keyUpdate ep r) s = .next u ∧ said u 0x69 r.param1.toNat r.param2.toNat ∧ spdmOf u ep = x ∧ same u) ∧
      (∃ u, exec (.endSession ep r) s = .next u ∧ said u 0x6C 0 0 ∧ (∀ y, y ∈ (spdmOf u ep).sessions ↔ y ∈ x.sessions ∧ y.id ≠ sid) ∧ same u)) ∧
    (up → r.session = none → exec (.finish ep r) s = .next (err 4) ∧ exec (.heartbeat ep r) s = .next (err 4)) ∧
    (fine → code.toNat ∉ [0x84, 0xE1, 0xE3, 0x81, 0x82, 0x83, 0xE0, 0xE4, 0xE5, 0xE8, 0xE9, 0xEC] → exec (.spdmUnsupportedRequest ep r code) s = .next (err 7)) ∧
    (code.toNat ∈ [0x84, 0xE1, 0xE3, 0x81, 0x82, 0x83, 0xE0, 0xE4, 0xE5, 0xE8, 0xE9, 0xEC] → exec (.spdmUnsupportedRequest ep r code) s = .next s) ∧
    (¬ km → exec (.query ep sid port) s = .next s ∧ exec (.keyProg ep sid stream ks rx sub key) s = .next s ∧ exec (.kSetGo ep sid stream ks rx sub) s = .next s ∧ exec (.kSetStop ep sid stream ks rx sub) s = .next s) ∧
    (km → ∃ u b, exec (.query ep sid port) s = .next u ∧ u.out = .spdm ep (leBytes 1 1 ++ leBytes 1 0 ++ leBytes 1 port ++ b) :: s.out ∧ u.stor = s.stor ∧ u.regs = s.regs) ∧
    (km → key.length = 40 → sub ≤ 2 → ∃ u, exec (.keyProg ep sid stream ks rx sub key) s = .next u ∧ (ks, rx, sub, key) ∈ (ideOf u ep stream).keys ∧ (∀ k, (ks, rx, sub, k) ∈ (ideOf u ep stream).keys → k = key) ∧
      (∀ e, e.1 ≠ ks ∨ e.2.1 ≠ rx ∨ e.2.2.1 ≠ sub → (e ∈ (ideOf u ep stream).keys ↔ e ∈ ide.keys)) ∧ (ideOf u ep stream).going = ide.going ∧ (ideOf u ep stream).secure = ide.secure ∧ u.stor.keys = s.stor.keys ∧ u.regs = s.regs ∧ u.mem = s.mem) ∧
    (km → (key.length ≠ 40 ∨ 2 < sub) → ∃ u, exec (.keyProg ep sid stream ks rx sub key) s = .next u ∧ u.stor = s.stor ∧ u.regs = s.regs) ∧
    (km → (ks, rx, sub, key) ∈ ide.keys → ∃ u, exec (.kSetGo ep sid stream ks rx sub) s = .next u ∧ (ks, rx, sub) ∈ (ideOf u ep stream).going ∧ (ideOf u ep stream).keys = ide.keys ∧
      ((ideOf u ep stream).secure = true ↔ ∃ k, ∀ d b, b < 3 → (k, d, b) ∈ (ideOf u ep stream).going) ∧ u.regs = s.regs ∧ u.mem = s.mem) ∧
    (km → (∀ k, (ks, rx, sub, k) ∉ ide.keys) → ∃ u, exec (.kSetGo ep sid stream ks rx sub) s = .next u ∧ u.stor = s.stor ∧ u.regs = s.regs) ∧
    (km → ∃ u, exec (.kSetStop ep sid stream ks rx sub) s = .next u ∧ (∀ k, (ks, rx, sub, k) ∉ (ideOf u ep stream).keys) ∧ (ks, rx, sub) ∉ (ideOf u ep stream).going ∧
      ((ideOf u ep stream).secure = true ↔ ∃ k, ∀ d b, b < 3 → (k, d, b) ∈ (ideOf u ep stream).going) ∧ u.regs = s.regs ∧ u.mem = s.mem) ∧
    (ide.secure = false → exec (.ideCheckFailed ep stream) s = .next s) ∧
    (ide.secure = true → ∃ u, exec (.ideCheckFailed ep stream) s = .next (failRequests (raiseD u srcSec { code := 0x0902, aux8 := ep, aux16 := stream }) ep 1 (stream == 0)) ∧ (ideOf u ep stream).secure = false ∧ (ideOf u ep stream).going = [] ∧
      u.out = .aer ep 0 :: s.out ∧ getF u Fld.secIdeFailCnt 0 = (getF s Fld.secIdeFailCnt 0 + 1) % 2 ^ 64 ∧ u.mem = s.mem)

/-- The state right after reset (register tables' Reset columns; the model's choices: logs 2, 3, 4, 6, 7, 8, 92). -/
def Obligations.ResetLeaves : Prop :=
  let s := State.reset
  (∀ r i, getReg s r i = r.resetVal i) ∧ (∀ f i, getF s f i = fieldOf (f.reg.resetVal i).toNat f.hi f.lo) ∧
  getReg s .identId 0 = 0x0A64C7F2 ∧ getReg s .identFamily 0 = 0x4B8440 ∧ mode s = 0 ∧ (∀ d, d < 78 → domState s d = 3) ∧
  (∀ q, q < 4096 → getF s Fld.qpCtlEnable q = 0) ∧ (∀ e, e < 256 → getF s Fld.evrCtlEnable e = 0) ∧ (∀ l, l < 16 → getF s Fld.nawynLinkStatState l = 0) ∧ (∀ ep, ep < 2 → getF s Fld.identEpLinkLinkUp ep = 0) ∧
  ulOn s = false ∧ loftOn s = false ∧ getF s Fld.storCtlEnable 0 = 0 ∧
  (∀ t r, (threadOf s t).st = .parked ∧ (threadOf s t).reg r = 0 ∧ (threadOf s t).block = none) ∧
  (∀ n, opOf s n = none ∧ lreqOf s n = none ∧ biasSet s n = none ∧ keyOfHandle s n = none) ∧ s.nawyn.waiting = [] ∧ s.nawyn.reads = [] ∧ s.ul.copy = none ∧ s.ul.drain = none ∧
  s.ftime = 0 ∧ s.pending = [] ∧ s.out = [] ∧ s.mem = [] ∧ Memory.wf s.mem ∧ (∀ a, readByte s a = Config.undefByte 0 a)

/-- Idle steps (11 R341, R343; the tick on an empty queue is the model's choice: log 120). -/
def Obligations.IdleStepAndTotality : Prop :=
  ∀ s : State, safeStep s ∧
    (s.pending = [] → step s = .next (egressDue (tick s)) ∧ (tick s).regs = s.regs ∧ (tick s).mem = s.mem ∧ (tick s).out = s.out ∧ (tick s).pending = [] ∧ (tick s).rings = s.rings) ∧
    (domState s 75 = 3 → (tick s).ftime = s.ftime + 20 ∧ (tick s).nawyn = s.nawyn) ∧
    (domState s 75 ≠ 3 → s.nawyn.corr = 0 → getF s Fld.nawynTimeFreq 0 = 0 → s.nawyn.frac < 1000000000 → (tick s).ftime = s.ftime + 1 ∧ (tick s).nawyn = s.nawyn) ∧
    (domState s 75 ≠ 3 → -1000000000000 < s.nawyn.corr → -500000 ≤ s.nawyn.corr → s.nawyn.corr ≤ 500000 → (tick s).nawyn.corr = 0) ∧
    (domState s 75 ≠ 3 → 500000 < s.nawyn.corr → (tick s).nawyn.corr = s.nawyn.corr - 500000) ∧
    (domState s 75 ≠ 3 → s.nawyn.corr ≤ -1000000000000 → getF s Fld.nawynTimeFreq 0 = 0 → s.nawyn.frac = 0 → (tick s).nawyn.frac = 500000000 ∧ (tick s).ftime = s.ftime ∧ (tick s).nawyn.corr = s.nawyn.corr + 500000000)

/-- Decode and encode agree (05 R128, R135, R136). -/
def Obligations.InstructionWordsRoundTrip : Prop :=
  ∀ (i j : Olx) (w w1 w2 : Word),
    (i.wf = true → decodeOlx i.encode.1 i.encode.2 = some i) ∧
    (i.wf = true → j.wf = true → i.encode = j.encode → i = j) ∧
    (decodeOlx w w1 = some i → i.wf = true ∧ i.encode.1 = w ∧ (i.size = 8 → i.encode.2 = w1)) ∧
    (decodeOlx w w1 = some i → i.size = 4 → decodeOlx w w2 = some i)

/-- A few words (05 Tables 5.4 to 5.13). -/
def Obligations.InstructionWords : Prop :=
  decodeOlx 0xB54B6030 0 = some (.long .movb 3 false false 10 11 12) ∧ decodeOlx 0x08000000 0 = some (.imm .addi 0 0 0) ∧ decodeOlx 0x04611000 0 = some (.alu .add false 3 1 2) ∧
  decodeOlx 0x04611041 0 = some (.alu .sub true 3 1 2) ∧ decodeOlx 0x08A0FFFF 0 = some (.imm .addi 5 0 0xFFFF) ∧ decodeOlx 0x44820008 0 = some (.load .ld 4 2 8) ∧ decodeOlx 0x54820010 0 = some (.store .sd 4 2 16) ∧
  decodeOlx 0x6822FFFF 0 = some (.br .beq 1 2 0xFFFF) ∧ decodeOlx 0x80000004 0 = some (.jal 4) ∧ decodeOlx 0x5C000008 0 = some .eret ∧ decodeOlx 0x5CE00054 0 = some (.mfs 7 5) ∧ decodeOlx 0xA2050002 0 = some (.bb true 5 2) ∧
  decodeOlx 0xAC600064 0 = some (.chki 3 100) ∧ decodeOlx 0xEC8C7009 0 = some (.cop 3 2 6 7 9) ∧ decodeOlx 0xDC020005 1 = some (.lix 4 0x500000001) ∧
  decodeOlx 0 0 = none ∧ decodeOlx 0xB8000000 0 = none ∧ decodeOlx 0x24010000 0 = none

/-- Memory (00 R8, R9; 06 R173; the value of a lost byte is the model's choice: log 7). -/
def Obligations.MemoryReadBack : Prop :=
  ∀ (s : State) (a b n m v w : Nat) (x y : Byte) (bs cs : List Byte) (lost : Nat → Bool),
    readByte (writeByte s a x) b = (if b = a then x else readByte s b) ∧ (writeByte (writeByte s a x) a y) = writeByte s a y ∧
    (∀ i (h : i < bs.length), readByte (writeBytes s a bs) (a + i) = bs[i]) ∧ (b < a ∨ a + bs.length ≤ b → readByte (writeBytes s a bs) b = readByte s b) ∧
    readBytes (writeBytes s a bs) a bs.length = bs ∧ (∀ c, readByte (writeBytes s a (readBytes s a n)) c = readByte s c) ∧
    readLe (writeLe s a n v) a n = v % 2 ^ (8 * n) ∧ (b + m ≤ a ∨ a + n ≤ b → readLe (writeLe s a n v) b m = readLe s b m) ∧
    (bs.length = cs.length → ∀ c, readByte (writeBytes (writeBytes s a bs) a cs) c = readByte (writeBytes s a cs) c) ∧
    (a + bs.length ≤ b ∨ b + cs.length ≤ a → ∀ c, readByte (writeBytes (writeBytes s a bs) b cs) c = readByte (writeBytes (writeBytes s b cs) a bs) c) ∧
    leNat (leBytes n v) = v % 2 ^ (8 * n) ∧ (leBytes n v).length = n ∧ leBytes bs.length (leNat bs) = bs ∧
    (Memory.wf s.mem → Memory.wf (writeBytes s a bs).mem ∧ Memory.wf (loseMem s lost).mem) ∧
    (∃ mem, writeBytes s a bs = { s with mem := mem }) ∧
    (lost b = true → readByte (loseMem s lost) b = Config.undefByte (s.memEpoch + 1) b) ∧ (Tab.lookup s.mem b = some x → lost b = false → readByte (loseMem s lost) b = x)

/-- The invariant of memory: every step keeps the canonical form. -/
def Obligations.StepKeepsMemoryForm : Prop :=
  Memory.wf State.reset.mem ∧ ∀ s t : State, Memory.wf s.mem → step s = .next t → Memory.wf t.mem
end

