-- ==== Sys2Proof/Laws/State.lean ====
section
/-! SUPPORT. The fields of the state after each named update: one lemma per field per update. -/

namespace Sys2Proof.Machine

variable (s : State)

@[simp] theorem setReg_ftime (r : Reg) (i : Nat) (v : Dword) : (setReg s r i v).ftime = s.ftime := rfl
@[simp] theorem setReg_freeCtr (r : Reg) (i : Nat) (v : Dword) : (setReg s r i v).freeCtr = s.freeCtr := rfl
@[simp] theorem setReg_memEpoch (r : Reg) (i : Nat) (v : Dword) : (setReg s r i v).memEpoch = s.memEpoch := rfl
@[simp] theorem setReg_regs (r : Reg) (i : Nat) (v : Dword) : (setReg s r i v).regs = Tab.store (r.resetVal i) s.regs (regKey r i) v := rfl
@[simp] theorem setReg_mem (r : Reg) (i : Nat) (v : Dword) : (setReg s r i v).mem = s.mem := rfl
@[simp] theorem setReg_ridge (r : Reg) (i : Nat) (v : Dword) : (setReg s r i v).ridge = s.ridge := rfl
@[simp] theorem setReg_chain (r : Reg) (i : Nat) (v : Dword) : (setReg s r i v).chain = s.chain := rfl
@[simp] theorem setReg_console (r : Reg) (i : Nat) (v : Dword) : (setReg s r i v).console = s.console := rfl
@[simp] theorem setReg_accs (r : Reg) (i : Nat) (v : Dword) : (setReg s r i v).accs = s.accs := rfl
@[simp] theorem setReg_thatch (r : Reg) (i : Nat) (v : Dword) : (setReg s r i v).thatch = s.thatch := rfl
@[simp] theorem setReg_rafters (r : Reg) (i : Nat) (v : Dword) : (setReg s r i v).rafters = s.rafters := rfl
@[simp] theorem setReg_host (r : Reg) (i : Nat) (v : Dword) : (setReg s r i v).host = s.host := rfl
@[simp] theorem setReg_rings (r : Reg) (i : Nat) (v : Dword) : (setReg s r i v).rings = s.rings := rfl
@[simp] theorem setReg_truss (r : Reg) (i : Nat) (v : Dword) : (setReg s r i v).truss = s.truss := rfl
@[simp] theorem setReg_xpt (r : Reg) (i : Nat) (v : Dword) : (setReg s r i v).xpt = s.xpt := rfl
@[simp] theorem setReg_nawyn (r : Reg) (i : Nat) (v : Dword) : (setReg s r i v).nawyn = s.nawyn := rfl
@[simp] theorem setReg_loft (r : Reg) (i : Nat) (v : Dword) : (setReg s r i v).loft = s.loft := rfl
@[simp] theorem setReg_ul (r : Reg) (i : Nat) (v : Dword) : (setReg s r i v).ul = s.ul := rfl
@[simp] theorem setReg_stor (r : Reg) (i : Nat) (v : Dword) : (setReg s r i v).stor = s.stor := rfl
@[simp] theorem setReg_gut (r : Reg) (i : Nat) (v : Dword) : (setReg s r i v).gut = s.gut := rfl
@[simp] theorem setReg_out (r : Reg) (i : Nat) (v : Dword) : (setReg s r i v).out = s.out := rfl
@[simp] theorem setReg_pending (r : Reg) (i : Nat) (v : Dword) : (setReg s r i v).pending = s.pending := rfl

@[simp] theorem setF_ftime (f : Fld) (i n : Nat) : (setF s f i n).ftime = s.ftime := rfl
@[simp] theorem setF_freeCtr (f : Fld) (i n : Nat) : (setF s f i n).freeCtr = s.freeCtr := rfl
@[simp] theorem setF_memEpoch (f : Fld) (i n : Nat) : (setF s f i n).memEpoch = s.memEpoch := rfl
@[simp] theorem setF_mem (f : Fld) (i n : Nat) : (setF s f i n).mem = s.mem := rfl
@[simp] theorem setF_ridge (f : Fld) (i n : Nat) : (setF s f i n).ridge = s.ridge := rfl
@[simp] theorem setF_chain (f : Fld) (i n : Nat) : (setF s f i n).chain = s.chain := rfl
@[simp] theorem setF_console (f : Fld) (i n : Nat) : (setF s f i n).console = s.console := rfl
@[simp] theorem setF_accs (f : Fld) (i n : Nat) : (setF s f i n).accs = s.accs := rfl
@[simp] theorem setF_thatch (f : Fld) (i n : Nat) : (setF s f i n).thatch = s.thatch := rfl
@[simp] theorem setF_rafters (f : Fld) (i n : Nat) : (setF s f i n).rafters = s.rafters := rfl
@[simp] theorem setF_host (f : Fld) (i n : Nat) : (setF s f i n).host = s.host := rfl
@[simp] theorem setF_rings (f : Fld) (i n : Nat) : (setF s f i n).rings = s.rings := rfl
@[simp] theorem setF_truss (f : Fld) (i n : Nat) : (setF s f i n).truss = s.truss := rfl
@[simp] theorem setF_xpt (f : Fld) (i n : Nat) : (setF s f i n).xpt = s.xpt := rfl
@[simp] theorem setF_nawyn (f : Fld) (i n : Nat) : (setF s f i n).nawyn = s.nawyn := rfl
@[simp] theorem setF_loft (f : Fld) (i n : Nat) : (setF s f i n).loft = s.loft := rfl
@[simp] theorem setF_ul (f : Fld) (i n : Nat) : (setF s f i n).ul = s.ul := rfl
@[simp] theorem setF_stor (f : Fld) (i n : Nat) : (setF s f i n).stor = s.stor := rfl
@[simp] theorem setF_gut (f : Fld) (i n : Nat) : (setF s f i n).gut = s.gut := rfl
@[simp] theorem setF_out (f : Fld) (i n : Nat) : (setF s f i n).out = s.out := rfl
@[simp] theorem setF_pending (f : Fld) (i n : Nat) : (setF s f i n).pending = s.pending := rfl

@[simp] theorem bumpN_ftime (f : Fld) (i n : Nat) : (bumpN s f i n).ftime = s.ftime := rfl
@[simp] theorem bumpN_freeCtr (f : Fld) (i n : Nat) : (bumpN s f i n).freeCtr = s.freeCtr := rfl
@[simp] theorem bumpN_memEpoch (f : Fld) (i n : Nat) : (bumpN s f i n).memEpoch = s.memEpoch := rfl
@[simp] theorem bumpN_mem (f : Fld) (i n : Nat) : (bumpN s f i n).mem = s.mem := rfl
@[simp] theorem bumpN_ridge (f : Fld) (i n : Nat) : (bumpN s f i n).ridge = s.ridge := rfl
@[simp] theorem bumpN_chain (f : Fld) (i n : Nat) : (bumpN s f i n).chain = s.chain := rfl
@[simp] theorem bumpN_console (f : Fld) (i n : Nat) : (bumpN s f i n).console = s.console := rfl
@[simp] theorem bumpN_accs (f : Fld) (i n : Nat) : (bumpN s f i n).accs = s.accs := rfl
@[simp] theorem bumpN_thatch (f : Fld) (i n : Nat) : (bumpN s f i n).thatch = s.thatch := rfl
@[simp] theorem bumpN_rafters (f : Fld) (i n : Nat) : (bumpN s f i n).rafters = s.rafters := rfl
@[simp] theorem bumpN_host (f : Fld) (i n : Nat) : (bumpN s f i n).host = s.host := rfl
@[simp] theorem bumpN_rings (f : Fld) (i n : Nat) : (bumpN s f i n).rings = s.rings := rfl
@[simp] theorem bumpN_truss (f : Fld) (i n : Nat) : (bumpN s f i n).truss = s.truss := rfl
@[simp] theorem bumpN_xpt (f : Fld) (i n : Nat) : (bumpN s f i n).xpt = s.xpt := rfl
@[simp] theorem bumpN_nawyn (f : Fld) (i n : Nat) : (bumpN s f i n).nawyn = s.nawyn := rfl
@[simp] theorem bumpN_loft (f : Fld) (i n : Nat) : (bumpN s f i n).loft = s.loft := rfl
@[simp] theorem bumpN_ul (f : Fld) (i n : Nat) : (bumpN s f i n).ul = s.ul := rfl
@[simp] theorem bumpN_stor (f : Fld) (i n : Nat) : (bumpN s f i n).stor = s.stor := rfl
@[simp] theorem bumpN_gut (f : Fld) (i n : Nat) : (bumpN s f i n).gut = s.gut := rfl
@[simp] theorem bumpN_out (f : Fld) (i n : Nat) : (bumpN s f i n).out = s.out := rfl
@[simp] theorem bumpN_pending (f : Fld) (i n : Nat) : (bumpN s f i n).pending = s.pending := rfl

@[simp] theorem bump_ftime (f : Fld) (i : Nat) : (bump s f i).ftime = s.ftime := rfl
@[simp] theorem bump_freeCtr (f : Fld) (i : Nat) : (bump s f i).freeCtr = s.freeCtr := rfl
@[simp] theorem bump_memEpoch (f : Fld) (i : Nat) : (bump s f i).memEpoch = s.memEpoch := rfl
@[simp] theorem bump_mem (f : Fld) (i : Nat) : (bump s f i).mem = s.mem := rfl
@[simp] theorem bump_ridge (f : Fld) (i : Nat) : (bump s f i).ridge = s.ridge := rfl
@[simp] theorem bump_chain (f : Fld) (i : Nat) : (bump s f i).chain = s.chain := rfl
@[simp] theorem bump_console (f : Fld) (i : Nat) : (bump s f i).console = s.console := rfl
@[simp] theorem bump_accs (f : Fld) (i : Nat) : (bump s f i).accs = s.accs := rfl
@[simp] theorem bump_thatch (f : Fld) (i : Nat) : (bump s f i).thatch = s.thatch := rfl
@[simp] theorem bump_rafters (f : Fld) (i : Nat) : (bump s f i).rafters = s.rafters := rfl
@[simp] theorem bump_host (f : Fld) (i : Nat) : (bump s f i).host = s.host := rfl
@[simp] theorem bump_rings (f : Fld) (i : Nat) : (bump s f i).rings = s.rings := rfl
@[simp] theorem bump_truss (f : Fld) (i : Nat) : (bump s f i).truss = s.truss := rfl
@[simp] theorem bump_xpt (f : Fld) (i : Nat) : (bump s f i).xpt = s.xpt := rfl
@[simp] theorem bump_nawyn (f : Fld) (i : Nat) : (bump s f i).nawyn = s.nawyn := rfl
@[simp] theorem bump_loft (f : Fld) (i : Nat) : (bump s f i).loft = s.loft := rfl
@[simp] theorem bump_ul (f : Fld) (i : Nat) : (bump s f i).ul = s.ul := rfl
@[simp] theorem bump_stor (f : Fld) (i : Nat) : (bump s f i).stor = s.stor := rfl
@[simp] theorem bump_gut (f : Fld) (i : Nat) : (bump s f i).gut = s.gut := rfl
@[simp] theorem bump_out (f : Fld) (i : Nat) : (bump s f i).out = s.out := rfl
@[simp] theorem bump_pending (f : Fld) (i : Nat) : (bump s f i).pending = s.pending := rfl

@[simp] theorem bumpSat_ftime (f : Fld) (i : Nat) : (bumpSat s f i).ftime = s.ftime := rfl
@[simp] theorem bumpSat_freeCtr (f : Fld) (i : Nat) : (bumpSat s f i).freeCtr = s.freeCtr := rfl
@[simp] theorem bumpSat_memEpoch (f : Fld) (i : Nat) : (bumpSat s f i).memEpoch = s.memEpoch := rfl
@[simp] theorem bumpSat_mem (f : Fld) (i : Nat) : (bumpSat s f i).mem = s.mem := rfl
@[simp] theorem bumpSat_ridge (f : Fld) (i : Nat) : (bumpSat s f i).ridge = s.ridge := rfl
@[simp] theorem bumpSat_chain (f : Fld) (i : Nat) : (bumpSat s f i).chain = s.chain := rfl
@[simp] theorem bumpSat_console (f : Fld) (i : Nat) : (bumpSat s f i).console = s.console := rfl
@[simp] theorem bumpSat_accs (f : Fld) (i : Nat) : (bumpSat s f i).accs = s.accs := rfl
@[simp] theorem bumpSat_thatch (f : Fld) (i : Nat) : (bumpSat s f i).thatch = s.thatch := rfl
@[simp] theorem bumpSat_rafters (f : Fld) (i : Nat) : (bumpSat s f i).rafters = s.rafters := rfl
@[simp] theorem bumpSat_host (f : Fld) (i : Nat) : (bumpSat s f i).host = s.host := rfl
@[simp] theorem bumpSat_rings (f : Fld) (i : Nat) : (bumpSat s f i).rings = s.rings := rfl
@[simp] theorem bumpSat_truss (f : Fld) (i : Nat) : (bumpSat s f i).truss = s.truss := rfl
@[simp] theorem bumpSat_xpt (f : Fld) (i : Nat) : (bumpSat s f i).xpt = s.xpt := rfl
@[simp] theorem bumpSat_nawyn (f : Fld) (i : Nat) : (bumpSat s f i).nawyn = s.nawyn := rfl
@[simp] theorem bumpSat_loft (f : Fld) (i : Nat) : (bumpSat s f i).loft = s.loft := rfl
@[simp] theorem bumpSat_ul (f : Fld) (i : Nat) : (bumpSat s f i).ul = s.ul := rfl
@[simp] theorem bumpSat_stor (f : Fld) (i : Nat) : (bumpSat s f i).stor = s.stor := rfl
@[simp] theorem bumpSat_gut (f : Fld) (i : Nat) : (bumpSat s f i).gut = s.gut := rfl
@[simp] theorem bumpSat_out (f : Fld) (i : Nat) : (bumpSat s f i).out = s.out := rfl
@[simp] theorem bumpSat_pending (f : Fld) (i : Nat) : (bumpSat s f i).pending = s.pending := rfl

@[simp] theorem clearReg_ftime (r : Reg) (i : Nat) : (clearReg s r i).ftime = s.ftime := rfl
@[simp] theorem clearReg_freeCtr (r : Reg) (i : Nat) : (clearReg s r i).freeCtr = s.freeCtr := rfl
@[simp] theorem clearReg_memEpoch (r : Reg) (i : Nat) : (clearReg s r i).memEpoch = s.memEpoch := rfl
@[simp] theorem clearReg_mem (r : Reg) (i : Nat) : (clearReg s r i).mem = s.mem := rfl
@[simp] theorem clearReg_ridge (r : Reg) (i : Nat) : (clearReg s r i).ridge = s.ridge := rfl
@[simp] theorem clearReg_chain (r : Reg) (i : Nat) : (clearReg s r i).chain = s.chain := rfl
@[simp] theorem clearReg_console (r : Reg) (i : Nat) : (clearReg s r i).console = s.console := rfl
@[simp] theorem clearReg_accs (r : Reg) (i : Nat) : (clearReg s r i).accs = s.accs := rfl
@[simp] theorem clearReg_thatch (r : Reg) (i : Nat) : (clearReg s r i).thatch = s.thatch := rfl
@[simp] theorem clearReg_rafters (r : Reg) (i : Nat) : (clearReg s r i).rafters = s.rafters := rfl
@[simp] theorem clearReg_host (r : Reg) (i : Nat) : (clearReg s r i).host = s.host := rfl
@[simp] theorem clearReg_rings (r : Reg) (i : Nat) : (clearReg s r i).rings = s.rings := rfl
@[simp] theorem clearReg_truss (r : Reg) (i : Nat) : (clearReg s r i).truss = s.truss := rfl
@[simp] theorem clearReg_xpt (r : Reg) (i : Nat) : (clearReg s r i).xpt = s.xpt := rfl
@[simp] theorem clearReg_nawyn (r : Reg) (i : Nat) : (clearReg s r i).nawyn = s.nawyn := rfl
@[simp] theorem clearReg_loft (r : Reg) (i : Nat) : (clearReg s r i).loft = s.loft := rfl
@[simp] theorem clearReg_ul (r : Reg) (i : Nat) : (clearReg s r i).ul = s.ul := rfl
@[simp] theorem clearReg_stor (r : Reg) (i : Nat) : (clearReg s r i).stor = s.stor := rfl
@[simp] theorem clearReg_gut (r : Reg) (i : Nat) : (clearReg s r i).gut = s.gut := rfl
@[simp] theorem clearReg_out (r : Reg) (i : Nat) : (clearReg s r i).out = s.out := rfl
@[simp] theorem clearReg_pending (r : Reg) (i : Nat) : (clearReg s r i).pending = s.pending := rfl

@[simp] theorem emit_ftime (o : Out) : (emit s o).ftime = s.ftime := rfl
@[simp] theorem emit_freeCtr (o : Out) : (emit s o).freeCtr = s.freeCtr := rfl
@[simp] theorem emit_memEpoch (o : Out) : (emit s o).memEpoch = s.memEpoch := rfl
@[simp] theorem emit_regs (o : Out) : (emit s o).regs = s.regs := rfl
@[simp] theorem emit_mem (o : Out) : (emit s o).mem = s.mem := rfl
@[simp] theorem emit_ridge (o : Out) : (emit s o).ridge = s.ridge := rfl
@[simp] theorem emit_chain (o : Out) : (emit s o).chain = s.chain := rfl
@[simp] theorem emit_console (o : Out) : (emit s o).console = s.console := rfl
@[simp] theorem emit_accs (o : Out) : (emit s o).accs = s.accs := rfl
@[simp] theorem emit_thatch (o : Out) : (emit s o).thatch = s.thatch := rfl
@[simp] theorem emit_rafters (o : Out) : (emit s o).rafters = s.rafters := rfl
@[simp] theorem emit_host (o : Out) : (emit s o).host = s.host := rfl
@[simp] theorem emit_rings (o : Out) : (emit s o).rings = s.rings := rfl
@[simp] theorem emit_truss (o : Out) : (emit s o).truss = s.truss := rfl
@[simp] theorem emit_xpt (o : Out) : (emit s o).xpt = s.xpt := rfl
@[simp] theorem emit_nawyn (o : Out) : (emit s o).nawyn = s.nawyn := rfl
@[simp] theorem emit_loft (o : Out) : (emit s o).loft = s.loft := rfl
@[simp] theorem emit_ul (o : Out) : (emit s o).ul = s.ul := rfl
@[simp] theorem emit_stor (o : Out) : (emit s o).stor = s.stor := rfl
@[simp] theorem emit_gut (o : Out) : (emit s o).gut = s.gut := rfl
@[simp] theorem emit_out (o : Out) : (emit s o).out = o :: s.out := rfl
@[simp] theorem emit_pending (o : Out) : (emit s o).pending = s.pending := rfl

@[simp] theorem drawDword_ftime : ((drawDword s).2).ftime = s.ftime := rfl
@[simp] theorem drawDword_freeCtr : ((drawDword s).2).freeCtr = s.freeCtr + 1 := rfl
@[simp] theorem drawDword_memEpoch : ((drawDword s).2).memEpoch = s.memEpoch := rfl
@[simp] theorem drawDword_regs : ((drawDword s).2).regs = s.regs := rfl
@[simp] theorem drawDword_mem : ((drawDword s).2).mem = s.mem := rfl
@[simp] theorem drawDword_ridge : ((drawDword s).2).ridge = s.ridge := rfl
@[simp] theorem drawDword_chain : ((drawDword s).2).chain = s.chain := rfl
@[simp] theorem drawDword_console : ((drawDword s).2).console = s.console := rfl
@[simp] theorem drawDword_accs : ((drawDword s).2).accs = s.accs := rfl
@[simp] theorem drawDword_thatch : ((drawDword s).2).thatch = s.thatch := rfl
@[simp] theorem drawDword_rafters : ((drawDword s).2).rafters = s.rafters := rfl
@[simp] theorem drawDword_host : ((drawDword s).2).host = s.host := rfl
@[simp] theorem drawDword_rings : ((drawDword s).2).rings = s.rings := rfl
@[simp] theorem drawDword_truss : ((drawDword s).2).truss = s.truss := rfl
@[simp] theorem drawDword_xpt : ((drawDword s).2).xpt = s.xpt := rfl
@[simp] theorem drawDword_nawyn : ((drawDword s).2).nawyn = s.nawyn := rfl
@[simp] theorem drawDword_loft : ((drawDword s).2).loft = s.loft := rfl
@[simp] theorem drawDword_ul : ((drawDword s).2).ul = s.ul := rfl
@[simp] theorem drawDword_stor : ((drawDword s).2).stor = s.stor := rfl
@[simp] theorem drawDword_gut : ((drawDword s).2).gut = s.gut := rfl
@[simp] theorem drawDword_out : ((drawDword s).2).out = s.out := rfl
@[simp] theorem drawDword_pending : ((drawDword s).2).pending = s.pending := rfl

@[simp] theorem drawBit_ftime : ((drawBit s).2).ftime = s.ftime := rfl
@[simp] theorem drawBit_freeCtr : ((drawBit s).2).freeCtr = s.freeCtr + 1 := rfl
@[simp] theorem drawBit_memEpoch : ((drawBit s).2).memEpoch = s.memEpoch := rfl
@[simp] theorem drawBit_regs : ((drawBit s).2).regs = s.regs := rfl
@[simp] theorem drawBit_mem : ((drawBit s).2).mem = s.mem := rfl
@[simp] theorem drawBit_ridge : ((drawBit s).2).ridge = s.ridge := rfl
@[simp] theorem drawBit_chain : ((drawBit s).2).chain = s.chain := rfl
@[simp] theorem drawBit_console : ((drawBit s).2).console = s.console := rfl
@[simp] theorem drawBit_accs : ((drawBit s).2).accs = s.accs := rfl
@[simp] theorem drawBit_thatch : ((drawBit s).2).thatch = s.thatch := rfl
@[simp] theorem drawBit_rafters : ((drawBit s).2).rafters = s.rafters := rfl
@[simp] theorem drawBit_host : ((drawBit s).2).host = s.host := rfl
@[simp] theorem drawBit_rings : ((drawBit s).2).rings = s.rings := rfl
@[simp] theorem drawBit_truss : ((drawBit s).2).truss = s.truss := rfl
@[simp] theorem drawBit_xpt : ((drawBit s).2).xpt = s.xpt := rfl
@[simp] theorem drawBit_nawyn : ((drawBit s).2).nawyn = s.nawyn := rfl
@[simp] theorem drawBit_loft : ((drawBit s).2).loft = s.loft := rfl
@[simp] theorem drawBit_ul : ((drawBit s).2).ul = s.ul := rfl
@[simp] theorem drawBit_stor : ((drawBit s).2).stor = s.stor := rfl
@[simp] theorem drawBit_gut : ((drawBit s).2).gut = s.gut := rfl
@[simp] theorem drawBit_out : ((drawBit s).2).out = s.out := rfl
@[simp] theorem drawBit_pending : ((drawBit s).2).pending = s.pending := rfl

@[simp] theorem writeByte_ftime (a : Nat) (b : Byte) : (writeByte s a b).ftime = s.ftime := rfl
@[simp] theorem writeByte_freeCtr (a : Nat) (b : Byte) : (writeByte s a b).freeCtr = s.freeCtr := rfl
@[simp] theorem writeByte_memEpoch (a : Nat) (b : Byte) : (writeByte s a b).memEpoch = s.memEpoch := rfl
@[simp] theorem writeByte_regs (a : Nat) (b : Byte) : (writeByte s a b).regs = s.regs := rfl
@[simp] theorem writeByte_mem (a : Nat) (b : Byte) : (writeByte s a b).mem = Tab.put s.mem a b := rfl
@[simp] theorem writeByte_ridge (a : Nat) (b : Byte) : (writeByte s a b).ridge = s.ridge := rfl
@[simp] theorem writeByte_chain (a : Nat) (b : Byte) : (writeByte s a b).chain = s.chain := rfl
@[simp] theorem writeByte_console (a : Nat) (b : Byte) : (writeByte s a b).console = s.console := rfl
@[simp] theorem writeByte_accs (a : Nat) (b : Byte) : (writeByte s a b).accs = s.accs := rfl
@[simp] theorem writeByte_thatch (a : Nat) (b : Byte) : (writeByte s a b).thatch = s.thatch := rfl
@[simp] theorem writeByte_rafters (a : Nat) (b : Byte) : (writeByte s a b).rafters = s.rafters := rfl
@[simp] theorem writeByte_host (a : Nat) (b : Byte) : (writeByte s a b).host = s.host := rfl
@[simp] theorem writeByte_rings (a : Nat) (b : Byte) : (writeByte s a b).rings = s.rings := rfl
@[simp] theorem writeByte_truss (a : Nat) (b : Byte) : (writeByte s a b).truss = s.truss := rfl
@[simp] theorem writeByte_xpt (a : Nat) (b : Byte) : (writeByte s a b).xpt = s.xpt := rfl
@[simp] theorem writeByte_nawyn (a : Nat) (b : Byte) : (writeByte s a b).nawyn = s.nawyn := rfl
@[simp] theorem writeByte_loft (a : Nat) (b : Byte) : (writeByte s a b).loft = s.loft := rfl
@[simp] theorem writeByte_ul (a : Nat) (b : Byte) : (writeByte s a b).ul = s.ul := rfl
@[simp] theorem writeByte_stor (a : Nat) (b : Byte) : (writeByte s a b).stor = s.stor := rfl
@[simp] theorem writeByte_gut (a : Nat) (b : Byte) : (writeByte s a b).gut = s.gut := rfl
@[simp] theorem writeByte_out (a : Nat) (b : Byte) : (writeByte s a b).out = s.out := rfl
@[simp] theorem writeByte_pending (a : Nat) (b : Byte) : (writeByte s a b).pending = s.pending := rfl

@[simp] theorem loseMem_ftime (lost : Nat → Bool) : (loseMem s lost).ftime = s.ftime := rfl
@[simp] theorem loseMem_freeCtr (lost : Nat → Bool) : (loseMem s lost).freeCtr = s.freeCtr := rfl
@[simp] theorem loseMem_memEpoch (lost : Nat → Bool) : (loseMem s lost).memEpoch = s.memEpoch + 1 := rfl
@[simp] theorem loseMem_regs (lost : Nat → Bool) : (loseMem s lost).regs = s.regs := rfl
@[simp] theorem loseMem_mem (lost : Nat → Bool) : (loseMem s lost).mem = Tab.keep (fun a => !lost a) s.mem := rfl
@[simp] theorem loseMem_ridge (lost : Nat → Bool) : (loseMem s lost).ridge = s.ridge := rfl
@[simp] theorem loseMem_chain (lost : Nat → Bool) : (loseMem s lost).chain = s.chain := rfl
@[simp] theorem loseMem_console (lost : Nat → Bool) : (loseMem s lost).console = s.console := rfl
@[simp] theorem loseMem_accs (lost : Nat → Bool) : (loseMem s lost).accs = s.accs := rfl
@[simp] theorem loseMem_thatch (lost : Nat → Bool) : (loseMem s lost).thatch = s.thatch := rfl
@[simp] theorem loseMem_rafters (lost : Nat → Bool) : (loseMem s lost).rafters = s.rafters := rfl
@[simp] theorem loseMem_host (lost : Nat → Bool) : (loseMem s lost).host = s.host := rfl
@[simp] theorem loseMem_rings (lost : Nat → Bool) : (loseMem s lost).rings = s.rings := rfl
@[simp] theorem loseMem_truss (lost : Nat → Bool) : (loseMem s lost).truss = s.truss := rfl
@[simp] theorem loseMem_xpt (lost : Nat → Bool) : (loseMem s lost).xpt = s.xpt := rfl
@[simp] theorem loseMem_nawyn (lost : Nat → Bool) : (loseMem s lost).nawyn = s.nawyn := rfl
@[simp] theorem loseMem_loft (lost : Nat → Bool) : (loseMem s lost).loft = s.loft := rfl
@[simp] theorem loseMem_ul (lost : Nat → Bool) : (loseMem s lost).ul = s.ul := rfl
@[simp] theorem loseMem_stor (lost : Nat → Bool) : (loseMem s lost).stor = s.stor := rfl
@[simp] theorem loseMem_gut (lost : Nat → Bool) : (loseMem s lost).gut = s.gut := rfl
@[simp] theorem loseMem_out (lost : Nat → Bool) : (loseMem s lost).out = s.out := rfl
@[simp] theorem loseMem_pending (lost : Nat → Bool) : (loseMem s lost).pending = s.pending := rfl

@[simp] theorem setBay_ftime (b : Nat) (x : Bay) : (setBay s b x).ftime = s.ftime := rfl
@[simp] theorem setBay_freeCtr (b : Nat) (x : Bay) : (setBay s b x).freeCtr = s.freeCtr := rfl
@[simp] theorem setBay_memEpoch (b : Nat) (x : Bay) : (setBay s b x).memEpoch = s.memEpoch := rfl
@[simp] theorem setBay_regs (b : Nat) (x : Bay) : (setBay s b x).regs = s.regs := rfl
@[simp] theorem setBay_mem (b : Nat) (x : Bay) : (setBay s b x).mem = s.mem := rfl
@[simp] theorem setBay_ridge (b : Nat) (x : Bay) : (setBay s b x).ridge = s.ridge := rfl
@[simp] theorem setBay_chain (b : Nat) (x : Bay) : (setBay s b x).chain = s.chain := rfl
@[simp] theorem setBay_console (b : Nat) (x : Bay) : (setBay s b x).console = s.console := rfl
@[simp] theorem setBay_accs (b : Nat) (x : Bay) : (setBay s b x).accs = s.accs := rfl
@[simp] theorem setBay_rafters (b : Nat) (x : Bay) : (setBay s b x).rafters = s.rafters := rfl
@[simp] theorem setBay_host (b : Nat) (x : Bay) : (setBay s b x).host = s.host := rfl
@[simp] theorem setBay_rings (b : Nat) (x : Bay) : (setBay s b x).rings = s.rings := rfl
@[simp] theorem setBay_truss (b : Nat) (x : Bay) : (setBay s b x).truss = s.truss := rfl
@[simp] theorem setBay_xpt (b : Nat) (x : Bay) : (setBay s b x).xpt = s.xpt := rfl
@[simp] theorem setBay_nawyn (b : Nat) (x : Bay) : (setBay s b x).nawyn = s.nawyn := rfl
@[simp] theorem setBay_loft (b : Nat) (x : Bay) : (setBay s b x).loft = s.loft := rfl
@[simp] theorem setBay_ul (b : Nat) (x : Bay) : (setBay s b x).ul = s.ul := rfl
@[simp] theorem setBay_stor (b : Nat) (x : Bay) : (setBay s b x).stor = s.stor := rfl
@[simp] theorem setBay_gut (b : Nat) (x : Bay) : (setBay s b x).gut = s.gut := rfl
@[simp] theorem setBay_out (b : Nat) (x : Bay) : (setBay s b x).out = s.out := rfl
@[simp] theorem setBay_pending (b : Nat) (x : Bay) : (setBay s b x).pending = s.pending := rfl

@[simp] theorem setThread_ftime (t : Nat) (x : Thread) : (setThread s t x).ftime = s.ftime := rfl
@[simp] theorem setThread_freeCtr (t : Nat) (x : Thread) : (setThread s t x).freeCtr = s.freeCtr := rfl
@[simp] theorem setThread_memEpoch (t : Nat) (x : Thread) : (setThread s t x).memEpoch = s.memEpoch := rfl
@[simp] theorem setThread_regs (t : Nat) (x : Thread) : (setThread s t x).regs = s.regs := rfl
@[simp] theorem setThread_mem (t : Nat) (x : Thread) : (setThread s t x).mem = s.mem := rfl
@[simp] theorem setThread_ridge (t : Nat) (x : Thread) : (setThread s t x).ridge = s.ridge := rfl
@[simp] theorem setThread_chain (t : Nat) (x : Thread) : (setThread s t x).chain = s.chain := rfl
@[simp] theorem setThread_console (t : Nat) (x : Thread) : (setThread s t x).console = s.console := rfl
@[simp] theorem setThread_accs (t : Nat) (x : Thread) : (setThread s t x).accs = s.accs := rfl
@[simp] theorem setThread_thatch (t : Nat) (x : Thread) : (setThread s t x).thatch = s.thatch := rfl
@[simp] theorem setThread_host (t : Nat) (x : Thread) : (setThread s t x).host = s.host := rfl
@[simp] theorem setThread_rings (t : Nat) (x : Thread) : (setThread s t x).rings = s.rings := rfl
@[simp] theorem setThread_truss (t : Nat) (x : Thread) : (setThread s t x).truss = s.truss := rfl
@[simp] theorem setThread_xpt (t : Nat) (x : Thread) : (setThread s t x).xpt = s.xpt := rfl
@[simp] theorem setThread_nawyn (t : Nat) (x : Thread) : (setThread s t x).nawyn = s.nawyn := rfl
@[simp] theorem setThread_loft (t : Nat) (x : Thread) : (setThread s t x).loft = s.loft := rfl
@[simp] theorem setThread_ul (t : Nat) (x : Thread) : (setThread s t x).ul = s.ul := rfl
@[simp] theorem setThread_stor (t : Nat) (x : Thread) : (setThread s t x).stor = s.stor := rfl
@[simp] theorem setThread_gut (t : Nat) (x : Thread) : (setThread s t x).gut = s.gut := rfl
@[simp] theorem setThread_out (t : Nat) (x : Thread) : (setThread s t x).out = s.out := rfl
@[simp] theorem setThread_pending (t : Nat) (x : Thread) : (setThread s t x).pending = s.pending := rfl

@[simp] theorem reach_ftime (t : Nat) : (reach s t).ftime = Nat.max s.ftime t := rfl
@[simp] theorem reach_freeCtr (t : Nat) : (reach s t).freeCtr = s.freeCtr := rfl
@[simp] theorem reach_memEpoch (t : Nat) : (reach s t).memEpoch = s.memEpoch := rfl
@[simp] theorem reach_regs (t : Nat) : (reach s t).regs = s.regs := rfl
@[simp] theorem reach_mem (t : Nat) : (reach s t).mem = s.mem := rfl
@[simp] theorem reach_ridge (t : Nat) : (reach s t).ridge = s.ridge := rfl
@[simp] theorem reach_chain (t : Nat) : (reach s t).chain = s.chain := rfl
@[simp] theorem reach_console (t : Nat) : (reach s t).console = s.console := rfl
@[simp] theorem reach_accs (t : Nat) : (reach s t).accs = s.accs := rfl
@[simp] theorem reach_thatch (t : Nat) : (reach s t).thatch = s.thatch := rfl
@[simp] theorem reach_rafters (t : Nat) : (reach s t).rafters = s.rafters := rfl
@[simp] theorem reach_host (t : Nat) : (reach s t).host = s.host := rfl
@[simp] theorem reach_rings (t : Nat) : (reach s t).rings = s.rings := rfl
@[simp] theorem reach_truss (t : Nat) : (reach s t).truss = s.truss := rfl
@[simp] theorem reach_xpt (t : Nat) : (reach s t).xpt = s.xpt := rfl
@[simp] theorem reach_nawyn (t : Nat) : (reach s t).nawyn = s.nawyn := rfl
@[simp] theorem reach_loft (t : Nat) : (reach s t).loft = s.loft := rfl
@[simp] theorem reach_ul (t : Nat) : (reach s t).ul = s.ul := rfl
@[simp] theorem reach_stor (t : Nat) : (reach s t).stor = s.stor := rfl
@[simp] theorem reach_gut (t : Nat) : (reach s t).gut = s.gut := rfl
@[simp] theorem reach_out (t : Nat) : (reach s t).out = s.out := rfl
@[simp] theorem reach_pending (t : Nat) : (reach s t).pending = s.pending := rfl

@[simp] theorem setDom_ftime (d : Nat) (x : Dom) : (setDom s d x).ftime = s.ftime := rfl
@[simp] theorem setDom_freeCtr (d : Nat) (x : Dom) : (setDom s d x).freeCtr = s.freeCtr := rfl
@[simp] theorem setDom_memEpoch (d : Nat) (x : Dom) : (setDom s d x).memEpoch = s.memEpoch := rfl
@[simp] theorem setDom_regs (d : Nat) (x : Dom) : (setDom s d x).regs = s.regs := rfl
@[simp] theorem setDom_mem (d : Nat) (x : Dom) : (setDom s d x).mem = s.mem := rfl
@[simp] theorem setDom_chain (d : Nat) (x : Dom) : (setDom s d x).chain = s.chain := rfl
@[simp] theorem setDom_console (d : Nat) (x : Dom) : (setDom s d x).console = s.console := rfl
@[simp] theorem setDom_accs (d : Nat) (x : Dom) : (setDom s d x).accs = s.accs := rfl
@[simp] theorem setDom_thatch (d : Nat) (x : Dom) : (setDom s d x).thatch = s.thatch := rfl
@[simp] theorem setDom_rafters (d : Nat) (x : Dom) : (setDom s d x).rafters = s.rafters := rfl
@[simp] theorem setDom_host (d : Nat) (x : Dom) : (setDom s d x).host = s.host := rfl
@[simp] theorem setDom_rings (d : Nat) (x : Dom) : (setDom s d x).rings = s.rings := rfl
@[simp] theorem setDom_truss (d : Nat) (x : Dom) : (setDom s d x).truss = s.truss := rfl
@[simp] theorem setDom_xpt (d : Nat) (x : Dom) : (setDom s d x).xpt = s.xpt := rfl
@[simp] theorem setDom_nawyn (d : Nat) (x : Dom) : (setDom s d x).nawyn = s.nawyn := rfl
@[simp] theorem setDom_loft (d : Nat) (x : Dom) : (setDom s d x).loft = s.loft := rfl
@[simp] theorem setDom_ul (d : Nat) (x : Dom) : (setDom s d x).ul = s.ul := rfl
@[simp] theorem setDom_stor (d : Nat) (x : Dom) : (setDom s d x).stor = s.stor := rfl
@[simp] theorem setDom_gut (d : Nat) (x : Dom) : (setDom s d x).gut = s.gut := rfl
@[simp] theorem setDom_out (d : Nat) (x : Dom) : (setDom s d x).out = s.out := rfl
@[simp] theorem setDom_pending (d : Nat) (x : Dom) : (setDom s d x).pending = s.pending := rfl

@[simp] theorem setFn_ftime (ep fn : Nat) (x : Fn) : (setFn s ep fn x).ftime = s.ftime := rfl
@[simp] theorem setFn_freeCtr (ep fn : Nat) (x : Fn) : (setFn s ep fn x).freeCtr = s.freeCtr := rfl
@[simp] theorem setFn_memEpoch (ep fn : Nat) (x : Fn) : (setFn s ep fn x).memEpoch = s.memEpoch := rfl
@[simp] theorem setFn_regs (ep fn : Nat) (x : Fn) : (setFn s ep fn x).regs = s.regs := rfl
@[simp] theorem setFn_mem (ep fn : Nat) (x : Fn) : (setFn s ep fn x).mem = s.mem := rfl
@[simp] theorem setFn_ridge (ep fn : Nat) (x : Fn) : (setFn s ep fn x).ridge = s.ridge := rfl
@[simp] theorem setFn_chain (ep fn : Nat) (x : Fn) : (setFn s ep fn x).chain = s.chain := rfl
@[simp] theorem setFn_console (ep fn : Nat) (x : Fn) : (setFn s ep fn x).console = s.console := rfl
@[simp] theorem setFn_accs (ep fn : Nat) (x : Fn) : (setFn s ep fn x).accs = s.accs := rfl
@[simp] theorem setFn_thatch (ep fn : Nat) (x : Fn) : (setFn s ep fn x).thatch = s.thatch := rfl
@[simp] theorem setFn_rafters (ep fn : Nat) (x : Fn) : (setFn s ep fn x).rafters = s.rafters := rfl
@[simp] theorem setFn_rings (ep fn : Nat) (x : Fn) : (setFn s ep fn x).rings = s.rings := rfl
@[simp] theorem setFn_truss (ep fn : Nat) (x : Fn) : (setFn s ep fn x).truss = s.truss := rfl
@[simp] theorem setFn_xpt (ep fn : Nat) (x : Fn) : (setFn s ep fn x).xpt = s.xpt := rfl
@[simp] theorem setFn_nawyn (ep fn : Nat) (x : Fn) : (setFn s ep fn x).nawyn = s.nawyn := rfl
@[simp] theorem setFn_loft (ep fn : Nat) (x : Fn) : (setFn s ep fn x).loft = s.loft := rfl
@[simp] theorem setFn_ul (ep fn : Nat) (x : Fn) : (setFn s ep fn x).ul = s.ul := rfl
@[simp] theorem setFn_stor (ep fn : Nat) (x : Fn) : (setFn s ep fn x).stor = s.stor := rfl
@[simp] theorem setFn_gut (ep fn : Nat) (x : Fn) : (setFn s ep fn x).gut = s.gut := rfl
@[simp] theorem setFn_out (ep fn : Nat) (x : Fn) : (setFn s ep fn x).out = s.out := rfl
@[simp] theorem setFn_pending (ep fn : Nat) (x : Fn) : (setFn s ep fn x).pending = s.pending := rfl

@[simp] theorem setEp_ftime (ep : Nat) (x : Ep) : (setEp s ep x).ftime = s.ftime := rfl
@[simp] theorem setEp_freeCtr (ep : Nat) (x : Ep) : (setEp s ep x).freeCtr = s.freeCtr := rfl
@[simp] theorem setEp_memEpoch (ep : Nat) (x : Ep) : (setEp s ep x).memEpoch = s.memEpoch := rfl
@[simp] theorem setEp_regs (ep : Nat) (x : Ep) : (setEp s ep x).regs = s.regs := rfl
@[simp] theorem setEp_mem (ep : Nat) (x : Ep) : (setEp s ep x).mem = s.mem := rfl
@[simp] theorem setEp_ridge (ep : Nat) (x : Ep) : (setEp s ep x).ridge = s.ridge := rfl
@[simp] theorem setEp_chain (ep : Nat) (x : Ep) : (setEp s ep x).chain = s.chain := rfl
@[simp] theorem setEp_console (ep : Nat) (x : Ep) : (setEp s ep x).console = s.console := rfl
@[simp] theorem setEp_accs (ep : Nat) (x : Ep) : (setEp s ep x).accs = s.accs := rfl
@[simp] theorem setEp_thatch (ep : Nat) (x : Ep) : (setEp s ep x).thatch = s.thatch := rfl
@[simp] theorem setEp_rafters (ep : Nat) (x : Ep) : (setEp s ep x).rafters = s.rafters := rfl
@[simp] theorem setEp_rings (ep : Nat) (x : Ep) : (setEp s ep x).rings = s.rings := rfl
@[simp] theorem setEp_truss (ep : Nat) (x : Ep) : (setEp s ep x).truss = s.truss := rfl
@[simp] theorem setEp_xpt (ep : Nat) (x : Ep) : (setEp s ep x).xpt = s.xpt := rfl
@[simp] theorem setEp_nawyn (ep : Nat) (x : Ep) : (setEp s ep x).nawyn = s.nawyn := rfl
@[simp] theorem setEp_loft (ep : Nat) (x : Ep) : (setEp s ep x).loft = s.loft := rfl
@[simp] theorem setEp_ul (ep : Nat) (x : Ep) : (setEp s ep x).ul = s.ul := rfl
@[simp] theorem setEp_stor (ep : Nat) (x : Ep) : (setEp s ep x).stor = s.stor := rfl
@[simp] theorem setEp_gut (ep : Nat) (x : Ep) : (setEp s ep x).gut = s.gut := rfl
@[simp] theorem setEp_out (ep : Nat) (x : Ep) : (setEp s ep x).out = s.out := rfl
@[simp] theorem setEp_pending (ep : Nat) (x : Ep) : (setEp s ep x).pending = s.pending := rfl

end Sys2Proof.Machine
end

