-- ==== Sys2Proof/Laws/Tab.lean ====
section
/-! SUPPORT. Sparse tables: a read after a write, and that every operation keeps the keys rising. -/

namespace Sys2Proof.Machine

variable {α : Type}

theorem Tab.lookup_put (t : Tab α) (n m : Nat) (v : α) : Tab.lookup (Tab.put t n v) m = if m = n then some v else Tab.lookup t m := by
  induction t with
  | nil => simp [Tab.put, Tab.lookup]
  | cons e t ih =>
    obtain ⟨k, w⟩ := e
    by_cases h1 : n < k
    · simp [Tab.put, h1, Tab.lookup]
    · by_cases h2 : n = k
      · subst h2
        by_cases h3 : m = n <;> simp [Tab.put, Tab.lookup, h3]
      · by_cases h3 : m = k
        · have : ¬ k = n := fun h => h2 h.symm
          simp [Tab.put, h1, h2, Tab.lookup, h3, this]
        · simp [Tab.put, h1, h2, Tab.lookup, h3, ih]

theorem Tab.lookup_del (t : Tab α) (n m : Nat) : Tab.lookup (Tab.del t n) m = if m = n then none else Tab.lookup t m := by
  induction t with
  | nil => simp [Tab.del, Tab.lookup]
  | cons e t ih =>
    obtain ⟨k, w⟩ := e
    by_cases h2 : n = k
    · subst h2
      by_cases h3 : m = n
      · subst h3; simpa [Tab.del] using ih
      · simp [Tab.del, Tab.lookup, ih, h3]
    · by_cases h3 : m = k
      · have : ¬ k = n := fun h => h2 h.symm
        simp [Tab.del, h2, Tab.lookup, h3, this]
      · simp [Tab.del, h2, Tab.lookup, h3, ih]

theorem Tab.get_put (d : α) (t : Tab α) (n m : Nat) (v : α) : Tab.get d (Tab.put t n v) m = if m = n then v else Tab.get d t m := by
  simp only [Tab.get, Tab.lookup_put]; split <;> rfl

theorem Tab.get_del (d : α) (t : Tab α) (n m : Nat) : Tab.get d (Tab.del t n) m = if m = n then d else Tab.get d t m := by
  simp only [Tab.get, Tab.lookup_del]; split <;> rfl

theorem Tab.get_store [DecidableEq α] (d : α) (t : Tab α) (n m : Nat) (v : α) :
    Tab.get d (Tab.store d t n v) m = if m = n then v else Tab.get d t m := by
  by_cases h : v = d
  · simp [Tab.store, h, Tab.get_del]
  · simp [Tab.store, h, Tab.get_put]

@[simp] theorem Tab.get_store_same [DecidableEq α] (d : α) (t : Tab α) (n : Nat) (v : α) : Tab.get d (Tab.store d t n v) n = v := by
  simp [Tab.get_store]

theorem Tab.get_store_ne [DecidableEq α] (d : α) (t : Tab α) {n m : Nat} (v : α) (h : m ≠ n) :
    Tab.get d (Tab.store d t n v) m = Tab.get d t m := by
  simp [Tab.get_store, h]

/-- A lookup under one key ignores a write to another, whatever the table's own default. -/
theorem Tab.lookup_store_ne [DecidableEq α] (d : α) (t : Tab α) {n m : Nat} (v : α) (h : m ≠ n) :
    Tab.lookup (Tab.store d t n v) m = Tab.lookup t m := by
  by_cases hv : v = d
  · simp [Tab.store, hv, Tab.lookup_del, h]
  · simp [Tab.store, hv, Tab.lookup_put, h]

theorem Tab.put_put (t : Tab α) (n : Nat) (v w : α) : Tab.put (Tab.put t n v) n w = Tab.put t n w := by
  induction t with
  | nil => simp [Tab.put]
  | cons e t ih =>
    obtain ⟨k, x⟩ := e
    by_cases h1 : n < k
    · simp [Tab.put, h1]
    · by_cases h2 : n = k
      · subst h2; simp [Tab.put]
      · simp [Tab.put, h1, h2, ih]

/-! ### Rising keys -/

/-- Every key of a table is above a bound. -/
def Tab.above (n : Nat) (t : Tab α) : Prop := ∀ e ∈ t, n < e.1

theorem Tab.rising_cons (k : Nat) (w : α) (t : Tab α) : Tab.rising ((k, w) :: t) = true ↔ Tab.above k t ∧ Tab.rising t = true := by
  induction t generalizing k w with
  | nil => simp [Tab.rising, Tab.above]
  | cons e t ih =>
    obtain ⟨k', w'⟩ := e
    simp only [Tab.rising, Bool.and_eq_true, decide_eq_true_eq, Tab.above, List.mem_cons, forall_eq_or_imp]
    constructor
    · rintro ⟨h, hr⟩
      refine ⟨⟨h, fun e he => ?_⟩, hr⟩
      exact lt_trans h (((ih k' w').1 hr).1 e he)
    · rintro ⟨⟨h, _⟩, hr⟩
      exact ⟨h, hr⟩

theorem Tab.above_put (b n : Nat) (v : α) (t : Tab α) (ht : Tab.above b t) (h : b < n) : Tab.above b (Tab.put t n v) := by
  induction t with
  | nil => intro e he; simp [Tab.put] at he; simp [he, h]
  | cons e t ih =>
    obtain ⟨k, w⟩ := e
    have hk : b < k := ht (k, w) (by simp)
    have ht' : Tab.above b t := fun e he => ht e (by simp [he])
    by_cases h1 : n < k
    · intro e he
      simp [Tab.put, h1] at he
      rcases he with rfl | rfl | he
      · exact h
      · exact hk
      · exact ht' e he
    · by_cases h2 : n = k
      · intro e he
        simp [Tab.put, h2] at he
        rcases he with rfl | he
        · exact hk
        · exact ht' e he
      · intro e he
        simp [Tab.put, h1, h2] at he
        rcases he with rfl | he
        · exact hk
        · exact ih ht' e he

theorem Tab.rising_put (t : Tab α) (n : Nat) (v : α) (h : Tab.rising t = true) : Tab.rising (Tab.put t n v) = true := by
  induction t with
  | nil => rfl
  | cons e t ih =>
    obtain ⟨k, w⟩ := e
    obtain ⟨ha, hr⟩ := (Tab.rising_cons k w t).1 h
    by_cases h1 : n < k
    · simp only [Tab.put, h1, if_true]
      refine (Tab.rising_cons _ _ _).2 ⟨fun e he => ?_, h⟩
      rcases List.mem_cons.1 he with rfl | he
      · exact h1
      · exact lt_trans h1 (ha e he)
    · by_cases h2 : n = k
      · subst h2
        simp only [Tab.put, lt_irrefl, if_false, if_true]
        exact (Tab.rising_cons _ _ _).2 ⟨ha, hr⟩
      · simp only [Tab.put, h1, h2, if_false]
        exact (Tab.rising_cons _ _ _).2 ⟨Tab.above_put k n v t ha (by omega), ih hr⟩

theorem Tab.rising_filter (t : Tab α) (p : Nat × α → Bool) (h : Tab.rising t = true) : Tab.rising (t.filter p) = true := by
  induction t with
  | nil => rfl
  | cons e t ih =>
    obtain ⟨k, w⟩ := e
    obtain ⟨ha, hr⟩ := (Tab.rising_cons k w t).1 h
    by_cases hp : p (k, w)
    · simp only [List.filter, hp]
      exact (Tab.rising_cons _ _ _).2 ⟨fun e he => ha e (List.mem_filter.1 he).1, ih hr⟩
    · simp only [List.filter, hp]
      exact ih hr

theorem Tab.rising_keep (t : Tab α) (p : Nat → Bool) (h : Tab.rising t = true) : Tab.rising (Tab.keep p t) = true :=
  Tab.rising_filter t _ h

theorem Tab.del_eq_filter (t : Tab α) (n : Nat) : Tab.del t n = t.filter (fun e => decide (n ≠ e.1)) := by
  induction t with
  | nil => rfl
  | cons e t ih =>
    obtain ⟨k, w⟩ := e
    by_cases h : n = k
    · subst h; simpa [Tab.del] using ih
    · simp [Tab.del, h, ih]

theorem Tab.rising_del (t : Tab α) (n : Nat) (h : Tab.rising t = true) : Tab.rising (Tab.del t n) = true := by
  rw [Tab.del_eq_filter]; exact Tab.rising_filter t _ h

theorem Tab.rising_store [DecidableEq α] (d : α) (t : Tab α) (n : Nat) (v : α) (h : Tab.rising t = true) :
    Tab.rising (Tab.store d t n v) = true := by
  unfold Tab.store; split
  · exact Tab.rising_del t n h
  · exact Tab.rising_put t n v h

theorem Tab.lookup_keep (t : Tab α) (p : Nat → Bool) (n : Nat) : Tab.lookup (Tab.keep p t) n = if p n then Tab.lookup t n else none := by
  induction t with
  | nil => simp [Tab.keep, Tab.lookup]
  | cons e t ih =>
    obtain ⟨k, w⟩ := e
    unfold Tab.keep at ih ⊢
    by_cases hp : p k
    · by_cases h : n = k
      · subst h; simp [hp, Tab.lookup]
      · simp [hp, Tab.lookup, h, ih]
    · by_cases h : n = k
      · subst h; simp [hp, ih]
      · simp [hp, Tab.lookup, h, ih]

end Sys2Proof.Machine
end

