-- ==== Sys2Proof/Laws/Memory.lean ====
section
/-! SUPPORT. Memory: a read after a write, what a write leaves alone, and that every memory operation keeps the canonical form. -/

namespace Sys2Proof.Machine

/-! ### Bytes of numbers -/

@[simp] theorem leBytes_length (n v : Nat) : (leBytes n v).length = n := by
  induction n generalizing v with
  | zero => rfl
  | succ n ih => simp [leBytes, ih]

theorem leNat_leBytes (n v : Nat) : leNat (leBytes n v) = v % 2 ^ (8 * n) := by
  induction n generalizing v with
  | zero => simp [leBytes, leNat, Nat.mod_one]
  | succ n ih =>
    simp only [leBytes, leNat, ih, BitVec.toNat_ofNat]
    have e : 2 ^ (8 * (n + 1)) = 256 * 2 ^ (8 * n) := by rw [show 8 * (n + 1) = 8 + 8 * n by ring, pow_add]; norm_num
    rw [e, Nat.mod_mul]

/-! ### Read after write -/

theorem readByte_writeByte (s : State) (a b : Nat) (v : Byte) : readByte (writeByte s a v) b = if b = a then v else readByte s b := by
  simp only [readByte, writeByte_mem, writeByte_memEpoch, Tab.get_put]

@[simp] theorem readByte_writeByte_same (s : State) (a : Nat) (v : Byte) : readByte (writeByte s a v) a = v := by simp [readByte_writeByte]

/-- A store leaves every byte outside it alone. -/
theorem readByte_writeBytes_outside (s : State) (a b : Nat) (bs : List Byte) (h : b < a ∨ a + bs.length ≤ b) :
    readByte (writeBytes s a bs) b = readByte s b := by
  induction bs generalizing s a with
  | nil => rfl
  | cons v bs ih =>
    simp only [writeBytes, List.length_cons] at h ⊢
    rw [ih _ _ (by omega), readByte_writeByte, if_neg (by omega)]

/-- A byte inside a store reads as what was stored. -/
theorem readByte_writeBytes_inside (s : State) (a i : Nat) (bs : List Byte) (h : i < bs.length) :
    readByte (writeBytes s a bs) (a + i) = bs[i] := by
  induction bs generalizing s a i with
  | nil => simp at h
  | cons v bs ih =>
    cases i with
    | zero => simp only [writeBytes, Nat.add_zero, List.getElem_cons_zero]
              rw [readByte_writeBytes_outside _ _ _ _ (by omega)]; simp
    | succ i =>
      simp only [writeBytes, List.getElem_cons_succ]
      have := ih (writeByte s a v) (a + 1) i (by simpa using h)
      rw [← this]; congr 1; omega

theorem readBytes_writeBytes (s : State) (a : Nat) (bs : List Byte) : readBytes (writeBytes s a bs) a bs.length = bs := by
  apply List.ext_getElem
  · simp [readBytes]
  · intro i h1 h2
    simp only [readBytes, List.getElem_map, List.getElem_range]
    exact readByte_writeBytes_inside s a i bs h2

/-- A load of what was stored gives the value stored, cut to its width. -/
theorem readLe_writeLe (s : State) (a n v : Nat) : readLe (writeLe s a n v) a n = v % 2 ^ (8 * n) := by
  unfold readLe writeLe
  have := readBytes_writeBytes s a (leBytes n v)
  rw [leBytes_length] at this
  rw [this, leNat_leBytes]

/-! ### The canonical form -/

theorem writeByte_wf (s : State) (a : Nat) (b : Byte) (h : Memory.wf s.mem) : Memory.wf (writeByte s a b).mem := Tab.rising_put _ _ _ h

theorem writeBytes_wf (s : State) (a : Nat) (bs : List Byte) (h : Memory.wf s.mem) : Memory.wf (writeBytes s a bs).mem := by
  induction bs generalizing s a with
  | nil => exact h
  | cons v bs ih => exact ih _ _ (writeByte_wf s a v h)

theorem writeLe_wf (s : State) (a n v : Nat) (h : Memory.wf s.mem) : Memory.wf (writeLe s a n v).mem := writeBytes_wf s a _ h

theorem loseMem_wf (s : State) (lost : Nat → Bool) (h : Memory.wf s.mem) : Memory.wf (loseMem s lost).mem := by
  rw [loseMem_mem]; exact Tab.rising_keep _ _ h

theorem undefRange_wf (s : State) (a n : Nat) (h : Memory.wf s.mem) : Memory.wf (undefRange s a n).mem := by
  unfold undefRange; split
  · exact h
  · exact loseMem_wf s _ h

theorem hostCells_wf (s : State) (h : Memory.wf s.mem) : Memory.wf (hostCells s) := Tab.rising_filter _ _ h

theorem reset_wf : Memory.wf State.reset.mem := rfl

/-- A store changes nothing but memory. -/
theorem writeBytes_only_mem (s : State) (a : Nat) (bs : List Byte) : ∃ m, writeBytes s a bs = { s with mem := m } := by
  induction bs generalizing s a with
  | nil => exact ⟨s.mem, rfl⟩
  | cons v bs ih =>
    obtain ⟨m, hm⟩ := ih (writeByte s a v) (a + 1)
    exact ⟨m, by rw [writeBytes, hm]; rfl⟩

/-- Forgetting contents leaves every byte that was written and is not lost. -/
theorem lookup_loseMem (s : State) (lost : Nat → Bool) (a : Nat) :
    Tab.lookup (loseMem s lost).mem a = if lost a then none else Tab.lookup s.mem a := by
  simp only [loseMem_mem, Tab.lookup_keep]
  cases lost a <;> rfl

end Sys2Proof.Machine
end

