-- ==== Sys2Proof/Laws/Regs.lean ====
section
/-! SUPPORT. Registers and fields: a read after a write (00 R12, R18). -/

namespace Sys2Proof.Machine

theorem Reg.num_lt (r : Reg) : r.num < 512 := by cases r <;> decide

theorem Reg.num_inj {r r' : Reg} (h : r.num = r'.num) : r = r' := by
  have := congrArg Reg.ofNat h
  simpa [Reg.num, Reg.ofNat_ctorIdx] using this

theorem regKey_inj {r r' : Reg} {i i' : Nat} (h : regKey r i = regKey r' i') : r = r' ∧ i = i' := by
  have h1 := r.num_lt
  have h2 := r'.num_lt
  unfold regKey at h
  exact ⟨Reg.num_inj (by omega), by omega⟩

/-- A register reads as what was last written to it, and a write to another leaves it alone. -/
theorem getReg_setReg (s : State) (r r' : Reg) (i i' : Nat) (v : Dword) :
    getReg (setReg s r i v) r' i' = if r' = r ∧ i' = i then v else getReg s r' i' := by
  unfold getReg
  simp only [setReg_regs]
  by_cases h : r' = r ∧ i' = i
  · obtain ⟨rfl, rfl⟩ := h; simp
  · have hk : regKey r' i' ≠ regKey r i := fun e => h (regKey_inj e)
    simp only [h, if_false, Tab.get, Tab.lookup_store_ne _ _ _ hk]

@[simp] theorem getReg_setReg_same (s : State) (r : Reg) (i : Nat) (v : Dword) : getReg (setReg s r i v) r i = v := by
  simp [getReg_setReg]

/-- Whether a field lies within 64 bits. -/
def Fld.fits (f : Fld) : Prop := f.lo ≤ f.hi ∧ f.hi < 64

theorem fieldOf_lt (v hi lo : Nat) : fieldOf v hi lo < 2 ^ (hi - lo + 1) := Nat.mod_lt _ (by positivity)

/-- A number split at a field: what lies above it, the field, what lies below it. -/
theorem split_field (v hi lo : Nat) :
    v = v / 2 ^ lo / 2 ^ (hi - lo + 1) * 2 ^ (hi - lo + 1) * 2 ^ lo + fieldOf v hi lo * 2 ^ lo + v % 2 ^ lo := by
  have h1 := Nat.div_add_mod v (2 ^ lo)
  have h2 := Nat.div_add_mod (v / 2 ^ lo) (2 ^ (hi - lo + 1))
  unfold fieldOf
  calc v = 2 ^ lo * (v / 2 ^ lo) + v % 2 ^ lo := h1.symm
    _ = 2 ^ lo * (2 ^ (hi - lo + 1) * (v / 2 ^ lo / 2 ^ (hi - lo + 1)) + v / 2 ^ lo % 2 ^ (hi - lo + 1)) + v % 2 ^ lo := by rw [h2]
    _ = _ := by ring

theorem withField_eq (v hi lo n : Nat) :
    withField v hi lo n =
      v / 2 ^ lo / 2 ^ (hi - lo + 1) * 2 ^ (hi - lo + 1) * 2 ^ lo + n % 2 ^ (hi - lo + 1) * 2 ^ lo + v % 2 ^ lo := by
  have h := split_field v hi lo
  unfold withField
  generalize n % 2 ^ (hi - lo + 1) * 2 ^ lo = w at *
  generalize v / 2 ^ lo / 2 ^ (hi - lo + 1) * 2 ^ (hi - lo + 1) * 2 ^ lo = a at *
  generalize fieldOf v hi lo * 2 ^ lo = b at *
  omega

@[simp] theorem fieldOf_withField (v hi lo n : Nat) : fieldOf (withField v hi lo n) hi lo = n % 2 ^ (hi - lo + 1) := by
  rw [withField_eq]
  have hp : 0 < 2 ^ lo := by positivity
  have hq : 0 < 2 ^ (hi - lo + 1) := by positivity
  unfold fieldOf
  generalize v / 2 ^ lo / 2 ^ (hi - lo + 1) = a
  have hr : v % 2 ^ lo < 2 ^ lo := Nat.mod_lt _ hp
  generalize v % 2 ^ lo = r at *
  generalize hm : n % 2 ^ (hi - lo + 1) = m
  have hmlt : m < 2 ^ (hi - lo + 1) := hm ▸ Nat.mod_lt _ hq
  generalize 2 ^ (hi - lo + 1) = q at *
  generalize 2 ^ lo = p at *
  have : (a * q * p + m * p + r) / p = a * q + m := by
    have e : a * q * p + m * p + r = r + p * (a * q + m) := by ring
    rw [e, Nat.add_mul_div_left _ _ hp, Nat.div_eq_of_lt hr, Nat.zero_add]
  rw [this, Nat.add_comm, Nat.add_mul_mod_self_right, Nat.mod_eq_of_lt hmlt]

theorem fieldOf_eq (v : Nat) {hi lo : Nat} (h : lo ≤ hi) : fieldOf v hi lo = v % 2 ^ (hi + 1) / 2 ^ lo := by
  unfold fieldOf
  have e : 2 ^ (hi + 1) = 2 ^ lo * 2 ^ (hi - lo + 1) := by rw [← pow_add]; congr 1; omega
  rw [e, Nat.mod_mul_right_div_self]

/-- A number at or above a field's top bit, and one below its bottom bit, do not see the field written. -/
theorem withField_div (v n : Nat) {hi lo : Nat} (h : lo ≤ hi) : withField v hi lo n / 2 ^ (hi + 1) = v / 2 ^ (hi + 1) := by
  have e : 2 ^ (hi + 1) = 2 ^ lo * 2 ^ (hi - lo + 1) := by rw [← pow_add]; congr 1; omega
  rw [withField_eq, e, ← Nat.div_div_eq_div_mul, ← Nat.div_div_eq_div_mul]
  have hp : 0 < 2 ^ lo := by positivity
  have hq : 0 < 2 ^ (hi - lo + 1) := by positivity
  have hr : v % 2 ^ lo < 2 ^ lo := Nat.mod_lt _ hp
  have hm : n % 2 ^ (hi - lo + 1) < 2 ^ (hi - lo + 1) := Nat.mod_lt _ hq
  generalize v % 2 ^ lo = r at *
  generalize n % 2 ^ (hi - lo + 1) = m at *
  generalize v / 2 ^ lo / 2 ^ (hi - lo + 1) = a
  generalize 2 ^ (hi - lo + 1) = q at *
  generalize 2 ^ lo = p at *
  have : (a * q * p + m * p + r) / p = a * q + m := by
    have e : a * q * p + m * p + r = r + p * (a * q + m) := by ring
    rw [e, Nat.add_mul_div_left _ _ hp, Nat.div_eq_of_lt hr, Nat.zero_add]
  rw [this]
  have e : a * q + m = m + q * a := by ring
  rw [e, Nat.add_mul_div_left _ _ hq, Nat.div_eq_of_lt hm, Nat.zero_add]

theorem withField_mod (v n hi lo : Nat) : withField v hi lo n % 2 ^ lo = v % 2 ^ lo := by
  rw [withField_eq]
  have e : v / 2 ^ lo / 2 ^ (hi - lo + 1) * 2 ^ (hi - lo + 1) * 2 ^ lo + n % 2 ^ (hi - lo + 1) * 2 ^ lo + v % 2 ^ lo =
      v % 2 ^ lo + 2 ^ lo * (v / 2 ^ lo / 2 ^ (hi - lo + 1) * 2 ^ (hi - lo + 1) + n % 2 ^ (hi - lo + 1)) := by ring
  rw [e, Nat.add_mul_mod_self_left, Nat.mod_mod]

/-- Writing one field leaves a disjoint one alone. -/
theorem fieldOf_withField_disjoint (v n : Nat) {hi lo hi' lo' : Nat} (h : lo ≤ hi) (h' : lo' ≤ hi') (hd : hi < lo' ∨ hi' < lo) :
    fieldOf (withField v hi lo n) hi' lo' = fieldOf v hi' lo' := by
  rcases hd with hd | hd
  · have e : 2 ^ lo' = 2 ^ (hi + 1) * 2 ^ (lo' - (hi + 1)) := by rw [← pow_add]; congr 1; omega
    unfold fieldOf
    rw [e, ← Nat.div_div_eq_div_mul, ← Nat.div_div_eq_div_mul, withField_div _ _ h]
  · rw [fieldOf_eq _ h', fieldOf_eq _ h']
    have hdvd : 2 ^ (hi' + 1) ∣ 2 ^ lo := pow_dvd_pow 2 (by omega)
    rw [← Nat.mod_mod_of_dvd (withField v hi lo n) hdvd, withField_mod, Nat.mod_mod_of_dvd v hdvd]

theorem withField_lt (v n : Nat) {hi lo : Nat} (h : lo ≤ hi) (hh : hi < 64) (hv : v < 2 ^ 64) : withField v hi lo n < 2 ^ 64 := by
  have e : (2 : Nat) ^ 64 = 2 ^ (hi + 1) * 2 ^ (63 - hi) := by rw [← pow_add]; congr 1; omega
  have h1 := withField_div v n h
  have h2 : v / 2 ^ (hi + 1) < 2 ^ (63 - hi) := by rw [Nat.div_lt_iff_lt_mul (by positivity), Nat.mul_comm]; omega
  rw [← h1, Nat.div_lt_iff_lt_mul (by positivity), Nat.mul_comm] at h2
  omega

/-! ### Fields of registers -/

/-- A field that was written reads as what was written, cut to its width. -/
theorem getF_setF_same (s : State) (f : Fld) (i n : Nat) (h : f.fits) : getF (setF s f i n) f i = n % 2 ^ (f.hi - f.lo + 1) := by
  unfold getF setF
  rw [getReg_setReg_same, BitVec.toNat_ofNat, Nat.mod_eq_of_lt (withField_lt _ _ h.1 h.2 (getReg s f.reg i).isLt), fieldOf_withField]

/-- A write of a field leaves every field of every other register, and every other instance, alone. -/
theorem getF_setF_other (s : State) (f g : Fld) (i j n : Nat) (h : g.reg ≠ f.reg ∨ j ≠ i) : getF (setF s f i n) g j = getF s g j := by
  unfold getF setF
  rw [getReg_setReg, if_neg (by rintro ⟨h1, h2⟩; rcases h with h | h <;> contradiction)]

/-- A write of a field leaves a disjoint field of the same register alone. -/
theorem getF_setF_disjoint (s : State) (f g : Fld) (i n : Nat) (hr : g.reg = f.reg) (hf : f.fits) (hg : g.lo ≤ g.hi)
    (hd : f.hi < g.lo ∨ g.hi < f.lo) : getF (setF s f i n) g i = getF s g i := by
  unfold getF setF
  rw [hr, getReg_setReg_same, BitVec.toNat_ofNat, Nat.mod_eq_of_lt (withField_lt _ _ hf.1 hf.2 (getReg s f.reg i).isLt),
    fieldOf_withField_disjoint _ _ hf.1 hg hd]

theorem getReg_setF_other (s : State) (f : Fld) (r : Reg) (i j n : Nat) (h : r ≠ f.reg ∨ j ≠ i) : getReg (setF s f i n) r j = getReg s r j := by
  unfold setF
  rw [getReg_setReg, if_neg (by rintro ⟨h1, h2⟩; rcases h with h | h <;> contradiction)]

/-- A counter counts, and wraps at its width. -/
theorem getF_bump_same (s : State) (f : Fld) (i : Nat) (h : f.fits) : getF (bump s f i) f i = (getF s f i + 1) % 2 ^ (f.hi - f.lo + 1) :=
  getF_setF_same s f i _ h

end Sys2Proof.Machine
end

