-- ==== Sys2Proof/Laws/Threads.lean ====
section
/-! SUPPORT. Threads: registers, the gate an instruction passes, and what retiring it, trapping and holding do. -/

namespace Sys2Proof.Machine

/-! ### Threads and their registers -/

theorem threadOf_setThread (s : State) (t u : Nat) (x : Thread) : threadOf (setThread s t x) u = if u = t then x else threadOf s u := by
  simp only [threadOf, setThread, Tab.get_store]

@[simp] theorem threadOf_setThread_same (s : State) (t : Nat) (x : Thread) : threadOf (setThread s t x) t = x := by
  simp [threadOf_setThread]

/-- Of two writes of a thread that is not in its reset state, the later stands. -/
theorem setThread_setThread (s : State) (t : Nat) (x y : Thread) (hx : x ≠ {}) (hy : y ≠ {}) :
    setThread (setThread s t x) t y = setThread s t y := by
  simp only [setThread, Tab.store, hx, hy, if_false, Tab.put_put]

theorem Thread.ne_reset {x : Thread} (h : x.st ≠ .parked) : x ≠ {} := fun e => h (by rw [e])

@[simp] theorem Thread.reg_zero (x : Thread) : x.reg 0 = 0 := rfl

/-- A register reads as what was last put in it; g0 reads as 0 (05 R126). -/
theorem Thread.reg_put (x : Thread) (r q : Nat) (v : Dword) : (x.put r v).reg q = if q = 0 then 0 else if q = r then v else x.reg q := by
  unfold Thread.put Thread.reg
  by_cases hq : q = 0
  · simp [hq]
  · by_cases hr : r = 0
    · subst hr; simp [hq]
    · simp only [hr, hq, if_false, Tab.get_store]

theorem Thread.reg_write (x : Thread) (r q : Nat) (v : Dword) : (x.write r v).reg q = if q = 0 then 0 else if q = r then v else x.reg q := by
  have : (x.write r v).reg q = (x.put r v).reg q := rfl
  rw [this, Thread.reg_put]

/-- g0 discards writes. -/
theorem Thread.put_zero (x : Thread) (v : Dword) : x.put 0 v = x := rfl

/-! ### The fetch -/

/-- A walk through the pane tables changes nothing but the pane cache and the free bits drawn. -/
theorem threadTranslate_frame (s : State) (r b a : Nat) (k : AccKind) :
    ∃ p c, (threadTranslate s r b a k).2 = { s with freeCtr := c, rafters := { s.rafters with panes := p } } := by
  have hc : ∀ (s : State) (l : Leaf), ∃ p, cachePane s r l = { s with rafters := { s.rafters with panes := p } } := by
    intro s l
    unfold cachePane
    dsimp only
    split
    · exact ⟨s.rafters.panes, rfl⟩
    · exact ⟨_, rfl⟩
  have hf : ∀ s : State, ∃ p, (freshGives s r b a k).2 = { s with rafters := { s.rafters with panes := p } } := by
    intro s
    unfold freshGives
    split
    · exact ⟨s.rafters.panes, rfl⟩
    · exact hc s _
  unfold threadTranslate
  split
  · exact ⟨_, _, rfl⟩
  · split
    · split <;> exact ⟨_, _, rfl⟩
    · split
      · obtain ⟨p, hp⟩ := hf s; exact ⟨p, s.freeCtr, hp⟩
      · rename_i e _
        have key : ∀ stale : Bool, ∃ p c,
            (if stale then
                if (drawBit s).1 then (leafGives (drawBit s).2 b e.toLeaf a k, (drawBit s).2) else freshGives (drawBit s).2 r b a k
              else (leafGives s b e.toLeaf a k, s)).2 = { s with freeCtr := c, rafters := { s.rafters with panes := p } } := by
          intro stale
          cases stale
          · exact ⟨s.rafters.panes, s.freeCtr, rfl⟩
          · cases (drawBit s).1
            · obtain ⟨p, hp⟩ := hf (drawBit s).2
              refine ⟨p, s.freeCtr + 1, ?_⟩
              rw [if_pos rfl, if_neg (by simp), hp]
              rfl
            · exact ⟨s.rafters.panes, s.freeCtr + 1, rfl⟩
        exact key _

theorem fetchFault_frame (s : State) (t : Nat) :
    ∃ p c, (fetchFault s t).2 = { s with freeCtr := c, rafters := { s.rafters with panes := p } } := by
  obtain ⟨p, c, h⟩ := threadTranslate_frame s (tidRafter t) ((bayOfTid s t).getD 64) (threadOf s t).pc.toNat .fetch
  unfold fetchFault
  dsimp only
  split <;> exact ⟨p, c, h⟩

/-- A fetch changes no thread, no register, no memory. -/
theorem afterFetch_frame (s : State) (tid : Tid) :
    (afterFetch s tid).rafters.threads = s.rafters.threads ∧ (afterFetch s tid).regs = s.regs ∧ (afterFetch s tid).mem = s.mem ∧
    (afterFetch s tid).memEpoch = s.memEpoch ∧ (afterFetch s tid).thatch = s.thatch ∧ (afterFetch s tid).ftime = s.ftime := by
  obtain ⟨p, c, h⟩ := fetchFault_frame s tid.toNat
  simp [afterFetch, h]

@[simp] theorem threadOf_afterFetch (s : State) (tid : Tid) (t : Nat) : threadOf (afterFetch s tid) t = threadOf s t := by
  simp [threadOf, (afterFetch_frame s tid).1]

@[simp] theorem regOf_afterFetch (s : State) (tid u : Tid) (r : RegNo) : regOf (afterFetch s tid) u r = regOf s u r := by
  simp [regOf]

/-! ### The gate -/

/-- An instruction that issues does what it does, on the state with its fetch made. -/
theorem issue_runs {s : State} {tid : Tid} {i : Olx} (h : Issues s tid i) (k : State → State) :
    issueI s tid i k = k (afterFetch s tid) := by
  obtain ⟨h1, h2, h3, h4, h5, h6, h7⟩ := h
  simp [issueI, issue, h1, h2, h3, h4, h5, h6, h7, afterFetch]

theorem issueVal_runs {s : State} {tid : Tid} {i : Olx} (h : Issues s tid i) (rd : RegNo) (v : Thread → Dword) :
    issueVal s tid i rd v = .next (retire (afterFetch s tid) tid.toNat rd.toNat (v (threadOf s tid.toNat)) i.size) := by
  simp [issueVal, issue_runs h]

/-! ### Retiring -/

/-- Retiring changes one thread and nothing else: rd, the pc, and which loads still write rd. -/
theorem retire_threads (s : State) (t rd : Nat) (v : Dword) (n u : Nat) (h : u ≠ t) : threadOf (retire s t rd v n) u = threadOf s u := by
  simp [retire, threadOf_setThread, h]

theorem retire_reg (s : State) (t rd : Nat) (v : Dword) (n q : Nat) :
    (threadOf (retire s t rd v n) t).reg q = if q = 0 then 0 else if q = rd then v else (threadOf s t).reg q := by
  simp only [retire, threadOf_setThread_same]
  exact Thread.reg_write _ _ _ _

theorem retire_pc (s : State) (t rd : Nat) (v : Dword) (n : Nat) : (threadOf (retire s t rd v n) t).pc = nextPc (threadOf s t) n := by
  simp [retire]

/-- What held a thread leaves no trace once it is released. -/
theorem released_held (x : Thread) (b : Block) (r : Nat) (v npc : Dword) :
    ({ x with st := .blocked, block := some b } : Thread).released r v npc = x.released r v npc := by
  by_cases h : r = 0 <;> simp [Thread.released, Thread.write, Thread.put, h]

theorem released_ne (x : Thread) (r : Nat) (v npc : Dword) : x.released r v npc ≠ {} := Thread.ne_reset (by simp [Thread.released])

/-- A held thread whose value is known becomes ready with it, at the next instruction. -/
theorem hold_then_complete (s : State) (tid : Tid) (b : Block) (v w : Dword) (hv : b.val = some v) (hs : b.slab = none) (hf : b.fence = false)
    (hm : b.byMsg = false) (hc : b.cont = none) :
    exec (.accessCompletion tid (.data w)) (hold s tid.toNat b) =
      .next (setThread s tid.toNat ((threadOf s tid.toNat).released b.rd v b.npc)) := by
  simp only [exec, execAccessCompletion, hold, threadOf_setThread_same, hs, hf, hm, Option.isSome, Bool.false_eq_true, if_false, completeHeld, hv,
    answered, hc, release, released_held]
  rw [setThread_setThread _ _ _ _ (Thread.ne_reset (by simp)) (released_ne _ _ _ _)]

theorem retire_frame (s : State) (t rd : Nat) (v : Dword) (n : Nat) :
    ∃ x, retire s t rd v n = { s with rafters := { s.rafters with threads := x } } := ⟨_, rfl⟩

/-- A pc stays below 2^52 and 4-byte aligned. -/
theorem toPc_aligned (v : Dword) : (toPc v).toNat % 4 = 0 ∧ (toPc v).toNat < 2 ^ 52 := by
  unfold toPc
  constructor
  · rw [BitVec.toNat_and]
    have : (v.toNat &&& (0x000FFFFFFFFFFFFC : BitVec 64).toNat) % 2 ^ 2 = (v.toNat % 2 ^ 2) &&& ((0x000FFFFFFFFFFFFC : BitVec 64).toNat % 2 ^ 2) :=
      Nat.and_mod_two_pow ..
    rw [show ((0x000FFFFFFFFFFFFC : BitVec 64).toNat % 2 ^ 2) = 0 from rfl, Nat.and_zero] at this
    exact this
  · rw [BitVec.toNat_and]
    exact lt_of_le_of_lt Nat.and_le_right (by decide)

end Sys2Proof.Machine
end

