-- ==== Sys2Proof/WellFormed.lean ====
section
/-! DEFINITION. Well-formed commands: every operand names something the block has. -/

namespace Sys2Proof

/-- A number below a bound. -/
def below (n b : Nat) : Bool := decide (n < b)

/-- A requester of an endpoint that exists, and for a virtual function one of 1 to 255 (07 R196). -/
def Requester.wf : Requester → Bool
  | .pf ep => below ep 2
  | .vf ep fn => below ep 2 && below fn 256 && decide (0 < fn)
  | .thread _ => true

/-- A packet's base header within its fields (10 Table 10.4). -/
def PktHdr.wf (h : PktHdr) : Bool := below h.conn 0x100000 && below h.psn 0x1000000 && below h.port 64

/-- A message header within its fields (11 Table 11.4). -/
def NHdr.wf (m : NHdr) : Bool :=
  below m.link 17 && below m.tc 8 && below m.dst 4096 && below m.hops 16 && below m.src 4096 && below m.crs 256 &&
  below m.status 256 && below m.tag 0x100000000

/-- A command of a controller and queue that can exist (14 R407, Table 14.1). -/
def NCmd.wf (n : NCmd) : Bool := below n.ctrl 128 && below n.sq 65 && below n.cid 65536 && n.list.all (fun a => below a (2 ^ 64))

/-- A command names only what the block has. -/
def wellFormed : Instr → Bool
  | .registerWrite req off size _ => req.wf && below off 0x4000000 && (size == 4 || size == 8)
  | .misalignedControlAccess req off _ _ _ => req.wf && below off 0x4000000
  | .powerOnResetExit => true
  | .powerLoss => true
  | .crystalDetectionDone _ => true
  | .crystalFail => true
  | .resetNAssert => true
  | .boardPgFall => true
  | .resetNRise => true
  | .dozeEntry d => below d 79
  | .napDelayExpiry d => below d 79
  | .offEntryStart d => below d 79
  | .quiesceDone d => below d 79
  | .powerDownDone d => below d 79
  | .domainWakeDone d => below d 79
  | .offReq req d _ => req.wf && below d 79
  | .wakeReq req d _ => req.wf && below d 79
  | .roofSleepConditionsHeld => true
  | .roofPointOfNoReturn => true
  | .roofSleepEntered => true
  | .roofWakeSource bit _ => below bit 7
  | .roofTimerExpiry => true
  | .roofExitDigestCheck _ => true
  | .roofExit => true
  | .bayReset req bay _ => req.wf && below bay 64
  | .bayResetDone bay => below bay 64
  | .bootSourceTimeout => true
  | .bootHeaderCheck _ => true
  | .bootImageReadDone _ => true
  | .bootSignatureCheckDone _ _ => true
  | .backoffExpiry => true
  | .networkBootTick => true
  | .neighbourTurnTimeout => true
  | .bootNow req => req.wf
  | .tarpForceWrite req => req.wf
  | .tarpEntryDone => true
  | .assignQuery _ _ => true
  | .assignSet _ _ address => below address 128
  | .ident address => below address 128
  | .status address => below address 128
  | .sensorRead address index => below address 128 && below index 256
  | .mailboxWrite address flags _ => below address 128 && below flags 256
  | .mailboxRead address => below address 128
  | .accPower address n request => below address 128 && below n 16 && below request 4
  | .accStatus address => below address 128
  | .wake address => below address 128
  | .tarpForce address => below address 128
  | .resetWarm address c0 c1 => below address 128 && below c0 256 && below c1 256
  | .release address => below address 128
  | .chainBadFrame address why cmd _ => below address 128 && below why 3 && below cmd 256
  | .chainTimeout => true
  | .chainReleaseWrite req _ => req.wf
  | .nodeIdWrite req _ => req.wf
  | .consoleCharacter _ _ => true
  | .consoleBreak => true
  | .conTxWrite req _ => req.wf
  | .consoleTxCharacterSent => true
  | .conRxRead req => req.wf
  | .sensorSample _ _ => true
  | .thermtrip => true
  | .thermThreshWrite req _ => req.wf
  | .accOnRequest n => below n 16
  | .accOffRequest n => below n 16
  | .accResetPulse n => below n 16
  | .accPgRise n => below n 16
  | .accRstDelayExpiry n => below n 16
  | .accOffDelayExpiry n => below n 16
  | .accPulseExpiry n => below n 16
  | .accPgTimeout n => below n 16
  | .accPgLost n => below n 16
  | .thatchReload req bay _ => req.wf && below bay 64
  | .thatchFetchDone _ _ => true
  | .thatchSignaturesDone _ => true
  | .thatchChecksDone => true
  | .strikeLift => true
  | .thatchQuiesce req bay _ => req.wf && below bay 64
  | .drainLimitExpiry => true
  | .holdLimitExpiry bay => below bay 64
  | .thatchApplyStart => true
  | .thatchApplyDone _ => true
  | .thatchCommitOp req bay => req.wf && below bay 64
  | .thatchCancel req bay => req.wf && below bay 64
  | .thatchReapplyDone _ => true
  | .powerBudgetTick bay _ => below bay 64
  | .slabInstruction _ _ _ _ _ _ => true
  | .slabResponse _ _ _ _ => true
  | .slabTimeout _ => true
  | .slabMemoryAccess _ _ _ _ => true
  | .add _ _ _ _ _ => true
  | .sub _ _ _ _ _ => true
  | .and _ _ _ _ _ => true
  | .or _ _ _ _ _ => true
  | .xor _ _ _ _ _ => true
  | .andn _ _ _ _ _ => true
  | .sll _ _ _ _ _ => true
  | .srl _ _ _ _ _ => true
  | .sra _ _ _ _ _ => true
  | .rotr _ _ _ _ _ => true
  | .slt _ _ _ _ _ => true
  | .sltu _ _ _ _ _ => true
  | .min _ _ _ _ _ => true
  | .max _ _ _ _ _ => true
  | .minu _ _ _ _ _ => true
  | .maxu _ _ _ _ _ => true
  | .clz _ _ _ _ => true
  | .ctz _ _ _ _ => true
  | .popc _ _ _ _ => true
  | .bswap _ _ _ _ => true
  | .sextb _ _ _ => true
  | .sexth _ _ _ => true
  | .sextw _ _ _ => true
  | .addi _ _ _ _ => true
  | .andi _ _ _ _ => true
  | .ori _ _ _ _ => true
  | .xori _ _ _ _ => true
  | .shi _ _ _ _ _ _ => true
  | .slti _ _ _ _ => true
  | .sltiu _ _ _ _ => true
  | .lui _ _ _ => true
  | .mul _ _ _ _ _ => true
  | .mulh _ _ _ _ _ => true
  | .mulhu _ _ _ _ _ => true
  | .div _ _ _ _ _ => true
  | .divu _ _ _ _ _ => true
  | .rem _ _ _ _ _ => true
  | .remu _ _ _ _ _ => true
  | .lb _ _ _ _ => true
  | .lbu _ _ _ _ => true
  | .lh _ _ _ _ => true
  | .lhu _ _ _ _ => true
  | .lw _ _ _ _ => true
  | .lwu _ _ _ _ => true
  | .ld _ _ _ _ => true
  | .sb _ _ _ _ => true
  | .sh _ _ _ _ => true
  | .sw _ _ _ _ => true
  | .sd _ _ _ _ => true
  | .amoswap _ _ _ _ _ _ _ => true
  | .amoadd _ _ _ _ _ _ _ => true
  | .amoand _ _ _ _ _ _ _ => true
  | .amoor _ _ _ _ _ _ _ => true
  | .amoxor _ _ _ _ _ _ _ => true
  | .amomin _ _ _ _ _ _ _ => true
  | .amomax _ _ _ _ _ _ _ => true
  | .amominu _ _ _ _ _ _ _ => true
  | .amomaxu _ _ _ _ _ _ _ => true
  | .cas _ _ _ _ _ _ _ => true
  | .fenceAcq _ => true
  | .fenceRel _ => true
  | .fenceFull _ => true
  | .fenceI _ => true
  | .mfs _ _ _ => true
  | .mts _ _ _ => true
  | .tctlStart _ _ => true
  | .tctlReset _ _ => true
  | .paneInv _ _ => true
  | .swtrap _ _ => true
  | .brk _ => true
  | .eret _ => true
  | .fadd _ _ _ _ _ => true
  | .fsub _ _ _ _ _ => true
  | .fmul _ _ _ _ _ => true
  | .fmadd _ _ _ _ _ => true
  | .fmin _ _ _ _ _ => true
  | .fmax _ _ _ _ _ => true
  | .fdiv _ _ _ _ => true
  | .fsqrt _ _ _ => true
  | .feq _ _ _ _ _ => true
  | .flt _ _ _ _ _ => true
  | .fle _ _ _ _ _ => true
  | .fabs _ _ _ _ => true
  | .fneg _ _ _ _ => true
  | .cvtN _ _ _ _ _ _ _ _ => true
  | .cvtWl _ _ _ _ _ _ _ => true
  | .cvtWh _ _ _ _ _ _ _ => true
  | .f2i _ _ _ => true
  | .i2f _ _ _ => true
  | .beq _ _ _ _ => true
  | .bne _ _ _ _ => true
  | .blt _ _ _ _ => true
  | .bge _ _ _ _ => true
  | .bltu _ _ _ _ => true
  | .bgeu _ _ _ _ => true
  | .jal _ _ => true
  | .j _ _ => true
  | .jalr _ _ _ _ => true
  | .djnz _ _ _ => true
  | .djnzl _ _ _ => true
  | .blog _ _ _ _ _ => true
  | .setb _ _ _ _ _ => true
  | .bb _ _ _ _ => true
  | .bset _ _ => true
  | .bclr _ _ => true
  | .btog _ _ => true
  | .btas _ _ _ => true
  | .bmovt _ _ _ => true
  | .bmovf _ _ _ => true
  | .brd _ _ _ => true
  | .bwr _ _ _ => true
  | .wait _ _ _ _ _ _ => true
  | .waitSatisfied _ => true
  | .waitTimeout _ => true
  | .chk _ _ _ _ _ => true
  | .chki _ _ _ => true
  | .chkd _ _ _ _ => true
  | .movb _ _ _ _ _ _ _ => true
  | .fill _ _ _ _ _ _ _ => true
  | .scanb _ _ _ _ _ _ _ _ => true
  | .crcb _ _ _ _ _ => true
  | .hashb _ _ _ _ _ => true
  | .lix _ _ _ => true
  | .luix _ _ _ => true
  | .addix _ _ _ _ => true
  | .andix _ _ _ _ => true
  | .orix _ _ _ _ => true
  | .xorix _ _ _ _ => true
  | .ldx _ _ _ _ => true
  | .lwx _ _ _ _ => true
  | .lwux _ _ _ _ => true
  | .sdx _ _ _ _ => true
  | .swx _ _ _ _ => true
  | .jalx _ _ _ => true
  | .illegalInstruction _ _ _ => true
  | .noCoprocessorFitted _ _ _ _ _ => true
  | .lend _ _ _ _ => true
  | .lticket _ _ _ _ => true
  | .lretired _ _ _ _ => true
  | .lbucket _ _ _ _ => true
  | .lpool _ _ _ _ => true
  | .cryptFunction _ _ _ _ => true
  | .random _ _ _ _ => true
  | .keyinfo _ _ _ _ => true
  | .shash _ _ _ _ => true
  | .shashHi _ _ _ _ => true
  | .sstat _ _ _ _ => true
  | .accessCompletion _ _ => true
  | .nonblockingLoadReturn _ _ _ => true
  | .postedStoreFailure _ addr status => below addr 0x10000000000000000 && below status 256
  | .tdeadlineExpiry _ => true
  | .interruptTaken _ => true
  | .epLinkUp ep speed width _ => below ep 2 && below speed 8 && below width 32
  | .epLinkDown ep => below ep 2
  | .linkHotReset ep => below ep 2
  | .perstAssert ep => below ep 2
  | .perstDeassert ep _ => below ep 2
  | .flr ep fn => below ep 2 && below fn 256
  | .vfEnableClear ep => below ep 2
  | .busMasterEnableClear ep fn => below ep 2 && below fn 256
  | .d3hotEntry ep fn => below ep 2 && below fn 256
  | .d0Return ep fn => below ep 2 && below fn 256
  | .functionStopDone ep fn => below ep 2 && below fn 256
  | .flrDone ep fn => below ep 2 && below fn 256
  | .configWrite ep fn off _ _ => below ep 2 && below fn 256 && below off 4096 && off % 4 == 0
  | .apertureAccess ep _ _ _ _ => below ep 2
  | .vfDoorbellWrite ep vf _ _ => below ep 2 && below vf 256
  | .msixUnmask ep fn vec => below ep 2 && below fn 256 && below vec 2048
  | .atsInvalidate ep fn addr _ => below ep 2 && below fn 256 && below addr 0x10000000000000000
  | .atsInvalidateCompletion ep => below ep 2
  | .completionTimeout ep _ _ => below ep 2
  | .pmeResend ep fn => below ep 2 && below fn 256
  | .l0pWidthHalving ep => below ep 2
  | .l0pWidthRestore ep => below ep 2
  | .vfStorageWrite req ep _ => req.wf && below ep 2
  | .mbxPing => true
  | .mbxStatus => true
  | .bootBegin => true
  | .bootBlock => true
  | .bootEnd => true
  | .logRead => true
  | .mbxTarpForce => true
  | .mbxResetWarm => true
  | .mbxAccPower => true
  | .barePortFrame etherType src _ => below etherType 65536 && below src 0x1000000000000
  | .rpLinkUp port _ _ cls _ => below port 8 && below cls 0x1000000
  | .rpLinkDown port => below port 8
  | .ringEnable req _ n => req.wf && below n 4096
  | .ringDisable req _ n => req.wf && below n 4096
  | .ringStopDone _ n => below n 4096
  | .doorbellWrite req n _ => req.wf && below n 4096
  | .eventRingDoorbell req n _ => req.wf && below n 256
  | .descriptorFetch qp _ _ => below qp 4096
  | .nop qp _ _ => below qp 4096
  | .abort qp _ _ _ => below qp 4096
  | .copy qp _ _ _ _ _ => below qp 4096
  | .copyDone _ _ failed => below failed 256
  | .cqStallTimeout qp => below qp 4096
  | .notifyCoalesceTimeout kind n => below kind 3 && below n 4096
  | .partnerSync req _ => req.wf
  | .partnerRecordFill index _ => below index 0x100000
  | .admission _ => true
  | .admissionWaitExpiry _ => true
  | .sheddingStart pool => below pool 7
  | .sheddingEnd pool => below pool 7
  | .frameReceived port ts _ _ => below port 64 && below ts 0x10000000000000000
  | .trussParse _ => true
  | .reedDispatch _ => true
  | .reedReturn _ => true
  | .reedTimeout _ => true
  | .ruleAdd req table => req.wf && below table 16
  | .ruleDelete req table => req.wf && below table 16
  | .ruleModify req table => req.wf && below table 16
  | .ruleSetMiss req table => req.wf && below table 16
  | .ruleCommitOp req => req.wf
  | .ruleDiscard req => req.wf
  | .ruleCommitDeferred => true
  | .tx qp _ _ _ _ _ _ _ _ => below qp 4096
  | .txDone _ _ failed => below failed 256
  | .rxPost qp _ _ _ _ _ _ => below qp 4096
  | .learn => true
  | .entryAgeing vlan mac => below vlan 4096 && below mac 0x1000000000000
  | .fdbAddStatic req vlan => req.wf && below vlan 4096
  | .fdbDelete req vlan => req.wf && below vlan 4096
  | .fdbLookup req vlan => req.wf && below vlan 4096
  | .fdbClearFlap req vlan => req.wf && below vlan 4096
  | .fdbFlush req => req.wf
  | .dormerOpen qp _ _ _ _ _ _ _ => below qp 4096
  | .dormerRevoke qp _ _ _ => below qp 4096
  | .dormerRevokeDone _ => true
  | .dormerExpiry w => below w 65536
  | .windowWrapHoldExpiry w => below w 65536
  | .regionReg qp _ _ _ _ _ _ _ => below qp 4096
  | .regionDereg qp _ _ _ => below qp 4096
  | .regionDeregDone _ => true
  | .sendPacket h _ => h.wf
  | .writePacket h _ _ => h.wf
  | .readReqPacket h _ _ => h.wf
  | .readRespPacket h _ => h.wf
  | .fetchAddPacket h _ _ => h.wf
  | .cmpSwapPacket h _ _ _ => h.wf
  | .atomicRespPacket h _ => h.wf
  | .windowNotifyPacket h _ _ _ _ _ => h.wf
  | .ackPacket h => h.wf
  | .nakPacket h _ _ => h.wf
  | .badEavePacket h version opcode => h.wf && below version 16 && below opcode 256
  | .retryTimeout conn => below conn 0x100000
  | .rnrWaitExpiry conn => below conn 0x100000
  | .ackCoalesceTimeout conn => below conn 0x100000
  | .contextFillDone conn _ => below conn 0x100000
  | .send qp _ _ _ _ _ => below qp 4096
  | .write qp _ _ _ _ _ _ _ _ => below qp 4096
  | .read qp _ _ _ _ _ _ _ _ => below qp 4096
  | .fetchAdd qp _ _ _ _ _ _ _ _ _ => below qp 4096
  | .cmpSwap qp _ _ _ _ _ _ _ _ _ _ => below qp 4096
  | .windowNotify qp _ _ _ _ _ => below qp 4096
  | .recvPost qp _ _ _ _ _ => below qp 4096
  | .connOpen qp _ _ _ _ => below qp 4096
  | .connClose qp _ _ _ => below qp 4096
  | .connCloseDone conn => below conn 0x100000
  | .connQuery qp _ _ _ => below qp 4096
  | .pfcFrameReceived port _ _ => below port 64
  | .pfcRefresh port q => below port 64 && below q 8
  | .pfcStormDetected port q _ => below port 64 && below q 8
  | .pfcStormRecovery port q _ => below port 64 && below q 8
  | .rateIncreaseTimer conn => below conn 0x100000
  | .nawynLinkEnable req link _ => req.wf && below link 16
  | .nawynLinkDisable req link _ => req.wf && below link 16
  | .nawynDetectRetry link => below link 16
  | .nawynPeerDetected link => below link 16
  | .nawynAlignDone link _ => below link 16
  | .nawynExchange link peer _ _ _ _ _ => below link 16 && below peer 4096
  | .laneLockLoss link => below link 16
  | .nawynRetrainDone link _ _ => below link 16
  | .nakFlit link _ seq => below link 16 && below seq 1024
  | .linkAckReceived link _ => below link 16
  | .replayTimeout link => below link 16
  | .timeFlit link _ _ _ _ _ _ => below link 16
  | .timeFlitTick link => below link 16
  | .nawynSend m _ => m.wf
  | .nawynWrite m _ => m.wf
  | .nawynReadReq m _ _ => m.wf
  | .nawynReadResp m _ => m.wf
  | .undelivered m _ => m.wf
  | .bootMessage m _ => m.wf
  | .packetMessage m _ => m.wf
  | .nawynBadMtype m _ _ => m.wf
  | .nsend qp _ _ _ _ _ _ _ => below qp 4096
  | .nwrite qp _ _ _ _ _ _ _ => below qp 4096
  | .nread qp _ _ _ _ _ _ _ => below qp 4096
  | .nrecvPost qp _ _ _ _ => below qp 4096
  | .readTimeout tag => below tag 0x100000000
  | .messageStart link tc _ => below link 17 && below tc 8
  | .courseArm req link => req.wf && below link 16
  | .courseActivation link => below link 16
  | .windowInstanceEnd link w _ => below link 16 && below w 64
  | .timeOfsWrite req _ => req.wf
  | .ptpTimestamp port _ msgType seqId => below port 64 && below msgType 16 && below seqId 65536
  | .ptpTimeRead req => req.wf
  | .lateMaxRead req link => req.wf && below link 16
  | .loftAppend m _ => m.wf
  | .lappend qp _ _ _ _ _ => below qp 4096
  | .loftAppendDone _ => true
  | .loftQuery m _ => m.wf
  | .lquery qp _ _ _ _ _ _ _ => below qp 4096
  | .loftQueryDone _ _ => true
  | .lbiasLoad qp _ _ _ _ _ _ => below qp 4096
  | .lbiasLoadDone _ => true
  | .loftAbort m => m.wf
  | .loftPoolTailWrite req pool _ => req.wf && below pool 64
  | .ulCut qp _ _ _ _ _ _ _ => below qp 4096
  | .cutReady m => m.wf
  | .groupCopyDone group => below group 256
  | .cutReadyTimeout => true
  | .cutAbandonComplete => true
  | .ulDrain qp _ _ _ _ _ _ _ _ _ _ => below qp 4096
  | .shingleHashed => true
  | .shingleWriteAck _ status => below status 256
  | .manifestBodyAck status => below status 256
  | .manifestHeaderAck status => below status 256
  | .ulDrainTimeoutExpiry => true
  | .ulRestore qp _ _ _ _ _ _ _ _ _ => below qp 4096
  | .restoreShingleRead _ _ status => below status 256
  | .restoreWriteAck _ => true
  | .ulRelease qp _ _ _ => below qp 4096
  | .ulBaseInv req _ => req.wf
  | .nvmeSqDoorbell c sq tail => below c 128 && below sq 65 && below tail 65536
  | .createIoSubmissionQueue n => n.wf
  | .deleteIoSubmissionQueue n => n.wf
  | .createIoCompletionQueue n => n.wf
  | .deleteIoCompletionQueue n => n.wf
  | .getLogPage n => n.wf
  | .identify n => n.wf
  | .nvmeAbort n => n.wf
  | .setFeatures n => n.wf
  | .getFeatures n => n.wf
  | .asynchronousEventRequest n => n.wf
  | .nvmeFlush n => n.wf
  | .nvmeWrite n _ => n.wf
  | .nvmeRead n => n.wf
  | .writeZeroes n => n.wf
  | .datasetManagement n _ => n.wf
  | .invalidCommandOpcode n _ => n.wf
  | .backendCompletion _ sct sc _ _ => below sct 8 && below sc 256
  | .namespaceValidWrite req c k _ => req.wf && below c 128 && below k 16
  | .keyLoad qp _ _ _ _ _ _ => below qp 4096
  | .keyDestroy qp _ _ _ => below qp 4096
  | .keyDestroyDone _ => true
  | .crypt qp _ _ _ _ _ => below qp 4096
  | .floorAdvance qp _ _ _ _ _ => below qp 4096
  | .floorStepBlown => true
  | .getVersion ep _ => below ep 2
  | .getCapabilities ep _ => below ep 2
  | .negotiateAlgorithms ep _ => below ep 2
  | .getDigests ep _ => below ep 2
  | .getCertificate ep _ => below ep 2
  | .challenge ep _ => below ep 2
  | .getMeasurements ep _ => below ep 2
  | .keyExchange ep _ => below ep 2
  | .finish ep _ => below ep 2
  | .heartbeat ep _ => below ep 2
  | .keyUpdate ep _ => below ep 2
  | .endSession ep _ => below ep 2
  | .spdmUnsupportedRequest ep _ _ => below ep 2
  | .query ep session portIndex => below ep 2 && below session 0x100000000 && below portIndex 256
  | .keyProg ep session stream _ _ sub _ => below ep 2 && below session 0x100000000 && below stream 9 && below sub 8
  | .kSetGo ep session stream _ _ sub => below ep 2 && below session 0x100000000 && below stream 9 && below sub 8
  | .kSetStop ep session stream _ _ sub => below ep 2 && below session 0x100000000 && below stream 9 && below sub 8
  | .ideCheckFailed ep stream => below ep 2 && below stream 9
  | .channelEnable req c _ => req.wf && below c 4
  | .channelDisable req c _ => req.wf && below c 4
  | .channelStopDone c => below c 4
  | .tracePacketOffered source typ _ => below source 48 && below typ 256
  | .drainWriteDone c => below c 4
  | .dheadWrite req c _ => req.wf && below c 4
  | .drainStallTimeout c => below c 4
  | .drainWriteFault c status reason => below c 4 && below status 256 && below reason 256
  | .gutMark req k _ => req.wf && below k 64
  | .gsnap qp _ _ _ _ _ _ _ => below qp 4096
  | .gconn qp _ _ _ _ _ _ _ _ => below qp 4096
  | .gflush qp _ _ _ _ _ => below qp 4096
  | .gflushDone _ => true
  | .gflushTimeout _ => true
  | .pllLockTimeout d => below d 79
  | .spiResetWaitExpiry => true
  | .sfdpReadDone mode => below mode 4
  | .boardPgRise => true
  | .bootReadError => true
  | .consoleBreakEnd => true
  | .consoleLineHoldExpiry => true
  | .linkUp port => below port 64
  | .linkDown port => below port 64
  | .badFlit link how seq => below link 16 && below how 3 && below seq 1024
  | .contextWriteBackFail conn => below conn 0x100000
  | .clkreqNDeassert ep => below ep 2

end Sys2Proof
end

