-- ==== Sys2Proof/Tests/Slice0.lean ====
section
/-! SUPPORT. Tests: ill-formed commands that wellFormed refuses, the spec's worked cases, and for every statement with hypotheses a concrete
state and operands that meet them. -/

namespace Sys2Proof.Tests

open Sys2Proof Sys2Proof.Machine

set_option maxRecDepth 60000

/-! ### Small states -/

/-- The thread that tests use: rafter 16, core 0, thread 0. -/
def tT : Tid := 2048

/-- A ready thread with registers 1, 2, 3, … set. -/
def thr (g : List Nat) : Thread :=
  (g.zipIdx).foldl (fun x a => x.put (a.2 + 1) (BitVec.ofNat 64 a.1)) { st := .ready, pc := 0x2000000, tvec := 0x2000100 }

/-- Bay 1 with rafters 16 to 23, running, and the test thread as given. -/
def small (x : Thread) : State :=
  setThread (setBay (setF State.reset Fld.pwrDomStatCurState 16 0) 1
    { env := { rafterMask := 0xFF0000, hbmBase := 0, hbmSize := 0x10000000, slabMask := 1 } }) 2048 x

/-- Bay 1 with queue pairs 8 to 11, event rings 2 and 3 and a slice of HBM, in Normal mode; queue pair 9 in a state, with 64 entries. -/
def rg (st : Nat) (x : Qp) (ops : List (Nat × Op)) : State :=
  let s := setBay (setF State.reset Fld.pwrStateMode 0 1) 1
    { env := { rafterMask := 0xFF0000, hbmBase := 0, hbmSize := 0x10000000, ringFirst := 8, ringCount := 4, evrFirst := 2, evrCount := 2 }, rings := [8, 9, 10, 11] }
  let s := [(Fld.qpStatState, st), (Fld.qpCtlKind, 4), (Fld.qpCtlEventRing, 2), (Fld.qpCtlServiceRafter, 16)].foldl (fun s f => setF s f.1 9 f.2) s
  let s := setReg (setReg (setReg (setReg s .qpSqBaseHi 9 0x100) .qpSqBaseLo 9 0x10000) .qpCqBaseHi 9 0x100) .qpCqBaseLo 9 0x20000
  let s := setReg (setReg s .evrBaseHi 2 0x100) .evrBaseLo 2 0x30000
  setQp { s with ftime := 5000, rings := { s.rings with ops := ops } } 9 x
/-- An operation of queue pair 9. -/
def rgo (st : OpSt) (opcode : Nat) (opId : Dword) : Op := { src := .ring 9, opId := opId, opcode := opcode, arrival := 1000, bay := 1, st := st, pool := 0, cost := 64 }

/-! ### Ill-formed commands, one for each check of WellFormed -/

def nack : FlitAck := ⟨false, 0, 0, 0⟩
def nhdr : NHdr := { link := 0, tc := 0, fa := nack, dst := 0, hops := 0, src := 0, linkLocal := false, crs := 0, status := 0, tag := 0, arg := 0, corr := 0 }
def ncmd : NCmd := { ctrl := 0, sq := 0, cid := 0, nsid := 0, prp1 := 0, prp2 := 0, cdw10 := 0, cdw11 := 0, cdw12 := 0, list := [] }
def phdr : PktHdr := { conn := 0, psn := 0, ackreq := false, first := false, last := false, ece := false, ce := false, sec := false, tagOk := true, nonce := 0, port := 0, srcIp := 0, dstIp := 0 }
def rhdr : RemHdr := ⟨0, 0, 0⟩
theorem test_ill_formed_1 : ([.registerWrite (.vf 0 0) 0 4 0, .registerWrite (.pf 0) 0x4000000 4 0, .registerWrite (.pf 0) 0 5 0, .dozeEntry 79, .roofWakeSource 7 [], .bayReset (.pf 0) 64 false, .assignSet false 0 128, .sensorRead 0 256, .mailboxWrite 0 256 [], .accPower 0 16 0, .accPower 0 0 4, .resetWarm 0 256 0] : List Instr).all (fun c => !wellFormed c) = true := by decide
theorem test_ill_formed_2 : ([.resetWarm 0 0 256, .chainBadFrame 0 3 0 false, .chainBadFrame 0 0 256 false, .postedStoreFailure 0 0x10000000000000000 0, .postedStoreFailure 0 0 256, .epLinkUp 2 0 0 false, .epLinkUp 0 8 0 false, .epLinkUp 0 0 32 false, .flr 0 256, .configWrite 0 0 4096 0 0, .configWrite 0 0 2 0 0, .vfDoorbellWrite 0 256 0 0] : List Instr).all (fun c => !wellFormed c) = true := by decide
theorem test_ill_formed_3 : ([.msixUnmask 0 0 2048, .barePortFrame 65536 0 [], .barePortFrame 0 0x1000000000000 [], .rpLinkUp 8 false false 0 [], .rpLinkUp 0 false false 0x1000000 [], .ringEnable (.pf 0) false 4096, .eventRingDoorbell (.pf 0) 256 0, .descriptorFetch 4096 [] [], .copyDone 0 [] 256, .notifyCoalesceTimeout 3 0, .partnerRecordFill 0x100000 0, .sheddingStart 7] : List Instr).all (fun c => !wellFormed c) = true := by decide
theorem test_ill_formed_4 : ([.frameReceived 64 0 [] false, .frameReceived 0 0x10000000000000000 [] false, .ruleAdd (.pf 0) 16, .entryAgeing 4096 0, .entryAgeing 0 0x1000000000000, .dormerExpiry 65536, .sendPacket { phdr with conn := 0x100000 } [], .badEavePacket phdr 16 0, .badEavePacket phdr 0 256, .retryTimeout 0x100000, .pfcRefresh 0 8, .nawynLinkEnable (.pf 0) 16 0] : List Instr).all (fun c => !wellFormed c) = true := by decide
theorem test_ill_formed_5 : ([.nawynExchange 0 4096 false [] 0 0 false, .nakFlit 0 nack 1024, .nawynSend { nhdr with link := 17 } [], .readTimeout 0x100000000, .messageStart 17 0 [], .messageStart 0 8 [], .windowInstanceEnd 0 64 0, .ptpTimestamp 0 false 16 0, .ptpTimestamp 0 false 0 65536, .loftPoolTailWrite (.pf 0) 64 0, .groupCopyDone 256, .nvmeSqDoorbell 128 0 0] : List Instr).all (fun c => !wellFormed c) = true := by decide
theorem test_ill_formed_6 : ([.nvmeSqDoorbell 0 65 0, .nvmeSqDoorbell 0 0 65536, .createIoSubmissionQueue { ncmd with ctrl := 128 }, .backendCompletion 0 8 0 false [], .backendCompletion 0 0 256 false [], .namespaceValidWrite (.pf 0) 0 16 0, .query 0 0x100000000 0, .query 0 0 256, .keyProg 0 0 9 false false 0 [], .keyProg 0 0 0 false false 8 [], .channelEnable (.pf 0) 4 0, .tracePacketOffered 48 0 []] : List Instr).all (fun c => !wellFormed c) = true := by decide
theorem test_ill_formed_7 : ([.tracePacketOffered 0 256 [], .drainWriteFault 0 0 256, .gutMark (.pf 0) 64 0, .sfdpReadDone 4, .badFlit 0 3 0] : List Instr).all (fun c => !wellFormed c) = true := by decide
theorem test_ill_formed_headers : ([.registerWrite (.pf 2) 0 4 0, .registerWrite (.vf 0 256) 0 4 0, .nawynSend { nhdr with tc := 8 } [], .nawynSend { nhdr with dst := 4096 } [], .nawynSend { nhdr with hops := 16 } [], .nawynSend { nhdr with src := 4096 } [], .nawynSend { nhdr with crs := 256 } [], .nawynSend { nhdr with status := 256 } [], .nawynSend { nhdr with tag := 0x100000000 } [], .nvmeRead { ncmd with sq := 65 }, .nvmeRead { ncmd with cid := 65536 }, .nvmeRead { ncmd with list := [0x10000000000000000] }] : List Instr).all (fun c => !wellFormed c) = true := by decide
theorem test_well_formed : ([.registerWrite (.pf 0) 0 4 0, .nawynSend nhdr [], .nvmeRead ncmd, .sendPacket phdr [], .powerLoss] : List Instr).all wellFormed = true := by decide

/-! ### Worked cases of the spec -/

/-- No row of the command table has bits. -/
theorem test_decode_none : decodeTableWord 32 5 = none := by decide
/-- 05, worked case: the word of a MOVB. -/
theorem test_movb_word : decodeOlx 0xB54B6030 0 = some (.long .movb 3 false false 10 11 12) := by decide
/-- 05 R152: CRCB over "123456789" from 0xFFFF_FFFF leaves 0x1CF9_6D7C. -/
theorem test_crcb : ([0x31, 0x32, 0x33, 0x34, 0x35, 0x36, 0x37, 0x38, 0x39] : List Byte).foldl crcByte 0xFFFFFFFF = 0x1CF96D7C := by decide
/-- 05 R153, 09 worked case: bit 0 of byte 2 under a key of 0x6D bytes hashes to 0xB6B6_B6B6. -/
theorem test_toeplitz : toeplitzByte (List.replicate 40 0x6D) 2 1 0 = 0xB6B6B6B6 := by decide
/-- 08, worked case: the entry of slot 3. -/
theorem test_completion_bytes : ({ opId := 0x14, result := 0, queued := 151200, status := 0x24, judged := 1, pool := 0, ext := 0, delayed := true, now := false } : Completion).bytes 0x403 6 1 =
    [0x14, 0, 0, 0, 0, 0, 0, 0, 0, 0, 0, 0, 0, 0, 0, 0, 0xA0, 0x4E, 2, 0, 0, 0, 6, 0, 0x24, 1, 3, 4, 0, 0, 0, 3] := by decide
/-- 11, worked case: the first flit of A, and the flits of four messages. -/
theorem test_flit_header : ({ ftype := 1, tc := 3, som := true, seq := 0x17A, ack := 0xC4, ackValid := true, crTc := 3, crCount := 12 } : FlitHead).num = 0x18E622F4B1 := by decide
theorem test_msg_flits : msgFlits 262144 = 1111 ∧ msgFlits 16384 = 70 ∧ msgFlits 1048576 = 4444 ∧ msgFlits 460412 = 1951 ∧ msgFlits 7760 = 33 := by decide
/-- 12, worked case: padding and tokens of the batch. -/
theorem test_loft_sums : loftSums [(0, 3000000), (0, 1200005), (0, 40000)] = (4759995, 4240005) := by decide
/-- 13, worked case: the manifest area of a slot of 615 units. -/
theorem test_manifest_area : ulAreaSize (setF State.reset Fld.ulSlotSize 0 615) = 81657856 := by decide
/-- 14, worked case: 1,500 ns from the doorbell, judged E in pool 4. -/
theorem test_judged_byte : judgedByte 1 4 = 0x11 ∧ judgedByte 1 0 = 1 := by decide
/-- 15, worked case: the bins of 1,320 ns of lateness and of 151,200 ns of queued_ns. -/
theorem test_bins : binOf 8 1320 = 8 ∧ binOf 256 151200 = 10 := by decide

/-! ### Witnesses of the statements -/

namespace P01

/-- StepRunsFront has no hypothesis; here is one step. -/
theorem test_step_front : step { State.reset with pending := [.powerOnResetExit] } = exec .powerOnResetExit State.reset := rfl

theorem wit_IntegerAluResults : Issues (small (thr [1, 2, 3])) tT (.alu .add true 3 1 2) ∧ Issues (small (thr [1, 2, 3])) tT (.alu .sextb false 0 31 0) := by
  unfold Issues; decide

end P01

namespace P02

theorem wit_ImmediateResults : Issues (small (thr [1, 2, 3])) tT (.imm .addi 3 1 0xFFFF) ∧ Issues (small (thr [1, 2, 3])) tT (.shi .rotr true 3 1 63) ∧
    Issues (small (thr [1, 2, 3])) tT (.ext .addix 0 1 0) ∧ Issues (small (thr [1, 2, 3])) tT (.lui 3 0x8000) ∧ Issues (small (thr [])) tT (.luix 31 1) := by
  unfold Issues; decide

theorem wit_MultiplyDivideResults : Issues (small (thr [1, 0, 3])) tT (.muldiv .div false 3 1 2) ∧ Issues (small (thr [1, 0, 3])) tT (.muldiv .mul true 0 1 1) := by
  unfold Issues; decide

theorem wit_FloatResults : Issues (small (thr [1, 2, 3])) tT (.fp .madd 2 false false false 3 1 2) ∧ Issues (small (thr [1, 2, 3])) tT (.fp .cvtN 4 true true true 3 1 2) ∧
    Issues (small (thr [1, 2, 3])) tT (.fp .sqrt 0 false false false 3 1 0) := by
  unfold Issues; decide

theorem wit_ControlFlowTargets : Issues (small (thr [1, 2, 0x2000002])) tT (.br .bltu 1 2 0xFFFF) ∧ Issues (small (thr [1, 2, 0x2000002])) tT (.jalr 3 3 2) ∧
    (regOf (small (thr [1, 2, 0x2000002])) tT 3 + (2 : Half).signExtend 64).toNat % 4 = 0 ∧ (regOf (small (thr [1, 2, 0x2000002])) tT 3 + (0 : Half).signExtend 64).toNat % 4 ≠ 0 ∧
    Issues (small (thr [1, 2])) tT (.djnzl 1 0) ∧ Issues (small (thr [1, 2])) tT (.jal 0) := by
  unfold Issues; decide

end P02

namespace P03

theorem wit_BitInstructions_private : Issues (small (thr [0x10005])) tT (.bitop .set 7 0 0) ∧ bitOfSpec (threadOf (small (thr [0x10005])) 2048) 7 = .ok 7 ∧
    bitAllowed (small (thr [0x10005])) 2048 7 .change = true := by unfold Issues; decide
theorem wit_BitInstructions_shared : Issues (small (thr [0x10005])) tT (.bitop .tas 257 3 0) ∧ bitOfSpec (threadOf (small (thr [0x10005])) 2048) 257 = .ok 0x10005 ∧
    bitAllowed (small (thr [0x10005])) 2048 0x10005 .change = true := by unfold Issues; decide
theorem wit_BitInstructions_refused : bitOfSpec (threadOf (small (thr [0x1000000])) 2048) 257 = .error 0x1000000 ∧
    bitOfSpec (threadOf (small (thr [0x810000])) 2048) 257 = .ok 0x810000 ∧ bitAllowed (small (thr [0x810000])) 2048 0x810000 .change = false ∧
    Issues (small (thr [0x810000])) tT (.bitop .set 257 0 0) := by unfold Issues; decide

theorem wit_BitReadBack : ((255 : Nat) < 0x100 ∧ (0x1FFFF : Nat) ≠ 255) ∧ (0x800000 : Nat) ≤ 0x800FFF ∧ (0x800FFF : Nat) < 0x801000 := by decide

theorem wit_BoundsChecks : Issues (small (thr [5, 3, 6])) tT (.chk false 3 1 2) ∧ Issues (small (thr [5, 6, 3])) tT (.chk true 3 1 2) ∧ Issues (small (thr [0x1FFFFF])) tT (.chki 1 0x1FFFFF) ∧
    Issues (small (thr [5, 0x2000010])) tT (.chkd true 1 2) ∧ Issues (small (thr [5, 0x2000018])) tT (.chkd true 1 2) := by unfold Issues; decide
theorem wit_BoundsChecks_chkd : (match (accessWay (small (thr [5, 0x2000010])) 2048 0x2000010 8 .read).1 with
    | .ok w => w.cls.isMem && w.mtype == 0
    | .error _ => false) = true := by decide

end P03

namespace P04

theorem wit_SystemRegisterAccess : Issues (small (thr [7])) tT (.mfs 3 0x10) ∧ Issues (small (thr [7])) tT (.mfs 3 0x7F) ∧ Issues (small (thr [7])) tT (.mts 1 0x1E) ∧
    Issues (small (thr [7])) tT (.mts 1 0x1B) ∧ Issues (small (thr [7])) tT (.mts 1 0) ∧ Issues (small (thr [7])) tT (.mts 1 0x20) ∧ Issues (small (thr [7])) tT (.mts 1 0x22) ∧
    Issues (small (thr [7])) tT (.mts 1 0x21) := by unfold Issues; decide
/-- Thread 2049 is parked in the same bay; thread 0 is in no bay. -/
theorem wit_SystemRegisterAccess_tctl :
    (∀ v ∈ [2049 + 2 ^ 13, 2049 + 2 ^ 14, 2048 + 2 ^ 13, 0 + 2 ^ 14], Issues (small (thr [v])) tT (.mts 1 0x1D)) ∧
    bayOfTid (afterFetch (small (thr [2049 + 2 ^ 13])) tT) 2049 = bayOfTid (afterFetch (small (thr [2049 + 2 ^ 13])) tT) 2048 ∧
    (threadOf (small (thr [2049 + 2 ^ 13])) 2049).st = .parked ∧ (threadOf (small (thr [2048 + 2 ^ 13])) 2048).st ≠ .parked ∧
    bayOfTid (afterFetch (small (thr [0 + 2 ^ 14])) tT) 0 ≠ bayOfTid (afterFetch (small (thr [0 + 2 ^ 14])) tT) 2048 := by
  unfold Issues; decide

theorem wit_TrapEntry : Issues (small (thr [7])) tT (.swtrap 127) ∧ Issues (small (thr [7])) tT .brk ∧ decodeOlx 0 0 = none ∧ Issues (small (thr [7])) tT (.cop 3 1 0 0 0) ∧
    Issues (small (thr [7])) tT .eret ∧ (thr [7]).inTrap = false ∧ (thr [7]).tvec ≠ 0 := by unfold Issues; decide
theorem wit_TrapEntry_handler : Issues (small { thr [7] with inTrap := true, epc := 8 }) tT .eret ∧ Issues (small { thr [7] with inTrap := true, epc := 6 }) tT .eret := by unfold Issues; decide

def swt : State := match exec (.swtrap tT 5) (small (thr [7])) with
  | .next u => u
  | _ => State.reset
theorem wit_TrapThenReturn : exec (.swtrap tT 5) (small (thr [7])) = .next swt ∧ Issues swt tT .eret ∧
    (threadOf (small (thr [7])) 2048).inTrap = false ∧ (threadOf (small (thr [7])) 2048).tvec ≠ 0 := by
  refine ⟨rfl, ?_, ?_, ?_⟩
  · unfold Issues; decide
  · decide
  · decide

theorem wit_FencesAndWaits : Issues (small (thr [256])) tT (.fence .acq) ∧ Issues (small (thr [65536, 1, 5])) tT (.wait true true 3 1 2) ∧
    Issues (small { thr [256] with posted := [8] }) tT (.fence .rel) ∧ oneRange 65536 = true ∧ waitRefused (small (thr [])) 2048 65536 1 true = none := by
  unfold Issues; decide
theorem wit_FencesAndWaits_ends : ∀ d ∈ [1, 0], let x : Thread := { thr [] with st := .waiting, priv := BitVec.ofNat 256 d, wait := some { base := 0, mask := 1, all := false, clr := false, rd := 1, deadline := some 5 } }
    let u := latchWake { small x with ftime := 5 } 16 5
    domUp (small x) 16 = true ∧ (threadOf (small x) 2048).st = .waiting ∧ (sample (small x) 2048 0 1 ≠ 0 ↔ d = 1) ∧
    domUp u 16 = true ∧ threadOf u 2048 = threadOf (small x) 2048 ∧ (sample u 2048 0 1 ≠ 0 ↔ d = 1) := by decide
theorem wit_FencesAndWaits_int : let s := small { thr [] with ie := true, imask := 5, intStrike := true, tdeadline := 100 }
    domUp s 16 = true ∧ takeable s 2048 = some 2 := by decide

end P04

namespace P05

theorem wit_LoadResults : let s := small (thr [0x2000010, 0x2000018])
    Issues s tT (.load .ld 3 1 0xFFF8) ∧ (match accessWay (afterFetch s tT) 2048 0x2000008 8 .read with
      | (.ok w, _) => w.cls.isMem && w.mtype == 0
      | _ => false) = true ∧ (threadOf s 2048).loads = [] ∧ traced s 2048 = false ∧ Issues s tT (.load .lw 3 1 2) ∧ Issues s tT (.extLoad .ldx 3 1 (BitVec.ofNat 42 (2 ^ 41))) := by
  unfold Issues; decide

theorem wit_StoreResults : let s := small (thr [0x2000010, 0x1122334455667788])
    Issues s tT (.store .sd 2 1 0xFFF8) ∧ (match accessWay (afterFetch s tT) 2048 0x2000008 8 .write with
      | (.ok w, _) => w.cls.isMem
      | _ => false) = true ∧ traced s 2048 = false ∧ Issues s tT (.store .sw 2 1 2) ∧ Issues s tT (.extStore .swx 2 1 4) := by
  unfold Issues; decide

theorem wit_AtomicResults : ∀ dw, let s := small (thr [0x2000018, 7, 9])
    Issues s tT (.amo .cas dw true true 3 1 2) ∧ (match accessWay (afterFetch s tT) 2048 0x2000018 (if dw then 8 else 4) .atomic with
      | (.ok w, _) => w.cls.isMem
      | _ => false) = true ∧ traced s 2048 = false ∧ (threadOf s 2048).posted = [] := by
  unfold Issues; decide
theorem wit_AtomicResults_misaligned : Issues (small { thr [0x2000014, 7, 9] with posted := [8] }) tT (.amo .max true false true 3 1 2) := by unfold Issues; decide

def heldThr : Thread := { thr [1, 2] with st := .blocked, block := some { rd := 3, val := none, npc := 0x2000004, addr := 0x2000000, size := 8 } }
theorem wit_HeldAccessEnds : (threadOf (small heldThr) 2048).block = some { rd := 3, val := none, npc := 0x2000004, addr := 0x2000000, size := 8 } ∧
    classOf 0x2000000 ≠ some .ctrl := by decide
theorem wit_HeldAccessEnds_load : let x : Thread := { thr [1, 2] with loads := [{ rd := 3, val := 5, addr := 0x2000000, pc := 0x2000000 }], posted := [8] }
    (threadOf (small x) 2048) = x ∧ domUp (small x) (tidRafter 2048) = true ∧ takeable (small x) 2048 = none ∧ x.intStore = none ∧ 8 ∈ x.posted := by decide

def longThr : Thread := { thr [0x2000010, 0x2000020, 2] with hkeyAddr := 0x2000040, hkeyLen := 5 }
theorem wit_RoutineSteps : Issues (small longThr) tT (.long .movb 2 false false 1 2 3) ∧ Issues (small longThr) tT (.long .fill 2 true false 1 2 3) ∧
    Issues (small longThr) tT (.long .scanb 2 true true 1 2 3) ∧ Issues (small longThr) tT (.long .crcb 0 false false 1 2 3) ∧
    Issues (small longThr) tT (.long .hashb 0 false false 1 2 3) ∧ Issues (small (thr [0x2000011, 1, 0])) tT (.long .fill 1 false false 1 2 3) := by unfold Issues; decide
theorem wit_RoutineSteps_access : (loadOne (afterFetch (small longThr) tT) 2048 0x2000020 4 ⟨.long .movb 2 false false 1 2 3, 1, [], 0⟩).1.isSome = true ∧
    threadOf (loadOne (afterFetch (small longThr) tT) 2048 0x2000020 4 ⟨.long .movb 2 false false 1 2 3, 1, [], 0⟩).2 2048 = longThr ∧
    (match (accessWay (loadOne (afterFetch (small longThr) tT) 2048 0x2000020 4 ⟨.long .movb 2 false false 1 2 3, 1, [], 0⟩).2 2048 0x2000010 4 .write).1 with
      | .ok w => w.cls.isMem
      | _ => false) = true := by refine ⟨rfl, rfl, rfl⟩
theorem wit_RoutineSteps_hash : (match (loadKey 2048 0x2000040 ⟨.hashb, 0, false, false, 1, 2, 3⟩ 1 [] 5 0 (afterFetch (small longThr) tT) []).1 with
    | some key => key.length == 5
    | none => false) = true := rfl

end P05

namespace P06

theorem wit_CoprocessorResults_loft : ∀ c ∈ [(1 : BitVec 12), 2, 3, 4, 5], Issues (small (thr [0x2000000])) tT (.cop 0 1 1 1 c) := by unfold Issues; decide
theorem wit_CoprocessorResults_other : ∀ c ∈ [(1 : BitVec 12), 2, 3], Issues (small (thr [0x2000000])) tT (.cop 1 1 1 1 c) ∧ Issues (small (thr [0x2000000])) tT (.cop 2 1 1 1 c) := by
  unfold Issues; decide
theorem wit_CoprocessorResults_version : Issues (small (thr [0x2000000])) tT (.cop 0 2 1 1 1) := by unfold Issues; decide
theorem wit_CoprocessorResults_shash : copReach (afterFetch (small (thr [0x2000000])) tT) 2048 0x2000000 64 .read = true ∧
    chainEndOf (small (thr [0x2000000])) 5 0 0 = none ∧ biasSet (small (thr [0x2000000])) 7 = none := by decide

def slabS : State := { small (thr [1]) with thatch := { (small (thr [1])).thatch with slabs := [(0, { inReset := false, version := 2, clockMhz := 100, latencyMax := 10 })] } }
theorem wit_SlabInstructions : Issues slabS tT (.cop 4 2 1 1 9) ∧ Issues slabS tT (.cop 4 3 1 1 9) ∧ Issues (small (thr [1])) tT (.cop 4 2 1 1 9) ∧ Issues slabS tT (.cop 5 2 1 1 9) ∧
    bitN (envOf (afterFetch slabS tT) ((bayOfTid (afterFetch slabS tT) 2048).getD 64)).slabMask 0 = true ∧
    bitN (envOf (afterFetch slabS tT) ((bayOfTid (afterFetch slabS tT) 2048).getD 64)).slabMask 1 = false := by unfold Issues; decide
theorem wit_SlabInstructions_mem : bayOfSlab slabS 0 = some 1 ∧ slabReach slabS 1 0x2000000 64 .write = true ∧ slabReach slabS 1 0x2000000 64 .read = true ∧
    slabReach slabS 1 0x9000000 1 .read = false := by decide

end P06

namespace P07

/-- A state with one domain as the Ridge keeps it, in a state of its own. -/
def dm (d st : Nat) (x : Dom) : State := setDom (setF (setF (setF State.reset Fld.pwrDomStatCurState d st) Fld.pwrDomStatOffPending d 1) Fld.pwrDomCtlIdleFloor d 2) d x
theorem wit_DomainPowerSteps : ∀ st ∈ [0, 1, 2], let s := dm 20 st { phase := .stable, enabled := true, started := true }
    (domOf s 20).phase = .stable ∧ s.ridge.roof = .awake ∧ (domOf s 20).enabled = true ∧ domState s 20 = st ∧ domIdle s 20 = true ∧ getF s Fld.pwrDomCtlIdleFloor 20 = 2 ∧
    domLimited s 20 = false ∧ getF s Fld.pwrDomStatOffPending 20 = 1 := by decide
theorem wit_DomainPowerSteps_phases : ∀ p ∈ [DomPhase.entry true, .past false false, .past true false, .waking], (domOf (dm 20 3 { phase := p }) 20).phase = p ∧ (dm 20 3 { phase := p }).ridge.roof = .awake ∧
    (∀ b, bayOfRafter (dm 20 3 { phase := p }) 20 ≠ some b) ∧ domState (dm 20 3 { phase := p }) 20 = 3 := by
  intro p hp; refine ⟨by revert p; decide, by revert p; decide, ?_, by revert p; decide⟩
  intro b; have : bayOfRafter (dm 20 3 { phase := p }) 20 = none := by revert p; decide
  simp [this]
theorem wit_DomainPowerSteps_purlin : domUp (setF State.reset Fld.pwrDomStatCurState 74 0) 74 = true ∧ (domOf (dm 74 2 { phase := .past false true }) 74).phase = .past false true ∧
    Requester.isPf (.pf 1) = true ∧ bayOfTid State.reset 0 = none := by decide

/-- A state in which Roof Sleep stands so, with source 0 and 6 enabled and the timer set. -/
def rf (r : Roof) : State := setRoof (setReg (setReg (setF State.reset Fld.pwrStateThermalHold 0 1) .pwrRoofWakeEn 0 0x41) .pwrRoofTimer 0 5) r
theorem wit_RoofSleepSteps : ∀ r ∈ [Roof.entry [], .past none, .asleep, .exiting false, .exiting true], (rf r).ridge.roof = r ∧ (getReg (rf r) .pwrRoofWakeEn 0).getLsbD 6 = true ∧
    (getReg (rf r) .pwrRoofWakeEn 0).getLsbD 0 = true ∧ (getReg (rf r) .pwrRoofWakeEn 0).getLsbD 1 = false ∧ getReg (rf r) .pwrRoofTimer 0 ≠ 0 ∧ getF (rf r) Fld.pwrStateThermalHold 0 = 1 ∧
    (List.range 64).any (bayExists (rf r)) = false := by decide
/-- Both endpoints in D3hot, Normal mode, Roof Sleep allowed, every rafter Off. -/
def sleepy : State := setF (setF (setF (setF State.reset Fld.identEpDstateDstate 0 3) Fld.identEpDstateDstate 1 3) Fld.pwrStateRoofAllowed 0 1) Fld.pwrStateMode 0 1
theorem wit_RoofSleepSteps_conditions : roofConditions sleepy = true ∧ sleepy.ridge.roof = .awake := by decide

end P07

namespace P08

theorem wit_ResetCommands : ((coldReset State.reset).ridge.por = true) ∧ State.reset.ridge.detecting = true ∧ State.reset.ridge.por = false ∧
    bayExists (small (thr [])) 1 = true ∧ (bayOf (small (thr [])) 1).struck = false ∧ Requester.isPf (.pf 0) = true ∧ Requester.isPf (.thread 0) = false := by decide
/-- A running device: an attempt counted, detection over, a bay reset under way, a backoff and a Tarp entry. -/
def run (lo pg : Bool) : State := let s := setF (setF State.reset Fld.bootAttempts 0 1) Fld.pwrStateMode 0 2
  { s with ridge := { s.ridge with detecting := false, resetLow := lo, pgLow := pg, resetting := [1], backoffEnd := some 7, tarpEntry := some false } }
theorem wit_ResetCommands_run : ∀ lo pg, (run lo pg).ridge.resetLow = lo ∧ (run lo pg).ridge.pgLow = pg ∧ (run lo pg).ridge.por = false ∧ getF (run lo pg) Fld.bootAttempts 0 ≠ 0 ∧
    getF (run lo pg) Fld.pwrStateClkSrc 0 = 0 ∧ 1 ∈ (run lo pg).ridge.resetting ∧ mode (run lo pg) = 2 ∧ (getF (run lo pg) Fld.pwrStateTarpSeen 0).testBit 5 = false ∧ (run lo pg).rings.ops = [] ∧
    (bootHeld (run false false) = false) := by decide

/-- A state with a boot attempt. -/
def att (a : Attempt) : State := setAttempt { State.reset with ridge := { State.reset.ridge with firstCycle := false } } (some a)
def goodHdr : List Byte := leBytes 4 0x544F4F42 ++ leBytes 2 1 ++ leBytes 2 0 ++ leBytes 8 (128 + 10880 + 64 + 0 + 4736) ++ leBytes 4 0 ++ leBytes 4 64 ++ leBytes 8 0 ++ List.replicate 96 0
theorem wit_BootSteps_header : goodHdr.length = 128 ∧ bootHeaderOk goodHdr = true ∧ bootHeaderOk (List.replicate 128 0) = false := by decide
theorem wit_BootSteps : ∀ g ∈ [BootStage.spiReset, .sfdp, .header, .hashing], ∀ src ∈ [1, 4, 5], ∀ l ∈ [0, 15], let a : Attempt := { slot := 1, src := src, stage := g, link := l }
    (att a).ridge.attempt = some a ∧ a.path = none ∧ a.size = 0 ∧ a.image = [] := by decide
theorem wit_BootSteps_body : let a : Attempt := { slot := 1, src := 1, stage := .body, size := 200, image := List.replicate 128 7 }
    (att a).ridge.attempt = some a ∧ (List.replicate 200 (7 : Byte)).length = a.size ∧ (List.replicate 200 (7 : Byte)).take 128 = a.image.take 128 := by decide
theorem wit_BootSteps_slots : slotSrc (att { slot := 0, src := 1, stage := .sfdp }) 1 ∈ [1, 2, 3, 4] ∧ getF (att { slot := 0, src := 1, stage := .sfdp }) Fld.bootAttempts 0 < 2 ^ 32 - 1 ∧
    (att { slot := 4, src := 1, stage := .sfdp }).ridge.firstCycle = false := by decide

end P08

namespace P09

/-- Accelerator n in a state, with a step of its sequencer. -/
def ac (n st en pg step : Nat) : State := setAcc (setF (setF (setF State.reset Fld.pwrAccStatState n st) Fld.pwrAccStatPwrEn n en) Fld.pwrAccStatPg n pg) n { step := step }
theorem wit_AcceleratorSteps : ∀ p ∈ [(0, 0, 0, 0), (0, 0, 1, 0), (2, 1, 1, 0), (3, 1, 1, 0), (1, 1, 0, 1), (1, 1, 1, 2), (4, 1, 1, 3), (2, 1, 1, 4)],
    let s := ac 15 p.1 p.2.1 p.2.2.1 p.2.2.2
    (accOf s 15).step = p.2.2.2 ∧ (accOf s 15).request = 0 ∧ getF s Fld.pwrThermStatTripped 0 = 0 ∧ getF s Fld.pwrAccStatState 15 = p.1 ∧ getF s Fld.pwrAccStatPwrEn 15 = p.2.1 ∧
      getF s Fld.pwrAccStatPg 15 = p.2.2.1 := by decide
theorem wit_AcceleratorSteps_trip : ∀ en ∈ [0, 1], (∀ k, k < 15 → getF (ac 15 0 en 0 0) Fld.pwrAccStatPwrEn k = 0) ∧ getF (ac 15 0 en 0 0) Fld.pwrAccStatPwrEn 15 = en := by decide

/-- A unit addressed at 0x6B, with or without ctl_lock. -/
def ch (lock : Nat) (c : Chain) : State := setF { setF (setF State.reset Fld.pwrChainAddrAddressed 0 1) Fld.pwrChainAddrAddress 0 0x6B with chain := c } Fld.pwrChainCtlCtlLock 0 lock
theorem wit_ChainFrames : ∀ l ∈ [0, 1], chainMine (ch l {}) 0x6B = true ∧ chainMine (ch l {}) 0x10 = false ∧ getF (ch l {}) Fld.pwrChainCtlCtlLock 0 = l ∧ inReset State.reset = false ∧
    getF State.reset Fld.pwrChainAddrAddressed 0 = 0 ∧ (ch l { msgOut := [1, 2] }).chain.msgOut = [1, 2] ∧
    chainMine (ch l { msgOut := [1, 2] }) 0x6B = true ∧ (ch l {}).ridge.roof = .awake ∧ chainMine (setRoof (ch l {}) .asleep) 0x6B = true := by decide
theorem wit_ChainFrames_uid : let s := setReg (setReg State.reset .pwrUnitIdLo 0 5) .pwrUnitIdHi 0 0
    (5 : Dword).toNat = unitId s ∧ inReset s = false ∧ getF s Fld.pwrChainAddrAddressed 0 = 0 := by
  refine ⟨?_, rfl, ?_⟩ <;> simp [unitId, getF, getReg_setReg] <;> rfl

/-- A state with the console as given. -/
def con (c : Console) : State := { State.reset with console := c }
theorem wit_ConsoleAndSensors : (con { inBreak := true }).console.inBreak = true ∧ (con { rx := List.replicate 64 (7, false) }).console.rx.length = 64 ∧ (con { rx := [(7, true)] }).console.rx = [(7, true)] ∧
    (con { tx := List.replicate 64 7, sending := some 1 }).console.tx.length = 64 ∧ (con { sending := some 0x0A }).console.sending = some 0x0A ∧ (con { midLine := true }).console.midLine = true ∧
    (con {}).console.logWaiting = 0 ∧ (con {}).ridge.roof = .awake := by decide
theorem wit_ConsoleAndSensors_temps : (List.replicate 16 tempNone).length = 16 ∧ (∀ i, i < 16 → (List.replicate 16 tempNone)[i]? = some tempNone) ∧
(0 : Half) ≠ tempNone := by decide

end P09

namespace P10

/-- A message on the chain's path: type, payload. -/
def mb (t : Nat) (body : List Byte) : List Byte := mbxBytes 2 t 0 7 0 body
def mq (p : Nat) (bs : List Byte) (a : Option Attempt) : State :=
  let s := setF (setAttempt State.reset a) Fld.pwrChainCtlCtlLock 0 1
  { s with host := { s.host with ridgeQ := [(p, bs, 9)] }, ridge := { s.ridge with barePort := true } }
theorem wit_MailboxMessages : ∀ q ∈ [(1, []), (2, []), (0x20, []), (0x30, []), (0x31, [0xA5, 0x5A]), (0x31, [1, 2]), (0x32, [15, 3]), (0x10, List.replicate 8 0), (0x11, List.replicate 9 0), (0x12, ([] : List Byte))],
    msgType (mb q.1 q.2) = q.1 ∧ msgLen 2 (mb q.1 q.2) = q.2.length ∧ msgPayload 2 (mb q.1 q.2) = q.2 := by decide
theorem wit_MailboxMessages_state : getF (mq 2 (mb 1 []) none) Fld.pwrChainCtlCtlLock 0 = 1 ∧ getF State.reset Fld.pwrChainCtlCtlLock 0 ≠ 1 ∧ msgLen 2 (mb 1 [5]) = 1 ∧
    pushPath { slot := 0, src := 3, stage := .waiting } 1 = true ∧ inReset (mq 2 (mb 1 []) none) = false ∧ (mq 2 (mb 1 []) none).ridge.barePort = true := by decide
theorem wit_MailboxMessages_push : let a : Attempt := { slot := 0, src := 3, stage := .body, path := some 2, size := 16, image := List.replicate 8 0 ++ leBytes 8 16 }
    a.size = a.image.length ∧ a.size = leAt a.image 8 8 ∧ a.stage ≠ .hashing := by decide

/-- A reload of bay 1 in a phase and at a stage. -/
def rl (ph st : Nat) (q : Bool) : State :=
  let s := setF (setF (setReg (small (thr [])) .thatchStat 0 (BitVec.ofNat 64 (ph + 256))) Fld.pwrStateMode 0 1) Fld.thatchSrcLen 0 64
  { setBay s 1 { bayOf s 1 with struck := true, quiesced := q } with thatch := { (setBay s 1 { bayOf s 1 with struck := true, quiesced := q }).thatch with stage := st } }
theorem wit_ThatchReloadSteps : ∀ p ∈ [(0, 0), (1, 1), (1, 2), (1, 3), (1, 4), (1, 5), (2, 4), (3, 4), (6, 0)], ∀ q, let s := rl p.1 p.2 q
    phase s = p.1 ∧ s.thatch.stage = p.2 ∧ curBay s = 1 ∧ bayExists s 1 = true ∧ bayExists s 2 = false ∧ (bayOf s 1).struck = true ∧ (bayOf s 1).quiesced = q ∧ hostClosed s (.pf 0) = false ∧
      Requester.isPf (.pf 0) = true ∧ Requester.bay s (.thread 2048) = some 1 ∧ hostClosed s (.thread 2048) = false := by decide
theorem wit_ThatchReloadSteps_more : srcLen (rl 0 0 true) = 64 ∧ srcReadable (rl 1 1 true) = true ∧ (fetched (rl 1 1 true) []).length = 64 ∧ getF (rl 1 1 true) Fld.thatchBayStatHoldExpired 1 = 0 ∧
    (rl 1 1 true).ridge.loading = false ∧ (rl 1 1 true).thatch.auto = false ∧ (rl 1 1 true).rings.ops = [] ∧
    (domOf (setDom State.reset 20 { phase := .waking }) 20).phase = .waking ∧ domState (setDom State.reset 20 { phase := .waking }) 20 = 3 := by decide

end P10

namespace P11

theorem wit_ControlSpaceWrites : ctlBad 2 4 true = true ∧ ctlBad 2 4 false = true ∧ ctlBad 0x3C00000 16 true = true ∧ ctlBad 1 8 false = true ∧ ctlBad 0x3C00000 4 true = false ∧
    hostClosed State.reset (.pf 0) = true ∧ ctlOpen 0x400000 = false ∧ ctlBad 0x400000 4 true = false ∧ ctlOpen 0x3C00000 = true ∧ Reg.at? 0x3C00000 = some (.pwrState, 0) ∧
    ctlBad 0x3FFFFF8 8 true = false ∧ Reg.at? 0x3FFFFF8 = none := by decide
theorem wit_ControlSpaceWrites_req : Requester.isPf (.pf 1) = true ∧ Requester.isPf (.thread 0) = false ∧ (threadOf (small (thr [])) 2048).st = .ready ∧ bayExists (small (thr [])) 1 = true ∧
    (envOf (small (thr [])) 1).powerBudget < 1 := by decide

end P11

namespace P12

/-- Endpoint 1 with its link up at x16, a PF in a state and its configuration. -/
def hf (up : Nat) (f : Fn) : State := setFn (setF (setF (setF State.reset Fld.identEpLinkLinkUp 1 up) Fld.identEpLinkL0pWidth 1 16) Fld.identEpDstateDstate 1 f.dstate) 1 0 f
theorem wit_HostLinksAndStops : ∀ up ∈ [0, 1], ∀ f ∈ [({} : Fn), { inFlr := true }, { stopCause := 7 }, { dstate := 3, pmeStatus := true }, { cfg := [(4, 4)] }, { cfg := [(0x158, 1)] }],
    getF (hf up f) Fld.identEpLinkLinkUp 1 = up ∧ fnOf (hf up f) 1 0 = f ∧ getF (hf up f) Fld.identEpDstatePerst 1 = 0 ∧ (hf up f).rings.ops = [] ∧ (hf up f).ridge.roof = .awake := by decide
theorem getReg_setFn (s : State) (ep n : Nat) (f : Fn) (r : Reg) (i : Nat) : getReg (setFn s ep n f) r i = getReg s r i := rfl
theorem qp_idle (f : Fn) (q : Nat) : getF (setFn State.reset 1 0 f) Fld.qpStatState q = 0 := by
  have h : getReg State.reset .qpStat q = Reg.resetVal .qpStat q := rfl
  have k : Reg.resetVal .qpStat q = 0 := by unfold Reg.resetVal; rw [show Reg.special .qpStat q = none from rfl]; decide
  show fieldOf (getReg (setFn State.reset 1 0 f) .qpStat q).toNat 1 0 = 0
  rw [getReg_setFn, h, k]; decide
theorem wit_HostLinksAndStops_bits : cfgBit (hf 1 { cfg := [(4, 4)] }) 1 0 cfgCommand 2 = true ∧ cfgBit (hf 1 { cfg := [(0x158, 1)] }) 1 0 cfgSriov 0 = true ∧ cfgBit (hf 1 {}) 1 0 cfgSriov 0 = false ∧
    getF (setF State.reset Fld.identEpDstatePerst 1 1) Fld.identEpDstatePerst 1 = 1 ∧ (Tab.get {} State.reset.host.rootPorts 7).up = false ∧
    (Tab.get {} (setRootPort State.reset 7 { up := true }).host.rootPorts 7).up = true := by decide

/-- Endpoint 1 up in Normal mode with a VF, an aperture at HBM's start and a VF queue-pair range. -/
def ha (f : Fn) : State :=
  let s := setFn (setF (setF (setF (setF State.reset Fld.identEpLinkLinkUp 1 1) Fld.pwrStateMode 0 1) Fld.identEpVfQpFirst (256 + 3) 8) Fld.identEpVfQpCount (256 + 3) 2) 1 0 { cfg := [(0x158, 1), (0x160, 5)] }
  setFn (setF (setF (setF (setF s Fld.qpCtlEp 9 1) Fld.qpCtlFunc 9 3) Fld.identEpAperWrEn 256 1) Fld.identEpAperRdEn 256 1) 1 3 f
theorem wit_HostAccesses : hostUp (ha {}) 1 = true ∧ fnExists (ha {}) 1 3 = true ∧ fnExists (ha {}) 1 9 = false ∧ mode (ha {}) = 1 ∧ ctrlOfFn (ha {}) 1 3 = none ∧
    getF (ha {}) Fld.identEpVfQpFirst 259 + 1 = 9 ∧ qpKind (ha {}) 9 = 0 ∧ getF (ha {}) Fld.qpCtlEp 9 = 1 ∧ getF (ha {}) Fld.qpCtlFunc 9 = 3 ∧ cfgBit (ha {}) 1 0 cfgSriov 0 = true ∧
    cfgBit State.reset 1 0 cfgSriov 0 = false ∧ getF State.reset Fld.identEpVfStorageCount 0 = 0 ∧ (epOf (setEp State.reset 1 { atsOwed := 1 }) 1).atsOwed = 1 := by decide
theorem wit_HostAccesses_msix : let f : Fn := { cfg := [(0x50, 0x80000000), (4, 4)], pba := [5] }
    (fnOf (ha f) 1 3).pba = [5] ∧ vecOpen (setFn (ha f) 1 3 { fnOf (ha f) 1 3 with unmasked := insertNat 5 (fnOf (ha f) 1 3).unmasked }) 1 3 5 = true := by decide

end P12

namespace P13

theorem wit_RingEnableAndStop : mode (rg 0 {} []) = 1 ∧ getF (rg 0 {} []) Fld.qpStatState 9 = 0 ∧ qpEnableOk (rg 0 {} []) 9 = true ∧ qpEnableOk (rg 0 {} []) 30 = false ∧ getF (rg 0 {} []) Fld.qpStatState 30 = 0 ∧
    getF (rg 0 {} []) Fld.evrCtlEnable 2 = 0 ∧ evrEnableOk (rg 0 {} []) 2 = true ∧ (rg 0 {} []).ridge.exitOwed = false ∧ getF (rg 1 {} []) Fld.qpStatState 9 = 1 ∧ getF (rg 2 {} []) Fld.qpStatState 9 = 2 ∧
    bayOfTid (rg 0 {} []) 2048 = some 1 ∧ bayOfQp (rg 0 {} []) 9 = some 1 ∧ bayOfQp (rg 0 {} []) 30 = none := by decide
theorem wit_RingEnableAndStop_ops : qpOwner (rg 2 {} []) 9 = none ∧ qpOps (rg 2 {} []) 9 = [] ∧ qpOps (rg 2 {} [(7, rgo .waiting 0x100 5)]) 9 = [7] ∧ opOf (rg 2 {} [(7, rgo .waiting 0x100 5)]) 7 = some (rgo .waiting 0x100 5) ∧
    qpOps (rg 2 {} [(7, rgo .committed 0x100 5)]) 9 = [7] := by decide

theorem wit_DoorbellsAndNotices : getF (rg 1 {} []) Fld.qpStatState 9 = 1 ∧ qpDepth (rg 1 {} []) 9 = 64 ∧ getF (rg 1 {} []) Fld.qpNotifyMode 9 = 0 ∧
    (qpOf (rg 1 { unann := 3, unannAt := 40, stalled := true } []) 9).unann = 3 ∧ getF (setF (rg 1 {} []) Fld.qpNotifyCoalUs 9 4) Fld.qpNotifyCoalUs 9 = 4 ∧
    evrDepth (setF (rg 1 {} []) Fld.evrCtlEnable 2 1) 2 = 64 ∧ getF (rg 1 {} []) Fld.evrStatFull 2 = 0 ∧ (evrOf (setEvr (rg 1 {} []) 2 { unann := 1 }) 2).unann = 1 ∧ mode State.reset ≠ 1 := by decide
theorem wit_DoorbellsAndNotices_stall : let s := setF (setF (rg 1 {} []) Fld.qpSqTail 9 5) Fld.qpCqTail 9 63
    sqAvail s 9 = 5 ∧ ringRoom s 9 = false ∧ (qpOf s 9).stalled = false := by decide

/-- Queue pair 9 enabled with two descriptors not yet fetched. -/
def rf : State := setF (rg 1 { arrivals := [(2, 3000)] } []) Fld.qpSqTail 9 2
theorem wit_OperationsFetched : (fetchTake rf 9).map (fun x => (x.1, x.2.1, x.2.2.1)) = some (3000, 1, false) ∧ getF rf Fld.admPrecCount 0 = 0 ∧ rf.rings.ops = [] ∧
    ctxReady rf (rgo .waiting 0x100 5) = true := by decide
theorem wit_OperationsFetched_copy :
    copyCheck (setF rf Fld.qpCtlKind 9 0) { rgo .waiting 0x100 5 with body := leBytes 8 0x10000000000 ++ leBytes 8 0x10000000010 ++ leBytes 4 64 ++ List.replicate 28 0 } [] = .bad stBadDescriptor 0 := by decide

/-- The same with an operation 7, and partner records: count, and those cached. -/
def rp (count : Nat) (ps : List (Nat × Partner)) (o : Op) : State :=
  let s := setF (rg 1 {} [(7, o)]) Fld.admPrecCount 0 count
  { s with rings := { s.rings with partners := ps } }
theorem wit_AdmissionSteps : let o := rgo .waiting 0x100 5
    considered (rp 0 [] o) 7 o = true ∧ holdsTokens (rp 0 [] o) o = some true ∧ behind (rp 0 [] o) 7 o = false ∧ classOfOp (rp 0 [] o) o = 1 ∧ servedBefore (rp 0 [] o) 7 1 0 = false ∧
    poolCapped (rp 0 [] o) 0 = false ∧ eWaits (rp 0 [] o) 0 = [1000] ∧ eWaits (rp 0 [] o) 1 = [] ∧ considered (rp 0 [] (rgo .admitted 0x100 5)) 7 (rgo .admitted 0x100 5) = false := by decide
theorem wit_AdmissionSteps_records : let o := rgo .waiting 0x100 5
    let p : Partner := { cls := 0, valid := true, weight := 1, tag := 0, asOf := 0, buckets := [{ pool := 0, rate := 1, burst := 64, tokens := 0 }] }
    partnerRef (rp 4 [(0, { p with valid := false })] o) 0 = .bad ∧ partnerRef (rp 4 [(0, p)] o) 0 = .found p ∧ holdsTokens (rp 4 [(0, p)] o) o = some false ∧
    holdsTokens (reach (rp 4 [(0, { p with buckets := [{ pool := 0, rate := 0, burst := 64, tokens := 0 }] })] o) 90000000) o = some false ∧ partnerRef (rp 4 [(0, p)] o) 3 = .miss ∧ o.partner = 0 := by decide

theorem wit_CompletionEntries : classOf (addrOf (rg 1 {} []) .qpCqBaseLo .qpCqBaseHi 9 + 32 * getF (rg 1 {} []) Fld.qpCqTail 9) = some .hbm ∧
    isRefusal 0 = false ∧ qpDepth (rg 1 {} []) 9 = 64 ∧ (qpOf (rg 1 {} []) 9).unann + 1 < getF (setF (rg 1 {} []) Fld.qpNotifyCoalCount 9 8) Fld.qpNotifyCoalCount 9 := by decide

end P13

namespace P14

/-- Channel 2 in a state, with a slice of 16 units, a 1 MiB ring in HBM and its packets; source 16 of it enabled. -/
def gc (st : Nat) (x : Chan) : State :=
  let s := setF (setF State.reset Fld.pwrStateMode 0 1) Fld.pwrDomStatCurState 78 0
  let s := [(Fld.gutChStatState, st), (Fld.gutChCtlEnable, if st = 1 then 1 else 0), (Fld.gutChCtlBufSize, 16), (Fld.gutChCtlMode, 1), (Fld.gutChDsize, 20), (Fld.gutChDbaseHi, 0x100), (Fld.gutChNotifyCoalCount, 9)].foldl (fun s f => setF s f.1 2 f.2) s
  setChan (setF (setF s Fld.gutSrcEnable 16 1) Fld.gutSrcChannel 16 2) 2 x
theorem wit_GutterChannels : let s := gc 1 { pkts := [(5, List.replicate 32 7)], noRoom := some 4 }
    getF s Fld.gutChStatState 2 = 1 ∧ getF s Fld.gutChStatDrainFault 2 = 0 ∧ domState s 78 = 0 ∧ (chanOf s 2).pkts = [(5, List.replicate 32 7)] ∧ drainUsed s 2 + 32 < drainSize s 2 ∧
    classOf (getF s Fld.gutChDbaseLo 2 * 65536 + getF s Fld.gutChDbaseHi 2 * 2 ^ 32) = some .hbm ∧ getF s Fld.gutChNotifyCoalCount 2 > (chanOf s 2).unann + 1 ∧ getF s Fld.gutChStatDrainStall 2 = 0 ∧
    (chanOf s 2).noRoom = some 4 ∧ getF s Fld.gutChCtlMode 2 = 1 ∧ getF s Fld.gutSrcEnable 16 = 1 ∧ getF s Fld.gutSrcChannel 16 = 2 ∧ getF s Fld.gutChStatShed 2 = 0 ∧
    sourceEmits s 16 0x10 (List.replicate 16 0) = true ∧ chanFill s 2 + 32 ≤ chanSize s 2 ∧ mode s = 1 := by decide
theorem wit_GutterChannels_enable : getF (gc 0 {}) Fld.gutChCtlEnable 2 = 0 ∧ sliceFits (gc 0 {}) 2 (0x100000 ||| 1) = true ∧ drainRingOk (gc 0 {}) 2 = true ∧ sliceFits (gc 0 {}) 2 (0 ||| 1) = false ∧
    getF (gc 2 {}) Fld.gutChStatState 2 = 2 ∧ (gc 2 {}).gut.flushes = [] := by decide

/-- Operation 7 of queue pair 9, admitted, with an opcode and a body. -/
def ga (opcode : Nat) (st : OpSt) (body : List Byte) : State := rg 1 {} [(7, { rgo st opcode 5 with body := body })]
theorem wit_CopyAndGutterOperations : let o := { rgo .admitted 0x100 5 with body := leBytes 8 0x10000000000 ++ leBytes 8 0x10000000100 ++ leBytes 4 64 ++ List.replicate 28 0 }
    opOf (ga 0x100 .admitted o.body) 7 = some o ∧ classOf (leAt o.body 0 8) = some .hbm ∧ classOf (leAt o.body 8 8) = some .hbm ∧ leAt o.body 16 4 = 64 ∧
    inHost (leAt (leBytes 8 0x1000000000000 ++ leBytes 8 0x10000000100) 0 8) = true := by decide
theorem wit_CopyAndGutterOperations_flush : let s := { ga 0x802 .admitted (List.replicate 48 0) with gut := { (ga 0x802 .admitted []).gut with flushes := [(7, 2, 100, 9000)] } }
    Tab.lookup s.gut.flushes 7 = some (2, 100, 9000) ∧ (chanOf s 2).pkts = [] ∧ opOf s 7 = some { rgo .admitted 0x802 5 with body := List.replicate 48 0 } ∧
    getF (setF s Fld.gutChStatState 0 1) Fld.gutChStatState 0 = 1 ∧ leAt (leBytes 8 0 ++ leBytes 8 4 ++ leBytes 8 0x10000000000) 16 8 = 0x10000000000 := by decide

end P14

namespace P15

/-- A copy from sub-port 3 to a host vport, and a graph of one node of 14 bytes that ends the parse, with or without Reed. -/
def pgraph (flags : Nat) : List Byte := leBytes 2 1 ++ List.replicate 62 0 ++ List.replicate 256 0 ++ (leBytes 1 7 ++ leBytes 1 flags ++ leBytes 2 14 ++ leBytes 2 14 ++ List.replicate 58 0)
def pcp (stage : Nat) : Copy := { frame := List.replicate 64 9, port := 3, vport := 0x40, stage := stage, spanEnd := 64 }
def pt (flags stage : Nat) : State :=
  let s := [65, 66, 67, 68, 64, 76].foldl (fun s d => setF s Fld.pwrDomStatCurState d 0) State.reset
  { s with truss := { s.truss with graph := pgraph flags, copies := [(5, pcp stage)], portsUp := [3, 8] } }
theorem wit_FramesParsedAndSent : copyOf (pt 2 0) 5 = some (pcp 0) ∧ domUp (pt 2 0) (65 + copyPipe (pt 2 0) (pcp 0)) = true ∧ (pcp 0).node < nodeCount (pgraph 2) ∧
    nodeFlag (nodeAt (pgraph 2) 0) 2 = false ∧ nodeFlag (nodeAt (pgraph 2) 0) 1 = true ∧ leAt (nodeAt (pgraph 2) 0) 4 2 = 14 ∧ (parseLoop (pgraph 2) 26 (pcp 0)).2 = .done ∧ (parseLoop (pgraph 4) 26 (pcp 0)).2 = .reed ∧
    reedBusy (pt 4 1) = 0 ∧ domUp (pt 4 1) 64 = true ∧ portUp (pt 2 0) 3 = true ∧ portUp (pt 2 0) 4 = false ∧ stormDrops (pt 2 0) 3 0 = false ∧ bufferDrops (pt 2 0) 3 0 64 = false := by decide
theorem wit_FramesParsedAndSent_frame : let f : List Byte := List.replicate 64 8
    let s := { pt 2 0 with truss := { (pt 2 0).truss with fdb := [(fdbKey 0 0x080808080808, { port := 8, static := true, flapping := false, moves := [], hitAt := 0 })] } }
    framePrio f = 0 ∧ ipAt f = none ∧ pfcOn s 8 0 = false ∧ s.xpt.egress = [] ∧ forwardTo s 3 f = [8] ∧ getF s Fld.swVportCfgAntiSpoof 0x241 = 0 := by decide
theorem wit_FramesParsedAndSent_reed :
    let progs : List Byte := leBytes 2 1 ++ List.replicate 14 0 ++ (leBytes 4 48 ++ leBytes 4 4 ++ leBytes 4 0 ++ leBytes 4 0 ++ leBytes 2 8 ++ leBytes 2 0 ++ List.replicate 12 0) ++ leBytes 4 0xFFFFFFFF
    (reedProgram progs 0 (pcp 2)).how = .bad 8 ∧ (reedProgram progs 0 (pcp 2)).cause = some causeIllegal := by decide

/-- A graph whose table 3 is exact on 2 bytes with room for 4 entries; the key and a drop action in the registers. -/
def rt (act : Nat) (rs : List Rule) : State :=
  let g : List Byte := leBytes 2 1 ++ List.replicate 62 0 ++ List.replicate 48 0 ++ (leBytes 1 1 ++ leBytes 1 0 ++ leBytes 1 2 ++ leBytes 1 0 ++ leBytes 4 4 ++ List.replicate 8 0) ++ List.replicate 192 0
  let s := setF (setF (setF State.reset Fld.pwrStateMode 0 1) Fld.trussRuleKey 0 0x1234) Fld.trussRuleActLo 0 act
  { s with truss := { s.truss with graph := g, staging := { s.truss.staging with rules := rs } } }
theorem wit_RuleTableCommands : let r := argRule (rt 0 []) 3
    argOk (rt 0 []) 3 = true ∧ actOk 3 r.act = true ∧ holdsRule (rt 0 []) [] r = false ∧ holdsRule (rt 0 [r]) [r] r = true ∧ rulesDiffer (rt 0 []) [r] [] = 1 ∧ (tableDef (rt 0 []).truss.graph 3).2.2.2 = 4 ∧
    argOk (rt 0 []) 4 = false ∧ actOk 3 (argRule (rt 5 []) 3).act = false ∧ kindOfTable (rt 0 []) 3 = 1 ∧ getF (rt 0 []) Fld.trussRuleStatBusy 0 = 0 ∧ mode (rt 0 []) = 1 ∧ getF (rt 0 []) Fld.trussVerPrevious 0 = 0 ∧
    oldInflight (setF { rt 0 [] with truss := { (rt 0 []).truss with copies := [(1, { pcp 1 with version := 4 })] } } Fld.trussVerPrevious 0 4) = 1 := by decide

/-- One learn in the pipeline and a table. -/
def sl (q : List (Nat × Nat × Nat)) (fdb : Tab FdbEnt) : State :=
  let s := setF (setF State.reset Fld.pwrStateMode 0 1) Fld.swFdbMacLo 0 7
  { s with truss := { s.truss with learnQ := q, fdb := fdb, portsUp := [8] } }
theorem wit_SwitchSteps : let e : FdbEnt := { port := 8, static := false, flapping := false, moves := [(40, 8), (30, 0), (20, 8), (10, 0)], hitAt := 3 }
    (sl [(50, 0, 7)] []).truss.learnQ = [(50, 0, 7)] ∧ Tab.lookup (sl [(50, 0, 7)] []).truss.fdb 7 = none ∧ Tab.lookup (sl [] [(7, e)]).truss.fdb (0 * 2 ^ 48 + 7) = some e ∧ portUp (sl [] []) 8 = true ∧
    portUp (sl [] []) 0 = false ∧ portExists (sl [] []) 0 = true ∧ getF (sl [] []) Fld.swFdbPort 0 ≤ 0x27F ∧ getF (setF (sl [] []) Fld.swCtlAgeS 0 300) Fld.swCtlAgeS 0 = 300 ∧ mode (sl [] []) = 1 := by decide
theorem vportByKey_none {s : State} {key : Nat} (h : ∀ v, vportValid s v = false) : vportByKey s key = none := by
  have : vports s = [] := by simp [vports, h]
  simp [vportByKey, this]

end P15

namespace P16

/-- Connection 5 READY on sub-port 0, with its context cached, a window 3 over HBM, and an operation 7. -/
def xc (f : Conn → Conn) (o : Op) : State :=
  let s := rg 1 {} [(7, o)]
  let x : Conn := f { st := 1, bay := 1, home := 9, peerConn := 6, retryLimit := 3, rnrLimit := 3 }
  let win : Win := { isOpen := true, gen := 2, conn := 5, bay := 1, rights := 7, base := 0x10000001000, size := 4096, opener := 9 }
  { s with truss := { s.truss with portsUp := [0] }, xpt := { s.xpt with conns := [(5, x)], ctxCache := [5], wins := [(3, win)] } }
def xh (psn : Nat) : PktHdr := { conn := 5, psn := psn, ackreq := true, first := true, last := true, ece := false, ce := false, sec := false, tagOk := true, nonce := 0, port := 0, srcIp := 0, dstIp := 0 }
/-- A READ_REQ, a SEND and an atomic in progress. -/
def xm (kind n : Nat) : Msg := { who := .op 7, kind := kind, n := n, psn0 := 0, sent := 1, len := 2048, laddr := 0x10000002000 }
theorem wit_EavePackets : let s := xc id (rgo .admitted 0x306 5)
    let x := connOf s 5
    portUp s 0 = true ∧ x.st = 1 ∧ (xh 0).port = x.port ∧ (xh 0).srcIp = x.peerIp ∧ (xh 0).dstIp = x.localIp ∧ eaveDropped s (xh 0) = false ∧ ctxCached s 5 = true ∧ x.sec = false ∧ x.skip = false ∧ x.inMsg = false ∧
    psnDist x.e (xh 0).psn = 0 ∧ psnDist x.e (xh 9).psn = 9 ∧ 2 ^ 23 ≤ psnDist x.e (xh 0xFFFFFF).psn ∧ (winOf s 3).gen = 0x20003 / 65536 ∧ bitN (winOf s 3).rights 2 = true ∧ inHost ((winOf s 3).base + 16) = false ∧
    (recvFree s 9) = some 7 ∧ (recvFree (xc id (rgo .waiting 0x100 5)) 9) = none ∧ (connOf s 6).st = 0 ∧ ctxCached (setConn s 6 { st := 1 }) 6 = false := by decide
theorem wit_EavePackets_answers : let s := xc (fun x => { x with nxt := 2, msgs := [xm 2 2] }) (rgo .admitted 0x302 5)
    let x := connOf s 5
    x.msgs = [xm 2 2] ∧ (xm 2 2).got + 1 < (xm 2 2).n ∧ psnAdd (xm 2 2).psn0 (xm 2 2).got = 0 ∧ x.una = 0 ∧ psnDist x.una x.nxt = 2 ∧ classOf (xm 2 2).laddr = some .hbm ∧ psnDist (xm 2 2).psn0 0 < msgSpan (xm 2 2) ∧
    (xm 4 1).kind = 4 ∧ (xm 0 1).kind ∉ [2, 4, 5] ∧ psnAdd 0 1 ≠ x.una := by decide

/-- Sub-port 0 with PFC on priority 3 in a state. -/
def xp (f : Pfc) : State := setPfc (setF (xc id (rgo .waiting 0x100 5)) Fld.xptPfcEnPfcEn 0 8) 0 3 f
theorem wit_EaveTimersAndPfc : (connOf (xp {}) 5).st = 1 ∧ (connOf (xp {}) 5).lastDec = none ∧ (connOf (xp {}) 5).periods < 5 ∧ (connOf (xp {}) 6).st ≠ 1 ∧ pfcOn (xp {}) 0 3 = true ∧ pfcOn (xp {}) 0 0 = false ∧ (xp {}).xpt.egress = [] ∧
    stormOut (xp {}) 0 3 = false ∧ stormOut (xp { ignore := some 90000 }) 0 3 = true ∧ (pfcOf (xp { xoff := some 4 }) 0 3).xoff = some 4 ∧ (pfcOf (xp { dropping := true }) 0 3).dropping = true ∧
    bufUse (xp { dropping := true }) 0 3 < xonAt (setF (xp { dropping := true }) Fld.xptPfcThrXonKib 0 1) 0 ∧ (pfcOf (xp { paused := some (5, 2000000000000) }) 0 3).paused = some (5, 2000000000000) := by decide
/-- An ACK for connection 5 in a UDP datagram over IPv4 (09 R245, 10 R291, Tables 10.4 to 10.6), and a bay vport. -/
def xfr (ver : Nat) : List Byte :=
  List.replicate 12 0 ++ beBytes 2 0x0800 ++ [0x45, 2] ++ beBytes 2 48 ++ beBytes 4 0 ++ [64, 17] ++ beBytes 2 0 ++ beBytes 4 7 ++ beBytes 4 9 ++
  beBytes 2 0xC005 ++ beBytes 2 0xCC9D ++ beBytes 2 28 ++ beBytes 2 0 ++ beBytes 1 (32 * ver + 8) ++ beBytes 1 0x20 ++ beBytes 2 0 ++ beBytes 4 5 ++ beBytes 4 3 ++ beBytes 4 0 ++ beBytes 4 0
def xbay : State := setF (xp {}) Fld.swVportCfgValid 0x241 1
theorem wit_EaveTimersAndPfc_frame : eaveAt xbay (xfr 1) = some { ip := (14, 4), off := 42, srcIp := mappedIp 7, dstIp := mappedIp 9 } ∧ forwardTo xbay 0 (xfr 1) = [0x241] ∧ beAt (xfr 1) 42 1 = 0x28 ∧
    (eaveAt xbay (xfr 2)).isSome = true ∧ beAt (xfr 2) 42 1 / 32 ≠ 1 ∧ bitN (beAt (xfr 1) 43 1) 4 = false ∧ (eavePkt xbay 0 (xfr 1) { ip := (14, 4), off := 42 }).1.conn = 5 := by decide
theorem wit_EaveTimersAndPfc_conn : (connOf (xc (fun x => { x with nxt := 2, coalFrom := some 4, rnrWait := some (7, 0), periods := 5 }) (rgo .waiting 0x100 5)) 5).rnrWait = some (7, 0) ∧
    (connOf (xc (fun x => { x with nxt := 2, coalFrom := some 4 }) (rgo .waiting 0x100 5)) 5).coalFrom = some 4 ∧ portUp (xp {}) 0 = true ∧ portUp (xp {}) 1 = false := by decide

/-- An operation 7 of engine 0x03 over the same state, with windows 3 and 4 of bay 1, connection 5 in a state. -/
def xo (opcode : Nat) (body : List Byte) (f : Conn → Conn) : State :=
  let s := xc f { rgo .admitted opcode 5 with body := body }
  let s := setF (setF (setF (setF s Fld.xptBayWinFirst 1 3) Fld.xptBayWinCount 1 2) Fld.xptBayConnFirst 1 5) Fld.xptBayConnCount 1 2
  setF (setF s Fld.xptBayRgnCount 1 4) Fld.rgnCount 0 4
theorem wit_DormersRegionsConnections : let body := leBytes 4 5 ++ leBytes 1 1 ++ leBytes 3 0 ++ leBytes 8 0x10000001000 ++ leBytes 8 256 ++ List.replicate 24 0
    let s := xo 0x310 body id
    let o : Op := { rgo .admitted 0x310 5 with body := body }
    opOf s 7 = some o ∧ freeWins s 1 = [4] ∧ exposeOk s o 5 1 0x10000001000 256 (2 ^ 40) = true ∧ (winOf s 3).isOpen = true ∧ (winOf s 3).gen = 2 ∧ ownsRgn s 1 2 = true ∧ ownsRgn s 1 4 = false ∧
    (connOf s 5).st = 1 ∧ (connOf s 8).st = 0 ∧ (connOf (xo 0x321 body (fun x => { x with st := 3, closeOp := some 7 })) 5).closeOp = some 7 ∧ opsWhere (xo 0x321 body id) (forConn 5) = [] := by decide
theorem wit_DormersRegionsConnections_win : let s := setWin (xo 0x311 [] id) 3 { isOpen := true, deadline := some 9, holdEnd := some 4 }
    (winOf s 3).isOpen = true ∧ (winOf s 3).deadline = some 9 ∧ (winOf s 3).holdEnd = some 4 ∧ ctxCached (setConn s 8 { st := 2 }) 8 = false ∧ s.xpt.fillWait = [] := by decide

end P16

namespace P17

/-- Link 3 enabled, in a state of training, with what the link keeps. -/
def nl (st : Nat) (x : Link) : State :=
  let s := setF (setF (rg 1 {} [(7, { rgo .admitted 0x401 5 with body := List.replicate 48 0 })]) Fld.nawynLinkStatState 3 st) Fld.nawynLinkCfgEnable 3 1
  setLink (setF (setF s Fld.nawynLinkCfgMaxWidth 3 2) Fld.pwrDomStatCurState 75 0) 3 x
def nf (eom : Bool) : Flit := { seq := 4, tc := 2, som := true, eom := eom, payload := [] }
def nm : NMsg := { src := .op 7, link := 3, tc := 2, hdr := msgHeader 1 4 2 false 1 0 0 0 0, data := [], flits := 1 }
theorem wit_NawynLinkSteps : mode (nl 0 {}) = 1 ∧ getF (nl 0 {}) Fld.nawynLinkStatState 3 = 0 ∧ mayTrain (nl 1 {}) 3 = true ∧ mayTrain (setF (nl 1 {}) Fld.nawynLinkCfgEnable 3 0) 3 = false ∧ domState (nl 0 {}) 75 ≠ 3 ∧ (linkOf (nl 0 {}) 3).active = none ∧
    getF (nl 2 {}) Fld.nawynLinkCfgMaxWidth 3 = 2 ∧ getF (nl 3 {}) Fld.nawynLinkStatState 3 = 3 ∧ nodeId (nl 3 {}) ≠ 9 ∧ linkUp (nl 0 {}) 3 = false ∧ (linkOf (nl 6 {}) 3).fails = [] ∧
    (linkOf (nl 5 { replay := [nf false] }) 3).replay = [nf false] ∧ (5 + 1024 - (nf true).seq) % 1024 < 512 ∧ (linkOf (nl 5 { started := [(nm, [])] }) 3).started = [(nm, [])] ∧ leAt nm.hdr 4 1 = 1 ∧
    (opOf (nl 5 {}) 7).map (fun o => o.opcode) = some 0x401 ∧ 0 < getF (nl 5 {}) Fld.nawynRetryReplayLimit 0 ∧ (linkOf (nl 5 { nakSent := true, rxSeq := 9 }) 3).nakSent = true ∧ 512 ≤ (8 + 1024 - 9) % 1024 := by decide

/-- A header for this node on link 3. -/
def nh (arg : Nat) : NHdr := { link := 3, tc := 2, fa := { ackValid := false, ack := 0, crTc := 0, crCount := 0 }, dst := 0, hops := 4, src := 9, linkLocal := false, crs := 0, status := 0, tag := 5, arg := arg, corr := 0 }
theorem wit_NawynMessages : let s := setF (setF (setF (nl 5 {}) Fld.nawynAperWrEn 0 1) Fld.nawynAperRdEn 0 1) Fld.pwrNodeIdNodeId 0 0
    (nh 0).link < 16 ∧ getF s Fld.nawynLinkStatState 3 = 5 ∧ nodeId s = 0 ∧ (nh 0).dst = nodeId s ∧ getF s Fld.nawynLinkStatIdClash 3 = 0 ∧ aperAddr s 9 0 64 true = some 0 ∧ aperAddr s 9 (2 ^ 30) 64 true = none ∧
    aperAddr s 9 0 8 false = some 0 ∧ listedMtype 7 = false ∧ Tab.lookup s.nawyn.reads 5 = none ∧ routeFor s 7 = none ∧ s.ridge.attempt = none := by decide
theorem wit_NawynMessages_recv : let s := { setF (setF (nl 5 {}) Fld.qpCtlKind 9 2) Fld.qpCtlEnable 9 1 with rings := { (nl 5 {}).rings with ops := [(7, { rgo .admitted 0x403 5 with body := leBytes 8 0x10000000000 ++ leBytes 4 64 ++ List.replicate 36 0 })] } }
    (nrecvFor s 9).map (fun e => e.1) = some 7 ∧ nrecvFor s 8 = none ∧ (let r : NRead := { src := .op 7, node := 9, laddr := 0x10000000000, len := 8, deadline := 40 }
      Tab.lookup { s.nawyn with reads := [(5, r)] }.reads 5 = some r) := by decide

theorem wit_NawynTimeAndCourses : let g : Course := { id := 4, armAt := 90000, cycle := 2000, wins := [(0, 100, 2)] }
    mode (nl 5 {}) = 1 ∧ (nl 5 {}).nawyn.frac < 1000000000 ∧ courseOk g = true ∧ courseOk { g with cycle := 10 } = false ∧ follower (nl 5 {}) = false ∧ (linkOf (nl 5 { pending := some g }) 3).pending = some g ∧
    (linkOf (nl 5 { active := some g }) 3).active = some g ∧ g.wins[0]? = some (0, 100, 2) ∧ sendingAt (linkOf (nl 5 {}) 3) = none ∧ courseOf (nl 5 {}) 3 = none ∧
    firstWaiting (enqueueMsg (nl 5 {}) nm) 3 2 = some nm ∧ (wrrTurn (enqueueMsg (nl 5 {}) nm) 3 2).isSome = true ∧ firstWaiting (enqueueMsg (nl 5 {}) { nm with link := 16, src := .own }) 16 2 = some { nm with link := 16, src := .own } ∧
    bitN (getReg (setReg (nl 5 {}) .nawynPtpEn 0 4) .nawynPtpEn 0).toNat 2 = true ∧ courseOk (stagedCourse (setF (nl 5 {}) Fld.nawynCrsCycleCycleNs 3 5000) 3) = true := by decide

end P17

namespace P18

/-- A state with the Loft enabled for bay 5 and one context, and a Loft operation 7 of ring 5. -/
def lf (op : Nat) (st : OpSt) (x : LReq) : State :=
  let s := setF (setF (rg 1 {} [(7, { rgo st op 5 with data := List.replicate 16 0 ++ leBytes 2 1 ++ List.replicate 46 0 })]) Fld.loftStatEnabled 0 1) Fld.pwrDomStatCurState 73 0
  { s with loft := { s.loft with reqs := [(7, x)], ctxCount := 1 } }
/-- A bias set of one head in mode 0 with thresholds 0 to 63. -/
def lbs : List Byte := leBytes 1 0 ++ leBytes 1 1 ++ List.replicate 6 0 ++ leBytes 8 63 ++ List.replicate 48 0 ++ (List.range 64).flatMap (fun b => leBytes 8 b) ++ List.replicate 128 0
theorem wit_LoftCommands : let x : LReq := { kind := 0, payload := [] }
    mode (lf 0x501 .committed x) = 1 ∧ loftOn (lf 0x501 .committed x) = true ∧ (opOf (lf 0x501 .committed x) 7).map (fun o => o.opcode) = some 0x501 ∧ lreqOf (lf 0x501 .committed x) 7 = some x ∧ domUp (lf 0x501 .committed x) 73 = true ∧
    badPop (lf 0x501 .committed x) [] x = none ∧ badPop (lf 0x501 .committed x) [] { x with pages := [1] } = some 1 ∧ (running (lf 0x500 .admitted x) 7 0x500).isSome = true ∧ (running (lf 0x502 .admitted x) 7 0x502).isSome = true ∧
    loftOn (rg 1 {} []) = false ∧ queryHeaderOk [] = false ∧ aN (List.replicate 32 0) = 0 ∧ Requester.isPf (.thread 3) = false ∧ Requester.bay (rg 1 {} []) (.thread 65) ≠ some (ctlBay (rg 1 {} [])) ∧ classOf 0x10000000000 = some .hbm := by decide
theorem wit_LoftCommands_bias : biasOk lbs = true ∧ biasOk (lbs.set 8 0) = false ∧ leAt ((5 : Byte) :: lbs) 0 1 = 5 := by decide
theorem wit_LoftCommands_query : let s := lf 0x500 .admitted { kind := 1, payload := [] }
    (∃ o x, running s 7 0x500 = some o ∧ lreqOf s 7 = some x ∧ x.sent = false ∧ queryRows s o.data 0 x.bounds = .ok [] ∧ o.src = .ring 9) := by
  refine ⟨_, _, rfl, rfl, rfl, ?_, ?_⟩ <;> decide
/-- A LOFT_QUERY that comes link-local. -/
def lh : NHdr := { link := 3, tc := 2, fa := { ackValid := false, ack := 0, crTc := 0, crCount := 0 }, dst := 0, hops := 0, src := 9, linkLocal := true, crs := 0, status := 0, tag := 5, arg := 0, corr := 0 }
theorem wit_LoftCommands_arrive : let s := setF (setF (rg 1 {} []) Fld.nawynLinkStatState 3 5) Fld.loftNodeEnable 9 1
    lh.link < 16 ∧ getF s Fld.nawynLinkStatState lh.link = 5 ∧ lh.linkLocal = true ∧ loftMeets s lh [] true = some (0x80, 0) ∧ loftWaiting s ≤ getF s Fld.loftMaxWait 0 ∧ getF s Fld.loftNodeEnable 9 = 1 ∧ getF s Fld.loftNodeEnable 8 = 0 ∧
    loftTargets s 9 5 = [] ∧ loftTargets { s with rings := { s.rings with ops := [(7, { rgo .waiting 0x500 5 with src := .loft 9 5 })] } } 9 5 = [7] := by decide

end P18

namespace P19

/-- A state of the Underlay with operation 7. -/
def us (op : Nat) (st : OpSt) (u : Underlay) : State :=
  let s := setF (rg 1 {} [(7, rgo st op 5)]) Fld.pwrDomStatCurState 77 0
  { s with ul := u }
def up (g : Nat) : PlanRange := { logical := 0, length := 131072, offset := 0, node := 9, group := g }
def uc : CutCopy := { slot := 1, op := 7, deadline := 5000 }
def ud : Drain := { slot := 1, op := 7, targets := [{ kind := 0, rootPort := 2, nsidConn := 1, key := 0, base := 0, len := 65536 }], manifestTarget := 0, manifestOffset := 4096, full := true, deadline := 9000 }
theorem wit_UnderlayCommands_cut : let s := us 0x600 .admitted { slots := [(1, ⟨4, [up 2, up 3]⟩)], copy := some uc }
    (copyingCut s uc).id = 4 ∧ up 2 ∈ (copyingCut s uc).plan ∧ (planGroups (copyingCut s uc).plan).find? (fun g => !uc.taken.contains g) = some 2 ∧ (planGroups (copyingCut s uc).plan).find? (fun g => !([2, 3] : List Nat).contains g) = none ∧
    (∀ q, q ∈ [up 2, up 3] → q.group ∈ [2] ∨ q.group = 3) ∧ uc.slot < 2 ∧ (opOf s uc.op).isSome = true ∧ domUp s 77 = true := by decide
theorem wit_UnderlayCommands_drain : let s := us 0x601 .admitted { slots := [(1, ⟨4, [up 2]⟩)], drain := some ud }
    (opOf s ud.op).isSome = true ∧ ud.next + 1 < planShingles (drainCut s ud).plan ∧ s.ul.copy = none ∧ ud.full = true ∧ 65536 * (ud.changed / ud.targets.length + 1) ≤ (ud.targets.getD 0 (manifestTo ud)).len ∧
    (manifestTo ud).kind = 0 ∧ 2 = planShingles (drainCut s { ud with next := 2, writes := [1] }).plan ∧ (ud.targets.getD 0 (manifestTo ud)).len < 65536 * (1 / 1 + 1) := by decide
theorem wit_UnderlayCommands_ssd : let s := us 0x601 .admitted {}
    let t := { s with host := { s.host with rootPorts := [(2, { (Tab.get {} s.host.rootPorts 2) with up := true })] }, stor := { s.stor with ssdNs := [(2 * 2 ^ 32 + 1, (true, 4096))] } }
    rawLba t 2 1 0 65536 = .ok 4096 ∧ rawLba t 2 1 4096 64 = .ok 4096 := ⟨rfl, rfl⟩
theorem wit_UnderlayCommands_restore : let r : Restore := { todo := [(0, 0, [], 0, 9, 0)], targets := ud.targets, total := 2, acked := 1 }
    let s := us 0x602 .admitted { restores := [(7, r)] }
    (running s 7 0x602).isSome = true ∧ Tab.lookup s.ul.restores 7 = some r ∧ (r.targets[0]?).map (fun x => x.kind) = some 0 ∧ r.counted < r.acked ∧ r.counted + 1 ≠ r.total ∧ routeFor s 9 = none ∧ mode s = 1 ∧ (0x80000000 : Word).getLsbD 31 = true := by decide

end P19

namespace P20

/-- A command of controller 0, and a storage controller with its admin queue and one I/O queue. -/
def nc (sq cdw10 cdw11 : Nat) : NCmd := { ctrl := 0, sq := sq, cid := 6, nsid := 1, prp1 := 4096, prp2 := 0, list := [], cdw10 := cdw10, cdw11 := cdw11, cdw12 := 0 }
def nx : Ctrl := { cc := 1, sqs := [(0, { size := 32, base := 0, cq := 0, arrivals := [(1, 50)], tail := 1 }), (2, { size := 32, base := 0, cq := 2, arrivals := [(1, 50)], tail := 1 })], cqs := [(0, { size := 32, base := 0, vec := 0, ien := true }), (2, { size := 32, base := 0, vec := 1, ien := true })] }
def sc (op : Nat) : State :=
  let s := setF (setF (setF (rg 1 {} [(7, { rgo .admitted op 5 with src := .nvme 0 0 6 })]) Fld.storCtlEnable 0 1) Fld.identEpVfStorageCount 0 4) Fld.storNsCtlValid 0 1
  let s := setF s Fld.storNsLbas 0 4096
  { s with stor := { s.stor with ctrls := [(0, nx)], cmds := [(7, { cmd := nc 0 (3 + 31 * 65536) 1, opc := op % 0x1000 })] } }
theorem wit_StorageCommandsFetched : ctrlEnabled nx = true ∧ (Tab.lookup (ctrlOf (sc 0x4105) 0).sqs 2).isSome = true ∧ getF (sc 0x4105) Fld.storCtlEnable 0 = 1 ∧ nsOf (sc 0x4105) 0 1 ≠ none ∧ nsOf (sc 0x4105) 0 2 = none ∧ ioBad (sc 0x4105) { cmd := nc 2 0 0, opc := 2 } = none ∧
    (opOf (sc 0x4105) 7).isSome = true ∧ (Tab.lookup (sc 0x4105).stor.cmds 7).map (fun b => b.opc) = some 0x105 ∧ Tab.lookup nx.cqs 3 = none ∧ 4096 % ctrlPage nx = 0 ∧ opcodeListed true 3 = false ∧ opcodeListed true 2 = true ∧ nx.events = [] ∧ nx.aers.length < 4 ∧
    featBad { cmd := nc 0 1 5, opc := 0x109 } = false ∧ featBad { cmd := nc 0 2 5, opc := 0x109 } = true ∧ mode (sc 0x4105) = 1 := by decide

end P20

namespace P21

/-- A state with an admitted read 7 of a local namespace of controller 0. -/
def sb (opc : Nat) (ended : Bool) : State :=
  let s := rg 1 {} [(7, { rgo .admitted 0x4002 5 with src := .nvme 0 2 6 })]
  { s with stor := { s.stor with ctrls := [(0, { cc := 1, sqs := [(2, { size := 32, base := 0, cq := 2 })] })], ssdNs := [(1, (false, 4096))], cmds := [(7, { cmd := { ctrl := 0, sq := 2, cid := 6, nsid := 1, prp1 := 4096, prp2 := 0, list := [], cdw10 := 0, cdw11 := 0, cdw12 := 0 }, opc := opc, ns := [1, 1, 0, 0, 0, 4096], ended := ended })] } }
theorem wit_StorageDataPath : let b : Backend := (Tab.lookup (sb 2 false).stor.cmds 7).getD { cmd := { ctrl := 0, sq := 2, cid := 6, nsid := 1, prp1 := 4096, prp2 := 0, list := [], cdw10 := 0, cdw11 := 0, cdw12 := 0 }, opc := 0 }
    b.ns ≠ [] ∧ nsRemote b.ns = false ∧ nsEncrypts b.ns = false ∧ b.opc = 2 ∧ (opOf (sb 2 false) 7).isSome = true ∧ ctrlEnabled (ctrlOf (sb 2 false) 0) = true ∧ (Tab.lookup (ctrlOf (sb 2 false) 0).sqs 2).map (fun q => q.size) = some 32 ∧
    nsFit (sb 2 false) b.ns = true ∧ nsFit (sb 2 false) [1, 1, 0, 0, 0, 4097] = false ∧ mode (sb 2 false) = 1 ∧ Requester.isPf (.pf 0) = true ∧ (ctrlOf (sb 2 false) 0).aers = [] ∧
    ctrlFn (setF (sb 2 false) Fld.identEpVfStorageCount 0 4) 0 = some (0, getF (sb 2 false) Fld.identEpVfStorageFirst 0) := by decide
theorem wit_StorageDataPath_io : let s := setF (setF (setF (sb 2 false) Fld.storNsCtlValid 0 1) Fld.storNsLbas 0 64) Fld.storNsConn 0 1
    let b : Backend := { cmd := { ctrl := 0, sq := 2, cid := 6, nsid := 1, prp1 := 4096, prp2 := 0, list := [], cdw10 := 0, cdw11 := 0, cdw12 := 0 }, opc := 2 }
    let ns := nsWords s 0 0
    ioBad s b = none ∧ nsOf s 0 1 = some ns ∧ nsRemote ns = false ∧ nsEncrypts ns = false ∧ Tab.lookup s.stor.ssdNs (nsPort ns * 2 ^ 32 + ns.getD 1 0) = some (false, 4096) ∧ ioBad s { b with cmd := { b.cmd with cdw10 := 64 } } = some 0x1880 := by decide

end P21

namespace P22

/-- A responder's state at a step with a session 5. -/
def sp (step : Nat) (est : Bool) (op : Nat) : State :=
  let s := setF (rg 1 {} [(7, { rgo .admitted op 5 with body := leBytes 4 0x1005 ++ List.replicate 44 0 })]) Fld.identEpLinkLinkUp 0 1
  { s with stor := { s.stor with spdm := [(0, { step := step, sessions := [{ id := 5, established := est }] })], keys := [(5, { kind := 1, gen := 1, mask := 2, bytes := [1] })], blowing := some (3, 9), ide := [(2, { secure := true, keys := [(false, true, 1, [4])] })] } }
theorem wit_SecurityCommands : getF (sp 3 true 0x701) Fld.identEpLinkLinkUp 0 = 1 ∧ (spdmOf (sp 3 true 0x701) 0).step = 3 ∧ sessionUp (sp 3 true 0x701) 0 5 = true ∧ sessionUp (sp 3 false 0x701) 0 5 = false ∧ (spdmOf (sp 3 true 0x701) 0).sessions.length < 4 ∧
    (running (sp 3 true 0x701) 7 0x701).map (fun o => leAt o.body 0 4) = some 0x1005 ∧ (keyOfHandle (sp 3 true 0x701) 0x1005).map (fun k => k.kind) = some 1 ∧ keyUsed (sp 3 true 0x701) 0x1005 = false ∧ keyOfHandle (sp 3 true 0x701) 0x2005 = none ∧
    (∀ e, e ∈ (sp 3 true 0x701).rings.ops → e.2.opcode ≠ 0x0703) ∧ (sp 3 true 0x701).stor.blowing = some (3, 9) ∧ (ideOf (sp 3 true 0x701) 0 2).secure = true ∧ (false, true, 1, [4]) ∈ (ideOf (sp 3 true 0x701) 0 2).keys ∧ (ideOf (sp 3 true 0x701) 0 1).secure = false ∧
    running (sp 3 true 0x702) 7 0x701 = none := by decide

end P22

namespace P23

theorem wit_IdleStepAndTotality : (State.reset).pending = [] ∧ domState State.reset 75 = 3 ∧ domState (setF State.reset Fld.pwrDomStatCurState 75 0) 75 ≠ 3 ∧ (State.reset).nawyn.corr = 0 ∧ getF State.reset Fld.nawynTimeFreq 0 = 0 ∧ (State.reset).nawyn.frac = 0 := by decide

theorem wit_InstructionWordsRoundTrip : (Olx.alu .add false 1 2 3).wf = true ∧ (Olx.lix 4 5).wf = true ∧ decodeOlx 0 0 = none ∧ (Olx.alu .add false 1 2 3).size = 4 ∧ (Olx.lix 4 5).size = 8 := by decide

theorem wit_MemoryReadBack : Tab.lookup (writeByte State.reset 5 7).mem 5 = some 7 ∧ Memory.wf (writeByte State.reset 5 7).mem ∧ (3 : Nat) + ([1, 2] : List Byte).length ≤ 5 := by decide

theorem wit_StepKeepsMemoryForm : Memory.wf (writeByte (State.reset) 5 7).mem ∧ step { State.reset with pending := [] } = .next (idle { State.reset with pending := [] }) := ⟨by decide, rfl⟩

end P23


end Sys2Proof.Tests
end

section
/-! PROOFS. Memory read back (00 R8; 06 R173; 02 R466): what the laws of Laws/Memory.lean leave to say of several writes and of
numbers, and the statement assembled from them. -/

namespace Sys2Proof.Machine

/-! ### Bytes of numbers -/

/-- A byte list is recovered from the number it spells (00 R8). -/
theorem leBytes_leNat (bs : List Byte) : leBytes bs.length (leNat bs) = bs := by
  induction bs with
  | nil => rfl
  | cons b bs ih =>
    have hb : b.toNat < 256 := b.isLt
    have hdiv : leNat (b :: bs) / 256 = leNat bs := by simp only [leNat]; omega
    have hbyte : BitVec.ofNat 8 (leNat (b :: bs)) = b := by
      apply BitVec.eq_of_toNat_eq
      simp only [leNat, BitVec.toNat_ofNat]
      omega
    rw [List.length_cons, leBytes, hdiv, hbyte, ih]

/-! ### A byte after a write of bytes -/

/-- An address lies outside a range, or is one of its bytes. -/
theorem outside_or_inside (a n c : Nat) : (c < a ∨ a + n ≤ c) ∨ ∃ i < n, c = a + i := by
  by_cases h : c < a ∨ a + n ≤ c
  · exact .inl h
  · exact .inr ⟨c - a, by omega, by omega⟩

theorem writeByte_writeByte (s : State) (a : Nat) (x y : Byte) : writeByte (writeByte s a x) a y = writeByte s a y := by
  simp only [writeByte, Tab.put_put]

/-- Writing again what was read changes no byte. -/
theorem readByte_writeBytes_readBytes (s : State) (a n c : Nat) : readByte (writeBytes s a (readBytes s a n)) c = readByte s c := by
  have hlen : (readBytes s a n).length = n := by simp [readBytes]
  rcases outside_or_inside a n c with h | ⟨i, hi, rfl⟩
  · exact readByte_writeBytes_outside s a c _ (by rwa [hlen])
  · rw [readByte_writeBytes_inside s a i _ (by rwa [hlen])]
    simp [readBytes]

/-- Of two writes to one place the last stands. -/
theorem readByte_writeBytes_twice (s : State) (a c : Nat) {bs cs : List Byte} (h : bs.length = cs.length) :
    readByte (writeBytes (writeBytes s a bs) a cs) c = readByte (writeBytes s a cs) c := by
  rcases outside_or_inside a cs.length c with ho | ⟨i, hi, rfl⟩
  · rw [readByte_writeBytes_outside _ _ _ _ ho, readByte_writeBytes_outside _ _ _ _ (by rwa [h]),
      readByte_writeBytes_outside _ _ _ _ ho]
  · rw [readByte_writeBytes_inside _ _ _ _ hi, readByte_writeBytes_inside _ _ _ _ hi]

/-- A byte inside the first of two disjoint writes reads the same whichever came first. -/
theorem readByte_writeBytes_swap_inside (s : State) (a b i : Nat) (bs cs : List Byte) (hi : i < bs.length)
    (hd : a + bs.length ≤ b ∨ b + cs.length ≤ a) :
    readByte (writeBytes (writeBytes s a bs) b cs) (a + i) = readByte (writeBytes (writeBytes s b cs) a bs) (a + i) := by
  rw [readByte_writeBytes_outside _ _ _ cs (by omega), readByte_writeBytes_inside _ _ _ _ hi, readByte_writeBytes_inside _ _ _ _ hi]

/-- Two writes to disjoint places may be made in either order. -/
theorem readByte_writeBytes_swap (s : State) (a b c : Nat) (bs cs : List Byte) (hd : a + bs.length ≤ b ∨ b + cs.length ≤ a) :
    readByte (writeBytes (writeBytes s a bs) b cs) c = readByte (writeBytes (writeBytes s b cs) a bs) c := by
  rcases outside_or_inside a bs.length c with ha | ⟨i, hi, rfl⟩
  · rcases outside_or_inside b cs.length c with hb | ⟨j, hj, rfl⟩
    · rw [readByte_writeBytes_outside _ _ _ _ hb, readByte_writeBytes_outside _ _ _ _ ha,
        readByte_writeBytes_outside _ _ _ _ ha, readByte_writeBytes_outside _ _ _ _ hb]
    · exact (readByte_writeBytes_swap_inside s b a j cs bs hj hd.symm).symm
  · exact readByte_writeBytes_swap_inside s a b i bs cs hi hd

/-- A number written leaves every number apart from it as it was. -/
theorem readLe_writeLe_outside (s : State) (a b n m v : Nat) (h : b + m ≤ a ∨ a + n ≤ b) :
    readLe (writeLe s a n v) b m = readLe s b m := by
  have hbytes : readBytes (writeLe s a n v) b m = readBytes s b m := by
    refine List.map_congr_left fun i hi => ?_
    have him : i < m := List.mem_range.1 hi
    exact readByte_writeBytes_outside s a (b + i) _ (by rw [leBytes_length]; omega)
  rw [readLe, hbytes, readLe]

/-! ### Contents that are lost (02 R466) -/

theorem readByte_loseMem_lost (s : State) (lost : Nat → Bool) (b : Nat) (h : lost b = true) :
    readByte (loseMem s lost) b = Config.undefByte (s.memEpoch + 1) b := by
  rw [readByte, Tab.get, lookup_loseMem, h]
  rfl

theorem readByte_loseMem_kept (s : State) (lost : Nat → Bool) (b : Nat) (x : Byte) (hx : Tab.lookup s.mem b = some x)
    (h : lost b = false) : readByte (loseMem s lost) b = x := by
  rw [readByte, Tab.get, lookup_loseMem, h, hx]
  rfl

/-! ### The statement -/

/-- Settles O59, from the laws of memory above and in Laws/Memory.lean. -/
theorem memoryReadBack : Obligations.MemoryReadBack := by
  unfold Obligations.MemoryReadBack
  intro s a b n m v _ x y bs cs lost
  exact ⟨readByte_writeByte s a b x, writeByte_writeByte s a x y, fun i h => readByte_writeBytes_inside s a i bs h,
    readByte_writeBytes_outside s a b bs, readBytes_writeBytes s a bs, readByte_writeBytes_readBytes s a n,
    readLe_writeLe s a n v, readLe_writeLe_outside s a b n m v, fun h c => readByte_writeBytes_twice s a c h,
    fun h c => readByte_writeBytes_swap s a b c bs cs h, leNat_leBytes n v, leBytes_length n v, leBytes_leNat bs,
    fun h => ⟨writeBytes_wf s a bs h, loseMem_wf s lost h⟩, writeBytes_only_mem s a bs,
    readByte_loseMem_lost s lost b, readByte_loseMem_kept s lost b x⟩

end Sys2Proof.Machine
end

section
/-! PROOFS. What a plain register write leaves in every field (00 R12 to R14, Table 0.5). A write goes through the register's fields one
after the other; each field is written into bits of its own, so a field ends at what its own turn gave it and every other bit stays. -/

namespace Sys2Proof.Machine

/-! ### Fields of numbers -/

/-- Writing back the field that is there changes nothing. -/
theorem withField_fieldOf (v hi lo : Nat) : withField v hi lo (fieldOf v hi lo) = v := by
  rw [withField_eq, Nat.mod_eq_of_lt (fieldOf_lt v hi lo), ← split_field]

/-- A bit is a field one bit wide. -/
theorem testBit_eq_fieldOf (v k : Nat) : v.testBit k = decide (fieldOf v k k = 1) := by
  simp [Nat.testBit_eq_decide_div_mod_eq, fieldOf]

/-- A word's bits that a mask clears and those it keeps add up to the word. -/
theorem toNat_and_xor_allOnes_add_and {n : Nat} (o x : BitVec n) :
    (o &&& (x ^^^ BitVec.allOnes n)).toNat + (o &&& x).toNat = o.toNat := by
  have hdisj : (o &&& (x ^^^ BitVec.allOnes n)) &&& (o &&& x) = 0#n := by
    ext k hk
    cases h : x[k] <;> simp [h]
  have hcover : (o &&& (x ^^^ BitVec.allOnes n)) ||| (o &&& x) = o := by
    ext k hk
    cases h : x[k] <;> simp [h]
  rw [← BitVec.toNat_add_of_and_eq_zero hdisj, BitVec.add_eq_or_of_and_eq_zero _ _ hdisj, hcover]

/-- Subtracting the bits that `x` has set is masking with `x` inverted. -/
theorem sub_and_eq_and_xor {n o x : Nat} (ho : o < 2 ^ n) (hx : x < 2 ^ n) : o - (o &&& x) = o &&& (x ^^^ (2 ^ n - 1)) := by
  have h := toNat_and_xor_allOnes_add_and (BitVec.ofNatLT o ho) (BitVec.ofNatLT x hx)
  simp only [BitVec.toNat_and, BitVec.toNat_xor, BitVec.toNat_allOnes, BitVec.toNat_ofNatLT] at h
  omega

/-! ### One field's turn -/

/-- What a field holds after a write of `x` to it that finds `o` there (00 Table 0.5), its RWL fields unlocked. -/
def FieldDesc.result (f : FieldDesc) (x o : Nat) : Nat :=
  match f.acc with
  | .rw | .rwl => if f.min ≤ x ∧ x ≤ f.max then x else o
  | .w1c => o &&& (x ^^^ (2 ^ (f.hi - f.lo + 1) - 1))
  | .ro | .rc | .wo => o

theorem FieldDesc.result_lt (f : FieldDesc) {n x o : Nat} (hx : x < 2 ^ n) (ho : o < 2 ^ n) : f.result x o < 2 ^ n := by
  unfold FieldDesc.result
  split
  case h_1 => split <;> assumption
  case h_2 => split <;> assumption
  case h_3 => exact lt_of_le_of_lt Nat.and_le_left ho
  all_goals exact ho

/-- A field's turn writes the field's result into its own bits. -/
theorem fieldWrite_eq_withField (v old : Nat) (f : FieldDesc) :
    fieldWrite false v old f = withField old f.hi f.lo (f.result (fieldOf v f.hi f.lo) (fieldOf old f.hi f.lo)) := by
  have hkeep := withField_fieldOf old f.hi f.lo
  have hclear := sub_and_eq_and_xor (fieldOf_lt old f.hi f.lo) (fieldOf_lt v f.hi f.lo)
  unfold fieldWrite FieldDesc.result
  cases f.acc with
  | rw => dsimp only; split <;> simp only [hkeep]
  | rwl => simp only [true_and]; split <;> simp only [hkeep]
  | w1c => simp only [hclear]
  | ro => exact hkeep.symm
  | rc => exact hkeep.symm
  | wo => exact hkeep.symm

theorem fieldOf_fieldWrite_same (v old : Nat) (f : FieldDesc) :
    fieldOf (fieldWrite false v old f) f.hi f.lo = f.result (fieldOf v f.hi f.lo) (fieldOf old f.hi f.lo) := by
  rw [fieldWrite_eq_withField, fieldOf_withField, Nat.mod_eq_of_lt (f.result_lt (fieldOf_lt ..) (fieldOf_lt ..))]

theorem fieldOf_fieldWrite_disjoint (v old : Nat) {f : FieldDesc} {hi lo : Nat} (hf : f.lo ≤ f.hi) (h : lo ≤ hi)
    (hd : f.hi < lo ∨ hi < f.lo) : fieldOf (fieldWrite false v old f) hi lo = fieldOf old hi lo := by
  rw [fieldWrite_eq_withField, fieldOf_withField_disjoint _ _ hf h hd]

/-! ### The turns of all fields -/

/-- The fields of a register lie within its 64 bits, no two of them over one bit. -/
abbrev fieldsApart (fs : List FieldDesc) : Prop :=
  (∀ f ∈ fs, f.lo ≤ f.hi ∧ f.hi < 64) ∧ fs.Pairwise (fun f g => f.hi < g.lo ∨ g.hi < f.lo)

theorem Reg.fieldsApart (r : Reg) : fieldsApart r.desc.fields := by
  cases r <;> decide

/-- Bits that lie outside every field stay. -/
theorem fieldOf_foldl_fieldWrite_outside (v old : Nat) {fs : List FieldDesc} {hi lo : Nat} (h : lo ≤ hi)
    (hfs : ∀ f ∈ fs, f.lo ≤ f.hi ∧ (f.hi < lo ∨ hi < f.lo)) :
    fieldOf (fs.foldl (fieldWrite false v) old) hi lo = fieldOf old hi lo := by
  induction fs generalizing old with
  | nil => rfl
  | cons g fs ih =>
    obtain ⟨⟨hg, hd⟩, hrest⟩ := List.forall_mem_cons.1 hfs
    rw [List.foldl_cons, ih _ hrest, fieldOf_fieldWrite_disjoint v old hg h hd]

/-- A field ends at what its own turn gave it: no other field's turn touches its bits. -/
theorem fieldOf_foldl_fieldWrite (v old : Nat) {fs : List FieldDesc} (hfs : fieldsApart fs) {f : FieldDesc} (hf : f ∈ fs) :
    fieldOf (fs.foldl (fieldWrite false v) old) f.hi f.lo = f.result (fieldOf v f.hi f.lo) (fieldOf old f.hi f.lo) := by
  induction fs generalizing old with
  | nil => cases hf
  | cons g fs ih =>
    obtain ⟨hwithin, hpairs⟩ := hfs
    obtain ⟨hgin, hin⟩ := List.forall_mem_cons.1 hwithin
    obtain ⟨hg, hpair⟩ := List.pairwise_cons.1 hpairs
    rw [List.foldl_cons]
    rcases List.mem_cons.1 hf with rfl | hf
    · have hout : ∀ k ∈ fs, k.lo ≤ k.hi ∧ (k.hi < f.lo ∨ f.hi < k.lo) := fun k hk => ⟨(hin k hk).1, (hg k hk).symm⟩
      rw [fieldOf_foldl_fieldWrite_outside v _ hgin.1 hout, fieldOf_fieldWrite_same]
    · rw [ih _ ⟨hin, hpair⟩ hf, fieldOf_fieldWrite_disjoint v old hgin.1 (hin f hf).1 (hg f hf)]

/-- Fields written within 64 bits leave a number of 64 bits. -/
theorem foldl_fieldWrite_lt (v : Nat) {old : Nat} {fs : List FieldDesc} (hfs : ∀ f ∈ fs, f.lo ≤ f.hi ∧ f.hi < 64) (h : old < 2 ^ 64) :
    fs.foldl (fieldWrite false v) old < 2 ^ 64 := by
  induction fs generalizing old with
  | nil => exact h
  | cons g fs ih =>
    obtain ⟨⟨hlo, hhi⟩, hrest⟩ := List.forall_mem_cons.1 hfs
    rw [List.foldl_cons, fieldWrite_eq_withField]
    exact ih hrest (withField_lt _ _ hlo hhi h)

/-! ### A register after a plain write -/

theorem toNat_getReg_putFields_same (s : State) (r : Reg) (i v : Nat) :
    (getReg (putFields s r i v) r i).toNat = r.desc.fields.foldl (fieldWrite false v) (getReg s r i).toNat := by
  have hlt := foldl_fieldWrite_lt v r.fieldsApart.1 (getReg s r i).isLt
  rw [putFields, getReg_setReg_same, BitVec.toNat_ofNat, writtenVal, Nat.mod_eq_of_lt hlt]

theorem fieldOf_getReg_putFields_same (s : State) (r : Reg) (i v : Nat) {f : FieldDesc} (hf : f ∈ r.desc.fields) :
    fieldOf (getReg (putFields s r i v) r i).toNat f.hi f.lo =
      f.result (fieldOf v f.hi f.lo) (fieldOf (getReg s r i).toNat f.hi f.lo) := by
  rw [toNat_getReg_putFields_same, fieldOf_foldl_fieldWrite v _ r.fieldsApart hf]

theorem getLsbD_getReg_putFields_outside (s : State) (r : Reg) (i v k : Nat) (hk : ∀ f ∈ r.desc.fields, k < f.lo ∨ f.hi < k) :
    (getReg (putFields s r i v) r i).getLsbD k = (getReg s r i).getLsbD k := by
  have hout : ∀ f ∈ r.desc.fields, f.lo ≤ f.hi ∧ (f.hi < k ∨ k < f.lo) := fun f hf => ⟨(r.fieldsApart.1 f hf).1, (hk f hf).symm⟩
  rw [BitVec.getLsbD, BitVec.getLsbD, testBit_eq_fieldOf, testBit_eq_fieldOf, toNat_getReg_putFields_same,
    fieldOf_foldl_fieldWrite_outside v _ le_rfl hout]

theorem getReg_putFields_other (s : State) (r r' : Reg) (i i' v : Nat) (h : (r', i') ≠ (r, i)) :
    getReg (putFields s r i v) r' i' = getReg s r' i' := by
  rw [putFields, getReg_setReg, if_neg fun e => h (Prod.ext e.1 e.2)]

/-! ### The statement -/

/-- Settles O30: a field ends at its own turn's result, and the other bits, registers and parts of the state stay. -/
theorem registerFieldWrites : Obligations.RegisterFieldWrites := by
  unfold Obligations.RegisterFieldWrites
  intro s r i v
  exact ⟨fun f hf => fieldOf_getReg_putFields_same s r i v hf, getLsbD_getReg_putFields_outside s r i v,
    fun r' i' => getReg_putFields_other s r r' i i' v, rfl, rfl, rfl, rfl⟩

end Sys2Proof.Machine
end

section
/-! PROOFS. Control-space accesses (00 R10, R11, R464; 02 R58, R59): what a refused access does, which writes reach a register, which
writers its block admits, and the three commands of the Ridge and of a bay that the statement names. -/

namespace Sys2Proof.Machine

/-! ### Accesses that R10 forbids (00 R11) -/

/-- Away from the doorbells a refused access is counted once. -/
theorem ctlRefuse_outside_doorbells (s : State) {off : Nat} (size : Nat) (wr : Bool) (h : off < 0x100000 ∨ 0x108800 ≤ off) :
    ctlRefuse s off size wr = bump s Fld.identMisalignCnt 0 := by
  have hout : ¬ (0x100000 ≤ off ∧ off < 0x108800) := by omega
  simp [ctlRefuse, hout]

@[simp] theorem threadOf_bump (s : State) (f : Fld) (i t : Nat) : threadOf (bump s f i) t = threadOf s t := rfl

theorem badAccess_thread (s : State) (t : Tid) {off : Nat} (size : Nat) (wr : Bool) (h : off < 0x100000 ∨ 0x108800 ≤ off)
    (ht : (threadOf s t.toNat).st = .ready) :
    badAccess s (.thread t) off size wr =
      trap (bump s Fld.identMisalignCnt 0) t.toNat { cause := causeMisalign, v0 := BitVec.ofNat 64 (ctrlStart + off) } := by
  simp [badAccess, ctlRefuse_outside_doorbells s size wr h, ht]

theorem badAccess_pf_write (s : State) (e : Nat) {off : Nat} (size : Nat) (h : off < 0x100000 ∨ 0x108800 ≤ off) :
    badAccess s (.pf e) off size true = bump s Fld.identMisalignCnt 0 := by
  simp [badAccess, ctlRefuse_outside_doorbells s size true h]

theorem badAccess_pf_read (s : State) (e : Nat) {off : Nat} (size : Nat) (h : off < 0x100000 ∨ 0x108800 ≤ off) :
    badAccess s (.pf e) off size false =
      emit (bump s Fld.identMisalignCnt 0) (.answer (.pf e) (some (if size = 8 then BitVec.allOnes 64 else 0xFFFFFFFF))) := by
  simp [badAccess, ctlRefuse_outside_doorbells s size false h]

theorem exec_misalignedControlAccess (s : State) (req : Requester) (off size : Nat) (wr : Bool) (v : Dword) :
    exec (.misalignedControlAccess req off size wr v) s = .next (if ctlBad off size wr then badAccess s req off size wr else s) := rfl

theorem exec_registerWrite (s : State) (req : Requester) (off size : Nat) (v : Dword) :
    exec (.registerWrite req off size v) s =
      .next (if ctlBad off size true then badAccess s req off size true else ctlWrite s req off size v) := rfl

/-! ### Writes that R10 allows (00 R464; 02 R58, R59) -/

section
variable {s : State} {req : Requester} {off : Nat}

theorem ctlWrite_noRegister (size : Nat) (v : Dword) (hopen : ctlOpen off = true ∨ hostClosed s req = false)
    (hat : Reg.at? off = none) : ctlWrite s req off size v = s := by
  rcases hopen with h | h <;> simp [ctlWrite, gated, hat, h]

theorem ctlWrite_register {r : Reg} {i : Nat} (size : Nat) (v : Dword) (hopen : ctlOpen off = true ∨ hostClosed s req = false)
    (hat : Reg.at? off = some (r, i)) :
    ctlWrite s req off size v = regWrite s req r i (if size = 4 then v &&& 0xFFFFFFFF else v) := by
  rcases hopen with h | h <;> simp [ctlWrite, gated, hat, h]

theorem ctlWrite_closed (size : Nat) (v : Dword) (hoff : ctlOpen off = false) (hc : hostClosed s req = true) :
    ctlWrite s req off size v = bump s Fld.pwrTarpDiscardCnt 0 := by
  simp [ctlWrite, gated, hoff, hc]

end

/-! ### The block of a register (07 Table 7.5) -/

section
variable (s : State) (req : Requester) {r : Reg} (i : Nat) (v : Dword)

theorem regWrite_thatch (h : 0x10000 ≤ r.desc.off ∧ r.desc.off < 0x100000) : regWrite s req r i v = ctlThatch s req r i v.toNat := by
  simp (disch := omega) only [regWrite, if_neg, if_pos]

theorem regWrite_adm (h : 0x400000 ≤ r.desc.off ∧ r.desc.off < 0x800000) : regWrite s req r i v = ctlAdm s req r i v.toNat := by
  simp (disch := omega) only [regWrite, if_neg, if_pos]

theorem regWrite_truss (h : 0x800000 ≤ r.desc.off ∧ r.desc.off < 0x1000000) : regWrite s req r i v = ctlTruss s req r i v.toNat := by
  simp (disch := omega) only [regWrite, if_neg, if_pos]

theorem regWrite_xpt (h : 0x1000000 ≤ r.desc.off ∧ r.desc.off < 0x1800000) : regWrite s req r i v = ctlXpt s req r i v.toNat := by
  simp (disch := omega) only [regWrite, if_neg, if_pos]

theorem regWrite_nawyn (h : 0x1800000 ≤ r.desc.off ∧ r.desc.off < 0x2000000) : regWrite s req r i v = ctlNawyn s req r i v := by
  simp (disch := omega) only [regWrite, if_neg, if_pos]

theorem regWrite_ul (h : 0x2800000 ≤ r.desc.off ∧ r.desc.off < 0x3000000) : regWrite s req r i v = ctlUl s req r i v.toNat := by
  simp (disch := omega) only [regWrite, if_neg, if_pos]

theorem regWrite_gut (h : 0x3800000 ≤ r.desc.off ∧ r.desc.off < 0x3C00000) : regWrite s req r i v = ctlGut s req r i v := by
  simp (disch := omega) only [regWrite, if_neg, if_pos]

theorem regWrite_pwr (h : 0x3C00000 ≤ r.desc.off) : regWrite s req r i v = ctlPwr s req r i v.toNat := by
  simp (disch := omega) only [regWrite, if_neg]

end

/-! ### Writers that a block admits -/

section
variable {req : Requester} (s : State) (cnt : Fld) (k : State → State)

theorem pfOnly_pf (h : Requester.isPf req = true) : pfOnly s req cnt k = k s := by
  simp [pfOnly, refuseIf, h]

theorem pfOnly_other (h : Requester.isPf req = false) : pfOnly s req cnt k = bump s cnt 0 := by
  simp [pfOnly, refuseIf, h]

theorem refuseIf_not_pf_and (h : Requester.isPf req = true) (b : Bool) : refuseIf s (!Requester.isPf req && b) cnt k = k s := by
  simp [refuseIf, h]

end

/-- The registers of the statement that a PF writes plainly. -/
theorem regWrite_plain {req : Requester} (h : Requester.isPf req = true) (s : State) (v : Dword) {r : Reg}
    (hr : r ∈ [Reg.admPoolTgt, .swCtl, .xptRetry, .xptMaxOut, .pwrRoofTimer, .pwrRoofWakeEn, .pwrBootOrder]) :
    regWrite s req r 0 v = putFields s r 0 v.toNat := by
  simp only [List.mem_cons, List.not_mem_nil, or_false] at hr
  rcases hr with rfl | rfl | rfl | rfl | rfl | rfl | rfl
  · rw [regWrite_adm _ _ _ _ (by decide), ctlAdm, pfOnly_pf _ _ _ h]
  · rw [regWrite_truss _ _ _ _ (by decide), ctlTruss, pfOnly_pf _ _ _ h]
  · rw [regWrite_xpt _ _ _ _ (by decide), ctlXpt, refuseIf_not_pf_and _ _ _ h]
  · rw [regWrite_xpt _ _ _ _ (by decide), ctlXpt, refuseIf_not_pf_and _ _ _ h]
  all_goals exact regWrite_pwr _ _ _ _ (by decide)

/-- A writer that is no PF is counted in the block's denied counter. -/
theorem regWrite_denied {req : Requester} (h : Requester.isPf req = false) (s : State) (i : Nat) (v : Dword) :
    regWrite s req .admPoolCap i v = bump s Fld.admDeniedCnt 0 ∧ regWrite s req .swPortCfg i v = bump s Fld.trussDeniedCnt 0 ∧
    regWrite s req .thatchSrcLen i v = bump s Fld.thatchDeniedCnt 0 ∧ regWrite s req .ulCfg i v = bump s Fld.ulDeniedCnt 0 ∧
    regWrite s req .gutSrc i v = bump s Fld.gutDeniedCnt 0 ∧ regWrite s req .nawynTimeCtl i v = bump s Fld.nawynDeniedCnt 0 := by
  refine ⟨?_, ?_, ?_, ?_, ?_, ?_⟩
  · rw [regWrite_adm _ _ _ _ (by decide), ctlAdm, pfOnly_other _ _ _ h]
  · rw [regWrite_truss _ _ _ _ (by decide), ctlTruss, pfOnly_other _ _ _ h]
  · rw [regWrite_thatch _ _ _ _ (by decide), ctlThatch, if_neg (by decide), pfOnly_other _ _ _ h]
  · rw [regWrite_ul _ _ _ _ (by decide), ctlUl, pfOnly_other _ _ _ h]
  · rw [regWrite_gut _ _ _ _ (by decide), ctlGut, if_neg (by decide), pfOnly_other _ _ _ h]
  · rw [regWrite_nawyn _ _ _ _ (by decide), ctlNawyn, pfOnly_other _ _ _ h]

/-! ### NODE_ID_WRITE (03 R78) -/

theorem exec_nodeIdWrite (s : State) (req : Requester) (n : Word) :
    exec (.nodeIdWrite req n) s = .next (nodeIdWrite s req n.toNat) := rfl

theorem nodeIdWrite_unused (s : State) (req : Requester) {v : Nat} (h : v % 4096 = 0xFFF) : nodeIdWrite s req v = s := by
  simp [nodeIdWrite, fieldOf, h]

theorem nodeIdWrite_host (s : State) (e : Nat) {v : Nat} (h : v % 4096 ≠ 0xFFF) :
    nodeIdWrite s (.pf e) v = setF (setF s Fld.pwrNodeIdNodeId 0 (v % 4096)) Fld.pwrNodeIdWritten 0 1 := by
  simp [nodeIdWrite, fieldOf, fromHost, h]

/-- PWR_NODE_ID after a node ID has been set and marked as written. -/
theorem getF_nodeId_written (s : State) (n : Nat) :
    let u := setF (setF s Fld.pwrNodeIdNodeId 0 (n % 4096)) Fld.pwrNodeIdWritten 0 1
    getF u Fld.pwrNodeIdNodeId 0 = n % 4096 ∧ getF u Fld.pwrNodeIdWritten 0 = 1 := by
  constructor
  · have hn := getF_setF_same s Fld.pwrNodeIdNodeId 0 (n % 4096) ⟨by decide, by decide⟩
    rw [getF_setF_disjoint _ Fld.pwrNodeIdWritten Fld.pwrNodeIdNodeId _ _ rfl ⟨by decide, by decide⟩ (by decide) (by decide), hn]
    exact Nat.mod_mod n 4096
  · exact getF_setF_same _ _ _ _ ⟨by decide, by decide⟩

/-! ### CHAIN_RELEASE_WRITE (03 R66) -/

theorem getF_nodeFollow (s : State) (f : Fld) (i : Nat) (h : f.reg ≠ .pwrNodeId) : getF (nodeFollow s) f i = getF s f i := by
  unfold nodeFollow
  split
  · rfl
  · exact getF_setF_other _ _ _ _ _ _ (.inl h)

theorem getF_chainRelease_addressed (s : State) : getF (chainRelease s) Fld.pwrChainAddrAddressed 0 = 0 := by
  rw [chainRelease, getF_nodeFollow _ _ _ (by decide),
    getF_setF_disjoint _ Fld.pwrChainAddrEnOut Fld.pwrChainAddrAddressed _ _ rfl ⟨by decide, by decide⟩ (by decide) (by decide),
    getF_setF_same _ _ _ _ ⟨by decide, by decide⟩, Nat.zero_mod]

theorem getF_chainRelease_enOut (s : State) : getF (chainRelease s) Fld.pwrChainAddrEnOut 0 = 0 := by
  rw [chainRelease, getF_nodeFollow _ _ _ (by decide), getF_setF_same _ _ _ _ ⟨by decide, by decide⟩, Nat.zero_mod]

theorem getF_chainRelease_other (s : State) (f : Fld) (i : Nat) (hn : f.reg ≠ .pwrNodeId) (ha : f.reg ≠ .pwrChainAddr) :
    getF (chainRelease s) f i = getF s f i := by
  rw [chainRelease, getF_nodeFollow _ _ _ hn, getF_setF_other _ _ _ _ _ _ (.inl ha), getF_setF_other _ _ _ _ _ _ (.inl ha),
    getF_setF_other _ _ _ _ _ _ (.inl ha)]

theorem getF_ctlLock_putFields (s : State) (v : Nat) : getF (putFields s .pwrChainCtl 0 v) Fld.pwrChainCtlCtlLock 0 = v % 2 := by
  have h := fieldOf_getReg_putFields_same s .pwrChainCtl 0 v (f := ⟨0, 0, .rw, 0x0, 0, 0x1⟩) (by decide)
  have hv : fieldOf v 0 0 = v % 2 := by simp [fieldOf]
  have hle : v % 2 ≤ 1 := by omega
  rw [getF, h]
  simp [FieldDesc.result, hv, hle]

theorem exec_chainReleaseWrite (s : State) (req : Requester) (n : Word) :
    exec (.chainReleaseWrite req n) s = .next (chainRelease (putFields s .pwrChainCtl 0 (n ||| 2).toNat)) := by
  have hbit : bitN (n ||| 2).toNat 1 = true := by
    have h : (n ||| 2).toNat.testBit 1 = true := by
      rw [BitVec.toNat_or, Nat.testBit_or]
      exact Bool.or_true _
    simpa [bitN, Nat.testBit_eq_decide_div_mod_eq] using h
  show Host.Outcome.next (chainCtlWrite s (n ||| 2).toNat) = _
  rw [chainCtlWrite, if_pos hbit]

theorem chainReleaseWrite_gives_up (s : State) (req : Requester) (n : Word) :
    ∃ u, exec (.chainReleaseWrite req n) s = .next u ∧ getF u Fld.pwrChainAddrAddressed 0 = 0 ∧
      getF u Fld.pwrChainAddrEnOut 0 = 0 ∧ getF u Fld.pwrChainCtlCtlLock 0 = n.toNat % 2 := by
  have hlock : (n ||| 2).toNat % 2 = n.toNat % 2 := by
    have h : (n.toNat ||| 2) % 2 ^ 1 = n.toNat % 2 ^ 1 ||| 2 % 2 ^ 1 := Nat.or_mod_two_pow
    simpa using h
  refine ⟨_, exec_chainReleaseWrite s req n, getF_chainRelease_addressed _, getF_chainRelease_enOut _, ?_⟩
  rw [getF_chainRelease_other _ _ _ (by decide) (by decide), getF_ctlLock_putFields, hlock]

/-! ### POWER_BUDGET_TICK (04 R121) -/

@[simp] theorem bayOf_setBay_same (s : State) (b : Nat) (x : Bay) : bayOf (setBay s b x) b = x := by
  simp [bayOf, setBay]

/-- A bay over its budget loses 100 MHz of its cap. -/
theorem exec_powerBudgetTick_over (s : State) (b est : Nat) (hb : bayExists s b = true) (h : (envOf s b).powerBudget < est) :
    exec (.powerBudgetTick b est) s = .next (setBay s b { bayOf s b with
      capMhz := Nat.max 100 ((if (bayOf s b).capMhz = 0 then rafterMaxMhz else (bayOf s b).capMhz) - 100), underMs := 0 }) := by
  have hover : (bayOf s b).env.powerBudget < est := h
  show execPowerBudgetTick b est s = _
  simp [execPowerBudgetTick, hb, hover]

/-! ### The statement -/

/-- Settles O31: each clause is the law above of the access, the writer or the command it speaks of. -/
theorem controlSpaceWrites : Obligations.ControlSpaceWrites := by
  unfold Obligations.ControlSpaceWrites
  intro s req off size i bay est r v n wr
  refine ⟨?_, ?_, ?_, ?_, ?_, ?_, ?_, fun h hr => regWrite_plain h s _ hr, fun h => regWrite_denied h s i _,
    ?_, ?_, chainReleaseWrite_gives_up s req n, ?_⟩
  · rintro hbad hout t rfl ht
    refine ⟨?_, fun hw => ?_⟩
    · rw [exec_misalignedControlAccess, if_pos hbad, badAccess_thread s t size wr hout ht]; rfl
    · subst hw
      rw [exec_registerWrite, if_pos hbad, badAccess_thread s t size true hout ht]; rfl
  · rintro hbad hout e rfl
    rw [exec_registerWrite, exec_misalignedControlAccess, hbad, badAccess_pf_write s e size hout]
    exact ⟨rfl, rfl⟩
  · rintro hbad hout e rfl
    rw [exec_misalignedControlAccess, if_pos hbad, badAccess_pf_read s e 8 hout]
    rfl
  · intro hok
    rw [exec_misalignedControlAccess, hok]
    rfl
  · intro hok hopen hat
    rw [exec_registerWrite, hok, ctlWrite_noRegister size v hopen hat]
    rfl
  · intro hok hoff hc
    rw [exec_registerWrite, hok, ctlWrite_closed size v hoff hc]
    rfl
  · intro hok hopen hat
    rw [exec_registerWrite, hok, ctlWrite_register size v hopen hat]
    rfl
  · rintro e rfl h
    obtain ⟨hid, hwritten⟩ := getF_nodeId_written s n.toNat
    refine ⟨_, (exec_nodeIdWrite s (.pf e) n).trans (congrArg _ (nodeIdWrite_host s e h)), hid, hwritten, ?_⟩
    rw [setF_mem, setF_mem]
  · rintro e rfl h
    rw [exec_nodeIdWrite, nodeIdWrite_unused s _ h]
  · intro hb hover
    exact ⟨_, exec_powerBudgetTick_over s bay est hb hover, rfl, rfl, by rw [bayOf_setBay_same]; rfl⟩

end Sys2Proof.Machine
end

section
/-! PROOFS. The boot loop (02 R53 to R56; 14 R420; 16 R461): what the commands of an attempt do, which registers the end of one
attempt and the beginning of the next write, and the statement assembled from them. -/

namespace Sys2Proof.Machine

/-! ### Fields of one register and of several -/

/-- Fields that share no bit. -/
abbrev Fld.apart (f g : Fld) : Prop :=
  f.lo ≤ f.hi ∧ f.hi < 64 ∧ g.lo ≤ g.hi ∧ (g.reg ≠ f.reg ∨ f.hi < g.lo ∨ g.hi < f.lo)

theorem getF_setF_apart (s : State) (f g : Fld) (i n : Nat) (h : f.apart g) : getF (setF s f i n) g i = getF s g i := by
  obtain ⟨hf, hf64, hg, h⟩ := h
  by_cases hreg : g.reg = f.reg
  · exact getF_setF_disjoint s f g i n hreg ⟨hf, hf64⟩ hg (h.resolve_left (not_not.2 hreg))
  · exact getF_setF_other s f g i i n (.inl hreg)

/-- A field holds a value of its width once it is written. -/
theorem getF_setF_within (s : State) (f : Fld) (i : Nat) {n : Nat} (hf : f.lo ≤ f.hi ∧ f.hi < 64) (hn : n < 2 ^ (f.hi - f.lo + 1)) :
    getF (setF s f i n) f i = n :=
  (getF_setF_same s f i n hf).trans (Nat.mod_eq_of_lt hn)

/-- A saturating counter counts as long as it is below its greatest value. -/
theorem getF_bumpSat_below (s : State) (f : Fld) (i : Nat) (hf : f.lo ≤ f.hi ∧ f.hi < 64)
    (h : getF s f i < 2 ^ (f.hi - f.lo + 1) - 1) : getF (bumpSat s f i) f i = getF s f i + 1 := by
  have hmin : Nat.min (getF s f i + 1) (2 ^ (f.hi - f.lo + 1) - 1) = getF s f i + 1 := Nat.min_eq_left h
  rw [bumpSat, hmin]
  exact getF_setF_within s f i hf (by omega)

theorem getF_of_regs_eq {s u : State} (h : u.regs = s.regs) (f : Fld) (i : Nat) : getF u f i = getF s f i := by
  simp only [getF, getReg, h]

theorem setF_regs_eq {s u : State} (h : u.regs = s.regs) (f : Fld) (i n : Nat) : (setF u f i n).regs = (setF s f i n).regs := by
  simp only [setF, setReg, getReg, h]

theorem slotSrc_setF (s : State) (f : Fld) (i n k : Nat) (h : f.reg ≠ .pwrBootOrder) : slotSrc (setF s f i n) k = slotSrc s k :=
  getF_setF_other _ _ _ _ _ _ (.inl h.symm)

/-! ### The Ridge's log lines write no register -/

theorem foldl_regs {α : Type} {f : State → α → State} (h : ∀ s a, (f s a).regs = s.regs) (l : List α) (s : State) :
    (l.foldl f s).regs = s.regs := by
  induction l generalizing s with
  | nil => rfl
  | cons a l ih => rw [List.foldl_cons, ih, h]

theorem conFlushLog_regs (s : State) : (conFlushLog s).regs = s.regs := by
  unfold conFlushLog
  split
  · exact foldl_regs (fun u i => foldl_regs (fun v c => emit_regs v (.con c)) _ u) _ s
  · rfl

theorem conLog_regs (s : State) : (conLog s).regs = s.regs := conFlushLog_regs _

/-! ### The end of an attempt and the beginning of the next (02 R53, R55, Table 2.13) -/

/-- PWR_BOOT_STAT after an attempt has ended: its source, its result, no current source. -/
def recordEnd (s : State) (src r : Nat) : State :=
  setF (setF (setF s Fld.pwrBootStatLastSrc 0 src) Fld.pwrBootStatLastResult 0 r) Fld.pwrBootStatCurSrc 0 0

/-- An attempt of no neighbour, begun by no sender, leaves PWR_BOOT_STAT's record and nothing else. -/
theorem attemptEnd_eq {s : State} {a : Attempt} (ha : s.ridge.attempt = some a) (hp : a.path = none) {src : Nat} (hsrc : src ≠ 5)
    (r : Nat) : attemptEnd s src r = setAttempt (recordEnd s src r) none := by
  simp [attemptEnd, pushAnswer, recordEnd, ha, hp, hsrc]

theorem slotSrc_recordEnd (s : State) (src r k : Nat) : slotSrc (recordEnd s src r) k = slotSrc s k := by
  simp (disch := decide) only [recordEnd, slotSrc_setF]

theorem getF_recordEnd_lastSrc (s : State) {src : Nat} (r : Nat) (h : src < 8) :
    getF (recordEnd s src r) Fld.pwrBootStatLastSrc 0 = src := by
  simp (disch := decide) only [recordEnd, getF_setF_apart]
  exact getF_setF_within _ _ _ (by decide) h

theorem getF_recordEnd_lastResult (s : State) (src : Nat) {r : Nat} (h : r < 8) :
    getF (recordEnd s src r) Fld.pwrBootStatLastResult 0 = r := by
  simp (disch := decide) only [recordEnd, getF_setF_apart]
  exact getF_setF_within _ _ _ (by decide) h

theorem getF_recordEnd_bootAttempts (s : State) (src r : Nat) :
    getF (recordEnd s src r) Fld.bootAttempts 0 = getF s Fld.bootAttempts 0 := by
  simp (disch := decide) only [recordEnd, getF_setF_apart]

/-- What an attempt writes in registers as it begins: the count of attempts and its source. -/
theorem beginAttempt_regs (s : State) (slot : Nat) {src : Nat} (h : src ≠ 5) :
    (beginAttempt s slot src).regs = (setF (bumpSat s Fld.bootAttempts 0) Fld.pwrBootStatCurSrc 0 src).regs := by
  rw [← setF_regs_eq (conLog_regs (bumpSat s Fld.bootAttempts 0))]
  unfold beginAttempt
  by_cases hspi : src ≤ 2 <;> simp only [h, hspi, if_false, decide_true, decide_false, if_true] <;> rfl

theorem trySlots_listed {s : State} {i src : Nat} (is : List Nat) (hi : slotSrc s i = src) (h1 : 1 ≤ src) (h5 : src ≤ 5) :
    trySlots s (i :: is) = beginAttempt s i src := by
  have hlisted : ¬ (src = 0 ∨ 5 < src) := by omega
  rw [trySlots]
  simp only [hi, hlisted, if_false]

/-- The slots after one of the first four begin with the next. -/
theorem laterSlots_eq_cons {n : Nat} (h : n < 4) : ∃ is, (List.range 5).filter (fun i => decide (n < i)) = (n + 1) :: is := by
  interval_cases n <;> exact ⟨_, rfl⟩

section
variable {s : State} {a : Attempt}

theorem attemptFail_eq (ha : s.ridge.attempt = some a) (r : Nat) :
    attemptFail s r = trySlots (attemptEnd s a.src r) ((List.range 5).filter (fun i => decide (a.slot < i))) := by
  simp only [attemptFail, ha]

/-- A failed attempt whose next slot has a source is recorded, and that slot's attempt begins, counted. -/
theorem attemptFail_next (ha : s.ridge.attempt = some a) (hsrc : a.src ≤ 4) (hp : a.path = none) {k src r : Nat}
    (hk : k = a.slot + 1) (hk4 : k ≤ 4) (hslot : slotSrc s k = src) (h1 : 1 ≤ src) (h4 : src ≤ 4) (hr : r < 8)
    (hcount : getF s Fld.bootAttempts 0 < 2 ^ 32 - 1) :
    ∃ w, attemptFail s r = w ∧ getF w Fld.pwrBootStatLastSrc 0 = a.src ∧ getF w Fld.pwrBootStatLastResult 0 = r ∧
      getF w Fld.pwrBootStatCurSrc 0 = src ∧ getF w Fld.bootAttempts 0 = getF s Fld.bootAttempts 0 + 1 ∧
      ∃ b, w.ridge.attempt = some b ∧ b.slot = k ∧ b.src = src ∧ b.image = [] := by
  have hfail : attemptFail s r = beginAttempt (setAttempt (recordEnd s a.src r) none) k src := by
    obtain ⟨is, his⟩ := laterSlots_eq_cons (n := a.slot) (by omega)
    have hnext := (slotSrc_recordEnd s a.src r k).trans hslot
    rw [attemptFail_eq ha, attemptEnd_eq ha hp (by omega), his, ← hk]
    exact trySlots_listed is hnext h1 (by omega)
  have hread (f : Fld) : getF (attemptFail s r) f 0 =
      getF (setF (bumpSat (recordEnd s a.src r) Fld.bootAttempts 0) Fld.pwrBootStatCurSrc 0 src) f 0 := by
    rw [hfail]
    exact getF_of_regs_eq (beginAttempt_regs _ k (by omega)) f 0
  refine ⟨_, rfl, ?_, ?_, ?_, ?_, _, congrArg (·.ridge.attempt) hfail, rfl, rfl, rfl⟩
  · rw [hread, getF_setF_apart _ _ _ _ _ (by decide), bumpSat, getF_setF_apart _ _ _ _ _ (by decide)]
    exact getF_recordEnd_lastSrc s r (by omega)
  · rw [hread, getF_setF_apart _ _ _ _ _ (by decide), bumpSat, getF_setF_apart _ _ _ _ _ (by decide)]
    exact getF_recordEnd_lastResult s a.src hr
  · rw [hread]
    exact getF_setF_within _ _ _ (by decide) (show src < 8 by omega)
  · have hkept := getF_recordEnd_bootAttempts s a.src r
    rw [hread, getF_setF_apart _ _ _ _ _ (by decide), getF_bumpSat_below _ _ _ (by decide) (by rwa [hkept]), hkept]

/-- The last slot of a cycle fails: the cycle has failed, and its backoff begins (02 R55). -/
theorem attemptFail_last (ha : s.ridge.attempt = some a) (hsrc : a.src ≤ 4) (hp : a.path = none) (hslot : a.slot = 4)
    (hfirst : s.ridge.firstCycle = false) (r : Nat) :
    ∃ w, attemptFail s r = w ∧ w.ridge.attempt = none ∧ w.ridge.failedCycles = s.ridge.failedCycles + 1 ∧
      getF w Fld.pwrBootStatCycleActive 0 = 0 ∧
      w.ridge.backoffEnd = some (s.ftime + Nat.min (2 ^ s.ridge.failedCycles) 64 * 1000000000) := by
  have hnone : (List.range 5).filter (fun i => decide (a.slot < i)) = [] := by rw [hslot]; rfl
  have hfail : attemptFail s r = cycleCount (attemptEnd s a.src r) := by
    have hlater : (attemptEnd s a.src r).ridge.firstCycle = false := by
      rw [attemptEnd_eq ha hp (by omega)]
      exact hfirst
    rw [attemptFail_eq ha, hnone, trySlots, cycleFail]
    simp only [hlater, Bool.false_eq_true, if_false]
  rw [attemptEnd_eq ha hp (by omega)] at hfail
  refine ⟨_, hfail, rfl, rfl, ?_, rfl⟩
  simp (disch := decide) only [cycleCount, getF_setF_apart]
  exact getF_setF_within _ _ _ (by decide) (by decide)

/-! ### The commands of an attempt (02 Table 2.8, 14 R420, 16 R461) -/

theorem exec_spiResetWaitExpiry (ha : s.ridge.attempt = some a) (hg : a.stage = .spiReset) :
    exec .spiResetWaitExpiry s = .next (setAttempt s (some { a with stage := .sfdp })) := by
  show execSpiResetWaitExpiry s = _
  simp [execSpiResetWaitExpiry, mapAttempt, ha, hg]

theorem exec_sfdpReadDone (ha : s.ridge.attempt = some a) (hg : a.stage = .sfdp) (m : Nat) :
    exec (.sfdpReadDone m) s =
      .next (setAttempt { s with ridge := { s.ridge with spiMode := m % 4 } } (some { a with stage := .header })) := by
  show execSfdpReadDone m s = _
  simp [execSfdpReadDone, ha, hg]

/-- The first 128 bytes from flash are checked (14 R420 step 2). -/
theorem exec_bootHeaderCheck_spi (ha : s.ridge.attempt = some a) (hg : a.stage = .header) (hsrc : a.src ≤ 2) {hdr : List Byte}
    (hlen : 128 ≤ hdr.length) : exec (.bootHeaderCheck hdr) s = .next (headerCheck s a hdr) := by
  show execBootHeaderCheck hdr s = _
  simp [execBootHeaderCheck, ha, hg, hsrc, hlen]

theorem headerCheck_wellFormed (s : State) {hdr : List Byte} (hok : bootHeaderOk hdr = true) (hsize : a.size = 0) (himg : a.image = []) :
    headerCheck s a hdr = setAttempt s (some { a with stage := .body, size := leAt hdr 8 8, image := hdr.take 128 }) := by
  simp [headerCheck, hok, hsize, himg, bootSize]

theorem headerCheck_malformed (s : State) {hdr : List Byte} (hbad : bootHeaderOk hdr = false) : headerCheck s a hdr = attemptFail s 3 := by
  simp [headerCheck, hbad]

theorem exec_bootImageReadDone_spi (ha : s.ridge.attempt = some a) (hg : a.stage = .body) (hsrc : a.src ≤ 2) {img : List Byte}
    (hlen : img.length = a.size) (hhdr : img.take 128 = a.image.take 128) :
    exec (.bootImageReadDone img) s = .next (setAttempt s (some { a with stage := .hashing, image := img })) := by
  show execBootImageReadDone img s = _
  simp [execBootImageReadDone, ha, hg, hsrc, hlen, hhdr]

theorem exec_bootReadError (ha : s.ridge.attempt = some a) (hg : a.stage = .sfdp ∨ a.stage = .header ∨ a.stage = .body) :
    exec .bootReadError s = .next (attemptFail s 6) := by
  show execBootReadError s = _
  rcases hg with hg | hg | hg <;> simp [execBootReadError, ha, hg]

/-- A neighbour that has begun no push within its turn: the next link's turn, or the attempt fails. -/
theorem exec_neighbourTurnTimeout (ha : s.ridge.attempt = some a) (hsrc : a.src = 5) (hp : a.path = none) :
    exec .neighbourTurnTimeout s =
      .next (if a.link < 15 then setAttempt s (some { a with link := a.link + 1 }) else attemptFail s 2) := by
  show execNeighbourTurnTimeout s = _
  simp [execNeighbourTurnTimeout, ha, hsrc, hp]

/-- A boot request goes to the broadcast address (02 R54). -/
theorem exec_networkBootTick (ha : s.ridge.attempt = some a) (hsrc : a.src = 4) (hp : a.path = none) :
    ∃ m, exec .networkBootTick s = .next (emit (drawDword s).2 (.frame 0 (bareFrame s 0xFFFFFFFFFFFF m))) := by
  have hrow : exec .networkBootTick s = execNetworkBootTick s := rfl
  simp only [hrow, execNetworkBootTick, ha, hsrc, hp, and_self, if_true]
  exact ⟨_, rfl⟩

end

/-- A bare-port frame begins with its destination (07 R210). -/
theorem bareFrame_take_six (s : State) (dst : Nat) (m : List Byte) : (bareFrame s dst m).take 6 = beBytes 6 dst := by
  unfold bareFrame
  simp only [List.append_assoc]
  exact List.take_left' (by simp [beBytes])

/-! ### The statement -/

/-- Settles O24: each clause is the law above of the command, or of the attempt's failure, that it speaks of. -/
theorem bootSteps : Obligations.BootSteps := by
  unfold Obligations.BootSteps
  intro s a hdr img m src r k sig1 sig2 ha goes u t c
  refine ⟨exec_spiResetWaitExpiry ha, fun hg => exec_sfdpReadDone ha hg m, ?_, ?_,
    fun hg hsrc hlen hhdr => exec_bootImageReadDone_spi ha hg hsrc hlen hhdr, ?_,
    ⟨_, rfl, rfl, rfl, rfl, rfl⟩, rfl, exec_bootReadError ha, ?_, ?_, ?_,
    fun hsrc hp hk hk4 hslot h1 h4 hr hcount => attemptFail_next ha hsrc hp hk hk4 hslot h1 h4 hr hcount,
    fun hsrc hp hslot hfirst => attemptFail_last ha hsrc hp hslot hfirst r⟩
  · intro hg hsrc hlen hok hsize himg
    exact (exec_bootHeaderCheck_spi ha hg hsrc hlen).trans (congrArg _ (headerCheck_wellFormed s hok hsize himg))
  · intro hg hsrc hlen hbad
    rw [exec_bootHeaderCheck_spi ha hg hsrc hlen, headerCheck_malformed s hbad]
  · intro hg
    show execBootSignatureCheckDone sig1 sig2 s = _
    simp only [execBootSignatureCheckDone, ha, hg, ne_eq, not_true_eq_false, if_false]
    rfl
  · intro hsrc hp hlink
    exact (exec_neighbourTurnTimeout ha hsrc hp).trans (congrArg _ (if_pos hlink))
  · intro hsrc hp hlink
    rw [exec_neighbourTurnTimeout ha hsrc hp, if_neg (by omega)]
  · intro hsrc hp
    obtain ⟨frame, hexec⟩ := exec_networkBootTick ha hsrc hp
    exact ⟨_, hexec, bareFrame_take_six s _ frame⟩

end Sys2Proof.Machine
end

section
/-! PROOFS. The Ridge mailbox (07 R208 to R211, Tables 7.9, 7.10; 03 R74, R75): how the one message of the queue is found and
answered, what each message does, and the bare port (02 R58). -/

namespace Sys2Proof.Machine

/-! ### The message at the front, and its answer -/

section
variable {s : State} {p mac : Nat} {bs : List Byte} (hq : s.host.ridgeQ = [(p, bs, mac)])
include hq

theorem mbxFront_single {typ : Nat} (ht : msgType bs = typ) : mbxFront s typ = some (p, bs) := by
  simp only [mbxFront, hq, ht, if_true]

/-- The answered message leaves the queue (07 R209). -/
theorem mbxReply_single (st : Nat) (out : List Byte) : mbxReply s st out =
    { respond s p mac (msgType bs) (msgSeq p bs) st out with
      host := { (respond s p mac (msgType bs) (msgSeq p bs) st out).host with ridgeQ := [] } } := by
  simp only [mbxReply, hq, dropUnknown]

/-- A message of its type's length is handled. -/
theorem mbxHandle_fits {typ n : Nat} (ht : msgType bs = typ) (hlen : msgLen p bs = n ∧ (msgPayload p bs).length = n)
    (f : Nat → List Byte → State) : mbxHandle s typ n f = f p bs := by
  simp [mbxHandle, mbxFront_single hq ht, hlen.1, hlen.2]

theorem mbxHandle_badLen {typ n : Nat} (ht : msgType bs = typ) (hlen : msgLen p bs ≠ n) (f : Nat → List Byte → State) :
    mbxHandle s typ n f = mbxReply s stBadLen [] := by
  simp [mbxHandle, mbxFront_single hq ht, hlen]

end

/-- ctl_lock denies what comes by the chain or the bare port (03 R75, 07 R209). -/
theorem mbxLocked_iff (s : State) (p : Nat) :
    mbxLocked s p = true ↔ (p = 2 ∨ p = 3) ∧ getF s Fld.pwrChainCtlCtlLock 0 = 1 := by
  have hbit : getF s Fld.pwrChainCtlCtlLock 0 < 2 := fieldOf_lt _ 0 0
  have hone : getF s Fld.pwrChainCtlCtlLock 0 ≠ 0 ↔ getF s Fld.pwrChainCtlCtlLock 0 = 1 := by omega
  simp [mbxLocked, flagF, hone]

/-! ### PING, STATUS, LOG_READ, TARP_FORCE, RESET_WARM, ACC_POWER (07 Table 7.10) -/

section
variable {s : State} {p mac : Nat} {bs : List Byte} (hq : s.host.ridgeQ = [(p, bs, mac)])
include hq

theorem exec_mbxPing_fits (ht : msgType bs = 0x01) (hlen : msgLen p bs = 0 ∧ (msgPayload p bs).length = 0) :
    exec .mbxPing s = .next (mbxReply s stOk (pingPayload s)) :=
  congrArg _ (mbxHandle_fits hq ht hlen _)

theorem exec_mbxPing_badLen (ht : msgType bs = 0x01) (hlen : 1 ≤ msgLen p bs) :
    exec .mbxPing s = .next (mbxReply s stBadLen []) :=
  congrArg _ (mbxHandle_badLen hq ht (by omega) _)

theorem exec_mbxStatus_fits (ht : msgType bs = 0x02) (hlen : msgLen p bs = 0 ∧ (msgPayload p bs).length = 0) :
    exec .mbxStatus s = .next (mbxReply s stOk (statusPayload s)) :=
  congrArg _ (mbxHandle_fits hq ht hlen _)

theorem exec_logRead_fits (ht : msgType bs = 0x20) (hlen : msgLen p bs = 0 ∧ (msgPayload p bs).length = 0) :
    exec .logRead s =
      .next (mbxReply { s with host := { s.host with log := s.host.log.drop 4080 } } stOk (s.host.log.take 4080)) :=
  congrArg _ (mbxHandle_fits hq ht hlen _)

theorem exec_mbxTarpForce_fits (ht : msgType bs = 0x30) (hlen : msgLen p bs = 0 ∧ (msgPayload p bs).length = 0) :
    exec .mbxTarpForce s = .next (if mbxLocked s p then mbxDenied s else mbxReply (tarpEnter s 6) stOk []) :=
  congrArg _ (mbxHandle_fits hq ht hlen _)

theorem exec_mbxResetWarm_fits (ht : msgType bs = 0x31) (hlen : msgLen p bs = 2 ∧ (msgPayload p bs).length = 2) :
    exec .mbxResetWarm s = .next (if mbxLocked s p then mbxDenied s
      else if leAt (msgPayload p bs) 0 2 ≠ 0x5AA5 then mbxReply s stBadLen [] else resetWarmCmd (mbxReply s stOk [])) :=
  congrArg _ (mbxHandle_fits hq ht hlen _)

theorem exec_mbxAccPower_fits (ht : msgType bs = 0x32) (hlen : msgLen p bs = 2 ∧ (msgPayload p bs).length = 2) :
    exec .mbxAccPower s = .next (if mbxLocked s p then mbxDenied s
      else if 16 ≤ leAt (msgPayload p bs) 0 1 ∨ 3 < leAt (msgPayload p bs) 1 1 then mbxReply s stBadLen []
      else mbxReply (accRequest s (leAt (msgPayload p bs) 0 1) (leAt (msgPayload p bs) 1 1)) stOk []) :=
  congrArg _ (mbxHandle_fits hq ht hlen _)

end

/-- The confirm bytes of RESET_WARM (03 R74) are one number. -/
theorem leAt_eq_confirm_iff {body : List Byte} (hlen : body.length = 2) : leAt body 0 2 = 0x5AA5 ↔ body = [0xA5, 0x5A] := by
  have hwhole : leAt body 0 2 = leNat body := by simp [leAt, ← hlen]
  constructor
  · intro h
    rw [← leBytes_leNat body, hlen, ← hwhole, h]
    rfl
  · rintro rfl
    rfl

/-! ### Pushes (07 R211) -/

section
variable {s : State} {p : Nat} {bs : List Byte} {a : Attempt}

theorem bootBegin_waiting (hlen : msgLen p bs = 8 ∧ (msgPayload p bs).length = 8) (ha : s.ridge.attempt = some a)
    (hp : a.path = none) (hpush : pushPath a p = true) :
    bootBegin s p bs = (stOk, [],
      setAttempt s (some { a with path := some p, stage := .header, size := leAt (msgPayload p bs) 0 8, image := [] })) := by
  simp [bootBegin, hlen.1, hlen.2, ha, hp, hpush]

theorem bootBegin_noAttempt (hlen : msgLen p bs = 8 ∧ (msgPayload p bs).length = 8) (ha : s.ridge.attempt = none) :
    bootBegin s p bs = (stNotNow, statusPayload s, s) := by
  simp [bootBegin, hlen.1, hlen.2, ha]

/-- A block of the push under way: at the next offset it is appended while it fits, at another it is refused. -/
theorem bootBlock_pushed (hlen : msgLen p bs = (msgPayload p bs).length) (hmin : 9 ≤ (msgPayload p bs).length)
    (hmax : (msgPayload p bs).length ≤ 4080) (ha : s.ridge.attempt = some a) (hp : a.path = some p) (hg : a.stage ≠ .hashing) :
    bootBlock s p bs =
      if leAt (msgPayload p bs) 0 8 ≠ a.image.length then (stBadSeq, [], s)
      else if a.size < a.image.length + ((msgPayload p bs).drop 8).length then (stBadLen, [], s)
      else (stOk, [], setAttempt s (some { a with image := a.image ++ (msgPayload p bs).drop 8 })) := by
  have hfits : ¬ ((msgPayload p bs).length < 9 ∨ 4080 < (msgPayload p bs).length ∨ (msgPayload p bs).length ≠ msgLen p bs) := by
    omega
  have hown : ¬ (a.path ≠ some p ∨ a.stage = .hashing) := by simp [hp, hg]
  simp only [bootBlock, hfits, ha, hown, if_false]

theorem bootEnd_whole (hlen : msgLen p bs = 0) (ha : s.ridge.attempt = some a) (hp : a.path = some p) (hg : a.stage = .body)
    (hall : a.size = a.image.length) (hsize : a.size = leAt a.image 8 8) :
    bootEnd s p bs = (none, setAttempt s (some { a with stage := .hashing })) := by
  simp [bootEnd, hlen, ha, hp, hg, ← hall, bootSize, ← hsize]

theorem bootEnd_short (hlen : msgLen p bs = 0) (ha : s.ridge.attempt = some a) (hp : a.path = some p) (hg : a.stage = .body)
    (hshort : a.image.length < a.size) : bootEnd s p bs = (some (stBadSeq, []), s) := by
  simp [bootEnd, hlen, ha, hp, hg, hshort]

end

section
variable {s u : State} {p mac st : Nat} {bs out : List Byte} (hq : s.host.ridgeQ = [(p, bs, mac)])
include hq

theorem exec_bootBegin (ht : msgType bs = 0x10) (h : bootBegin s p bs = (st, out, u)) :
    exec .bootBegin s = .next (mbxReply u st out) := by
  show execBootBegin s = _
  simp only [execBootBegin, mbxFront_single hq ht, h]

theorem exec_bootBlock (ht : msgType bs = 0x11) (h : bootBlock s p bs = (st, out, u)) :
    exec .bootBlock s = .next (mbxReply u st out) := by
  show execBootBlock s = _
  simp only [execBootBlock, mbxFront_single hq ht, h]

theorem exec_bootEnd_answered (ht : msgType bs = 0x12) (h : bootEnd s p bs = (some (st, out), u)) :
    exec .bootEnd s = .next (mbxReply u st out) := by
  show execBootEnd s = _
  simp only [execBootEnd, mbxFront_single hq ht, h]

/-- The answer of a whole image's BOOT_END follows its checks. -/
theorem exec_bootEnd_checking (ht : msgType bs = 0x12) (h : bootEnd s p bs = (none, u)) : exec .bootEnd s = .next u := by
  show execBootEnd s = _
  simp only [execBootEnd, mbxFront_single hq ht, h]

end

/-! ### The bare port (02 R58, 07 R206, R210) -/

theorem exec_barePortFrame_otherType (s : State) {et : Nat} (src : Nat) (msg : List Byte) (h : et ≠ 0x88B5) :
    exec (.barePortFrame et src msg) s = .next s := by
  show execBarePortFrame et src msg s = _
  simp [execBarePortFrame, h]

/-- A frame of the Ridge's EtherType raises a PME event of each PF and a wake source, and queues its message. -/
theorem exec_barePortFrame_message (s : State) (src : Nat) {msg : List Byte} (hreset : inReset s = false)
    (hport : barePortUp s = true) (hlen : 16 ≤ msg.length) :
    exec (.barePortFrame 0x88B5 src msg) s =
      .next (mbxArrive (roofSource (pmeEvent (pmeEvent s 0 0 1) 1 0 1) 6 []) pathBare msg src) := by
  show execBarePortFrame 0x88B5 src msg s = _
  simp [execBarePortFrame, hreset, hport, Nat.not_lt.2 hlen]

/-! ### The statement -/

/-- Settles O28: each clause is the law above of the message it speaks of, with its answer out of the queue. -/
theorem mailboxMessages : Obligations.MailboxMessages := by
  unfold Obligations.MailboxMessages
  intro s p mac et bs blk a hq body fits answered answers locked
  have hreply (u : State) (st : Nat) (out : List Byte) (hu : u.host.ridgeQ = [(p, bs, mac)]) :
      mbxReply u st out = answered u st out := mbxReply_single hu st out
  have hanswer {e : Host.Outcome State Fault Refusal} {u : State} {st : Nat} {out : List Byte} (he : e = .next (mbxReply u st out))
      (hu : u.host.ridgeQ = [(p, bs, mac)]) : e = .next (answered u st out) := he.trans (congrArg _ (hreply u st out hu))
  have hdenied : mbxDenied s = answered (bump s Fld.pwrDeniedCnt 0) 5 [] := hreply _ _ _ hq
  have hopen (h : ¬ locked) : mbxLocked s p = false := Bool.eq_false_iff.2 fun hl => h ((mbxLocked_iff s p).1 hl)
  refine ⟨fun ht hlen => hanswer (exec_mbxPing_fits hq ht hlen) hq, fun ht hlen => hanswer (exec_mbxPing_badLen hq ht hlen) hq,
    fun ht hlen => hanswer (exec_mbxStatus_fits hq ht hlen) hq, fun ht hlen => hanswer (exec_logRead_fits hq ht hlen) hq,
    ?_, ?_, ?_, ?_, ?_,
    fun ht hlen ha hp hpush => hanswer (exec_bootBegin hq ht (bootBegin_waiting hlen ha hp hpush)) hq,
    fun ht hlen ha => hanswer (exec_bootBegin hq ht (bootBegin_noAttempt hlen ha)) hq, ?_, ?_,
    fun ht hlen ha hp hg hall hsize => exec_bootEnd_checking hq ht (bootEnd_whole hlen ha hp hg hall hsize),
    fun ht hlen ha hp hg hshort => hanswer (exec_bootEnd_answered hq ht (bootEnd_short hlen ha hp hg hshort)) hq,
    exec_barePortFrame_otherType s mac blk,
    fun hreset hport hlen => exec_barePortFrame_message s mac hreset (by simp [barePortUp, hport]) hlen⟩
  · intro ht hlen hl
    rw [exec_mbxTarpForce_fits hq ht hlen, hopen hl]
    rfl
  · intro ht hlen hl hbody
    have hconfirm : leAt (msgPayload p bs) 0 2 = 0x5AA5 := (leAt_eq_confirm_iff hlen.2).2 hbody
    rw [exec_mbxResetWarm_fits hq ht hlen, hopen hl, if_neg Bool.false_ne_true, if_neg (not_not.2 hconfirm), hreply _ _ _ hq]
    rfl
  · intro ht hlen hl hbody
    have hwrong : leAt (msgPayload p bs) 0 2 ≠ 0x5AA5 := fun h => hbody ((leAt_eq_confirm_iff hlen.2).1 h)
    refine hanswer ?_ hq
    rw [exec_mbxResetWarm_fits hq ht hlen, hopen hl, if_neg Bool.false_ne_true, if_pos hwrong]
    rfl
  · intro ht hlen hl hn hr
    have hargs : ¬ (16 ≤ leAt (msgPayload p bs) 0 1 ∨ 3 < leAt (msgPayload p bs) 1 1) :=
      not_or.2 ⟨Nat.not_le.2 hn, Nat.not_lt.2 hr⟩
    rw [exec_mbxAccPower_fits hq ht hlen, hopen hl, if_neg Bool.false_ne_true, if_neg hargs]
    rfl
  · intro hl
    have hlocked : mbxLocked s p = true := (mbxLocked_iff s p).2 hl
    refine ⟨fun ht hlen => ?_, fun ht hlen => ?_, fun ht hlen => ?_⟩
    · rw [exec_mbxTarpForce_fits hq ht hlen, if_pos hlocked, hdenied]
    · rw [exec_mbxResetWarm_fits hq ht hlen, if_pos hlocked, hdenied]
    · rw [exec_mbxAccPower_fits hq ht hlen, if_pos hlocked, hdenied]
  · intro ht hlen hmin hmax ha hp hg hoff hroom
    have hblock := bootBlock_pushed hlen hmin hmax ha hp hg
    rw [if_neg (not_not.2 hoff), if_neg (Nat.not_lt.2 hroom)] at hblock
    exact hanswer (exec_bootBlock hq ht hblock) hq
  · intro ht hlen hmin hmax ha hp hg hoff
    have hblock := bootBlock_pushed hlen hmin hmax ha hp hg
    rw [if_pos hoff] at hblock
    exact hanswer (exec_bootBlock hq ht hblock) hq

end Sys2Proof.Machine
end

section
/-! PROOFS. The management chain (03 R65 to R77, Tables 3.1 to 3.3): a frame that the unit answers, what taking and giving up an
address writes, what each command does at the unit's address and at another, and the statement assembled from them. -/

namespace Sys2Proof.Machine

/-! ### Flags -/

theorem flagF_eq_false {s : State} {f : Fld} {i : Nat} (h : getF s f i = 0) : flagF s f i = false := by
  simp [flagF, h]

theorem flagF_eq_true {s : State} {f : Fld} {i : Nat} (h : getF s f i = 1) : flagF s f i = true := by
  simp [flagF, h]

/-- ctl_lock is one bit (03 R75). -/
theorem ctlLock_open {s : State} (h : ¬ getF s Fld.pwrChainCtlCtlLock 0 = 1) : flagF s Fld.pwrChainCtlCtlLock 0 = false := by
  have hbit : getF s Fld.pwrChainCtlCtlLock 0 < 2 := fieldOf_lt _ 0 0
  exact flagF_eq_false (by omega)

/-! ### An answered frame (03 R69, Table 3.1) -/

/-- An OK answer is one frame: status and len in two bytes, then the payload, then the crc. -/
theorem chainAnswer_ok_frame (s : State) (ad cmd : Nat) (w body : List Byte) :
    ∃ f, (chainAnswer s ad cmd w chOk body).out = .chain f :: s.out ∧ (f.drop 2).take body.length = body :=
  ⟨_, rfl, List.take_left' rfl⟩

@[simp] theorem beBytes_length (n v : Nat) : (beBytes n v).length = n := by
  rw [beBytes, List.length_reverse, leBytes_length]

theorem chainAnswer_mem (s : State) (ad cmd : Nat) (w : List Byte) (st : Nat) (body : List Byte) :
    (chainAnswer s ad cmd w st body).mem = s.mem := rfl

theorem chainAnswer_msgOut (s : State) (ad cmd : Nat) (w : List Byte) (st : Nat) (body : List Byte) :
    (chainAnswer s ad cmd w st body).chain.msgOut = s.chain.msgOut := rfl

/-! ### The status that a frame leaves (03 R70) -/

theorem chainStatus_lastStatus (s : State) (st : Nat) : (chainStatus s st).chain.lastStatus = st := rfl

theorem getF_chainStatus (s : State) (st : Nat) (f : Fld) (i : Nat) : getF (chainStatus s st) f i = getF s f i := rfl

/-! ### The level of RCH_EN_IN at a start condition -/

section
variable (s : State) (enIn : Bool)

@[simp] theorem chainEnIn_mem : (chainEnIn s enIn).mem = s.mem := rfl

@[simp] theorem chainEnIn_out : (chainEnIn s enIn).out = s.out := rfl

@[simp] theorem inReset_chainEnIn : inReset (chainEnIn s enIn) = inReset s := rfl

theorem getF_chainEnIn {f : Fld} (h : Fld.pwrChainAddrEnIn.apart f) : getF (chainEnIn s enIn) f 0 = getF s f 0 :=
  getF_setF_apart _ _ _ _ _ h

@[simp] theorem unitId_chainEnIn : unitId (chainEnIn s enIn) = unitId s := by
  have hreg (r : Reg) (h : r ≠ .pwrChainAddr) : getReg (chainEnIn s enIn) r 0 = getReg s r 0 :=
    getReg_setF_other _ _ _ _ _ _ (.inl h)
  rw [unitId, hreg _ (by decide), hreg _ (by decide), unitId]

end

/-! ### The node ID follows the chain address (03 R77) -/

section
variable {s : State} (hwritten : getF s Fld.pwrNodeIdWritten 0 = 0)
include hwritten

theorem getF_nodeFollow_addressed {ad : Nat} (haddressed : getF s Fld.pwrChainAddrAddressed 0 = 1)
    (haddress : getF s Fld.pwrChainAddrAddress 0 = ad) (hmin : 0x10 ≤ ad) (hmax : ad ≤ 0x6B) :
    getF (nodeFollow s) Fld.pwrNodeIdNodeId 0 = 0x800 + ad - 0x10 := by
  have hwidth : 0x800 + (ad - 0x10) < 2 ^ 12 := by omega
  simp only [nodeFollow, flagF_eq_false hwritten, flagF_eq_true haddressed, haddress, Bool.false_eq_true, if_false, if_true]
  rw [getF_setF_within _ _ _ (by decide) hwidth]
  omega

theorem getF_nodeFollow_unaddressed (haddressed : getF s Fld.pwrChainAddrAddressed 0 = 0) :
    getF (nodeFollow s) Fld.pwrNodeIdNodeId 0 = 0xFFF := by
  simp only [nodeFollow, flagF_eq_false hwritten, flagF_eq_false haddressed, Bool.false_eq_true, if_false]
  exact getF_setF_within _ _ _ (by decide) (by decide)

end

/-! ### Taking and giving up an address (03 R66, R72, R74) -/

/-- The unit at an address, with RCH_EN_OUT high, before its node ID follows. -/
def chainAddressed (s : State) (ad : Nat) : State :=
  setF (setF (setF s Fld.pwrChainAddrAddress 0 ad) Fld.pwrChainAddrAddressed 0 1) Fld.pwrChainAddrEnOut 0 1

theorem getF_chainAddressed_address (s : State) {ad : Nat} (h : ad ≤ 0x6B) :
    getF (chainAddressed s ad) Fld.pwrChainAddrAddress 0 = ad := by
  simp (disch := decide) only [chainAddressed, getF_setF_apart]
  exact getF_setF_within _ _ _ (by decide) (Nat.lt_of_le_of_lt h (by decide))

theorem getF_chainAddressed_addressed (s : State) (ad : Nat) : getF (chainAddressed s ad) Fld.pwrChainAddrAddressed 0 = 1 := by
  simp (disch := decide) only [chainAddressed, getF_setF_apart]
  exact getF_setF_within _ _ _ (by decide) (by decide)

theorem getF_chainAddressed_enOut (s : State) (ad : Nat) : getF (chainAddressed s ad) Fld.pwrChainAddrEnOut 0 = 1 :=
  getF_setF_within _ _ _ (by decide) (by decide)

theorem getF_chainAddressed_written (s : State) (ad : Nat) :
    getF (chainAddressed s ad) Fld.pwrNodeIdWritten 0 = getF s Fld.pwrNodeIdWritten 0 := by
  simp (disch := decide) only [chainAddressed, getF_setF_apart]

theorem getF_chainRelease_address (s : State) : getF (chainRelease s) Fld.pwrChainAddrAddress 0 = 0 := by
  rw [chainRelease, getF_nodeFollow _ _ _ (by decide)]
  simp (disch := decide) only [getF_setF_apart]
  exact getF_setF_within _ _ _ (by decide) (by decide)

theorem getF_chainRelease_nodeId {s : State} (hwritten : getF s Fld.pwrNodeIdWritten 0 = 0) :
    getF (chainRelease s) Fld.pwrNodeIdNodeId 0 = 0xFFF := by
  refine getF_nodeFollow_unaddressed ?_ ?_
  · simpa (disch := decide) only [getF_setF_apart] using hwritten
  · simp (disch := decide) only [getF_setF_apart]
    exact getF_setF_within _ _ _ (by decide) (by decide)

/-! ### The assign port (03 R65, R67, R72) -/

section
variable {s : State} (hreset : inReset s = false) (hfree : getF s Fld.pwrChainAddrAddressed 0 = 0)
include hreset hfree

/-- With the lowest unit ID on the bus the unit wins the arbitration. -/
theorem exec_assignQuery_lowest {others : List Dword} (hlow : ∀ u ∈ others, unitId s < u.toNat) :
    exec (.assignQuery true others) s = .next (chainAnswer (chainEnIn s true) 0x6E 0x01 [] chOk (beBytes 8 (unitId s))) := by
  have haddressed : flagF (chainEnIn s true) Fld.pwrChainAddrAddressed 0 = false :=
    flagF_eq_false ((getF_chainEnIn s true (by decide)).trans hfree)
  have hwins : others.all (fun u => decide (unitId s < u.toNat)) = true :=
    List.all_eq_true.2 fun u hu => decide_eq_true (hlow u hu)
  show execAssignQuery true others s = _
  simp only [execAssignQuery, inReset_chainEnIn, unitId_chainEnIn, hreset, haddressed, hwins, Bool.not_false, Bool.and_self, if_true]

/-- What ASSIGN_SET with the unit's own ID comes to. -/
theorem exec_assignSet_own {uid : Dword} (huid : uid.toNat = unitId s) (ad : Nat) :
    exec (.assignSet true uid ad) s = .next (if ad < 0x10 ∨ 0x6B < ad then chainStatus (chainEnIn s true) chBadArg
      else chainStatus (nodeFollow (chainAddressed (chainEnIn s true) ad)) chOk) := by
  have haddressed : flagF (chainEnIn s true) Fld.pwrChainAddrAddressed 0 = false :=
    flagF_eq_false ((getF_chainEnIn s true (by decide)).trans hfree)
  show execAssignSet true uid ad s = _
  simp only [execAssignSet, inReset_chainEnIn, unitId_chainEnIn, hreset, haddressed, huid, decide_true, Bool.not_false, Bool.and_self,
    Bool.not_true, Bool.false_eq_true, if_false]
  rfl

end

/-! ### Commands at the unit's address (03 R70 to R75, Table 3.2) -/

section
variable {s : State} {ad : Nat} (hmine : chainMine s ad = true)
include hmine

theorem chainMine_not : ¬ (!chainMine s ad) = true := by simp [hmine]

theorem exec_ident_mine : exec (.ident ad) s = .next (chainAnswer s ad 0x10 [] chOk
    (beBytes 2 (getF s Fld.identIdVendorId 0) ++ beBytes 2 (getF s Fld.identIdDeviceId 0) ++ beBytes 1 0x10 ++ beBytes 1 ad ++
      beBytes 2 (nodeId s) ++ beBytes 8 (unitId s))) :=
  congrArg _ (if_pos hmine)

theorem exec_status_mine : exec (.status ad) s = .next (chainAnswer s ad 0x11 [] chOk
    (beBytes 4 (getReg s .pwrState 0).toNat ++ beBytes 4 (getReg s .bootAttempts 0).toNat ++
      beBytes 4 (getReg s .pwrBootStat 0).toNat)) :=
  congrArg _ (if_pos hmine)

theorem exec_sensorRead_temperature {i : Nat} (hi : i ≤ 0x0F) :
    exec (.sensorRead ad i) s = .next (chainAnswer s ad 0x12 (leBytes 1 i) chOk (beBytes 2 (getReg s .pwrTemp i).toNat)) :=
  congrArg _ ((if_neg (chainMine_not hmine)).trans (if_pos hi))

theorem exec_sensorRead_voltage {i : Nat} (hi : i ≤ 7) :
    exec (.sensorRead ad (0x20 + i)) s =
      .next (chainAnswer s ad 0x12 (leBytes 1 (0x20 + i)) chOk (beBytes 2 (getF s Fld.pwrVmonMv i))) := by
  have hnotTemp : ¬ 0x20 + i ≤ 0x0F := by omega
  have hvmon : 0x20 ≤ 0x20 + i ∧ 0x20 + i ≤ 0x27 := by omega
  show execSensorRead ad (0x20 + i) s = _
  simp only [execSensorRead, if_neg (chainMine_not hmine), if_neg hnotTemp, if_pos hvmon, Nat.add_sub_cancel_left]

theorem exec_accStatus_mine : exec (.accStatus ad) s = .next (chainAnswer s ad 0x31 [] chOk
    ((List.range 16).flatMap (fun k => leBytes 1 (getReg s .pwrAccStat k).toNat))) :=
  congrArg _ (if_pos hmine)

/-- A response that fits one segment is returned whole, with flags bit 0 set (03 R73). -/
theorem exec_mailboxRead_last (hsome : s.chain.msgOut ≠ []) (hlen : s.chain.msgOut.length ≤ 254) :
    exec (.mailboxRead ad) s = .next (chainAnswer (setChain s { s.chain with msgOut := [] }) ad 0x21 [] chOk
      (leBytes 1 1 ++ s.chain.msgOut)) := by
  show execMailboxRead ad s = _
  simp only [execMailboxRead, if_neg (chainMine_not hmine), List.isEmpty_eq_false_iff.2 hsome, List.take_of_length_le hlen,
    List.drop_eq_nil_of_le hlen, List.isEmpty_nil, Bool.false_eq_true, if_false, if_true]

/-- The first segment of a message that goes on is kept (03 R73). -/
theorem exec_mailboxWrite_first {bytes : List Byte} (hlen : bytes.length ≤ 254) (hin : s.chain.msgIn = none)
    (hended : s.chain.msgEnded = false) :
    exec (.mailboxWrite ad 0 bytes) s =
      .next (setChain s { s.chain with lastStatus := chOk, msgIn := some bytes, msgEnded := false }) := by
  have htaken : ¬ (!chainMine s ad || decide (254 < bytes.length)) = true := by simp [hmine, hlen]
  show execMailboxWrite ad 0 bytes s = _
  simp only [execMailboxWrite, if_neg htaken, hended, Bool.false_eq_true, if_false, hin, Option.getD_none, List.nil_append]
  rfl

theorem exec_accPower_open (hlock : flagF s Fld.pwrChainCtlCtlLock 0 = false) {n r : Nat} (hn : n < 16) (hr : r ≤ 3) :
    exec (.accPower ad n r) s = .next (chainStatus (accRequest s n r) chOk) :=
  congrArg _ ((if_neg (chainMine_not hmine)).trans ((if_neg (Bool.eq_false_iff.1 hlock)).trans (if_neg (by omega))))

theorem exec_tarpForce_open (hlock : flagF s Fld.pwrChainCtlCtlLock 0 = false) :
    exec (.tarpForce ad) s = .next (chainStatus (tarpEnter s 6) chOk) :=
  congrArg _ ((if_neg (chainMine_not hmine)).trans (if_neg (Bool.eq_false_iff.1 hlock)))

theorem exec_resetWarm_open (hlock : flagF s Fld.pwrChainCtlCtlLock 0 = false) (c0 c1 : Nat) :
    exec (.resetWarm ad c0 c1) s =
      .next (if c0 ≠ 0xA5 ∨ c1 ≠ 0x5A then chainStatus s chBadArg else resetWarmCmd s) :=
  congrArg _ ((if_neg (chainMine_not hmine)).trans (if_neg (Bool.eq_false_iff.1 hlock)))

/-- The three commands that ctl_lock denies (03 R75). -/
theorem exec_denied (hlock : flagF s Fld.pwrChainCtlCtlLock 0 = true) (n r c0 c1 : Nat) :
    ∀ c ∈ [Instr.accPower ad n r, .tarpForce ad, .resetWarm ad c0 c1], exec c s = .next (chainDenied s) := by
  simp only [List.forall_mem_cons, List.not_mem_nil, false_implies, implies_true, and_true]
  have hdenied {t : State} : (if !chainMine s ad then s else if flagF s Fld.pwrChainCtlCtlLock 0 then chainDenied s else t) =
      chainDenied s := (if_neg (chainMine_not hmine)).trans (if_pos hlock)
  exact ⟨congrArg _ hdenied, congrArg _ hdenied, congrArg _ hdenied⟩

theorem exec_wake_mine : exec (.wake ad) s = .next (chainStatus
    (if s.ridge.roof = .awake then pmeEvent (pmeEvent s 0 0 0) 1 0 0 else roofSource s 1 []) chOk) :=
  congrArg _ (if_neg (chainMine_not hmine))

theorem exec_release_mine : exec (.release ad) s = .next (chainStatus (chainRelease s) chOk) :=
  congrArg _ (if_pos hmine)

theorem exec_chainBadFrame_write {why : Nat} (hmin : 1 ≤ why) (hmax : why ≤ 3) (cmd : Nat) :
    exec (.chainBadFrame ad why cmd false) s = .next (chainStatus (bump s Fld.pwrChainErrCnt 0) why) :=
  congrArg _ (if_pos (by simp [hmine, hmin, hmax]))

end

/-! ### Commands at another address (03 R64) -/

/-- The unit ignores every frame at an address that it does not hold. -/
theorem exec_otherAddress {s : State} {ad : Nat} (h : chainMine s ad = false) (n r i why : Nat) (bytes : List Byte) :
    ∀ c ∈ [Instr.ident ad, .status ad, .sensorRead ad i, .accStatus ad, .mailboxRead ad, .mailboxWrite ad i bytes, .accPower ad n r,
      .tarpForce ad, .resetWarm ad i why, .wake ad, .release ad, .chainBadFrame ad why i true], exec c s = .next s := by
  have hnot : ¬ chainMine s ad = true := Bool.eq_false_iff.1 h
  have hother : (!chainMine s ad) = true := by simp [h]
  simp only [List.forall_mem_cons, List.not_mem_nil, false_implies, implies_true, and_true]
  exact ⟨congrArg _ (if_neg hnot), congrArg _ (if_neg hnot), congrArg _ (if_pos hother), congrArg _ (if_neg hnot),
    congrArg _ (if_pos hother), congrArg _ (if_pos (by simp [h])), congrArg _ (if_pos hother), congrArg _ (if_pos hother),
    congrArg _ (if_pos hother), congrArg _ (if_pos hother), congrArg _ (if_neg hnot), congrArg _ (if_neg (by simp [h]))⟩

/-! ### The statement -/

/-- Settles O26: each clause is the law above of the command that it speaks of, with the answer or the left status written out. -/
theorem chainFrames : Obligations.ChainFrames := by
  unfold Obligations.ChainFrames
  intro s ad n r i why uid others bytes mine free locked answers leaves
  have hanswers {e : Host.Outcome State Fault Refusal} {cmd : Nat} {w body : List Byte}
      (he : e = .next (chainAnswer s ad cmd w chOk body)) : answers e cmd w body := he
  refine ⟨?_, ?_, ?_, fun hm => hanswers (exec_ident_mine hm), fun hm => hanswers (exec_status_mine hm),
    fun hm hi => hanswers (exec_sensorRead_temperature hm hi), fun hm hi => hanswers (exec_sensorRead_voltage hm hi),
    fun hm => hanswers (exec_accStatus_mine hm), ?_, fun hm hlen hin hended => exec_mailboxWrite_first hm hlen hin hended,
    fun hm hl hn hr => exec_accPower_open hm (ctlLock_open hl) hn hr, ?_,
    fun hm hl => exec_denied hm (flagF_eq_true hl) n r i why, ?_, ?_, ?_,
    fun hm hmin hmax => exec_chainBadFrame_write hm hmin hmax i, rfl, fun hm => exec_otherAddress hm n r i why bytes⟩
  · rintro ⟨hreset, hfree⟩ hlow
    obtain ⟨f, hout, hbody⟩ := chainAnswer_ok_frame (chainEnIn s true) 0x6E 0x01 [] (beBytes 8 (unitId s))
    rw [chainEnIn_out] at hout
    rw [beBytes_length] at hbody
    exact ⟨_, f, exec_assignQuery_lowest hreset hfree hlow, hout, hbody, (chainAnswer_mem _ _ _ _ _ _).trans (chainEnIn_mem _ _)⟩
  · rintro ⟨hreset, hfree⟩ huid hmin hmax
    have hexec := exec_assignSet_own hreset hfree huid ad
    rw [if_neg (by omega)] at hexec
    have haddress := getF_chainAddressed_address (chainEnIn s true) hmax
    have haddressed := getF_chainAddressed_addressed (chainEnIn s true) ad
    refine ⟨_, hexec, ?_, ?_, ?_, chainStatus_lastStatus _ _, fun hwritten => ?_⟩
    · rw [getF_chainStatus, getF_nodeFollow _ _ _ (by decide), haddress]
    · rw [getF_chainStatus, getF_nodeFollow _ _ _ (by decide), haddressed]
    · rw [getF_chainStatus, getF_nodeFollow _ _ _ (by decide), getF_chainAddressed_enOut]
    have hunwritten : getF (chainAddressed (chainEnIn s true) ad) Fld.pwrNodeIdWritten 0 = 0 := by
      rw [getF_chainAddressed_written, getF_chainEnIn s true (by decide), hwritten]
    rw [getF_chainStatus]
    exact getF_nodeFollow_addressed hunwritten haddressed haddress hmin hmax
  · rintro ⟨hreset, hfree⟩ huid hrange
    have hexec := exec_assignSet_own hreset hfree huid ad
    rw [if_pos hrange] at hexec
    refine ⟨_, hexec, chainStatus_lastStatus _ _, ?_⟩
    rw [getF_chainStatus, getF_chainEnIn s true (by decide), hfree]
  · rintro hm rfl hsome hlen
    obtain ⟨f, hout, hbody⟩ :=
      chainAnswer_ok_frame (setChain s { s.chain with msgOut := [] }) ad 0x21 [] (leBytes 1 1 ++ s.chain.msgOut)
    rw [List.length_append, leBytes_length] at hbody
    exact ⟨_, f, exec_mailboxRead_last hm hsome hlen, chainAnswer_msgOut _ _ _ _ _ _, hout, hbody⟩
  · intro hm hl
    have hreset := exec_resetWarm_open hm (ctlLock_open hl) 0xA5
    exact ⟨exec_tarpForce_open hm (ctlLock_open hl), hreset 0x5A,
      fun hwhy => (hreset why).trans (congrArg _ (if_pos (.inr hwhy)))⟩
  · intro hm hroof
    rw [exec_wake_mine hm, if_pos hroof]
    rfl
  · intro hm hroof
    rw [exec_wake_mine hm, if_neg (by simp [hroof])]
    rfl
  · intro hm
    exact ⟨_, exec_release_mine hm, getF_chainRelease_addressed s, getF_chainRelease_address s, getF_chainRelease_enOut s,
      getF_chainRelease_nodeId⟩

end Sys2Proof.Machine
end

section
/-! PROOFS. Open fabric slabs (04 R122 to R124, Table 4.14): when a slab instruction is refused, what its dispatch and each end of
its wait do, how a slab's access of memory is served or discarded, and the statement assembled from them. -/

namespace Sys2Proof.Machine

/-! ### Why a slab instruction is refused (04 R122) -/

section
variable {s : State} {t n : Nat} {ver : BitVec 4}

theorem slabRefusal_notOwned (hown : ¬ bitN (envOf s ((bayOfTid s t).getD 64)).slabMask n = true) : slabRefusal s t n ver = some 1 :=
  if_pos (Bool.eq_false_of_not_eq_true hown)

variable (hown : bitN (envOf s ((bayOfTid s t).getD 64)).slabMask n = true)
include hown

theorem slabRefusal_owned : slabRefusal s t n ver =
    if (slabOf s n).inReset then some 2 else if (slabOf s n).version ≠ ver.toNat then some 3 else none :=
  if_neg (by simp [hown])

theorem slabRefusal_inReset (hreset : (slabOf s n).inReset = true) : slabRefusal s t n ver = some 2 := by
  rw [slabRefusal_owned hown, if_pos hreset]

theorem slabRefusal_running (hrun : (slabOf s n).inReset = false) :
    slabRefusal s t n ver = if (slabOf s n).version ≠ ver.toNat then some 3 else none := by
  rw [slabRefusal_owned hown, if_neg (by simp [hrun])]

theorem slabRefusal_otherVersion (hrun : (slabOf s n).inReset = false) (hver : (slabOf s n).version ≠ ver.toNat) :
    slabRefusal s t n ver = some 3 := by
  rw [slabRefusal_running hown hrun, if_pos hver]

theorem slabRefusal_none (hrun : (slabOf s n).inReset = false) (hver : (slabOf s n).version = ver.toNat) :
    slabRefusal s t n ver = none := by
  rw [slabRefusal_running hown hrun, if_neg (not_not.mpr hver)]

end

/-- A fetch changes no slab. -/
theorem slabOf_afterFetch (s : State) (tid : Tid) (n : Nat) : slabOf (afterFetch s tid) n = slabOf s n := by
  obtain ⟨-, -, -, -, hthatch, -⟩ := afterFetch_frame s tid
  rw [slabOf, hthatch, slabOf]

/-! ### A slab instruction that issues (04 R122, Table 4.14) -/

theorem threadOf_hold_same (s : State) (t : Nat) (b : Block) :
    threadOf (hold s t b) t = { threadOf s t with st := .blocked, block := some b } :=
  threadOf_setThread_same _ _ _

section
variable {s : State} {tid : Tid} {slab : BitVec 2} {ver : BitVec 4} {rd rb : RegNo} {func : BitVec 12}
  (hissue : Issues s tid (.cop (slab.setWidth 3 ||| 4) ver rd rb func))
include hissue

theorem exec_slabInstruction_refused {why : Nat} (hwhy : slabRefusal (afterFetch s tid) tid.toNat slab.toNat ver = some why) :
    exec (.slabInstruction tid slab ver rd rb func) s =
      .next (trap (afterFetch s tid) tid.toNat (cpAbsent why (.cop (slab.setWidth 3 ||| 4) ver rd rb func))) := by
  exact congrArg _ ((issue_runs hissue _).trans (by simp only [hwhy]))

theorem exec_slabInstruction_dispatched (hwhy : slabRefusal (afterFetch s tid) tid.toNat slab.toNat ver = none) :
    exec (.slabInstruction tid slab ver rd rb func) s =
      .next (hold (emit (afterFetch s tid) (.slabReq slab.toNat tid.toNat func.toNat (regOf s tid rd) (regOf s tid rb))) tid.toNat
        { rd := rd.toNat, val := none, npc := nextPc (threadOf s tid.toNat) 4, kind := 4,
          slab := some (slab.toNat, slabDue (afterFetch s tid) slab.toNat),
          word := (Olx.cop (slab.setWidth 3 ||| 4) ver rd rb func).encode.1 }) := by
  exact congrArg _ ((issue_runs hissue _).trans (by simp only [hwhy, threadOf_afterFetch, regOf]))

end

/-! ### The end of a wait for a slab (04 R123) -/

section
variable {s : State} {tid : Tid} {b : Block} {n due : Nat} (hblock : (threadOf s tid.toNat).block = some b) (hslab : b.slab = some (n, due))
include hblock hslab

theorem slabWait_held : slabWait s tid.toNat = some (b, n, due) := by
  simp [slabWait, hblock, hslab]

/-- The response of the slab waited for, by its limit, releases the thread or ends its instruction. -/
theorem exec_slabResponse_inTime {slab : BitVec 2} (hn : n = slab.toNat) (hdue : s.ftime ≤ due) (result : Dword) (status : BitVec 4) :
    exec (.slabResponse tid slab result status) s =
      .next (if status = 0 then release s tid.toNat b result else slabFault s tid.toNat b status.toNat) := by
  change execSlabResponse tid slab result status s = _
  rw [execSlabResponse, slabWait_held hblock hslab]
  exact congrArg _ ((if_neg (not_not.mpr hn)).trans (if_neg (Nat.not_lt.mpr hdue)))

/-- The expiry moves fabric time to the limit, where it has not passed it (DESIGN CHOICE, log 125). -/
theorem exec_slabTimeout_held : exec (.slabTimeout tid) s = .next (slabLate (reach s due) tid.toNat b) := by
  change execSlabTimeout tid s = _
  rw [execSlabTimeout, slabWait_held hblock hslab]

end

/-! ### A slab's access of memory (04 R124) -/

section
variable {s : State} {slab : BitVec 2} {bay : Nat} {addr : Dword} {bytes : List Byte} (hbay : bayOfSlab s slab.toNat = some bay)
  (hrun : (slabOf s slab.toNat).inReset = false) (hmin : 1 ≤ bytes.length) (hmax : bytes.length ≤ 64)
include hbay hrun hmin hmax

/-- A running slab's access of 1 to 64 bytes is served where its bay's mapping grants it (DESIGN CHOICE, log 116),
and else discarded. -/
theorem exec_slabMemoryAccess_running (write : Bool) :
    exec (.slabMemoryAccess slab addr write bytes) s =
      .next (if slabReach s bay addr.toNat bytes.length (if write then .write else .read) then
          (if write then writeBytes s addr.toNat bytes else emit s (.slabData slab.toNat (readBytes s addr.toNat bytes.length)))
        else
          raiseD (bump (if write then s else emit s (.slabData slab.toNat (List.replicate bytes.length 0xFF))) Fld.thatchSlabMemFaultCnt 0)
            srcThatch { code := 0x0105, bay := bay, aux8 := slab.toNat, arg0 := addr.toNat }) := by
  have hopen : ¬ ((slabOf s slab.toNat).inReset = true ∨ bytes.length = 0 ∨ 64 < bytes.length) := by
    simp only [hrun, Bool.false_eq_true, false_or]
    omega
  change execSlabMemoryAccess slab addr write bytes s = _
  rw [execSlabMemoryAccess, hbay]
  exact congrArg _ (if_neg hopen)

theorem exec_slabMemoryAccess_written (hreach : slabReach s bay addr.toNat bytes.length .write = true) :
    exec (.slabMemoryAccess slab addr true bytes) s = .next (writeBytes s addr.toNat bytes) :=
  (exec_slabMemoryAccess_running hbay hrun hmin hmax true).trans (congrArg _ (if_pos hreach))

theorem exec_slabMemoryAccess_read (hreach : slabReach s bay addr.toNat bytes.length .read = true) :
    exec (.slabMemoryAccess slab addr false bytes) s =
      .next (emit s (.slabData slab.toNat (readBytes s addr.toNat bytes.length))) :=
  (exec_slabMemoryAccess_running hbay hrun hmin hmax false).trans (congrArg _ (if_pos hreach))

theorem exec_slabMemoryAccess_discardedRead (hreach : slabReach s bay addr.toNat bytes.length .read = false) :
    exec (.slabMemoryAccess slab addr false bytes) s =
      .next (raiseD (bump (emit s (.slabData slab.toNat (List.replicate bytes.length 0xFF))) Fld.thatchSlabMemFaultCnt 0) srcThatch
        { code := 0x0105, bay := bay, aux8 := slab.toNat, arg0 := addr.toNat }) :=
  (exec_slabMemoryAccess_running hbay hrun hmin hmax false).trans (congrArg _ (if_neg (by simp [hreach])))

end

/-! ### The statement -/

/-- Settles O20: the dispatch clauses are the four answers of the refusal, a wait ends by a response in time or at its limit, and
an access of memory is served or discarded. -/
theorem slabInstructions : Obligations.SlabInstructions := by
  unfold Obligations.SlabInstructions
  intro s tid slab ver rd rb func result status b n due bay addr bytes t f x i sl own absent faults
  have hsl : slabOf f slab.toNat = sl := slabOf_afterFetch s tid slab.toNat
  have hrefused {why : Nat} (hissue : Issues s tid i) (hwhy : slabRefusal f t slab.toNat ver = some why) :
      exec (.slabInstruction tid slab ver rd rb func) s = absent why := exec_slabInstruction_refused hissue hwhy
  refine ⟨fun hi hown => hrefused hi (slabRefusal_notOwned hown),
    fun hi hown hreset => hrefused hi (slabRefusal_inReset hown (hsl ▸ hreset)),
    fun hi hown hrun hver => hrefused hi (slabRefusal_otherVersion hown (hsl ▸ hrun) (hsl ▸ hver)), ?_, ?_, ?_,
    fun hblock hslab => exec_slabTimeout_held hblock hslab, ?_,
    fun hbay hrun hmin hmax hreach => exec_slabMemoryAccess_read hbay hrun hmin hmax hreach,
    fun hbay hrun hmin hmax hreach => exec_slabMemoryAccess_discardedRead hbay hrun hmin hmax hreach⟩
  · intro hi hown hrun hver
    have hnone := slabRefusal_none hown (hsl ▸ hrun) (hsl ▸ hver)
    exact ⟨_, exec_slabInstruction_dispatched hi hnone, rfl, by rw [threadOf_hold_same], by rw [threadOf_hold_same]⟩
  · intro hblock hslab hdue
    exact exec_slabResponse_inTime hblock hslab rfl hdue result 0
  · intro hblock hslab hdue hstatus
    exact (exec_slabResponse_inTime hblock hslab rfl hdue result status).trans (congrArg _ (if_neg hstatus))
  · intro hbay hrun hmin hmax hreach
    obtain ⟨m, hm⟩ := writeBytes_only_mem s addr.toNat bytes
    exact ⟨_, exec_slabMemoryAccess_written hbay hrun hmin hmax hreach, by rw [hm], by rw [hm],
      fun k hk => readByte_writeBytes_inside s addr.toNat k bytes hk,
      fun c hc => readByte_writeBytes_outside s addr.toNat c bytes hc⟩

end Sys2Proof.Machine
end

section
/-! PROOFS. Instruction words round trip (05 R128, R135, R136, Tables 5.4 to 5.13): each format is the fields of its word, so an
instruction is decoded from a word exactly where it follows its operand rules and the word is the one that spells it. -/

namespace Sys2Proof.Machine

/-! ### Fields of a word -/

theorem bits_eq (w : Word) (hi lo : Nat) : bits w hi lo = w.toNat / 2 ^ lo % 2 ^ (hi - lo + 1) := by
  rw [bits, Nat.shiftRight_eq_div_pow]

theorem ofNat_eq_word_iff {n : Nat} {w : Word} (h : n < 2 ^ 32) : BitVec.ofNat 32 n = w ↔ w.toNat = n := by
  rw [← BitVec.toNat_inj, BitVec.toNat_ofNat, Nat.mod_eq_of_lt h, eq_comm]

/-- An operand is read from a field of its own width. -/
theorem ofNat_bits_eq_iff {w : Word} {hi lo n : Nat} (h : hi - lo + 1 = n) (x : BitVec n) :
    BitVec.ofNat n (bits w hi lo) = x ↔ bits w hi lo = x.toNat := by
  rw [← BitVec.toNat_inj, BitVec.toNat_ofNat, bits_eq, h, Nat.mod_mod]

theorem b01_lt (b : Bool) : b01 b < 2 := by cases b <;> decide

/-- A flag is read from a bit. -/
theorem bits_beq_one_iff {w : Word} {k : Nat} (b : Bool) : (bits w k k == 1) = b ↔ bits w k k = b01 b := by
  have hlt : bits w k k < 2 := by rw [bits_eq, Nat.sub_self]; exact Nat.mod_lt _ (by decide)
  cases b
  · simp only [b01, beq_eq_false_iff_ne, Bool.false_eq_true, if_false]; omega
  · simp [b01]

/-! ### The formats (05 R136) -/

section
variable {w : Word} {m : Nat} (hm : m < 2 ^ 6)
include hm

theorem encR_eq_iff {rd ra rb : RegNo} {f : Nat} (hf : f < 2 ^ 11) :
    encR m rd ra rb f = w ↔ bits w 31 26 = m ∧ fRd w = rd ∧ fRa w = ra ∧ fRb w = rb ∧ bits w 10 0 = f := by
  rw [encR, ofNat_eq_word_iff (by omega)]
  simp only [fRd, fRa, fRb, ofNat_bits_eq_iff]
  simp only [bits_eq]
  omega

theorem encI_eq_iff {rd ra : RegNo} {imm : Nat} (hi : imm < 2 ^ 16) :
    encI m rd ra imm = w ↔ bits w 31 26 = m ∧ fRd w = rd ∧ fRa w = ra ∧ bits w 15 0 = imm := by
  rw [encI, ofNat_eq_word_iff (by omega)]
  simp only [fRd, fRa, ofNat_bits_eq_iff]
  simp only [bits_eq]
  omega

theorem encI_imm_eq_iff {rd ra : RegNo} {imm : Half} :
    encI m rd ra imm.toNat = w ↔ bits w 31 26 = m ∧ fRd w = rd ∧ fRa w = ra ∧ fImm w = imm := by
  rw [encI_eq_iff hm imm.isLt]
  simp only [fImm, ofNat_bits_eq_iff]

theorem encJ_eq_iff {off : BitVec 26} :
    BitVec.ofNat 32 (m * 2 ^ 26 + off.toNat) = w ↔ bits w 31 26 = m ∧ BitVec.ofNat 26 (bits w 25 0) = off := by
  rw [ofNat_eq_word_iff (by omega)]
  simp only [ofNat_bits_eq_iff]
  simp only [bits_eq]
  omega

end

theorem encX_eq_iff {w w1 : Word} {xop : Nat} {rd ra : RegNo} {imm : BitVec 42} (hx : xop < 2 ^ 6) :
    encX xop rd ra imm = w ∧ encXlo imm = w1 ↔
      bits w 31 26 = 0x37 ∧ bits w 25 20 = xop ∧ BitVec.ofNat 5 (bits w 19 15) = rd ∧ BitVec.ofNat 5 (bits w 14 10) = ra ∧
      BitVec.ofNat 42 (bits w 9 0 * 2 ^ 32 + w1.toNat) = imm := by
  rw [encX, ofNat_eq_word_iff (by omega), encXlo, ← BitVec.toNat_inj (y := w1), ← BitVec.toNat_inj (y := imm)]
  simp only [ofNat_bits_eq_iff, BitVec.toNat_ofNat]
  simp only [bits_eq]
  omega

/-! ### func of the R format, and SHI's imm16 -/

section
variable {w : Word} {c : Nat}

theorem func_aluMul_iff (hc : c < 2 ^ 6) (wd : Bool) :
    bits w 10 0 = c + b01 wd * 2 ^ 6 ↔ bits w 5 0 = c ∧ (bits w 6 6 == 1) = wd ∧ bits w 10 7 = 0 := by
  have := b01_lt wd
  simp only [bits_beq_one_iff]
  simp only [bits_eq]
  omega

theorem func_amo_iff (hc : c < 2 ^ 4) (dw aq rl : Bool) :
    bits w 10 0 = c + b01 dw * 2 ^ 4 + b01 aq * 2 ^ 5 + b01 rl * 2 ^ 6 ↔
      bits w 3 0 = c ∧ (bits w 4 4 == 1) = dw ∧ (bits w 5 5 == 1) = aq ∧ (bits w 6 6 == 1) = rl ∧ bits w 10 7 = 0 := by
  have := b01_lt dw
  have := b01_lt aq
  have := b01_lt rl
  simp only [bits_beq_one_iff]
  simp only [bits_eq]
  omega

theorem func_sys_iff (hc : c < 2 ^ 4) (n : BitVec 7) :
    bits w 10 0 = c + n.toNat * 2 ^ 4 ↔ bits w 3 0 = c ∧ BitVec.ofNat 7 (bits w 10 4) = n := by
  simp only [ofNat_bits_eq_iff]
  simp only [bits_eq]
  omega

theorem func_fp_iff (hc : c < 2 ^ 5) (fmt : BitVec 3) (kind sat src : Bool) :
    bits w 10 0 = fmt.toNat + c * 2 ^ 3 + b01 kind * 2 ^ 8 + b01 sat * 2 ^ 9 + b01 src * 2 ^ 10 ↔
      bits w 7 3 = c ∧ BitVec.ofNat 3 (bits w 2 0) = fmt ∧ (bits w 8 8 == 1) = kind ∧ (bits w 9 9 == 1) = sat ∧ (bits w 10 10 == 1) = src := by
  have := b01_lt kind
  have := b01_lt sat
  have := b01_lt src
  simp only [ofNat_bits_eq_iff, bits_beq_one_iff]
  simp only [bits_eq]
  omega

theorem func_wait_iff (all clr : Bool) :
    bits w 10 0 = b01 all + b01 clr * 2 ↔ (bits w 0 0 == 1) = all ∧ (bits w 1 1 == 1) = clr ∧ bits w 10 2 = 0 := by
  have := b01_lt all
  have := b01_lt clr
  simp only [bits_beq_one_iff]
  simp only [bits_eq]
  omega

theorem func_chk_iff (sgn : Bool) : bits w 10 0 = b01 sgn ↔ (bits w 0 0 == 1) = sgn ∧ bits w 10 1 = 0 := by
  have := b01_lt sgn
  simp only [bits_beq_one_iff]
  simp only [bits_eq]
  omega

theorem func_long_iff (hc : c < 2 ^ 4) (esz : BitVec 2) (dir cond : Bool) :
    bits w 10 0 = c + esz.toNat * 2 ^ 4 + b01 dir * 2 ^ 6 + b01 cond * 2 ^ 7 ↔
      bits w 3 0 = c ∧ BitVec.ofNat 2 (bits w 5 4) = esz ∧ (bits w 6 6 == 1) = dir ∧ (bits w 7 7 == 1) = cond ∧ bits w 10 8 = 0 := by
  have := b01_lt dir
  have := b01_lt cond
  simp only [ofNat_bits_eq_iff, bits_beq_one_iff]
  simp only [bits_eq]
  omega

theorem imm_shi_iff (hc : c < 2 ^ 2) (wd : Bool) (sh : BitVec 6) :
    bits w 15 0 = sh.toNat + c * 2 ^ 6 + b01 wd * 2 ^ 8 ↔
      bits w 7 6 = c ∧ (bits w 8 8 == 1) = wd ∧ BitVec.ofNat 6 (bits w 5 0) = sh ∧ bits w 15 9 = 0 := by
  have := b01_lt wd
  simp only [ofNat_bits_eq_iff, bits_beq_one_iff]
  simp only [bits_eq]
  omega

end

/-! ### Operation codes -/

theorem aluOf_eq_some_iff {n : Nat} {op : AluOp} : aluOf n = some op ↔ n = aluCode op :=
  ⟨fun h => by unfold aluOf at h; split at h <;> cases h <;> rfl, fun h => by subst h; cases op <;> rfl⟩

theorem mulOf_eq_some_iff {n : Nat} {op : MulOp} : mulOf n = some op ↔ n = mulCode op :=
  ⟨fun h => by unfold mulOf at h; split at h <;> cases h <;> rfl, fun h => by subst h; cases op <;> rfl⟩

theorem amoOf_eq_some_iff {n : Nat} {op : AmoOp} : amoOf n = some op ↔ n = amoCode op :=
  ⟨fun h => by unfold amoOf at h; split at h <;> cases h <;> rfl, fun h => by subst h; cases op <;> rfl⟩

theorem fpOf_eq_some_iff {n : Nat} {op : FpOp} : fpOf n = some op ↔ n = fpCode op :=
  ⟨fun h => by unfold fpOf at h; split at h <;> cases h <;> rfl, fun h => by subst h; cases op <;> rfl⟩

theorem bitOf_eq_some_iff {n : Nat} {op : BitOp} : bitOf n = some op ↔ n = bitCode op :=
  ⟨fun h => by unfold bitOf at h; split at h <;> cases h <;> rfl, fun h => by subst h; cases op <;> rfl⟩

theorem condOf_eq_some_iff {n : Nat} {op : SetCond} : condOf n = some op ↔ n = condCode op :=
  ⟨fun h => by unfold condOf at h; split at h <;> cases h <;> rfl, fun h => by subst h; cases op <;> rfl⟩

theorem longOf_eq_some_iff {n : Nat} {op : LongOp} : longOf n = some op ↔ n = longCode op :=
  ⟨fun h => by unfold longOf at h; split at h <;> cases h <;> rfl, fun h => by subst h; cases op <;> rfl⟩

theorem shCode_shOf {n : Nat} (h : n < 4) : shCode (shOf n) = n := by
  interval_cases n <;> rfl

theorem shOf_shCode (op : ShOp) : shOf (shCode op) = op := by cases op <;> rfl

theorem blogCode_blogOf {n : Nat} (h : n < 4) : blogCode (blogOf n) = n := by
  interval_cases n <;> rfl

theorem blogOf_blogCode (op : BlogOp) : blogOf (blogCode op) = op := by cases op <;> rfl

/-! ### The instructions and their words -/

section
variable {w : Word} {rd ra rb : RegNo}

theorem encode_alu_iff {op : AluOp} {wd : Bool} :
    (Olx.alu op wd rd ra rb).encode.1 = w ↔ bits w 31 26 = 0x01 ∧ fRd w = rd ∧ fRa w = ra ∧ fRb w = rb ∧
      bits w 5 0 = aluCode op ∧ (bits w 6 6 == 1) = wd ∧ bits w 10 7 = 0 := by
  have hop : aluCode op < 2 ^ 6 := by cases op <;> decide
  have hwd := b01_lt wd
  rw [Olx.encode, encR_eq_iff (by decide) (by omega), func_aluMul_iff hop]

theorem encode_muldiv_iff {op : MulOp} {wd : Bool} :
    (Olx.muldiv op wd rd ra rb).encode.1 = w ↔ bits w 31 26 = 0x0A ∧ fRd w = rd ∧ fRa w = ra ∧ fRb w = rb ∧
      bits w 5 0 = mulCode op ∧ (bits w 6 6 == 1) = wd ∧ bits w 10 7 = 0 := by
  have hop : mulCode op < 2 ^ 6 := by cases op <;> decide
  have hwd := b01_lt wd
  rw [Olx.encode, encR_eq_iff (by decide) (by omega), func_aluMul_iff hop]

theorem encode_amo_iff {op : AmoOp} {dw aq rl : Bool} :
    (Olx.amo op dw aq rl rd ra rb).encode.1 = w ↔ bits w 31 26 = 0x16 ∧ fRd w = rd ∧ fRa w = ra ∧ fRb w = rb ∧
      bits w 3 0 = amoCode op ∧ (bits w 4 4 == 1) = dw ∧ (bits w 5 5 == 1) = aq ∧ (bits w 6 6 == 1) = rl ∧ bits w 10 7 = 0 := by
  have hop : amoCode op < 2 ^ 4 := by cases op <;> decide
  have hdw := b01_lt dw
  have haq := b01_lt aq
  have hrl := b01_lt rl
  rw [Olx.encode, encR_eq_iff (by decide) (by omega), func_amo_iff hop]

theorem encR_sys_iff {c : Nat} {n : BitVec 7} (hc : c < 2 ^ 4) :
    encR 0x17 rd ra rb (c + n.toNat * 2 ^ 4) = w ↔ bits w 31 26 = 0x17 ∧ fRd w = rd ∧ fRa w = ra ∧ fRb w = rb ∧
      bits w 3 0 = c ∧ BitVec.ofNat 7 (bits w 10 4) = n := by
  rw [encR_eq_iff (by decide) (by omega), func_sys_iff hc]

theorem encR_sys_bare_iff {c : Nat} (hc : c < 2 ^ 4) :
    encR 0x17 0 0 0 c = w ↔ bits w 31 26 = 0x17 ∧ fRd w = 0 ∧ fRa w = 0 ∧ fRb w = 0 ∧ bits w 3 0 = c ∧ BitVec.ofNat 7 (bits w 10 4) = 0 :=
  encR_sys_iff (n := 0) hc

theorem encode_fp_iff {op : FpOp} {fmt : BitVec 3} {kind sat src : Bool} :
    (Olx.fp op fmt kind sat src rd ra rb).encode.1 = w ↔ bits w 31 26 = 0x18 ∧ fRd w = rd ∧ fRa w = ra ∧ fRb w = rb ∧
      bits w 7 3 = fpCode op ∧ BitVec.ofNat 3 (bits w 2 0) = fmt ∧ (bits w 8 8 == 1) = kind ∧ (bits w 9 9 == 1) = sat ∧ (bits w 10 10 == 1) = src := by
  have hop : fpCode op < 2 ^ 5 := by cases op <;> decide
  have hkind := b01_lt kind
  have hsat := b01_lt sat
  have hsrc := b01_lt src
  rw [Olx.encode, encR_eq_iff (by decide) (by omega), func_fp_iff hop]

theorem encode_wait_iff {all clr : Bool} :
    (Olx.wait all clr rd ra rb).encode.1 = w ↔ bits w 31 26 = 0x29 ∧ fRd w = rd ∧ fRa w = ra ∧ fRb w = rb ∧
      (bits w 0 0 == 1) = all ∧ (bits w 1 1 == 1) = clr ∧ bits w 10 2 = 0 := by
  have hall := b01_lt all
  have hclr := b01_lt clr
  rw [Olx.encode, encR_eq_iff (by decide) (by omega), func_wait_iff]

/-- The words of CHK, and with rd 0 of CHKD. -/
theorem encR_chk_iff {m : Nat} (hm : m < 2 ^ 6) {sgn : Bool} :
    encR m rd ra rb (b01 sgn) = w ↔ bits w 31 26 = m ∧ fRd w = rd ∧ fRa w = ra ∧ fRb w = rb ∧
      (bits w 0 0 == 1) = sgn ∧ bits w 10 1 = 0 := by
  have hsgn := b01_lt sgn
  rw [encR_eq_iff hm (by omega), func_chk_iff]

theorem encode_long_iff {op : LongOp} {esz : BitVec 2} {dir cond : Bool} :
    (Olx.long op esz dir cond rd ra rb).encode.1 = w ↔ bits w 31 26 = 0x2D ∧ fRd w = rd ∧ fRa w = ra ∧ fRb w = rb ∧
      bits w 3 0 = longCode op ∧ BitVec.ofNat 2 (bits w 5 4) = esz ∧ (bits w 6 6 == 1) = dir ∧ (bits w 7 7 == 1) = cond ∧ bits w 10 8 = 0 := by
  have hop : longCode op < 2 ^ 4 := by cases op <;> decide
  have hdir := b01_lt dir
  have hcond := b01_lt cond
  rw [Olx.encode, encR_eq_iff (by decide) (by omega), func_long_iff hop]

theorem encode_shi_iff {op : ShOp} {wd : Bool} {sh : BitVec 6} :
    (Olx.shi op wd rd ra sh).encode.1 = w ↔ bits w 31 26 = 0x06 ∧ fRd w = rd ∧ fRa w = ra ∧
      bits w 7 6 = shCode op ∧ (bits w 8 8 == 1) = wd ∧ BitVec.ofNat 6 (bits w 5 0) = sh ∧ bits w 15 9 = 0 := by
  have hop : shCode op < 2 ^ 2 := by cases op <;> decide
  have hwd := b01_lt wd
  rw [Olx.encode, encI_eq_iff (by decide) (by omega), imm_shi_iff hop]

theorem encode_djnzl_iff {ra : RegNo} {off : BitVec 20} :
    (Olx.djnzl ra off).encode.1 = w ↔ bits w 31 26 = 0x24 ∧ fRd w = ra ∧ bits w 20 20 = 0 ∧ BitVec.ofNat 20 (bits w 19 0) = off := by
  rw [Olx.encode, ofNat_eq_word_iff (by omega)]
  simp only [fRd, ofNat_bits_eq_iff]
  simp only [bits_eq]
  omega

theorem encode_blog_iff {op : BlogOp} {bd ba b2 : Byte} :
    (Olx.blog op bd ba b2).encode.1 = w ↔ bits w 31 26 = 0x25 ∧ bits w 25 24 = blogCode op ∧ BitVec.ofNat 8 (bits w 23 16) = bd ∧
      BitVec.ofNat 8 (bits w 15 8) = ba ∧ BitVec.ofNat 8 (bits w 7 0) = b2 := by
  have hop : blogCode op < 2 ^ 2 := by cases op <;> decide
  rw [Olx.encode, ofNat_eq_word_iff (by omega)]
  simp only [ofNat_bits_eq_iff]
  simp only [bits_eq]
  omega

theorem encode_bitop_iff {op : BitOp} {bs : BitVec 9} {bp : Byte} {rg : RegNo} :
    (Olx.bitop op bs bp rg).encode.1 = w ↔ bits w 31 26 = 0x26 ∧ bits w 25 22 = bitCode op ∧ BitVec.ofNat 9 (bits w 21 13) = bs ∧
      BitVec.ofNat 8 (bits w 12 5) = bp ∧ BitVec.ofNat 5 (bits w 4 0) = rg := by
  have hop : bitCode op < 2 ^ 4 := by cases op <;> decide
  rw [Olx.encode, ofNat_eq_word_iff (by omega)]
  simp only [ofNat_bits_eq_iff]
  simp only [bits_eq]
  omega

theorem encode_setb_iff {c : SetCond} {bd : Byte} {ra rb : RegNo} :
    (Olx.setb c bd ra rb).encode.1 = w ↔ bits w 31 26 = 0x27 ∧ bits w 25 22 = condCode c ∧ bits w 3 0 = 0 ∧
      BitVec.ofNat 8 (bits w 21 14) = bd ∧ BitVec.ofNat 5 (bits w 13 9) = ra ∧ BitVec.ofNat 5 (bits w 8 4) = rb := by
  have hop : condCode c < 2 ^ 4 := by cases c <;> decide
  rw [Olx.encode, ofNat_eq_word_iff (by omega)]
  simp only [ofNat_bits_eq_iff]
  simp only [bits_eq]
  omega

theorem encode_bb_iff {sense : Bool} {bs : BitVec 9} {off : Half} :
    (Olx.bb sense bs off).encode.1 = w ↔ bits w 31 26 = 0x28 ∧ (bits w 25 25 == 1) = sense ∧ BitVec.ofNat 9 (bits w 24 16) = bs ∧
      fImm w = off := by
  have hsense := b01_lt sense
  rw [Olx.encode, ofNat_eq_word_iff (by omega)]
  simp only [fImm, ofNat_bits_eq_iff, bits_beq_one_iff]
  simp only [bits_eq]
  omega

theorem encode_chki_iff {ra : RegNo} {i : BitVec 21} :
    (Olx.chki ra i).encode.1 = w ↔ bits w 31 26 = 0x2B ∧ fRd w = ra ∧ BitVec.ofNat 21 (bits w 20 0) = i := by
  rw [Olx.encode, ofNat_eq_word_iff (by omega)]
  simp only [fRd, ofNat_bits_eq_iff]
  simp only [bits_eq]
  omega

theorem encode_cop_iff {u : BitVec 3} {ver : BitVec 4} {rd rb : RegNo} {func : BitVec 12} :
    (Olx.cop u ver rd rb func).encode.1 = w ↔ 0x38 ≤ bits w 31 26 ∧ BitVec.ofNat 3 (bits w 28 26) = u ∧
      BitVec.ofNat 4 (bits w 25 22) = ver ∧ BitVec.ofNat 5 (bits w 21 17) = rd ∧ BitVec.ofNat 5 (bits w 16 12) = rb ∧
      BitVec.ofNat 12 (bits w 11 0) = func := by
  rw [Olx.encode, ofNat_eq_word_iff (by omega)]
  simp only [ofNat_bits_eq_iff]
  simp only [bits_eq]
  omega

end

/-! ### What the words of an instruction are -/

/-- The words of an instruction that follows its operand rules; one of a single word leaves word 1 open. -/
def Olx.Spelled (i : Olx) (w w1 : Word) : Prop := i.wf = true ∧ i.encode.1 = w ∧ (i.size = 8 → i.encode.2 = w1)

section
variable {w w1 : Word} {i j : Olx}

theorem Olx.spelled_of_word (hwf : i.wf = true) (hword : i.encode.1 = w) (hsize : i.size = 4) : i.Spelled w w1 :=
  ⟨hwf, hword, fun h => absurd (hsize.symm.trans h) (by decide)⟩

theorem Olx.spelled_of_words (hwf : i.wf = true) (hwords : i.encode.1 = w ∧ i.encode.2 = w1) : i.Spelled w w1 :=
  ⟨hwf, hwords.1, fun _ => hwords.2⟩

theorem keepWf_eq_some_iff : keepWf j = some i ↔ j = i ∧ i.wf = true := by
  unfold keepWf
  split
  · next h => exact ⟨fun e => ⟨Option.some.inj e, Option.some.inj e ▸ h⟩, fun e => congrArg some e.1⟩
  · next h => exact ⟨nofun, fun e => absurd (e.1 ▸ e.2) h⟩

/-! ### A word that decodes spells its instruction -/

theorem decodeSys_spelled (hmajor : bits w 31 26 = 0x17) (h : decodeSys w = some i) : i.Spelled w w1 := by
  unfold decodeSys at h
  split at h <;> rename_i hop <;>
    simp only [Option.ite_none_right_eq_some, Bool.and_eq_true, beq_iff_eq, reduceCtorEq, Option.some.injEq, and_assoc] at h
  case h_5 =>
    obtain ⟨hra, hrb, rfl⟩ := h
    exact Olx.spelled_of_word rfl ((encR_sys_iff (by decide)).2 ⟨hmajor, rfl, hra, hrb, hop, rfl⟩) rfl
  case h_6 =>
    obtain ⟨hrd, hrb, rfl⟩ := h
    exact Olx.spelled_of_word rfl ((encR_sys_iff (by decide)).2 ⟨hmajor, hrd, rfl, hrb, hop, rfl⟩) rfl
  case h_7 =>
    obtain ⟨hrd, hra, hrb, rfl⟩ := h
    exact Olx.spelled_of_word rfl ((encR_sys_iff (by decide)).2 ⟨hmajor, hrd, hra, hrb, hop, rfl⟩) rfl
  all_goals
    obtain ⟨hrd, hra, hrb, hn, rfl⟩ := h
    exact Olx.spelled_of_word rfl ((encR_sys_bare_iff (by decide)).2 ⟨hmajor, hrd, hra, hrb, hop, hn⟩) rfl

theorem decodeExt_spelled (hmajor : bits w 31 26 = 0x37) (h : decodeExt w w1 = some i) : i.Spelled w w1 := by
  unfold decodeExt at h
  split at h <;> rename_i hop <;>
    simp only [Option.ite_none_right_eq_some, beq_iff_eq, reduceCtorEq, Option.some.injEq] at h
  case h_1 | h_2 | h_12 =>
    obtain ⟨hra, rfl⟩ := h
    exact Olx.spelled_of_words rfl ((encX_eq_iff (by decide)).2 ⟨hmajor, hop, rfl, hra, rfl⟩)
  all_goals
    subst h
    exact Olx.spelled_of_words rfl ((encX_eq_iff (by decide)).2 ⟨hmajor, hop, rfl, rfl, rfl⟩)

theorem decodeOlx_spelled (h : decodeOlx w w1 = some i) : i.Spelled w w1 := by
  unfold decodeOlx at h
  split at h <;> rename_i hmajor
  -- majors 0x17 and 0x37, and no instruction
  case h_23 => exact decodeSys_spelled hmajor h
  case h_45 => exact decodeExt_spelled hmajor h
  case h_54 => cases h
  -- an operation code, and fields that must be 0 or operand rules to keep
  case h_1 =>
    split at h <;> simp only [Option.ite_none_right_eq_some, keepWf_eq_some_iff, reduceCtorEq] at h
    next hop =>
    obtain ⟨hzero, rfl, hwf⟩ := h
    exact Olx.spelled_of_word hwf (encode_alu_iff.2 ⟨hmajor, rfl, rfl, rfl, aluOf_eq_some_iff.1 hop, rfl, hzero⟩) rfl
  case h_10 =>
    split at h <;> simp only [Option.ite_none_right_eq_some, Option.some.injEq, reduceCtorEq] at h
    next hop =>
    obtain ⟨hzero, rfl⟩ := h
    exact Olx.spelled_of_word rfl (encode_muldiv_iff.2 ⟨hmajor, rfl, rfl, rfl, mulOf_eq_some_iff.1 hop, rfl, hzero⟩) rfl
  case h_22 =>
    split at h <;> simp only [Option.ite_none_right_eq_some, Option.some.injEq, reduceCtorEq] at h
    next hop =>
    obtain ⟨hzero, rfl⟩ := h
    exact Olx.spelled_of_word rfl (encode_amo_iff.2 ⟨hmajor, rfl, rfl, rfl, amoOf_eq_some_iff.1 hop, rfl, rfl, rfl, hzero⟩) rfl
  case h_24 =>
    split at h <;> simp only [keepWf_eq_some_iff, reduceCtorEq] at h
    next hop =>
    obtain ⟨rfl, hwf⟩ := h
    exact Olx.spelled_of_word hwf (encode_fp_iff.2 ⟨hmajor, rfl, rfl, rfl, fpOf_eq_some_iff.1 hop, rfl, rfl, rfl, rfl⟩) rfl
  case h_37 =>
    split at h <;> simp only [keepWf_eq_some_iff, reduceCtorEq] at h
    next hop =>
    obtain ⟨rfl, hwf⟩ := h
    exact Olx.spelled_of_word hwf (encode_bitop_iff.2 ⟨hmajor, bitOf_eq_some_iff.1 hop, rfl, rfl, rfl⟩) rfl
  case h_38 =>
    split at h <;> simp only [Option.ite_none_right_eq_some, Option.some.injEq, reduceCtorEq] at h
    next hop =>
    obtain ⟨hzero, rfl⟩ := h
    exact Olx.spelled_of_word rfl (encode_setb_iff.2 ⟨hmajor, condOf_eq_some_iff.1 hop, hzero, rfl, rfl, rfl⟩) rfl
  case h_44 =>
    split at h <;> simp only [Option.ite_none_right_eq_some, keepWf_eq_some_iff, reduceCtorEq] at h
    next hop =>
    obtain ⟨hzero, rfl, hwf⟩ := h
    exact Olx.spelled_of_word hwf (encode_long_iff.2 ⟨hmajor, rfl, rfl, rfl, longOf_eq_some_iff.1 hop, rfl, rfl, rfl, hzero⟩) rfl
  -- no operation code, but fields that must be 0 or operand rules to keep
  case h_39 =>
    obtain ⟨rfl, hwf⟩ := keepWf_eq_some_iff.1 h
    exact Olx.spelled_of_word hwf (encode_bb_iff.2 ⟨hmajor, rfl, rfl, rfl⟩) rfl
  case h_6 =>
    obtain ⟨hzero, ⟨⟩⟩ := Option.ite_none_right_eq_some.1 h
    have hop : bits w 7 6 < 4 := by rw [bits_eq]; exact Nat.mod_lt _ (by decide)
    exact Olx.spelled_of_word rfl (encode_shi_iff.2 ⟨hmajor, rfl, rfl, (shCode_shOf hop).symm, rfl, rfl, hzero⟩) rfl
  case h_9 =>
    obtain ⟨hra, ⟨⟩⟩ := Option.ite_none_right_eq_some.1 h
    exact Olx.spelled_of_word rfl ((encI_imm_eq_iff (by decide)).2 ⟨hmajor, rfl, eq_of_beq hra, rfl⟩) rfl
  case h_34 =>
    obtain ⟨hra, h⟩ := Option.ite_none_right_eq_some.1 h
    obtain ⟨rfl, hwf⟩ := keepWf_eq_some_iff.1 h
    exact Olx.spelled_of_word hwf ((encI_imm_eq_iff (by decide)).2 ⟨hmajor, rfl, eq_of_beq hra, rfl⟩) rfl
  case h_35 =>
    obtain ⟨hzero, h⟩ := Option.ite_none_right_eq_some.1 h
    obtain ⟨rfl, hwf⟩ := keepWf_eq_some_iff.1 h
    exact Olx.spelled_of_word hwf (encode_djnzl_iff.2 ⟨hmajor, rfl, hzero, rfl⟩) rfl
  case h_40 =>
    obtain ⟨hzero, ⟨⟩⟩ := Option.ite_none_right_eq_some.1 h
    exact Olx.spelled_of_word rfl (encode_wait_iff.2 ⟨hmajor, rfl, rfl, rfl, rfl, rfl, hzero⟩) rfl
  case h_41 =>
    obtain ⟨hzero, ⟨⟩⟩ := Option.ite_none_right_eq_some.1 h
    exact Olx.spelled_of_word rfl ((encR_chk_iff (by decide)).2 ⟨hmajor, rfl, rfl, rfl, rfl, hzero⟩) rfl
  case h_43 =>
    simp only [Option.ite_none_right_eq_some, Bool.and_eq_true, decide_eq_true_eq, beq_iff_eq, Option.some.injEq, and_assoc] at h
    obtain ⟨hzero, hrd, rfl⟩ := h
    exact Olx.spelled_of_word rfl ((encR_chk_iff (by decide)).2 ⟨hmajor, hrd, rfl, rfl, rfl, hzero⟩) rfl
  -- every value of every field spells an instruction
  all_goals obtain rfl := Option.some.inj h
  case h_31 | h_32 => exact Olx.spelled_of_word rfl ((encJ_eq_iff (by decide)).2 ⟨hmajor, rfl⟩) rfl
  case h_36 =>
    have hop : bits w 25 24 < 4 := by rw [bits_eq]; exact Nat.mod_lt _ (by decide)
    exact Olx.spelled_of_word rfl (encode_blog_iff.2 ⟨hmajor, (blogCode_blogOf hop).symm, rfl, rfl, rfl⟩) rfl
  case h_42 => exact Olx.spelled_of_word rfl (encode_chki_iff.2 ⟨hmajor, rfl, rfl⟩) rfl
  case h_46 | h_47 | h_48 | h_49 | h_50 | h_51 | h_52 | h_53 =>
    exact Olx.spelled_of_word rfl (encode_cop_iff.2 ⟨by omega, rfl, rfl, rfl, rfl, rfl⟩) rfl
  all_goals exact Olx.spelled_of_word rfl ((encI_imm_eq_iff (by decide)).2 ⟨hmajor, rfl, rfl, rfl⟩) rfl

/-! ### The words of an instruction decode to it -/

theorem decodeOlx_sys (hmajor : bits w 31 26 = 0x17) : decodeOlx w w1 = decodeSys w := by
  simp only [decodeOlx, hmajor]

theorem decodeOlx_ext (hmajor : bits w 31 26 = 0x37) : decodeOlx w w1 = decodeExt w w1 := by
  simp only [decodeOlx, hmajor]

theorem decodeOlx_of_spelled (h : i.Spelled w w1) : decodeOlx w w1 = some i := by
  obtain ⟨hwf, hword, hlo⟩ := h
  have hkeep : keepWf i = some i := keepWf_eq_some_iff.2 ⟨rfl, hwf⟩
  cases i with
  | alu op wd rd ra rb => simp only [decodeOlx, encode_alu_iff.1 hword, aluOf_eq_some_iff.2 rfl, hkeep, if_true]
  | imm op rd ra imm => cases op <;> simp only [decodeOlx, (encI_imm_eq_iff (by decide)).1 hword]
  | shi op wd rd ra sh => simp only [decodeOlx, encode_shi_iff.1 hword, shOf_shCode, if_true]
  | lui rd imm => simp only [decodeOlx, (encI_imm_eq_iff (by decide)).1 hword, beq_self_eq_true, if_true]
  | muldiv op wd rd ra rb => simp only [decodeOlx, encode_muldiv_iff.1 hword, mulOf_eq_some_iff.2 rfl, if_true]
  | load op rd ra imm => cases op <;> simp only [decodeOlx, loadCode, (encI_imm_eq_iff (by decide)).1 hword]
  | store op rd ra imm => cases op <;> simp only [decodeOlx, storeCode, (encI_imm_eq_iff (by decide)).1 hword]
  | amo op dw aq rl rd ra rb => simp only [decodeOlx, encode_amo_iff.1 hword, amoOf_eq_some_iff.2 rfl, if_true]
  | fence k =>
    have hfields := (encR_sys_bare_iff (by cases k <;> decide)).1 hword
    rw [decodeOlx_sys hfields.1]
    cases k <;> simp [decodeSys, hfields, fenceCode]
  | mfs rd n =>
    have hfields := (encR_sys_iff (by decide)).1 hword
    rw [decodeOlx_sys hfields.1]
    simp [decodeSys, hfields]
  | mts ra n =>
    have hfields := (encR_sys_iff (by decide)).1 hword
    rw [decodeOlx_sys hfields.1]
    simp [decodeSys, hfields]
  | swtrap n =>
    have hfields := (encR_sys_iff (by decide)).1 hword
    rw [decodeOlx_sys hfields.1]
    simp [decodeSys, hfields]
  | brk | eret =>
    have hfields := (encR_sys_bare_iff (by decide)).1 hword
    rw [decodeOlx_sys hfields.1]
    simp [decodeSys, hfields]
  | fp op fmt kind sat src rd ra rb => simp only [decodeOlx, encode_fp_iff.1 hword, fpOf_eq_some_iff.2 rfl, hkeep]
  | br op ra rb off => cases op <;> simp only [decodeOlx, brCode, (encI_imm_eq_iff (by decide)).1 hword]
  | jal off | j off => simp only [decodeOlx, (encJ_eq_iff (by decide)).1 hword]
  | jalr rd ra imm => simp only [decodeOlx, (encI_imm_eq_iff (by decide)).1 hword]
  | djnz ra off => simp only [decodeOlx, (encI_imm_eq_iff (by decide)).1 hword, beq_self_eq_true, hkeep, if_true]
  | djnzl ra off => simp only [decodeOlx, encode_djnzl_iff.1 hword, hkeep, if_true]
  | blog op bd ba b2 => simp only [decodeOlx, encode_blog_iff.1 hword, blogOf_blogCode]
  | bitop op bs bp rg => simp only [decodeOlx, encode_bitop_iff.1 hword, bitOf_eq_some_iff.2 rfl, hkeep]
  | setb c bd ra rb => simp only [decodeOlx, encode_setb_iff.1 hword, condOf_eq_some_iff.2 rfl, if_true]
  | bb sense bs off => simp only [decodeOlx, encode_bb_iff.1 hword, hkeep]
  | wait all clr rd ra rb => simp only [decodeOlx, encode_wait_iff.1 hword, if_true]
  | chk sgn rd ra rb => simp only [decodeOlx, (encR_chk_iff (by decide)).1 hword, if_true]
  | chki ra imm => simp only [decodeOlx, encode_chki_iff.1 hword]
  | chkd sgn ra rb =>
    simp only [decodeOlx, (encR_chk_iff (by decide)).1 hword, decide_true, beq_self_eq_true, Bool.and_self, if_true]
  | long op esz dir cond rd ra rb => simp only [decodeOlx, encode_long_iff.1 hword, longOf_eq_some_iff.2 rfl, hkeep, if_true]
  | lix rd imm | luix rd imm | jalx rd imm =>
    have hfields := (encX_eq_iff (by decide)).1 ⟨hword, hlo rfl⟩
    rw [decodeOlx_ext hfields.1]
    simp only [decodeExt, hfields, beq_self_eq_true, if_true]
  | ext op rd ra imm | extLoad op rd ra imm | extStore op rd ra imm =>
    have hfields := (encX_eq_iff (by cases op <;> decide)).1 ⟨hword, hlo rfl⟩
    rw [decodeOlx_ext hfields.1]
    cases op <;> simp only [decodeExt, hfields]
  | cop unit ver rd rb func =>
    obtain ⟨hmin, hfields⟩ := encode_cop_iff.1 hword
    have hmax : bits w 31 26 < 64 := by rw [bits_eq]; exact Nat.mod_lt _ (by decide)
    generalize hmajor : bits w 31 26 = major at hmin hmax
    interval_cases major <;> simp only [decodeOlx, hmajor, hfields]

theorem decodeOlx_eq_some_iff : decodeOlx w w1 = some i ↔ i.Spelled w w1 := ⟨decodeOlx_spelled, decodeOlx_of_spelled⟩

end

/-! ### The statement -/

/-- Settles O57: a word decodes to an instruction exactly where the instruction follows its operand rules and is spelled by it. -/
theorem instructionWordsRoundTrip : Obligations.InstructionWordsRoundTrip := by
  unfold Obligations.InstructionWordsRoundTrip
  intro i j w w1 w2
  have hdecode {i : Olx} (hwf : i.wf = true) : decodeOlx i.encode.1 i.encode.2 = some i := decodeOlx_of_spelled ⟨hwf, rfl, fun _ => rfl⟩
  refine ⟨hdecode, fun hi hj hij => ?_, decodeOlx_spelled, fun h hsize => ?_⟩
  · exact Option.some.inj ((hdecode hi).symm.trans (hij ▸ hdecode hj))
  · obtain ⟨hwf, hword, -⟩ := decodeOlx_spelled h
    exact decodeOlx_of_spelled (Olx.spelled_of_word hwf hword hsize)

/-- Settles O58: each word is evaluated. -/
theorem instructionWords : Obligations.InstructionWords := by
  unfold Obligations.InstructionWords
  decide

end Sys2Proof.Machine
end

section
/-! PROOFS. Values of the integer instructions (05 R136 to R139, Tables 5.5 to 5.7, 5.13): counts bit by bit, bytes in reverse order, the
corners of division, the next state of every instruction whose effect is a value in g[rd], and the statements assembled from them. -/

namespace Sys2Proof.Machine

/-! ### Counts and bytes -/

theorem countP_range_lt (n m : Nat) : (List.range n).countP (fun i => decide (i < m)) = min m n := by
  induction n with
  | zero => simp
  | succ n ih =>
    rw [List.range_succ, List.countP_append, ih, List.countP_singleton]
    by_cases h : n < m <;> simp [h] <;> omega

/-- Leading zeros are the top bits below which the whole value lies. -/
theorem clzN_eq_countP {n : Nat} (x : BitVec n) : clzN n x = (List.range n).countP (fun i => decide (x.toNat < 2 ^ (n - 1 - i))) := by
  unfold clzN
  split
  · next hzero => simp [hzero]
  · next hzero =>
    have hlog : Nat.log2 x.toNat < n := (Nat.log2_lt hzero).2 x.isLt
    have hlt : ∀ i ∈ List.range n, decide (x.toNat < 2 ^ (n - 1 - i)) = true ↔ decide (i < n - 1 - Nat.log2 x.toNat) = true := by
      intro i hi
      have hin : i < n := List.mem_range.1 hi
      rw [decide_eq_true_iff, decide_eq_true_iff, ← Nat.log2_lt hzero]
      omega
    rw [List.countP_congr hlt, countP_range_lt]
    omega

/-- Trailing zeros from bit `i` on are the bits up to which the whole value is 0. -/
theorem ctzFrom_eq_countP (x n i : Nat) (h : x % 2 ^ i = 0) :
    ctzFrom x n i = i + (List.range n).countP (fun j => decide (x % 2 ^ (i + j + 1) = 0)) := by
  induction n generalizing i with
  | zero => simp [ctzFrom]
  | succ n ih =>
    have hsucc : x % 2 ^ (i + 1) = 2 ^ i * (x.testBit i).toNat := by rw [Nat.mod_pow_succ, h, Nat.zero_add, Nat.toNat_testBit]
    rw [ctzFrom, List.range_succ_eq_map, List.countP_cons, List.countP_map]
    split
    · next hbit =>
      have hne : x % 2 ^ (i + 1) ≠ 0 := by simp [hsucc, hbit]
      have hlater : ∀ j, ¬ x % 2 ^ (i + (j + 1) + 1) = 0 := fun j hj =>
        hne (Nat.mod_eq_zero_of_dvd ((pow_dvd_pow 2 (by omega)).trans (Nat.dvd_of_mod_eq_zero hj)))
      simp [hne, hlater, Function.comp_def]
    · next hbit =>
      have hzero : x % 2 ^ (i + 1) = 0 := by simp [hsucc, hbit]
      have hshift : ((fun j => decide (x % 2 ^ (i + j + 1) = 0)) ∘ Nat.succ) = fun j => decide (x % 2 ^ (i + 1 + j + 1) = 0) :=
        funext fun j => by rw [Function.comp_apply, show i + Nat.succ j = i + 1 + j by omega]
      rw [ih (i + 1) hzero, hshift]
      simp [hzero]
      omega

theorem popN_eq_countP (x n : Nat) : popN x n = (List.range n).countP (fun i => x.testBit i) := by
  induction n with
  | zero => rfl
  | succ n ih => rw [popN, ih, List.range_succ, List.countP_append, List.countP_singleton]

theorem leNat_append (bs cs : List Byte) : leNat (bs ++ cs) = leNat bs + 256 ^ bs.length * leNat cs := by
  induction bs with
  | nil => simp [leNat]
  | cons b bs ih => simp only [List.cons_append, leNat, ih, List.length_cons, pow_succ]; ring

theorem bswapN_eq_beNat (x n : Nat) : bswapN x n = beNat (leBytes n x) := by
  induction n generalizing x with
  | zero => rfl
  | succ n ih =>
    rw [bswapN, ih, leBytes, beNat, beNat, List.reverse_cons, leNat_append, List.length_reverse, leBytes_length]
    simp [leNat]
    ring

/-! ### Results at a width (05 R138) -/

section
variable {s : State} {tid : Tid} {w : Bool} {rd ra rb : RegNo} {f : (n : Nat) → BitVec n → BitVec n → BitVec n}

/-- An ALU instruction that issues leaves in g[rd] what its operation gives at either width, the shift amount taken modulo the width. -/
theorem issueAlu_runs {op : AluOp} (h : Issues s tid (.alu op w rd ra rb)) (hf : ∀ n (x y : BitVec n), aluN op x y (y.toNat % n) = f n x y) :
    issueAlu op w tid rd ra rb s =
      .next (retire (afterFetch s tid) tid.toNat rd.toNat (atWidth w f (regOf s tid ra) (regOf s tid rb)) 4) := by
  have hval : aluVal op w (regOf s tid ra) (regOf s tid rb) = atWidth w f (regOf s tid ra) (regOf s tid rb) := by
    cases w
    · exact hf 64 _ _
    · simp only [aluVal, atWidth, if_true, sextW, ← hf, BitVec.toNat_setWidth]
      rw [Nat.mod_mod_of_dvd _ (by decide)]
  exact (issueVal_runs h rd _).trans (by rw [← hval]; rfl)

end

/-- Settles O2: each operation of the model is the one of Table 5.6 at every width. -/
theorem integerAluResults : Obligations.IntegerAluResults := by
  unfold Obligations.IntegerAluResults
  intro s tid w rd ra rb a b gives
  refine ⟨fun h => issueAlu_runs h fun _ _ _ => rfl, fun h => issueAlu_runs h fun _ _ _ => rfl, fun h => issueAlu_runs h fun _ _ _ => rfl,
    fun h => issueAlu_runs h fun _ _ _ => rfl, fun h => issueAlu_runs h fun _ _ _ => rfl, fun h => issueAlu_runs h fun _ _ _ => rfl,
    fun h => issueAlu_runs h fun _ _ _ => rfl, fun h => issueAlu_runs h fun _ _ _ => rfl, fun h => issueAlu_runs h fun _ _ _ => rfl,
    fun h => issueAlu_runs h fun _ _ _ => rfl, fun h => issueAlu_runs h fun n x y => ?slt, fun h => issueAlu_runs h fun n x y => ?sltu,
    fun h => issueAlu_runs h fun n x y => ?min, fun h => issueAlu_runs h fun n x y => ?max,
    fun h => issueAlu_runs h fun n x y => ?minu, fun h => issueAlu_runs h fun n x y => ?maxu,
    fun h => issueAlu_runs h fun n x _ => ?clz, fun h => issueAlu_runs h fun n x _ => ?ctz,
    fun h => issueAlu_runs h fun n x _ => ?popc, fun h => issueAlu_runs h fun n x _ => ?bswap, fun h => ?sextb, fun h => ?sexth, fun h => ?sextw⟩
  case slt => simp only [aluN, BitVec.slt_iff_toInt_lt, apply_ite (BitVec.ofNat n)]; rfl
  case sltu => simp only [aluN, BitVec.ult_iff_toNat_lt, apply_ite (BitVec.ofNat n)]; rfl
  case min | max =>
    simp only [aluN, BitVec.slt_iff_toInt_lt]
    split
    · next hlt => simp [hlt.le]
    · next hge => simp [not_lt.1 hge]
  case minu | maxu =>
    simp only [aluN, BitVec.ult_iff_toNat_lt]
    split
    · next hlt => simp [Nat.le_of_lt hlt]
    · next hge => simp [not_lt.1 hge]
  case clz => rw [← clzN_eq_countP]; rfl
  case ctz => simpa [aluN] using congrArg (BitVec.ofNat n) (ctzFrom_eq_countP x.toNat n 0 (Nat.mod_one _))
  case popc => exact congrArg (BitVec.ofNat n) (popN_eq_countP x.toNat n)
  case bswap => rw [← bswapN_eq_beNat]; rfl
  case sextb => exact issueAlu_runs h (f := fun n x _ => (x.setWidth 8).signExtend n) fun n x _ => by rw [aluN, BitVec.ofNat_toNat]
  case sexth => exact issueAlu_runs h (f := fun n x _ => (x.setWidth 16).signExtend n) fun n x _ => by rw [aluN, BitVec.ofNat_toNat]
  case sextw => exact issueAlu_runs h (f := fun n x _ => (x.setWidth 32).signExtend n) fun n x _ => by rw [aluN, BitVec.ofNat_toNat]

/-! ### Immediates (05 Tables 5.5, 5.13) -/

theorem boolD_slt_signExtend (a : Dword) (imm : Half) : boolD (a.slt (imm.signExtend 64)) = if a.toInt < imm.toInt then 1 else 0 := by
  rw [boolD, BitVec.slt_eq_decide, BitVec.toInt_signExtend_of_le (by decide)]
  simp only [decide_eq_true_eq]

theorem boolD_ult (a b : Dword) : boolD (a.ult b) = if a.toNat < b.toNat then 1 else 0 := by
  simp only [boolD, BitVec.ult_iff_toNat_lt]

/-- LUI gives 65,536 times its signed immediate. -/
theorem luiVal_eq (imm : Half) : luiVal imm = BitVec.ofInt 64 (imm.toInt * 65536) := by
  have hshift : (imm.setWidth 32 <<< 16 : Word).toNat = imm.toNat * 65536 := by
    rw [BitVec.toNat_shiftLeft, BitVec.toNat_setWidth, Nat.shiftLeft_eq]
    omega
  apply BitVec.eq_of_toInt_eq
  rw [luiVal, sextW, BitVec.toInt_signExtend_of_le (by decide), BitVec.toInt_ofInt, BitVec.toInt_eq_toNat_cond, hshift,
    BitVec.toInt_eq_toNat_cond, Int.bmod]
  omega

theorem setWidth_shiftLeft_22 (imm : BitVec 42) : imm.setWidth 64 <<< 22 = BitVec.ofNat 64 (imm.toNat * 2 ^ 22) := by
  apply BitVec.eq_of_toNat_eq
  rw [BitVec.toNat_shiftLeft, BitVec.toNat_setWidth, Nat.shiftLeft_eq, BitVec.toNat_ofNat]
  omega

/-- SHI acts at either width, its amount taken modulo the width (DEDUCED, log 13). -/
theorem shiVal_eq_atWidth (op : ShOp) (w : Bool) (a : Dword) (sh : BitVec 6) :
    shiVal op w a sh = atWidth w (fun n x _ => shiftN op x (sh.toNat % n)) a 0 := by
  cases w
  · rw [shiVal, atWidth, if_neg Bool.false_ne_true, if_neg Bool.false_ne_true, Nat.mod_eq_of_lt sh.isLt]
  · rfl

section
variable {s : State} {tid : Tid} {w : Bool} {rd ra : RegNo} {u : Dword}

theorem issueVal_gives {i : Olx} (h : Issues s tid i) (v : Thread → Dword) (hu : v (threadOf s tid.toNat) = u) :
    issueVal s tid i rd v = .next (retire (afterFetch s tid) tid.toNat rd.toNat u i.size) :=
  hu ▸ issueVal_runs h rd v

theorem issueImm_gives {op : ImmOp} {imm : Half} (h : Issues s tid (.imm op rd ra imm)) (hu : immVal op (regOf s tid ra) imm = u) :
    issueImm op tid rd ra imm s = .next (retire (afterFetch s tid) tid.toNat rd.toNat u 4) :=
  issueVal_gives h (fun x => immVal op (x.reg ra.toNat) imm) hu

theorem execShi_gives {op : ShOp} {sh : BitVec 6} (h : Issues s tid (.shi op w rd ra sh)) :
    execShi tid op w rd ra sh s = .next (retire (afterFetch s tid) tid.toNat rd.toNat
      (atWidth w (fun n x _ => shiftN op x (sh.toNat % n)) (regOf s tid ra) 0) 4) :=
  issueVal_gives h (fun x => shiVal op w (x.reg ra.toNat) sh) (shiVal_eq_atWidth op w (regOf s tid ra) sh)

theorem issueExt_gives {op : ExtOp} {imm : BitVec 42} (h : Issues s tid (.ext op rd ra imm)) :
    issueExt op tid rd ra imm s = .next (retire (afterFetch s tid) tid.toNat rd.toNat (extVal op (regOf s tid ra) imm) 8) :=
  issueVal_runs h rd (fun x => extVal op (x.reg ra.toNat) imm)

end

/-- Settles O3: each instruction's value in g[rd] is that of its table. -/
theorem immediateResults : Obligations.ImmediateResults := by
  unfold Obligations.ImmediateResults
  intro s tid w rd ra imm sh imm42 a gives gives8
  exact ⟨fun h => issueImm_gives h rfl, fun h => issueImm_gives h rfl, fun h => issueImm_gives h rfl, fun h => issueImm_gives h rfl,
    fun h => issueImm_gives h (boolD_slt_signExtend a imm), fun h => issueImm_gives h (boolD_ult a _),
    execShi_gives, execShi_gives, execShi_gives, execShi_gives,
    fun h => issueVal_gives h (fun _ => luiVal imm) (luiVal_eq imm), fun h => issueVal_gives h (fun _ => imm42.signExtend 64) rfl,
    fun h => issueVal_gives h (fun _ => imm42.setWidth 64 <<< 22) (setWidth_shiftLeft_22 imm42),
    issueExt_gives, issueExt_gives, issueExt_gives, issueExt_gives⟩

/-! ### Multiplication and division (05 R139) -/

section
variable {s : State} {tid : Tid} {op : MulOp} {w : Bool} {rd ra rb : RegNo} (h : Issues s tid (.muldiv op w rd ra rb))
include h

theorem issueMul_retires (hop : mulHolds op = false) :
    issueMul op tid w rd ra rb s = .next (retire (afterFetch s tid) tid.toNat rd.toNat
      (atWidth w (fun _ x y => mulN op x y) (regOf s tid ra) (regOf s tid rb)) 4) := by
  refine congrArg _ ((issue_runs h _).trans ?_)
  simp only [hop, threadOf_afterFetch, Bool.false_eq_true, if_false]
  rfl

theorem issueMul_holds (hop : mulHolds op = true) :
    issueMul op tid w rd ra rb s = .next (holdVal (afterFetch s tid) tid.toNat rd.toNat
      (atWidth w (fun _ x y => mulN op x y) (regOf s tid ra) (regOf s tid rb)) 4) := by
  refine congrArg _ ((issue_runs h _).trans ?_)
  simp only [hop, threadOf_afterFetch, if_true]
  rfl

end

/-- The most negative value divided by -1 is itself, with remainder 0. -/
theorem intMin_div_neg_one (n : Nat) :
    BitVec.ofInt n (Int.tdiv (BitVec.intMin n).toInt (-1)) = BitVec.intMin n ∧ Int.tmod (BitVec.intMin n).toInt (-1) = 0 := by
  constructor
  · rw [Int.tdiv_neg, Int.tdiv_one, BitVec.ofInt_neg, BitVec.ofInt_toInt, BitVec.neg_intMin]
  · rw [Int.tmod_neg, Int.tmod_one]

/-- Settles O4: a multiplication retires with its product, a division holds the thread until it completes with its quotient or
remainder. -/
theorem multiplyDivideResults : Obligations.MultiplyDivideResults := by
  unfold Obligations.MultiplyDivideResults
  refine ⟨?_, fun n _ => intMin_div_neg_one n⟩
  intro s tid w rd ra rb a b gives heldFor
  have hheld {c : Instr} {op : MulOp} (hc : exec c s = issueMul op tid w rd ra rb s) (hop : mulHolds op = true) (hi : Issues s tid (.muldiv op w rd ra rb)) :
      heldFor c (atWidth w (fun _ x y => mulN op x y) a b) := by
    refine ⟨_, hc.trans (issueMul_holds hi hop), by simp [holdVal, hold], fun x => ?_⟩
    refine (hold_then_complete _ _ _ _ x rfl rfl rfl rfl rfl).trans ?_
    simp only [threadOf_afterFetch]
    rfl
  exact ⟨fun h => issueMul_retires h rfl, fun h => issueMul_retires h rfl, fun h => issueMul_retires h rfl,
    hheld rfl rfl, hheld rfl rfl, hheld rfl rfl, hheld rfl rfl⟩

end Sys2Proof.Machine
end

section
/-! PROOFS. Control flow, bounds checks and traps (05 R142 to R145, R157; 06 R180 to R182, Table 6.7): where a branch goes, what a
check compares, what a trap leaves in its thread, and the statements assembled from them. -/

namespace Sys2Proof.Machine

/-! ### Branches and jumps (05 R142 to R144) -/

theorem target_eq {k : Nat} (x : Thread) (off : BitVec k) : target x off = x.pc + 4 * off.signExtend 64 := by
  rw [target, BitVec.shiftLeft_eq_mul_twoPow, BitVec.mul_comm]
  rfl

section
variable {s : State} {tid : Tid} {ra : RegNo}

theorem issueBr_runs {op : BrOp} {rb : RegNo} {off : Half} (h : Issues s tid (.br op ra rb off)) {p : Prop} [Decidable p]
    (hp : brTaken op (regOf s tid ra) (regOf s tid rb) = true ↔ p) :
    issueBr op tid ra rb off s = .next (if p then jump (afterFetch s tid) tid.toNat ((threadOf s tid.toNat).pc + 4 * off.signExtend 64)
      else advance (afterFetch s tid) tid.toNat 4) := by
  refine congrArg _ ((issue_runs h _).trans ?_)
  simp only [threadOf_afterFetch, target_eq, ← hp]
  rfl

theorem issueDjnz_runs {i : Olx} (h : Issues s tid i) {k : Nat} (off : BitVec k) :
    issueDjnz i tid ra off s = .next
      (let g := setThread (afterFetch s tid) tid.toNat ((threadOf s tid.toNat).write ra.toNat (regOf s tid ra - 1))
       if regOf s tid ra = 1 then advance g tid.toNat 4 else jump g tid.toNat ((threadOf s tid.toNat).pc + 4 * off.signExtend 64)) := by
  refine congrArg _ ((issue_runs h _).trans ?_)
  simp only [threadOf_afterFetch, target_eq, ne_eq, sub_eq_zero, ite_not]
  rfl

theorem execJal_runs {off : BitVec 26} (h : Issues s tid (.jal off)) :
    execJal tid off s = .next (jump (setThread (afterFetch s tid) tid.toNat ((threadOf s tid.toNat).write 31 ((threadOf s tid.toNat).pc + 4)))
      tid.toNat ((threadOf s tid.toNat).pc + 4 * off.signExtend 64)) := by
  refine congrArg _ ((issue_runs h _).trans ?_)
  simp only [linkJump, threadOf_afterFetch, target_eq]
  rfl

theorem execJ_runs {off : BitVec 26} (h : Issues s tid (.j off)) :
    execJ tid off s = .next (jump (afterFetch s tid) tid.toNat ((threadOf s tid.toNat).pc + 4 * off.signExtend 64)) := by
  refine congrArg _ ((issue_runs h _).trans ?_)
  simp only [threadOf_afterFetch, target_eq]

theorem execJalr_runs {rd : RegNo} {imm : Half} (h : Issues s tid (.jalr rd ra imm)) :
    execJalr tid rd ra imm s = .next (if (regOf s tid ra + imm.signExtend 64).toNat % 4 ≠ 0
      then trap (afterFetch s tid) tid.toNat { cause := causeMisalign, v0 := regOf s tid ra + imm.signExtend 64 }
      else linkJump (afterFetch s tid) tid.toNat rd.toNat 4 (regOf s tid ra + imm.signExtend 64)) := by
  refine congrArg _ ((issue_runs h _).trans ?_)
  simp only [threadOf_afterFetch]
  rfl

theorem execJalx_runs {rd : RegNo} {imm : BitVec 42} (h : Issues s tid (.jalx rd imm)) :
    execJalx tid rd imm s = .next (jump (setThread (afterFetch s tid) tid.toNat ((threadOf s tid.toNat).write rd.toNat ((threadOf s tid.toNat).pc + 8)))
      tid.toNat ((threadOf s tid.toNat).pc + 4 * imm.signExtend 64)) := by
  refine congrArg _ ((issue_runs h _).trans ?_)
  simp only [linkJump, threadOf_afterFetch, target_eq]
  rfl

end

/-- Settles O6: each branch goes by the comparison of R142, each jump to the target of its offset or register. -/
theorem controlFlowTargets : Obligations.ControlFlowTargets := by
  unfold Obligations.ControlFlowTargets
  intro s tid rd ra rb off off20 off26 imm42 a b t f x
  refine ⟨fun h => issueBr_runs h (by simp [brTaken, a, b]), fun h => issueBr_runs h (by simp [brTaken, a, b]),
    fun h => issueBr_runs h BitVec.slt_iff_toInt_lt, fun h => issueBr_runs h (by simp [brTaken, BitVec.slt_eq_decide, a, b]),
    fun h => issueBr_runs h BitVec.ult_iff_toNat_lt, fun h => issueBr_runs h (by simp [brTaken, BitVec.ult_eq_decide, a, b]),
    execJal_runs, execJ_runs, fun h hal => (execJalr_runs h).trans ?_, fun h hmis => (execJalr_runs h).trans (congrArg _ (if_pos hmis)),
    execJalx_runs, fun h => issueDjnz_runs h off, fun h => issueDjnz_runs h off20⟩
  rw [if_neg (not_not.2 hal), linkJump, threadOf_afterFetch]
  rfl

/-! ### Bounds checks (05 R145) -/

theorem inBounds_iff (sgn : Bool) (v lo hi : Dword) :
    inBounds sgn v lo hi = true ↔ if sgn then lo.toInt ≤ v.toInt ∧ v.toInt < hi.toInt else lo.toNat ≤ v.toNat ∧ v.toNat < hi.toNat := by
  cases sgn
  · simp [inBounds, BitVec.ult_eq_decide]
  · simp [inBounds, BitVec.slt_eq_decide]

section
variable {s : State} {tid : Tid} {sgn : Bool} {ra rb : RegNo}

theorem checkBounds_pass (t : Nat) {v lo hi : Dword} (desc : Dword) (h : inBounds sgn v lo hi = true) :
    checkBounds s t sgn v lo hi desc = advance s t 4 := if_pos h

theorem checkBounds_trap (t : Nat) {v lo hi : Dword} (desc : Dword) (h : ¬ inBounds sgn v lo hi = true) :
    checkBounds s t sgn v lo hi desc = trap s t { cause := causeBounds, v0 := v, v1 := lo, v2 := hi, v3 := desc } := if_neg h

theorem execChk_runs {rd : RegNo} (h : Issues s tid (.chk sgn rd ra rb)) :
    execChk tid sgn rd ra rb s = .next (checkBounds (afterFetch s tid) tid.toNat sgn (regOf s tid ra) (regOf s tid rb) (regOf s tid rd) 0) := by
  refine congrArg _ ((issue_runs h _).trans ?_)
  simp only [threadOf_afterFetch]
  rfl

theorem execChki_runs {imm : BitVec 21} (h : Issues s tid (.chki ra imm)) :
    execChki tid ra imm s = .next (checkBounds (afterFetch s tid) tid.toNat false (regOf s tid ra) 0 (imm.setWidth 64) 0) := by
  refine congrArg _ ((issue_runs h _).trans ?_)
  simp only [threadOf_afterFetch]
  rfl

theorem execChkd_runs (h : Issues s tid (.chkd sgn ra rb)) :
    execChkd tid sgn ra rb s = .next (runChkd (afterFetch s tid) tid.toNat sgn ra rb []) :=
  congrArg _ (issue_runs h _)

end

theorem MemClass.isMem_iff {c : MemClass} : c.isMem = true ↔ c = .sram ∨ c = .hbm ∨ c = .ddr := by cases c <;> decide

section
variable {w : Way} (h : w.cls.isMem = true)
include h

/-- Device memory is not the control space. -/
theorem ctlMisfit_of_isMem (a n : Nat) (write : Bool) : ctlMisfit w a n write = false := by
  rcases MemClass.isMem_iff.1 h with hc | hc | hc <;> rw [ctlMisfit, hc] <;> rfl

theorem requestLoad_of_isMem (s : State) (t a n : Nat) : requestLoad s t a n w = (.now (readLe s a n), s) := by
  rcases MemClass.isMem_iff.1 h with hc | hc | hc <;> rw [requestLoad, hc]

end

/-- A load of an instruction with several accesses that is granted in device memory through a pane of type 0 has its value at once. -/
theorem loadOne_granted {s s' : State} {t a n : Nat} {m : Multi} {w : Way} (hnew : m.got[m.at_]? = none)
    (hway : accessWay s t a n .read = (.ok w, s')) (hmem : w.cls.isMem = true) (htype : w.mtype = 0) :
    loadOne s t a n m = (some (readLe s' a n), dtrace s' t 0 n a (BitVec.ofNat 64 (readLe s' a n))) := by
  simp only [loadOne, hnew, hway, ctlMisfit_of_isMem hmem, requestLoad_of_isMem hmem, htype, Bool.false_eq_true, if_false, if_true]

section
variable {s s1 s2 : State} {t d lo hi : Nat} {sgn : Bool} {ra rb : RegNo} (hd : ((threadOf s t).reg rb.toNat).toNat = d) (hlow : d < 2 ^ 52)
include hd hlow

theorem runChkd_misaligned (hmis : d % 16 ≠ 0) (got : List Dword) : runChkd s t sgn ra rb got = trap s t (misalign d) := by
  simp only [runChkd, hd]
  rw [if_neg (not_le.2 hlow), if_pos hmis]

theorem runChkd_loaded (hal : d % 16 = 0) (hlo : loadOne s t d 8 ⟨.chkd sgn ra rb, 0, [], 0⟩ = (some lo, s1))
    (hhi : loadOne s1 t (d + 8) 8 ⟨.chkd sgn ra rb, 0, [BitVec.ofNat 64 lo], 1⟩ = (some hi, s2)) :
    runChkd s t sgn ra rb [] =
      checkBounds s2 t sgn ((threadOf s t).reg ra.toNat) (BitVec.ofNat 64 lo) (BitVec.ofNat 64 hi) (BitVec.ofNat 64 d) := by
  simp only [runChkd, hd]
  rw [if_neg (not_le.2 hlow), if_neg (not_not.2 hal)]
  simp only [hlo, List.isEmpty_nil, if_true, hhi]

end

/-- Settles O9: a check passes a value within its range and traps BOUNDS on any other. -/
theorem boundsChecks : Obligations.BoundsChecks := by
  unfold Obligations.BoundsChecks
  intro s tid sgn rd ra rb imm f t v inside info
  refine ⟨fun h hin => ?_, fun h hout => ?_, fun h hin => ?_, fun h hout => ?_, fun h hlow hmis => ?_, ?_, fun lo hi hle hin => ?_⟩
  · exact (execChk_runs h).trans (congrArg _ (checkBounds_pass t 0 ((inBounds_iff sgn _ _ _).2 hin)))
  · exact (execChk_runs h).trans (congrArg _ (checkBounds_trap t 0 (mt (inBounds_iff sgn _ _ _).1 hout)))
  · exact (execChki_runs h).trans (congrArg _ (checkBounds_pass t 0 ((inBounds_iff false _ _ _).2 hin)))
  · exact (execChki_runs h).trans (congrArg _ (checkBounds_trap t 0 (mt (inBounds_iff false _ _ _).1 hout)))
  · exact (execChkd_runs h).trans (congrArg _ (runChkd_misaligned (by rw [threadOf_afterFetch]; rfl) hlow hmis []))
  · intro d a1 s1 a2 s2 w1 w2 h hlow hal ha1 hmem1 htype1 ha2 hmem2 htype2 lo hi
    have hrun : runChkd f t sgn ra rb [] = checkBounds s2 t sgn ((threadOf f t).reg ra.toNat) lo hi (BitVec.ofNat 64 d) :=
      runChkd_loaded (by rw [threadOf_afterFetch]; rfl) hlow hal (loadOne_granted rfl (Prod.ext ha1 rfl) hmem1 htype1)
        (loadOne_granted rfl (Prod.ext ha2 rfl) hmem2 htype2)
    refine (execChkd_runs h).trans (congrArg _ (hrun.trans ?_))
    rw [threadOf_afterFetch]
    rfl
  · obtain ⟨hmin, hmax⟩ := hin
    omega

/-! ### Traps (06 R180, R182) -/

section
variable {s : State} {t : Nat} (k : TrapInfo) (saved : Dword)

theorem trapAt_enters (h : (threadOf s t).inTrap = false ∧ (threadOf s t).tvec ≠ 0) :
    trapAt s t k saved = setThread (itrace s t 1 k.cause (threadOf s t).pc (threadOf s t).tvec) t ((threadOf s t).enter k saved) :=
  if_neg (not_or.2 ⟨by rw [h.1]; decide, h.2⟩)

theorem trapAt_halts (h : (threadOf s t).inTrap = true ∨ (threadOf s t).tvec = 0) :
    trapAt s t k saved = haltThread (itrace s t 1 k.cause (threadOf s t).pc (threadOf s t).tvec) t k saved :=
  if_pos h

end

section
variable {s : State} {tid : Tid}

theorem execSwtrap_runs {n : BitVec 7} (h : Issues s tid (.swtrap n)) :
    execSwtrap tid n s = .next (trapAt (afterFetch s tid) tid.toNat { cause := causeSwtrap, v0 := n.setWidth 64 } (nextPc (threadOf s tid.toNat) 4)) := by
  refine congrArg _ ((issue_runs h _).trans ?_)
  rw [threadOf_afterFetch]

theorem trap_afterFetch (s : State) (tid : Tid) (k : TrapInfo) :
    trap (afterFetch s tid) tid.toNat k = trapAt (afterFetch s tid) tid.toNat k (threadOf s tid.toNat).pc := by
  rw [trap, threadOf_afterFetch]

theorem execBrk_runs (h : Issues s tid .brk) :
    execBrk tid s = .next (trapAt (afterFetch s tid) tid.toNat { cause := causeBreak } (threadOf s tid.toNat).pc) :=
  congrArg _ ((issue_runs h _).trans (trap_afterFetch s tid _))

/-- A word that decodes to nothing passes the gate that BREAK passes: it reads no register and is no fence. -/
theorem execIllegalInstruction_runs {w0 w1 : Word} (hnone : decodeOlx w0 w1 = none) (h : Issues s tid .brk) :
    execIllegalInstruction tid w0 w1 s = .next (trapAt (afterFetch s tid) tid.toNat
      { cause := causeIllegal, v0 := w0.setWidth 64, v1 := if w0.toNat / 2 ^ 26 = 0x37 then w1.setWidth 64 else 0 } (threadOf s tid.toNat).pc) := by
  have hmajor : bits w0 31 26 = w0.toNat / 2 ^ 26 := by rw [bits_eq, Nat.mod_eq_of_lt (by omega)]
  refine congrArg _ ((issue_runs h (fun s => _)).trans ?_)
  simp only [hnone, hmajor]
  exact trap_afterFetch s tid _

theorem execNoCoprocessorFitted_runs {ver : BitVec 4} {rd rb : RegNo} {func : BitVec 12} (h : Issues s tid (.cop 3 ver rd rb func)) :
    execNoCoprocessorFitted tid ver rd rb func s =
      .next (trapAt (afterFetch s tid) tid.toNat (cpAbsent 4 (.cop 3 ver rd rb func)) (threadOf s tid.toNat).pc) :=
  congrArg _ ((issue_runs h _).trans (trap_afterFetch s tid _))

theorem execEret_runs (h : Issues s tid .eret) :
    execEret tid s = .next
      (let x := threadOf s tid.toNat
       if (!x.inTrap) = true then trapAt (afterFetch s tid) tid.toNat (illegal .eret) x.pc
       else if x.epc.toNat % 4 ≠ 0 then trapAt (afterFetch s tid) tid.toNat { cause := causeMisalign, v0 := x.epc } x.pc
       else setThread (itrace (afterFetch s tid) tid.toNat 3 0 x.pc (toPc x.epc)) tid.toNat
         { x with pc := toPc x.epc, ie := x.prevIe, inTrap := false }) := by
  refine congrArg _ ((issue_runs h _).trans ?_)
  simp only [threadOf_afterFetch, trap_afterFetch]

theorem execEret_returns (h : Issues s tid .eret) (hin : (threadOf s tid.toNat).inTrap = true) (hal : (threadOf s tid.toNat).epc.toNat % 4 = 0) :
    execEret tid s = .next
      (setThread (itrace (afterFetch s tid) tid.toNat 3 0 (threadOf s tid.toNat).pc (toPc (threadOf s tid.toNat).epc)) tid.toNat
        { threadOf s tid.toNat with pc := toPc (threadOf s tid.toNat).epc, ie := (threadOf s tid.toNat).prevIe, inTrap := false }) := by
  refine (execEret_runs h).trans (congrArg _ ((if_neg ?_).trans (if_neg (not_not.2 hal))))
  simp [hin]

end

/-- Settles O11: each of them takes its trap, which enters the handler or halts the thread; ERET returns from it. -/
theorem trapEntry : Obligations.TrapEntry := by
  unfold Obligations.TrapEntry
  intro s tid n w0 w1 ver rd rb func f t x enters halts traps
  have htraps {e : Host.Outcome State Fault Refusal} {c : Nat} {v0 v1 saved : Dword}
      (he : e = .next (trapAt f t { cause := c, v0 := v0, v1 := v1 } saved)) : traps e c v0 v1 saved := by
    have hx : threadOf f t = x := threadOf_afterFetch s tid t
    refine ⟨fun hin => ?_, fun hhalt => ?_⟩
    · rw [he, trapAt_enters _ _ (hx ▸ hin), hx]
      rfl
    · rw [he, trapAt_halts _ _ (hx ▸ hhalt), hx]
  refine ⟨fun h => htraps (execSwtrap_runs h), fun h => htraps (execBrk_runs h), fun hnone h => htraps (execIllegalInstruction_runs hnone h),
    fun h => htraps (execNoCoprocessorFitted_runs h), fun h hout => htraps ((execEret_runs h).trans (congrArg _ (if_pos ?_))),
    fun h hin hal => execEret_returns h hin hal,
    fun h hin hmis => (htraps ((execEret_runs h).trans (congrArg _ ((if_neg ?_).trans (if_pos hmis))))).2 (.inl hin)⟩
  · rw [hout]; rfl
  · rw [hin]; decide

/-- A pc is a pc already. -/
theorem toPc_toPc (v : Dword) : toPc (toPc v) = toPc v := by
  rw [toPc, toPc, BitVec.and_assoc, BitVec.and_self]

/-- Settles O12: the handler that a SWTRAP enters saves the next pc and the interrupt enable, and ERET takes them back. -/
theorem trapThenReturn : Obligations.TrapThenReturn := by
  unfold Obligations.TrapThenReturn
  intro s u v tid n hswtrap hout htvec hu heret hv x y
  have hentered : threadOf u tid.toNat = x.enter { cause := causeSwtrap, v0 := n.setWidth 64 } (nextPc x 4) := by
    obtain rfl := Host.Outcome.next.inj (hu.symm.trans (execSwtrap_runs hswtrap))
    rw [trapAt_enters _ _ (by rw [threadOf_afterFetch]; exact ⟨hout, htvec⟩), threadOf_setThread_same, threadOf_afterFetch]
  have hepc : (threadOf u tid.toNat).epc = nextPc x 4 := by rw [hentered]; rfl
  have hreturned : y = { threadOf u tid.toNat with pc := toPc (threadOf u tid.toNat).epc, ie := (threadOf u tid.toNat).prevIe, inTrap := false } := by
    have hin : (threadOf u tid.toNat).inTrap = true := by rw [hentered]; rfl
    obtain rfl := Host.Outcome.next.inj (hv.symm.trans (execEret_returns heret hin (by rw [hepc]; exact (toPc_aligned _).1)))
    exact threadOf_setThread_same _ _ _
  rw [hreturned, hepc, hentered]
  exact ⟨toPc_toPc _, rfl, rfl, rfl, fun _ => rfl, rfl, rfl, rfl, rfl, rfl, rfl⟩

end Sys2Proof.Machine
end



section
/-! PROOFS. Bits, fences and waits (05 R131 to R134, R148; 06 R163, R176, R177, R179, R184): a bit read after a write, that a wake leaves
the rafters alone, the ends of a WAIT, the interrupt that is due, and the statements assembled from them. -/

namespace Sys2Proof.Machine

/-! ### A wake source changes no thread and no bit (02 R42 to R45) -/

theorem noteSrc_rafters (s : State) (d src : Nat) : (noteSrc s d src).rafters = s.rafters := rfl

theorem beginWake_rafters (s : State) (d src : Nat) : (beginWake s d src).rafters = s.rafters := rfl

theorem reachRun_rafters (s : State) (d : Nat) : (reachRun s d).rafters = s.rafters := by
  unfold reachRun
  dsimp only
  split <;> rfl

theorem latchOne_rafters (s : State) (d src : Nat) : (latchOne s d src).rafters = s.rafters := by
  unfold latchOne
  dsimp only
  split
  · rfl
  · split
    · rfl
    · split
      · split
        · rfl
        · rfl
        · exact beginWake_rafters s d src
      · split
        · rw [reachRun_rafters, noteSrc_rafters, bump_rafters]
        · rw [beginWake_rafters, setDom_rafters, bump_rafters]
      · rw [noteSrc_rafters, setDom_rafters]
        split
        · rfl
        · exact bump_rafters s _ 0
      · rfl

theorem latchWake_rafters (s : State) (d src : Nat) : (latchWake s d src).rafters = s.rafters := by
  unfold latchWake
  dsimp only
  split
  · rw [latchOne_rafters, latchOne_rafters]
  · exact latchOne_rafters s d src

theorem wakeWatchers_rafters (s : State) (n : Nat) : (wakeWatchers s n).rafters = s.rafters := by
  have hfold (l : List Nat) (u : State) : (l.foldl (fun s r => latchWake s r 2) u).rafters = u.rafters := by
    induction l generalizing u with
    | nil => rfl
    | cons r l ih => rw [List.foldl_cons, ih, latchWake_rafters]
  exact hfold _ s

theorem writeGlobal_rafters (s : State) (n : Nat) (v : Bool) :
    (writeGlobal s n v).rafters = if n < 0x801000 then { s.rafters with doorbell := Tab.store false s.rafters.doorbell (n - 0x800000) v }
      else { s.rafters with flags := Tab.store false s.rafters.flags (n - 0x810000) v } := by
  unfold writeGlobal
  dsimp only
  by_cases hn : n < 0x801000 <;> by_cases hwake : (v && !readGlobal s n) = true <;> simp only [hn, hwake, if_true, if_false, wakeWatchers_rafters] <;> rfl

/-! ### Bits (05 Tables 5.2, 5.3) -/

section
variable {s : State} {t n : Nat}

theorem bitValue_priv (h : n < 0x100) : bitValue s t n = (threadOf s t).priv.getLsbD n := if_pos h

theorem bitValue_shared (h : 0x10000 ≤ n ∧ n < 0x20000) :
    bitValue s t n = Tab.get false s.rafters.shared (65536 * tidRafter t + (n - 0x10000)) := by
  rw [bitValue, if_neg (by omega), if_pos h]

/-- A bit of a thread after one of them was written. -/
theorem getLsbD_bit_written (x : BitVec 256) {m : Nat} (hn : n < 256) (hmax : m < 256) (v : Bool) :
    (if v then x ||| ((1 : BitVec 256) <<< n) else x &&& ~~~((1 : BitVec 256) <<< n)).getLsbD m = if m = n then v else x.getLsbD m := by
  have hbit : ((1 : BitVec 256) <<< n).getLsbD m = decide (m = n) := by
    have htwo := BitVec.getLsbD_twoPow n m (w := 256)
    rwa [decide_eq_true hn, Bool.true_and, decide_eq_decide.2 eq_comm] at htwo
  cases v
  · rw [if_neg Bool.false_ne_true, BitVec.getLsbD_and, BitVec.getLsbD_not, hbit, decide_eq_true hmax]
    by_cases hm : m = n <;> simp [hm]
  · rw [if_pos rfl, BitVec.getLsbD_or, hbit]
    by_cases hm : m = n <;> simp [hm]

theorem writeBit_priv (h : n < 0x100) (v : Bool) :
    writeBit s t n v = setThread s t { threadOf s t with
      priv := if v then (threadOf s t).priv ||| ((1 : BitVec 256) <<< n) else (threadOf s t).priv &&& ~~~((1 : BitVec 256) <<< n) } :=
  if_pos h

theorem writeBit_shared (h : 0x10000 ≤ n ∧ n < 0x20000) (v : Bool) :
    writeBit s t n v = { s with rafters := { s.rafters with
      shared := Tab.store false s.rafters.shared (65536 * tidRafter t + (n - 0x10000)) v } } := by
  rw [writeBit, if_neg (by omega), if_pos h.2]

/-- A write of a bit changes no thread but for its own bits. -/
theorem threadOf_writeBit (s : State) (t n : Nat) (v : Bool) (u : Nat) :
    ∃ p, threadOf (writeBit s t n v) u = { threadOf s u with priv := p } := by
  unfold writeBit
  split
  · rw [threadOf_setThread]
    split
    · next h => subst h; exact ⟨_, rfl⟩
    · exact ⟨_, rfl⟩
  · split
    · exact ⟨_, rfl⟩
    · refine ⟨(threadOf s u).priv, ?_⟩
      rw [threadOf, writeGlobal_rafters]
      split <;> rfl

end

/-- A bit of a thread, or one that its rafter shares (05 Table 5.2). -/
def OwnBit (n : Nat) : Prop := n < 0x100 ∨ (0x10000 ≤ n ∧ n < 0x20000)

theorem bitValue_writeBit (s : State) (t : Nat) {n m : Nat} (v : Bool) (hn : OwnBit n) (hm : OwnBit m) :
    bitValue (writeBit s t n v) t m = if m = n then v else bitValue s t m := by
  rcases hn with hn | hn <;> rcases hm with hm | hm
  · rw [writeBit_priv hn, bitValue_priv hm, bitValue_priv hm, threadOf_setThread_same]
    exact getLsbD_bit_written _ hn hm v
  · have hne : m ≠ n := by omega
    rw [if_neg hne, writeBit_priv hn, bitValue_shared hm, bitValue_shared hm]
    rfl
  · have hne : m ≠ n := by omega
    rw [if_neg hne, writeBit_shared hn, bitValue_priv hm, bitValue_priv hm]
    rfl
  · rw [writeBit_shared hn, bitValue_shared hm, bitValue_shared hm, Tab.get_store]
    exact if_congr (by omega) rfl rfl

theorem writeBit_frame (s : State) (t : Nat) {n : Nat} (v : Bool) (hn : OwnBit n) :
    (writeBit s t n v).mem = s.mem ∧ (writeBit s t n v).regs = s.regs := by
  rcases hn with hn | hn
  · rw [writeBit_priv hn]
    exact ⟨rfl, rfl⟩
  · rw [writeBit_shared hn]
    exact ⟨rfl, rfl⟩

/-- A doorbell-pending bit or an event flag reads as it was written, whatever its write wakes. -/
theorem bitValue_writeGlobal (s : State) (t : Nat) {n : Nat} (v : Bool)
    (hn : (0x800000 ≤ n ∧ n < 0x801000) ∨ (0x810000 ≤ n ∧ n < 0x820000)) : bitValue (writeGlobal s n v) t n = v := by
  have hglobal : globalBit n = true := by
    rw [globalBit, decide_eq_true_iff]
    omega
  rw [bitValue, if_neg (by omega), if_neg (by omega), if_pos hglobal]
  rcases hn with hn | hn
  · rw [readGlobal, if_pos hn.2, writeGlobal_rafters, if_pos hn.2]
    exact Tab.get_store_same _ _ _ _
  · rw [readGlobal, if_neg (by omega), if_neg (by omega), if_neg (by omega), if_pos hn.2, writeGlobal_rafters, if_neg (by omega)]
    exact Tab.get_store_same _ _ _ _

/-- Settles O8: a write of a bit of a thread or rafter writes its own place alone, and a wake it causes writes no bit. -/
theorem bitReadBack : Obligations.BitReadBack := by
  unfold Obligations.BitReadBack
  intro s t n m v
  refine ⟨fun hn => ?_, fun hn hne hm => ?_, fun hn => ?_, bitValue_writeGlobal s t v⟩
  · rw [bitValue_writeBit s t v hn hn, if_pos rfl]
  · rw [bitValue_writeBit s t v hn hm, if_neg hne]
  · obtain ⟨hmem, hregs⟩ := writeBit_frame s t v hn
    refine ⟨hmem, hregs, fun u r => ?_⟩
    obtain ⟨p, hp⟩ := threadOf_writeBit s t n v u
    rw [hp]
    rfl

/-! ### Fences (06 R176) -/

section
variable {s : State} {tid : Tid}

theorem issueFence_runs {k : FenceOp} (h : Issues s tid (.fence k)) :
    issueFence k tid s = .next (if (k = .rel ∨ k = .full) ∧ (threadOf s tid.toNat).posted ≠ []
      then hold (afterFetch s tid) tid.toNat { rd := 0, val := none, npc := nextPc (threadOf s tid.toNat) 4, fence := true }
      else advance (afterFetch s tid) tid.toNat 4) := by
  refine congrArg _ ((issue_runs h _).trans ?_)
  simp only [threadOf_afterFetch]

/-! ### WAIT (05 R148, 06 R163) -/

theorem satisfied_iff (all : Bool) (mask w : Dword) : satisfied all mask w = true ↔ if all then w = mask else w ≠ 0 := by
  cases all <;> simp [satisfied]

section
variable {all clr : Bool} {rd ra rb : RegNo} (h : Issues s tid (.wait all clr rd ra rb))
include h

theorem execWait_refused (hbad : (regOf s tid ra).toNat % 64 ≠ 0 ∨ regOf s tid rb = 0) :
    execWait tid all clr rd ra rb s = .next (trap (afterFetch s tid) tid.toNat (bitFault (regOf s tid ra) (.wait all clr rd ra rb))) := by
  refine congrArg _ ((issue_runs h _).trans ?_)
  simp only [threadOf_afterFetch]
  refine if_pos ?_
  rcases hbad with hbase | hmask
  · exact .inr (.inl hbase)
  · exact .inr (.inr (.inr hmask))

theorem execWait_samples (hlow : (regOf s tid ra).toNat < 2 ^ 24) (hal : (regOf s tid ra).toNat % 64 = 0)
    (hrange : oneRange (regOf s tid ra).toNat = true) (hmask : regOf s tid rb ≠ 0)
    (hallowed : waitRefused (afterFetch s tid) tid.toNat (regOf s tid ra).toNat (regOf s tid rb) clr = none) :
    execWait tid all clr rd ra rb s = .next
      (let w := sample (afterFetch s tid) tid.toNat (regOf s tid ra).toNat (regOf s tid rb)
       if satisfied all (regOf s tid rb) w then waitEnd (afterFetch s tid) tid.toNat (regOf s tid ra).toNat clr rd.toNat w
       else setThread (afterFetch s tid) tid.toNat { threadOf s tid.toNat with st := .waiting, wait := some ⟨(regOf s tid ra).toNat, regOf s tid rb,
         all, clr, rd.toNat, if regOf s tid rd = 0 then none else some ((afterFetch s tid).ftime + (regOf s tid rd).toNat)⟩ }) := by
  refine congrArg _ ((issue_runs h _).trans ?_)
  have hlegal : ¬ (2 ^ 24 ≤ (regOf s tid ra).toNat ∨ (regOf s tid ra).toNat % 64 ≠ 0 ∨ oneRange (regOf s tid ra).toNat = false ∨ regOf s tid rb = 0) := by
    rintro (hhigh | hmis | hapart | hzero)
    · omega
    · exact hmis hal
    · simp [hrange] at hapart
    · exact hmask hzero
  have hzero : (regOf s tid rd).toNat = 0 ↔ regOf s tid rd = 0 := BitVec.toNat_inj (y := 0)
  simp only [threadOf_afterFetch, ← regOf.eq_1]
  rw [if_neg hlegal]
  simp only [hallowed, hzero]

end

theorem execWaitSatisfied_ends {w : Wait} (hst : (threadOf s tid.toNat).st = .waiting) (hup : domUp s (tidRafter tid.toNat) = true)
    (hw : (threadOf s tid.toNat).wait = some w) (hgot : satisfied w.all w.mask (sample s tid.toNat w.base w.mask) = true) :
    execWaitSatisfied tid s = .next (waitEnd (ungate s (tidRafter tid.toNat)) tid.toNat w.base w.clr w.rd (sample s tid.toNat w.base w.mask)) := by
  have hnow : waitingNow s tid.toNat = some w := (if_pos ⟨hst, hup⟩).trans hw
  simp only [execWaitSatisfied, hnow, hgot, if_true]

/-- The deadline moves fabric time to it, where it has not passed it (DESIGN CHOICE, log 125). -/
theorem execWaitTimeout_ends {w : Wait} {d : Nat} (hw : (threadOf s tid.toNat).wait = some w) (hd : w.deadline = some d) :
    execWaitTimeout tid s = .next
      (let u := latchWake (reach s d) (tidRafter tid.toNat) 5
       let v := sample u tid.toNat w.base w.mask
       if satisfied w.all w.mask v then waitEnd u tid.toNat w.base w.clr w.rd v else waitEnd u tid.toNat w.base false w.rd 0) := by
  simp only [execWaitTimeout, hw, hd]

end

theorem threadOf_clearSample (s : State) (t base : Nat) (w : Dword) (u : Nat) :
    ∃ p, threadOf (clearSample s t base w) u = { threadOf s u with priv := p } := by
  have hfold (l : List Nat) (g : State) : ∃ p, threadOf (l.foldl (fun s i => if bitN w.toNat i then writeBit s t (base + i) false else s) g) u =
      { threadOf g u with priv := p } := by
    induction l generalizing g with
    | nil => exact ⟨_, rfl⟩
    | cons i l ih =>
      obtain ⟨p, hp⟩ := ih (if bitN w.toNat i then writeBit g t (base + i) false else g)
      rw [List.foldl_cons, hp]
      split
      · obtain ⟨q, hq⟩ := threadOf_writeBit g t (base + i) false u
        exact ⟨p, by rw [hq]⟩
      · exact ⟨p, rfl⟩
  exact hfold _ s

theorem threadOf_waitEnd (s : State) (t base : Nat) (clr : Bool) (rd : Nat) (w : Dword) :
    ∃ p, threadOf (waitEnd s t base clr rd w) t =
      { ({ threadOf s t with priv := p } : Thread).write rd w with pc := nextPc (threadOf s t) 4, st := .ready, wait := none } := by
  unfold waitEnd
  dsimp only
  rw [threadOf_setThread_same]
  split
  · obtain ⟨p, hp⟩ := threadOf_clearSample s t base w t
    exact ⟨p, by rw [hp]; rfl⟩
  · exact ⟨(threadOf s t).priv, rfl⟩

/-! ### Interrupts and deadlines (06 R177, R179, R184) -/

theorem takeable_eq_some_iff {s : State} {t c : Nat} :
    takeable s t = some c ↔ (threadOf s t).ie = true ∧ (threadOf s t).inTrap = false ∧ c < 4 ∧ (threadOf s t).imask.getLsbD c = true ∧
      intPending s t c = true ∧ ∀ d < c, ¬ ((threadOf s t).imask.getLsbD d = true ∧ intPending s t d = true) := by
  simp only [takeable, Option.ite_none_right_eq_some, Bool.and_eq_true, Bool.not_eq_true', List.find?_range_eq_some, List.mem_range]
  simp only [and_assoc, Bool.and_eq_false_imp, Bool.not_eq_true, not_and]
  tauto

section
variable {s : State} {tid : Tid}

theorem execInterruptTaken_takes {c : Nat} (hst : (threadOf s tid.toNat).st = .ready ∨ (threadOf s tid.toNat).st = .waiting)
    (hup : domUp s (tidRafter tid.toNat) = true) (hc : takeable s tid.toNat = some c) :
    execInterruptTaken tid s = .next (takeInt (ungate s (tidRafter tid.toNat)) tid.toNat c) :=
  congrArg _ ((if_pos ⟨hst, hup⟩).trans (by rw [hc]))

/-- The expiry moves fabric time to the deadline, where it has not passed it (DESIGN CHOICE, log 125). -/
theorem execTdeadlineExpiry_ready (hd : (threadOf s tid.toNat).tdeadline ≠ 0) (hst : (threadOf s tid.toNat).st = .ready) :
    execTdeadlineExpiry tid s = .next (reach s (threadOf s tid.toNat).tdeadline.toNat) :=
  congrArg _ ((if_neg hd).trans (if_neg (by rw [hst]; simp)))

end

theorem Thread.reg_write_same (x : Thread) (rd : RegNo) (v : Dword) : (x.write rd.toNat v).reg rd.toNat = if rd = 0 then 0 else v := by
  rw [Thread.reg_write, if_pos rfl]
  exact if_congr (BitVec.toNat_inj (y := 0)) rfl rfl

/-- Settles O13: a fence or a WAIT goes on, or holds or suspends its thread, by the branch it meets; so do the ends of a wait. -/
theorem fencesAndWaits : Obligations.FencesAndWaits := by
  unfold Obligations.FencesAndWaits
  intro s tid all clr rd ra rb k w c f t x fence base mask got enough legal
  have hfence : exec (fence k) s = issueFence k tid s := by cases k <;> rfl
  have hft : threadOf f t = x := threadOf_afterFetch s tid t
  refine ⟨fun h hfree => ?_, fun h hk hposted => ?_, fun h hbad => execWait_refused h hbad, fun h hlegal hgot => ?_, fun h hlegal hgot => ?_,
    fun hst hup hw hgot => ?_, fun hw hd => ?_, ?_, fun hst hup hc => ?_, takeable_eq_some_iff, fun hd hst => ?_⟩
  · rw [hfence, issueFence_runs h, if_neg]
    rintro ⟨hk, hposted⟩
    rcases hfree with rfl | rfl | hempty
    · simp at hk
    · simp at hk
    · exact hposted hempty
  · rw [hfence, issueFence_runs h, if_pos ⟨hk, hposted⟩, hold, hft]
  · obtain ⟨hlow, hal, hrange, hmask, hallowed⟩ := hlegal
    exact (execWait_samples h hlow hal hrange hmask hallowed).trans (congrArg _ (if_pos ((satisfied_iff _ _ _).2 hgot)))
  · obtain ⟨hlow, hal, hrange, hmask, hallowed⟩ := hlegal
    exact (execWait_samples h hlow hal hrange hmask hallowed).trans (congrArg _ (if_neg (mt (satisfied_iff _ _ _).1 hgot)))
  · exact execWaitSatisfied_ends hst hup hw ((satisfied_iff _ _ _).2 hgot)
  · intro u got
    exact ⟨fun hgot => (execWaitTimeout_ends hw hd).trans (congrArg _ (if_pos ((satisfied_iff _ _ _).2 hgot))),
      fun hgot => (execWaitTimeout_ends hw hd).trans (congrArg _ (if_neg (mt (satisfied_iff _ _ _).1 hgot)))⟩
  · obtain ⟨p, hp⟩ := threadOf_waitEnd s t base clr rd.toNat mask
    rw [hp]
    exact ⟨Thread.reg_write_same _ rd mask, rfl, rfl, rfl⟩
  · exact execInterruptTaken_takes hst hup hc
  · exact execTdeadlineExpiry_ready hd hst

end Sys2Proof.Machine
end

section
/-! PROOFS. Loads, stores and atomics (05 R140, R141; 06 R159, R173, R178): what an access's checks leave alone, what each instruction
does once its access is granted in device memory or refused, and the statements assembled from them. -/

namespace Sys2Proof.Machine

/-! ### What a fetch and the checks of an access leave alone -/

/-- Two states with the same threads, registers and memory. -/
structure SameData (s s' : State) : Prop where
  threads : s'.rafters.threads = s.rafters.threads
  regs : s'.regs = s.regs
  mem : s'.mem = s.mem
  memEpoch : s'.memEpoch = s.memEpoch

namespace SameData

variable {s s' s'' : State}

theorem trans (h : SameData s s') (h' : SameData s' s'') : SameData s s'' :=
  ⟨h'.threads.trans h.threads, h'.regs.trans h.regs, h'.mem.trans h.mem, h'.memEpoch.trans h.memEpoch⟩

variable (h : SameData s s')
include h

theorem threadOf_eq (t : Nat) : threadOf s' t = threadOf s t := by rw [threadOf, h.threads, threadOf]

theorem readByte_eq (b : Nat) : readByte s' b = readByte s b := by rw [readByte, h.mem, h.memEpoch, readByte]

theorem readLe_eq (a n : Nat) : readLe s' a n = readLe s a n := by
  simp only [readLe, readBytes, h.readByte_eq]

theorem traced_eq (t : Nat) : traced s' t = traced s t := by
  simp only [traced, flagF, getF, getReg, h.regs]

end SameData

theorem afterFetch_sameData (s : State) (tid : Tid) : SameData s (afterFetch s tid) := by
  obtain ⟨hthreads, hregs, hmem, hepoch, -, -⟩ := afterFetch_frame s tid
  exact ⟨hthreads, hregs, hmem, hepoch⟩

theorem accessWay_sameData {s s' : State} {t a n : Nat} {k : AccKind} {r : Except TrapInfo Way} (h : accessWay s t a n k = (r, s')) :
    SameData s s' := by
  have hs' : s' = (accessWay s t a n k).2 := by rw [h]
  obtain ⟨p, c, hframe⟩ := threadTranslate_frame s (tidRafter t) ((bayOfTid s t).getD 64) a k
  have hsame : SameData s (threadTranslate s (tidRafter t) ((bayOfTid s t).getD 64) a k).2 := by
    rw [hframe]
    exact ⟨rfl, rfl, rfl, rfl⟩
  rw [hs', accessWay]
  split
  · exact ⟨rfl, rfl, rfl, rfl⟩
  · split
    · exact ⟨rfl, rfl, rfl, rfl⟩
    · dsimp only
      split <;> exact hsame

/-! ### The checks of an access (05 R140, 06 R168) -/

section
variable {s s' : State} {t a n : Nat} {k : AccKind}

theorem accessWay_misaligned (hlow : a < 2 ^ 52) (hmis : a % n ≠ 0) : accessWay s t a n k = (.error (misalign a), s) :=
  (if_neg (not_le.2 hlow)).trans (if_pos hmis)

/-- Bits 63:52 are looked at before the alignment (DEDUCED, log 16). -/
theorem accessWay_high (hhigh : 2 ^ 52 ≤ a) : accessWay s t a n k = (.error (paneFault a k (6, 0)), s) := if_pos hhigh

theorem access_refused {i : TrapInfo} (h : accessWay s t a n k = (.error i, s')) (go : State → Way → State) : access s t a n k go = trap s' t i := by
  simp only [access, h]

theorem access_granted {w : Way} (h : accessWay s t a n k = (.ok w, s')) (hmem : w.cls.isMem = true) (go : State → Way → State) :
    access s t a n k go = go s' w := by
  simp only [access, h, ctlMisfit_of_isMem hmem, Bool.false_eq_true, if_false]

theorem dtrace_untraced (h : traced s t = false) (kind size addr : Nat) (v : Dword) : dtrace s t kind size addr v = s := by
  simp [dtrace, h]

end

/-! ### Numbers in memory -/

theorem leNat_lt (bs : List Byte) : leNat bs < 2 ^ (8 * bs.length) := by
  have hround := leNat_leBytes bs.length (leNat bs)
  rw [leBytes_leNat] at hround
  exact hround ▸ Nat.mod_lt _ (by positivity)

theorem readLe_lt (s : State) (a n : Nat) : readLe s a n < 2 ^ (8 * n) := by
  have hlt := leNat_lt (readBytes s a n)
  rwa [readBytes, List.length_map, List.length_range] at hlt

theorem leBytes_mod (n v : Nat) : leBytes n (v % 2 ^ (8 * n)) = leBytes n v := by
  have hround := leBytes_leNat (leBytes n v)
  rwa [leBytes_length, leNat_leBytes] at hround

theorem getElem_leBytes {n k : Nat} (v : Nat) (h : k < (leBytes n v).length) : (leBytes n v)[k] = BitVec.ofNat 8 (v / 2 ^ (8 * k)) := by
  induction n generalizing v k with
  | zero => simp at h
  | succ n ih =>
    cases k with
    | zero => simp [leBytes]
    | succ k =>
      simp only [leBytes, List.getElem_cons_succ]
      rw [ih, Nat.div_div_eq_div_mul, mul_add, mul_one, pow_add, mul_comm]
      norm_num

/-- A loaded value of 1, 2, 4 or 8 bytes is extended from its own width. -/
theorem extendLoad_eq {n v : Nat} {sgn : Bool} (hn : sgn = true → n = 1 ∨ n = 2 ∨ n = 4) (hv : v < 2 ^ (8 * n)) :
    extendLoad n sgn v = if sgn then (BitVec.ofNat (8 * n) v).signExtend 64 else BitVec.ofNat 64 v := by
  cases sgn
  · simp only [extendLoad, Bool.false_eq_true, if_false, Nat.mod_eq_of_lt hv]
  · rcases hn rfl with rfl | rfl | rfl <;> rfl

/-! ### Registers of a thread that goes on -/

theorem Thread.reg_write_reg (x : Thread) (rd r : RegNo) (v : Dword) :
    (x.write rd.toNat v).reg r.toNat = if r = 0 then 0 else if r = rd then v else x.reg r.toNat := by
  rw [Thread.reg_write]
  exact if_congr (BitVec.toNat_inj (y := 0)) rfl (if_congr BitVec.toNat_inj rfl rfl)

theorem Thread.reg_put_same (x : Thread) {rd : RegNo} (hrd : rd ≠ 0) (v : Dword) : (x.put rd.toNat v).reg rd.toNat = v := by
  have hrd : rd.toNat ≠ 0 := mt (BitVec.toNat_inj (y := 0)).1 hrd
  rw [Thread.reg_put, if_neg hrd, if_pos rfl]

theorem Thread.reg_put_other (x : Thread) {rd r : RegNo} (hr : r ≠ rd) (v : Dword) : (x.put rd.toNat v).reg r.toNat = x.reg r.toNat := by
  rw [Thread.reg_put, if_neg (mt BitVec.toNat_inj.1 hr)]
  exact ite_eq_right_iff.2 fun hzero => by rw [hzero, Thread.reg_zero]

theorem Thread.loads_put (x : Thread) (r : Nat) (v : Dword) : (x.put r v).loads = x.loads := by
  rw [Thread.put]
  split_ifs <;> rfl

/-- The end of an access that holds its thread with its value known. -/
theorem held_completes (s : State) (tid : Tid) (rd : RegNo) (b : Block) (v ans : Dword) (hrd : b.rd = rd.toNat) (hv : b.val = some v)
    (hs : b.slab = none) (hf : b.fence = false) (hm : b.byMsg = false) (hc : b.cont = none) :
    ∃ y, exec (.accessCompletion tid (.data ans)) (hold s tid.toNat b) = .next y ∧ (threadOf y tid.toNat).st = .ready ∧
      (threadOf y tid.toNat).pc = b.npc ∧ y.mem = s.mem ∧
      ∀ r : RegNo, regOf y tid r = if r = 0 then 0 else if r = rd then v else regOf s tid r := by
  refine ⟨_, hold_then_complete s tid b v ans hv hs hf hm hc, ?_, ?_, rfl, fun r => ?_⟩
  · simp [Thread.released]
  · simp [Thread.released]
  · simp only [regOf, threadOf_setThread_same, hrd]
    exact Thread.reg_write_reg _ rd r v

/-! ### Loads (05 R140; 06 R159) -/

section
variable {s s' : State} {t rd a n len : Nat} {sgn : Bool} {w : Way}

/-- Through a pane of memory type 0 the value is on its way to rd, fixed at issue (log 117). -/
theorem loadInstr_launches (hway : accessWay s t a n .read = (.ok w, s')) (hmem : w.cls.isMem = true) (htraced : traced s t = false)
    (htype : w.mtype = 0) (hroom : (threadOf s t).loads.length < 8) :
    loadInstr s t rd a n sgn len = setThread s' t (launchLoad (threadOf s t) rd a (extendLoad n sgn (readLe s' a n)) len) := by
  have hsame := accessWay_sameData hway
  rw [loadInstr, access_granted hway hmem]
  simp only [requestLoad_of_isMem hmem, hsame.threadOf_eq, htype, not_le.2 hroom, and_false, dtrace_untraced ((hsame.traced_eq t).trans htraced),
    if_true, if_false]

/-- Through another pane the thread is held with the value, fixed at issue (log 117). -/
theorem loadInstr_holds (hway : accessWay s t a n .read = (.ok w, s')) (hmem : w.cls.isMem = true) (htraced : traced s t = false)
    (htype : w.mtype ≠ 0) :
    loadInstr s t rd a n sgn len = hold s' t
      { rd := rd, val := some (extendLoad n sgn (readLe s' a n)), size := n, sgn := sgn, npc := nextPc (threadOf s t) len, addr := a } := by
  have hsame := accessWay_sameData hway
  rw [loadInstr, access_granted hway hmem]
  simp only [requestLoad_of_isMem hmem, hsame.threadOf_eq, htype, false_and, dtrace_untraced ((hsame.traced_eq t).trans htraced), if_false]

end

/-- No load on its way to rd is cut off by a new one where there is none. -/
theorem launchLoad_loads {x : Thread} {rd : Nat} (hnone : ¬ ∃ l ∈ x.loads, l.rd = rd) (a : Nat) (v : Dword) (len : Nat) :
    (launchLoad x rd a v len).loads = x.loads ++ [{ rd := rd, val := v, addr := a, pc := x.pc }] := by
  have hkept : x.loads.map (fun l => if l.rd = rd then { l with rd := 0 } else l) = x.loads :=
    (List.map_congr_left fun l hl => if_neg fun hrd => hnone ⟨l, hl, hrd⟩).trans (List.map_id _)
  rw [launchLoad, hkept]

/-- The only load on its way to a register is the one that returns to it. -/
theorem nonblockingLoadReturn_ends {s : State} {tid : Tid} {rd : RegNo} {xs : List NbLoad} {l : NbLoad}
    (hloads : (threadOf s tid.toNat).loads = xs ++ [l]) (hl : l.rd = rd.toNat) (hnone : ¬ ∃ l ∈ xs, l.rd = rd.toNat) (hrd : rd ≠ 0) :
    ∃ y, exec (.nonblockingLoadReturn tid rd false) s = .next y ∧ regOf y tid rd = l.val ∧ (threadOf y tid.toNat).loads = xs ∧
      ∀ r : RegNo, r ≠ rd → regOf y tid r = regOf s tid r := by
  have hfind : (xs ++ [l]).find? (fun l => l.rd == rd.toNat) = some l := by
    rw [List.find?_append, List.find?_eq_none.2 (by simpa using hnone)]
    simp [hl]
  have herase : (xs ++ [l]).erase l = xs := by
    rw [List.erase_append_right _ (fun hin => hnone ⟨l, hin, hl⟩)]
    simp
  let x := threadOf s tid.toNat
  have hrun : exec (.nonblockingLoadReturn tid rd false) s = .next (setThread s tid.toNat ({ x with loads := xs }.put rd.toNat l.val)) := by
    simp only [exec, execNonblockingLoadReturn, hloads, hfind, herase, hl, Bool.false_eq_true, if_false, x]
  refine ⟨_, hrun, ?_, ?_, fun r hr => ?_⟩
  · rw [regOf, threadOf_setThread_same, Thread.reg_put_same _ hrd]
  · rw [threadOf_setThread_same, Thread.loads_put]
  · rw [regOf, threadOf_setThread_same, Thread.reg_put_other _ hr]
    rfl

section
variable {s : State} {tid : Tid} {rd ra : RegNo}

theorem issueLoad_runs {op : LoadOp} {imm : Half} (h : Issues s tid (.load op rd ra imm)) :
    issueLoad op tid rd ra imm s = .next (loadInstr (afterFetch s tid) tid.toNat rd.toNat (regOf s tid ra + imm.signExtend 64).toNat
      (loadShape op).1 (loadShape op).2 4) := by
  refine congrArg _ ((issue_runs h _).trans ?_)
  simp only [effAddr, threadOf_afterFetch, regOf]

theorem issueLoadX_runs {op : ExtLoad} {imm : BitVec 42} (h : Issues s tid (.extLoad op rd ra imm)) :
    issueLoadX op tid rd ra imm s = .next (loadInstr (afterFetch s tid) tid.toNat rd.toNat (regOf s tid ra + imm.signExtend 64).toNat
      (extLoadShape op).1 (extLoadShape op).2 8) := by
  refine congrArg _ ((issue_runs h _).trans ?_)
  simp only [effAddr, threadOf_afterFetch, regOf]

end

/-- Settles O14: the checks of a load come before it, and its value, fixed at issue, reaches rd when it returns. -/
theorem loadResults : Obligations.LoadResults := by
  unfold Obligations.LoadResults
  intro s f2 tid rd ra imm im2 w i o n sgn len d ans hmember h t x f a v
  have hruns : exec i s = .next (loadInstr f t rd.toNat a n sgn len) ∧ (sgn = true → n = 1 ∨ n = 2 ∨ n = 4) := by
    simp only [List.mem_cons, Prod.mk.injEq, List.not_mem_nil, or_false] at hmember
    rcases hmember with ⟨rfl, rfl, rfl, rfl, rfl, rfl⟩ | ⟨rfl, rfl, rfl, rfl, rfl, rfl⟩ | ⟨rfl, rfl, rfl, rfl, rfl, rfl⟩ |
      ⟨rfl, rfl, rfl, rfl, rfl, rfl⟩ | ⟨rfl, rfl, rfl, rfl, rfl, rfl⟩ | ⟨rfl, rfl, rfl, rfl, rfl, rfl⟩ | ⟨rfl, rfl, rfl, rfl, rfl, rfl⟩ |
      ⟨rfl, rfl, rfl, rfl, rfl, rfl⟩ | ⟨rfl, rfl, rfl, rfl, rfl, rfl⟩ | ⟨rfl, rfl, rfl, rfl, rfl, rfl⟩
    iterate 7 exact ⟨issueLoad_runs h, by decide⟩
    iterate 3 exact ⟨issueLoadX_runs h, by decide⟩
  obtain ⟨hrun, hsgn⟩ := hruns
  have hx : threadOf f t = x := threadOf_afterFetch s tid t
  have hfetch : SameData s f := afterFetch_sameData s tid
  have hv : extendLoad n sgn (readLe f2 a n) = v := extendLoad_eq hsgn (readLe_lt f2 a n)
  rw [hrun]
  refine ⟨fun hlow hmis => congrArg _ (access_refused (accessWay_misaligned hlow hmis) _),
    fun hhigh => congrArg _ (access_refused (accessWay_high hhigh) _), fun k hk => congrArg _ (access_refused hk _),
    fun hway hmem htype hroom htraced => ?_, fun hway hmem htype htraced => ?_⟩
  · have hall := hfetch.trans (accessWay_sameData hway)
    rw [loadInstr_launches hway hmem ((hfetch.traced_eq t).trans htraced) htype (hx ▸ hroom), hx, hv]
    have hu : threadOf (setThread f2 t (launchLoad x rd.toNat a v len)) t = launchLoad x rd.toNat a v len := threadOf_setThread_same _ _ _
    refine ⟨_, rfl, ?_, ?_, fun r => ?_, fun b => hall.readByte_eq b, fun hnone hrd => ?_⟩
    · rw [hu, launchLoad]
    · rw [hu]
      exact h.1
    · rw [hu]
      rfl
    · obtain ⟨y, hy, hval, hloads, hreg⟩ := nonblockingLoadReturn_ends (hu ▸ launchLoad_loads hnone a v len) rfl hnone hrd
      refine ⟨y, hy, hval, hloads, fun r hr => ?_⟩
      rw [hreg r hr, regOf, hu]
      rfl
  · have hall := hfetch.trans (accessWay_sameData hway)
    rw [loadInstr_holds hway hmem ((hfetch.traced_eq t).trans htraced) htype, hx, hv]
    obtain ⟨y, hy, hst, hpc, -, hreg⟩ := held_completes f2 tid rd
      { rd := rd.toNat, val := some v, size := n, sgn := sgn, npc := nextPc x len, addr := a } v ans rfl rfl rfl rfl rfl rfl
    refine ⟨_, rfl, ?_, fun b => hall.readByte_eq b, y, hy, hst, hpc, fun r => ?_⟩
    · simp [hold]
    · rw [hreg, regOf, hall.threadOf_eq, regOf]

/-! ### Stores (05 R140; 06 R173) -/

/-- A store granted in device memory writes the low bytes of its register and lets its thread go on. -/
theorem storeInstr_granted {s s' : State} {t a n len : Nat} {w : Way} (v : Dword) (hway : accessWay s t a n .write = (.ok w, s'))
    (hmem : w.cls.isMem = true) (htraced : traced s t = false) :
    storeInstr s t a n v len = writeLe (advance s' t len) a n v.toNat := by
  have hsilent : traced (advance s' t len) t = false := ((accessWay_sameData hway).traced_eq t).trans htraced
  have hcut : (BitVec.ofNat 64 (v.toNat % 2 ^ (8 * n))).toNat = v.toNat % 2 ^ (8 * n) := by
    rw [BitVec.toNat_ofNat]
    exact Nat.mod_eq_of_lt ((Nat.mod_le _ _).trans_lt v.isLt)
  rw [storeInstr, access_granted hway hmem]
  rcases MemClass.isMem_iff.1 hmem with hc | hc | hc <;>
    simp only [storeDo, hc, dtrace_untraced hsilent, hcut, leBytes_mod, writeLe]

theorem readByte_writeLe_inside (s : State) (a v : Nat) {n k : Nat} (hk : k < n) :
    readByte (writeLe s a n v) (a + k) = BitVec.ofNat 8 (v / 2 ^ (8 * k)) := by
  have hk : k < (leBytes n v).length := by rwa [leBytes_length]
  rw [writeLe, readByte_writeBytes_inside _ _ _ _ hk, getElem_leBytes]

theorem readByte_writeLe_outside (s : State) (v : Nat) {a n b : Nat} (hb : b < a ∨ a + n ≤ b) : readByte (writeLe s a n v) b = readByte s b :=
  readByte_writeBytes_outside _ _ _ _ (by rwa [leBytes_length])

theorem threadOf_writeLe (s : State) (a n v t : Nat) : threadOf (writeLe s a n v) t = threadOf s t := by
  obtain ⟨m, hm⟩ := writeBytes_only_mem s a (leBytes n v)
  rw [writeLe, hm]
  rfl

theorem writeLe_regs (s : State) (a n v : Nat) : (writeLe s a n v).regs = s.regs := by
  obtain ⟨m, hm⟩ := writeBytes_only_mem s a (leBytes n v)
  rw [writeLe, hm]

theorem traced_writeLe (s : State) (a n v t : Nat) : traced (writeLe s a n v) t = traced s t := by
  simp only [traced, flagF, getF, getReg, writeLe_regs]

/-- Going on changes no general register. -/
theorem reg_advance (s : State) (t n u r : Nat) : (threadOf (advance s t n) u).reg r = (threadOf s u).reg r := by
  rw [advance, threadOf_setThread]
  split_ifs with h
  · rw [h, Thread.reg, Thread.reg]
  · rfl

section
variable {s : State} {tid : Tid} {rd ra : RegNo}

theorem issueStore_runs {op : StoreOp} {imm : Half} (h : Issues s tid (.store op rd ra imm)) :
    issueStore op tid rd ra imm s = .next (storeInstr (afterFetch s tid) tid.toNat (regOf s tid ra + imm.signExtend 64).toNat
      (storeSize op) (regOf s tid rd) 4) := by
  refine congrArg _ ((issue_runs h _).trans ?_)
  simp only [effAddr, threadOf_afterFetch, regOf]

theorem issueStoreX_runs {op : ExtStore} {imm : BitVec 42} (h : Issues s tid (.extStore op rd ra imm)) :
    issueStoreX op tid rd ra imm s = .next (storeInstr (afterFetch s tid) tid.toNat (regOf s tid ra + imm.signExtend 64).toNat
      (extStoreSize op) (regOf s tid rd) 8) := by
  refine congrArg _ ((issue_runs h _).trans ?_)
  simp only [effAddr, threadOf_afterFetch, regOf]

end

/-- Settles O15: the checks of a store come before it, and one that is granted is a write of its bytes and an advance of the pc. -/
theorem storeResults : Obligations.StoreResults := by
  unfold Obligations.StoreResults
  intro s f2 tid rd ra imm im2 w i o n len d hmember h t x f a
  have hrun : exec i s = .next (storeInstr f t a n (regOf s tid rd) len) := by
    simp only [List.mem_cons, Prod.mk.injEq, List.not_mem_nil, or_false] at hmember
    rcases hmember with ⟨rfl, rfl, rfl, rfl, rfl⟩ | ⟨rfl, rfl, rfl, rfl, rfl⟩ | ⟨rfl, rfl, rfl, rfl, rfl⟩ | ⟨rfl, rfl, rfl, rfl, rfl⟩ |
      ⟨rfl, rfl, rfl, rfl, rfl⟩ | ⟨rfl, rfl, rfl, rfl, rfl⟩
    iterate 4 exact issueStore_runs h
    iterate 2 exact issueStoreX_runs h
  have hfetch : SameData s f := afterFetch_sameData s tid
  rw [hrun]
  refine ⟨fun hlow hmis => congrArg _ (access_refused (accessWay_misaligned hlow hmis) _), fun k hk => congrArg _ (access_refused hk _),
    fun hway hmem htraced => ?_⟩
  have hall := hfetch.trans (accessWay_sameData hway)
  refine ⟨_, congrArg _ (storeInstr_granted _ hway hmem ((hfetch.traced_eq t).trans htraced)), fun k hk => readByte_writeLe_inside _ a _ hk,
    fun b hb => ?_, ?_, fun u r => ?_, ?_⟩
  · exact (readByte_writeLe_outside _ _ hb).trans (hall.readByte_eq b)
  · rw [threadOf_writeLe, advance, threadOf_setThread_same, hall.threadOf_eq]
  · rw [threadOf_writeLe, reg_advance, hall.threadOf_eq]
  · rw [writeLe_regs]
    exact hall.regs

/-! ### Atomics (05 R141, Table 5.8) -/

/-- The access of an atomic once it may issue. -/
def amoAccess (op : AmoOp) (dw : Bool) (rd rb : RegNo) (s : State) (t a : Nat) : State :=
  let x := threadOf s t
  let n := if dw then 8 else 4
  access s t a n .atomic (fun s _ =>
    let old := readLe s a n
    let v := extendLoad n (!dw) old
    let s := dtrace (writeLe s a n (amoVal op dw old (x.reg rb.toNat) (x.reg rd.toNat))) t 2 n a v
    hold s t { rd := rd.toNat, val := some v, size := n, npc := nextPc x 4, addr := a, kind := 3 })

/-- An atomic acts at the width of its access. -/
theorem amoVal_eq (op : AmoOp) (dw : Bool) {n : Nat} (hn : n = if dw then 8 else 4) (old : Nat) (b d : Dword) :
    amoVal op dw old b d = (amoN op (BitVec.ofNat (8 * n) old) (b.setWidth (8 * n)) (d.setWidth (8 * n))).toNat := by
  subst hn
  cases dw
  · rfl
  · change (amoN op (BitVec.ofNat 64 old) b d).toNat = (amoN op (BitVec.ofNat 64 old) (b.setWidth 64) (d.setWidth 64)).toNat
    rw [BitVec.setWidth_eq, BitVec.setWidth_eq]

/-- An atomic's word is sign-extended; its doubleword has nothing to extend. -/
theorem extendLoad_atomic {n : Nat} {dw : Bool} (hn : n = if dw then 8 else 4) (old : Nat) :
    extendLoad n (!dw) old = (BitVec.ofNat (8 * n) old).signExtend 64 := by
  subst hn
  cases dw
  · rfl
  · change BitVec.ofNat 64 (old % 2 ^ 64) = (BitVec.ofNat 64 old).signExtend 64
    rw [BitVec.signExtend_eq]
    exact BitVec.eq_of_toNat_eq (by simp)

section
variable {s : State} {tid : Tid} {op : AmoOp} {dw aq rl : Bool} {rd ra rb : RegNo} (h : Issues s tid (.amo op dw aq rl rd ra rb))
include h

/-- An atomic with rl waits for the posted stores before it (log 22). -/
theorem issueAmo_waits (hrl : rl = true) (hposted : (threadOf s tid.toNat).posted ≠ []) :
    issueAmo op tid dw aq rl rd ra rb s = .next (afterFetch s tid) := by
  have hwait : (rl && !(threadOf s tid.toNat).posted.isEmpty) = true := by simp [hrl, hposted]
  refine congrArg Host.Outcome.next ((issue_runs h _).trans ?_)
  simp only [threadOf_afterFetch, hwait, if_true]

/-- Without posted stores to wait for, an atomic goes to the checks of its access. -/
theorem issueAmo_goes (hfree : rl = false ∨ (threadOf s tid.toNat).posted = []) :
    issueAmo op tid dw aq rl rd ra rb s = .next (amoAccess op dw rd rb (afterFetch s tid) tid.toNat (regOf s tid ra).toNat) := by
  have hgo : (rl && !(threadOf s tid.toNat).posted.isEmpty) = false := by
    rcases hfree with hrl | hposted
    · simp [hrl]
    · simp [hposted]
  refine congrArg Host.Outcome.next ((issue_runs h _).trans ?_)
  simp only [threadOf_afterFetch, hgo, Bool.false_eq_true, if_false, amoAccess, regOf]

end

theorem amoAccess_misaligned {s : State} {t a n : Nat} (op : AmoOp) {dw : Bool} (hn : n = if dw then 8 else 4) (rd rb : RegNo)
    (hlow : a < 2 ^ 52) (hmis : a % n ≠ 0) : amoAccess op dw rd rb s t a = trap s t (misalign a) := by
  subst hn
  rw [amoAccess, access_refused (accessWay_misaligned hlow hmis)]

/-- An atomic granted in device memory changes its bytes and holds its thread with the old value, fixed at issue (log 117). -/
theorem amoAccess_granted {s s' : State} {t a n : Nat} {w : Way} (op : AmoOp) {dw : Bool} (hn : n = if dw then 8 else 4) (rd rb : RegNo)
    (hway : accessWay s t a n .atomic = (.ok w, s')) (hmem : w.cls.isMem = true) (htraced : traced s t = false) :
    let x := threadOf s t
    amoAccess op dw rd rb s t a = hold (writeLe s' a n (amoVal op dw (readLe s' a n) (x.reg rb.toNat) (x.reg rd.toNat))) t
      { rd := rd.toNat, val := some (extendLoad n (!dw) (readLe s' a n)), size := n, npc := nextPc x 4, addr := a, kind := 3 } := by
  intro x
  have hsilent (v : Nat) : traced (writeLe s' a n v) t = false := by
    rw [traced_writeLe]
    exact ((accessWay_sameData hway).traced_eq t).trans htraced
  subst hn
  rw [amoAccess, access_granted hway hmem]
  simp only [dtrace_untraced (hsilent _), x]

/-- Settles O16: an atomic that may issue and is granted makes its step at once, and hands over the old value when it completes. -/
theorem atomicResults : Obligations.AtomicResults := by
  unfold Obligations.AtomicResults
  intro s f2 tid dw aq rl rd ra rb w i op ans hmember h t x f a n new old
  have hrun : exec i s = issueAmo op tid dw aq rl rd ra rb s := by
    simp only [List.mem_cons, Prod.mk.injEq, List.not_mem_nil, or_false] at hmember
    rcases hmember with ⟨rfl, rfl⟩ | ⟨rfl, rfl⟩ | ⟨rfl, rfl⟩ | ⟨rfl, rfl⟩ | ⟨rfl, rfl⟩ | ⟨rfl, rfl⟩ | ⟨rfl, rfl⟩ | ⟨rfl, rfl⟩ |
      ⟨rfl, rfl⟩ | ⟨rfl, rfl⟩
    all_goals rfl
  have hnew (m : Nat) (o b d : BitVec m) : amoN op o b d = new m o b d := by
    cases op <;> simp only [amoN, new, BitVec.slt_eq_decide, BitVec.ult_eq_decide, decide_eq_true_eq]
  have hfetch : SameData s f := afterFetch_sameData s tid
  rw [hrun]
  refine ⟨issueAmo_waits h, fun hfree hlow hmis => ?_, fun hfree hway hmem htraced => ?_⟩
  · exact (issueAmo_goes h hfree).trans (congrArg _ (amoAccess_misaligned op rfl rd rb hlow hmis))
  · have hall := hfetch.trans (accessWay_sameData hway)
    have hn : n = if dw then 8 else 4 := rfl
    have hx : threadOf f t = x := threadOf_afterFetch s tid t
    have hread : readLe f2 a n = old := hall.readLe_eq a n
    let m := new (8 * n) (BitVec.ofNat (8 * n) old) ((regOf s tid rb).setWidth (8 * n)) ((regOf s tid rd).setWidth (8 * n))
    have hval : amoVal op dw old (x.reg rb.toNat) (x.reg rd.toNat) = m.toNat := by
      rw [amoVal_eq op dw hn, hnew]
      rfl
    rw [issueAmo_goes h hfree, amoAccess_granted op hn rd rb hway hmem ((hfetch.traced_eq t).trans htraced), hx, hread, hval,
      extendLoad_atomic hn]
    obtain ⟨y, hy, hst, hpc, hymem, hreg⟩ := held_completes (writeLe f2 a n m.toNat) tid rd
      { rd := rd.toNat, val := some ((BitVec.ofNat (8 * n) old).signExtend 64), size := n, npc := nextPc x 4, addr := a, kind := 3 } _ ans
      rfl rfl rfl rfl rfl rfl
    refine ⟨_, rfl, ?_, ?_, ?_, fun b hb => ?_, y, hy, hst, hpc, hymem, fun r => ?_⟩
    · rw [Machine.hold, threadOf_setThread_same]
    · exact (writeLe_regs f2 a n _).trans hall.regs
    · exact (readLe_writeLe f2 a n _).trans (Nat.mod_eq_of_lt m.isLt)
    · exact (readByte_writeLe_outside f2 _ hb).trans (hall.readByte_eq b)
    · rw [hreg, regOf, threadOf_writeLe, hall.threadOf_eq, ← regOf.eq_1]

end Sys2Proof.Machine
end


section
/-! PROOFS. Ends of held accesses, outstanding loads and posted stores (06 R159, R174, R177, R178, Table 6.8): what an answer does to the
thread that waits for it, what a load that returned with an error leaves behind, and the statement assembled from them. -/

namespace Sys2Proof.Machine

/-! ### A held access (06 R159) -/

section
variable {s : State} {tid : Tid} {b : Block}

/-- An access that neither a slab, nor a fence, nor a message ends is ended by the answer of its completion. -/
theorem accessCompletion_completes (hb : (threadOf s tid.toNat).block = some b) (hslab : b.slab = none) (hfence : b.fence = false)
    (hmsg : b.byMsg = false) (a : Answer) : exec (.accessCompletion tid a) s = .next (completeHeld s tid.toNat b a) := by
  simp [exec, execAccessCompletion, hb, hslab, hfence, hmsg]

/-- A fence holds its thread for its posted stores alone (log 22). -/
theorem accessCompletion_fence (hb : (threadOf s tid.toNat).block = some b) (hslab : b.slab = none) (hfence : b.fence = true)
    (hposted : (threadOf s tid.toNat).posted = []) (a : Answer) :
    exec (.accessCompletion tid a) s = .next (release s tid.toNat b 0) := by
  simp [exec, execAccessCompletion, hb, hslab, hfence, hposted]

end

theorem completeHeld_failed {s : State} {t st : Nat} {b : Block} (hval : b.val = none) (hlow : 1 ≤ st) (hhigh : st ≤ 8) :
    completeHeld s t b (.failed st) = trap (unhold s t) t (remoteFault b.addr st) := by
  simp [completeHeld, hval, hlow, hhigh]

/-- An uncorrectable error of an access other than an atomic leaves memory as it is. -/
theorem completeHeld_memErr {s : State} {t : Nat} {b : Block} (hkind : b.kind < 3) (hcls : classOf b.addr ≠ some .ctrl) :
    completeHeld s t b .memErr = trap (unhold s t) t
      { cause := causeMemError, v0 := BitVec.ofNat 64 b.addr, v1 := (threadOf s t).pc, v2 := BitVec.ofNat 64 b.kind } := by
  have hcan : canMemErr b = true := by simp [canMemErr, hkind.le, hcls]
  rw [completeHeld, if_pos hcan, heldMemErr, if_neg hkind.ne]

/-! ### A load that returns with an error (06 R178) -/

theorem nonblockingLoadReturn_memErr {s : State} {tid : Tid} {rd : RegNo} {l : NbLoad} (hloads : (threadOf s tid.toNat).loads = [l])
    (hrd : l.rd = rd.toNat) :
    exec (.nonblockingLoadReturn tid rd true) s = .next (setThread s tid.toNat
      { threadOf s tid.toNat with loads := [], badLoads := (threadOf s tid.toNat).badLoads ++ [(l.rd, l.addr, l.pc)] }) := by
  simp [exec, execNonblockingLoadReturn, hloads, hrd]

/-- Which interrupts are pending does not depend on the loads of a thread. -/
theorem intPending_setThread_loads (s : State) (t c : Nat) (loads : List NbLoad) (bad : List (Nat × Nat × Dword)) :
    intPending (setThread s t { threadOf s t with loads := loads, badLoads := bad }) t c = intPending s t c := by
  unfold intPending bitValue
  rw [threadOf_setThread_same]
  rfl

theorem takeable_setThread_loads (s : State) (t : Nat) (loads : List NbLoad) (bad : List (Nat × Nat × Dword)) :
    takeable (setThread s t { threadOf s t with loads := loads, badLoads := bad }) t = takeable s t := by
  simp only [takeable, intPending_setThread_loads, threadOf_setThread_same]

/-- A ready thread that reads the register of a load that failed traps in place of the instruction. -/
theorem issue_badLoad {s : State} {t : Nat} {reads : List Nat} {fence : Bool} {l : Nat × Nat × Dword}
    (hst : (threadOf s t).st = .ready) (hup : domUp s (tidRafter t) = true) (hint : takeable s t = none)
    (hbad : badLoadFor (threadOf s t) reads fence = some l) (k : State → State) :
    issue s t reads fence k = trap (setThread s t { threadOf s t with badLoads := (threadOf s t).badLoads.erase l }) t
      { cause := causeMemError, v0 := BitVec.ofNat 64 l.2.1, v1 := l.2.2 } := by
  simp [issue, hst, hup, hint, hbad]

/-- An ADD that reads the register of the one load that failed takes that load's trap. -/
theorem add_badLoad {s : State} {tid : Tid} {ra rd rb : RegNo} {a : Nat} {pc : Dword} (hst : (threadOf s tid.toNat).st = .ready)
    (hup : domUp s (tidRafter tid.toNat) = true) (hint : takeable s tid.toNat = none) (hzero : rd ≠ 0)
    (hbad : (threadOf s tid.toNat).badLoads = [(rd.toNat, a, pc)]) (w : Bool) :
    exec (.add tid w ra rd rb) s = .next (trap (setThread s tid.toNat { threadOf s tid.toNat with badLoads := [] }) tid.toNat
      { cause := causeMemError, v0 := BitVec.ofNat 64 a, v1 := pc }) := by
  have hrd : rd.toNat ≠ 0 := mt (BitVec.toNat_inj (y := 0)).1 hzero
  have hfor : badLoadFor (threadOf s tid.toNat) (Olx.alu .add w ra rd rb).reads (Olx.alu .add w ra rd rb).fences = some (rd.toNat, a, pc) := by
    simp [badLoadFor, Olx.reads, hbad, hrd]
  refine congrArg Host.Outcome.next ((issue_badLoad hst hup hint hfor _).trans ?_)
  rw [hbad, List.erase_cons_head]

/-! ### A posted store that fails (06 R177) -/

theorem postedFail_latches {s : State} {t addr st : Nat} (hposted : addr ∈ (threadOf s t).posted) (hnone : (threadOf s t).intStore = none) :
    postedFail s t addr st =
      setThread s t { threadOf s t with posted := (threadOf s t).posted.erase addr, intStore := some (addr, st) } := by
  simp [postedFail, hposted, hnone]

/-- Settles O17: each end of an access is the one transition of its thread that Table 6.8 and R177, R178 give. -/
theorem heldAccessEnds : Obligations.HeldAccessEnds := by
  unfold Obligations.HeldAccessEnds
  intro s tid b st addr rd ra rb w l t x un
  refine ⟨fun hb hslab hfence hmsg hval hlow hhigh => ?_, fun hb hslab hfence hmsg hkind hcls => ?_, fun hb hslab hfence hposted => ?_,
    fun hloads hrd hzero hbad => ?_, fun hlow hhigh hposted hnone => ?_⟩
  · rw [accessCompletion_completes hb hslab hfence hmsg, completeHeld_failed hval hlow hhigh]
    rfl
  · rw [accessCompletion_completes hb hslab hfence hmsg, completeHeld_memErr hkind hcls]
    rfl
  · exact accessCompletion_fence hb hslab hfence hposted (.data 0)
  · have hrun := nonblockingLoadReturn_memErr hloads hrd
    rw [hbad, List.nil_append, hrd] at hrun
    refine ⟨_, hrun, fun r => ?_, ?_, fun hst hup hint => ?_⟩
    · rw [threadOf_setThread_same]
      rfl
    · rw [threadOf_setThread_same]
    · refine add_badLoad ?_ ?_ ?_ hzero ?_ w
      · rwa [threadOf_setThread_same]
      · exact hup
      · exact (takeable_setThread_loads s t _ _).trans hint
      · rw [threadOf_setThread_same]
  · have hrun : exec (.postedStoreFailure tid addr st) s = .next (postedFail s t addr st) :=
      congrArg _ (if_pos ⟨hlow, hhigh⟩)
    rw [hrun, postedFail_latches hposted hnone]
    refine ⟨_, rfl, ?_, ?_, ?_, fun r => ?_, rfl⟩
    · rw [threadOf_setThread_same]
    · rw [threadOf_setThread_same]
    · simp [intPending]
    · rw [threadOf_setThread_same]
      rfl

end Sys2Proof.Machine
end

section
/-! PROOFS. The form of memory (00 R8; log 7): what it means that a state, or what carries one, lists its bytes by rising address, each
once, and how that passes through the ways in which the model's functions put their states together. The sections that follow give each
function that makes up a step one lemma, `after_` and the function's name: the function keeps the form. Its proof names the operations
in the function's body from the last to the first. -/

namespace Sys2Proof.Machine

/-! ### The form, of a state and of what carries one -/

/-- The memory of a state lists its bytes by rising address, each once. -/
def MemForm (s : State) : Prop := Memory.wf s.mem

/-- The next state of an outcome has the form, if there is one. -/
def OutForm (o : Host.Outcome State Fault Refusal) : Prop := ∀ t, o = .next t → MemForm t

/-- The state that `p` finds in an optional answer has the form, if there is an answer. -/
def SomeForm {α : Type} (p : α → State) (o : Option α) : Prop := ∀ a, o = some a → MemForm (p a)

/-- The state that `p` finds in a success has the form. -/
def OkForm {ε α : Type} (p : α → State) (r : Except ε α) : Prop := ∀ a, r = .ok a → MemForm (p a)

/-- The state that `p` finds in a failure has the form. -/
def ErrForm {ε α : Type} (p : ε → State) (r : Except ε α) : Prop := ∀ a, r = .error a → MemForm (p a)

/-! ### How the form passes through the ways a state is put together -/

section
variable {s t : State} {c : Prop} [Decidable c] {α β ε : Type}

/-- An update of any other field keeps the memory. -/
theorem MemForm.update {ftime freeCtr memEpoch regs ridge chain console accs thatch rafters host rings truss xpt nawyn loft ul stor gut out pending}
    (h : MemForm s) :
    MemForm ⟨ftime, freeCtr, memEpoch, regs, s.mem, ridge, chain, console, accs, thatch, rafters, host, rings, truss, xpt, nawyn, loft, ul,
      stor, gut, out, pending⟩ := h

theorem MemForm.ite (hs : MemForm s) (ht : MemForm t) : MemForm (if c then s else t) := by
  split
  · exact hs
  · exact ht

theorem MemForm.ite_fst {p q : State × β} (hp : MemForm p.1) (hq : MemForm q.1) : MemForm (if c then p else q).1 := by
  split
  · exact hp
  · exact hq

theorem MemForm.ite_snd {p q : α × State} (hp : MemForm p.2) (hq : MemForm q.2) : MemForm (if c then p else q).2 := by
  split
  · exact hp
  · exact hq

theorem MemForm.ite_snd_snd {p q : α × β × State} (hp : MemForm p.2.2) (hq : MemForm q.2.2) : MemForm (if c then p else q).2.2 := by
  split
  · exact hp
  · exact hq

theorem MemForm.elim {f : α → State} {o : Option α} (h : MemForm s) (hf : ∀ a, MemForm (f a)) : MemForm (o.elim s f) := by
  cases o with
  | none => exact h
  | some a => exact hf a

theorem MemForm.foldl {f : State → α → State} {l : List α} (hf : ∀ u a, MemForm u → MemForm (f u a)) (h : MemForm s) :
    MemForm (l.foldl f s) := by
  induction l generalizing s with
  | nil => exact h
  | cons a l ih => exact ih (hf s a h)

theorem MemForm.foldl_fst {f : State × β → α → State × β} {l : List α} {p : State × β} (hf : ∀ q a, MemForm q.1 → MemForm (f q a).1)
    (h : MemForm p.1) : MemForm (l.foldl f p).1 := by
  induction l generalizing p with
  | nil => exact h
  | cons a l ih => exact ih (hf p a h)

theorem MemForm.mk_snd {a : α} (h : MemForm s) : MemForm (a, s).2 := h

theorem MemForm.snd_of_eq {p : α × State} {a : α} (h : MemForm p.2) (e : p = (a, s)) : MemForm s := by
  subst e
  exact h

theorem OutForm.next (h : MemForm s) : OutForm (.next s) := fun _ e => Host.Outcome.next.inj e ▸ h

theorem OutForm.ite {o o' : Host.Outcome State Fault Refusal} (h : OutForm o) (h' : OutForm o') : OutForm (if c then o else o') := by
  split
  · exact h
  · exact h'

theorem SomeForm.none {p : α → State} : SomeForm p none := fun _ e => nomatch e

theorem SomeForm.some {p : α → State} {a : α} (h : MemForm (p a)) : SomeForm p (some a) := fun _ e => Option.some.inj e ▸ h

theorem SomeForm.ite {p : α → State} {o o' : Option α} (h : SomeForm p o) (h' : SomeForm p o') : SomeForm p (if c then o else o') := by
  split
  · exact h
  · exact h'

theorem SomeForm.map {p : α → State} {q : β → State} {f : α → β} {o : Option α} (hf : ∀ a, MemForm (p a) → MemForm (q (f a)))
    (h : SomeForm p o) : SomeForm q (o.map f) := by
  cases o with
  | none => exact .none
  | some a => exact .some (hf a (h a rfl))

theorem OkForm.ok {p : α → State} {a : α} (h : MemForm (p a)) : OkForm p (.ok a : Except ε α) := fun _ e => Except.ok.inj e ▸ h

theorem OkForm.ok_snd {x : α} (h : MemForm s) : OkForm Prod.snd (.ok (x, s) : Except ε (α × State)) := .ok h

theorem OkForm.error {p : α → State} {e : ε} : OkForm p (.error e) := fun _ h => nomatch h

theorem OkForm.ite {p : α → State} {r r' : Except ε α} (h : OkForm p r) (h' : OkForm p r') : OkForm p (if c then r else r') := by
  split
  · exact h
  · exact h'

theorem OkForm.map {p : α → State} {q : β → State} {f : α → β} {r : Except ε α} (hf : ∀ a, MemForm (p a) → MemForm (q (f a)))
    (h : OkForm p r) : OkForm q (r.map f) := by
  cases r with
  | error e => exact .error
  | ok a => exact .ok (hf a (h a rfl))

theorem ErrForm.error {p : ε → State} {e : ε} (h : MemForm (p e)) : ErrForm p (.error e : Except ε α) := fun _ e' => Except.error.inj e' ▸ h

theorem ErrForm.ok {p : ε → State} {a : α} : ErrForm p (.ok a) := fun _ h => nomatch h

theorem ErrForm.ite {p : ε → State} {r r' : Except ε α} (h : ErrForm p r) (h' : ErrForm p r') : ErrForm p (if c then r else r') := by
  split
  · exact h
  · exact h'

end

end Sys2Proof.Machine
end

section
/-! PROOFS. The form of memory is kept by what every chapter uses: the named
operations over the state, wakes, notifications, completions and how an operation ends. The memory changes here in `writeBytes`
and `loseMem` alone (laws in Laws/Memory.lean); the resets that leave nothing but the host's bytes stand with Machine/Resets.lean. -/

namespace Sys2Proof.Machine

section
variable {s : State}

/-! ### Registers, memory and what the block sends (Machine/Ops.lean) -/

theorem MemForm.after_setReg {r i v} (h : MemForm s) : MemForm (setReg s r i v) := .update h

theorem MemForm.after_setF {f i n} (h : MemForm s) : MemForm (setF s f i n) := .after_setReg h

theorem MemForm.after_bumpN {f i n} (h : MemForm s) : MemForm (bumpN s f i n) := .after_setF h

theorem MemForm.after_bump {f i} (h : MemForm s) : MemForm (bump s f i) := .after_bumpN h

theorem MemForm.after_bumpSat {f i} (h : MemForm s) : MemForm (bumpSat s f i) := .after_setF h

theorem MemForm.after_clearReg {r i} (h : MemForm s) : MemForm (clearReg s r i) := .after_setReg h

theorem MemForm.after_emit {o} (h : MemForm s) : MemForm (emit s o) := .update h

theorem MemForm.after_drawDword (h : MemForm s) : MemForm (drawDword s).2 := .update h

theorem MemForm.after_drawBit (h : MemForm s) : MemForm (drawBit s).2 := .update h

theorem MemForm.after_writeBytes {a bs} (h : MemForm s) : MemForm (writeBytes s a bs) := writeBytes_wf s a bs h

theorem MemForm.after_writeLe {a n v} (h : MemForm s) : MemForm (writeLe s a n v) := .after_writeBytes h

theorem MemForm.after_loseMem {lost} (h : MemForm s) : MemForm (loseMem s lost) := loseMem_wf s lost h

theorem MemForm.after_setBay {b x} (h : MemForm s) : MemForm (setBay s b x) := .update h

theorem MemForm.after_setThread {t x} (h : MemForm s) : MemForm (setThread s t x) := .update h

theorem MemForm.after_reach {t} (h : MemForm s) : MemForm (reach s t) := .update h

theorem MemForm.after_gated {req k} (h : MemForm s) (hk : ∀ t, MemForm t → MemForm (k t)) : MemForm (gated s req k) :=
  .ite (.after_bump h) (hk _ h)

theorem MemForm.after_gatedRead {req v} (h : MemForm s) (hv : ∀ t, MemForm t → MemForm (v t).2) : MemForm (gatedRead s req v) :=
  .ite (.after_emit h) (.after_emit (hv _ h))

/-! ### Wakes of the fast domains (Machine/Wake.lean) -/

theorem MemForm.after_setDom {d x} (h : MemForm s) : MemForm (setDom s d x) := .update h

theorem MemForm.after_setWakePend {d v} (h : MemForm s) : MemForm (setWakePend s d v) := .after_setF h

theorem MemForm.after_reachRun {d} (h : MemForm s) : MemForm (reachRun s d) :=
  .after_setDom (.after_setF (.after_setF (.after_setWakePend (.ite h (.after_setF h)))))

theorem MemForm.after_noteSrc {d src} (h : MemForm s) : MemForm (noteSrc s d src) := .after_setWakePend (.after_setDom h)

theorem MemForm.after_beginWake {d src} (h : MemForm s) : MemForm (beginWake s d src) := .after_setF (.after_setDom (.after_noteSrc h))

theorem MemForm.after_latchOne {d src} (h : MemForm s) : MemForm (latchOne s d src) := by
  refine .ite h (.ite (.after_noteSrc h) ?_)
  split
  · split
    · exact h
    · exact .after_setF (.after_setF h)
    · exact .after_beginWake h
  · exact .ite (.after_reachRun (.after_noteSrc (.after_bump h))) (.after_beginWake (.after_setDom (.after_bump h)))
  · exact .after_noteSrc (.after_setDom (.ite h (.after_bump h)))
  · exact .after_noteSrc h

theorem MemForm.after_latchWake {d src} (h : MemForm s) : MemForm (latchWake s d src) :=
  .ite (.after_latchOne (.after_latchOne h)) (.after_latchOne h)

theorem MemForm.after_startOne {d} (h : MemForm s) : MemForm (startOne s d) :=
  .ite (.after_setF (.after_setDom (.after_setDom h))) (.after_setDom h)

theorem MemForm.after_ungate {d} (h : MemForm s) : MemForm (ungate s d) := .ite (.after_setF h) h

theorem MemForm.after_touchPurlin (h : MemForm s) : MemForm (touchPurlin s) := .ite (.after_latchOne h) (.after_ungate h)

theorem MemForm.after_wakeWatchers {n} (h : MemForm s) : MemForm (wakeWatchers s n) := .foldl (fun _ _ h1 => .after_latchWake h1) h

/-! ### Bits and panes (Machine/Operands.lean) -/

theorem MemForm.after_writeGlobal {n v} (h : MemForm s) : MemForm (writeGlobal s n v) :=
  .ite (.after_wakeWatchers (.ite (.update h) (.update h))) (.ite (.update h) (.update h))

theorem MemForm.after_setFlag {b i} (h : MemForm s) : MemForm (setFlag s b i) := .after_writeGlobal h

theorem MemForm.after_setFn {ep fn x} (h : MemForm s) : MemForm (setFn s ep fn x) := .update h

theorem MemForm.after_setEp {ep x} (h : MemForm s) : MemForm (setEp s ep x) := .update h

/-! ### Notifications, event entries, trace packets and completions (Machine/Notify.lean) -/

theorem MemForm.after_msix {ep fn vec} (h : MemForm s) : MemForm (msix s ep fn vec) := .ite (.after_emit h) (.after_setFn h)

theorem MemForm.after_msixFlush {ep fn} (h : MemForm s) : MemForm (msixFlush s ep fn) :=
  .foldl (fun _ _ h1 => .ite (.after_emit (.after_setFn h1)) h1) h

theorem MemForm.after_driveWakeN {ep low} (h : MemForm s) : MemForm (driveWakeN s ep low) := .update h

theorem MemForm.after_pmeEvent {ep fn sel} (h : MemForm s) : MemForm (pmeEvent s ep fn sel) :=
  .ite h (.ite h (.ite (.ite (.after_driveWakeN (.after_setFn h)) (.after_setFn h)) (.after_emit (.after_setFn h))))

theorem MemForm.after_notify {mode target ep fn bay} (h : MemForm s) : MemForm (notify s mode target ep fn bay) :=
  .ite (.after_msix h) (.ite (.after_setFlag h) h)

theorem MemForm.after_deviceWrite {a bs} (h : MemForm s) : MemForm (deviceWrite s a bs) := by
  unfold deviceWrite
  split
  · exact .ite (.after_writeBytes h) h
  · exact .after_writeBytes h

theorem MemForm.after_setEvr {e x} (h : MemForm s) : MemForm (setEvr s e x) := .update h

theorem MemForm.after_evrFire {e} (h : MemForm s) : MemForm (evrFire s e) := .after_notify (.after_setEvr h)

theorem MemForm.after_evrWrite {e ev} (h : MemForm s) : MemForm (evrWrite s e ev) := by
  refine .ite (.after_evrFire (.ite (.after_pmeEvent ?_) ?_)) (.ite (.after_pmeEvent ?_) ?_) <;>
  exact .after_setEvr (.ite (.after_setF (.after_setF (.after_deviceWrite h))) (.after_setF (.after_deviceWrite h)))

theorem MemForm.after_evrPut {e ev} (h : MemForm s) : MemForm (evrPut s e ev) := by
  refine .ite (.after_bump h) (.ite (.after_evrWrite h) (.ite (.after_wakeWatchers ?_) ?_)) <;>
  exact .after_setEvr (.after_bump (.after_bumpSat (.after_setF h)))

theorem MemForm.after_evrFreed {e} (h : MemForm s) : MemForm (evrFreed s e) := .ite (.after_setF (.after_setF (.after_evrWrite h))) h

theorem MemForm.after_putDev {ev} (h : MemForm s) : MemForm (putDev s ev) := .ite (.after_evrPut h) (.after_bump h)

theorem MemForm.after_setChan {c x} (h : MemForm s) : MemForm (setChan s c x) := .update h

theorem MemForm.after_shedStep {c l} (h : MemForm s) : MemForm (shedStep s c l) := .after_putDev (.after_setF h)

theorem MemForm.after_shedOnce {c} (h : MemForm s) : MemForm (shedOnce s c) := .ite (.after_shedStep h) (.ite (.after_shedStep h) h)

theorem MemForm.after_drainCheck {c} (h : MemForm s) : MemForm (drainCheck s c) := by
  unfold drainCheck
  dsimp only
  split
  · exact .ite (.after_setF (.after_setChan h)) (.after_setChan h)
  · exact .after_setF (.after_setChan h)

theorem MemForm.after_chanSettle {c} (h : MemForm s) : MemForm (chanSettle s c) :=
  .ite (.after_setF (.after_drainCheck h)) (.after_shedOnce (.after_shedOnce (.after_shedOnce (.after_setF (.after_drainCheck h)))))

theorem MemForm.after_chanTake {c time p} (h : MemForm s) : MemForm (chanTake s c time p) := .after_chanSettle (.after_setChan h)

theorem MemForm.after_chanDrop {c source seq time} (h : MemForm s) : MemForm (chanDrop s c source seq time) := by
  refine .ite (.after_bump h) ?_
  dsimp only
  split
  · exact .after_setChan (.after_bump h)
  · exact .after_putDev (.after_bump (.after_setF (.after_setChan (.after_bump h))))

theorem MemForm.after_chanSeq {c} (h : MemForm s) : MemForm (chanSeq s c).2 := .after_bump h

theorem MemForm.after_chanOverflow {c} (h : MemForm s) : MemForm (chanOverflow s c) := by
  unfold chanOverflow
  split
  · exact h
  · exact .ite (.after_chanTake (.after_chanSeq (.after_setF (.after_setChan h)))) h

theorem MemForm.after_chanOffer {c source typ prio payload} (h : MemForm s) : MemForm (chanOffer s c source typ prio payload) := by
  refine .ite h (.ite (.after_chanDrop ?_) (.after_chanTake ?_)) <;>
  exact .after_chanSeq (.after_chanOverflow h)

theorem MemForm.after_offer {source typ payload} (h : MemForm s) : MemForm (offer s source typ payload) := .ite (.after_chanOffer h) h

theorem MemForm.after_offerEvent {source ev} (h : MemForm s) : MemForm (offerEvent s source ev) := by
  unfold offerEvent
  split
  · exact .after_offer h
  · exact h

theorem MemForm.after_raiseD {source ev} (h : MemForm s) : MemForm (raiseD s source ev) := .after_putDev (.after_offerEvent h)

theorem MemForm.after_raiseR {source q ev} (h : MemForm s) : MemForm (raiseR s source q ev) := .after_evrPut (.after_offerEvent h)

theorem MemForm.after_raiseT {source ev} (h : MemForm s) : MemForm (raiseT s source ev) := .after_evrPut (.after_offerEvent h)

theorem MemForm.after_raiseH {source ev} (h : MemForm s) : MemForm (raiseH s source ev) :=
  .ite (.after_bump (.after_offerEvent h)) (.foldl (fun _ _ h1 => .after_evrPut h1) (.after_offerEvent h))

theorem MemForm.after_admSample {row queued delayed status} (h : MemForm s) : MemForm (admSample s row queued delayed status) := .update h

theorem MemForm.after_setQp {q x} (h : MemForm s) : MemForm (setQp s q x) := .update h

theorem MemForm.after_qpFire {q} (h : MemForm s) : MemForm (qpFire s q) := .after_notify (.after_setQp h)

theorem MemForm.after_offerRefusal {q c k} (h : MemForm s) : MemForm (offerRefusal s q c k) := .ite (.after_offer h) h

theorem MemForm.after_complete {q k} (h : MemForm s) : MemForm (complete s q k) := by
  refine .ite (.after_qpFire (.after_setQp (.after_offerRefusal (.after_admSample (.ite (.after_bump ?_) ?_))))) (.after_setQp
    (.after_offerRefusal (.after_admSample (.ite (.after_bump ?_) ?_)))) <;>
  exact .ite (.after_setF (.after_setF (.after_deviceWrite h))) (.after_setF (.after_deviceWrite h))

/-! ### The console's queues (Machine/Console.lean) -/

theorem MemForm.after_setCon {c} (h : MemForm s) : MemForm (setCon s c) := .update h

theorem MemForm.after_conSettle (h : MemForm s) : MemForm (conSettle s) := .after_setF (.after_setF h)

theorem MemForm.after_conFlushLog (h : MemForm s) : MemForm (conFlushLog s) :=
  .ite (.update (.after_setCon (.foldl (fun _ _ h1 => .foldl (fun _ _ h2 => .after_emit h2) h1) h))) h

theorem MemForm.after_conStart (h : MemForm s) : MemForm (conStart s) := by
  unfold conStart
  split
  · exact .after_conSettle (.after_setCon h)
  · exact h

theorem MemForm.after_conLog (h : MemForm s) : MemForm (conLog s) := .after_conFlushLog (.after_setCon (.update h))

theorem MemForm.after_conTx {c} (h : MemForm s) : MemForm (conTx s c) :=
  .ite (.after_bump h) (.after_conStart (.after_conSettle (.after_setCon h)))

theorem MemForm.after_conRx {c frameErr} (h : MemForm s) : MemForm (conRx s c frameErr) :=
  .ite (.after_bump (.after_setF (.ite (.after_bump h) h))) (.after_conSettle (.after_setCon (.ite (.after_bump h) h)))

theorem MemForm.after_conRead (h : MemForm s) : MemForm (conRead s).2 := by
  unfold conRead
  split
  · exact h
  · exact .after_conSettle (.after_setCon h)

/-! ### Messages that wait to be sent (Machine/NawynTx.lean) -/

theorem MemForm.after_setLink {l x} (h : MemForm s) : MemForm (setLink s l x) := .update h

theorem MemForm.after_enqueueMsg {m} (h : MemForm s) : MemForm (enqueueMsg s m) := .update h

theorem OkForm.after_sendNode {src node tc mtype status tag arg len data from_} (h : MemForm s) :
    OkForm id (sendNode s src node tc mtype status tag arg len data from_) := by
  unfold sendNode
  split
  · exact .error
  · exact .ite .error (.ok (.after_enqueueMsg h))
theorem ErrForm.after_sendNode {src node tc mtype status tag arg len data from_} (h : MemForm s) :
    ErrForm Prod.snd (sendNode s src node tc mtype status tag arg len data from_) := by
  unfold sendNode
  split
  · exact .error h
  · exact .ite (.error (.after_bump h)) .ok

theorem MemForm.after_sendLocal {src l tc mtype status tag arg data} (h : MemForm s) :
    MemForm (sendLocal s src l tc mtype status tag arg data) :=
  .after_enqueueMsg h

theorem MemForm.after_sendOwn {node tc mtype status tag arg data} (h : MemForm s) : MemForm (sendOwn s node tc mtype status tag arg data) := by
  unfold sendOwn
  split
  · next e => exact OkForm.after_sendNode h _ e
  · next e => exact ErrForm.after_sendNode h _ e

theorem MemForm.after_holdover {l} (h : MemForm s) : MemForm (holdover s l) := .ite (.after_raiseD (.after_setF (.update h))) h

/-! ### Answers of the Ridge (Machine/Mbx.lean) -/

theorem MemForm.after_mbxWrite {e fuel k bs} (h : MemForm s) : MemForm (mbxWrite s e fuel k bs) := by
  induction fuel generalizing s k bs with
  | zero => exact h
  | succ n ih => exact .ite h (ih (.after_setReg h))

theorem MemForm.after_respond {path mac typ seq status payload} (h : MemForm s) : MemForm (respond s path mac typ seq status payload) :=
  .ite (.after_msix (.after_setF (.after_setF (.after_mbxWrite h)))) (.ite (.update h) (.ite (.after_emit h) (.after_sendLocal h)))

theorem MemForm.after_dropUnknown {q} (h : MemForm s) : MemForm (dropUnknown s q) := by
  induction q generalizing s with
  | nil => exact .update h
  | cons x rest ih => exact .ite (.update h) (ih (.after_respond h))

theorem MemForm.after_mbxArrive {path bs mac} (h : MemForm s) : MemForm (mbxArrive s path bs mac) := .after_dropUnknown h

theorem MemForm.after_mbxReply {status payload} (h : MemForm s) : MemForm (mbxReply s status payload) := by
  unfold mbxReply
  split
  · exact h
  · exact .after_dropUnknown (.after_respond h)

theorem MemForm.after_pushAnswer {a ok} (h : MemForm s) : MemForm (pushAnswer s a ok) := by
  unfold pushAnswer
  dsimp only
  split
  · exact h
  · exact .ite h (.ite (.ite (.after_mbxReply h) h) (.after_respond h))

/-! ### Budgets and pools (Machine/Adm.lean) -/

theorem MemForm.after_setPool {p x} (h : MemForm s) : MemForm (setPool s p x) := .update h

theorem MemForm.after_poolSettle {p} (h : MemForm s) : MemForm (poolSettle s p) := by
  refine .ite (.ite (.after_setPool (.after_setF ?_)) (.after_setF ?_)) ?_ <;>
  exact .ite (.after_raiseD (.ite (.after_setF h) h)) (.ite (.after_setF h) h)

theorem MemForm.after_poolsSettle (h : MemForm s) : MemForm (poolsSettle s) := .foldl (fun _ _ h1 => .after_poolSettle h1) h

theorem MemForm.after_putOp {n o} (h : MemForm s) : MemForm (putOp s n o) := .update h

theorem MemForm.after_dropOp {n} (h : MemForm s) : MemForm (dropOp s n) := .update h

theorem MemForm.after_charge {o} (h : MemForm s) : MemForm (charge s o) := by
  unfold charge
  split
  · exact .update h
  · exact h

/-! ### How an operation ends (Machine/OpEnd.lean) -/

theorem MemForm.after_setCtrl {c x} (h : MemForm s) : MemForm (setCtrl s c x) := .update h

theorem MemForm.after_cqePut {c sq cid dw0 dw1 st} (h : MemForm s) : MemForm (cqePut s c sq cid dw0 dw1 st) := by
  unfold cqePut
  dsimp only
  split
  · split
    · exact h
    · exact .ite (.after_msix (.after_setCtrl (.after_deviceWrite h))) (.after_setCtrl (.after_deviceWrite h))
  · exact h

theorem MemForm.after_nvmeEnd {o c sq cid k status} (h : MemForm s) : MemForm (nvmeEnd s o c sq cid k status) := by
  refine .after_cqePut (.ite (.after_setCtrl ?_) ?_) <;>
  exact .after_offerRefusal (.after_admSample (.ite (.after_bump h) h))

theorem MemForm.after_loftLost {node tag} (h : MemForm s) : MemForm (loftLost s node tag) := .after_raiseD (.after_bump h)

theorem OkForm.after_loftSend {src r node tc mtype status tag arg data} (h : MemForm s) :
    OkForm id (loftSend s src r node tc mtype status tag arg data) := by
  refine .ite (.ok (.after_sendLocal h)) ?_
  split
  · next e => exact .ok (OkForm.after_sendNode h _ e)
  · exact .error
theorem ErrForm.after_loftSend {src r node tc mtype status tag arg data} (h : MemForm s) :
    ErrForm id (loftSend s src r node tc mtype status tag arg data) := by
  refine .ite .ok ?_
  split
  · exact .ok
  · next e => exact .error (ErrForm.after_sendNode h _ e)

theorem MemForm.after_loftAnswer {r node tag k} (h : MemForm s) : MemForm (loftAnswer s r node tag k) := by
  refine .ite ?_ ?_
  · dsimp only
    split
    · next e => exact OkForm.after_loftSend h _ e
    · next e => exact .after_loftLost (ErrForm.after_loftSend h _ e)
  · dsimp only
    split
    · next e => exact OkForm.after_loftSend h _ e
    · next e => exact ErrForm.after_loftSend h _ e

theorem MemForm.after_loftDrop {n o} (h : MemForm s) : MemForm (loftDrop s n o) := by
  unfold loftDrop
  split
  · exact h
  · refine .after_setF ?_
    split
    · exact .update (.update h)
    · exact .update h

theorem MemForm.after_killMsgs {p} (h : MemForm s) : MemForm (killMsgs s p) := .update h

theorem MemForm.after_killNawyn {n} (h : MemForm s) : MemForm (killNawyn s n) := .update h

theorem MemForm.after_setSlot {i v} (h : MemForm s) : MemForm (setSlot s i v) := .after_setF h

theorem MemForm.after_sendAbandon {cut reason} (h : MemForm s) : MemForm (sendAbandon s cut reason) := .foldl (fun _ _ h1 => .after_sendOwn h1) h

theorem MemForm.after_cutAbandon {reason group} (h : MemForm s) : MemForm (cutAbandon s reason group) := by
  unfold cutAbandon
  split
  · exact h
  · exact .after_bump (.after_raiseD (.update (.update (.after_setSlot (.after_sendAbandon h)))))

theorem MemForm.after_drainFail {status shingle} (h : MemForm s) : MemForm (drainFail s status shingle) := by
  unfold drainFail
  split
  · exact h
  · exact .after_bump (.after_raiseD (.update (.after_killMsgs (.after_setSlot h))))

theorem MemForm.after_backendDrop {n o} (h : MemForm s) : MemForm (backendDrop s n o) := by
  unfold backendDrop
  split
  · exact h
  · exact .update h

theorem MemForm.after_undefRange {a n} (h : MemForm s) : MemForm (undefRange s a n) := .ite h (.after_loseMem h)

theorem MemForm.after_undefWrites {o status} (h : MemForm s) : MemForm (undefWrites s o status) :=
  .ite (.foldl (fun _ _ h1 => .after_undefRange h1) h) h

theorem MemForm.after_undoWork {n o status result} (h : MemForm s) : MemForm (undoWork s n o status result) := by
  unfold undoWork
  dsimp only
  split
  · refine .ite (.after_drainFail ?_) ?_ <;>
      (split
       · refine .ite (.after_cutAbandon ?_) ?_ <;>
         exact .update (.update (.after_backendDrop (.after_killNawyn (.after_killMsgs (.after_undefWrites h)))))
       · exact .update (.update (.after_backendDrop (.after_killNawyn (.after_killMsgs (.after_undefWrites h))))))
  · split
    · refine .ite (.after_cutAbandon ?_) ?_ <;>
      exact .update (.update (.after_backendDrop (.after_killNawyn (.after_killMsgs (.after_undefWrites h)))))
    · exact .update (.update (.after_backendDrop (.after_killNawyn (.after_killMsgs (.after_undefWrites h)))))

theorem MemForm.after_deliver {o r k status} (h : MemForm s) : MemForm (deliver s o r k status) := by
  unfold deliver
  split
  · exact .ite (.after_setQp h) (.after_complete (.after_setQp h))
  · exact .ite (.after_bump h) h
  · exact .ite h (.after_nvmeEnd h)
  · dsimp only
    split
    · exact .ite (.after_bump h) h
    · exact .ite (.ite (.after_bump h) h) (.after_loftAnswer (.ite (.after_bump h) h))

theorem MemForm.after_qpSettle {q} (h : MemForm s) : MemForm (qpSettle s q) := .after_setF (.after_setF h)

theorem MemForm.after_srcSettle {o} (h : MemForm s) : MemForm (srcSettle s o) := by
  unfold srcSettle
  split
  · exact .after_qpSettle h
  · exact h

theorem MemForm.after_loftCount {o} (h : MemForm s) : MemForm (loftCount s o) := .ite (.after_bump h) (.ite (.after_bump h) h)

theorem MemForm.after_endOne {n status result ext} (h : MemForm s) : MemForm (endOne s n status result ext) := by
  unfold endOne
  split
  · exact h
  · refine .after_srcSettle (.after_deliver (.ite (.update ?_) ?_)) <;>
    exact .after_dropOp (.after_loftDrop (.ite (.after_loftCount (.ite (.after_bump h) h)) (.after_undoWork (.ite (.after_bump h) h))))

theorem MemForm.after_finishOp {n status result ext} (h : MemForm s) : MemForm (finishOp s n status result ext) :=
  .foldl (fun _ _ h1 => .ite (.after_endOne h1) (.after_endOne h1)) (.after_endOne h)

theorem MemForm.after_finishOk {n result} (h : MemForm s) : MemForm (finishOk s n result) := .after_finishOp h

theorem MemForm.after_endEarly {n status} (h : MemForm s) : MemForm (endEarly s n status) := by
  unfold endEarly
  split
  · exact h
  · refine .ite ?_ (.after_finishOp h)
    split
    · exact .update h
    · exact h

theorem MemForm.after_refuse {n status} (h : MemForm s) : MemForm (refuse s n status) := by
  unfold refuse
  split
  · exact h
  · exact .after_endEarly (.ite (.after_bump h) (.after_bump h))

end

end Sys2Proof.Machine
end

section
/-! PROOFS. The form of memory is kept by power, resets and the boot
loop (02), and what starts and stops threads (06). -/

namespace Sys2Proof.Machine

section
variable {s : State}

/-! ### Boot cycles and Tarp mode (Machine/Tarp.lean) -/

theorem MemForm.after_setAttempt {a} (h : MemForm s) : MemForm (setAttempt s a) := .update h

theorem MemForm.after_setSpiReset {high} (h : MemForm s) : MemForm (setSpiReset s high) := .update h

theorem MemForm.after_nawynLinkOff {l} (h : MemForm s) : MemForm (nawynLinkOff s l) := by
  refine .ite (.after_holdover (.after_raiseD ?_)) ?_ <;>
  exact .after_setReg (.after_setReg (.after_setF (.after_setF (.after_setF h))))

theorem MemForm.after_nawynOff (h : MemForm s) : MemForm (nawynOff s) :=
  .after_poolsSettle (.foldl (fun _ _ h1 => .after_nawynLinkOff h1) (.update h))

theorem MemForm.after_nawynRest (h : MemForm s) : MemForm (nawynRest s) := .after_setDom (.after_setF (.after_setF (.after_nawynOff h)))

theorem MemForm.after_beginAttempt {slot src} (h : MemForm s) : MemForm (beginAttempt s slot src) := by
  refine .after_setAttempt (.ite (.after_startOne (.ite (.after_setSpiReset ?_) ?_)) (.ite (.after_setSpiReset ?_) ?_)) <;>
  exact .after_setF (.after_conLog (.after_bumpSat h))

theorem MemForm.after_cycleCount (h : MemForm s) : MemForm (cycleCount s) := .after_setF (.after_setF (.after_setF (.update h)))

theorem MemForm.after_tarpSeen {cause} (h : MemForm s) : MemForm (tarpSeen s cause) := .ite h (.after_setF h)

theorem MemForm.after_reloadEnd {cause} (h : MemForm s) : MemForm (reloadEnd s cause) :=
  .ite h (.update (.ite (.after_setF h) (.after_setF (.after_setF h))))

theorem MemForm.after_loadEnd {cause} (h : MemForm s) : MemForm (loadEnd s cause) :=
  .ite h (.ite (.after_setF (.after_setF (.update h))) (.after_cycleCount (.after_setF (.update h))))

theorem MemForm.after_endAllOps {status} (h : MemForm s) : MemForm (endAllOps s status) := .foldl (fun _ _ h1 => .after_endEarly h1) h

theorem MemForm.after_tarpTell (h : MemForm s) : MemForm (tarpTell s) :=
  .foldl (fun _ _ h1 => .after_pmeEvent (.ite (.after_msix h1) h1)) (.after_raiseH h)

theorem MemForm.after_tarpEnter {cause} (h : MemForm s) : MemForm (tarpEnter s cause) := by
  exact .ite (.after_tarpSeen h) (.update (.after_conLog (.after_tarpTell (.after_endAllOps (.after_reloadEnd (.after_loadEnd (.after_bump
    (.after_setF (.after_setF (.after_setF h))))))))))

theorem MemForm.after_cycleFail (h : MemForm s) : MemForm (cycleFail s) := .ite (.after_tarpEnter (.after_cycleCount h)) (.after_cycleCount h)

theorem MemForm.after_trySlots {slots} (h : MemForm s) : MemForm (trySlots s slots) := by
  induction slots with
  | nil => exact .after_cycleFail h
  | cons i is ih => exact .ite ih (.after_beginAttempt h)

theorem MemForm.after_startCycle (h : MemForm s) : MemForm (startCycle s) := .ite h (.after_trySlots (.after_setF (.after_setF (.update h))))

theorem MemForm.after_attemptEnd {src result} (h : MemForm s) : MemForm (attemptEnd s src result) := by
  refine .after_setAttempt (.ite (.after_nawynRest ?_) ?_) <;>
    (split
     · exact .after_pushAnswer (.after_setF (.after_setF (.after_setF h)))
     · exact .after_setF (.after_setF (.after_setF h)))

theorem MemForm.after_attemptFail {result} (h : MemForm s) : MemForm (attemptFail s result) := by
  unfold attemptFail
  split
  · exact h
  · exact .after_trySlots (.after_attemptEnd h)

/-! ### Starting, stopping and interrupting threads (Machine/Threads.lean) -/

theorem MemForm.after_resetThread {t} (h : MemForm s) : MemForm (resetThread s t) := .after_setThread h

theorem MemForm.after_resetRafter {r} (h : MemForm s) : MemForm (resetRafter s r) := .update h

theorem MemForm.after_dropPanes {r} (h : MemForm s) : MemForm (dropPanes s r) := .update h

theorem MemForm.after_rouse {r} (h : MemForm s) : MemForm (rouse s r) := .ite (.after_latchWake h) (.after_ungate h)

theorem MemForm.after_startThread {t pc args} (h : MemForm s) : MemForm (startThread s t pc args) := .after_rouse (.after_setThread h)

theorem MemForm.after_startBay {b reason} (h : MemForm s) : MemForm (startBay s b reason) :=
  .after_startThread (.after_setBay (.foldl (fun _ _ h1 => .after_dropPanes (.after_resetRafter h1)) h))

theorem MemForm.after_clearShared {b} (h : MemForm s) : MemForm (clearShared s b) := .update h

theorem MemForm.after_clearFlags {b} (h : MemForm s) : MemForm (clearFlags s b) := .update h

theorem MemForm.after_stopBay {b} (h : MemForm s) : MemForm (stopBay s b) :=
  .foldl (fun _ _ h1 => .foldl (fun _ _ h2 => .after_setThread h2) h1) h

theorem MemForm.after_restoreRafter {r} (h : MemForm s) : MemForm (restoreRafter s r) := by
  unfold restoreRafter
  dsimp only
  split
  · exact .after_dropPanes (.after_resetRafter h)
  · exact .ite (.after_dropPanes (.after_resetRafter h)) (.after_startThread (.after_dropPanes (.after_resetRafter h)))

theorem MemForm.after_itrace {t kind cause from_ to_} (h : MemForm s) : MemForm (itrace s t kind cause from_ to_) := .ite (.after_offer h) h

theorem MemForm.after_dtrace {t kind size addr v} (h : MemForm s) : MemForm (dtrace s t kind size addr v) := .ite (.after_offer h) h

theorem MemForm.after_haltThread {t k saved} (h : MemForm s) : MemForm (haltThread s t k saved) := by
  refine .ite (.after_tarpEnter (.ite (.after_setFlag ?_) ?_)) (.ite (.after_setFlag ?_) ?_) <;>
  exact .after_raiseD (.after_bump (.after_setThread h))

theorem MemForm.after_trapAt {t k saved} (h : MemForm s) : MemForm (trapAt s t k saved) :=
  .ite (.after_haltThread (.after_itrace h)) (.after_setThread (.after_itrace h))

theorem MemForm.after_trap {t k} (h : MemForm s) : MemForm (trap s t k) := .after_trapAt h

theorem MemForm.after_interrupt {t k} (h : MemForm s) : MemForm (interrupt s t k) := .after_setThread (.after_itrace h)

theorem MemForm.after_clearLatch {t c} (h : MemForm s) : MemForm (clearLatch s t c) := .ite (.after_setThread h) (.ite (.after_setThread h) h)

theorem MemForm.after_takeInt {t c} (h : MemForm s) : MemForm (takeInt s t c) := by
  refine .after_interrupt (.after_clearLatch ?_)
  split
  · exact .after_setThread h
  · exact h

/-! ### Entering and leaving the low states (Machine/Domains.lean) -/

theorem MemForm.after_dropCopies {p} (h : MemForm s) : MemForm (dropCopies s p) := .update h

theorem MemForm.after_gutterOff (h : MemForm s) : MemForm (gutterOff s) :=
  .foldl (fun _ _ h1 => .after_chanSettle (.after_setF (.ite (.after_setF (.after_setChan h1)) (.after_setChan h1)))) h

theorem MemForm.after_gutterRun (h : MemForm s) : MemForm (gutterRun s) := .ite h (.foldl (fun _ _ h1 => .ite (.after_setF h1) h1) h)

theorem MemForm.after_purlinOff (h : MemForm s) : MemForm (purlinOff s) := .update (.after_loseMem h)

theorem MemForm.after_loseDomain {d} (h : MemForm s) : MemForm (loseDomain s d) := by
  exact .ite (.after_loseMem (.after_dropPanes (.after_resetRafter h))) (.ite (.after_dropCopies h) (.ite (.after_dropCopies h) (.ite
    (.after_setReg (.after_setReg (.update (.after_loseMem h)))) (.ite (.after_purlinOff h) (.ite (.after_nawynOff h) (.ite (.update h)
    (.ite (.after_gutterOff h) h)))))))

theorem MemForm.after_domOff {d} (h : MemForm s) : MemForm (domOff s d) :=
  .after_setDom (.after_setF (.after_setF (.after_setF (.after_loseDomain h))))

theorem MemForm.after_startDomains {ds} (h : MemForm s) : MemForm (startDomains s ds) :=
  .foldl (fun _ _ h1 => .ite (.after_latchOne h1) h1) (.foldl (fun _ _ h1 => .after_startOne h1) (.after_startOne h))

theorem MemForm.after_leaveOff {d} (h : MemForm s) : MemForm (leaveOff s d) := by
  exact .ite (.after_restoreRafter (.update (.after_setF h))) (.ite (.after_raiseD (.after_setF h)) (.ite (.foldl (fun _ _ h1 => .ite
    (.after_setF h1) h1) (.after_setF h)) (.after_setF h)))

theorem MemForm.after_wakeDone {d} (h : MemForm s) : MemForm (wakeDone s d) := by
  refine .ite (.after_leaveOff ?_) ?_ <;>
  exact .ite (.after_gutterRun (.after_reachRun h)) (.after_reachRun h)

theorem MemForm.after_wakeNow {d} (h : MemForm s) : MemForm (wakeNow s d) :=
  .ite h (.ite (.after_latchOne h) (.after_wakeDone (.after_latchOne h)))

theorem MemForm.after_startBayUp {b reason} (h : MemForm s) : MemForm (startBayUp s b reason) :=
  .after_startBay (.after_wakeNow (.after_wakeNow h))

theorem OutForm.after_execDozeEntry {d} (h : MemForm s) : OutForm (execDozeEntry d s) := .next (.ite (.after_setDom (.after_setF h)) h)

theorem OutForm.after_execNapDelayExpiry {d} (h : MemForm s) : OutForm (execNapDelayExpiry d s) :=
  .next (.ite (.after_setDom (.after_setF (.after_reach h))) h)

theorem OutForm.after_execOffEntryStart {d} (h : MemForm s) : OutForm (execOffEntryStart d s) := .next (.ite (.after_setDom (.after_setF h)) h)

theorem OutForm.after_execQuiesceDone {d} (h : MemForm s) : OutForm (execQuiesceDone d s) := by
  refine .next (.ite ?_ h)
  split
  · exact .after_setDom h
  · exact h

theorem OutForm.after_execPowerDownDone {d} (h : MemForm s) : OutForm (execPowerDownDone d s) := by
  refine .next (.ite ?_ h)
  split
  · refine .ite (.ite (.after_setF (.after_setDom ?_)) (.after_latchOne (.after_setF (.after_setDom ?_)))) ?_ <;>
    exact .ite (.after_domOff h) (.after_setDom (.after_setF (.after_setF h)))
  · exact h

theorem OutForm.after_execDomainWakeDone {d} (h : MemForm s) : OutForm (execDomainWakeDone d s) := .next (.ite (.after_wakeDone h) h)

/-! ### Resets and clock sources (Machine/Resets.lean) -/

theorem MemForm.after_warmReset (h : MemForm s) : MemForm (warmReset s) :=
  .foldl (fun _ _ h1 => .after_setReg h1) (.foldl (fun _ _ h1 => .after_setF h1) (.foldl (fun _ _ h1 => .after_setReg h1) (hostCells_wf s h)))

theorem MemForm.after_warmResetCounted (h : MemForm s) : MemForm (warmResetCounted s) := .after_bump (.after_warmReset h)

theorem MemForm.after_resetEnd (h : MemForm s) : MemForm (resetEnd s) := .ite h (.after_startCycle h)

theorem MemForm.after_coldReset (h : MemForm s) : MemForm (coldReset s) := hostCells_wf s h

theorem MemForm.after_resetWarmCmd (h : MemForm s) : MemForm (resetWarmCmd s) := .after_resetEnd (.after_warmResetCounted h)

theorem OutForm.after_execPowerOnResetExit (h : MemForm s) : OutForm (execPowerOnResetExit s) := .next (.ite (.update h) h)

theorem OutForm.after_execPowerLoss (h : MemForm s) : OutForm (execPowerLoss s) := .next (.after_coldReset h)

theorem OutForm.after_execCrystalDetectionDone {edges} (h : MemForm s) : OutForm (execCrystalDetectionDone edges s) :=
  .next (.ite (.after_resetEnd (.after_setF (.update h))) h)

theorem OutForm.after_execCrystalFail (h : MemForm s) : OutForm (execCrystalFail s) :=
  .next (.ite h (.after_raiseD (.after_bump (.after_setF h))))

theorem OutForm.after_execResetNAssert (h : MemForm s) : OutForm (execResetNAssert s) :=
  .next (.ite h (.ite (.update h) (.after_warmResetCounted (.update h))))

theorem OutForm.after_execBoardPgFall (h : MemForm s) : OutForm (execBoardPgFall s) :=
  .next (.ite h (.ite (.after_bump (.update h)) (.after_warmResetCounted (.after_bump (.update h)))))

theorem OutForm.after_execResetNRise (h : MemForm s) : OutForm (execResetNRise s) := .next (.ite (.after_resetEnd (.update h)) h)

theorem OutForm.after_execBoardPgRise (h : MemForm s) : OutForm (execBoardPgRise s) := .next (.ite (.after_resetEnd (.update h)) h)

theorem MemForm.after_bayResetStart {b} (h : MemForm s) : MemForm (bayResetStart s b) := by
  refine .update (.ite (.after_stopBay ?_) ?_) <;>
  exact .after_clearShared (.foldl (fun _ _ h1 => .after_loseMem (.after_dropPanes (.after_resetRafter h1))) (.ite (.update h) h))

theorem OutForm.after_execBayResetDone {bay} (h : MemForm s) : OutForm (execBayResetDone bay s) :=
  .next (.ite (.after_raiseD (.ite (.update h) (.after_startBayUp (.update h)))) h)

theorem OutForm.after_execBackoffExpiry (h : MemForm s) : OutForm (execBackoffExpiry s) := by
  refine .next ?_
  split
  · exact .ite h (.after_startCycle (.after_reach h))
  · exact h

theorem MemForm.after_bootNow (h : MemForm s) : MemForm (bootNow s) := .ite h (.ite (.after_startCycle h) h)

theorem OutForm.after_execTarpEntryDone (h : MemForm s) : OutForm (execTarpEntryDone s) := by
  refine .next ?_
  split
  · exact h
  · refine .ite h (.ite (.after_startCycle ?_) ?_) <;>
    exact .update (.foldl (fun _ _ h1 => .after_setDom (.after_domOff h1)) h)

/-! ### Roof Sleep (Machine/Roof.lean) -/

theorem MemForm.after_setRoof {r} (h : MemForm s) : MemForm (setRoof s r) := .update h

theorem MemForm.after_roofSignal {bit ep} (h : MemForm s) : MemForm (roofSignal s bit ep) :=
  .ite (.ite (.after_driveWakeN h) h) (.ite (.after_emit (.after_setFn h)) h)

theorem MemForm.after_roofExitBegin {bit} (h : MemForm s) : MemForm (roofExitBegin s bit) :=
  .after_roofSignal (.after_roofSignal (.after_setRoof (.after_setReg h)))

theorem MemForm.after_roofBack {offDoms d} (h : MemForm s) : MemForm (roofBack s offDoms d) := by
  refine .ite (.after_startOne ?_) (.ite (.after_setF (.after_setDom ?_)) (.ite (.after_setWakePend ?_) ?_)) <;>
  exact .after_setDom (.ite (.after_domOff h) h)

theorem MemForm.after_roofSource {bit offDoms} (h : MemForm s) : MemForm (roofSource s bit offDoms) := by
  refine .ite ?_ h
  split
  · exact .foldl (fun _ _ h1 => .after_roofBack h1) (.after_setRoof (.after_bump h))
  · exact .after_setRoof h
  · exact .after_roofExitBegin h
  · exact h

theorem MemForm.after_discardThatch (h : MemForm s) : MemForm (discardThatch s) := by
  exact .after_setF (.after_setReg (.after_setReg (.foldl (fun _ _ h1 => .after_setReg h1) (.foldl (fun _ _ h1 => .after_setReg
    (.after_setReg h1)) (.update h)))))

theorem OutForm.after_execRoofSleepConditionsHeld (h : MemForm s) : OutForm (execRoofSleepConditionsHeld s) := .next (.ite (.after_setRoof h) h)

theorem OutForm.after_execRoofPointOfNoReturn (h : MemForm s) : OutForm (execRoofPointOfNoReturn s) := by
  refine .next ?_
  split
  · exact .after_setRoof (.foldl (fun _ _ h1 => .after_domOff h1) h)
  · exact h

theorem OutForm.after_execRoofSleepEntered (h : MemForm s) : OutForm (execRoofSleepEntered s) := by
  refine .next ?_
  split
  · dsimp only
    split
    · exact .after_roofExitBegin (.after_setRoof (.after_bump (.after_domOff h)))
    · exact .after_setRoof (.after_bump (.after_domOff h))
  · exact h

theorem OutForm.after_execRoofWakeSource {bit offDoms} (h : MemForm s) : OutForm (execRoofWakeSource bit offDoms s) := .next (.after_roofSource h)

theorem OutForm.after_execRoofTimerExpiry (h : MemForm s) : OutForm (execRoofTimerExpiry s) := .next (.ite (.after_roofSource h) h)

theorem OutForm.after_execRoofExitDigestCheck {ok} (h : MemForm s) : OutForm (execRoofExitDigestCheck ok s) := by
  exact .next (.ite h (.ite (.after_setRoof h) (.after_startCycle (.update (.foldl (fun _ _ h1 => .after_setDom h1) (.after_setF
    (.after_setRoof (.after_loseMem (.after_discardThatch h)))))))))

/-! ### Attempts to boot (Machine/Boot.lean) -/

theorem MemForm.after_mapAttempt {f} (h : MemForm s) : MemForm (mapAttempt s f) := .after_setAttempt h

theorem MemForm.after_attemptOk {a usable} (h : MemForm s) : MemForm (attemptOk s a usable) :=
  .update (.after_setF (.after_setF (.after_setF (.after_attemptEnd h))))

theorem MemForm.after_headerCheck {a hdr} (h : MemForm s) : MemForm (headerCheck s a hdr) := .ite (.after_setAttempt h) (.after_attemptFail h)

theorem OutForm.after_execBootSourceTimeout (h : MemForm s) : OutForm (execBootSourceTimeout s) := .next (.after_attemptFail h)

theorem OutForm.after_execBootHeaderCheck {hdr} (h : MemForm s) : OutForm (execBootHeaderCheck hdr s) := by
  refine .next ?_
  split
  · exact h
  · exact .ite h (.ite (.ite (.after_headerCheck h) h) (.ite (.after_headerCheck h) h))

theorem OutForm.after_execBootImageReadDone {image} (h : MemForm s) : OutForm (execBootImageReadDone image s) := by
  refine .next ?_
  split
  · exact h
  · exact .ite h (.ite (.ite (.after_setAttempt h) h) h)

theorem OutForm.after_execBootSignatureCheckDone {bootSigsOk thatchSigsOk} (h : MemForm s) :
    OutForm (execBootSignatureCheckDone bootSigsOk thatchSigsOk s) := by
  refine .next ?_
  split
  · exact h
  · refine .ite h (.ite ?_ (.ite ?_ (.ite (.after_attemptFail (.after_setF h)) (.after_attemptOk h)))) <;>
    exact .after_attemptFail h

theorem OutForm.after_execBootReadError (h : MemForm s) : OutForm (execBootReadError s) := by
  refine .next ?_
  split
  · exact .ite h (.after_attemptFail h)
  · exact h

theorem OutForm.after_execSpiResetWaitExpiry (h : MemForm s) : OutForm (execSpiResetWaitExpiry s) := .next (.after_mapAttempt h)

theorem OutForm.after_execSfdpReadDone {m} (h : MemForm s) : OutForm (execSfdpReadDone m s) := by
  refine .next ?_
  split
  · exact .ite (.after_setAttempt (.update h)) h
  · exact h

theorem OutForm.after_execNetworkBootTick (h : MemForm s) : OutForm (execNetworkBootTick s) := by
  refine .next ?_
  split
  · exact .ite (.after_emit (.after_drawDword h)) h
  · exact h

theorem OutForm.after_execNeighbourTurnTimeout (h : MemForm s) : OutForm (execNeighbourTurnTimeout s) := by
  refine .next ?_
  split
  · exact .ite (.ite (.after_setAttempt h) (.after_attemptFail h)) h
  · exact h

theorem MemForm.after_bootBegin {path bs} (h : MemForm s) : MemForm (bootBegin s path bs).2.2 := by
  refine .ite_snd_snd h ?_
  split
  · exact h
  · exact .ite_snd_snd h (.ite_snd_snd (.after_setAttempt h) h)

theorem MemForm.after_bootBlock {path bs} (h : MemForm s) : MemForm (bootBlock s path bs).2.2 := by
  refine .ite_snd_snd h ?_
  split
  · exact h
  · exact .ite_snd_snd h (.ite_snd_snd h (.ite_snd_snd h (.after_setAttempt h)))

theorem MemForm.after_bootEnd {path bs} (h : MemForm s) : MemForm (bootEnd s path bs).2 := by
  refine .ite_snd h ?_
  split
  · exact h
  · exact .ite_snd h (.ite_snd h (.ite_snd h (.ite_snd (.after_attemptFail h) (.ite_snd (.after_attemptFail h) (.after_setAttempt h)))))

end

end Sys2Proof.Machine
end

section
/-! PROOFS. The form of memory is kept by the management chain (03), the
Ridge mailbox (07) and the loading of thatches (04). -/

namespace Sys2Proof.Machine

section
variable {s : State}

/-! ### The chain, the sensors and the accelerators (Machine/Island.lean) -/

theorem MemForm.after_setAcc {n x} (h : MemForm s) : MemForm (setAcc s n x) := .update h

theorem MemForm.after_accOut {n en rst st} (h : MemForm s) : MemForm (accOut s n en rst st) := .after_setF (.after_setF (.after_setF h))

theorem MemForm.after_accBegin {n req} (h : MemForm s) : MemForm (accBegin s n req) := by
  refine .ite (.ite (.after_accOut h) (.ite h (.after_setAcc (.after_setF (.after_accOut h))))) (.ite ?_ ?_) <;>
  exact .ite (.after_setAcc (.after_accOut h)) h

theorem MemForm.after_accRequest {n req} (h : MemForm s) : MemForm (accRequest s n req) :=
  .ite h (.ite (.after_accBegin h) (.ite h (.after_setAcc h)))

theorem MemForm.after_accStepEnd {n} (h : MemForm s) : MemForm (accStepEnd s n) := .ite (.after_setAcc h) (.after_accBegin (.after_setAcc h))

theorem MemForm.after_accFault {n cause} (h : MemForm s) : MemForm (accFault s n cause) :=
  .after_raiseD (.after_bump (.after_setAcc (.after_setF (.after_accOut h))))

theorem OutForm.after_execAccOnRequest {n} (h : MemForm s) : OutForm (execAccOnRequest n s) := .next (.after_accRequest h)

theorem OutForm.after_execAccOffRequest {n} (h : MemForm s) : OutForm (execAccOffRequest n s) := .next (.after_accRequest h)

theorem OutForm.after_execAccResetPulse {n} (h : MemForm s) : OutForm (execAccResetPulse n s) := .next (.after_accRequest h)

theorem OutForm.after_execAccPgRise {n} (h : MemForm s) : OutForm (execAccPgRise n s) :=
  .next (.ite h (.ite (.after_setF h) (.ite (.after_accStepEnd (.after_setF h)) (.after_setAcc (.after_setF h)))))

theorem OutForm.after_execAccRstDelayExpiry {n} (h : MemForm s) : OutForm (execAccRstDelayExpiry n s) :=
  .next (.ite (.after_accStepEnd (.after_accOut h)) h)

theorem OutForm.after_execAccOffDelayExpiry {n} (h : MemForm s) : OutForm (execAccOffDelayExpiry n s) :=
  .next (.ite (.after_accStepEnd (.after_accOut h)) h)

theorem OutForm.after_execAccPulseExpiry {n} (h : MemForm s) : OutForm (execAccPulseExpiry n s) :=
  .next (.ite (.after_accStepEnd (.after_accOut h)) h)

theorem OutForm.after_execAccPgTimeout {n} (h : MemForm s) : OutForm (execAccPgTimeout n s) := .next (.ite (.after_accFault h) h)

theorem OutForm.after_execAccPgLost {n} (h : MemForm s) : OutForm (execAccPgLost n s) :=
  .next (.ite (.ite (.after_accFault (.after_setF h)) (.after_setF h)) h)

theorem MemForm.after_setChain {c} (h : MemForm s) : MemForm (setChain s c) := .update h

theorem MemForm.after_chainAnswer {address cmd w status payload} (h : MemForm s) : MemForm (chainAnswer s address cmd w status payload) :=
  .after_emit (.after_setChain h)

theorem MemForm.after_chainStatus {status} (h : MemForm s) : MemForm (chainStatus s status) := .after_setChain h

theorem MemForm.after_nodeFollow (h : MemForm s) : MemForm (nodeFollow s) := .ite h (.after_setF h)

theorem MemForm.after_chainRelease (h : MemForm s) : MemForm (chainRelease s) := .after_nodeFollow (.after_setF (.after_setF (.after_setF h)))

theorem MemForm.after_chainEnIn {enIn} (h : MemForm s) : MemForm (chainEnIn s enIn) := .after_setF h

theorem OutForm.after_execAssignQuery {enIn others} (h : MemForm s) : OutForm (execAssignQuery enIn others s) :=
  .next (.ite (.after_chainAnswer (.after_chainEnIn h)) (.after_chainEnIn h))

theorem OutForm.after_execAssignSet {enIn uid address} (h : MemForm s) : OutForm (execAssignSet enIn uid address s) := by
  exact .next (.ite (.after_chainEnIn h) (.ite (.after_chainStatus (.after_chainEnIn h)) (.after_chainStatus (.after_nodeFollow
    (.after_setF (.after_setF (.after_setF (.after_chainEnIn h))))))))

theorem OutForm.after_execIdent {address} (h : MemForm s) : OutForm (execIdent address s) := .next (.ite (.after_chainAnswer h) h)

theorem OutForm.after_execStatus {address} (h : MemForm s) : OutForm (execStatus address s) := .next (.ite (.after_chainAnswer h) h)

theorem OutForm.after_execSensorRead {address index} (h : MemForm s) : OutForm (execSensorRead address index s) :=
  .next (.ite h (.ite (.after_chainAnswer h) (.ite (.after_chainAnswer h) (.ite (.after_chainAnswer h) (.after_chainAnswer h)))))

theorem OutForm.after_execMailboxWrite {address flags bytes} (h : MemForm s) : OutForm (execMailboxWrite address flags bytes s) := by
  refine .next (.ite h (.ite (.after_mbxArrive ?_) ?_)) <;>
  exact .after_setChain (.after_chainStatus (.ite (.after_bump h) h))

theorem OutForm.after_execMailboxRead {address} (h : MemForm s) : OutForm (execMailboxRead address s) :=
  .next (.ite h (.ite (.after_chainAnswer h) (.after_chainAnswer (.after_setChain h))))

theorem MemForm.after_chainDenied (h : MemForm s) : MemForm (chainDenied s) := .after_chainStatus (.after_bump h)

theorem OutForm.after_execAccPower {address n request} (h : MemForm s) : OutForm (execAccPower address n request s) :=
  .next (.ite h (.ite (.after_chainDenied h) (.ite (.after_chainStatus h) (.after_chainStatus (.after_accRequest h)))))

theorem OutForm.after_execAccStatus {address} (h : MemForm s) : OutForm (execAccStatus address s) := .next (.ite (.after_chainAnswer h) h)

theorem OutForm.after_execWake {address} (h : MemForm s) : OutForm (execWake address s) :=
  .next (.ite h (.after_chainStatus (.ite (.after_pmeEvent (.after_pmeEvent h)) (.after_roofSource h))))

theorem OutForm.after_execTarpForce {address} (h : MemForm s) : OutForm (execTarpForce address s) :=
  .next (.ite h (.ite (.after_chainDenied h) (.after_chainStatus (.after_tarpEnter h))))

theorem OutForm.after_execResetWarm {address c0 c1} (h : MemForm s) : OutForm (execResetWarm address c0 c1 s) :=
  .next (.ite h (.ite (.after_chainDenied h) (.ite (.after_chainStatus h) (.after_resetWarmCmd h))))

theorem OutForm.after_execRelease {address} (h : MemForm s) : OutForm (execRelease address s) :=
  .next (.ite (.after_chainStatus (.after_chainRelease h)) h)

theorem OutForm.after_execChainBadFrame {address why cmd isRead} (h : MemForm s) : OutForm (execChainBadFrame address why cmd isRead s) :=
  .next (.ite (.after_chainStatus (.ite (.after_chainAnswer (.after_bump h)) (.after_bump h))) h)

theorem OutForm.after_execChainTimeout (h : MemForm s) : OutForm (execChainTimeout s) := .next (.after_bump h)

theorem OutForm.after_execConsoleCharacter {c stopHigh} (h : MemForm s) : OutForm (execConsoleCharacter c stopHigh s) :=
  .next (.ite h (.after_conRx h))

theorem OutForm.after_execConsoleBreak (h : MemForm s) : OutForm (execConsoleBreak s) :=
  .next (.ite h (.after_roofSource (.after_raiseD (.after_setCon (.after_bump (.after_setF (.after_conRx h)))))))

theorem OutForm.after_execConsoleBreakEnd (h : MemForm s) : OutForm (execConsoleBreakEnd s) := .next (.after_setCon h)

theorem OutForm.after_execConsoleTxCharacterSent (h : MemForm s) : OutForm (execConsoleTxCharacterSent s) := by
  refine .next ?_
  split
  · exact h
  · exact .after_conStart (.after_conFlushLog (.after_emit (.after_setCon h)))

theorem OutForm.after_execConsoleLineHoldExpiry (h : MemForm s) : OutForm (execConsoleLineHoldExpiry s) :=
  .next (.ite (.after_conFlushLog (.after_setCon h)) h)

theorem MemForm.after_thermalEmergency (h : MemForm s) : MemForm (thermalEmergency s) := by
  refine .after_tarpEnter (.after_loadEnd (.after_setF (.update (.after_setF ?_))))
  split
  · exact .after_attemptEnd h
  · exact h

theorem MemForm.after_thermalClear (h : MemForm s) : MemForm (thermalClear s) := .ite (.after_setF h) (.update (.after_setF h))

theorem MemForm.after_thermSample {t sensor} (h : MemForm s) : MemForm (thermSample s t sensor) := by
  refine .ite h (.ite (.after_thermalEmergency (.ite (.after_roofSource ?_) ?_)) (.ite (.after_thermalClear (.ite (.after_roofSource ?_)
    ?_)) (.ite (.after_roofSource ?_) ?_))) <;>
  exact .ite (.after_raiseD (.after_bumpN (.after_poolsSettle (.after_setF h)))) (.after_bumpN (.after_poolsSettle (.after_setF h)))

theorem MemForm.after_vmonSample {j mv} (h : MemForm s) : MemForm (vmonSample s j mv) := by
  refine .ite (.ite (.ite (.after_setF ?_) ?_) (.after_roofSource (.after_raiseD (.update (.ite (.after_setF ?_) ?_))))) (.update (.ite
    (.after_setF ?_) ?_)) <;>
  exact .ite (.after_setF (.after_setF h)) (.after_setF h)

theorem OutForm.after_execSensorSample {temps mv} (h : MemForm s) : OutForm (execSensorSample temps mv s) := by
  exact .next (.after_thermSample (.foldl (fun _ _ h1 => .after_vmonSample h1) (.after_setReg (.foldl (fun _ _ h1 => .after_setReg h1)
    h))))

theorem OutForm.after_execThermtrip (h : MemForm s) : OutForm (execThermtrip s) :=
  .next (.foldl (fun _ _ h1 => .ite (.after_accFault h1) h1) (.after_setF h))

/-! ### Mailbox messages (Machine/Mailbox.lean) -/

theorem MemForm.after_mbxDenied (h : MemForm s) : MemForm (mbxDenied s) := .after_mbxReply (.after_bump h)

theorem MemForm.after_mbxHandle {typ len f} (h : MemForm s) (hf : ∀ x0, ∀ x1, MemForm (f x0 x1)) : MemForm (mbxHandle s typ len f) := by
  unfold mbxHandle
  split
  · exact h
  · exact .ite (.after_mbxReply h) (hf _ _)

theorem OutForm.after_execMbxPing (h : MemForm s) : OutForm (execMbxPing s) := .next (.after_mbxHandle h (fun _ _ => .after_mbxReply h))

theorem OutForm.after_execMbxStatus (h : MemForm s) : OutForm (execMbxStatus s) := .next (.after_mbxHandle h (fun _ _ => .after_mbxReply h))

theorem OutForm.after_execBootBegin (h : MemForm s) : OutForm (execBootBegin s) := by
  refine .next ?_
  split
  · exact h
  · exact .after_mbxReply (.after_bootBegin h)

theorem OutForm.after_execBootBlock (h : MemForm s) : OutForm (execBootBlock s) := by
  refine .next ?_
  split
  · exact h
  · exact .after_mbxReply (.after_bootBlock h)

theorem OutForm.after_execBootEnd (h : MemForm s) : OutForm (execBootEnd s) := by
  refine .next ?_
  split
  · exact h
  · dsimp only
    split
    · exact .after_mbxReply (.after_bootEnd h)
    · exact .after_bootEnd h

theorem OutForm.after_execLogRead (h : MemForm s) : OutForm (execLogRead s) := .next (.after_mbxHandle h (fun _ _ => .after_mbxReply (.update h)))

theorem OutForm.after_execMbxTarpForce (h : MemForm s) : OutForm (execMbxTarpForce s) :=
  .next (.after_mbxHandle h (fun _ _ => .ite (.after_mbxDenied h) (.after_mbxReply (.after_tarpEnter h))))

theorem OutForm.after_execMbxResetWarm (h : MemForm s) : OutForm (execMbxResetWarm s) := by
  exact .next (.after_mbxHandle h (fun _ _ => .ite (.after_mbxDenied h) (.ite (.after_mbxReply h) (.after_resetWarmCmd (.after_mbxReply
    h)))))

theorem OutForm.after_execMbxAccPower (h : MemForm s) : OutForm (execMbxAccPower s) := by
  exact .next (.after_mbxHandle h (fun _ _ => .ite (.after_mbxDenied h) (.ite (.after_mbxReply h) (.after_mbxReply (.after_accRequest
    h)))))

theorem OutForm.after_execBarePortFrame {etherType src msg} (h : MemForm s) : OutForm (execBarePortFrame etherType src msg s) := by
  refine .next (.ite h (.ite ?_ (.after_mbxArrive ?_))) <;>
  exact .after_roofSource (.after_pmeEvent (.after_pmeEvent h))

/-! ### Loading a thatch (Machine/Thatch.lean) -/

theorem MemForm.after_setPhase {p} (h : MemForm s) : MemForm (setPhase s p) := .after_setF h

theorem MemForm.after_setStage {n} (h : MemForm s) : MemForm (setStage s n) := .update h

theorem MemForm.after_loadFailed {code} (h : MemForm s) : MemForm (loadFailed s code) := .update (.after_setStage h)

theorem MemForm.after_strikeThread {t} (h : MemForm s) : MemForm (strikeThread s t) :=
  .ite (.after_latchWake (.after_setThread h)) (.after_setThread h)

theorem MemForm.after_slabsReset {b hold} (h : MemForm s) : MemForm (slabsReset s b hold) := .foldl (fun _ _ h1 => .ite (.update h1) h1) h

theorem MemForm.after_strike {b} (h : MemForm s) : MemForm (strike s b) := by
  exact .after_raiseD (.foldl (fun _ _ h1 => .after_strikeThread h1) (.after_wakeWatchers (.after_slabsReset (.after_setReg (.after_setBay
    h)))))

theorem MemForm.after_endStrike {b reason} (h : MemForm s) : MemForm (endStrike s b reason) :=
  .after_startBayUp (.after_setF (.after_slabsReset (.after_setBay h)))

theorem MemForm.after_reloadOver {result} (h : MemForm s) : MemForm (reloadOver s result) := .update (.after_setF (.after_setPhase h))

theorem MemForm.after_thatchDeny (h : MemForm s) : MemForm (thatchDeny s) := .after_bump h

theorem MemForm.after_applyPlan {plan d} (h : MemForm s) : MemForm (applyPlan plan s d) := by
  unfold applyPlan
  split <;> exact .update (.after_setF (.after_setF h))

theorem MemForm.after_applyRing {x} (h : MemForm s) : MemForm (applyRing s x) := .after_setF (.after_setF (.after_setF (.after_setF h)))

theorem MemForm.after_applySegment {fw i} (h : MemForm s) : MemForm (applySegment fw s i) := .after_writeBytes h

theorem MemForm.after_applySlab {img b n} (h : MemForm s) : MemForm (applySlab img b s n) := .update h

theorem MemForm.after_applyBay {img e b} (h : MemForm s) : MemForm (applyBay img e s b) := by
  exact .foldl (fun _ _ h1 => .after_applySlab h1) (.foldl (fun _ _ h1 => .after_applySegment h1) (.foldl (fun _ _ h1 => .after_applyRing
    h1) (.foldl (fun _ _ h1 => .after_applyPlan h1) h)))

theorem MemForm.after_applyDevice {img} (h : MemForm s) : MemForm (applyDevice img s) := by
  unfold applyDevice
  dsimp only
  split <;> exact .after_setF (.after_setF (.update (.foldl (fun _ _ h1 => .after_applyPlan h1) h)))

theorem MemForm.after_applyFull {img} (h : MemForm s) : MemForm (applyFull img s) :=
  .foldl (fun _ _ h1 => .after_applyBay h1) (.after_applyDevice h)

theorem MemForm.after_commitBay {b epoch reason} (h : MemForm s) : MemForm (commitBay s b epoch reason) :=
  .after_raiseD (.after_endStrike (.after_clearFlags (.after_clearShared (.after_setF h))))

theorem MemForm.after_commitReload (h : MemForm s) : MemForm (commitReload s) :=
  .after_reloadOver (.after_bump (.after_commitBay (.after_setBay h)))

theorem MemForm.after_fullRegs {img} (h : MemForm s) : MemForm (fullRegs img s) :=
  .update (.after_setF (.foldl (fun _ _ h1 => .after_setReg h1) (.after_setReg (.after_setReg h))))

theorem MemForm.after_wakeAll (h : MemForm s) : MemForm (wakeAll s) := .foldl (fun _ _ h1 => .after_wakeNow h1) h

theorem MemForm.after_tellExit (h : MemForm s) : MemForm (tellExit s) := .ite (.update h) (.after_raiseH (.update h))

theorem MemForm.after_tarpLeave (h : MemForm s) : MemForm (tarpLeave s) := .after_conLog (.after_tellExit (.update (.after_setF (.after_setF h))))

theorem MemForm.after_fullBays {img} (h : MemForm s) : MemForm (fullBays img s) :=
  .foldl (fun _ _ h1 => .after_setBay (.after_setReg h1)) (.foldl (fun _ _ h1 => .ite h1 (.after_setReg h1)) (.update h))

theorem MemForm.after_commitFull (h : MemForm s) : MemForm (commitFull s) := by
  refine .ite (.after_tarpLeave ?_) ?_ <;>
  exact .foldl (fun _ _ h1 => .after_commitBay h1) (.after_setStage (.after_setF (.after_setF (.update (.after_setF (.after_wakeAll
    (.after_fullRegs (.after_fullBays h))))))))

theorem MemForm.after_fullLoadFail {code cause} (h : MemForm s) : MemForm (fullLoadFail s code cause) := by
  refine .ite (.foldl (fun _ _ h1 => .after_setDom (.after_domOff h1)) ?_) ?_ <;>
  exact .after_tarpEnter (.after_cycleCount (.after_setStage (.update (.after_setF h))))

theorem MemForm.after_applyFail {cause} (h : MemForm s) : MemForm (applyFail s cause) := .after_tarpEnter (.after_setF h)

theorem MemForm.after_loadApplyFail {cause} (h : MemForm s) : MemForm (loadApplyFail s cause) := .ite (.after_fullLoadFail h) (.after_applyFail h)

theorem MemForm.after_thatchReloadCmd {b auto} (h : MemForm s) : MemForm (thatchReloadCmd s b auto) := by
  refine .ite (.after_thatchDeny h) (.ite (.after_setF h) (.after_strike (.ite (.after_loadFailed ?_) ?_))) <;>
  exact .update (.after_setReg h)

theorem MemForm.after_thatchCommitCmd {b} (h : MemForm s) : MemForm (thatchCommitCmd s b) := .ite (.after_commitReload h) (.after_thatchDeny h)

theorem MemForm.after_thatchCancelCmd {b} (h : MemForm s) : MemForm (thatchCancelCmd s b) := by
  exact .ite (.after_thatchDeny h) (.ite (.after_loadFailed h) (.ite (.after_setStage (.after_setPhase (.after_applyBay h)))
    (.after_thatchDeny h)))

theorem MemForm.after_quiesceBay {b} (h : MemForm s) : MemForm (quiesceBay s b) := .after_setBay (.after_stopBay h)

theorem MemForm.after_thatchQuiesceCmd {b} (h : MemForm s) : MemForm (thatchQuiesceCmd s b) := .ite (.after_quiesceBay h) h

theorem OutForm.after_execThatchFetchDone {readOk image} (h : MemForm s) : OutForm (execThatchFetchDone readOk image s) :=
  .next (.ite h (.ite (.after_loadFailed h) (.ite h (.ite (.after_setStage (.update h)) (.after_loadFailed (.update h))))))

theorem OutForm.after_execThatchSignaturesDone {sigsOk} (h : MemForm s) : OutForm (execThatchSignaturesDone sigsOk s) :=
  .next (.ite h (.ite (.after_setStage h) (.after_loadFailed h)))

theorem OutForm.after_execThatchChecksDone (h : MemForm s) : OutForm (execThatchChecksDone s) :=
  .next (.ite h (.ite (.ite (.after_setStage h) (.after_fullLoadFail h)) (.ite (.ite (.after_setStage h) (.after_loadFailed h)) h)))

theorem OutForm.after_execStrikeLift (h : MemForm s) : OutForm (execStrikeLift s) := by
  refine .next (.ite (.ite ?_ (.after_bump ?_)) h) <;>
  exact .after_raiseD (.after_reloadOver (.after_endStrike h))

theorem OutForm.after_execDrainLimitExpiry (h : MemForm s) : OutForm (execDrainLimitExpiry s) :=
  .next (.ite (.foldl (fun _ _ h1 => .after_endEarly h1) (.after_bump (.after_setF (.after_quiesceBay (.after_reach h))))) h)

theorem OutForm.after_execHoldLimitExpiry {bay} (h : MemForm s) : OutForm (execHoldLimitExpiry bay s) :=
  .next (.ite (.after_raiseD (.foldl (fun _ _ h1 => .after_endEarly h1) (.after_setF (.after_setF (.after_reach h))))) h)

theorem OutForm.after_execThatchApplyStart (h : MemForm s) : OutForm (execThatchApplyStart s) := by
  exact .next (.ite h (.ite (.ite (.after_setPhase (.after_applyFull (.after_startDomains h))) h) (.ite (.after_applyBay (.after_setPhase
    h)) h)))

theorem OutForm.after_execThatchApplyDone {ok} (h : MemForm s) : OutForm (execThatchApplyDone ok s) := by
  exact .next (.ite h (.ite (.after_loadApplyFail (.ite (.after_setPhase h) h)) (.ite (.after_commitFull (.after_setPhase h)) (.ite
    (.after_commitReload h) (.after_setF (.after_setPhase h))))))

theorem OutForm.after_execThatchReapplyDone {ok} (h : MemForm s) : OutForm (execThatchReapplyDone ok s) :=
  .next (.ite h (.ite (.after_reloadOver (.after_endStrike h)) (.after_applyFail h)))

theorem OutForm.after_execPllLockTimeout {d} (h : MemForm s) : OutForm (execPllLockTimeout d s) := by
  refine .next (.ite (.ite (.after_loadApplyFail (.ite (.after_setPhase ?_) ?_)) ?_) h) <;>
  exact .after_setF (.after_setDom h)

theorem OutForm.after_execRoofExit (h : MemForm s) : OutForm (execRoofExit s) := by
  exact .next (.ite h (.after_raiseD (.foldl (fun _ _ h1 => .after_commitBay h1) (.after_setF (.foldl (fun _ _ h1 => .after_applyBay h1)
    (.after_applyDevice (.after_wakeAll (.after_startDomains (.after_setRoof h)))))))))

theorem OutForm.after_execPowerBudgetTick {bay estimate} (h : MemForm s) : OutForm (execPowerBudgetTick bay estimate s) :=
  .next (.ite h (.ite (.after_setBay h) (.ite (.ite (.after_setBay h) (.after_setBay h)) (.after_setBay h))))

end

end Sys2Proof.Machine
end

section
/-! PROOFS. The form of memory is kept by the issue of an instruction
(05, 06) and what the engines share (08). -/

namespace Sys2Proof.Machine

section
variable {s : State}

/-! ### The gate of an issue and translation (Machine/Access.lean) -/

theorem MemForm.after_cachePane {r l} (h : MemForm s) : MemForm (cachePane s r l) := .ite h (.update h)

theorem MemForm.after_freshGives {r b a k} (h : MemForm s) : MemForm (freshGives s r b a k).2 := by
  unfold freshGives
  split
  · exact h
  · exact .after_cachePane h

theorem MemForm.after_threadTranslate {r b a k} (h : MemForm s) : MemForm (threadTranslate s r b a k).2 := by
  refine .ite_snd h (.ite_snd ?_ ?_)
  · split <;> exact h
  · split
    · exact .after_freshGives h
    · exact .ite_snd (.ite_snd (.after_drawBit h) (.after_freshGives (.after_drawBit h))) h

theorem MemForm.after_accessWay {t a n k} (h : MemForm s) : MemForm (accessWay s t a n k).2 := by
  refine .ite_snd h (.ite_snd h ?_)
  dsimp only
  split <;> exact .after_threadTranslate h

theorem MemForm.after_hold {t b} (h : MemForm s) : MemForm (hold s t b) := .after_setThread h

theorem MemForm.after_answerThread {t addr a} (h : MemForm s) : MemForm (answerThread s t addr a) := by
  unfold answerThread
  dsimp only
  split
  · exact .ite (.after_setThread h) h
  · exact h

theorem MemForm.after_postedDone {t addr} (h : MemForm s) : MemForm (postedDone s t addr) := .after_setThread h

theorem MemForm.after_postedFail {t addr st} (h : MemForm s) : MemForm (postedFail s t addr st) := .ite (.after_setThread h) h

theorem MemForm.after_retire {t rd v n} (h : MemForm s) : MemForm (retire s t rd v n) := .after_setThread h

theorem MemForm.after_advance {t n} (h : MemForm s) : MemForm (advance s t n) := .after_setThread h

theorem MemForm.after_fetchFault {t} (h : MemForm s) : MemForm (fetchFault s t).2 := by
  unfold fetchFault
  dsimp only
  split <;> exact .after_threadTranslate h

theorem MemForm.after_issue {t reads fence k} (h : MemForm s) (hk : ∀ t, MemForm t → MemForm (k t)) : MemForm (issue s t reads fence k) := by
  refine .ite h ?_
  split
  · exact .after_takeInt h
  · split
    · exact .after_trap (.after_setThread h)
    · refine .ite h ?_
      dsimp only
      split
      · exact .after_trap (.after_fetchFault h)
      · exact hk _ (.after_fetchFault h)

/-! ### What the engines share (Machine/EngCore.lean) -/

theorem MemForm.after_atsHold {ep fn a} (h : MemForm s) : MemForm (atsHold s ep fn a) := .ite (.ite h (.after_setEp h)) h

theorem MemForm.after_holdRange {fn a n} (h : MemForm s) : MemForm (holdRange s fn a n) := by
  unfold holdRange
  split
  · exact .ite h (.foldl (fun _ _ h1 => .after_atsHold h1) h)
  · exact h

theorem OkForm.after_engWrite {o a bs} (h : MemForm s) : OkForm id (engWrite s o a bs) := by
  unfold engWrite
  split
  · exact .error
  · exact .ok (.after_writeBytes (.after_holdRange h))

theorem MemForm.after_admitOp {start n cls} (hstart : ∀ t, MemForm t → ∀ x0, MemForm (start t x0)) (h : MemForm s) :
    MemForm (admitOp start s n cls) := by
  unfold admitOp
  split
  · exact h
  · exact hstart _ (.after_srcSettle (.after_bump (.after_putOp (.after_charge h)))) _

theorem MemForm.after_refuseCap {n} (h : MemForm s) : MemForm (refuseCap s n) := .after_refuse h

theorem MemForm.after_judge {start n} (hstart : ∀ t, MemForm t → ∀ x0, MemForm (start t x0)) (h : MemForm s) : MemForm (judge start s n) := by
  unfold judge
  split
  · exact h
  · refine .ite h ?_
    split
    · exact h
    · exact .after_refuse h
    · split
      · exact .after_refuse h
      · exact .ite (.after_refuse h) h
      · exact .ite (.after_refuseCap h) (.ite (.after_admitOp (fun _ h1 _ => hstart _ h1 _) h) h)

theorem MemForm.after_missCount {i} (h : MemForm s) : MemForm (missCount s i) := by
  unfold missCount
  split
  · exact .after_bump h
  · exact h

theorem MemForm.after_arriveOp {start o} (hstart : ∀ t, MemForm t → ∀ x0, MemForm (start t x0)) (h : MemForm s) :
    MemForm (arriveOp start s o) := by
  refine .after_judge (fun _ h1 _ => hstart _ h1 _) (.after_srcSettle (.after_missCount (.ite ?_ (.after_bump ?_)))) <;>
  exact .after_putOp (.update h)

theorem MemForm.after_dataError {n failed} (h : MemForm s) : MemForm (dataError s n failed) := .ite (.after_finishOp h) (.after_finishOp h)

theorem OutForm.after_execCopyDone {op host failed} (h : MemForm s) : OutForm (execCopyDone op host failed s) := by
  refine .next ?_
  split
  · exact h
  · refine .ite h (.ite (.after_dataError h) ?_)
    split
    · exact .after_finishOp h
    · split
      · exact .after_finishOp h
      · next e => exact .after_finishOk (.after_putOp (OkForm.after_engWrite (.after_holdRange h) _ e))

/-! ### Instructions without a memory access (Machine/Isa.lean) -/

theorem MemForm.after_issueI {tid i k} (h : MemForm s) (hk : ∀ t, MemForm t → MemForm (k t)) : MemForm (issueI s tid i k) :=
  .after_issue h (fun _ h1 => .ite (hk _ h1) (.after_trap h1))

theorem OutForm.after_issueVal {tid i rd v} (h : MemForm s) : OutForm (issueVal s tid i rd v) :=
  .next (.after_issueI h (fun _ h1 => .after_retire h1))

theorem OutForm.after_issueAlu {op w tid rd ra rb} (h : MemForm s) : OutForm (issueAlu op w tid rd ra rb s) := .after_issueVal h

theorem OutForm.after_issueImm {op tid rd ra imm} (h : MemForm s) : OutForm (issueImm op tid rd ra imm s) := .after_issueVal h

theorem OutForm.after_execShi {tid op w rd ra sh} (h : MemForm s) : OutForm (execShi tid op w rd ra sh s) := .after_issueVal h

theorem OutForm.after_execLui {tid rd imm} (h : MemForm s) : OutForm (execLui tid rd imm s) := .after_issueVal h

theorem MemForm.after_holdVal {t rd v n} (h : MemForm s) : MemForm (holdVal s t rd v n) := .after_hold h

theorem OutForm.after_issueMul {op tid w rd ra rb} (h : MemForm s) : OutForm (issueMul op tid w rd ra rb s) :=
  .next (.after_issueI h (fun _ h1 => .ite (.after_holdVal h1) (.after_retire h1)))

theorem OutForm.after_execLix {tid rd imm} (h : MemForm s) : OutForm (execLix tid rd imm s) := .after_issueVal h

theorem OutForm.after_execLuix {tid rd imm} (h : MemForm s) : OutForm (execLuix tid rd imm s) := .after_issueVal h

theorem OutForm.after_issueExt {op tid rd ra imm} (h : MemForm s) : OutForm (issueExt op tid rd ra imm s) := .after_issueVal h

theorem OutForm.after_issueFp {op tid fmt kind sat src rd ra rb} (h : MemForm s) : OutForm (issueFp op tid fmt kind sat src rd ra rb s) :=
  .next (.after_issueI h (fun _ h1 => .ite (.after_holdVal (.after_setThread h1)) (.after_retire (.after_setThread h1))))

theorem MemForm.after_jump {t target} (h : MemForm s) : MemForm (jump s t target) := .after_setThread (.after_itrace h)

theorem OutForm.after_issueBr {op tid ra rb off} (h : MemForm s) : OutForm (issueBr op tid ra rb off s) :=
  .next (.after_issueI h (fun _ h1 => .ite (.after_jump h1) (.after_advance h1)))

theorem MemForm.after_linkJump {t rd n to_} (h : MemForm s) : MemForm (linkJump s t rd n to_) := .after_jump (.after_setThread h)

theorem OutForm.after_execJal {tid off} (h : MemForm s) : OutForm (execJal tid off s) := .next (.after_issueI h (fun _ h1 => .after_linkJump h1))

theorem OutForm.after_execJ {tid off} (h : MemForm s) : OutForm (execJ tid off s) := .next (.after_issueI h (fun _ h1 => .after_jump h1))

theorem OutForm.after_execJalr {tid rd ra imm} (h : MemForm s) : OutForm (execJalr tid rd ra imm s) :=
  .next (.after_issueI h (fun _ h1 => .ite (.after_trap h1) (.after_linkJump h1)))

theorem OutForm.after_execJalx {tid rd imm} (h : MemForm s) : OutForm (execJalx tid rd imm s) :=
  .next (.after_issueI h (fun _ h1 => .after_linkJump h1))

theorem OutForm.after_issueDjnz {i tid ra w} {off : BitVec w} (h : MemForm s) : OutForm (issueDjnz i tid ra off s) :=
  .next (.after_issueI h (fun _ h1 => .ite (.after_jump (.after_setThread h1)) (.after_advance (.after_setThread h1))))

theorem MemForm.after_checkBounds {t sgn v lo hi desc} (h : MemForm s) : MemForm (checkBounds s t sgn v lo hi desc) :=
  .ite (.after_advance h) (.after_trap h)

theorem OutForm.after_execChk {tid sgn rd ra rb} (h : MemForm s) : OutForm (execChk tid sgn rd ra rb s) :=
  .next (.after_issueI h (fun _ h1 => .after_checkBounds h1))

theorem OutForm.after_execChki {tid ra imm} (h : MemForm s) : OutForm (execChki tid ra imm s) :=
  .next (.after_issueI h (fun _ h1 => .after_checkBounds h1))

theorem MemForm.after_writeBit {t n v} (h : MemForm s) : MemForm (writeBit s t n v) :=
  .ite (.after_setThread h) (.ite (.update h) (.after_writeGlobal h))

theorem OutForm.after_issueBit {tid i bs u k} (h : MemForm s) (hk : ∀ t, MemForm t → ∀ x0, MemForm (k t x0)) :
    OutForm (issueBit s tid i bs u k) := by
  refine .next (.after_issueI h (fun _ h1 => ?_))
  dsimp only
  split
  · exact .after_trap h1
  · exact .ite (hk _ h1 _) (.after_trap h1)

theorem OutForm.after_execBset {tid bs} (h : MemForm s) : OutForm (execBset tid bs s) :=
  .after_issueBit h (fun _ h1 _ => .after_advance (.after_writeBit h1))

theorem OutForm.after_execBclr {tid bs} (h : MemForm s) : OutForm (execBclr tid bs s) :=
  .after_issueBit h (fun _ h1 _ => .after_advance (.after_writeBit h1))

theorem OutForm.after_execBtog {tid bs} (h : MemForm s) : OutForm (execBtog tid bs s) :=
  .after_issueBit h (fun _ h1 _ => .after_advance (.after_writeBit h1))

theorem OutForm.after_execBtas {tid bs bp} (h : MemForm s) : OutForm (execBtas tid bs bp s) :=
  .after_issueBit h (fun _ h1 _ => .after_advance (.after_writeBit (.after_writeBit h1)))

theorem OutForm.after_execBmovt {tid bs bp} (h : MemForm s) : OutForm (execBmovt tid bs bp s) :=
  .after_issueBit h (fun _ h1 _ => .after_advance (.after_writeBit h1))

theorem OutForm.after_execBmovf {tid bs bp} (h : MemForm s) : OutForm (execBmovf tid bs bp s) :=
  .after_issueBit h (fun _ h1 _ => .after_advance (.after_writeBit h1))

theorem OutForm.after_execBrd {tid bs rg} (h : MemForm s) : OutForm (execBrd tid bs rg s) := .after_issueBit h (fun _ h1 _ => .after_retire h1)

theorem OutForm.after_execBwr {tid bs rg} (h : MemForm s) : OutForm (execBwr tid bs rg s) :=
  .after_issueBit h (fun _ h1 _ => .after_advance (.after_writeBit h1))

theorem OutForm.after_execBlog {tid op bd ba b2} (h : MemForm s) : OutForm (execBlog tid op bd ba b2 s) :=
  .next (.after_issueI h (fun _ h1 => .after_advance (.after_writeBit h1)))

theorem OutForm.after_execSetb {tid cond bd ra rb} (h : MemForm s) : OutForm (execSetb tid cond bd ra rb s) :=
  .next (.after_issueI h (fun _ h1 => .after_advance (.after_writeBit h1)))

theorem OutForm.after_execBb {tid sense bs off} (h : MemForm s) : OutForm (execBb tid sense bs off s) :=
  .after_issueBit h (fun _ h1 _ => .ite (.after_jump h1) (.after_advance h1))

theorem MemForm.after_clearSample {t base w} (h : MemForm s) : MemForm (clearSample s t base w) :=
  .foldl (fun _ _ h1 => .ite (.after_writeBit h1) h1) h

theorem MemForm.after_waitEnd {t base clr rd w} (h : MemForm s) : MemForm (waitEnd s t base clr rd w) :=
  .after_setThread (.ite (.after_clearSample h) h)

theorem OutForm.after_execWait {tid all clr rd ra rb} (h : MemForm s) : OutForm (execWait tid all clr rd ra rb s) := by
  refine .next (.after_issueI h (fun _ h1 => .ite (.after_trap h1) ?_))
  split
  · exact .after_trap h1
  · exact .ite (.after_waitEnd h1) (.after_setThread h1)

theorem OutForm.after_execWaitSatisfied {tid} (h : MemForm s) : OutForm (execWaitSatisfied tid s) := by
  refine .next ?_
  dsimp only
  split
  · exact h
  · exact .ite (.after_waitEnd (.after_ungate h)) h

theorem OutForm.after_execWaitTimeout {tid} (h : MemForm s) : OutForm (execWaitTimeout tid s) := by
  refine .next ?_
  dsimp only
  split
  · exact h
  · split
    · exact h
    · exact .ite (.after_waitEnd (.after_latchWake (.after_reach h))) (.after_waitEnd (.after_latchWake (.after_reach h)))

theorem MemForm.after_sysRead {t n} (h : MemForm s) : MemForm (sysRead s t n).2 := by
  unfold sysRead
  dsimp only
  split
  · exact h
  · exact h
  · exact h
  · exact .ite_snd h (.after_drawDword h)
  · exact h
  · exact h
  · exact h
  · exact h
  · exact h
  · exact h
  · exact h
  · exact h
  · exact h
  · exact h
  · exact h
  · exact h
  · exact h
  · exact h
  · exact h
  · exact h
  · exact h
  · exact h
  · exact h
  · exact h
  · exact h
  · exact h

theorem OutForm.after_execMfs {tid rd n} (h : MemForm s) : OutForm (execMfs tid rd n s) := by
  refine .next (.after_issueI h (fun _ h1 => ?_))
  split
  · next e => exact .after_retire (.snd_of_eq (.after_sysRead h1) e)
  · next e => exact .after_trap (.snd_of_eq (.after_sysRead h1) e)

theorem MemForm.after_tctl {t v i} (h : MemForm s) : MemForm (tctl s t v i) := by
  exact .ite (.after_trap h) (.ite (.after_trap h) (.ite (.ite (.after_trap h) (.after_startThread (.after_advance h))) (.ite
    (.after_resetThread h) (.after_resetThread (.after_advance h)))))

theorem MemForm.after_paneInv {t v} (h : MemForm s) : MemForm (paneInv s t v) := .after_advance (.update h)

theorem MemForm.after_sysWrite {t n v i} (h : MemForm s) : MemForm (sysWrite s t n v i) := by
  refine .ite (.after_tctl h) (.ite (.after_setBay (.after_advance h)) (.ite (.after_paneInv h) (.ite (.after_setBay (.after_advance h))
    (.ite (.after_trap h) ?_))))
  split
  · exact .after_advance (.after_setThread h)
  · exact .after_trap h

theorem OutForm.after_execMts {tid ra n} (h : MemForm s) : OutForm (execMts tid ra n s) :=
  .next (.after_issueI h (fun _ h1 => .after_sysWrite h1))

theorem OutForm.after_execTctlStart {tid ra} (h : MemForm s) : OutForm (execTctlStart tid ra s) :=
  .next (.after_issueI h (fun _ h1 => .ite (.after_tctl h1) h1))

theorem OutForm.after_execTctlReset {tid ra} (h : MemForm s) : OutForm (execTctlReset tid ra s) :=
  .next (.after_issueI h (fun _ h1 => .ite (.after_tctl h1) h1))

theorem OutForm.after_execPaneInv {tid ra} (h : MemForm s) : OutForm (execPaneInv tid ra s) :=
  .next (.after_issueI h (fun _ h1 => .after_paneInv h1))

theorem OutForm.after_issueFence {k tid} (h : MemForm s) : OutForm (issueFence k tid s) :=
  .next (.after_issueI h (fun _ h1 => .ite (.after_hold h1) (.after_advance h1)))

theorem OutForm.after_execSwtrap {tid n} (h : MemForm s) : OutForm (execSwtrap tid n s) := .next (.after_issueI h (fun _ h1 => .after_trapAt h1))

theorem OutForm.after_execBrk {tid} (h : MemForm s) : OutForm (execBrk tid s) := .next (.after_issueI h (fun _ h1 => .after_trap h1))

theorem OutForm.after_execEret {tid} (h : MemForm s) : OutForm (execEret tid s) :=
  .next (.after_issueI h (fun _ h1 => .ite (.after_trap h1) (.ite (.after_trap h1) (.after_setThread (.after_itrace h1)))))

theorem OutForm.after_execIllegalInstruction {tid w0 w1} (h : MemForm s) : OutForm (execIllegalInstruction tid w0 w1 s) := by
  refine .next (.after_issue h (fun _ h1 => ?_))
  split
  · exact .after_trap h1
  · exact .ite (.ite (.after_trap h1) (.after_trap h1)) h1
  · exact h1

theorem OutForm.after_execNoCoprocessorFitted {tid ver rd rb func} (h : MemForm s) : OutForm (execNoCoprocessorFitted tid ver rd rb func s) :=
  .next (.after_issueI h (fun _ h1 => .after_trap h1))

theorem OutForm.after_execInterruptTaken {tid} (h : MemForm s) : OutForm (execInterruptTaken tid s) := by
  refine .next (.ite ?_ h)
  split
  · exact .after_takeInt (.after_ungate h)
  · exact h

theorem OutForm.after_execTdeadlineExpiry {tid} (h : MemForm s) : OutForm (execTdeadlineExpiry tid s) :=
  .next (.ite h (.ite (.after_latchWake (.after_reach h)) (.after_reach h)))

end

end Sys2Proof.Machine
end

section
/-! PROOFS. The form of memory is kept by the eave switch (09), Nawyn
links and fabric time (11). -/

namespace Sys2Proof.Machine

section
variable {s : State}

/-! ### The eave switch (Machine/Switch.lean) -/

theorem MemForm.after_ecnDraw (h : MemForm s) : MemForm (ecnDraw s).2 := .ite_snd (.after_bump (.after_drawBit h)) (.after_drawBit h)

theorem MemForm.after_setPfc {p q x} (h : MemForm s) : MemForm (setPfc s p q x) := .update h

theorem MemForm.after_pfcSettle {p q} (h : MemForm s) : MemForm (pfcSettle s p q) :=
  .ite h (.ite (.after_emit (.after_setPfc h)) (.ite (.after_emit (.after_setPfc h)) h))

theorem MemForm.after_frameSend {o} (h : MemForm s) : MemForm (frameSend s o) := by
  unfold frameSend
  split
  · exact .after_emit h
  · exact .after_emit (.after_ecnDraw h)

theorem MemForm.after_egressFlush {p q} (h : MemForm s) : MemForm (egressFlush s p q) :=
  .ite h (.ite (.after_bumpN (.update h)) (.foldl (fun _ _ h1 => .after_frameSend h1) (.update h)))

theorem MemForm.after_egressDue (h : MemForm s) : MemForm (egressDue s) := .foldl (fun _ _ h1 => .after_egressFlush h1) h

theorem MemForm.after_egressOut {p q o} (h : MemForm s) : MemForm (egressOut s p q o) := .ite h (.after_egressFlush (.update h))

theorem MemForm.after_frameOut {p q f} (h : MemForm s) : MemForm (frameOut s p q f) := .after_egressOut h

theorem MemForm.after_setFdb {t} (h : MemForm s) : MemForm (setFdb s t) := .update h

theorem MemForm.after_learnAsk {ts port key} (h : MemForm s) : MemForm (learnAsk s ts port key) := .update h

theorem MemForm.after_learnNew {port key} (h : MemForm s) : MemForm (learnNew s port key) := by
  refine .ite (.ite (.after_raiseT (.update (.after_bump ?_))) (.after_bump ?_)) (.after_setFdb ?_) <;>
  exact .ite_snd (.after_drawBit h) h

theorem MemForm.after_learnMove {ts port key e} (h : MemForm s) : MemForm (learnMove s ts port key e) := by
  unfold learnMove
  dsimp only
  split <;> exact .after_raiseT (.after_bump (.after_setFdb h))

theorem MemForm.after_learnApply {ts port key} (h : MemForm s) : MemForm (learnApply s ts port key) := by
  unfold learnApply
  split
  · exact .after_bump h
  · split
    · exact .after_learnNew h
    · exact .ite (.after_setFdb h) (.ite (.after_bump h) (.ite (.after_bump h) (.after_learnMove h)))

theorem OutForm.after_execLearn (h : MemForm s) : OutForm (execLearn s) := by
  refine .next ?_
  split
  · exact h
  · exact .after_learnApply (.update h)

theorem OutForm.after_execEntryAgeing {vlan mac} (h : MemForm s) : OutForm (execEntryAgeing vlan mac s) := by
  refine .next ?_
  dsimp only
  split
  · exact h
  · exact .ite h (.after_setFdb (.after_reach h))

theorem MemForm.after_trussWrite {req k} (h : MemForm s) (hk : ∀ t, MemForm t → MemForm (k t)) : MemForm (trussWrite s req k) :=
  .after_gated h (fun _ h1 => .ite (hk _ h1) (.after_bump h1))

theorem MemForm.after_fdbStat {st} (h : MemForm s) : MemForm (fdbStat s st) := .after_setF (.after_setF h)

theorem OutForm.after_execFdbAddStatic {req vlan} (h : MemForm s) : OutForm (execFdbAddStatic req vlan s) :=
  .next (.after_trussWrite h (fun _ h1 => .ite (.after_fdbStat h1) (.ite (.after_fdbStat h1) (.after_fdbStat (.after_setFdb h1)))))

theorem OutForm.after_execFdbDelete {req vlan} (h : MemForm s) : OutForm (execFdbDelete req vlan s) :=
  .next (.after_trussWrite h (fun _ h1 => .ite (.after_fdbStat h1) (.after_fdbStat (.after_setFdb h1))))

theorem OutForm.after_execFdbLookup {req vlan} (h : MemForm s) : OutForm (execFdbLookup req vlan s) := by
  refine .next (.after_trussWrite h (fun _ h1 => ?_))
  dsimp only
  split
  · exact .after_fdbStat h1
  · exact .after_fdbStat (.after_setF (.after_setF (.after_setF h1)))

theorem OutForm.after_execFdbClearFlap {req vlan} (h : MemForm s) : OutForm (execFdbClearFlap req vlan s) := by
  refine .next (.after_trussWrite h (fun _ h1 => ?_))
  dsimp only
  split
  · exact .after_fdbStat h1
  · exact .after_fdbStat (.after_setFdb h1)

theorem OutForm.after_execFdbFlush {req} (h : MemForm s) : OutForm (execFdbFlush req s) :=
  .next (.after_trussWrite h (fun _ h1 => .after_fdbStat (.after_setFdb h1)))

theorem MemForm.after_limitWake {d} (h : MemForm s) : MemForm (limitWake s d) := .ite (.after_latchWake h) h

theorem OutForm.after_execLinkUp {port} (h : MemForm s) : OutForm (execLinkUp port s) :=
  .next (.ite h (.after_poolsSettle (.after_limitWake (.after_limitWake (.after_limitWake (.after_raiseD (.update h)))))))

theorem OutForm.after_execLinkDown {port} (h : MemForm s) : OutForm (execLinkDown port s) :=
  .next (.ite h (.after_poolsSettle (.after_raiseD (.update (.update h)))))

/-! ### Nawyn links (Machine/NawynLink.lean) -/

theorem MemForm.after_emitFlit {l ftype tc som eom seq payload} (h : MemForm s) : MemForm (emitFlit s l ftype tc som eom seq payload) :=
  .after_emit (.after_bump (.after_setLink h))

theorem MemForm.after_idleFlit {l} (h : MemForm s) : MemForm (idleFlit s l) := .after_emitFlit h

theorem MemForm.after_timeFlitOut {l} (h : MemForm s) : MemForm (timeFlitOut s l) := .after_emitFlit h

theorem SomeForm.after_pumpOnce {l} (h : MemForm s) : SomeForm id (pumpOnce s l) := by
  unfold pumpOnce
  dsimp only
  split
  · exact .none
  · exact .ite .none (.some (.after_emitFlit (.after_setLink h)))

theorem MemForm.after_pumpMany {l n} (h : MemForm s) : MemForm (pumpMany l n s) := by
  induction n generalizing s with
  | zero => exact h
  | succ n ih =>
    unfold pumpMany
    split
    · next e => exact ih (SomeForm.after_pumpOnce h _ e)
    · exact h

theorem MemForm.after_pumpLink {l} (h : MemForm s) : MemForm (pumpLink s l) := .ite (.after_pumpMany h) h

theorem MemForm.after_resendFlits {l fs} (h : MemForm s) : MemForm (resendFlits s l fs) := .foldl (fun _ _ h1 => .after_emitFlit h1) h

theorem MemForm.after_replayFrom {l fs} (h : MemForm s) : MemForm (replayFrom s l fs) :=
  .ite h (.ite (.after_setF (.after_setLink h)) (.after_resendFlits (.after_bump (.after_setLink h))))

theorem MemForm.after_opGone {n status} (h : MemForm s) : MemForm (opGone s n status) := by
  unfold opGone
  split
  · exact h
  · split
    · exact .after_finishOp (.after_loftLost h)
    · exact .after_finishOp (.ite (.after_bump h) h)

theorem MemForm.after_copyFail {ext group} (h : MemForm s) : MemForm (copyFail s ext group) := by
  unfold copyFail
  split
  · exact h
  · exact .update h

theorem MemForm.after_dropRead {tag} (h : MemForm s) : MemForm (dropRead s tag) := .update h

theorem MemForm.after_copyReadGone {m ext group} (h : MemForm s) : MemForm (copyReadGone s m ext group) := by
  refine .after_copyFail ?_
  split
  · exact .update (.after_dropRead h)
  · exact .after_dropRead h

theorem MemForm.after_undeliver {tc hdr reason} (h : MemForm s) : MemForm (undeliver s tc hdr reason) :=
  .ite (.after_bump h) (.after_sendOwn (.after_bump h))

theorem MemForm.after_dropWaiting {m status} (h : MemForm s) : MemForm (dropWaiting s m status) := by
  unfold dropWaiting
  split
  · exact .after_opGone h
  · exact .ite (.ite (.after_undeliver h) (.after_postedFail (.after_undeliver h))) (.ite (.after_answerThread (.after_dropRead h))
      (.after_postedFail h))
  · exact .after_copyReadGone h
  · exact .after_finishOp h
  · exact .after_loftLost h
  · exact .after_undeliver h

theorem MemForm.after_lostMsg {m} (h : MemForm s) : MemForm (lostMsg s m) := by
  unfold lostMsg
  dsimp only
  split
  · exact .ite h (.after_opGone h)
  · exact .ite h (.after_postedFail h)
  · exact .after_copyReadGone h
  · exact .after_opGone h
  · exact .after_loftLost h
  · exact h

theorem MemForm.after_commitMsg {m} (h : MemForm s) : MemForm (commitMsg s m) := by
  unfold commitMsg
  split
  · split
    · exact h
    · exact .ite h (.after_finishOk h)
  · exact .ite h (.after_postedDone h)
  · split
    · exact .update h
    · exact h
  · exact h

theorem MemForm.after_ackEffects {l fa} (h : MemForm s) : MemForm (ackEffects s l fa) :=
  .after_pumpLink (.foldl (fun _ _ h1 => .after_commitMsg h1) (.after_setLink h))

theorem MemForm.after_nakOnce {l} (h : MemForm s) : MemForm (nakOnce s l) := .ite h (.after_emitFlit (.after_setLink h))

theorem OutForm.after_execLinkAckReceived {link hd} (h : MemForm s) : OutForm (execLinkAckReceived link hd s) :=
  .next (.ite (.after_ackEffects (.after_bump h)) h)

theorem OutForm.after_execNakFlit {link hd seq} (h : MemForm s) : OutForm (execNakFlit link hd seq s) :=
  .next (.ite (.after_replayFrom (.after_ackEffects (.after_bump h))) h)

theorem OutForm.after_execReplayTimeout {link} (h : MemForm s) : OutForm (execReplayTimeout link s) :=
  .next (.ite (.after_replayFrom (.after_reach h)) h)

theorem OutForm.after_execBadFlit {link how seq} (h : MemForm s) : OutForm (execBadFlit link how seq s) :=
  .next (.ite h (.ite (.after_nakOnce (.after_bump (.after_bump h))) (.ite (.after_nakOnce (.after_bump h)) (.after_bump h))))

theorem MemForm.after_rerouteAll {l} (h : MemForm s) : MemForm (rerouteAll s l) :=
  .foldl (fun _ _ h1 => .ite (.after_dropWaiting (.ite (.after_bump h1) h1)) (.ite (.after_bump h1) h1)) (.update h)

theorem MemForm.after_linkDown {l final} (h : MemForm s) : MemForm (linkDown s l final) := by
  refine .ite ?_ (.after_poolsSettle (.after_holdover (.after_raiseD (.after_rerouteAll (.foldl (fun _ _ h1 => .after_lostMsg h1) ?_)))))
    <;>
  exact .after_setF (.after_setLink h)

theorem MemForm.after_trainFail {l} (h : MemForm s) : MemForm (trainFail s l) := .after_setF (.after_bump h)

theorem MemForm.after_nawynWrite {req k} (h : MemForm s) (hk : ∀ t, MemForm t → MemForm (k t)) : MemForm (nawynWrite s req k) :=
  .after_gated h (fun _ h1 => .ite (hk _ h1) (.after_bump h1))

theorem MemForm.after_linkCfgWrite {req l v} (h : MemForm s) : MemForm (linkCfgWrite s req l v) := by
  refine .after_nawynWrite h (fun _ h1 => .ite (.after_linkDown (.ite (.after_setF ?_) ?_)) (.ite (.after_setF (.ite (.after_setF ?_) ?_))
    (.ite (.after_setF ?_) ?_))) <;>
  exact .after_setF (.after_setF (.ite (.after_setF h1) (.after_setF (.after_setF h1))))

theorem OutForm.after_execNawynLinkEnable {req link v} (h : MemForm s) : OutForm (execNawynLinkEnable req link v s) :=
  .next (.after_linkCfgWrite h)

theorem OutForm.after_execNawynLinkDisable {req link v} (h : MemForm s) : OutForm (execNawynLinkDisable req link v s) :=
  .next (.after_linkCfgWrite h)

theorem OutForm.after_execNawynDetectRetry {link} (h : MemForm s) : OutForm (execNawynDetectRetry link s) := .next (.ite (.after_setF h) h)

theorem OutForm.after_execNawynPeerDetected {link} (h : MemForm s) : OutForm (execNawynPeerDetected link s) := .next (.ite (.after_setF h) h)

theorem OutForm.after_execNawynAlignDone {link lanes} (h : MemForm s) : OutForm (execNawynAlignDone link lanes s) := by
  refine .next (.ite h ?_)
  split
  · exact .after_trainFail h
  · exact .after_setF (.after_setF h)

theorem MemForm.after_sweepOversize {l} (h : MemForm s) : MemForm (sweepOversize s l) :=
  .foldl (fun _ _ h1 => .after_dropWaiting (.after_bump h1)) (.update h)

theorem MemForm.after_linkIsUp {l peer} (h : MemForm s) : MemForm (linkIsUp s l peer) :=
  .after_poolsSettle (.after_limitWake (.after_timeFlitOut (.after_raiseD (.after_setF h))))

theorem OutForm.after_execNawynExchange {link peer peerHalf credits _schedId _armAt ok} (h : MemForm s) :
    OutForm (execNawynExchange link peer peerHalf credits _schedId _armAt ok s) := by
  refine .next (.ite h (.ite (.after_trainFail h) (.after_sweepOversize (.after_linkIsUp (.ite (.after_raiseD ?_) ?_))))) <;>
  exact .after_setF (.after_setF (.after_setF (.after_setLink h)))

theorem OutForm.after_execLaneLockLoss {link} (h : MemForm s) : OutForm (execLaneLockLoss link s) := .next (.ite (.after_setF h) h)

theorem MemForm.after_retrainFail {l} (h : MemForm s) : MemForm (retrainFail s l) := by
  refine .ite (.ite (.after_setF (.after_linkDown ?_)) (.after_linkDown ?_)) ?_ <;>
  exact .after_bump (.after_setLink h)

theorem OutForm.after_execNawynRetrainDone {link lanes ok} (h : MemForm s) : OutForm (execNawynRetrainDone link lanes ok s) := by
  refine .next (.ite h ?_)
  split
  · exact .after_retrainFail h
  · exact .after_pumpLink (.after_sweepOversize (.after_poolsSettle (.after_setLink (.after_setF (.after_setF h)))))

/-! ### Time that passes (Machine/Time.lean) -/

theorem MemForm.after_tick (h : MemForm s) : MemForm (tick s) := .ite (.update h) (.update h)

theorem MemForm.after_idle (h : MemForm s) : MemForm (idle s) := .after_egressDue (.after_tick h)

/-! ### Timestamps and course schedules (Machine/NawynTime.lean) -/

theorem MemForm.after_timeStep {n} (h : MemForm s) : MemForm (timeStep s n) := .after_bump (.after_raiseD (.update h))

theorem MemForm.after_applyCorr {off measured} (h : MemForm s) : MemForm (applyCorr s off measured) :=
  .ite (.after_timeStep (.update h)) (.update h)

theorem OutForm.after_execTimeOfsWrite {req v} (h : MemForm s) : OutForm (execTimeOfsWrite req v s) :=
  .next (.after_nawynWrite h (fun _ h1 => .after_applyCorr h1))

theorem MemForm.after_takeOffset {off2} (h : MemForm s) : MemForm (takeOffset s off2) := by
  refine .ite (.ite (.after_raiseD (.after_setF ?_)) (.after_setF ?_)) (.ite (.after_setF ?_) ?_) <;>
  exact .after_applyCorr (.update (.after_setF h))

theorem MemForm.after_timeMeasure {l tTx tRxPrev tTxPrev} (h : MemForm s) : MemForm (timeMeasure s l tTx tRxPrev tTxPrev) :=
  .ite h (.ite (.after_takeOffset (.after_setF h)) (.after_setF h))

theorem MemForm.after_mismatchEvent {l own peer ended} (h : MemForm s) : MemForm (mismatchEvent s l own peer ended) := .after_raiseD h

theorem MemForm.after_courseCompare {l schedId armAt} (h : MemForm s) : MemForm (courseCompare s l schedId armAt) := by
  unfold courseCompare
  dsimp only
  split
  · exact h
  · refine .ite ?_ ?_ <;>
    exact .ite (.after_mismatchEvent (.after_setF (.after_setLink h))) (.after_setLink h)

theorem OutForm.after_execTimeFlit {link hd tTx tRxPrev tTxPrev schedId armAt} (h : MemForm s) :
    OutForm (execTimeFlit link hd tTx tRxPrev tTxPrev schedId armAt s) :=
  .next (.ite h (.after_courseCompare (.after_timeMeasure (.after_setLink (.after_ackEffects (.after_bump h))))))

theorem OutForm.after_execTimeFlitTick {link} (h : MemForm s) : OutForm (execTimeFlitTick link s) := .next (.ite (.after_timeFlitOut h) h)

theorem OutForm.after_execPtpTimestamp {port tx msgType seqId} (h : MemForm s) : OutForm (execPtpTimestamp port tx msgType seqId s) :=
  .next (.ite h (.ite (.after_bump h) (.update h)))

theorem MemForm.after_ptpPop (h : MemForm s) : MemForm (ptpPop s).2 := by
  unfold ptpPop
  split
  · exact h
  · exact .update h

theorem OutForm.after_execPtpTimeRead {req} (h : MemForm s) : OutForm (execPtpTimeRead req s) :=
  .next (.after_gatedRead h (fun _ h1 => .after_ptpPop h1))

theorem OutForm.after_execLateMaxRead {req link} (h : MemForm s) : OutForm (execLateMaxRead req link s) :=
  .next (.after_gatedRead h (fun _ h1 => .after_setF h1))

theorem OutForm.after_execCourseArm {req link} (h : MemForm s) : OutForm (execCourseArm req link s) :=
  .next (.after_nawynWrite h (fun _ h1 => .ite (.after_setF h1) (.ite (.after_setF h1) (.after_setF (.after_setLink h1)))))

theorem MemForm.after_clearLate {l id} (h : MemForm s) : MemForm (clearLate s l id) := .update h

theorem MemForm.after_courseStart {l c} (h : MemForm s) : MemForm (courseStart s l c) :=
  .after_raiseD (.after_setF (.after_setF (.after_setF (.after_setLink (.ite h (.after_clearLate h))))))

theorem MemForm.after_courseEnd {l} (h : MemForm s) : MemForm (courseEnd s l) := .after_setF (.after_setF (.after_setF (.after_setLink h)))

theorem OutForm.after_execCourseActivation {link} (h : MemForm s) : OutForm (execCourseActivation link s) := by
  refine .next ?_
  split
  · exact h
  · refine .ite (.after_courseEnd ?_) (.after_courseStart ?_) <;>
    exact .after_setF (.after_setLink (.after_reach h))

theorem MemForm.after_takeWaiting {m} (h : MemForm s) : MemForm (takeWaiting s m) := .update h

theorem OkForm.after_startPayload {m host} (h : MemForm s) : OkForm Prod.snd (startPayload s m host) := by
  unfold startPayload
  split
  · split
    · exact .ok h
    · split
      · exact .error
      · exact .ok (.after_holdRange h)
  · exact .ok h

theorem MemForm.after_startLocal {m host} (h : MemForm s) : MemForm (startLocal s m host) := by
  unfold startLocal
  dsimp only
  split
  · exact .after_finishOp (.after_takeWaiting h)
  · exact .after_takeWaiting h
  · next e => exact .after_commitMsg (.update (OkForm.after_startPayload (.after_takeWaiting h) _ e))

theorem MemForm.after_startOn {l m crs host} (h : MemForm s) : MemForm (startOn s l m crs host) := by
  unfold startOn
  dsimp only
  split
  · exact .after_finishOp (.after_takeWaiting h)
  · exact .after_takeWaiting h
  · next e => exact .after_pumpLink (.after_setLink (OkForm.after_startPayload (.after_takeWaiting h) _ e))

theorem MemForm.after_deferMsg {l m} (h : MemForm s) : MemForm (deferMsg s l m) := .ite h (.after_bump (.update h))

theorem MemForm.after_tryStart {l m host} (h : MemForm s) : MemForm (tryStart s l m host) := by
  unfold tryStart
  split
  · exact h
  · refine .ite (.after_deferMsg h) (.ite (.after_startOn h) ?_)
    split
    · exact h
    · exact .after_startOn (.after_setLink h)

theorem OutForm.after_execMessageStart {link tc host} (h : MemForm s) : OutForm (execMessageStart link tc host s) := by
  refine .next ?_
  split
  · exact h
  · exact .ite (.after_startLocal h) (.ite h (.after_tryStart h))

theorem MemForm.after_lateSample {l w src id start late} (h : MemForm s) : MemForm (lateSample s l w src id start late) := by
  refine .ite ?_ (.ite (.after_raiseD (.after_setLink (.after_bump ?_))) (.after_bump ?_)) <;>
  exact .after_offer (.update (.ite (.after_setF h) h))

theorem MemForm.after_measureLate {l tc crs src} (h : MemForm s) : MemForm (measureLate s l tc crs src) := by
  unfold measureLate
  dsimp only
  split
  · split
    · exact h
    · exact .ite h (.ite h (.after_lateSample (.after_setLink h)))
  · exact h

theorem OutForm.after_execWindowInstanceEnd {link w k} (h : MemForm s) : OutForm (execWindowInstanceEnd link w k s) := by
  refine .next ?_
  dsimp only
  split
  · exact h
  · split
    · exact h
    · exact .ite h (.ite (.after_setLink (.after_reach h)) (.update (.after_bump (.after_setLink (.after_reach h)))))

/-! ### Messages that arrive (Machine/NawynMsg.lean) -/

theorem MemForm.after_takeFlits {m n} (h : MemForm s) : MemForm (takeFlits s m n) :=
  .after_idleFlit (.after_measureLate (.after_ackEffects (.after_setLink (.after_bumpN (.after_bumpN h)))))

theorem MemForm.after_dropArrived {m mtype len reason} (h : MemForm s) : MemForm (dropArrived s m mtype len reason) := .ite h (.after_undeliver h)

theorem MemForm.after_forwardMsg {m mtype payload} (h : MemForm s) : MemForm (forwardMsg s m mtype payload) := by
  refine .ite (.after_dropArrived h) ?_
  split
  · exact .after_dropArrived h
  · exact .ite (.after_dropArrived (.after_bump h)) (.after_enqueueMsg h)

theorem MemForm.after_nawynArrive {m mtype payload k} (h : MemForm s) (hk : ∀ t, MemForm t → MemForm (k t)) :
    MemForm (nawynArrive s m mtype payload k) := by
  refine .ite ?_ (.ite h (.ite (hk _ (.after_takeFlits h)) (.ite (.after_takeFlits h) (.ite (hk _ (.after_takeFlits h)) (.after_forwardMsg
    (.after_takeFlits h))))))
  split
  · exact h
  · exact hk _ (.update h)

theorem MemForm.after_replyMsg {m mtype status arg data} (h : MemForm s) : MemForm (replyMsg s m mtype status arg data) :=
  .ite (.ite (.after_sendLocal h) h) (.after_sendOwn h)

theorem MemForm.after_wakeSram {a} (h : MemForm s) : MemForm (wakeSram s a) := .ite (.after_latchWake h) h

theorem OutForm.after_execNawynWrite {m payload} (h : MemForm s) : OutForm (execNawynWrite m payload s) := by
  refine .next (.after_nawynArrive h (fun _ h1 => ?_))
  split
  · exact .after_dropArrived (.after_bump h1)
  · exact .after_writeBytes (.after_wakeSram (.after_touchPurlin h1))

theorem OutForm.after_execNawynReadReq {m _host failed} (h : MemForm s) : OutForm (execNawynReadReq m _host failed s) := by
  refine .next (.after_nawynArrive h (fun _ h1 => ?_))
  dsimp only
  split
  · exact .after_replyMsg (.after_bump h1)
  · exact .ite (.after_replyMsg (.after_wakeSram (.after_touchPurlin h1))) (.after_replyMsg (.after_wakeSram (.after_touchPurlin h1)))

theorem MemForm.after_rxDropEvent {q src} (h : MemForm s) : MemForm (rxDropEvent s q src) :=
  .ite (.ite (.after_raiseR (.update h)) (.after_raiseD (.update h))) h

theorem MemForm.after_nrecv {m mtype q bs} (h : MemForm s) : MemForm (nrecv s m mtype q bs) := by
  unfold nrecv
  dsimp only
  split
  · exact .after_dropArrived (.after_rxDropEvent (.after_bump (.after_latchWake h)))
  · refine .ite (.after_finishOp (.after_latchWake h)) ?_
    split
    · exact .after_finishOp (.after_latchWake h)
    · next e => exact .after_finishOk (.after_putOp (OkForm.after_engWrite (.after_latchWake h) _ e))

theorem OutForm.after_execNawynSend {m payload} (h : MemForm s) : OutForm (execNawynSend m payload s) :=
  .next (.after_nawynArrive h (fun _ h1 => .after_nrecv h1))

theorem OutForm.after_execPacketMessage {m payload} (h : MemForm s) : OutForm (execPacketMessage m payload s) :=
  .next (.after_nawynArrive h (fun _ h1 => .after_nrecv h1))

theorem MemForm.after_copyReadEnds {tag} (h : MemForm s) : MemForm (copyReadEnds s tag) := by
  unfold copyReadEnds
  split
  · exact .update h
  · exact h

theorem MemForm.after_readFails {tag r status threadSt} (h : MemForm s) : MemForm (readFails s tag r status threadSt) := by
  unfold readFails
  dsimp only
  split
  · exact .after_finishOp (.after_dropRead h)
  · exact .after_answerThread (.after_dropRead h)
  · exact .after_copyFail (.after_copyReadEnds (.after_dropRead h))
  · exact .after_dropRead h

theorem MemForm.after_readEnds {tag r bs} (h : MemForm s) : MemForm (readEnds s tag r bs) := by
  unfold readEnds
  dsimp only
  split
  · split
    · exact .after_dropRead h
    · split
      · exact .after_finishOp (.after_dropRead h)
      · next e => exact .after_finishOk (.after_putOp (OkForm.after_engWrite (.after_dropRead h) _ e))
  · exact .after_answerThread (.after_dropRead h)
  · exact .after_copyReadEnds (.after_writeBytes (.after_dropRead h))
  · exact .after_dropRead h

theorem OutForm.after_execNawynReadResp {m payload} (h : MemForm s) : OutForm (execNawynReadResp m payload s) := by
  refine .next (.after_nawynArrive h (fun _ h1 => ?_))
  split
  · exact .after_bump h1
  · exact .ite (.after_bump h1) (.ite (.after_readFails h1) (.after_readEnds h1))

theorem OutForm.after_execReadTimeout {tag} (h : MemForm s) : OutForm (execReadTimeout tag s) := by
  refine .next ?_
  split
  · exact h
  · exact .after_readFails (.after_reach h)

theorem OutForm.after_execUndelivered {m dropped} (h : MemForm s) : OutForm (execUndelivered m dropped s) :=
  .next (.after_nawynArrive h (fun _ h1 => .after_raiseD h1))

theorem OutForm.after_execBootMessage {m payload} (h : MemForm s) : OutForm (execBootMessage m payload s) := by
  refine .next (.after_nawynArrive h (fun _ h1 => ?_))
  split
  · exact h1
  · exact .ite (.after_mbxArrive (.after_setAttempt h1)) h1

theorem OutForm.after_execNawynBadMtype {m mtype payload} (h : MemForm s) : OutForm (execNawynBadMtype m mtype payload s) :=
  .next (.ite h (.after_nawynArrive h (fun _ h1 => .after_dropArrived (.after_bump h1))))

theorem MemForm.after_takeTag (h : MemForm s) : MemForm (takeTag s).2 := .update h

theorem OkForm.after_sendRead {src node tc off len laddr} (h : MemForm s) : OkForm id (sendRead s src node tc off len laddr) := by
  unfold sendRead
  dsimp only
  split
  · exact .error
  · next e => exact .ok (.update (OkForm.after_sendNode (.after_takeTag h) _ e))
theorem ErrForm.after_sendRead {src node tc off len laddr} (h : MemForm s) : ErrForm Prod.snd (sendRead s src node tc off len laddr) := by
  unfold sendRead
  dsimp only
  split
  · next e => exact .error (ErrForm.after_sendNode (.after_takeTag h) _ e)
  · exact .ok

theorem MemForm.after_nStart {n} (h : MemForm s) : MemForm (nStart s n) := by
  unfold nStart
  split
  · exact h
  · extract_lets payload t r
    have hok : OkForm id r := by
      dsimp only [r]
      split
      · exact .after_sendNode (.after_takeTag h)
      · exact .after_sendNode (.after_takeTag h)
      · exact .after_sendRead h
      · exact .ok h
    have herr : ErrForm Prod.snd r := by
      dsimp only [r]
      split
      · exact .after_sendNode (.after_takeTag h)
      · exact .after_sendNode (.after_takeTag h)
      · exact .after_sendRead h
      · exact .ok
    clear_value r
    cases r with
    | ok u => exact hok u rfl
    | error e => exact .after_finishOp (herr e rfl)

theorem MemForm.after_threadOversize {node tc mtype off len} (h : MemForm s) : MemForm (threadOversize s node tc mtype off len) :=
  .after_undeliver h

theorem OkForm.after_nawynLoad {t a len} (h : MemForm s) : OkForm id (nawynLoad s t a len) := by
  unfold nawynLoad
  dsimp only
  split
  · next e => exact .ok (OkForm.after_sendRead h _ e)
  · next e => exact .ite (.ok (.after_threadOversize (.update (.after_takeTag (ErrForm.after_sendRead h _ e))))) .error

theorem MemForm.after_nawynStore {t a bs} (h : MemForm s) : MemForm (nawynStore s t a bs).1 := by
  unfold nawynStore
  dsimp only
  split
  · next e => exact OkForm.after_sendNode (.after_takeTag h) _ e
  · next e =>
      exact .ite (.after_threadOversize (ErrForm.after_sendNode (.after_takeTag h) _ e)) (ErrForm.after_sendNode (.after_takeTag h) _ e)

end

end Sys2Proof.Machine
end

section
/-! PROOFS. The form of memory is kept by Truss (09), the sender of the
eave transport (10) and the Underlay (13). -/

namespace Sys2Proof.Machine

section
variable {s : State}

/-! ### Parsing, rules and rings of Truss (Machine/Truss.lean) -/

theorem MemForm.after_putCopy {n c} (h : MemForm s) : MemForm (putCopy s n c) := .update h

theorem MemForm.after_dropCopy {n c} (h : MemForm s) : MemForm (dropCopy s n c) := .after_pfcSettle (.update h)

theorem MemForm.after_rxNoBuf {ring} (h : MemForm s) : MemForm (rxNoBuf s ring) := .ite (.after_raiseR (.update (.after_bump h))) (.after_bump h)

theorem MemForm.after_rxWhole {n o c cls hash bs} (h : MemForm s) : MemForm (rxWhole s n o c cls hash bs) := by
  refine .ite (.after_finishOp h) ?_
  split
  · exact .after_finishOp h
  · next e => exact .after_finishOp (.after_putOp (OkForm.after_engWrite h _ e))

theorem MemForm.after_rxSplit {n o c hash e} (h : MemForm s) : MemForm (rxSplit s n o c hash e) := by
  refine .ite (.after_finishOp h) ?_
  split
  · exact .after_finishOp h
  · split
    · exact .after_finishOp h
    · next e =>
        split
        · exact .after_finishOp (OkForm.after_engWrite h _ e)
        · next e1 => exact .after_finishOp (.after_putOp (OkForm.after_engWrite (OkForm.after_engWrite h _ e) _ e1))

theorem MemForm.after_rxDeliver {c ring cls hash pend} (h : MemForm s) : MemForm (rxDeliver s c ring cls hash pend) := by
  unfold rxDeliver
  dsimp only
  split
  · exact .after_rxNoBuf (.after_latchWake h)
  · split
    · exact .ite (.after_rxSplit (.after_latchWake h)) (.after_rxWhole (.after_latchWake h))
    · exact .after_rxWhole (.after_latchWake h)
    · exact .after_rxWhole (.after_latchWake h)

theorem MemForm.after_mirrorCopy {c cls} (h : MemForm s) : MemForm (mirrorCopy s c cls) := .after_offer h

theorem MemForm.after_toDefault {c hash} (h : MemForm s) : MemForm (toDefault s c hash) := .after_rxDeliver h

theorem MemForm.after_steerDenied {c hash} (h : MemForm s) : MemForm (steerDenied s c hash) := .after_toDefault (.after_bump h)

theorem MemForm.after_toRing {c ring hash} (h : MemForm s) : MemForm (toRing s c ring hash) := .ite (.after_rxDeliver h) (.after_steerDenied h)

theorem MemForm.after_spreadHash {c t} (h : MemForm s) : MemForm (spreadHash s c t).2 := .ite_snd (.after_drawDword h) h

theorem MemForm.after_packetStart {n} (h : MemForm s) : MemForm (packetStart s n) := by
  unfold packetStart
  split
  · exact h
  · split
    · next e => exact OkForm.after_sendNode h _ e
    · next e => exact .after_finishOp (ErrForm.after_sendNode h _ e)

theorem MemForm.after_toNawyn {c t node tc} (h : MemForm s) : MemForm (toNawyn s c t node tc) :=
  .after_arriveOp (fun _ h1 _ => .after_packetStart h1) h

theorem MemForm.after_toSpread {c t} (h : MemForm s) : MemForm (toSpread s c t) := by
  unfold toSpread
  dsimp only
  split
  · exact .after_toRing (.after_spreadHash h)
  · exact .ite (.after_steerDenied (.after_spreadHash h)) (.after_toNawyn (.after_spreadHash h))
  · exact .after_bump (.after_spreadHash h)

theorem MemForm.after_classify {c k t} (h : MemForm s) : MemForm (classify c k t s) := by
  induction k generalizing t s with
  | zero => exact .after_toDefault h
  | succ k ih =>
    unfold classify
    dsimp only
    split <;> [skip; apply MemForm.after_toRing; apply MemForm.after_toSpread; apply ih; apply MemForm.after_toDefault] <;>
      exact .ite (.after_mirrorCopy (.ite (.after_bump h) h)) (.ite (.after_bump h) h)

theorem MemForm.after_malformed {c cls} (h : MemForm s) : MemForm (malformed s c cls) := by
  unfold malformed
  dsimp only
  split
  · exact .after_rxDeliver (.after_bump h)
  · exact .after_mirrorCopy (.after_bump h)
  · exact .after_bump h

theorem MemForm.after_afterParse {n c r} (h : MemForm s) : MemForm (afterParse s n c r) := by
  unfold afterParse
  split
  · exact .ite h (.after_bump (.after_ungate (.after_putCopy h)))
  · exact .after_malformed (.after_dropCopy h)
  · exact .ite (.after_toDefault (.after_dropCopy h)) (.after_classify (.after_dropCopy h))

theorem OutForm.after_execTrussParse {copy} (h : MemForm s) : OutForm (execTrussParse copy s) := by
  refine .next ?_
  split
  · exact h
  · exact .ite h (.ite h (.after_afterParse (.after_bump (.after_ungate h))))

theorem OutForm.after_execReedDispatch {copy} (h : MemForm s) : OutForm (execReedDispatch copy s) := by
  refine .next ?_
  split
  · exact h
  · exact .ite h (.after_putCopy (.after_ungate h))

theorem MemForm.after_reedLast {c cause} (h : MemForm s) : MemForm (reedLast s c cause) := by
  unfold reedLast
  split
  · exact .after_setF (.after_setF h)
  · exact h

theorem MemForm.after_reedReturn {copy c n g1 g4 g5 g6} (h : MemForm s) : MemForm (reedReturn s copy c n g1 g4 g5 g6) := by
  unfold reedReturn
  dsimp only
  split
  · exact .after_afterParse h
  · exact .ite (.after_afterParse h) (.ite (.after_afterParse h) (.after_afterParse h))

theorem OutForm.after_execReedReturn {copy} (h : MemForm s) : OutForm (execReedReturn copy s) := by
  refine .next ?_
  split
  · exact h
  · refine .ite h ?_
    dsimp only
    split
    · exact .after_afterParse (.after_reedLast h)
    · exact .after_reedReturn h

theorem OutForm.after_execReedTimeout {copy} (h : MemForm s) : OutForm (execReedTimeout copy s) := by
  refine .next ?_
  split
  · exact h
  · exact .ite h (.after_afterParse (.update (.after_reach h)))

theorem MemForm.after_ruleStat {st} (h : MemForm s) : MemForm (ruleStat s st) := .after_setF h

theorem MemForm.after_ruleCmd {req k} (h : MemForm s) (hk : ∀ t, MemForm t → MemForm (k t)) : MemForm (ruleCmd s req k) :=
  .after_trussWrite h (fun _ h1 => .ite (.after_ruleStat h1) (hk _ h1))

theorem MemForm.after_stageRules {t rs} (h : MemForm s) : MemForm (stageRules s t rs) := .ite (.after_ruleStat h) (.after_ruleStat (.update h))

theorem OutForm.after_execRuleAdd {req table} (h : MemForm s) : OutForm (execRuleAdd req table s) :=
  .next (.after_ruleCmd h (fun _ h1 => .ite (.after_ruleStat h1) (.ite (.after_ruleStat h1) (.after_stageRules h1))))

theorem OutForm.after_execRuleDelete {req table} (h : MemForm s) : OutForm (execRuleDelete req table s) :=
  .next (.after_ruleCmd h (fun _ h1 => .ite (.after_ruleStat h1) (.ite (.after_ruleStat h1) (.after_stageRules h1))))

theorem OutForm.after_execRuleModify {req table} (h : MemForm s) : OutForm (execRuleModify req table s) :=
  .next (.after_ruleCmd h (fun _ h1 => .ite (.after_ruleStat h1) (.ite (.after_ruleStat h1) (.after_stageRules h1))))

theorem OutForm.after_execRuleSetMiss {req table} (h : MemForm s) : OutForm (execRuleSetMiss req table s) :=
  .next (.after_ruleCmd h (fun _ h1 => .ite (.after_ruleStat h1) (.after_ruleStat (.update h1))))

theorem OutForm.after_execRuleDiscard {req} (h : MemForm s) : OutForm (execRuleDiscard req s) :=
  .next (.after_ruleCmd h (fun _ h1 => .after_ruleStat (.update h1)))

theorem MemForm.after_commitRules (h : MemForm s) : MemForm (commitRules s) :=
  .after_raiseT (.after_bump (.after_setF (.after_ruleStat (.after_setF (.after_setF (.update h))))))

theorem OutForm.after_execRuleCommitOp {req} (h : MemForm s) : OutForm (execRuleCommitOp req s) :=
  .next (.after_ruleCmd h (fun _ h1 => .ite (.after_commitRules h1) (.after_bump (.update (.after_setF (.after_ruleStat h1))))))

theorem OutForm.after_execRuleCommitDeferred (h : MemForm s) : OutForm (execRuleCommitDeferred s) := .next (.ite (.after_commitRules h) h)

/-! ### The sender of the eave transport (Machine/XptTx.lean) -/

theorem MemForm.after_setConn {c x} (h : MemForm s) : MemForm (setConn s c x) := .update h

theorem MemForm.after_touchCtx {c} (h : MemForm s) : MemForm (touchCtx s c) := .update h

theorem MemForm.after_hostDraw {n} (h : MemForm s) : MemForm (hostDraw s n).2 := .update h

theorem MemForm.after_fetchBytes {a n} (h : MemForm s) : MemForm (fetchBytes s a n).2 := .ite_snd (.after_hostDraw h) h

theorem MemForm.after_backendForget {n} (h : MemForm s) : MemForm (backendForget s n) := .update h

theorem MemForm.after_backendFail {n} (h : MemForm s) : MemForm (backendFail s n) := by
  unfold backendFail
  split
  · exact h
  · exact .after_backendForget (.ite h (.after_finishOp (.after_bump h)))

theorem MemForm.after_storConnLost {c} (h : MemForm s) : MemForm (storConnLost s c) :=
  .ite (.after_raiseD (.foldl (fun _ _ h1 => .after_backendFail h1) h)) (.foldl (fun _ _ h1 => .after_backendFail h1) h)

theorem MemForm.after_endMsg {m status ext} (h : MemForm s) : MemForm (endMsg s m status ext) := by
  refine .ite h ?_
  split
  · exact .after_finishOp h
  · exact .ite (.ite (.after_postedDone h) (.after_postedFail h)) (.after_answerThread h)
  · exact .update h

theorem MemForm.after_raiseC {c ev} (h : MemForm s) : MemForm (raiseC s c ev) := .after_raiseR h

theorem MemForm.after_connErr {c reason} (h : MemForm s) : MemForm (connErr s c reason) := by
  refine .ite h (.after_storConnLost (.foldl (fun _ _ h1 => .after_finishOp h1) (.foldl (fun _ _ h1 => .after_endMsg h1) (.ite
    (.after_raiseD ?_) ?_)))) <;>
  exact .after_raiseC (.update (.after_setConn h))

theorem MemForm.after_sendPkt {c op ackreq first last ece psn ext payload} (h : MemForm s) :
    MemForm (sendPkt s c op ackreq first last ece psn ext payload) :=
  .ite (.after_connErr h) (.after_egressOut (.ite (.after_setConn h) h))

theorem MemForm.after_sendMsgPkt {c m i} (h : MemForm s) : MemForm (sendMsgPkt s c m i) := by
  unfold sendMsgPkt
  dsimp only
  split
  · exact .after_sendPkt h
  · exact .after_sendPkt h
  · exact .after_sendPkt h
  · exact .after_sendPkt h
  · exact .after_sendPkt (.ite_snd (.after_fetchBytes h) h)

theorem MemForm.after_putMsg {c i m} (h : MemForm s) : MemForm (putMsg s c i m) := .after_setConn h

theorem SomeForm.after_pumpOne {c} (h : MemForm s) : SomeForm id (pumpOne s c) := by
  refine .ite .none ?_
  split
  · exact .none
  · refine .ite .none ?_
    split
    · exact .some (.after_endMsg (.after_putMsg h))
    · exact .some (.after_sendMsgPkt (.after_setConn h))

theorem MemForm.after_pumpN {k c} (h : MemForm s) : MemForm (pumpN k s c) := by
  induction k generalizing s with
  | zero => exact h
  | succ k ih =>
    unfold pumpN
    split
    · exact h
    · next e => exact ih (SomeForm.after_pumpOne h _ e)

theorem MemForm.after_pump {c} (h : MemForm s) : MemForm (pump s c) := .after_pumpN h

theorem MemForm.after_settleConn {c} (h : MemForm s) : MemForm (settleConn s c) := .foldl (fun _ _ h1 => .after_endMsg h1) (.after_setConn h)

theorem MemForm.after_ackTo {c a} (h : MemForm s) : MemForm (ackTo s c a) := .ite (.ite h (.after_settleConn (.after_setConn h))) h

theorem MemForm.after_resendFrom {c p} (h : MemForm s) : MemForm (resendFrom s c p) :=
  .foldl (fun _ _ h1 => .ite (.after_sendMsgPkt h1) h1) (.after_bumpN (.after_setConn h))

theorem MemForm.after_retryConn {c p} (h : MemForm s) : MemForm (retryConn s c p) :=
  .ite (.after_connErr (.after_setConn h)) (.after_resendFrom (.after_setConn h))

theorem MemForm.after_dcDecrease {c} (h : MemForm s) : MemForm (dcDecrease s c) := .ite (.after_setConn h) h

theorem OutForm.after_execRateIncreaseTimer {conn} (h : MemForm s) : OutForm (execRateIncreaseTimer conn s) := by
  refine .next (.ite h (.after_setConn ?_))
  split
  · exact .after_reach h
  · exact h

theorem OutForm.after_execRetryTimeout {conn} (h : MemForm s) : OutForm (execRetryTimeout conn s) :=
  .next (.ite h (.after_pump (.after_retryConn (.after_reach h))))

theorem OutForm.after_execRnrWaitExpiry {conn} (h : MemForm s) : OutForm (execRnrWaitExpiry conn s) := by
  refine .next ?_
  dsimp only
  split
  · exact h
  · refine .ite h (.ite (.after_connErr ?_) (.after_pump (.after_resendFrom ?_))) <;>
    exact .after_setConn (.after_reach h)

theorem OkForm.after_xptSend {c m} (h : MemForm s) : OkForm id (xptSend s c m) :=
  .ite .error (.ite .error (.ok (.after_pump (.after_touchCtx (.after_setConn h)))))

theorem MemForm.after_chargePartner {partner pool cost} (h : MemForm s) : MemForm (chargePartner s partner pool cost) := .after_charge h

theorem OkForm.after_remoteAccess {tid bay addr ref paneOff len store} (h : MemForm s) :
    OkForm id (remoteAccess s tid bay addr ref paneOff len store) := by
  unfold remoteAccess
  split
  · exact .error
  · dsimp only
    split
    · next e => exact .ok (OkForm.after_xptSend (.after_chargePartner (.ite (.after_bump h) h)) _ e)
    · exact .error

/-! ### Cuts, drains and restores (Machine/Underlay.lean) -/

theorem MemForm.after_sendToken {node mtype arg payload} (h : MemForm s) : MemForm (sendToken s node mtype arg payload) := .after_sendOwn h

theorem MemForm.after_cutTake {n i o plan} (h : MemForm s) : MemForm (cutTake s n i o plan) :=
  .foldl (fun _ _ h1 => .after_sendToken h1) (.update (.after_setF (.after_setSlot h)))

theorem MemForm.after_cutStart {n o} (h : MemForm s) : MemForm (cutStart s n o) := by
  refine .ite (.after_finishOp h) (.ite (.after_finishOp h) ?_)
  split
  · exact .after_finishOp h
  · refine .ite (.after_finishOp h) (.ite (.after_finishOp h) ?_)
    split
    · exact .after_finishOp h
    · exact .ite (.after_finishOp h) (.after_cutTake h)

theorem MemForm.after_copyRead {group node off len laddr} (h : MemForm s) : MemForm (copyRead s group node off len laddr) := by
  unfold copyRead
  dsimp only
  split
  · exact h
  · refine .ite h ?_
    split
    · next e => exact .update (OkForm.after_sendRead h _ e)
    · next e => exact .after_copyFail (ErrForm.after_sendRead h _ e)

theorem MemForm.after_copyGroup {slot group plan} (h : MemForm s) : MemForm (copyGroup s slot group plan) :=
  .foldl (fun _ _ h1 => .foldl (fun _ _ h2 => .after_copyRead h2) h1) h

theorem MemForm.after_cutReady {m} (h : MemForm s) : MemForm (cutReady s m) := by
  unfold cutReady
  dsimp only
  split
  · exact .after_bump (.after_latchWake h)
  · exact .ite (.after_bump (.after_latchWake h)) (.ite (.after_latchWake h) (.after_copyGroup (.update (.after_latchWake h))))

theorem OutForm.after_execCutReady {m} (h : MemForm s) : OutForm (execCutReady m s) :=
  .next (.after_nawynArrive h (fun _ h1 => .after_cutReady h1))

theorem MemForm.after_cutDone {c plan} (h : MemForm s) : MemForm (cutDone s c plan) := by
  unfold cutDone
  dsimp only
  split
  · exact .after_finishOk (.after_putOp (.after_bump (.after_setSlot (.update h))))
  · exact .after_bump (.after_setSlot (.update h))

theorem OutForm.after_execGroupCopyDone {group} (h : MemForm s) : OutForm (execGroupCopyDone group s) := by
  refine .next ?_
  split
  · exact h
  · exact .ite h (.ite (.after_cutDone (.update (.after_sendToken (.after_bumpN h)))) (.update (.after_sendToken (.after_bumpN h))))

theorem OutForm.after_execCutReadyTimeout (h : MemForm s) : OutForm (execCutReadyTimeout s) := by
  refine .next ?_
  split
  · exact h
  · split
    · exact .update (.after_reach h)
    · exact h

theorem OutForm.after_execCutAbandonComplete (h : MemForm s) : OutForm (execCutAbandonComplete s) := by
  refine .next ?_
  split
  · exact h
  · split
    · exact .after_finishOp (.ite h (.after_reach h))
    · exact h

theorem MemForm.after_drainStart {n o} (h : MemForm s) : MemForm (drainStart s n o) := by
  refine .ite (.after_finishOp h) (.ite (.after_finishOp h) ?_)
  split
  · exact .after_finishOp h
  · exact .ite (.after_finishOp h) (.ite (.after_finishOp h) (.ite (.after_finishOp h) (.after_writeBytes (.after_setSlot (.update h)))))

theorem OkForm.after_targetWrite {t who a len off} (h : MemForm s) : OkForm id (targetWrite s t who a len off) := by
  refine .ite ?_ (.after_xptSend h)
  split
  · exact .error
  · exact .ok (.after_emit h)

theorem MemForm.after_ulCharge {o bytes} (h : MemForm s) : MemForm (ulCharge s o bytes) := .after_charge h

theorem MemForm.after_drainWriteFail {d ext shingle} (h : MemForm s) : MemForm (drainWriteFail s d ext shingle) := .after_finishOp h

theorem MemForm.after_bodyWrite {d o} (h : MemForm s) : MemForm (bodyWrite s d o) := by
  unfold bodyWrite
  dsimp only
  split
  · exact .after_drainWriteFail (.after_writeBytes h)
  · next e => exact .update (OkForm.after_targetWrite (.after_ulCharge (.after_writeBytes h)) _ e)

theorem MemForm.after_drainSettle {d o} (h : MemForm s) : MemForm (drainSettle s d o) := .ite (.after_bodyWrite h) (.update h)

theorem MemForm.after_shingleChanged {d o hash} (h : MemForm s) : MemForm (shingleChanged s d o hash) := by
  refine .ite (.after_finishOp h) (.ite h ?_)
  dsimp only
  split
  · exact .after_drainWriteFail (.after_bump (.after_writeBytes h))
  · next e => exact .after_drainSettle (OkForm.after_targetWrite (.after_ulCharge (.after_bump (.after_writeBytes h))) _ e)

theorem OutForm.after_execShingleHashed (h : MemForm s) : OutForm (execShingleHashed s) := by
  refine .next ?_
  split
  · exact h
  · dsimp only
    split
    · exact h
    · exact .ite h (.ite (.after_drainSettle (.after_bump (.after_writeBytes h))) (.after_shingleChanged h))

theorem SomeForm.after_takeDone {w} (h : MemForm s) : SomeForm (·.2.2) (takeDone s w) := by
  unfold takeDone
  split
  · exact .some (.update h)
  · exact .none

theorem SomeForm.after_targetAck {t w status} (h : MemForm s) : SomeForm Prod.snd (targetAck s t w status) :=
  .ite (.some h) (.map (fun _ h1 => h1) (.after_takeDone h))

theorem OutForm.after_execShingleWriteAck {i status} (h : MemForm s) : OutForm (execShingleWriteAck i status s) := by
  refine .next ?_
  split
  · exact h
  · split
    · next e =>
        refine .ite (.after_drainWriteFail ?_) (.after_drainSettle (.after_bump ?_)) <;>
        exact SomeForm.ite (.after_targetAck h) .none _ e
    · exact h

theorem OutForm.after_execManifestBodyAck {status} (h : MemForm s) : OutForm (execManifestBodyAck status s) := by
  refine .next ?_
  split
  · exact h
  · split
    · next e =>
        refine .ite (.after_drainWriteFail (SomeForm.ite (.after_targetAck h) .none _ e)) ?_
        split
        · exact .after_drainWriteFail (SomeForm.ite (.after_targetAck h) .none _ e)
        · next e1 => exact .update (OkForm.after_targetWrite (.after_ulCharge (SomeForm.ite (.after_targetAck h) .none _ e)) _ e1)
    · exact h

theorem MemForm.after_drainCommit {d o} (h : MemForm s) : MemForm (drainCommit s d o) := by
  exact .after_finishOk (.after_putOp (.after_bump (.after_raiseD (.after_setSlot (.update (.after_setF (.after_setF (.after_setF
    h))))))))

theorem OutForm.after_execManifestHeaderAck {status} (h : MemForm s) : OutForm (execManifestHeaderAck status s) := by
  refine .next ?_
  split
  · exact h
  · split
    · next e =>
        refine .ite (.after_drainWriteFail ?_) (.after_drainCommit ?_) <;>
        exact SomeForm.ite (.after_targetAck h) .none _ e
    · exact h

theorem OutForm.after_execUlDrainTimeoutExpiry (h : MemForm s) : OutForm (execUlDrainTimeoutExpiry s) := by
  refine .next ?_
  split
  · exact h
  · exact .after_finishOp (.after_reach h)

theorem MemForm.after_restRead {n o} (h : MemForm s) : MemForm (restRead s n o) := by
  unfold restRead
  split
  · exact h
  · split
    · exact h
    · refine .ite ?_ ?_
      · split
        · exact .after_finishOp (.after_ulCharge h)
        · exact .after_emit (.after_ulCharge h)
      · dsimp only
        split
        · exact .after_finishOp (.after_ulCharge h)
        · next e => exact OkForm.after_xptSend (.after_ulCharge h) _ e

theorem MemForm.after_restStart {n o} (h : MemForm s) : MemForm (restStart s n o) := by
  unfold restStart
  split
  · refine .ite (.after_finishOp h) (.ite (.after_finishOp h) ?_)
    split
    · exact .after_finishOp h
    · split
      · exact .after_finishOp h
      · exact .ite (.after_finishOp h) (.ite (.after_finishOk h) (.after_restRead (.update h)))

theorem OutForm.after_execRestoreShingleRead {op data status} (h : MemForm s) : OutForm (execRestoreShingleRead op data status s) := by
  refine .next ?_
  split
  · split
    · exact h
    · dsimp only
      split
      · exact h
      · next e =>
          refine .ite (.after_finishOp (SomeForm.ite (.some h) (.after_takeDone h) _ e)) (.ite (.after_finishOp (SomeForm.ite (.some h)
            (.after_takeDone h) _ e)) ?_)
          split
          · next e1 => exact .after_finishOp (ErrForm.after_sendNode (.update (SomeForm.ite (.some h) (.after_takeDone h) _ e)) _ e1)
          · next e1 => exact .after_restRead (OkForm.after_sendNode (.update (SomeForm.ite (.some h) (.after_takeDone h) _ e)) _ e1)
  · exact h

theorem OutForm.after_execRestoreWriteAck {op} (h : MemForm s) : OutForm (execRestoreWriteAck op s) := by
  refine .next ?_
  split
  · exact .ite h (.ite (.after_finishOk (.after_putOp (.update (.after_bump h)))) (.update (.after_bump h)))
  · exact h

theorem MemForm.after_releaseStart {n o} (h : MemForm s) : MemForm (releaseStart s n o) := by
  refine .ite (.after_finishOp h) ?_
  split
  · exact .after_finishOp h
  · exact .after_finishOk (.after_setSlot (.update h))

theorem OutForm.after_execUlBaseInv {req v} (h : MemForm s) : OutForm (execUlBaseInv req v s) :=
  .next (.after_gated h (fun _ h1 => .ite (.after_bump h1) (.ite (.after_setF h1) h1)))

theorem MemForm.after_ulStart {n} (h : MemForm s) : MemForm (ulStart s n) := by
  unfold ulStart
  split
  · exact h
  · dsimp only
    split
    · exact .after_cutStart (.ite (.after_latchWake h) (.after_ungate h))
    · exact .after_drainStart (.ite (.after_latchWake h) (.after_ungate h))
    · exact .after_restStart (.ite (.after_latchWake h) (.after_ungate h))
    · exact .after_releaseStart (.ite (.after_latchWake h) (.after_ungate h))

end

end Sys2Proof.Machine
end

section
/-! PROOFS. The form of memory is kept by the Loft (12), storage, keys
and sessions (14) and the Gutter (15). -/

namespace Sys2Proof.Machine

section
variable {s : State}

/-! ### Controllers and their commands (Machine/Storage.lean) -/

theorem SomeForm.after_nvmeFetch {n} (h : MemForm s) : SomeForm (·.2.2) (nvmeFetch s n) := by
  refine .ite .none ?_
  split
  · split
    · exact .ite .none (.some (.after_setCtrl h))
    · exact .none
  · exact .none

theorem MemForm.after_scatter {ep fn rs bs} (h : MemForm s) : MemForm (scatter ep fn s rs bs) := by
  induction rs generalizing s bs with
  | nil => exact h
  | cons r rs ih => exact ih (.after_deviceWrite (.after_holdRange h))

theorem SomeForm.after_prpWrite {n bs} (h : MemForm s) : SomeForm id (prpWrite s n bs) := by
  unfold prpWrite
  split
  · exact .ite (.some (.after_scatter h)) .none
  · exact .none

theorem MemForm.after_nvmeFail {n status} (h : MemForm s) : MemForm (nvmeFail s n status) := .update (.after_finishOp h)

theorem MemForm.after_nvmeAnswer {n cmd bs} (h : MemForm s) : MemForm (nvmeAnswer s n cmd bs) := by
  unfold nvmeAnswer
  split
  · next e => exact .after_finishOk (SomeForm.after_prpWrite h _ e)
  · exact .after_nvmeFail h

theorem MemForm.after_ctrlEvent {c ev} (h : MemForm s) : MemForm (ctrlEvent s c ev) := by
  unfold ctrlEvent
  dsimp only
  split
  · split
    · exact .after_finishOk (.after_setCtrl h)
    · exact .after_setCtrl h
  · exact .ite h (.after_setCtrl h)

theorem SomeForm.after_logPage {c lid} (h : MemForm s) : SomeForm Prod.snd (logPage s c lid) :=
  .ite (.some (.after_hostDraw h)) (.ite (.some (.after_hostDraw h)) (.ite (.some h) .none))

theorem OkForm.after_identifyData {n} (h : MemForm s) : OkForm Prod.snd (identifyData s n) := by
  refine .ite (.ok_snd (.after_hostDraw h)) (.ite (.ok_snd h) (.ite ?_ .error))
  split
  · exact .error
  · exact .ok_snd (.after_hostDraw h)

theorem OkForm.after_createSq {n} (h : MemForm s) : OkForm id (createSq s n) :=
  .ite .error (.ite .error (.ite .error (.ite .error (.ok (.after_setCtrl h)))))

theorem OkForm.after_createCq {n} (h : MemForm s) : OkForm id (createCq s n) :=
  .ite .error (.ite .error (.ite .error (.ite .error (.ok (.after_setCtrl h)))))

theorem OkForm.after_deleteSq {n} (h : MemForm s) : OkForm id (deleteSq s n) :=
  .ite .error (.ok (.after_setCtrl (.foldl (fun _ _ h1 => .after_finishOp h1) h)))

theorem OkForm.after_deleteCq {n} (h : MemForm s) : OkForm id (deleteCq s n) := .ite .error (.ite .error (.ok (.after_setCtrl h)))

theorem MemForm.after_nvmeEither {n r} (h : MemForm s) (hr : OkForm id r) : MemForm (nvmeEither s n r) := by
  cases r with
  | error st => exact .after_nvmeFail h
  | ok t => exact .after_finishOk (hr t rfl)

theorem MemForm.after_getLog {n cmd} (h : MemForm s) : MemForm (getLog s n cmd) := by
  unfold getLog
  split
  · exact .after_nvmeFail h
  · next e => exact .ite (.after_nvmeFail (SomeForm.after_logPage h _ e)) (.after_nvmeAnswer (SomeForm.after_logPage h _ e))

theorem MemForm.after_abortCmd {n cmd} (h : MemForm s) : MemForm (abortCmd s n cmd) := by
  unfold abortCmd
  dsimp only
  split
  · exact .after_finishOk h
  · exact .after_finishOk (.ite (.after_setCtrl (.after_finishOp h)) (.after_finishOp h))

theorem MemForm.after_awaitEvent {n cmd} (h : MemForm s) : MemForm (awaitEvent s n cmd) := by
  unfold awaitEvent
  dsimp only
  split
  · exact .after_finishOk (.after_setCtrl h)
  · exact .ite (.after_nvmeFail h) (.after_setCtrl h)

theorem MemForm.after_adminStart {n b} (h : MemForm s) : MemForm (adminStart s n b) := by
  unfold adminStart
  dsimp only
  split
  · exact .after_nvmeEither h (.after_deleteSq h)
  · exact .after_nvmeEither h (.after_createSq h)
  · exact .after_getLog h
  · exact .after_nvmeEither h (.after_deleteCq h)
  · exact .after_nvmeEither h (.after_createCq h)
  · split
    · exact .after_nvmeFail h
    · next e => exact .after_nvmeAnswer (OkForm.after_identifyData h _ e)
  · exact .after_abortCmd h
  · exact .ite (.after_nvmeFail h) (.after_finishOk (.after_setCtrl h))
  · exact .ite (.after_nvmeFail h) (.after_finishOk h)
  · exact .after_awaitEvent h

theorem MemForm.after_ioDone {n b} (h : MemForm s) : MemForm (ioDone s n b) := .after_finishOk (.after_bumpN (.after_bump h))

theorem MemForm.after_ioError {n status} (h : MemForm s) : MemForm (ioError s n status) := .after_nvmeFail (.after_bump h)

theorem MemForm.after_ioLocal {n b ns data} (h : MemForm s) : MemForm (ioLocal s n b ns data) := by
  unfold ioLocal
  split
  · exact .ite (.after_backendFail h) (.after_ioError h)
  · exact .after_emit h

theorem MemForm.after_ioRemote {n bay b ns data} (h : MemForm s) : MemForm (ioRemote s n bay b ns data) := by
  refine .ite (.ite h (.after_ioDone h)) (.ite (.after_ioDone h) (.ite (.after_ioError h) ?_))
  dsimp only
  split
  · next e => exact OkForm.after_xptSend h _ e
  · exact .ite (.after_backendFail h) (.after_ioError h)

theorem MemForm.after_ioStart {n bay b} (h : MemForm s) : MemForm (ioStart s n bay b) := by
  unfold ioStart
  split
  · exact .after_nvmeFail h
  · exact .after_nvmeFail h
  · split
    · exact .after_nvmeFail h
    · exact .ite (.after_ioRemote (.update h)) (.after_ioLocal (.update h))

theorem MemForm.after_nvmeStart {n} (h : MemForm s) : MemForm (nvmeStart s n) := by
  unfold nvmeStart
  split
  · exact .ite (.after_adminStart h) (.after_ioStart h)
  · exact h

theorem MemForm.after_nvmeArrive {n admin opc data bad} (h : MemForm s) : MemForm (nvmeArrive s n admin opc data bad) := by
  refine .ite h ?_
  split
  · exact h
  · next e =>
      dsimp only
      split
      · exact .after_arriveOp (fun _ h1 _ => .after_nvmeStart h1) (.update (SomeForm.after_nvmeFetch h _ e))
      · refine .ite (.after_endEarly ?_) (.after_nvmeFail ?_) <;>
        exact .after_putOp (.update (.update (SomeForm.after_nvmeFetch h _ e)))

theorem OutForm.after_adminRow {n opc} (h : MemForm s) : OutForm (adminRow s n opc) := .next (.after_nvmeArrive h)

theorem OutForm.after_ioRow {n opc data} (h : MemForm s) : OutForm (ioRow s n opc data) := .next (.after_nvmeArrive h)

theorem OutForm.after_execInvalidCommandOpcode {n opcode} (h : MemForm s) : OutForm (execInvalidCommandOpcode n opcode s) :=
  .next (.ite h (.after_nvmeArrive h))

theorem MemForm.after_flushSettle (h : MemForm s) : MemForm (flushSettle s) := by
  refine .foldl (fun _ _ h1 => .ite ?_ h1) h
  split
  · exact .ite (.after_backendForget h1) (.after_ioDone h1)
  · exact h1

theorem MemForm.after_ioEnd {n b sct sc dnr data} (h : MemForm s) : MemForm (ioEnd s n b sct sc dnr data) := by
  refine .ite (.after_backendForget h) (.ite (.after_ioError h) (.ite (.after_ioError h) (.ite ?_ (.after_ioDone h))))
  split
  · split
    · next e => exact .after_ioDone (SomeForm.after_prpWrite h _ e)
    · exact .after_nvmeFail h
  · exact .after_nvmeFail h
  · exact h

theorem OutForm.after_execBackendCompletion {op sct sc dnr data} (h : MemForm s) : OutForm (execBackendCompletion op sct sc dnr data s) := by
  refine .next ?_
  split
  · exact h
  · refine .ite h (.ite ?_ (.after_ioEnd h))
    split
    · exact h
    · next e => exact .after_flushSettle (.after_ioEnd (SomeForm.after_takeDone h _ e))

theorem MemForm.after_ssdLost {port} (h : MemForm s) : MemForm (ssdLost s port) := .after_raiseD (.foldl (fun _ _ h1 => .after_backendFail h1) h)

theorem MemForm.after_sqDoorbell {c sq tail} (h : MemForm s) : MemForm (sqDoorbell s c sq tail) := by
  refine .ite h ?_
  split
  · exact h
  · exact .ite h (.after_setCtrl h)

theorem MemForm.after_cqDoorbell {c cq head} (h : MemForm s) : MemForm (cqDoorbell s c cq head) := by
  unfold cqDoorbell
  dsimp only
  split
  · exact h
  · exact .ite h (.after_setCtrl h)

theorem MemForm.after_ctrlClear {c} (h : MemForm s) : MemForm (ctrlClear s c) := .foldl (fun _ _ h1 => .after_finishOp h1) (.after_setCtrl h)

theorem MemForm.after_ccWrite {c v} (h : MemForm s) : MemForm (ccWrite s c v) :=
  .ite (.after_setCtrl h) (.ite (.after_ctrlClear (.after_setCtrl h)) (.after_setCtrl h))

theorem MemForm.after_nvmeRegWrite {c off v} (h : MemForm s) : MemForm (nvmeRegWrite s c off v) := by
  refine .ite (.after_setCtrl h) (.ite (.after_setCtrl h) (.ite (.after_ccWrite h) (.ite ?_ (.ite ?_ (.ite ?_ (.ite (.ite
    (.after_sqDoorbell h) (.after_cqDoorbell h)) h)))))) <;>
  exact .ite h (.after_setCtrl h)

theorem OutForm.after_execNvmeSqDoorbell {c sq tail} (h : MemForm s) : OutForm (execNvmeSqDoorbell c sq tail s) := by
  refine .next ?_
  split
  · exact .after_gated h (fun _ h1 => .after_sqDoorbell h1)
  · exact h

theorem MemForm.after_storDenied (h : MemForm s) : MemForm (storDenied s) := .after_bump h

theorem MemForm.after_nsCtlWrite {req c k v} (h : MemForm s) : MemForm (nsCtlWrite s req c k v) :=
  .ite (.after_storDenied h) (.ite (.after_setReg h) (.after_ctrlEvent (.after_setReg h)))

theorem OutForm.after_execNamespaceValidWrite {req c k v} (h : MemForm s) : OutForm (execNamespaceValidWrite req c k v s) :=
  .next (.after_gated h (fun _ h1 => .after_nsCtlWrite h1))

/-! ### Keys and the rollback floor (Machine/Crypto.lean) -/

theorem MemForm.after_setKey {i k} (h : MemForm s) : MemForm (setKey s i k) := .after_setF (.update h)

theorem MemForm.after_keyLoadStart {n o} (h : MemForm s) : MemForm (keyLoadStart s n o) := by
  unfold keyLoadStart
  split
  · exact .after_finishOp h
  · dsimp only
    split
    · exact .after_finishOp h
    · exact .after_finishOk (.after_setKey (.after_holdRange h))

theorem MemForm.after_keyDestroyStart {n o} (h : MemForm s) : MemForm (keyDestroyStart s n o) :=
  .ite (.after_finishOp h) (.ite (.after_finishOp h) h)

theorem OutForm.after_execKeyDestroyDone {op} (h : MemForm s) : OutForm (execKeyDestroyDone op s) := by
  refine .next ?_
  split
  · exact h
  · dsimp only
    split
    · exact .after_finishOp h
    · exact .ite h (.after_finishOk (.after_setKey h))

theorem OkForm.after_cryptPut {put cb r} (hput : ∀ t, MemForm t → ∀ a bs, OkForm id (put t a bs)) (h : MemForm s) :
    OkForm id (cryptPut put s cb r) := by
  unfold cryptPut
  split
  · exact .error
  · next e => exact .ite (hput _ (hput _ h _ _ _ e) _ _) (.ok (hput _ h _ _ _ e))

theorem MemForm.after_cryptStart {n o} (h : MemForm s) : MemForm (cryptStart s n o) := by
  unfold cryptStart
  dsimp only
  split
  · exact .after_finishOp h
  · split
    · exact .after_finishOp h
    · split
      · exact .after_finishOp (.after_undefRange (.after_bump (.after_holdRange h)))
      · split
        · exact .after_finishOp (.after_holdRange h)
        · next e => exact .after_finishOk (OkForm.after_cryptPut (fun _ h1 _ _ => .after_engWrite h1) (.after_holdRange h) _ e)

theorem MemForm.after_floorDone {n o} (h : MemForm s) : MemForm (floorDone s n o) := .after_raiseD (.after_finishOk h)

theorem MemForm.after_floorStart {n o} (h : MemForm s) : MemForm (floorStart s n o) :=
  .ite (.after_finishOp h) (.ite (.after_floorDone (.after_putOp (.update h))) (.update (.after_putOp (.update h))))

theorem OutForm.after_execFloorStepBlown (h : MemForm s) : OutForm (execFloorStepBlown s) := by
  refine .next ?_
  split
  · exact h
  · exact .foldl (fun _ _ h1 => .after_floorDone h1) (.update h)

theorem MemForm.after_secStart {n} (h : MemForm s) : MemForm (secStart s n) := by
  unfold secStart
  split
  · exact h
  · split
    · exact .after_keyLoadStart h
    · exact .after_keyDestroyStart h
    · exact .after_cryptStart h
    · exact .after_floorStart h

/-! ### SPDM and IDE (Machine/Spdm.lean) -/

theorem MemForm.after_setSpdm {ep x} (h : MemForm s) : MemForm (setSpdm s ep x) := .update h

theorem MemForm.after_spdmSend {ep ver code p1 p2 body} (h : MemForm s) : MemForm (spdmSend s ep ver code p1 p2 body) := .after_emit h

theorem MemForm.after_spdmFree {ep code p1 p2 body n} (h : MemForm s) : MemForm (spdmFree s ep code p1 p2 body n) :=
  .after_spdmSend (.after_hostDraw h)

theorem MemForm.after_spdmError {ep e} (h : MemForm s) : MemForm (spdmError s ep e) := .after_spdmSend h

theorem OutForm.after_spdmRow {ep r k} (h : MemForm s) (hk : ∀ t, MemForm t → MemForm (k t)) : OutForm (spdmRow s ep r k) := by
  refine .next (.ite h ?_)
  split
  · exact .ite (hk _ h) (.after_spdmError h)
  · exact hk _ h

theorem MemForm.after_negotiated {ep r k} (h : MemForm s) (hk : ∀ t, MemForm t → MemForm (k t)) : MemForm (negotiated s ep r k) :=
  .ite (hk _ h) (.after_spdmError h)

theorem MemForm.after_inSession {ep r k} (h : MemForm s) (hk : ∀ x0, ∀ t, MemForm t → MemForm (k x0 t)) : MemForm (inSession s ep r k) := by
  unfold inSession
  split
  · exact .ite (hk _ _ h) (.after_spdmError h)
  · exact .after_spdmError h

theorem OutForm.after_execGetCertificate {ep r} (h : MemForm s) : OutForm (execGetCertificate ep r s) := by
  exact .after_spdmRow h (fun _ h1 => .after_negotiated h1 (fun _ h2 => .ite (.after_spdmError h2) (.after_spdmSend (.after_hostDraw
    h2))))

theorem MemForm.after_measurement {i} (h : MemForm s) : MemForm (measurement s i).2 := by
  unfold measurement
  split
  · exact h
  · exact h
  · exact h
  · exact .after_hostDraw h

theorem MemForm.after_measurementBlocks {is} (h : MemForm s) : MemForm (measurementBlocks s is).2 := by
  induction is generalizing s with
  | nil => exact h
  | cons i is ih => exact ih (.after_measurement h)

theorem OutForm.after_execGetMeasurements {ep r} (h : MemForm s) : OutForm (execGetMeasurements ep r s) := by
  exact .after_spdmRow h (fun _ h1 => .after_negotiated h1 (fun _ h2 => .ite (.after_spdmError h2) (.after_spdmSend (.after_hostDraw
    (.after_measurementBlocks h2)))))

theorem OutForm.after_execFinish {ep r} (h : MemForm s) : OutForm (execFinish ep r s) := by
  refine .after_spdmRow h (fun _ h1 => ?_)
  split
  · exact .after_spdmError h1
  · exact .ite (.after_spdmError h1) (.after_spdmSend (.after_setSpdm h1))

theorem OutForm.after_execEndSession {ep r} (h : MemForm s) : OutForm (execEndSession ep r s) :=
  .after_spdmRow h (fun _ h1 => .after_inSession h1 (fun _ _ h2 => .after_spdmSend (.after_setSpdm h2)))

theorem OutForm.after_execSpdmUnsupportedRequest {ep r code} (h : MemForm s) : OutForm (execSpdmUnsupportedRequest ep r code s) :=
  .ite (.next h) (.after_spdmRow h (fun _ h1 => .after_spdmError h1))

theorem MemForm.after_setIde {ep stream x} (h : MemForm s) : MemForm (setIde s ep stream x) := .update h

theorem OutForm.after_ideRow {ep session k} (h : MemForm s) (hk : ∀ t, MemForm t → MemForm (k t)) : OutForm (ideRow s ep session k) :=
  .next (.ite (hk _ h) h)

theorem MemForm.after_ideSend {ep obj stream status keySet rx sub} (h : MemForm s) : MemForm (ideSend s ep obj stream status keySet rx sub) :=
  .after_emit h

theorem MemForm.after_ideReset {ep} (h : MemForm s) : MemForm (ideReset s ep) := .update h

theorem MemForm.after_failHeld {t st} (h : MemForm s) : MemForm (failHeld s t st) := by
  unfold failHeld
  dsimp only
  split
  · exact .after_setThread h
  · exact h

theorem MemForm.after_failRequests {ep st all} (h : MemForm s) : MemForm (failRequests s ep st all) := by
  exact .foldl (fun _ _ h1 => .ite (.after_finishOp h1) (.ite (.after_finishOp (.after_drawBit h1)) (.after_drawBit h1))) (.foldl (fun _ _
    h1 => .ite (.after_failHeld h1) (.ite (.after_failHeld (.after_drawBit h1)) (.after_drawBit h1))) h)

theorem OutForm.after_execIdeCheckFailed {ep stream} (h : MemForm s) : OutForm (execIdeCheckFailed ep stream s) :=
  .next (.ite h (.after_failRequests (.after_raiseD (.after_bump (.after_emit (.after_setIde h))))))

/-! ### The Gutter (Machine/Gutter.lean) -/

theorem MemForm.after_gutDenied (h : MemForm s) : MemForm (gutDenied s) := .after_bump h

theorem MemForm.after_gutWrite {req k} (h : MemForm s) (hk : ∀ t, MemForm t → MemForm (k t)) : MemForm (gutWrite s req k) :=
  .after_gated h (fun _ h1 => .ite (hk _ h1) (.after_gutDenied h1))

theorem MemForm.after_endFlushes {c status} (h : MemForm s) : MemForm (endFlushes s c status) := .foldl (fun _ _ h1 => .after_finishOp h1) h

theorem MemForm.after_chanDisabled {c} (h : MemForm s) : MemForm (chanDisabled s c) :=
  .after_endFlushes (.after_chanSettle (.after_setF (.after_setF (.after_setChan h))))

theorem MemForm.after_putCtl {c v} (h : MemForm s) : MemForm (putCtl s c v) := .after_setReg h

theorem MemForm.after_chanStart {c v} (h : MemForm s) : MemForm (chanStart s c v) := by
  exact .ite (.after_gutDenied h) (.after_gutterRun (.after_latchWake (.after_clearReg (.foldl (fun _ _ h1 => .after_setF h1)
    (.after_setChan (.after_putCtl h))))))

theorem MemForm.after_chanStop {c v} (h : MemForm s) : MemForm (chanStop s c v) :=
  .ite (.ite (.after_chanDisabled (.after_setF h)) (.after_setF (.after_setF h))) (.ite h (.ite (.after_setF h) (.after_putCtl h)))

theorem MemForm.after_chanCtlWrite {c v} (h : MemForm s) : MemForm (chanCtlWrite s c v) := .ite (.after_chanStart h) (.after_chanStop h)

theorem OutForm.after_execChannelEnable {req c v} (h : MemForm s) : OutForm (execChannelEnable req c v s) :=
  .next (.after_gutWrite h (fun _ h1 => .after_chanCtlWrite h1))

theorem OutForm.after_execChannelDisable {req c v} (h : MemForm s) : OutForm (execChannelDisable req c v s) :=
  .next (.after_gutWrite h (fun _ h1 => .after_chanCtlWrite h1))

theorem OutForm.after_execChannelStopDone {c} (h : MemForm s) : OutForm (execChannelStopDone c s) := .next (.ite (.after_chanDisabled h) h)

theorem OutForm.after_execTracePacketOffered {source typ payload} (h : MemForm s) : OutForm (execTracePacketOffered source typ payload s) :=
  .next (.ite (.after_offer h) h)

theorem MemForm.after_markWrite {req v} (h : MemForm s) : MemForm (markWrite s req v) := by
  unfold markWrite
  split
  · exact .after_gutDenied h
  · exact .after_offer h

theorem OutForm.after_execGutMark {req x v} (h : MemForm s) : OutForm (execGutMark req x v s) :=
  .next (.after_gated h (fun _ h1 => .after_markWrite h1))

theorem MemForm.after_ringWrite {base size at_ p} (h : MemForm s) : MemForm (ringWrite s base size at_ p) :=
  .after_deviceWrite (.after_deviceWrite h)

theorem MemForm.after_chanFire {c} (h : MemForm s) : MemForm (chanFire s c) := .after_notify (.after_setChan h)

theorem MemForm.after_drainFault {c status reason} (h : MemForm s) : MemForm (drainFault s c status reason) :=
  .ite (.after_chanDisabled (.after_raiseD (.after_bump (.after_setF h)))) (.after_raiseD (.after_bump (.after_setF h)))

theorem OutForm.after_execDrainWriteDone {c} (h : MemForm s) : OutForm (execDrainWriteDone c s) := by
  refine .next ?_
  split
  · exact h
  · refine .ite h ?_
    split
    · exact .after_drainFault h
    · refine .ite (.after_chanOverflow (.after_chanSettle (.ite (.after_chanFire ?_) ?_))) (.after_chanSettle (.ite (.after_chanFire ?_)
        ?_)) <;>
      exact .after_setChan (.after_bump (.after_setF (.after_ringWrite h)))

theorem MemForm.after_dheadSet {c v} (h : MemForm s) : MemForm (dheadSet s c v) := .ite (.after_drainCheck (.after_setF h)) (.after_gutDenied h)

theorem OutForm.after_execDheadWrite {req c v} (h : MemForm s) : OutForm (execDheadWrite req c v s) :=
  .next (.after_gutWrite h (fun _ h1 => .after_dheadSet h1))

theorem OutForm.after_execDrainStallTimeout {c} (h : MemForm s) : OutForm (execDrainStallTimeout c s) := by
  refine .next ?_
  split
  · exact h
  · exact .ite h (.after_raiseD (.after_setF (.after_reach h)))

theorem OutForm.after_execDrainWriteFault {c status reason} (h : MemForm s) : OutForm (execDrainWriteFault c status reason s) := by
  refine .next ?_
  split
  · exact h
  · exact .ite (.after_drainFault h) h

theorem MemForm.after_gsnapStart {n o} (h : MemForm s) : MemForm (gsnapStart s n o) := by
  unfold gsnapStart
  dsimp only
  split
  · exact .after_finishOp h
  · next e =>
      refine .after_finishOk (.ite (.ite (.update ?_) (.update ?_)) ?_) <;>
      exact OkForm.after_engWrite h _ e

theorem MemForm.after_gconnStart {n o} (h : MemForm s) : MemForm (gconnStart s n o) := by
  unfold gconnStart
  dsimp only
  split
  · exact .after_finishOp h
  · next e =>
      exact .after_finishOk (.ite (.foldl (fun _ _ h1 => .after_setConn h1) (OkForm.after_engWrite h _ e)) (OkForm.after_engWrite h _ e))

theorem MemForm.after_gflushStart {n o} (h : MemForm s) : MemForm (gflushStart s n o) := .ite (.after_finishOp h) (.update h)

theorem OutForm.after_execGflushDone {op} (h : MemForm s) : OutForm (execGflushDone op s) := by
  refine .next ?_
  split
  · exact .ite h (.after_finishOk (.update (.after_reach h)))
  · exact h

theorem OutForm.after_execGflushTimeout {op} (h : MemForm s) : OutForm (execGflushTimeout op s) := by
  refine .next ?_
  split
  · exact .after_finishOp (.after_reach h)
  · exact h

theorem MemForm.after_gutStart {n} (h : MemForm s) : MemForm (gutStart s n) := by
  unfold gutStart
  split
  · exact h
  · split
    · exact .after_gsnapStart h
    · exact .after_gconnStart h
    · exact .after_gflushStart h

/-! ### The Loft (Machine/Loft.lean) -/

theorem MemForm.after_badSlate {ctx a} (h : MemForm s) : MemForm (badSlate s ctx a) := .after_raiseD (.after_bump h)

theorem MemForm.after_poolShow {i} (h : MemForm s) : MemForm (poolShow s i) := .after_setF h

theorem MemForm.after_poolLow {i} (h : MemForm s) : MemForm (poolLow s i) := .ite h (.ite (.after_raiseD (.update h)) h)

theorem MemForm.after_poolPop {i n} (h : MemForm s) : MemForm (poolPop s i n).2 := .ite_snd h (.after_poolLow (.after_poolShow (.after_setF h)))

theorem OutForm.after_execLoftPoolTailWrite {req i v} (h : MemForm s) : OutForm (execLoftPoolTailWrite req i v s) :=
  .next (.after_gated h (fun _ h1 => .ite (.after_poolShow (.after_setF h1)) (.after_bump h1)))

theorem MemForm.after_appendStart {n o x} (h : MemForm s) : MemForm (appendStart s n o x) :=
  .ite (.after_finishOp h) (.ite (.after_finishOp (.after_bump h)) (.after_putOp (.update (.after_poolPop (.after_poolPop h)))))

theorem MemForm.after_linkPage {r b p first} (h : MemForm s) : MemForm (linkPage s r b p first) := by
  refine .after_writeLe (.ite ?_ ?_) <;>
  exact .after_writeLe (.after_writeLe (.after_writeLe (.after_writeLe (.after_writeBytes h))))

theorem MemForm.after_linkPages {r b f ps} (h : MemForm s) : MemForm (linkPages s r b f ps) := by
  induction ps generalizing s with
  | nil => exact h
  | cons p ps ih =>
    unfold linkPages
    exact ih (.after_linkPage h)

theorem MemForm.after_beginSlate {r b f} {st : State × List Nat} (h : MemForm st.1) : MemForm (beginSlate r b st f).1 := by
  unfold beginSlate
  dsimp only
  split
  · exact h
  · dsimp only
    exact .after_writeBytes (.ite (.after_writeLe (.ite h (.after_writeLe h))) (.ite h (.after_writeLe h)))

theorem MemForm.after_writeToken {r b i} (h : MemForm s) : MemForm (writeToken r b s i) := by
  unfold writeToken
  dsimp only
  split
  · exact h
  · exact .after_writeBytes (.after_writeBytes h)

theorem MemForm.after_writeCount {r b f} (h : MemForm s) : MemForm (writeCount r b s f) := by
  unfold writeCount
  split
  · exact h
  · exact .after_writeLe h

theorem MemForm.after_appendWrites {r b x} (h : MemForm s) : MemForm (appendWrites s r b x) :=
  .after_writeLe (.foldl (fun _ _ h1 => .after_writeCount h1) (.foldl (fun _ _ h1 => .after_writeToken h1)
    (.foldl_fst (fun _ _ h1 => .after_beginSlate h1) (.after_linkPages h))))

theorem OutForm.after_execLoftAppendDone {op} (h : MemForm s) : OutForm (execLoftAppendDone op s) := by
  refine .next ?_
  split
  · refine .ite h ?_
    dsimp only
    split
    · exact .after_finishOp (.after_badSlate h)
    · exact .after_finishOk (.after_appendWrites h)
  · exact h

theorem MemForm.after_queryStart {n o x} (h : MemForm s) : MemForm (queryStart s n o x) :=
  .ite (.after_finishOp h) (.after_setF (.update (.after_bump h)))

theorem MemForm.after_queryCounts {x rows} (h : MemForm s) : MemForm (queryCounts s x rows) := .after_bumpN (.after_bumpN (.after_bumpN h))

theorem MemForm.after_resultSend {n o x block node tag} (h : MemForm s) : MemForm (resultSend s n o x block node tag) := by
  unfold resultSend
  dsimp only
  split
  · next e => exact OkForm.after_loftSend (.update h) _ e
  · next e => exact .after_opGone (ErrForm.after_loftSend (.update h) _ e)

theorem OutForm.after_execLoftQueryDone {op memErr} (h : MemForm s) : OutForm (execLoftQueryDone op memErr s) := by
  refine .next ?_
  split
  · refine .ite h (.ite (.after_finishOp h) ?_)
    split
    · exact .after_finishOp (.after_badSlate h)
    · dsimp only
      split
      · exact .after_resultSend (.after_queryCounts h)
      · split
        · exact .after_finishOp (.after_queryCounts h)
        · next e => exact .after_finishOk (.after_putOp (OkForm.after_engWrite (.after_queryCounts h) _ e))
  · exact h

theorem MemForm.after_biasLoaded {k v} (h : MemForm s) : MemForm (biasLoaded s k v) := .after_setF h

theorem MemForm.after_biasStart {n o x} (h : MemForm s) : MemForm (biasStart s n o x) := .update h

theorem OutForm.after_execLbiasLoadDone {op} (h : MemForm s) : OutForm (execLbiasLoadDone op s) := by
  refine .next ?_
  split
  · exact .ite h (.ite (.after_finishOk (.after_biasLoaded (.update h))) (.after_finishOp (.after_biasLoaded (.update h))))
  · exact h

theorem MemForm.after_loftStart {n} (h : MemForm s) : MemForm (loftStart s n) := by
  unfold loftStart
  split
  · exact h
  · dsimp only
    split
    · exact .after_queryStart (.update (.ite (.after_latchWake h) (.after_ungate h)))
    · exact .after_appendStart (.update (.ite (.after_latchWake h) (.after_ungate h)))
    · exact .after_biasStart (.update (.ite (.after_latchWake h) (.after_ungate h)))

theorem MemForm.after_loftArrive {m b query} (h : MemForm s) : MemForm (loftArrive s m b query) := by
  unfold loftArrive
  dsimp only
  split
  · exact .after_finishOp (.after_putOp (.update (.update (.after_latchWake h))))
  · refine .ite ?_ (.ite ?_ (.after_arriveOp (fun _ h1 _ => .after_loftStart h1) (.update (.after_latchWake h)))) <;>
    exact .after_refuse (.after_putOp (.update (.update (.after_latchWake h))))

theorem OutForm.after_execLoftAppend {m payload} (h : MemForm s) : OutForm (execLoftAppend m payload s) :=
  .next (.after_nawynArrive h (fun _ h1 => .after_loftArrive h1))

theorem OutForm.after_execLoftQuery {m payload} (h : MemForm s) : OutForm (execLoftQuery m payload s) :=
  .next (.after_nawynArrive h (fun _ h1 => .after_loftArrive h1))

theorem MemForm.after_loftAbortMsg {m} (h : MemForm s) : MemForm (loftAbortMsg s m) := by
  unfold loftAbortMsg
  dsimp only
  split
  · exact .after_replyMsg h
  · split
    · exact .ite (.after_replyMsg h) (.after_replyMsg (.after_finishOp (.update h)))
    · exact h

theorem OutForm.after_execLoftAbort {m} (h : MemForm s) : OutForm (execLoftAbort m s) :=
  .next (.after_nawynArrive h (fun _ h1 => .after_loftAbortMsg h1))

end

end Sys2Proof.Machine
end

section
/-! PROOFS. The form of memory is kept by the receiver of the eave
transport (10), queue pairs and operations (08). -/

namespace Sys2Proof.Machine

section
variable {s : State}

/-! ### Windows, regions and the receiver (Machine/Xpt.lean) -/

theorem MemForm.after_setWin {w x} (h : MemForm s) : MemForm (setWin s w x) := .update h

theorem MemForm.after_pickFree {ws} (h : MemForm s) : MemForm (pickFree s ws).2 := by
  unfold pickFree
  split
  · exact h
  · exact h
  · exact .after_drawDword h

theorem MemForm.after_closeWin {w} (h : MemForm s) : MemForm (closeWin s w) := .after_setWin (.update h)

theorem MemForm.after_dormerOpenStart {n o} (h : MemForm s) : MemForm (dormerOpenStart s n o) := by
  refine .ite (.after_finishOp h) (.ite (.after_finishOp h) ?_)
  split
  · exact .after_finishOp h
  · split
    · next e => exact .after_finishOp (.snd_of_eq (.after_pickFree h) e)
    · next e => exact .after_finishOk (.after_setWin (.snd_of_eq (.after_pickFree h) e))

theorem MemForm.after_dormerRevokeStart {n o} (h : MemForm s) : MemForm (dormerRevokeStart s n o) := .ite (.after_finishOp h) (.after_closeWin h)

theorem OutForm.after_execDormerRevokeDone {op} (h : MemForm s) : OutForm (execDormerRevokeDone op s) := by
  refine .next ?_
  split
  · exact .after_finishOk h
  · exact h

theorem MemForm.after_raiseW {ring bay ev} (h : MemForm s) : MemForm (raiseW s ring bay ev) := .after_raiseR h

theorem OutForm.after_execDormerExpiry {w} (h : MemForm s) : OutForm (execDormerExpiry w s) := by
  refine .next ?_
  dsimp only
  split
  · exact .ite h (.after_raiseW (.after_closeWin (.after_reach h)))
  · exact h

theorem OutForm.after_execWindowWrapHoldExpiry {w} (h : MemForm s) : OutForm (execWindowWrapHoldExpiry w s) := by
  refine .next ?_
  split
  · exact .after_setWin (.update (.after_reach h))
  · exact h

theorem MemForm.after_touchRgn {i} (h : MemForm s) : MemForm (touchRgn s i) := .update (.ite h (.after_bump h))

theorem MemForm.after_regionRegStart {n o} (h : MemForm s) : MemForm (regionRegStart s n o) := by
  refine .ite (.after_finishOp h) (.ite (.after_finishOp (.after_touchRgn h)) (.ite (.after_finishOp (.after_touchRgn h)) ?_))
  split
  · exact .after_finishOp (.after_touchRgn h)
  · exact .after_finishOk (.update (.after_writeBytes (.after_touchRgn h)))

theorem MemForm.after_regionDeregStart {n o} (h : MemForm s) : MemForm (regionDeregStart s n o) :=
  .ite (.after_finishOp h) (.ite (.after_finishOp (.after_touchRgn h)) (.after_writeBytes (.after_touchRgn h)))

theorem OutForm.after_execRegionDeregDone {op} (h : MemForm s) : OutForm (execRegionDeregDone op s) := .next (.ite (.after_finishOk h) h)

theorem MemForm.after_staleHit {c w gen} (h : MemForm s) : MemForm (staleHit s c w gen) := .ite (.after_raiseW (.after_bump (.after_setConn h))) h

theorem MemForm.after_keyViolation {c key check valid} (h : MemForm s) : MemForm (keyViolation s c key check valid) := by
  have hcount {x} : MemForm (bump (setConn s c x) Fld.xptKeyViolCnt 0) := .after_bump (.after_setConn h)
  refine .ite ?_ h
  split
  · exact .ite (.after_raiseR hcount) (.after_raiseD hcount)
  · exact .after_raiseD hcount

theorem OkForm.after_checkWindow {c rref off len right} (h : MemForm s) : OkForm Prod.snd (checkWindow s c rref off len right) :=
  .ite .error (.ite .error (.ite .error (.ite .error (.ok h))))
theorem ErrForm.after_checkWindow {c rref off len right} (h : MemForm s) : ErrForm Prod.snd (checkWindow s c rref off len right) :=
  .ite (.error (.after_staleHit h)) (.ite (.error h) (.ite (.error h) (.ite (.error h) .ok)))

theorem OkForm.after_checkRegion {c key off len right} (h : MemForm s) : OkForm Prod.snd (checkRegion s c key off len right) :=
  .ite .error (.ite .error (.ite .error (.ite .error (.ite .error (.ite .error (.ok (.after_touchRgn h)))))))
theorem ErrForm.after_checkRegion {c key off len right} (h : MemForm s) : ErrForm Prod.snd (checkRegion s c key off len right) := by
  refine .ite (.error (.after_keyViolation h)) (.ite ?_ (.ite ?_ (.ite ?_ (.ite ?_ (.ite ?_ .ok))))) <;>
  exact .error (.after_keyViolation (.after_touchRgn h))

theorem OkForm.after_checkRemote {c rh len right} (h : MemForm s) : OkForm Prod.snd (checkRemote s c rh len right) := by
  unfold checkRemote
  extract_lets r
  have hok : OkForm Prod.snd r := .ite (.after_checkWindow h) (.ite (.after_checkRegion h) .error)
  clear_value r
  cases r with
  | error e => exact .error
  | ok a => exact .ite .error (.ok (hok a rfl))
theorem ErrForm.after_checkRemote {c rh len right} (h : MemForm s) : ErrForm Prod.snd (checkRemote s c rh len right) := by
  unfold checkRemote
  extract_lets r
  have hok : OkForm Prod.snd r := .ite (.after_checkWindow h) (.ite (.after_checkRegion h) .error)
  have herr : ErrForm Prod.snd r := .ite (.after_checkWindow h) (.ite (.after_checkRegion h) (.error h))
  clear_value r
  cases r with
  | error e => exact .error (herr e rfl)
  | ok a => exact .ite (.error (hok a rfl)) .ok

theorem MemForm.after_sendAnswer {c op first last ece psn ext payload} (h : MemForm s) :
    MemForm (sendAnswer s c op first last ece psn ext payload) :=
  .after_sendPkt (.after_chargePartner h)

theorem MemForm.after_sendAck {c dup} (h : MemForm s) : MemForm (sendAck s c dup) := .after_sendAnswer (.after_setConn h)

theorem MemForm.after_sendNak {c syn psn value} (h : MemForm s) : MemForm (sendNak s c syn psn value) := .after_sendAnswer (.after_setConn h)

theorem MemForm.after_termNak {c hd syn n skips} (h : MemForm s) : MemForm (termNak s c hd syn n skips) :=
  .ite (.after_sendNak h) (.after_setConn (.after_sendNak h))

theorem MemForm.after_ackDue {c asked ce} (h : MemForm s) : MemForm (ackDue s c asked ce) := .ite (.after_sendAck h) h

theorem MemForm.after_performed {c hd n asked} (h : MemForm s) : MemForm (performed s c hd n asked) := .after_ackDue (.after_setConn h)

theorem MemForm.after_skipped {c hd n} (h : MemForm s) : MemForm (skipped s c hd n) := .after_ackDue (.after_setConn h)

theorem MemForm.after_doWrite {c hd rh bs} (h : MemForm s) : MemForm (doWrite s c hd rh bs) := by
  refine .ite (.after_termNak h) ?_
  split
  · next e => exact .after_termNak (ErrForm.after_checkRemote h _ e)
  · next e => exact .after_performed (.after_writeBytes (OkForm.after_checkRemote h _ e))

theorem MemForm.after_sendInto {c hd n got bs} (h : MemForm s) : MemForm (sendInto s c hd n got bs) := by
  unfold sendInto
  split
  · exact .after_termNak h
  · refine .ite (.after_termNak (.after_finishOp h)) ?_
    split
    · exact .after_termNak (.after_finishOp h)
    · next e =>
        refine .ite (.after_finishOk (.after_putOp ?_)) ?_ <;>
        exact .after_performed (.after_setConn (OkForm.ite (.ok h) (.after_engWrite h) _ e))

theorem MemForm.after_doSend {c hd bs} (h : MemForm s) : MemForm (doSend s c hd bs) := by
  refine .ite (.after_termNak h) ?_
  split
  · exact .after_sendInto h
  · split
    · exact .after_sendNak h
    · exact .after_sendInto h

theorem MemForm.after_sendResponses {c psn a len} (h : MemForm s) : MemForm (sendResponses s c psn a len) :=
  .foldl (fun _ _ h1 => .after_sendAnswer (.after_fetchBytes h1)) h

theorem MemForm.after_doRead {c hd rh len} (h : MemForm s) : MemForm (doRead s c hd rh len) := by
  refine .ite (.after_termNak h) ?_
  split
  · next e => exact .after_termNak (ErrForm.after_checkRemote h _ e)
  · next e => exact .after_performed (.after_sendResponses (OkForm.after_checkRemote h _ e))

theorem MemForm.after_sendOld {c psn old} (h : MemForm s) : MemForm (sendOld s c psn old) := .after_sendAnswer h

theorem MemForm.after_doAtomic {c hd rh f} (h : MemForm s) : MemForm (doAtomic s c hd rh f) := by
  refine .ite (.after_termNak h) ?_
  split
  · next e => exact .after_termNak (ErrForm.after_checkRemote h _ e)
  · next e => exact .after_performed (.after_sendOld (.after_setConn (.after_writeLe (OkForm.after_checkRemote h _ e))))

theorem MemForm.after_doNotify {c hd w g rights size1 cookie} (h : MemForm s) : MemForm (doNotify s c hd w g rights size1 cookie) :=
  .ite (.after_termNak h) (.after_performed (.after_raiseC h))

theorem MemForm.after_doDuplicate {c hd b} (h : MemForm s) : MemForm (doDuplicate s c hd b) := by
  unfold doDuplicate
  dsimp only
  split
  · split
    · next e => exact .after_sendNak (ErrForm.after_checkRemote (.after_bump h) _ e)
    · next e => exact .after_sendResponses (OkForm.after_checkRemote (.after_bump h) _ e)
  · split
    · exact .after_sendOld (.after_bump h)
    · exact .after_sendAck (.after_bump h)
  · split
    · exact .after_sendOld (.after_bump h)
    · exact .after_sendAck (.after_bump h)
  · exact .after_sendAck (.after_bump h)

theorem MemForm.after_doExpected {c hd b} (h : MemForm s) : MemForm (doExpected s c hd b) := by
  unfold doExpected
  split
  · exact .after_doSend h
  · exact .after_doWrite h
  · exact .after_doRead h
  · exact .after_doAtomic h
  · exact .after_doAtomic h
  · exact .after_doNotify h
  · exact h
  · exact h
  · exact h
  · exact h

theorem MemForm.after_doRequest {c hd b} (h : MemForm s) : MemForm (doRequest s c hd b) := by
  exact .ite (.after_doDuplicate h) (.ite (.ite h (.after_sendNak (.after_bump (.after_setConn h)))) (.ite (.after_skipped h)
    (.after_doExpected (.after_setConn h))))

theorem MemForm.after_tookResponse {c i m} (h : MemForm s) : MemForm (tookResponse s c i m) := .after_setConn h

theorem OkForm.after_keepData {m mtu bs} (h : MemForm s) : OkForm Prod.fst (keepData s m mtu bs) := by
  unfold keepData
  split
  · split
    · exact .map (fun _ h1 => h1) (.after_engWrite h)
    · exact .ok h
  · exact .ok h

theorem MemForm.after_doReadResp {c hd bs} (h : MemForm s) : MemForm (doReadResp s c hd bs) := by
  unfold doReadResp
  dsimp only
  split
  · exact h
  · refine .ite (.after_settleConn (.after_tookResponse h)) ?_
    split
    · exact .after_endMsg (.after_tookResponse h)
    · next e =>
        refine .ite (.after_settleConn (.after_endMsg ?_)) ?_ <;>
        exact .after_tookResponse (OkForm.after_keepData h _ e)

theorem MemForm.after_doAtomicResp {c hd old} (h : MemForm s) : MemForm (doAtomicResp s c hd old) := by
  unfold doAtomicResp
  dsimp only
  split
  · exact h
  · split
    · split
      · refine .ite (.after_settleConn (.after_tookResponse h)) ?_
        split
        · exact .after_settleConn (.after_endMsg (.after_tookResponse h))
        · next e => exact .after_settleConn (.after_endMsg (OkForm.after_engWrite (.after_tookResponse h) _ e))
      · exact .after_settleConn (.after_tookResponse h)
    · exact .after_settleConn (.after_tookResponse h)

theorem MemForm.after_doTerminal {c psn syn} (h : MemForm s) : MemForm (doTerminal s c psn syn) := by
  unfold doTerminal
  dsimp only
  split
  · exact h
  · exact .after_endMsg (.after_putMsg h)

theorem MemForm.after_doNak {c hd syn value} (h : MemForm s) : MemForm (doNak s c hd syn value) := by
  refine .ite h (.ite (.ite h (.after_ackTo h)) ?_)
  split
  · exact .after_retryConn (.ite h (.after_ackTo h))
  · exact .ite (.ite h (.after_ackTo h)) (.after_setConn (.ite h (.after_ackTo h)))
  · exact .after_doTerminal (.ite h (.after_ackTo h))
  · exact .after_doTerminal (.ite h (.after_ackTo h))
  · exact .after_doTerminal (.ite h (.after_ackTo h))
  · exact .after_doTerminal (.ite h (.after_ackTo h))
  · exact .after_doTerminal (.ite h (.after_ackTo h))
  · exact .ite h (.after_ackTo h)

theorem MemForm.after_authFail {c k} (h : MemForm s) : MemForm (authFail s c k) :=
  .ite (.after_raiseC (.after_setConn (.after_bump h))) (.after_bump h)

theorem MemForm.after_takePkt {hd b} (h : MemForm s) : MemForm (takePkt s hd b) := by
  refine .ite (.after_touchCtx h) ?_
  split
  · exact .after_authFail (.after_touchCtx h)
  · refine .after_pump ?_
    split
    · refine .after_ackTo (.ite (.after_dcDecrease ?_) ?_) <;>
      exact .ite (.after_setConn (.after_touchCtx h)) (.after_touchCtx h)
    · exact .after_doNak (.ite (.after_setConn (.after_touchCtx h)) (.after_touchCtx h))
    · exact .after_doReadResp (.ite (.after_setConn (.after_touchCtx h)) (.after_touchCtx h))
    · exact .after_doAtomicResp (.ite (.after_setConn (.after_touchCtx h)) (.after_touchCtx h))
    · exact .after_doRequest (.ite (.after_setConn (.after_touchCtx h)) (.after_touchCtx h))

theorem MemForm.after_eaveTake {hd b} (h : MemForm s) : MemForm (eaveTake s hd b) := .ite (.after_takePkt h) (.update (.ite h (.after_bump h)))

theorem MemForm.after_eaveIn {hd b} (h : MemForm s) : MemForm (eaveIn s hd b) :=
  .ite h (.ite (.after_bump (.after_ungate h)) (.ite (.after_bump (.after_ungate h)) (.after_eaveTake (.after_ungate h))))

theorem OutForm.after_execSendPacket {hd payload} (h : MemForm s) : OutForm (execSendPacket hd payload s) := .next (.after_eaveIn h)

theorem OutForm.after_execWritePacket {hd rh payload} (h : MemForm s) : OutForm (execWritePacket hd rh payload s) := .next (.after_eaveIn h)

theorem OutForm.after_execReadReqPacket {hd rh len} (h : MemForm s) : OutForm (execReadReqPacket hd rh len s) := .next (.after_eaveIn h)

theorem OutForm.after_execReadRespPacket {hd payload} (h : MemForm s) : OutForm (execReadRespPacket hd payload s) := .next (.after_eaveIn h)

theorem OutForm.after_execFetchAddPacket {hd rh opnd1} (h : MemForm s) : OutForm (execFetchAddPacket hd rh opnd1 s) := .next (.after_eaveIn h)

theorem OutForm.after_execCmpSwapPacket {hd rh opnd1 opnd2} (h : MemForm s) : OutForm (execCmpSwapPacket hd rh opnd1 opnd2 s) :=
  .next (.after_eaveIn h)

theorem OutForm.after_execAtomicRespPacket {hd old} (h : MemForm s) : OutForm (execAtomicRespPacket hd old s) := .next (.after_eaveIn h)

theorem OutForm.after_execWindowNotifyPacket {hd window gen rights size1 cookie} (h : MemForm s) :
    OutForm (execWindowNotifyPacket hd window gen rights size1 cookie s) :=
  .next (.after_eaveIn h)

theorem OutForm.after_execAckPacket {hd} (h : MemForm s) : OutForm (execAckPacket hd s) := .next (.after_eaveIn h)

theorem OutForm.after_execNakPacket {hd syndrome value} (h : MemForm s) : OutForm (execNakPacket hd syndrome value s) := .next (.after_eaveIn h)

theorem OutForm.after_execBadEavePacket {hd version opcode} (h : MemForm s) : OutForm (execBadEavePacket hd version opcode s) :=
  .next (.ite h (.ite h (.after_bump (.after_ungate h))))

theorem OutForm.after_execAckCoalesceTimeout {conn} (h : MemForm s) : OutForm (execAckCoalesceTimeout conn s) := by
  refine .next ?_
  dsimp only
  split
  · exact .ite (.after_sendAck (.after_reach h)) h
  · exact h

theorem MemForm.after_pfcTake {p q quanta} (h : MemForm s) : MemForm (pfcTake s p q quanta) :=
  .ite h (.ite (.after_egressFlush (.after_setPfc h)) (.after_setPfc h))

theorem OutForm.after_execPfcFrameReceived {port enables quanta} (h : MemForm s) : OutForm (execPfcFrameReceived port enables quanta s) :=
  .next (.ite h (.foldl (fun _ _ h1 => .ite (.after_pfcTake h1) h1) (.after_egressDue h)))

theorem OutForm.after_execPfcRefresh {port q} (h : MemForm s) : OutForm (execPfcRefresh port q s) := .next (.ite (.after_emit h) h)

theorem OutForm.after_execPfcStormDetected {port q own} (h : MemForm s) : OutForm (execPfcStormDetected port q own s) := by
  refine .next (.ite ?_ ?_)
  · split
    · exact .ite h (.after_raiseD (.after_setPfc (.after_reach h)))
    · exact h
  · split
    · exact .ite h (.after_egressFlush (.after_raiseD (.after_setPfc (.after_reach h))))
    · exact h

theorem OutForm.after_execPfcStormRecovery {port q own} (h : MemForm s) : OutForm (execPfcStormRecovery port q own s) := by
  refine .next (.ite (.ite (.after_raiseD (.after_setPfc h)) h) ?_)
  split
  · exact .after_raiseD (.after_setPfc (.after_reach h))
  · exact h

theorem OkForm.after_notifyStart {n o} (h : MemForm s) : OkForm id (notifyStart s n o) := .ite (.ok (.after_finishOp h)) (.after_xptSend h)

theorem MemForm.after_messageStart {n o} (h : MemForm s) : MemForm (messageStart s n o) := by
  unfold messageStart
  split
  · next e => exact OkForm.ite (.after_notifyStart h) (.after_xptSend h) _ e
  · exact .after_finishOp h

theorem MemForm.after_connOpenStart {n o} (h : MemForm s) : MemForm (connOpenStart s n o) := by
  exact .ite (.after_finishOp h) (.ite (.after_finishOp h) (.ite (.after_finishOp h) (.ite (.after_finishOp h) (.after_finishOk
    (.after_touchCtx (.after_setConn h))))))

theorem MemForm.after_connCloseStart {n o} (h : MemForm s) : MemForm (connCloseStart s n o) := .ite (.after_finishOp h) (.after_setConn h)

theorem OutForm.after_execConnCloseDone {conn} (h : MemForm s) : OutForm (execConnCloseDone conn s) := by
  refine .next (.ite h ?_)
  dsimp only
  split
  · refine .ite (.after_finishOk ?_) ?_ <;>
    exact .update (.foldl (fun _ _ h1 => .after_finishOp h1) (.foldl (fun _ _ h1 => .after_endMsg h1) (.after_setConn h)))
  · exact .update (.foldl (fun _ _ h1 => .after_finishOp h1) (.foldl (fun _ _ h1 => .after_endMsg h1) (.after_setConn h)))

theorem MemForm.after_connQueryStart {n o} (h : MemForm s) : MemForm (connQueryStart s n o) := .after_finishOk h

theorem MemForm.after_xptStart {n} (h : MemForm s) : MemForm (xptStart s n) := by
  unfold xptStart
  split
  · exact h
  · split
    · exact h
    · exact .after_dormerOpenStart h
    · exact .after_dormerRevokeStart h
    · exact .after_regionRegStart h
    · exact .after_regionDeregStart h
    · exact .after_connOpenStart h
    · exact .after_connCloseStart h
    · exact .after_connQueryStart h
    · exact .after_messageStart h

theorem OutForm.after_execContextFillDone {conn ok} (h : MemForm s) : OutForm (execContextFillDone conn ok s) := by
  exact .next (.ite h (.foldl (fun _ _ h1 => .after_judge (fun _ h2 _ => .after_xptStart h2) h1) (.foldl (fun _ _ h1 => .after_takePkt h1)
    (.update (.ite (.after_touchCtx h) (.after_connErr (.after_touchCtx h)))))))

theorem OutForm.after_execContextWriteBackFail {conn} (h : MemForm s) : OutForm (execContextWriteBackFail conn s) :=
  .next (.ite h (.after_connErr h))

/-! ### Queue pairs and admission (Machine/Ring.lean) -/

/-- What an engine begins keeps the form, whichever engine the opcode names. -/
theorem MemForm.after_start {opcode n} (h : MemForm s) : MemForm ((engineOf opcode).start s n) := by
  unfold engineOf
  split
  · exact h
  · split <;> exact h
  · exact .after_xptStart h
  · exact .after_nStart h
  · exact .after_loftStart h
  · exact .after_ulStart h
  · exact .after_secStart h
  · exact .after_gutStart h
theorem MemForm.after_startOf {n} (h : MemForm s) : MemForm (startOf s n) := by
  unfold startOf
  split
  · exact h
  · split
    · exact .after_packetStart h
    · exact .after_nvmeStart h
    · exact .after_loftStart h
    · exact .after_start h

theorem MemForm.after_admDenied (h : MemForm s) : MemForm (admDenied s) := .after_bump h

theorem MemForm.after_qpEnable {q} (h : MemForm s) : MemForm (qpEnable s q) := by
  exact .ite h (.ite (.after_admDenied h) (.after_qpSettle (.after_setQp (.after_setF (.after_setF (.after_setF (.after_setF (.foldl (fun
    _ _ h1 => .after_setF h1) h))))))))

theorem MemForm.after_evrEnable {e} (h : MemForm s) : MemForm (evrEnable s e) := by
  refine .ite h (.ite (.after_admDenied h) (.ite (.after_tellExit ?_) ?_)) <;>
  exact .after_setEvr (.after_setF (.after_setF (.foldl (fun _ _ h1 => .after_setF h1) h)))

theorem MemForm.after_qpDisable {q} (h : MemForm s) : MemForm (qpDisable s q) := .ite (.after_setF (.after_setF h)) h

theorem MemForm.after_evrDisable {e} (h : MemForm s) : MemForm (evrDisable s e) := .after_setF h

theorem OutForm.after_execRingEnable {req evr n} (h : MemForm s) : OutForm (execRingEnable req evr n s) :=
  .next (.after_gated h (fun _ h1 => .ite (.after_admDenied h1) (.ite (.after_evrEnable h1) (.after_qpEnable h1))))

theorem OutForm.after_execRingDisable {req evr n} (h : MemForm s) : OutForm (execRingDisable req evr n s) :=
  .next (.after_gated h (fun _ h1 => .ite (.after_admDenied h1) (.ite (.after_evrDisable h1) (.after_qpDisable h1))))

theorem MemForm.after_abortOps {ns} (h : MemForm s) : MemForm (abortOps s ns) := by
  refine .foldl (fun _ _ h1 => ?_) h
  split
  · exact .ite h1 (.after_finishOp h1)
  · exact h1

theorem OutForm.after_execRingStopDone {evr n} (h : MemForm s) : OutForm (execRingStopDone evr n s) := by
  refine .next (.ite h ?_)
  split
  · exact .ite h (.ite (.after_setF (.after_abortOps h)) (.after_abortOps h))
  · exact .ite (.after_setF (.after_abortOps h)) (.after_abortOps h)

theorem MemForm.after_badDoorbell {evr n v} (h : MemForm s) : MemForm (badDoorbell s evr n v) :=
  .ite (.after_evrPut (.after_bump h)) (.after_raiseR (.after_bump h))

theorem MemForm.after_takeTail {q t} (h : MemForm s) : MemForm (takeTail s q t) := by
  refine .ite (.after_wakeWatchers ?_) ?_ <;>
  exact .ite (.after_setQp (.after_setF h)) (.after_setF h)

theorem MemForm.after_takeHead {q hd} (h : MemForm s) : MemForm (takeHead s q hd) :=
  .ite (.after_setQp (.after_setF (.after_setF h))) (.after_setF h)

theorem MemForm.after_qpDoorbell {q v} (h : MemForm s) : MemForm (qpDoorbell s q v) := by
  refine .ite (.after_latchWake (.after_writeGlobal (.ite (.ite (.after_takeHead ?_) (.after_badDoorbell ?_)) ?_))) (.ite (.ite
    (.after_takeHead ?_) (.after_badDoorbell ?_)) ?_) <;>
  exact .ite (.ite (.after_takeTail h) (.after_badDoorbell h)) h

theorem MemForm.after_evrDoorbell {e v} (h : MemForm s) : MemForm (evrDoorbell s e v) :=
  .ite h (.ite (.after_evrFreed (.after_setF h)) (.after_badDoorbell h))

theorem OutForm.after_execDoorbellWrite {req n v} (h : MemForm s) : OutForm (execDoorbellWrite req n v s) :=
  .next (.after_gated h (fun _ h1 => .after_qpDoorbell h1))

theorem OutForm.after_execEventRingDoorbell {req n v} (h : MemForm s) : OutForm (execEventRingDoorbell req n v s) :=
  .next (.after_gated h (fun _ h1 => .after_evrDoorbell h1))

theorem OutForm.after_execCqStallTimeout {qp} (h : MemForm s) : OutForm (execCqStallTimeout qp s) :=
  .next (.ite h (.after_raiseR (.after_bump (.after_setQp (.after_setF h)))))

theorem OutForm.after_execNotifyCoalesceTimeout {kind n} (h : MemForm s) : OutForm (execNotifyCoalesceTimeout kind n s) := by
  refine .next ?_
  dsimp only
  split
  · exact .ite h (.after_qpFire (.after_reach h))
  · exact .ite h (.after_evrFire (.after_reach h))
  · exact .ite h (.after_chanFire (.after_reach h))
  · exact h

theorem SomeForm.after_fetchTake {q} (h : MemForm s) : SomeForm (·.2.2.2) (fetchTake s q) := by
  refine .ite .none (.ite .none ?_)
  split
  · split
    · exact .none
    · exact .some (.after_setQp (.after_setF h))
  · exact .none

theorem MemForm.after_enrol {o} (h : MemForm s) : MemForm (enrol s o).2 := .after_putOp (.update h)

theorem MemForm.after_abortOp {q n target} (h : MemForm s) : MemForm (abortOp s q n target) := by
  unfold abortOp
  split
  · exact .after_finishOp h
  · split
    · exact .ite (.after_finishOp h) (.after_endEarly (.after_putOp h))
    · exact h

theorem MemForm.after_fetchedOp {q o d data refused} (h : MemForm s) : MemForm (fetchedOp s q o d data refused) := by
  refine .ite (.after_endEarly (.after_enrol h)) (.ite (.ite (.after_finishOp (.after_putOp (.after_enrol h))) (.ite (.after_finishOk
    (.after_putOp (.after_enrol h))) (.after_abortOp (.after_putOp (.after_enrol h))))) (.ite (.after_finishOp (.after_enrol h)) (.ite
    (.after_finishOp (.after_enrol h)) ?_)))
  split
  · exact .after_finishOp (.after_enrol h)
  · exact .after_arriveOp (fun _ h1 _ => .after_startOf h1) h

theorem MemForm.after_fetchDesc {q d data} (h : MemForm s) : MemForm (fetchDesc s q d data) := by
  unfold fetchDesc
  split
  · exact h
  · next e => exact .after_fetchedOp (SomeForm.after_fetchTake h _ e)

theorem OutForm.after_execDescriptorFetch {qp host data} (h : MemForm s) : OutForm (execDescriptorFetch qp host data s) :=
  .next (.after_fetchDesc h)

theorem MemForm.after_gOver {o} (h : MemForm s) : MemForm (gOver s o) := .ite (.after_bump h) (.after_raiseD (.after_setPool (.after_bump h)))

theorem MemForm.after_gServe {o} (h : MemForm s) : MemForm (gServe s o) := .after_setPool h

theorem MemForm.after_serve {n o} (h : MemForm s) : MemForm (serve s n o) :=
  .after_admitOp (fun _ h1 _ => .after_startOf h1) (.ite (.ite (.after_gServe h) (.after_gOver h)) h)

theorem OutForm.after_execAdmission {op} (h : MemForm s) : OutForm (execAdmission op s) := by
  refine .next ?_
  split
  · exact h
  · exact .ite h (.ite (.ite h (.after_serve h)) (.after_judge (fun _ h1 _ => .after_startOf h1) h))

theorem MemForm.after_capRefuse {n o} (h : MemForm s) : MemForm (capRefuse s n o) :=
  .ite (.ite (.after_refuseCap (.after_bump h)) (.ite h (.after_refuseCap (.after_putOp h)))) (.after_refuseCap h)

theorem OutForm.after_execAdmissionWaitExpiry {op} (h : MemForm s) : OutForm (execAdmissionWaitExpiry op s) := by
  refine .next ?_
  split
  · exact h
  · refine .ite h ?_
    split
    · exact .after_judge (fun _ h1 _ => .after_startOf h1) h
    · exact .ite h (.ite (.after_refuse h) (.ite (.after_refuse (.after_reach h)) h))
    · exact .ite h (.after_capRefuse (.after_reach h))

theorem MemForm.after_shedAll {p} (h : MemForm s) : MemForm (shedAll s p) := by
  refine .foldl (fun _ _ h1 => ?_) h
  split
  · exact .ite (.after_refuseCap h1) h1
  · exact h1

theorem OutForm.after_execSheddingStart {pool} (h : MemForm s) : OutForm (execSheddingStart pool s) := by
  refine .next ?_
  split
  · exact h
  · exact .ite h (.after_shedAll (.after_setF (.after_reach h)))

theorem OutForm.after_execSheddingEnd {pool} (h : MemForm s) : OutForm (execSheddingEnd pool s) := .next (.ite h (.ite (.after_setF h) h))

theorem MemForm.after_judgePartner {all i} (h : MemForm s) : MemForm (judgePartner s all i) :=
  .foldl (fun _ _ h1 => .after_judge (fun _ h2 _ => .after_startOf h2) h1) h

theorem MemForm.after_partnerReload {i} (h : MemForm s) : MemForm (partnerReload s i) := by
  unfold partnerReload
  split
  · exact h
  · exact .update h

theorem MemForm.after_partnerSync {v} (h : MemForm s) : MemForm (partnerSync s v) :=
  .ite h (.after_judgePartner (.foldl (fun _ _ h1 => .after_partnerReload h1) h))

theorem OutForm.after_execPartnerSync {req v} (h : MemForm s) : OutForm (execPartnerSync req v s) :=
  .next (.after_gated h (fun _ h1 => .ite (.after_partnerSync h1) (.after_admDenied h1)))

theorem MemForm.after_partnerEvict {i} (h : MemForm s) : MemForm (partnerEvict s i) := by
  unfold partnerEvict
  split
  · exact h
  · exact .update (.foldl (fun _ _ h1 => .ite h1 (.after_writeLe h1)) h)

theorem OutForm.after_execPartnerRecordFill {index evict} (h : MemForm s) : OutForm (execPartnerRecordFill index evict s) :=
  .next (.ite h (.ite (.ite (.after_partnerEvict h) h) (.after_judgePartner (.update (.ite (.after_partnerEvict h) h)))))

/-! ### Rows that name an operation (Machine/RingOps.lean) -/

theorem OutForm.after_ringRow {q opcode opId flags fs data} (h : MemForm s) : OutForm (ringRow s q opcode opId flags fs data) :=
  .next (.after_fetchDesc h)

end

end Sys2Proof.Machine
end

section
/-! PROOFS. The form of memory is kept by the host endpoints (07) and
accesses of the control space (00). -/

namespace Sys2Proof.Machine

section
variable {s : State}

/-! ### The host endpoints (Machine/Host.lean) -/

theorem MemForm.after_stopFns {ep fns cause} (h : MemForm s) : MemForm (stopFns s ep fns cause) :=
  .foldl (fun _ _ h1 => .ite (.after_setFn h1) h1) (.foldl (fun _ _ h1 => .after_setF (.after_setF h1)) h)

theorem OutForm.after_execFunctionStopDone {ep fn} (h : MemForm s) : OutForm (execFunctionStopDone ep fn s) := by
  refine .next (.ite h (.after_raiseD (.after_setFn (.foldl (fun _ _ h1 => .after_setF h1) ?_))))
  split
  · refine .ite (.after_bumpN (.after_abortOps h)) (.ite ?_ ?_) <;>
    exact .after_setCtrl (.after_ctrlClear (.after_bumpN (.after_abortOps h)))
  · exact .after_bumpN (.after_abortOps h)

theorem MemForm.after_atsDrop {ep fns} (h : MemForm s) : MemForm (atsDrop s ep fns) := .after_setEp h

theorem MemForm.after_resetFns {ep fns} (h : MemForm s) : MemForm (resetFns s ep fns) := by
  refine .after_atsDrop (.foldl (fun _ _ h1 => .ite (.after_setF (.after_setFn h1)) ?_) h)
  split
  · exact .ite (.after_setCtrl (.after_ctrlClear (.after_setFn h1))) (.after_setFn h1)
  · exact .after_setFn h1

theorem MemForm.after_flrBegin {ep fn} (h : MemForm s) : MemForm (flrBegin s ep fn) :=
  .ite h (.ite (.after_stopFns (.after_stopFns (.after_setFn h))) (.after_stopFns (.after_setFn h)))

theorem OutForm.after_execFlr {ep fn} (h : MemForm s) : OutForm (execFlr ep fn s) := .next (.ite (.after_flrBegin h) h)

theorem OutForm.after_execFlrDone {ep fn} (h : MemForm s) : OutForm (execFlrDone ep fn s) := .next (.ite h (.after_setFn (.after_resetFns h)))

theorem MemForm.after_vfsEnd {ep} (h : MemForm s) : MemForm (vfsEnd s ep) := .ite (.after_setFn (.after_stopFns h)) h

theorem OutForm.after_execVfEnableClear {ep} (h : MemForm s) : OutForm (execVfEnableClear ep s) := .next (.ite (.after_vfsEnd h) h)

theorem MemForm.after_busMasterEnd {ep fn} (h : MemForm s) : MemForm (busMasterEnd s ep fn) := .ite (.after_setFn (.after_stopFns h)) h

theorem OutForm.after_execBusMasterEnableClear {ep fn} (h : MemForm s) : OutForm (execBusMasterEnableClear ep fn s) :=
  .next (.ite (.after_busMasterEnd h) h)

theorem OutForm.after_execEpLinkUp {ep speed width flit} (h : MemForm s) : OutForm (execEpLinkUp ep speed width flit s) :=
  .next (.ite h (.after_poolsSettle (.after_raiseD (.after_setEp (.foldl (fun _ _ h1 => .after_setF h1) h)))))

theorem MemForm.after_epLinkLost {ep} (h : MemForm s) : MemForm (epLinkLost s ep) :=
  .after_poolsSettle (.after_failRequests (.after_stopFns (.after_setEp (.after_raiseD (.after_bump (.after_setF h))))))

theorem OutForm.after_execEpLinkDown {ep} (h : MemForm s) : OutForm (execEpLinkDown ep s) := .next (.ite (.after_epLinkLost h) h)

theorem OutForm.after_execLinkHotReset {ep} (h : MemForm s) : OutForm (execLinkHotReset ep s) :=
  .next (.ite h (.after_setEp (.after_ideReset (.after_resetFns (.after_failRequests (.after_stopFns h))))))

theorem OutForm.after_execPerstAssert {ep} (h : MemForm s) : OutForm (execPerstAssert ep s) :=
  .next (.ite h (.after_setF (.after_ideReset (.after_resetFns (.ite (.after_epLinkLost (.after_stopFns h)) (.after_stopFns h))))))

theorem OutForm.after_execPerstDeassert {ep sris} (h : MemForm s) : OutForm (execPerstDeassert ep sris s) :=
  .next (.ite h (.after_roofSource (.after_setEp (.after_driveWakeN (.after_setF h)))))

theorem MemForm.after_d3Enter {ep} (h : MemForm s) : MemForm (d3Enter s ep) :=
  .ite h (.after_setEp (.after_setF (.after_setFn (.after_stopFns h))))

theorem MemForm.after_d0Enter {ep} (h : MemForm s) : MemForm (d0Enter s ep) :=
  .ite h (.after_roofSource (.foldl (fun _ _ h1 => .after_msixFlush h1) (.after_setEp (.after_setF (.after_setFn h)))))

theorem OutForm.after_execD3hotEntry {ep fn} (h : MemForm s) : OutForm (execD3hotEntry ep fn s) := .next (.ite (.after_d3Enter h) h)

theorem OutForm.after_execD0Return {ep fn} (h : MemForm s) : OutForm (execD0Return ep fn s) := .next (.ite (.after_d0Enter h) h)

theorem OutForm.after_execPmeResend {ep fn} (h : MemForm s) : OutForm (execPmeResend ep fn s) := .next (.ite (.after_emit h) h)

theorem OutForm.after_execL0pWidthHalving {ep} (h : MemForm s) : OutForm (execL0pWidthHalving ep s) := .next (.ite (.after_setF h) h)

theorem OutForm.after_execL0pWidthRestore {ep} (h : MemForm s) : OutForm (execL0pWidthRestore ep s) := .next (.ite (.after_setF h) h)

theorem OutForm.after_execClkreqNDeassert {ep} (h : MemForm s) : OutForm (execClkreqNDeassert ep s) := .next (.ite h (.after_setEp h))

theorem MemForm.after_cfgStore {ep fn off w} (h : MemForm s) : MemForm (cfgStore s ep fn off w) := .after_setFn h

theorem MemForm.after_pmcsrWrite {ep v lanes} (h : MemForm s) : MemForm (pmcsrWrite s ep v lanes) := by
  refine .ite ?_ (.ite (.after_d3Enter ?_) (.ite (.after_d0Enter ?_) ?_)) <;>
  exact .ite (.after_setFn h) h

theorem MemForm.after_cfgEffect {ep fn off v lanes} (h : MemForm s) : MemForm (cfgEffect s ep fn off v lanes) :=
  .ite (.after_pmcsrWrite h) (.ite (.after_flrBegin h) (.ite (.after_msixFlush h) h))

theorem OutForm.after_execConfigWrite {ep fn off v be} (h : MemForm s) : OutForm (execConfigWrite ep fn off v be s) := by
  refine .next (.ite h (.after_cfgEffect (.after_cfgStore (.ite (.after_vfsEnd ?_) ?_)))) <;>
  exact .ite (.after_busMasterEnd h) h

theorem MemForm.after_answerBytes {req bs} (h : MemForm s) : MemForm (answerBytes s req bs) := .foldl (fun _ _ h1 => .after_emit h1) h

theorem MemForm.after_apertureGo {ep write a n bs} (h : MemForm s) : MemForm (apertureGo s ep write a n bs) :=
  .ite (.after_writeBytes (.after_touchPurlin h)) (.after_answerBytes (.after_touchPurlin h))

theorem OutForm.after_execApertureAccess {ep off len write bytes} (h : MemForm s) : OutForm (execApertureAccess ep off len write bytes s) := by
  exact .next (.ite h (.ite (.ite h (.after_emit h)) (.ite (.ite (.after_bump h) (.after_answerBytes h)) (.ite (.after_apertureGo h) (.ite
    (.after_bump h) (.after_emit (.after_bump h)))))))

theorem MemForm.after_vfDoorbell {ep vf k v} (h : MemForm s) : MemForm (vfDoorbell s ep vf k v) :=
  .ite (.after_bump h) (.ite (.after_bump h) (.after_qpDoorbell h))

theorem OutForm.after_execVfDoorbellWrite {ep vf off v} (h : MemForm s) : OutForm (execVfDoorbellWrite ep vf off v s) := by
  refine .next (.ite h (.after_gated h (fun _ h1 => ?_)))
  split
  · exact .after_nvmeRegWrite h1
  · exact .ite h1 (.after_vfDoorbell h1)

theorem MemForm.after_vfStorageWrite {req ep v} (h : MemForm s) : MemForm (vfStorageWrite s req ep v) :=
  .ite (.after_bump h) (.ite (.after_setF h) (.after_setF (.after_setF h)))

theorem OutForm.after_execVfStorageWrite {req ep v} (h : MemForm s) : OutForm (execVfStorageWrite req ep v s) := .next (.after_vfStorageWrite h)

theorem OutForm.after_execMsixUnmask {ep fn vec} (h : MemForm s) : OutForm (execMsixUnmask ep fn vec s) :=
  .next (.ite h (.after_msixFlush (.after_setFn h)))

theorem OutForm.after_execAtsInvalidate {ep fn addr size} (h : MemForm s) : OutForm (execAtsInvalidate ep fn addr size s) :=
  .next (.ite h (.after_setEp h))

theorem OutForm.after_execAtsInvalidateCompletion {ep} (h : MemForm s) : OutForm (execAtsInvalidateCompletion ep s) :=
  .next (.ite h (.after_emit (.after_setEp h)))

theorem OutForm.after_execCompletionTimeout {ep tid op} (h : MemForm s) : OutForm (execCompletionTimeout ep tid op s) := by
  refine .next ?_
  split
  · exact .ite (.after_failHeld h) h
  · exact .ite (.after_finishOp h) h

theorem MemForm.after_setRootPort {p x} (h : MemForm s) : MemForm (setRootPort s p x) := .update h

theorem MemForm.after_takeNs {port nss} (h : MemForm s) : MemForm (takeNs s port nss) := .update h

theorem OutForm.after_execRpLinkUp {port type1 multiFn cls nss} (h : MemForm s) : OutForm (execRpLinkUp port type1 multiFn cls nss s) :=
  .next (.ite h (.ite (.after_raiseD (.after_setRootPort h)) (.after_takeNs (.after_setRootPort h))))

theorem MemForm.after_ulPortLost {port} (h : MemForm s) : MemForm (ulPortLost s port) := by
  refine .foldl (fun _ _ h1 => ?_) ?_
  · split
    · split
      · exact .ite (.after_finishOp h1) h1
      · exact h1
    · exact h1
  · split
    · exact .elim h fun _ => .after_drainWriteFail h
    · exact h

theorem OutForm.after_execRpLinkDown {port} (h : MemForm s) : OutForm (execRpLinkDown port s) :=
  .next (.ite h (.after_ulPortLost (.after_ssdLost (.after_raiseD (.after_setRootPort h)))))

/-! ### The control space (Machine/CtlSpace.lean) -/

theorem MemForm.after_nextOf {o} (h : MemForm s) (ho : OutForm o) : MemForm (nextOf s o) := by
  cases o with
  | next t => exact ho t rfl
  | fault r => exact h
  | refused r => exact h

theorem MemForm.after_putFields {r i v} (h : MemForm s) : MemForm (putFields s r i v) := .after_setReg h

theorem MemForm.after_refuseIf {bad cnt k} (h : MemForm s) (hk : ∀ t, MemForm t → MemForm (k t)) : MemForm (refuseIf s bad cnt k) :=
  .ite (.after_bump h) (hk _ h)

theorem MemForm.after_pfOnly {req cnt k} (h : MemForm s) (hk : ∀ t, MemForm t → MemForm (k t)) : MemForm (pfOnly s req cnt k) :=
  .after_refuseIf h (fun _ h1 => hk _ h1)

theorem MemForm.after_ctlRefuse {off size write} (h : MemForm s) : MemForm (ctlRefuse s off size write) :=
  .ite (.after_bump (.after_bump h)) (.after_bump h)

theorem MemForm.after_mbxGo {e} (h : MemForm s) : MemForm (mbxGo s e) := .ite (.after_setF h) (.after_mbxArrive (.after_setF h))

theorem MemForm.after_ctlIdent {req r i v} (h : MemForm s) : MemForm (ctlIdent s req r i v) := by
  unfold ctlIdent
  split
  · exact .after_putFields h
  · exact .ite (.after_vfStorageWrite h) (.after_refuseIf h (fun _ h1 => .ite (.ite (.after_mbxGo h1) h1) (.ite h1 (.after_putFields
      h1))))

theorem MemForm.after_thatchCmdWrite {v} (h : MemForm s) : MemForm (thatchCmdWrite s v) := by
  refine .ite (.after_thatchDeny h) (.ite h ?_)
  split
  · exact .after_thatchReloadCmd h
  · exact .after_thatchCommitCmd h
  · exact .after_thatchCancelCmd h
  · exact h

theorem MemForm.after_thatchQuiesceWrite {req b go} (h : MemForm s) : MemForm (thatchQuiesceWrite s req b go) :=
  .ite (.after_thatchDeny h) (.ite (.after_thatchQuiesceCmd h) h)

theorem MemForm.after_ctlThatch {req r i v} (h : MemForm s) : MemForm (ctlThatch s req r i v) :=
  .ite (.after_thatchQuiesceWrite h) (.after_pfOnly h (fun _ h1 => .ite (.after_thatchCmdWrite h1) (.after_putFields h1)))

theorem MemForm.after_qpCtlWrite {q v} (h : MemForm s) : MemForm (qpCtlWrite s q v) := by
  refine .ite (.after_qpEnable ?_) (.after_qpDisable ?_) <;>
  exact .after_setReg (.ite (.after_admDenied (.ite (.after_bump h) h)) (.ite (.after_bump h) h))

theorem MemForm.after_evrCtlWrite {e v} (h : MemForm s) : MemForm (evrCtlWrite s e v) := by
  refine .ite (.after_evrEnable ?_) (.after_evrDisable ?_) <;>
  exact .after_putFields (.ite (.after_admDenied h) h)

theorem MemForm.after_ctlRing {req r i v} (h : MemForm s) : MemForm (ctlRing s req r i v) := by
  refine .after_refuseIf h (fun _ h1 => ?_)
  split
  · exact .after_refuseIf h1 (fun _ h2 => .after_putFields h2)
  · exact .after_refuseIf h1 (fun _ h2 => .after_putFields h2)
  · exact .after_refuseIf h1 (fun _ h2 => .after_putFields h2)
  · exact .after_refuseIf h1 (fun _ h2 => .after_putFields h2)
  · exact .after_refuseIf h1 (fun _ h2 => .after_putFields h2)
  · exact .after_refuseIf h1 (fun _ h2 => .after_putFields h2)
  · exact .after_qpCtlWrite h1
  · exact .after_evrCtlWrite h1
  · exact .after_putFields h1
  · exact .after_putFields h1
  · exact .after_qpSettle (.after_putFields h1)
  · exact .after_putFields h1

theorem MemForm.after_baseWrite {r lo hi cnt count size v k} (h : MemForm s) (hk : ∀ t, MemForm t → MemForm (k t)) :
    MemForm (baseWrite s r lo hi cnt count size v k) :=
  .ite (hk _ (.after_putFields h)) (.after_bump h)

theorem MemForm.after_countWrite {r lo hi cnt size v k} (h : MemForm s) (hk : ∀ t, MemForm t → MemForm (k t)) :
    MemForm (countWrite s r lo hi cnt size v k) :=
  .ite (hk _ (.after_putFields h)) (.after_bump h)

theorem MemForm.after_ctlAdm {req r i v} (h : MemForm s) : MemForm (ctlAdm s req r i v) := by
  refine .after_pfOnly h (fun _ h1 => ?_)
  split
  · exact .after_baseWrite h1 (fun _ h2 => h2)
  · exact .after_baseWrite h1 (fun _ h2 => h2)
  · exact .after_countWrite h1 (fun _ h2 => h2)
  · exact .after_partnerSync h1
  · exact .after_poolSettle (.after_putFields h1)
  · exact .after_refuseIf h1 (fun _ h2 => .after_poolSettle (.after_putFields h2))
  · exact .after_putFields h1

theorem MemForm.after_ruleCmdWrite {req v} (h : MemForm s) : MemForm (ruleCmdWrite s req v) := by
  unfold ruleCmdWrite
  dsimp only
  split
  · exact .after_nextOf h (.after_execRuleAdd h)
  · exact .after_nextOf h (.after_execRuleDelete h)
  · exact .after_nextOf h (.after_execRuleModify h)
  · exact .after_nextOf h (.after_execRuleSetMiss h)
  · exact .after_nextOf h (.after_execRuleCommitOp h)
  · exact .after_nextOf h (.after_execRuleDiscard h)
  · exact .after_ruleCmd h (fun _ h1 => .after_ruleStat h1)

theorem MemForm.after_fdbCmdWrite {req v} (h : MemForm s) : MemForm (fdbCmdWrite s req v) := by
  unfold fdbCmdWrite
  dsimp only
  split
  · exact .after_nextOf h (.after_execFdbAddStatic h)
  · exact .after_nextOf h (.after_execFdbDelete h)
  · exact .after_nextOf h (.after_execFdbLookup h)
  · exact .after_nextOf h (.after_execFdbClearFlap h)
  · exact .after_nextOf h (.after_execFdbFlush h)
  · exact .after_fdbStat h

theorem MemForm.after_portCfgWrite {p v} (h : MemForm s) : MemForm (portCfgWrite s p v) :=
  .ite (.after_putFields (.after_bump h)) (.after_putFields h)

theorem MemForm.after_ctlTruss {req r i v} (h : MemForm s) : MemForm (ctlTruss s req r i v) := by
  refine .after_pfOnly h (fun _ h1 => ?_)
  split
  · exact .ite (.after_ruleCmdWrite h1) h1
  · exact .ite (.after_fdbCmdWrite h1) h1
  · exact .after_portCfgWrite h1
  · exact .ite (.after_putFields h1) h1
  · exact .ite (.after_putFields h1) h1
  · exact .ite (.after_putFields h1) h1
  · exact .after_putFields h1

theorem MemForm.after_rangeWrite {r first count b v} (h : MemForm s) : MemForm (rangeWrite s r first count b v) :=
  .ite (.after_bump h) (.after_putFields h)

theorem MemForm.after_ctlXpt {req r i v} (h : MemForm s) : MemForm (ctlXpt s req r i v) := by
  refine .after_refuseIf h (fun _ h1 => ?_)
  split
  · exact .after_baseWrite h1 (fun _ h2 => h2)
  · exact .after_baseWrite h1 (fun _ h2 => h2)
  · exact .after_countWrite h1 (fun _ h2 => h2)
  · exact .after_baseWrite h1 (fun _ h2 => h2)
  · exact .after_baseWrite h1 (fun _ h2 => h2)
  · exact .after_countWrite h1 (fun _ h2 => h2)
  · exact .after_rangeWrite h1
  · exact .after_rangeWrite h1
  · exact .after_rangeWrite h1
  · exact .after_rangeWrite h1
  · exact .after_rangeWrite h1
  · exact .after_rangeWrite h1
  · exact .foldl (fun _ _ h2 => .after_pfcSettle h2) (.after_putFields h1)
  · exact .after_putFields h1

theorem MemForm.after_timeCtlWrite {v} (h : MemForm s) : MemForm (timeCtlWrite s v) :=
  .ite (.after_putFields h) (.after_setF (.update (.after_putFields h)))

theorem MemForm.after_ctlNawyn {req r i v} (h : MemForm s) : MemForm (ctlNawyn s req r i v) := by
  refine .after_pfOnly h (fun _ h1 => ?_)
  split
  · exact .after_linkCfgWrite h1
  · exact .ite (.after_nextOf h1 (.after_execCourseArm h1)) h1
  · exact .after_nextOf h1 (.after_execTimeOfsWrite h1)
  · exact .ite (.after_putFields h1) h1
  · exact .after_timeCtlWrite h1
  · exact .after_putFields h1

theorem MemForm.after_poolCfgWrite {i v} (h : MemForm s) : MemForm (poolCfgWrite s i v) :=
  .ite (.after_poolShow (.after_putFields (.after_bump h))) (.after_poolShow (.after_putFields h))

theorem MemForm.after_ctlLoft {req r i v} (h : MemForm s) : MemForm (ctlLoft s req r i v) := by
  refine .ite (.after_refuseIf h (fun _ h1 => ?_)) (.after_refuseIf h (fun _ h1 => .after_putFields h1))
  split
  · exact .after_refuseIf h1 (fun _ h2 => .after_putFields h2)
  · exact .after_refuseIf h1 (fun _ h2 => .after_putFields h2)
  · exact .after_poolCfgWrite h1
  · exact .after_nextOf h1 (.after_execLoftPoolTailWrite h1)
  · exact .after_putFields h1

theorem MemForm.after_ctlUl {req r i v} (h : MemForm s) : MemForm (ctlUl s req r i v) := by
  refine .after_pfOnly h (fun _ h1 => ?_)
  split
  · exact .after_refuseIf h1 (fun _ h2 => .after_putFields h1)
  · exact .after_refuseIf h1 (fun _ h2 => .after_putFields h1)
  · exact .after_refuseIf h1 (fun _ h2 => .after_putFields h1)
  · exact .after_refuseIf h1 (fun _ h2 => .after_putFields h1)
  · exact .after_nextOf h1 (.after_execUlBaseInv h1)
  · exact .after_putFields h1

theorem MemForm.after_ctlStor {req r i v} (h : MemForm s) : MemForm (ctlStor s req r i v) := by
  unfold ctlStor
  split
  · exact .after_refuseIf h (fun _ h1 => .after_putFields h1)
  · exact .after_refuseIf h (fun _ h1 => .after_putFields h1)
  · exact .after_nsCtlWrite h
  · exact .after_refuseIf h (fun _ h1 => .after_putFields h1)
  · exact .after_refuseIf h (fun _ h1 => .after_putFields h1)
  · exact .after_refuseIf h (fun _ h1 => .after_putFields h1)
  · exact .after_refuseIf h (fun _ h1 => .after_putFields h1)
  · exact .after_refuseIf h (fun _ h1 => .after_putFields h1)
  · exact .after_bump h

theorem MemForm.after_ctlGut {req r i v} (h : MemForm s) : MemForm (ctlGut s req r i v) := by
  refine .ite (.after_markWrite h) (.after_pfOnly h (fun _ h1 => ?_))
  split
  · exact .after_chanCtlWrite h1
  · exact .after_dheadSet h1
  · exact .after_refuseIf h1 (fun _ h2 => .after_putFields h2)
  · exact .after_refuseIf h1 (fun _ h2 => .after_putFields h2)
  · exact .after_refuseIf h1 (fun _ h2 => .after_putFields h2)
  · exact .after_putFields h1
  · exact .after_putFields h1
  · exact .after_putFields h1

theorem MemForm.after_domCtlWrite {req d v} (h : MemForm s) : MemForm (domCtlWrite s req d v) := by
  refine .ite h (.after_refuseIf h (fun _ h1 => .ite ?_ (.ite (.after_bump ?_) (.after_setF ?_)))) <;>
  exact .ite (.ite (.after_latchWake (.after_putFields h1)) (.after_setF (.after_latchWake (.after_putFields h1)))) (.after_putFields h1)

theorem MemForm.after_pwrCtlWrite {req v} (h : MemForm s) : MemForm (pwrCtlWrite s req v) :=
  .after_pfOnly h (fun _ h1 => .ite (.after_bootNow (.ite (.after_tarpEnter h1) h1)) (.ite (.after_tarpEnter h1) h1))

theorem MemForm.after_bayRstWrite {req bay go} (h : MemForm s) : MemForm (bayRstWrite s req bay go) :=
  .after_refuseIf h (fun _ h1 => .after_bayResetStart h1)

theorem MemForm.after_chainCtlWrite {v} (h : MemForm s) : MemForm (chainCtlWrite s v) :=
  .ite (.after_chainRelease (.after_putFields h)) (.after_putFields h)

theorem MemForm.after_nodeIdWrite {req v} (h : MemForm s) : MemForm (nodeIdWrite s req v) := .ite h (.after_setF (.after_setF h))

theorem MemForm.after_thermWrite {v} (h : MemForm s) : MemForm (thermWrite s v) := .ite (.after_setReg h) (.after_bump h)

theorem MemForm.after_accCtlWrite {req n v} (h : MemForm s) : MemForm (accCtlWrite s req n v) :=
  .ite (.after_accRequest (.after_putFields h)) (.after_putFields h)

theorem MemForm.after_ctlPwr {req r i v} (h : MemForm s) : MemForm (ctlPwr s req r i v) := by
  unfold ctlPwr
  split
  · exact .after_pwrCtlWrite h
  · exact .after_bayRstWrite h
  · exact .after_domCtlWrite h
  · exact .after_chainCtlWrite h
  · exact .after_nodeIdWrite h
  · exact .ite (.after_putFields h) h
  · exact .after_conTx h
  · exact .after_thermWrite h
  · exact .after_accCtlWrite h
  · exact .after_putFields h

theorem MemForm.after_regWrite {req r i v} (h : MemForm s) : MemForm (regWrite s req r i v) := by
  exact .ite (.after_ctlIdent h) (.ite (.after_ctlThatch h) (.ite (.after_qpDoorbell h) (.ite (.after_evrDoorbell h) (.ite (.after_ctlRing
    h) (.ite (.after_ctlAdm h) (.ite (.after_ctlTruss h) (.ite (.after_ctlXpt h) (.ite (.after_ctlNawyn h) (.ite (.after_ctlLoft h) (.ite
    (.after_ctlUl h) (.ite (.after_ctlStor h) (.ite (.after_ctlGut h) (.after_ctlPwr h)))))))))))))

theorem MemForm.after_ctlWrite {req off size v} (h : MemForm s) : MemForm (ctlWrite s req off size v) := by
  refine .ite ?_ (.after_gated h (fun _ h1 => ?_))
  · split
    · exact .after_regWrite h
    · exact h
  · split
    · exact .after_regWrite h1
    · exact h1

theorem MemForm.after_regRead {r i} (h : MemForm s) : MemForm (regRead s r i).2 := by
  unfold regRead
  split
  · exact h
  · exact h
  · exact h
  · exact h
  · exact h
  · exact h
  · exact .after_ptpPop h
  · exact .after_setReg h
  · exact h
  · exact h
  · exact h
  · exact h
  · exact .after_conRead h
  · exact h

theorem MemForm.after_ctlRead {off size} (h : MemForm s) : MemForm (ctlRead s off size).2 := by
  unfold ctlRead
  split
  · exact h
  · exact .ite_snd (.after_regRead h) (.ite_snd (.after_regRead h) (.after_regRead h))

theorem MemForm.after_badAccess {req off size write} (h : MemForm s) : MemForm (badAccess s req off size write) := by
  unfold badAccess
  dsimp only
  split
  · exact .ite (.after_trap (.after_ctlRefuse h)) (.after_ctlRefuse h)
  · exact .ite (.after_ctlRefuse h) (.after_emit (.after_ctlRefuse h))

theorem OutForm.after_execRegisterWrite {req off size v} (h : MemForm s) : OutForm (execRegisterWrite req off size v s) :=
  .next (.ite (.after_badAccess h) (.after_ctlWrite h))

theorem OutForm.after_execMisalignedControlAccess {req off size write x} (h : MemForm s) :
    OutForm (execMisalignedControlAccess req off size write x s) :=
  .next (.ite (.after_badAccess h) h)

theorem OutForm.after_execOffReq {req d v} (h : MemForm s) : OutForm (execOffReq req d v s) := .next (.after_domCtlWrite h)

theorem OutForm.after_execWakeReq {req d v} (h : MemForm s) : OutForm (execWakeReq req d v s) := .next (.after_domCtlWrite h)

theorem OutForm.after_execBayReset {req bay go} (h : MemForm s) : OutForm (execBayReset req bay go s) := .next (.after_bayRstWrite h)

theorem OutForm.after_execBootNow {req} (h : MemForm s) : OutForm (execBootNow req s) := .next (.after_pwrCtlWrite h)

theorem OutForm.after_execTarpForceWrite {req} (h : MemForm s) : OutForm (execTarpForceWrite req s) := .next (.after_pwrCtlWrite h)

theorem OutForm.after_execChainReleaseWrite {x v} (h : MemForm s) : OutForm (execChainReleaseWrite x v s) := .next (.after_chainCtlWrite h)

theorem OutForm.after_execNodeIdWrite {req v} (h : MemForm s) : OutForm (execNodeIdWrite req v s) := .next (.after_nodeIdWrite h)

theorem OutForm.after_execConTxWrite {x c} (h : MemForm s) : OutForm (execConTxWrite x c s) := .next (.after_conTx h)

theorem OutForm.after_execConRxRead {req} (h : MemForm s) : OutForm (execConRxRead req s) := .next (.after_emit (.after_conRead h))

theorem OutForm.after_execThermThreshWrite {x v} (h : MemForm s) : OutForm (execThermThreshWrite x v s) := .next (.after_thermWrite h)

theorem MemForm.after_thatchPf {req bay k} (h : MemForm s) (hk : ∀ t, MemForm t → MemForm (k t)) : MemForm (thatchPf s req bay k) :=
  .after_gated h (fun _ h1 => .ite (.after_thatchDeny h1) (hk _ h1))

theorem OutForm.after_execThatchReload {req bay auto} (h : MemForm s) : OutForm (execThatchReload req bay auto s) :=
  .next (.after_thatchPf h (fun _ h1 => .after_thatchReloadCmd h1))

theorem OutForm.after_execThatchCommitOp {req bay} (h : MemForm s) : OutForm (execThatchCommitOp req bay s) :=
  .next (.after_thatchPf h (fun _ h1 => .after_thatchCommitCmd h1))

theorem OutForm.after_execThatchCancel {req bay} (h : MemForm s) : OutForm (execThatchCancel req bay s) :=
  .next (.after_thatchPf h (fun _ h1 => .after_thatchCancelCmd h1))

theorem OutForm.after_execThatchQuiesce {req bay go} (h : MemForm s) : OutForm (execThatchQuiesce req bay go s) :=
  .next (.after_gated h (fun _ h1 => .after_thatchQuiesceWrite h1))

end

end Sys2Proof.Machine
end

section
/-! PROOFS. The form of memory is kept by instructions that access
memory (05, 06), coprocessors (05) and frames on the wire (09, 10). -/

namespace Sys2Proof.Machine

section
variable {s : State}

/-! ### Instructions that access memory (Machine/IsaMem.lean) -/

theorem MemForm.after_access {t a n k go} (h : MemForm s) (hgo : ∀ t, MemForm t → ∀ x0, MemForm (go t x0)) : MemForm (access s t a n k go) := by
  unfold access
  dsimp only
  split
  · exact .after_trap (.after_accessWay h)
  · exact .ite (.after_trap (.after_ctlRefuse (.after_accessWay h))) (hgo _ (.after_accessWay h) _)

theorem MemForm.after_requestLoad {t a n w} (h : MemForm s) : MemForm (requestLoad s t a n w).2 := by
  unfold requestLoad
  split
  · exact .mk_snd (.after_ctlRead h)
  · dsimp only
    split
    · exact h
    · exact .after_atsHold h
  · dsimp only
    split
    · exact h
    · exact .after_atsHold h
  · split
    · next e => exact OkForm.after_nawynLoad h _ e
    · exact h
  · split
    · next e => exact OkForm.after_remoteAccess h _ e
    · exact h
  · exact h

theorem MemForm.after_storeDo {t a n v w} (h : MemForm s) : MemForm (storeDo s t a n v w) := by
  unfold storeDo
  dsimp only
  split
  · exact .after_ctlWrite (.after_dtrace h)
  · split
    · exact .after_postedFail (.after_setThread (.after_dtrace h))
    · exact .after_writeBytes (.after_atsHold (.after_dtrace h))
  · split
    · exact .after_postedFail (.after_setThread (.after_dtrace h))
    · exact .after_writeBytes (.after_atsHold (.after_dtrace h))
  · refine .ite ?_ (.after_postedFail ?_) <;>
    exact .after_nawynStore (.after_setThread (.after_dtrace h))
  · split
    · next e => exact OkForm.after_remoteAccess (.after_setThread (.after_dtrace h)) _ e
    · exact .after_postedFail (.after_setThread (.after_dtrace h))
  · exact .after_writeBytes (.after_dtrace h)

theorem MemForm.after_loadInstr {t rd a n sgn len} (h : MemForm s) : MemForm (loadInstr s t rd a n sgn len) := by
  refine .after_access h (fun _ h1 _ => .ite h1 ?_)
  dsimp only
  split
  · exact .ite (.after_setThread (.after_dtrace (.after_requestLoad h1))) (.after_hold (.after_dtrace (.after_requestLoad h1)))
  · exact .after_hold (.after_requestLoad h1)
  · exact .after_trap (.after_requestLoad h1)

theorem MemForm.after_storeInstr {t a n v len} (h : MemForm s) : MemForm (storeInstr s t a n v len) :=
  .after_access h (fun _ h1 _ => .after_storeDo (.after_advance h1))

theorem OutForm.after_issueLoad {op tid rd ra imm} (h : MemForm s) : OutForm (issueLoad op tid rd ra imm s) :=
  .next (.after_issueI h (fun _ h1 => .after_loadInstr h1))

theorem OutForm.after_issueStore {op tid rd ra imm} (h : MemForm s) : OutForm (issueStore op tid rd ra imm s) :=
  .next (.after_issueI h (fun _ h1 => .after_storeInstr h1))

theorem OutForm.after_issueLoadX {op tid rd ra imm} (h : MemForm s) : OutForm (issueLoadX op tid rd ra imm s) :=
  .next (.after_issueI h (fun _ h1 => .after_loadInstr h1))

theorem OutForm.after_issueStoreX {op tid rd ra imm} (h : MemForm s) : OutForm (issueStoreX op tid rd ra imm s) :=
  .next (.after_issueI h (fun _ h1 => .after_storeInstr h1))

theorem OutForm.after_issueAmo {op tid dword aq rl rd ra rb} (h : MemForm s) : OutForm (issueAmo op tid dword aq rl rd ra rb s) :=
  .next (.after_issueI h (fun _ h1 => .ite h1 (.after_access h1 (fun _ h2 _ => .after_hold (.after_dtrace (.after_writeLe h2))))))

theorem MemForm.after_loadOne {t a n m} (h : MemForm s) : MemForm (loadOne s t a n m).2 := by
  unfold loadOne
  split
  · exact h
  · dsimp only
    split
    · exact .after_trap (.after_accessWay h)
    · refine .ite_snd (.after_trap (.after_ctlRefuse (.after_accessWay h))) ?_
      split
      · refine .ite_snd ?_ (.after_hold ?_) <;>
        exact .after_dtrace (.after_requestLoad (.after_accessWay h))
      · exact .after_hold (.after_requestLoad (.after_accessWay h))
      · exact .after_trap (.after_requestLoad (.after_accessWay h))

theorem MemForm.after_runChkd {t sgn ra rb got} (h : MemForm s) : MemForm (runChkd s t sgn ra rb got) := by
  refine .ite (.after_trap h) (.ite (.after_trap h) ?_)
  dsimp only
  split
  · exact .after_loadOne h
  · split
    · exact .after_loadOne (.after_loadOne h)
    · exact .after_checkBounds (.after_loadOne (.after_loadOne h))

theorem OutForm.after_execChkd {tid sgn ra rb} (h : MemForm s) : OutForm (execChkd tid sgn ra rb s) :=
  .next (.after_issueI h (fun _ h1 => .after_runChkd h1))

theorem MemForm.after_longStep {t g key m} (h : MemForm s) : MemForm (longStep s t g key m).2 := by
  unfold longStep
  dsimp only
  split
  · split
    · exact .after_loadOne h
    · split
      · exact .after_trap (.after_accessWay (.after_loadOne h))
      · refine .ite_snd (.after_trap (.after_ctlRefuse ?_)) (.after_storeDo (.after_setThread ?_)) <;>
        exact .after_accessWay (.after_loadOne h)
  · split
    · exact .after_trap (.after_accessWay h)
    · exact .ite_snd (.after_trap (.after_ctlRefuse (.after_accessWay h))) (.after_storeDo (.after_setThread (.after_accessWay h)))
  · split
    · exact .after_loadOne h
    · exact .ite_snd (.after_loadOne h) (.after_setThread (.after_loadOne h))
  · split
    · exact .after_loadOne h
    · exact .after_setThread (.after_loadOne h)
  · refine .ite_snd (.after_trap h) ?_
    split
    · exact .after_loadOne h
    · exact .after_setThread (.after_loadOne h)

theorem MemForm.after_longSteps {t g key kept n got} (h : MemForm s) : MemForm (longSteps t g key kept n s got) := by
  induction n generalizing s got with
  | zero => exact .ite (.after_advance h) h
  | succ n ih =>
    refine .ite h (.ite (.after_advance h) (.ite h ?_))
    dsimp only
    split
    · exact .after_longStep h
    · exact .after_advance (.after_longStep h)
    · exact ih (.after_longStep h)

theorem MemForm.after_loadKey {t a g steps got n k key} (h : MemForm s) : MemForm (loadKey t a g steps got n k s key).2 := by
  induction n generalizing s k key with
  | zero => exact h
  | succ n ih =>
    unfold loadKey
    dsimp only
    split
    · exact .after_loadOne h
    · exact ih (.after_loadOne h)

theorem MemForm.after_runLong {t g steps got} (h : MemForm s) : MemForm (runLong s t g steps got) := by
  refine .ite (.after_advance h) ?_
  split
  · exact .after_trap h
  · refine .ite ?_ (.after_longSteps h)
    dsimp only
    split
    · exact .after_loadKey h
    · exact .after_longSteps (.after_loadKey h)

theorem OutForm.after_issueLong {tid g steps} (h : MemForm s) : OutForm (issueLong tid g steps s) :=
  .next (.after_issueI h (fun _ h1 => .after_runLong h1))

theorem MemForm.after_release {t b v} (h : MemForm s) : MemForm (release s t b v) := .after_setThread h

theorem MemForm.after_unhold {t} (h : MemForm s) : MemForm (unhold s t) := .after_setThread h

theorem MemForm.after_resume {t i steps got} (h : MemForm s) : MemForm (resume s t i steps got) := by
  unfold resume
  split
  · exact .after_runChkd h
  · exact .after_runLong h
  · exact h

theorem MemForm.after_answered {t b v} (h : MemForm s) : MemForm (answered s t b v) := by
  unfold answered
  split
  · exact .after_resume (.after_unhold h)
  · exact .after_release h

theorem MemForm.after_heldMemErr {t b} (h : MemForm s) : MemForm (heldMemErr s t b) := .after_trap (.after_unhold (.ite (.after_undefRange h) h))

theorem MemForm.after_completeHeld {t b a} (h : MemForm s) : MemForm (completeHeld s t b a) := by
  unfold completeHeld
  split
  · exact .after_answered h
  · exact .after_answered (.after_dtrace h)
  · exact .ite (.after_trap (.after_unhold h)) h
  · exact h
  · exact .ite (.after_heldMemErr h) h

theorem OutForm.after_execAccessCompletion {tid ans} (h : MemForm s) : OutForm (execAccessCompletion tid ans s) := by
  refine .next ?_
  dsimp only
  split
  · exact h
  · refine .ite h (.ite (.ite (.after_release h) h) ?_)
    split
    · exact h
    · exact .after_completeHeld h

theorem OutForm.after_execNonblockingLoadReturn {tid rd memErr} (h : MemForm s) : OutForm (execNonblockingLoadReturn tid rd memErr s) := by
  refine .next ?_
  dsimp only
  split
  · exact h
  · exact .ite (.after_setThread h) (.after_setThread h)

theorem OutForm.after_execPostedStoreFailure {tid addr status} (h : MemForm s) : OutForm (execPostedStoreFailure tid addr status s) :=
  .next (.ite (.after_postedFail h) h)

/-! ### Coprocessors and slabs (Machine/Coproc.lean) -/

theorem OutForm.after_issueCop {unit func tid ver rd rb f} (hf : ∀ t, MemForm t → ∀ a b, MemForm (f t a b).2) (h : MemForm s) :
    OutForm (issueCop unit func tid ver rd rb f s) := by
  refine .next (.after_issueI h fun _ h1 => .ite (.after_trap h1) ?_)
  extract_lets u x r
  have hu : MemForm u := by
    dsimp only [u]
    split
    · exact .after_latchWake h1
    · exact h1
  have hr : MemForm r.2 := hf u hu _ _
  split
  · exact .after_holdVal hr
  · exact .after_trap hr

theorem OutForm.after_execLend {tid ver rd rb} (h : MemForm s) : OutForm (execLend tid ver rd rb s) := .after_issueCop (fun _ h1 _ _ => h1) h

theorem OutForm.after_execLticket {tid ver rd rb} (h : MemForm s) : OutForm (execLticket tid ver rd rb s) :=
  .after_issueCop (fun _ h1 _ _ => h1) h

theorem OutForm.after_execLretired {tid ver rd rb} (h : MemForm s) : OutForm (execLretired tid ver rd rb s) :=
  .after_issueCop (fun _ h1 _ _ => h1) h

theorem OutForm.after_execLbucket {tid ver rd rb} (h : MemForm s) : OutForm (execLbucket tid ver rd rb s) :=
  .after_issueCop (fun _ h1 _ _ => h1) h

theorem OutForm.after_execLpool {tid ver rd rb} (h : MemForm s) : OutForm (execLpool tid ver rd rb s) :=
  .after_issueCop (fun _ h1 _ _ => .ite_snd h1 (.after_drawDword h1)) h

theorem MemForm.after_cryptFunction {t cb hd} (h : MemForm s) : MemForm (cryptFunction s t cb hd).2 := by
  unfold cryptFunction
  split
  · exact h
  · extract_lets src tag
    have htag : MemForm tag.2 := .ite_snd (.after_fetchBytes (.after_fetchBytes h)) (.after_fetchBytes h)
    split
    · exact .after_undefRange (.after_bump htag)
    · split
      · exact htag
      · next e => exact OkForm.after_cryptPut (fun _ h1 _ _ => .ok (.after_writeBytes (.after_holdRange h1))) htag _ e

theorem OutForm.after_execCryptFunction {tid ver rd rb} (h : MemForm s) : OutForm (execCryptFunction tid ver rd rb s) :=
  .after_issueCop (fun _ h1 _ _ => .ite_snd h1 (.ite_snd (.after_cryptFunction (.after_fetchBytes h1)) (.after_fetchBytes h1))) h

theorem OutForm.after_execRandom {tid ver rd rb} (h : MemForm s) : OutForm (execRandom tid ver rd rb s) :=
  .after_issueCop (fun _ h1 _ _ => .after_drawDword h1) h

theorem OutForm.after_execKeyinfo {tid ver rd rb} (h : MemForm s) : OutForm (execKeyinfo tid ver rd rb s) :=
  .after_issueCop (fun _ h1 _ _ => h1) h

theorem MemForm.after_shashAt {t a} (h : MemForm s) : MemForm (shashAt s t a).2 := .after_setThread (.after_fetchBytes h)

theorem OutForm.after_execShash {tid ver rd rb} (h : MemForm s) : OutForm (execShash tid ver rd rb s) :=
  .after_issueCop (fun _ h1 _ _ => .ite_snd h1 (.after_shashAt h1)) h

theorem OutForm.after_execShashHi {tid ver rd rb} (h : MemForm s) : OutForm (execShashHi tid ver rd rb s) :=
  .after_issueCop (fun _ h1 _ _ => h1) h

theorem OutForm.after_execSstat {tid ver rd rb} (h : MemForm s) : OutForm (execSstat tid ver rd rb s) := .after_issueCop (fun _ h1 _ _ => h1) h

theorem OutForm.after_execSlabInstruction {tid slab ver rd rb func} (h : MemForm s) :
    OutForm (execSlabInstruction tid slab ver rd rb func s) := by
  refine .next (.after_issueI h (fun _ h1 => ?_))
  dsimp only
  split
  · exact .after_trap h1
  · exact .after_hold (.after_emit h1)

theorem MemForm.after_slabFault {t b status} (h : MemForm s) : MemForm (slabFault s t b status) := .after_trap (.after_unhold h)

theorem MemForm.after_slabLate {t b} (h : MemForm s) : MemForm (slabLate s t b) := .after_slabFault (.after_bump h)

theorem OutForm.after_execSlabResponse {tid slab result status} (h : MemForm s) : OutForm (execSlabResponse tid slab result status s) := by
  refine .next ?_
  split
  · exact h
  · exact .ite h (.ite (.after_slabLate h) (.ite (.after_release h) (.after_slabFault h)))

theorem OutForm.after_execSlabTimeout {tid} (h : MemForm s) : OutForm (execSlabTimeout tid s) := by
  refine .next ?_
  split
  · exact h
  · exact .after_slabLate (.after_reach h)

theorem OutForm.after_execSlabMemoryAccess {slab addr write bytes} (h : MemForm s) : OutForm (execSlabMemoryAccess slab addr write bytes s) := by
  refine .next ?_
  split
  · exact h
  · exact .ite h (.ite (.ite (.after_writeBytes h) (.after_emit h)) (.after_raiseD (.after_bump (.ite h (.after_emit h)))))

/-! ### Frames on the wire (Machine/Wire.lean) -/

theorem MemForm.after_eaveFrame {port f w} (h : MemForm s) : MemForm (eaveFrame s port f w) :=
  .ite (.after_bump h) (.ite (.after_bump h) (.after_eaveTake h))

theorem MemForm.after_copyIn {port vport f} (h : MemForm s) : MemForm (copyIn s port vport f) := by
  refine .ite (.after_eaveFrame h) (.ite (.after_rxDeliver h) (.after_pfcSettle (.ite (.after_latchWake ?_) (.after_ungate ?_)))) <;>
  exact .after_putCopy (.update h)

theorem MemForm.after_switchFrame {src q f} (h : MemForm s) : MemForm (switchFrame s src q f) :=
  .foldl (fun _ _ h1 => .ite (.after_frameOut h1) (.after_copyIn h1)) h

theorem OutForm.after_execFrameReceived {port ts frame fcsOk} (h : MemForm s) : OutForm (execFrameReceived port ts frame fcsOk s) := by
  refine .next (.ite h (.ite ?_ (.ite ?_ (.ite ?_ (.ite ?_ (.after_switchFrame (.ite (.after_learnAsk (.after_ungate h)) (.after_ungate
    h)))))))) <;>
  exact .after_bump (.after_ungate h)

theorem OutForm.after_execTxDone {op host failed} (h : MemForm s) : OutForm (execTxDone op host failed s) := by
  refine .next ?_
  split
  · exact h
  · refine .ite (.after_dataError h) ?_
    split
    · exact .after_finishOp h
    · exact .ite (.after_finishOp h) (.ite (.after_finishOp h) (.ite h (.after_finishOk (.after_switchFrame (.after_ungate
        (.after_holdRange (.after_putOp h)))))))

end

end Sys2Proof.Machine
end

section
/-! PROOFS. Every step keeps the form of memory (00 R8; log 7): the lemma of each command's function, by command, then a step whole. -/

namespace Sys2Proof.Machine

/-- Every command's function keeps the form: commands that are one operation of the model share its lemma. -/
theorem OutForm.after_exec {s : State} (h : MemForm s) (i : Instr) : OutForm (exec i s) := by
  cases i with
  | registerWrite => exact .after_execRegisterWrite h
  | misalignedControlAccess _ _ _ _ v => exact .after_execMisalignedControlAccess (x := v) h
  | powerOnResetExit => exact .after_execPowerOnResetExit h
  | powerLoss => exact .after_execPowerLoss h
  | crystalDetectionDone => exact .after_execCrystalDetectionDone h
  | crystalFail => exact .after_execCrystalFail h
  | resetNAssert => exact .after_execResetNAssert h
  | boardPgFall => exact .after_execBoardPgFall h
  | resetNRise => exact .after_execResetNRise h
  | dozeEntry => exact .after_execDozeEntry h
  | napDelayExpiry => exact .after_execNapDelayExpiry h
  | offEntryStart => exact .after_execOffEntryStart h
  | quiesceDone => exact .after_execQuiesceDone h
  | powerDownDone => exact .after_execPowerDownDone h
  | domainWakeDone => exact .after_execDomainWakeDone h
  | offReq => exact .after_execOffReq h
  | wakeReq => exact .after_execWakeReq h
  | roofSleepConditionsHeld => exact .after_execRoofSleepConditionsHeld h
  | roofPointOfNoReturn => exact .after_execRoofPointOfNoReturn h
  | roofSleepEntered => exact .after_execRoofSleepEntered h
  | roofWakeSource => exact .after_execRoofWakeSource h
  | roofTimerExpiry => exact .after_execRoofTimerExpiry h
  | roofExitDigestCheck => exact .after_execRoofExitDigestCheck h
  | roofExit => exact .after_execRoofExit h
  | bayReset => exact .after_execBayReset h
  | bayResetDone => exact .after_execBayResetDone h
  | bootSourceTimeout => exact .after_execBootSourceTimeout h
  | bootHeaderCheck => exact .after_execBootHeaderCheck h
  | bootImageReadDone => exact .after_execBootImageReadDone h
  | bootSignatureCheckDone => exact .after_execBootSignatureCheckDone h
  | backoffExpiry => exact .after_execBackoffExpiry h
  | networkBootTick => exact .after_execNetworkBootTick h
  | neighbourTurnTimeout => exact .after_execNeighbourTurnTimeout h
  | bootNow => exact .after_execBootNow h
  | tarpForceWrite => exact .after_execTarpForceWrite h
  | tarpEntryDone => exact .after_execTarpEntryDone h
  | assignQuery => exact .after_execAssignQuery h
  | assignSet => exact .after_execAssignSet h
  | ident => exact .after_execIdent h
  | status => exact .after_execStatus h
  | sensorRead => exact .after_execSensorRead h
  | mailboxWrite => exact .after_execMailboxWrite h
  | mailboxRead => exact .after_execMailboxRead h
  | accPower => exact .after_execAccPower h
  | accStatus => exact .after_execAccStatus h
  | wake => exact .after_execWake h
  | tarpForce => exact .after_execTarpForce h
  | resetWarm => exact .after_execResetWarm h
  | release => exact .after_execRelease h
  | chainBadFrame => exact .after_execChainBadFrame h
  | chainTimeout => exact .after_execChainTimeout h
  | chainReleaseWrite req => exact .after_execChainReleaseWrite (x := req) h
  | nodeIdWrite => exact .after_execNodeIdWrite h
  | consoleCharacter => exact .after_execConsoleCharacter h
  | consoleBreak => exact .after_execConsoleBreak h
  | conTxWrite req => exact .after_execConTxWrite (x := req) h
  | consoleTxCharacterSent => exact .after_execConsoleTxCharacterSent h
  | conRxRead => exact .after_execConRxRead h
  | sensorSample => exact .after_execSensorSample h
  | thermtrip => exact .after_execThermtrip h
  | thermThreshWrite req => exact .after_execThermThreshWrite (x := req) h
  | accOnRequest => exact .after_execAccOnRequest h
  | accOffRequest => exact .after_execAccOffRequest h
  | accResetPulse => exact .after_execAccResetPulse h
  | accPgRise => exact .after_execAccPgRise h
  | accRstDelayExpiry => exact .after_execAccRstDelayExpiry h
  | accOffDelayExpiry => exact .after_execAccOffDelayExpiry h
  | accPulseExpiry => exact .after_execAccPulseExpiry h
  | accPgTimeout => exact .after_execAccPgTimeout h
  | accPgLost => exact .after_execAccPgLost h
  | thatchReload => exact .after_execThatchReload h
  | thatchFetchDone => exact .after_execThatchFetchDone h
  | thatchSignaturesDone => exact .after_execThatchSignaturesDone h
  | thatchChecksDone => exact .after_execThatchChecksDone h
  | strikeLift => exact .after_execStrikeLift h
  | thatchQuiesce => exact .after_execThatchQuiesce h
  | drainLimitExpiry => exact .after_execDrainLimitExpiry h
  | holdLimitExpiry => exact .after_execHoldLimitExpiry h
  | thatchApplyStart => exact .after_execThatchApplyStart h
  | thatchApplyDone => exact .after_execThatchApplyDone h
  | thatchCommitOp => exact .after_execThatchCommitOp h
  | thatchCancel => exact .after_execThatchCancel h
  | thatchReapplyDone => exact .after_execThatchReapplyDone h
  | powerBudgetTick => exact .after_execPowerBudgetTick h
  | slabInstruction => exact .after_execSlabInstruction h
  | slabResponse => exact .after_execSlabResponse h
  | slabTimeout => exact .after_execSlabTimeout h
  | slabMemoryAccess => exact .after_execSlabMemoryAccess h
  | add | sub | and | or | xor | andn | sll | srl | sra | rotr | slt | sltu | min | max | minu | maxu | clz | ctz | popc | bswap | sextb
    | sexth | sextw => exact .after_issueAlu h
  | addi | andi | ori | xori | slti | sltiu => exact .after_issueImm h
  | shi => exact .after_execShi h
  | lui => exact .after_execLui h
  | mul | mulh | mulhu | div | divu | rem | remu => exact .after_issueMul h
  | lb | lbu | lh | lhu | lw | lwu | ld => exact .after_issueLoad h
  | sb | sh | sw | sd => exact .after_issueStore h
  | amoswap | amoadd | amoand | amoor | amoxor | amomin | amomax | amominu | amomaxu | cas => exact .after_issueAmo h
  | fenceAcq | fenceRel | fenceFull | fenceI => exact .after_issueFence h
  | mfs => exact .after_execMfs h
  | mts => exact .after_execMts h
  | tctlStart => exact .after_execTctlStart h
  | tctlReset => exact .after_execTctlReset h
  | paneInv => exact .after_execPaneInv h
  | swtrap => exact .after_execSwtrap h
  | brk => exact .after_execBrk h
  | eret => exact .after_execEret h
  | fadd | fsub | fmul | fmadd | fmin | fmax | fdiv | fsqrt | feq | flt | fle | fabs | fneg | cvtN | cvtWl | cvtWh | f2i | i2f =>
    exact .after_issueFp h
  | beq | bne | blt | bge | bltu | bgeu => exact .after_issueBr h
  | jal => exact .after_execJal h
  | j => exact .after_execJ h
  | jalr => exact .after_execJalr h
  | djnz | djnzl => exact .after_issueDjnz h
  | blog => exact .after_execBlog h
  | setb => exact .after_execSetb h
  | bb => exact .after_execBb h
  | bset => exact .after_execBset h
  | bclr => exact .after_execBclr h
  | btog => exact .after_execBtog h
  | btas => exact .after_execBtas h
  | bmovt => exact .after_execBmovt h
  | bmovf => exact .after_execBmovf h
  | brd => exact .after_execBrd h
  | bwr => exact .after_execBwr h
  | wait => exact .after_execWait h
  | waitSatisfied => exact .after_execWaitSatisfied h
  | waitTimeout => exact .after_execWaitTimeout h
  | chk => exact .after_execChk h
  | chki => exact .after_execChki h
  | chkd => exact .after_execChkd h
  | movb | fill | scanb | crcb | hashb => exact .after_issueLong h
  | lix => exact .after_execLix h
  | luix => exact .after_execLuix h
  | addix | andix | orix | xorix => exact .after_issueExt h
  | ldx | lwx | lwux => exact .after_issueLoadX h
  | sdx | swx => exact .after_issueStoreX h
  | jalx => exact .after_execJalx h
  | illegalInstruction => exact .after_execIllegalInstruction h
  | noCoprocessorFitted => exact .after_execNoCoprocessorFitted h
  | lend => exact .after_execLend h
  | lticket => exact .after_execLticket h
  | lretired => exact .after_execLretired h
  | lbucket => exact .after_execLbucket h
  | lpool => exact .after_execLpool h
  | cryptFunction => exact .after_execCryptFunction h
  | random => exact .after_execRandom h
  | keyinfo => exact .after_execKeyinfo h
  | shash => exact .after_execShash h
  | shashHi => exact .after_execShashHi h
  | sstat => exact .after_execSstat h
  | accessCompletion => exact .after_execAccessCompletion h
  | nonblockingLoadReturn => exact .after_execNonblockingLoadReturn h
  | postedStoreFailure => exact .after_execPostedStoreFailure h
  | tdeadlineExpiry => exact .after_execTdeadlineExpiry h
  | interruptTaken => exact .after_execInterruptTaken h
  | epLinkUp => exact .after_execEpLinkUp h
  | epLinkDown => exact .after_execEpLinkDown h
  | linkHotReset => exact .after_execLinkHotReset h
  | perstAssert => exact .after_execPerstAssert h
  | perstDeassert => exact .after_execPerstDeassert h
  | flr => exact .after_execFlr h
  | vfEnableClear => exact .after_execVfEnableClear h
  | busMasterEnableClear => exact .after_execBusMasterEnableClear h
  | d3hotEntry => exact .after_execD3hotEntry h
  | d0Return => exact .after_execD0Return h
  | functionStopDone => exact .after_execFunctionStopDone h
  | flrDone => exact .after_execFlrDone h
  | configWrite => exact .after_execConfigWrite h
  | apertureAccess => exact .after_execApertureAccess h
  | vfDoorbellWrite => exact .after_execVfDoorbellWrite h
  | msixUnmask => exact .after_execMsixUnmask h
  | atsInvalidate => exact .after_execAtsInvalidate h
  | atsInvalidateCompletion => exact .after_execAtsInvalidateCompletion h
  | completionTimeout => exact .after_execCompletionTimeout h
  | pmeResend => exact .after_execPmeResend h
  | l0pWidthHalving => exact .after_execL0pWidthHalving h
  | l0pWidthRestore => exact .after_execL0pWidthRestore h
  | vfStorageWrite => exact .after_execVfStorageWrite h
  | mbxPing => exact .after_execMbxPing h
  | mbxStatus => exact .after_execMbxStatus h
  | bootBegin => exact .after_execBootBegin h
  | bootBlock => exact .after_execBootBlock h
  | bootEnd => exact .after_execBootEnd h
  | logRead => exact .after_execLogRead h
  | mbxTarpForce => exact .after_execMbxTarpForce h
  | mbxResetWarm => exact .after_execMbxResetWarm h
  | mbxAccPower => exact .after_execMbxAccPower h
  | barePortFrame => exact .after_execBarePortFrame h
  | rpLinkUp => exact .after_execRpLinkUp h
  | rpLinkDown => exact .after_execRpLinkDown h
  | ringEnable => exact .after_execRingEnable h
  | ringDisable => exact .after_execRingDisable h
  | ringStopDone => exact .after_execRingStopDone h
  | doorbellWrite => exact .after_execDoorbellWrite h
  | eventRingDoorbell => exact .after_execEventRingDoorbell h
  | descriptorFetch => exact .after_execDescriptorFetch h
  | nop | abort | copy | tx | rxPost | dormerOpen | dormerRevoke | regionReg | regionDereg | send | write | read | fetchAdd | cmpSwap
    | windowNotify | recvPost | connOpen | connClose | connQuery | nsend | nwrite | nread | nrecvPost | lappend | lquery | lbiasLoad | ulCut
    | ulDrain | ulRestore | ulRelease | keyLoad | keyDestroy | crypt | floorAdvance | gsnap | gconn | gflush => exact .after_ringRow h
  | copyDone => exact .after_execCopyDone h
  | cqStallTimeout => exact .after_execCqStallTimeout h
  | notifyCoalesceTimeout => exact .after_execNotifyCoalesceTimeout h
  | partnerSync => exact .after_execPartnerSync h
  | partnerRecordFill => exact .after_execPartnerRecordFill h
  | admission => exact .after_execAdmission h
  | admissionWaitExpiry => exact .after_execAdmissionWaitExpiry h
  | sheddingStart => exact .after_execSheddingStart h
  | sheddingEnd => exact .after_execSheddingEnd h
  | frameReceived => exact .after_execFrameReceived h
  | trussParse => exact .after_execTrussParse h
  | reedDispatch => exact .after_execReedDispatch h
  | reedReturn => exact .after_execReedReturn h
  | reedTimeout => exact .after_execReedTimeout h
  | ruleAdd => exact .after_execRuleAdd h
  | ruleDelete => exact .after_execRuleDelete h
  | ruleModify => exact .after_execRuleModify h
  | ruleSetMiss => exact .after_execRuleSetMiss h
  | ruleCommitOp => exact .after_execRuleCommitOp h
  | ruleDiscard => exact .after_execRuleDiscard h
  | ruleCommitDeferred => exact .after_execRuleCommitDeferred h
  | txDone => exact .after_execTxDone h
  | learn => exact .after_execLearn h
  | entryAgeing => exact .after_execEntryAgeing h
  | fdbAddStatic => exact .after_execFdbAddStatic h
  | fdbDelete => exact .after_execFdbDelete h
  | fdbLookup req vlan => exact .after_execFdbLookup (req := req) (vlan := vlan) h
  | fdbClearFlap => exact .after_execFdbClearFlap h
  | fdbFlush => exact .after_execFdbFlush h
  | dormerRevokeDone => exact .after_execDormerRevokeDone h
  | dormerExpiry => exact .after_execDormerExpiry h
  | windowWrapHoldExpiry => exact .after_execWindowWrapHoldExpiry h
  | regionDeregDone => exact .after_execRegionDeregDone h
  | sendPacket => exact .after_execSendPacket h
  | writePacket => exact .after_execWritePacket h
  | readReqPacket => exact .after_execReadReqPacket h
  | readRespPacket => exact .after_execReadRespPacket h
  | fetchAddPacket => exact .after_execFetchAddPacket h
  | cmpSwapPacket => exact .after_execCmpSwapPacket h
  | atomicRespPacket => exact .after_execAtomicRespPacket h
  | windowNotifyPacket => exact .after_execWindowNotifyPacket h
  | ackPacket => exact .after_execAckPacket h
  | nakPacket => exact .after_execNakPacket h
  | badEavePacket => exact .after_execBadEavePacket h
  | retryTimeout => exact .after_execRetryTimeout h
  | rnrWaitExpiry => exact .after_execRnrWaitExpiry h
  | ackCoalesceTimeout => exact .after_execAckCoalesceTimeout h
  | contextFillDone => exact .after_execContextFillDone h
  | connCloseDone => exact .after_execConnCloseDone h
  | pfcFrameReceived => exact .after_execPfcFrameReceived h
  | pfcRefresh => exact .after_execPfcRefresh h
  | pfcStormDetected => exact .after_execPfcStormDetected h
  | pfcStormRecovery => exact .after_execPfcStormRecovery h
  | rateIncreaseTimer => exact .after_execRateIncreaseTimer h
  | nawynLinkEnable => exact .after_execNawynLinkEnable h
  | nawynLinkDisable => exact .after_execNawynLinkDisable h
  | nawynDetectRetry => exact .after_execNawynDetectRetry h
  | nawynPeerDetected => exact .after_execNawynPeerDetected h
  | nawynAlignDone => exact .after_execNawynAlignDone h
  | nawynExchange _ _ _ _ schedId armAt => exact .after_execNawynExchange (_armAt := armAt) (_schedId := schedId) h
  | laneLockLoss => exact .after_execLaneLockLoss h
  | nawynRetrainDone => exact .after_execNawynRetrainDone h
  | nakFlit => exact .after_execNakFlit h
  | linkAckReceived => exact .after_execLinkAckReceived h
  | replayTimeout => exact .after_execReplayTimeout h
  | timeFlit => exact .after_execTimeFlit h
  | timeFlitTick => exact .after_execTimeFlitTick h
  | nawynSend => exact .after_execNawynSend h
  | nawynWrite => exact .after_execNawynWrite h
  | nawynReadReq _ host => exact .after_execNawynReadReq (_host := host) h
  | nawynReadResp => exact .after_execNawynReadResp h
  | undelivered => exact .after_execUndelivered h
  | bootMessage => exact .after_execBootMessage h
  | packetMessage => exact .after_execPacketMessage h
  | nawynBadMtype => exact .after_execNawynBadMtype h
  | readTimeout => exact .after_execReadTimeout h
  | messageStart => exact .after_execMessageStart h
  | courseArm => exact .after_execCourseArm h
  | courseActivation => exact .after_execCourseActivation h
  | windowInstanceEnd => exact .after_execWindowInstanceEnd h
  | timeOfsWrite => exact .after_execTimeOfsWrite h
  | ptpTimestamp => exact .after_execPtpTimestamp h
  | ptpTimeRead => exact .after_execPtpTimeRead h
  | lateMaxRead => exact .after_execLateMaxRead h
  | loftAppend => exact .after_execLoftAppend h
  | loftAppendDone => exact .after_execLoftAppendDone h
  | loftQuery => exact .after_execLoftQuery h
  | loftQueryDone => exact .after_execLoftQueryDone h
  | lbiasLoadDone => exact .after_execLbiasLoadDone h
  | loftAbort => exact .after_execLoftAbort h
  | loftPoolTailWrite => exact .after_execLoftPoolTailWrite h
  | cutReady => exact .after_execCutReady h
  | groupCopyDone => exact .after_execGroupCopyDone h
  | cutReadyTimeout => exact .after_execCutReadyTimeout h
  | cutAbandonComplete => exact .after_execCutAbandonComplete h
  | shingleHashed => exact .after_execShingleHashed h
  | shingleWriteAck => exact .after_execShingleWriteAck h
  | manifestBodyAck => exact .after_execManifestBodyAck h
  | manifestHeaderAck => exact .after_execManifestHeaderAck h
  | ulDrainTimeoutExpiry => exact .after_execUlDrainTimeoutExpiry h
  | restoreShingleRead => exact .after_execRestoreShingleRead h
  | restoreWriteAck => exact .after_execRestoreWriteAck h
  | ulBaseInv => exact .after_execUlBaseInv h
  | nvmeSqDoorbell => exact .after_execNvmeSqDoorbell h
  | createIoSubmissionQueue | deleteIoSubmissionQueue | createIoCompletionQueue | deleteIoCompletionQueue | getLogPage | identify
    | nvmeAbort | setFeatures | getFeatures | asynchronousEventRequest => exact .after_adminRow h
  | nvmeFlush | nvmeWrite | nvmeRead | writeZeroes | datasetManagement => exact .after_ioRow h
  | invalidCommandOpcode => exact .after_execInvalidCommandOpcode h
  | backendCompletion => exact .after_execBackendCompletion h
  | namespaceValidWrite => exact .after_execNamespaceValidWrite h
  | keyDestroyDone => exact .after_execKeyDestroyDone h
  | floorStepBlown => exact .after_execFloorStepBlown h
  | getVersion => exact .after_spdmRow h (fun _ h1 => .after_spdmSend (.after_setSpdm h1))
  | getCapabilities => exact .after_spdmRow h (fun _ h1 => .ite (.after_spdmSend (.after_hostDraw (.after_setSpdm h1))) (.after_spdmError h1))
  | negotiateAlgorithms => exact .after_spdmRow h (fun _ h1 => .ite (.after_spdmSend (.after_setSpdm h1)) (.after_spdmError h1))
  | getDigests => exact .after_spdmRow h (fun _ h1 => .after_negotiated h1 (fun _ h2 => .after_spdmFree h2))
  | getCertificate => exact .after_execGetCertificate h
  | challenge => exact .after_spdmRow h (fun _ h1 => .after_negotiated h1 (fun _ h2 => .ite (.after_spdmError h2) (.after_spdmFree h2)))
  | getMeasurements => exact .after_execGetMeasurements h
  | keyExchange =>
    exact .after_spdmRow h (fun _ h1 => .after_negotiated h1 (fun _ h2 => .ite (.after_spdmError h2) (.after_spdmFree (.after_setSpdm h2))))
  | finish => exact .after_execFinish h
  | heartbeat | keyUpdate => exact .after_spdmRow h (fun _ h1 => .after_inSession h1 (fun _ _ h2 => .after_spdmSend h2))
  | endSession => exact .after_execEndSession h
  | spdmUnsupportedRequest => exact .after_execSpdmUnsupportedRequest h
  | query => exact .after_ideRow h (fun _ h1 => .after_emit (.after_hostDraw h1))
  | keyProg => exact .after_ideRow h (fun _ h1 => .ite (.after_ideSend h1) (.ite (.after_ideSend h1) (.after_ideSend (.after_setIde h1))))
  | kSetGo => exact .after_ideRow h (fun _ h1 => .ite (.after_ideSend (.after_setIde h1)) (.after_ideSend h1))
  | kSetStop => exact .after_ideRow h (fun _ h1 => .after_ideSend (.after_setIde h1))
  | ideCheckFailed => exact .after_execIdeCheckFailed h
  | channelEnable => exact .after_execChannelEnable h
  | channelDisable => exact .after_execChannelDisable h
  | channelStopDone => exact .after_execChannelStopDone h
  | tracePacketOffered => exact .after_execTracePacketOffered h
  | drainWriteDone => exact .after_execDrainWriteDone h
  | dheadWrite => exact .after_execDheadWrite h
  | drainStallTimeout => exact .after_execDrainStallTimeout h
  | drainWriteFault => exact .after_execDrainWriteFault h
  | gutMark _ k => exact .after_execGutMark (x := k) h
  | gflushDone => exact .after_execGflushDone h
  | gflushTimeout => exact .after_execGflushTimeout h
  | pllLockTimeout => exact .after_execPllLockTimeout h
  | spiResetWaitExpiry => exact .after_execSpiResetWaitExpiry h
  | sfdpReadDone => exact .after_execSfdpReadDone h
  | boardPgRise => exact .after_execBoardPgRise h
  | bootReadError => exact .after_execBootReadError h
  | consoleBreakEnd => exact .after_execConsoleBreakEnd h
  | consoleLineHoldExpiry => exact .after_execConsoleLineHoldExpiry h
  | linkUp => exact .after_execLinkUp h
  | linkDown => exact .after_execLinkDown h
  | badFlit => exact .after_execBadFlit h
  | contextWriteBackFail => exact .after_execContextWriteBackFail h
  | clkreqNDeassert => exact .after_execClkreqNDeassert h

/-- A step keeps the form, whatever command stands at the front of the queue, or none. -/
theorem OutForm.after_step {s : State} (h : MemForm s) : OutForm (step s) := by
  unfold step
  split
  · exact .next (.after_idle h)
  · exact .after_exec (.update h) _

/-- Settles O60: the functions that make up a step store bytes, lose bytes, or keep the host's bytes alone at a reset; each leaves the
order of the bytes, and `State.reset` holds none. -/
theorem stepKeepsMemoryForm : Obligations.StepKeepsMemoryForm := by
  unfold Obligations.StepKeepsMemoryForm
  exact ⟨reset_wf, fun s t h hstep => OutForm.after_step h t hstep⟩

end Sys2Proof.Machine
end

section
/-! PROOFS. Endpoints' links, resets, function stops and D-states (07 R186 to R188, R201 to R207; 02 R49), and the root ports' links
(07 R213): what a function and an endpoint read as after a change, what the beginning of a stop and a reset leave in a function, what
each command does where it takes effect, and the statement assembled from them. -/

namespace Sys2Proof.Machine

/-! ### A function and an endpoint after a change -/

section
variable (s : State) (ep n : Nat)

theorem fnOf_setFn (f : Fn) (m : Nat) : fnOf (setFn s ep n f) ep m = if m = n then f else fnOf s ep m := by
  simp only [fnOf, setFn, Tab.get_store, Nat.add_left_cancel_iff]

@[simp] theorem fnOf_setFn_same (f : Fn) : fnOf (setFn s ep n f) ep n = f := by
  rw [fnOf_setFn, if_pos rfl]

@[simp] theorem fnOf_setF (f : Fld) (i k : Nat) : fnOf (setF s f i k) ep n = fnOf s ep n := rfl

@[simp] theorem fnOf_setEp (e : Nat) (x : Ep) : fnOf (setEp s e x) ep n = fnOf s ep n := rfl

@[simp] theorem epOf_setEp_same (x : Ep) : epOf (setEp s ep x) ep = x := by
  simp [epOf, setEp]

@[simp] theorem getF_setFn (x : Fn) (f : Fld) (i : Nat) : getF (setFn s ep n x) f i = getF s f i := rfl

@[simp] theorem getF_setEp (x : Ep) (f : Fld) (i : Nat) : getF (setEp s ep x) f i = getF s f i := rfl

/-- A configuration dword reads as what was last listed under its offset. -/
theorem cfgWord_setFn_put (f : Fn) (off : Nat) (w : Word) :
    cfgWord (setFn s ep n { f with cfg := Tab.put f.cfg off w }) ep n off = w := by
  simp [cfgWord, Tab.get_put]

/-- A bit of a configuration dword that was cleared as the dword was listed. -/
theorem cfgBit_setFn_put_cleared (f : Fn) (off bit : Nat) (w : Word) {mask : Word} (h : mask.getLsbD bit = false) :
    cfgBit (setFn s ep n { f with cfg := Tab.put f.cfg off (w &&& mask) }) ep n off bit = false := by
  rw [cfgBit, cfgWord_setFn_put, BitVec.getLsbD_and, h, Bool.and_false]

theorem cfgBit_of_cfg_eq {s u : State} {ep n : Nat} (h : (fnOf u ep n).cfg = (fnOf s ep n).cfg) (off bit : Nat) :
    cfgBit u ep n off bit = cfgBit s ep n off bit := by
  rw [cfgBit, cfgWord, h, cfgBit, cfgWord]

end

/-- What no turn of a fold changes, the fold does not change. -/
theorem foldl_keeps {α β : Type} (g : State → β) {f : State → α → State} (h : ∀ s a, g (f s a) = g s) (l : List α) (s : State) :
    g (l.foldl f s) = g s := by
  induction l generalizing s with
  | nil => rfl
  | cons a l ih => rw [List.foldl_cons, ih, h]

/-! ### The functions of an endpoint (07 R195) -/

section
variable {s : State} {ep : Nat}

theorem mem_vfsOf {n : Nat} : n ∈ vfsOf s ep ↔ n ≠ 0 ∧ fnExists s ep n = true := by
  have hlt (h0 : n ≠ 0) (h : fnExists s ep n = true) : n < 256 := by
    simp only [fnExists, beq_eq_false_iff_ne.2 h0, Bool.false_or, Bool.and_eq_true, decide_eq_true_eq] at h
    omega
  simp only [vfsOf, List.mem_filter, List.mem_range, Bool.and_eq_true, bne_iff_ne]
  exact ⟨fun h => h.2, fun h => ⟨hlt h.1 h.2, h⟩⟩

/-- Without VF Enable an endpoint has its PF alone. -/
theorem fnsOf_pf_alone (h : cfgBit s ep 0 cfgSriov 0 = false) : fnsOf s ep = [0] := by
  have hnone (n : Nat) : (n != 0 && fnExists s ep n) = false := by
    by_cases hn : n = 0 <;> simp [fnExists, h, hn]
  simp [fnsOf, vfsOf, hnone]

theorem pf_mem_fnsOf : 0 ∈ fnsOf s ep := List.mem_cons_self

end

/-! ### The beginning of a function stop (07 R201 step 1) -/

/-- A function as the beginning of a stop leaves it: a stop in progress keeps its cause. -/
def Fn.stopping (c : Nat) (f : Fn) : Fn := if f.stopCause = 0 then { f with stopCause := c } else f

/-- One function's turn in `stopFns`. -/
def markStop (ep c : Nat) (s : State) (n : Nat) : State :=
  if (fnOf s ep n).stopCause = 0 then setFn s ep n { fnOf s ep n with stopCause := c } else s

/-- One queue pair's turn in `stopFns`. -/
def stopQp (s : State) (q : Nat) : State := setF (setF s Fld.qpStatState q 2) Fld.qpCtlEnable q 0

section
variable (s : State) (ep : Nat) (fns : List Nat) (c : Nat)

theorem Fn.stopping_of_idle {f : Fn} (h : f.stopCause = 0) : f.stopping c = { f with stopCause := c } := if_pos h

@[simp] theorem Fn.stopping_cfg (f : Fn) : (f.stopping c).cfg = f.cfg := by
  unfold Fn.stopping
  split <;> rfl

theorem Fn.stopping_stopping (f : Fn) : (f.stopping c).stopping c = f.stopping c := by
  by_cases h : f.stopCause = 0
  · rw [Fn.stopping_of_idle c h]
    simp [Fn.stopping]
  · simp [Fn.stopping, h]

theorem stopFns_eq : stopFns s ep fns c = fns.foldl (markStop ep c) ((fnQps s ep fns).foldl stopQp s) := rfl

theorem fnOf_stopQp (n q : Nat) : fnOf (stopQp s q) ep n = fnOf s ep n := rfl

theorem stopQp_mem (q : Nat) : (stopQp s q).mem = s.mem := rfl

theorem fnOf_markStop (n m : Nat) : fnOf (markStop ep c s n) ep m = if m = n then (fnOf s ep m).stopping c else fnOf s ep m := by
  unfold markStop Fn.stopping
  by_cases hm : m = n
  · subst hm
    split <;> simp [*]
  · split <;> simp [fnOf_setFn, hm]

theorem fnOf_foldl_markStop (m : Nat) :
    fnOf (fns.foldl (markStop ep c) s) ep m = if m ∈ fns then (fnOf s ep m).stopping c else fnOf s ep m := by
  induction fns generalizing s with
  | nil => rfl
  | cons n fns ih =>
    rw [List.foldl_cons, ih, fnOf_markStop]
    by_cases hn : m = n <;> by_cases hm : m ∈ fns <;> simp [hn, hm, Fn.stopping_stopping]

/-- Every function of the list is stopping with the cause, or with the one it had. -/
theorem fnOf_stopFns (m : Nat) :
    fnOf (stopFns s ep fns c) ep m = if m ∈ fns then (fnOf s ep m).stopping c else fnOf s ep m := by
  rw [stopFns_eq, fnOf_foldl_markStop, foldl_keeps (fun u => fnOf u ep m) (fun u q => fnOf_stopQp u ep m q)]

theorem fnOf_stopFns_idle {m : Nat} (hm : m ∈ fns) (h : (fnOf s ep m).stopCause = 0) :
    fnOf (stopFns s ep fns c) ep m = { fnOf s ep m with stopCause := c } := by
  rw [fnOf_stopFns, if_pos hm, Fn.stopping_of_idle c h]

theorem cfgBit_stopFns (m off bit : Nat) : cfgBit (stopFns s ep fns c) ep m off bit = cfgBit s ep m off bit := by
  refine cfgBit_of_cfg_eq ?_ off bit
  rw [fnOf_stopFns]
  split
  · exact Fn.stopping_cfg c _
  · rfl

theorem markStop_regs (n : Nat) : (markStop ep c s n).regs = s.regs := by
  unfold markStop
  split <;> rfl

@[simp] theorem stopFns_mem : (stopFns s ep fns c).mem = s.mem := by
  have hmark (u : State) (n : Nat) : (markStop ep c u n).mem = u.mem := by
    unfold markStop
    split <;> rfl
  rw [stopFns_eq, foldl_keeps State.mem hmark, foldl_keeps State.mem stopQp_mem]

/-- Of the registers, a stop writes those of the functions' queue pairs alone. -/
theorem getF_stopFns {f : Fld} (h : f.reg ≠ .qpStat ∧ f.reg ≠ .qpCtl) (i : Nat) : getF (stopFns s ep fns c) f i = getF s f i := by
  have hqp (u : State) (q : Nat) : getF (stopQp u q) f i = getF u f i := by
    rw [stopQp, getF_setF_other _ _ _ _ _ _ (.inl h.2), getF_setF_other _ _ _ _ _ _ (.inl h.1)]
  rw [stopFns_eq, getF_of_regs_eq (foldl_regs (fun u n => markStop_regs u ep c n) _ _), foldl_keeps (fun u => getF u f i) hqp]

end

/-! ### Reset configuration values (07 R202, R203) -/

section
variable (s : State) (ep : Nat)

theorem resetFns_pf : resetFns s ep [0] = atsDrop (setF (setFn s ep 0 (fnReset 0 (fnOf s ep 0))) Fld.identEpDstateDstate ep 0) ep [0] := rfl

theorem fnOf_resetFns_pf : fnOf (resetFns s ep [0]) ep 0 = fnReset 0 (fnOf s ep 0) := by
  rw [resetFns_pf, atsDrop, fnOf_setEp, fnOf_setF, fnOf_setFn_same]

theorem getF_resetFns_pf_dstate : getF (resetFns s ep [0]) Fld.identEpDstateDstate ep = 0 := by
  rw [resetFns_pf, atsDrop, getF_setEp]
  exact getF_setF_within _ _ _ (by decide) (by decide)

@[simp] theorem resetFns_pf_mem : (resetFns s ep [0]).mem = s.mem := rfl

@[simp] theorem ideReset_mem : (ideReset s ep).mem = s.mem := rfl

@[simp] theorem fnOf_ideReset (n : Nat) : fnOf (ideReset s ep) ep n = fnOf s ep n := rfl

@[simp] theorem getF_ideReset (f : Fld) (i : Nat) : getF (ideReset s ep) f i = getF s f i := rfl

end

/-- A configuration dword that a reset does not leave holds its reset value. -/
theorem cfgWord_of_fnReset {u : State} {ep n : Nat} {f : Fn} (h : (fnOf u ep n).cfg = (fnReset n f).cfg) {off : Nat}
    (hoff : cfgSticky n off = false) : cfgWord u ep n off = cfgReset n off := by
  simp [cfgWord, h, fnReset, Tab.get, Tab.lookup_keep, hoff]

/-! ### Links (07 R186, R207) -/

section
variable {s : State} {ep : Nat}

/-- IDENT_EP_LINK once a link has trained. -/
def linkTrained (s : State) (ep speed width flitMode : Nat) : State :=
  [(Fld.identEpLinkSpeed, speed), (Fld.identEpLinkWidth, width), (Fld.identEpLinkFlitMode, flitMode), (Fld.identEpLinkLinkUp, 1),
    (Fld.identEpLinkL0pWidth, width)].foldl (fun s f => setF s f.1 ep f.2) s

/-- A trained link reads as it was trained. -/
theorem getF_linkTrained (s : State) (ep : Nat) {speed width flitMode : Nat} (hs : speed < 8) (hw : width < 32) (hf : flitMode < 2) :
    getF (linkTrained s ep speed width flitMode) Fld.identEpLinkLinkUp ep = 1 ∧
    getF (linkTrained s ep speed width flitMode) Fld.identEpLinkSpeed ep = speed ∧
    getF (linkTrained s ep speed width flitMode) Fld.identEpLinkWidth ep = width ∧
    getF (linkTrained s ep speed width flitMode) Fld.identEpLinkL0pWidth ep = width ∧
    getF (linkTrained s ep speed width flitMode) Fld.identEpLinkFlitMode ep = flitMode := by
  simp (disch := decide) only [linkTrained, List.foldl_cons, List.foldl_nil, getF_setF_apart]
  exact ⟨getF_setF_within _ _ _ (by decide) (by decide), getF_setF_within _ _ _ (by decide) hs, getF_setF_within _ _ _ (by decide) hw,
    getF_setF_within _ _ _ (by decide) hw, getF_setF_within _ _ _ (by decide) hf⟩

@[simp] theorem linkTrained_mem (s : State) (ep speed width flitMode : Nat) : (linkTrained s ep speed width flitMode).mem = s.mem := by
  simp only [linkTrained, List.foldl_cons, List.foldl_nil, setF_mem]

/-- link_up is one bit. -/
theorem linkUp_false (h : ¬ getF s Fld.identEpLinkLinkUp ep = 1) : flagF s Fld.identEpLinkLinkUp ep = false := by
  have hbit : getF s Fld.identEpLinkLinkUp ep < 2 := fieldOf_lt _ 9 9
  exact flagF_eq_false (by omega)

/-- EP_LINK_UP of a link that is down, out of reset, at a legal width and speed. -/
theorem exec_epLinkUp_trains {speed width : Nat} (hdown : ¬ getF s Fld.identEpLinkLinkUp ep = 1)
    (hperst : getF s Fld.identEpDstatePerst ep = 0) (hwidth : width ∈ epWidths) (hmin : 1 ≤ speed) (hmax : speed ≤ 6) (flit : Bool) :
    let v := linkTrained s ep speed width (if flit ∨ speed = 6 then 1 else 0)
    let u := setEp v ep { epOf v ep with l1 := 0 }
    exec (.epLinkUp ep speed width flit) s =
      .next (poolsSettle (raiseD u (srcHost ep) { code := 0x0203, aux8 := ep, aux16 := (getReg u .identEpLink ep).toNat % 65536 })) := by
  have hspeed : ¬ (speed < 1 ∨ 6 < speed) := by omega
  show execEpLinkUp ep speed width flit s = _
  simp only [execEpLinkUp, linkUp_false hdown, flagF_eq_false hperst, List.contains_iff_mem.2 hwidth, decide_eq_false hspeed, Bool.or_false,
    Bool.not_true, Bool.false_eq_true, if_false]
  rfl

theorem exec_epLinkDown_up (hup : getF s Fld.identEpLinkLinkUp ep = 1) : exec (.epLinkDown ep) s = .next (epLinkLost s ep) :=
  congrArg _ (if_pos (flagF_eq_true hup))

/-- L0P_WIDTH_HALVING of a link wider than x4. -/
theorem exec_l0pWidthHalving_wide (hup : getF s Fld.identEpLinkLinkUp ep = 1) (hw : 4 < getF s Fld.identEpLinkL0pWidth ep) :
    exec (.l0pWidthHalving ep) s = .next (setF s Fld.identEpLinkL0pWidth ep (getF s Fld.identEpLinkL0pWidth ep / 2)) :=
  congrArg _ (if_pos ⟨flagF_eq_true hup, hw⟩)

theorem exec_l0pWidthHalving_narrow (hw : getF s Fld.identEpLinkL0pWidth ep ≤ 4) : exec (.l0pWidthHalving ep) s = .next s :=
  congrArg _ (if_neg fun h => absurd h.2 (not_lt.2 hw))

theorem exec_l0pWidthRestore_up (hup : getF s Fld.identEpLinkLinkUp ep = 1) :
    exec (.l0pWidthRestore ep) s = .next (setF s Fld.identEpLinkL0pWidth ep (getF s Fld.identEpLinkWidth ep)) :=
  congrArg _ (if_pos (flagF_eq_true hup))

/-- CLKREQ_N_DEASSERT in D3hot: the deepest of the PCI-PM substates that are enabled. -/
theorem exec_clkreqNDeassert_d3hot (hup : getF s Fld.identEpLinkLinkUp ep = 1) (hd : getF s Fld.identEpDstateDstate ep = 3) :
    exec (.clkreqNDeassert ep) s = .next (setEp s ep { epOf s ep with
      l1 := if cfgBit s ep 0 cfgL1ss 0 = true then 3 else if cfgBit s ep 0 cfgL1ss 1 = true then 2 else 1 }) := by
  show execClkreqNDeassert ep s = _
  simp [execClkreqNDeassert, flagF_eq_true hup, hd]

end

/-! ### Resets (07 R187, R188, R202, R203; 02 R49) -/

section
variable {s : State} {ep : Nat}

/-- LINK_HOT_RESET of an endpoint without VFs. -/
theorem exec_linkHotReset_pf (hup : getF s Fld.identEpLinkLinkUp ep = 1) (hvf : cfgBit s ep 0 cfgSriov 0 = false) :
    exec (.linkHotReset ep) s = .next (let v := ideReset (resetFns (failRequests (stopFns s ep [0] 3) ep 3 true) ep [0]) ep
      setEp v ep { epOf v ep with l1 := 0, ats := [], atsOwed := 0 }) := by
  show execLinkHotReset ep s = _
  simp only [execLinkHotReset, flagF_eq_true hup, fnsOf_pf_alone hvf, Bool.not_true, Bool.false_eq_true, if_false]

/-- PERST_ASSERT of an endpoint without VFs whose link is down. -/
theorem exec_perstAssert_pf (hperst : getF s Fld.identEpDstatePerst ep = 0) (hdown : ¬ getF s Fld.identEpLinkLinkUp ep = 1)
    (hvf : cfgBit s ep 0 cfgSriov 0 = false) :
    exec (.perstAssert ep) s = .next (setF (ideReset (resetFns (stopFns s ep [0] 5) ep [0]) ep) Fld.identEpDstatePerst ep 1) := by
  have hdown' : flagF (stopFns s ep [0] 5) Fld.identEpLinkLinkUp ep = false := by
    rw [flagF, getF_stopFns _ _ _ _ (by decide), ← flagF, linkUp_false hdown]
  show execPerstAssert ep s = _
  simp only [execPerstAssert, flagF_eq_false hperst, fnsOf_pf_alone hvf, hdown', Bool.false_eq_true, if_false]

theorem perstAssert_resets_pf (hperst : getF s Fld.identEpDstatePerst ep = 0) (hdown : ¬ getF s Fld.identEpLinkLinkUp ep = 1)
    (hvf : cfgBit s ep 0 cfgSriov 0 = false) (hidle : (fnOf s ep 0).stopCause = 0) :
    ∃ u, exec (.perstAssert ep) s = .next u ∧ getF u Fld.identEpDstatePerst ep = 1 ∧ getF u Fld.identEpDstateDstate ep = 0 ∧
      (fnOf u ep 0).stopCause = 5 ∧ (fnOf u ep 0).unmasked = [] ∧ u.mem = s.mem := by
  have hfn : fnOf (setF (ideReset (resetFns (stopFns s ep [0] 5) ep [0]) ep) Fld.identEpDstatePerst ep 1) ep 0 =
      fnReset 0 { fnOf s ep 0 with stopCause := 5 } := by
    rw [fnOf_setF, fnOf_ideReset, fnOf_resetFns_pf, fnOf_stopFns_idle _ _ _ _ List.mem_cons_self hidle]
  refine ⟨_, exec_perstAssert_pf hperst hdown hvf, getF_setF_within _ _ _ (by decide) (by decide), ?_,
    congrArg Fn.stopCause hfn, congrArg Fn.unmasked hfn, ?_⟩
  · rw [getF_setF_apart _ _ _ _ _ (by decide), getF_ideReset, getF_resetFns_pf_dstate]
  · rw [setF_mem, ideReset_mem, resetFns_pf_mem, stopFns_mem]

/-- A wake source ends no Roof Sleep that has not begun. -/
theorem roofSource_awake (h : s.ridge.roof = .awake) (bit : Nat) (offDoms : List Nat) : roofSource s bit offDoms = s := by
  simp [roofSource, h]

theorem perstDeassert_samples (hperst : getF s Fld.identEpDstatePerst ep = 1) (hroof : s.ridge.roof = .awake) (sris : Bool) :
    ∃ u, exec (.perstDeassert ep sris) s = .next u ∧ getF u Fld.identEpDstatePerst ep = 0 ∧ (epOf u ep).sris = sris ∧
      (if ep = 0 then u.ridge.wakeN.1 else u.ridge.wakeN.2) = false := by
  let v := driveWakeN (setF s Fld.identEpDstatePerst ep 0) ep false
  have hexec : exec (.perstDeassert ep sris) s = .next (setEp v ep { epOf v ep with sris := sris }) := by
    show execPerstDeassert ep sris s = _
    simp only [execPerstDeassert, flagF_eq_true hperst, Bool.not_true, Bool.false_eq_true, if_false]
    exact congrArg _ (roofSource_awake (s := setEp v ep { epOf v ep with sris := sris }) hroof _ _)
  refine ⟨_, hexec, getF_setF_within s _ _ (by decide) (by decide), by rw [epOf_setEp_same], ?_⟩
  by_cases he : ep = 0 <;> simp [v, driveWakeN, he]

/-- FLR of a PF. -/
theorem flr_begins (hup : getF s Fld.identEpLinkLinkUp ep = 1) (hflr : (fnOf s ep 0).inFlr = false)
    (hidle : (fnOf s ep 0).stopCause = 0) :
    ∃ u, exec (.flr ep 0) s = .next u ∧ (fnOf u ep 0).stopCause = 1 ∧ (fnOf u ep 0).inFlr = true ∧ u.mem = s.mem := by
  let v := stopFns (setFn s ep 0 { fnOf s ep 0 with inFlr := true }) ep [0] 1
  have hexec : exec (.flr ep 0) s = .next (stopFns v ep (vfsOf v ep) 2) := by
    show execFlr ep 0 s = _
    simp [execFlr, flrBegin, flagF_eq_true hup, hflr, fnExists, v]
  have hpf : 0 ∉ vfsOf v ep := fun h => (mem_vfsOf.1 h).1 rfl
  have hfn : fnOf (stopFns v ep (vfsOf v ep) 2) ep 0 = { fnOf s ep 0 with inFlr := true, stopCause := 1 } := by
    rw [fnOf_stopFns, if_neg hpf, fnOf_stopFns_idle _ _ _ _ List.mem_cons_self (by rw [fnOf_setFn_same]; exact hidle), fnOf_setFn_same]
  refine ⟨_, hexec, congrArg Fn.stopCause hfn, congrArg Fn.inFlr hfn, ?_⟩
  rw [stopFns_mem, stopFns_mem, setFn_mem]

/-- FLR_DONE of a PF without VFs whose stop is over. -/
theorem flrDone_resets_pf (hvf : cfgBit s ep 0 cfgSriov 0 = false) (hflr : (fnOf s ep 0).inFlr = true)
    (hidle : (fnOf s ep 0).stopCause = 0) :
    ∃ u, exec (.flrDone ep 0) s = .next u ∧ (fnOf u ep 0).inFlr = false ∧ (fnOf u ep 0).unmasked = [] ∧ (fnOf u ep 0).dstate = 0 ∧
      ∀ o, cfgSticky 0 o = false → cfgWord u ep 0 o = cfgReset 0 o := by
  have hexec : exec (.flrDone ep 0) s =
      .next (setFn (resetFns s ep [0]) ep 0 { fnOf (resetFns s ep [0]) ep 0 with inFlr := false }) := by
    show execFlrDone ep 0 s = _
    simp [execFlrDone, fnsOf_pf_alone hvf, hflr, hidle]
  have hfn : fnOf (setFn (resetFns s ep [0]) ep 0 { fnOf (resetFns s ep [0]) ep 0 with inFlr := false }) ep 0 =
      { fnReset 0 (fnOf s ep 0) with inFlr := false } := by
    rw [fnOf_setFn_same, fnOf_resetFns_pf]
  exact ⟨_, hexec, congrArg Fn.inFlr hfn, congrArg Fn.unmasked hfn, congrArg Fn.dstate hfn,
    fun _ ho => cfgWord_of_fnReset (f := fnOf s ep 0) (congrArg Fn.cfg hfn :) ho⟩

end

/-! ### Function stops (07 R201) -/

section
variable {s : State} {ep : Nat}

/-- FUNCTION_STOP_DONE of a PF with no operation left. -/
theorem functionStopDone_pf {cause : Nat} (hcause : (fnOf s ep 0).stopCause = cause) (hstop : cause ≠ 0) (hops : s.rings.ops = []) :
    ∃ u, exec (.functionStopDone ep 0) s =
        .next (raiseD u (srcHost ep) { code := 0x0201, aux8 := cause, aux16 := (Config.epBus ep).toNat * 256 + 0, arg0 := 0, arg1 := ep }) ∧
      (fnOf u ep 0).stopCause = 0 ∧ u.mem = s.mem := by
  let v := bumpN s Fld.identEpStopAbortCnt ep 0
  let w := (fnQps v ep [0]).foldl (fun s q => setF s Fld.qpStatState q 3) v
  have hnone : fnOps s ep 0 = [] := by simp [fnOps, opsWhere, hops]
  have hexec : exec (.functionStopDone ep 0) s = .next (raiseD (setFn w ep 0 { fnOf w ep 0 with stopCause := 0 }) (srcHost ep)
      { code := 0x0201, aux8 := cause, aux16 := (Config.epBus ep).toNat * 256 + 0, arg0 := 0, arg1 := ep }) := by
    show execFunctionStopDone ep 0 s = _
    simp only [execFunctionStopDone, hnone, hcause, hstop, List.any_nil, Bool.false_eq_true, or_self, if_false, if_true, List.filter_nil,
      List.length_nil, abortOps, List.foldl_nil]
    cases ctrlOfFn v ep 0 <;> rfl
  refine ⟨_, hexec, by rw [fnOf_setFn_same], ?_⟩
  rw [setFn_mem, foldl_keeps State.mem (fun u q => setF_mem u Fld.qpStatState q 3), bumpN_mem]

/-- BUS_MASTER_ENABLE_CLEAR of a PF that is a bus master. -/
theorem busMasterEnableClear_stops (hup : getF s Fld.identEpLinkLinkUp ep = 1) (hbm : cfgBit s ep 0 cfgCommand 2 = true)
    (hidle : (fnOf s ep 0).stopCause = 0) :
    ∃ u, exec (.busMasterEnableClear ep 0) s = .next u ∧ (fnOf u ep 0).stopCause = 6 ∧ cfgBit u ep 0 cfgCommand 2 = false ∧
      u.mem = s.mem := by
  let v := stopFns s ep [0] 6
  have hexec : exec (.busMasterEnableClear ep 0) s = .next (setFn v ep 0
      { fnOf v ep 0 with cfg := Tab.put (fnOf v ep 0).cfg cfgCommand (cfgWord v ep 0 cfgCommand &&& 0xFFFFFFFB) }) := by
    show execBusMasterEnableClear ep 0 s = _
    simp [execBusMasterEnableClear, busMasterEnd, flagF_eq_true hup, fnExists, hbm, v]
  refine ⟨_, hexec, ?_, cfgBit_setFn_put_cleared _ _ _ _ _ _ _ (by decide), ?_⟩
  · rw [fnOf_setFn_same, fnOf_stopFns_idle _ _ _ _ List.mem_cons_self hidle]
  · rw [setFn_mem, stopFns_mem]

/-- VF_ENABLE_CLEAR of an endpoint with VFs, none of which is stopping. -/
theorem vfEnableClear_stops (hup : getF s Fld.identEpLinkLinkUp ep = 1) (hvf : cfgBit s ep 0 cfgSriov 0 = true)
    (hidle : ∀ n, (fnOf s ep n).stopCause = 0) :
    ∃ u, exec (.vfEnableClear ep) s = .next u ∧ cfgBit u ep 0 cfgSriov 0 = false ∧
      (∀ n, 1 ≤ n → fnExists s ep n = true → (fnOf u ep n).stopCause = 2) ∧ u.mem = s.mem := by
  let v := stopFns s ep (vfsOf s ep) 2
  have hexec : exec (.vfEnableClear ep) s = .next (setFn v ep 0
      { fnOf v ep 0 with cfg := Tab.put (fnOf v ep 0).cfg cfgSriov (cfgWord v ep 0 cfgSriov &&& 0xFFFFFFFE) }) := by
    show execVfEnableClear ep s = _
    simp [execVfEnableClear, vfsEnd, flagF_eq_true hup, hvf, v]
  refine ⟨_, hexec, cfgBit_setFn_put_cleared _ _ _ _ _ _ _ (by decide), fun n hn hex => ?_, ?_⟩
  · have hn0 : n ≠ 0 := by omega
    rw [fnOf_setFn, if_neg hn0, fnOf_stopFns_idle _ _ _ _ (mem_vfsOf.2 ⟨hn0, hex⟩) (hidle n)]
  · rw [setFn_mem, stopFns_mem]

end

/-! ### D-states (07 R201, R205, R206; 02 R49) -/

section
variable {s : State} {ep : Nat}

/-- D3HOT_ENTRY of a PF in D0. -/
theorem d3hotEntry_enters (hup : getF s Fld.identEpLinkLinkUp ep = 1) (hd : (fnOf s ep 0).dstate = 0)
    (hidle : (fnOf s ep 0).stopCause = 0) :
    ∃ u, exec (.d3hotEntry ep 0) s = .next u ∧ (fnOf u ep 0).dstate = 3 ∧ getF u Fld.identEpDstateDstate ep = 3 ∧ (epOf u ep).l1 = 1 ∧
      (fnOf u ep 0).stopCause = 7 ∧ u.mem = s.mem := by
  let v := stopFns s ep (fnsOf s ep) 7
  let w := setFn v ep 0 { fnOf v ep 0 with dstate := 3 }
  let u := setEp (setF w Fld.identEpDstateDstate ep 3) ep { epOf w ep with l1 := 1 }
  have hexec : exec (.d3hotEntry ep 0) s = .next u := by
    have henter : d3Enter s ep = u := if_neg (not_not.2 hd)
    calc exec (.d3hotEntry ep 0) s = .next (d3Enter s ep) := congrArg _ (if_pos ⟨rfl, flagF_eq_true hup⟩)
      _ = .next u := by rw [henter]
  have hfn : fnOf u ep 0 = { fnOf s ep 0 with dstate := 3, stopCause := 7 } := by
    rw [fnOf_setEp, fnOf_setF, fnOf_setFn_same, fnOf_stopFns_idle _ _ _ _ pf_mem_fnsOf hidle]
  refine ⟨_, hexec, congrArg Fn.dstate hfn, ?_, by rw [epOf_setEp_same], congrArg Fn.stopCause hfn, ?_⟩
  · rw [getF_setEp, getF_setF_within _ _ _ (by decide) (by decide)]
  · rw [setEp_mem, setF_mem, setFn_mem, stopFns_mem]

theorem msixFlush_nothing_pending {n : Nat} (h : (fnOf s ep n).pba = []) : msixFlush s ep n = s := by
  rw [msixFlush, h, List.foldl_nil]

/-- D0_RETURN of a PF without VFs that has no vector pending. -/
theorem d0Return_returns (hup : getF s Fld.identEpLinkLinkUp ep = 1) (hvf : cfgBit s ep 0 cfgSriov 0 = false)
    (hd : (fnOf s ep 0).dstate = 3) (hpba : (fnOf s ep 0).pba = []) (hroof : s.ridge.roof = .awake) :
    ∃ u, exec (.d0Return ep 0) s = .next u ∧ (fnOf u ep 0).dstate = 0 ∧ getF u Fld.identEpDstateDstate ep = 0 ∧ (epOf u ep).l1 = 0 ∧
      u.mem = s.mem := by
  let v := setFn s ep 0 { fnOf s ep 0 with dstate := 0 }
  let w := setEp (setF v Fld.identEpDstateDstate ep 0) ep { epOf v ep with l1 := 0 }
  have hfn : fnOf w ep 0 = { fnOf s ep 0 with dstate := 0 } := fnOf_setFn_same s ep 0 _
  have hvfw : cfgBit w ep 0 cfgSriov 0 = false := (cfgBit_of_cfg_eq (congrArg Fn.cfg hfn :) _ _).trans hvf
  have hflush : (fnsOf w ep).foldl (fun s n => msixFlush s ep n) w = w := by
    rw [fnsOf_pf_alone hvfw, List.foldl_cons, List.foldl_nil, msixFlush_nothing_pending ((congrArg Fn.pba hfn).trans hpba)]
  have hexec : exec (.d0Return ep 0) s = .next w := by
    have henter : d0Enter s ep = roofSource ((fnsOf w ep).foldl (fun s n => msixFlush s ep n) w) (4 + ep) [] := by
      rw [d0Enter, if_neg (by omega)]
    calc exec (.d0Return ep 0) s = .next (d0Enter s ep) := congrArg _ (if_pos ⟨rfl, flagF_eq_true hup⟩)
      _ = .next w := by rw [henter, hflush, roofSource_awake (s := w) hroof]
  exact ⟨w, hexec, congrArg Fn.dstate hfn, getF_setF_within v _ _ (by decide) (by decide), by rw [epOf_setEp_same], rfl⟩

/-- PME_RESEND while PME_Status stays set. -/
theorem exec_pmeResend_pending {n : Nat} (hup : getF s Fld.identEpLinkLinkUp ep = 1) (hd : (fnOf s ep n).dstate = 3)
    (hpme : (fnOf s ep n).pmeStatus = true) : exec (.pmeResend ep n) s = .next (emit s (.pme ep n)) :=
  congrArg _ (if_pos ⟨flagF_eq_true hup, hd, hpme⟩)

end

/-! ### Root ports (07 R213) -/

section
variable {s : State} {port : Nat}

@[simp] theorem rootPort_setRootPort_same (s : State) (port : Nat) (x : RootPort) :
    Tab.get {} (setRootPort s port x).host.rootPorts port = x := Tab.get_store_same _ _ _ _

/-- RP_LINK_UP of an NVMe device. -/
theorem exec_rpLinkUp_nvme (hport : port < 8) (hdown : (Tab.get {} s.host.rootPorts port).up = false)
    (nss : List (Nat × Bool × Nat)) :
    exec (.rpLinkUp port false false 0x010802 nss) s = .next (takeNs (setRootPort s port { up := true, disabled := false }) port nss) := by
  show execRpLinkUp port false false 0x010802 nss s = _
  simp [execRpLinkUp, not_le.2 hport, hdown]

/-- RP_LINK_UP of a device of another class. -/
theorem exec_rpLinkUp_other (hport : port < 8) (hdown : (Tab.get {} s.host.rootPorts port).up = false) {cls : Nat} (hcls : cls ≠ 0x010802)
    (nss : List (Nat × Bool × Nat)) :
    exec (.rpLinkUp port false false cls nss) s =
      .next (raiseD (setRootPort s port { up := false, disabled := true }) srcStor { code := 0x0205, aux8 := port }) := by
  show execRpLinkUp port false false cls nss s = _
  simp [execRpLinkUp, not_le.2 hport, hdown, hcls]

theorem exec_rpLinkDown_up (hup : (Tab.get {} s.host.rootPorts port).up = true) :
    exec (.rpLinkDown port) s =
      .next (ulPortLost (ssdLost (raiseD (setRootPort s port {}) srcStor { code := 0x0204, aux8 := port }) port) port) := by
  show execRpLinkDown port s = _
  simp [execRpLinkDown, hup]

end

/-! ### The statement -/

/-- Settles O32: each clause is the law above of the command that it speaks of, with the fields of the state it leaves. -/
theorem hostLinksAndStops : Obligations.HostLinksAndStops := by
  unfold Obligations.HostLinksAndStops
  intro s ep fn speed width flit sris nss cls port _ _ hport
  refine ⟨?_, exec_epLinkDown_up, exec_linkHotReset_pf, ?_, fun hperst hroof => perstDeassert_samples hperst hroof sris,
    ?_, ?_, ?_, fun hup _ => busMasterEnableClear_stops hup, fun hup hvf _ => vfEnableClear_stops hup hvf,
    fun hup _ => d3hotEntry_enters hup, fun hup hcalm => d0Return_returns hup hcalm.2, exec_pmeResend_pending, ?_,
    fun _ => exec_l0pWidthHalving_narrow, ?_, ?_, ?_, ?_, ?_⟩
  · intro hdown hperst hwidth hmin hmax
    have hw : width < 32 := by
      simp only [List.mem_cons, List.not_mem_nil, or_false] at hwidth
      omega
    have hf : (if flit ∨ speed = 6 then 1 else 0) < 2 := by split <;> decide
    obtain ⟨hlink, hspeed, hwid, hl0p, hflit⟩ := getF_linkTrained s ep (show speed < 8 by omega) hw hf
    refine ⟨_, exec_epLinkUp_trains hdown hperst hwidth hmin hmax flit, ?_⟩
    simp only [getF_setEp, setEp_mem, linkTrained_mem]
    exact ⟨hlink, hspeed, hwid, hl0p, hflit, trivial⟩
  · intro hperst hdown hcalm hidle
    exact perstAssert_resets_pf hperst hdown hcalm.2 hidle
  · rintro hup hcalm rfl hflr hidle
    exact flr_begins hup hflr hidle
  · rintro hcalm rfl hflr hidle
    exact flrDone_resets_pf hcalm.2 hflr hidle
  · rintro hcause hstop hops _ rfl
    exact functionStopDone_pf hcause hstop hops
  · intro hup hw
    refine ⟨_, exec_l0pWidthHalving_wide hup (by omega), ?_, rfl⟩
    rw [hw, getF_setF_within _ _ _ (by decide) (by decide)]
  · intro hup
    exact ⟨_, exec_l0pWidthRestore_up hup, getF_setF_within _ _ _ (by decide) (fieldOf_lt _ 7 3), rfl⟩
  · intro hup hd
    exact ⟨_, exec_clkreqNDeassert_d3hot hup hd, by rw [epOf_setEp_same], rfl⟩
  · intro hdown
    exact ⟨_, exec_rpLinkUp_nvme hport hdown [], congrArg RootPort.up (rootPort_setRootPort_same s port _), rfl⟩
  · intro hdown hcls
    exact ⟨_, exec_rpLinkUp_other hport hdown hcls nss, congrArg RootPort.up (rootPort_setRootPort_same s port _),
      congrArg RootPort.disabled (rootPort_setRootPort_same s port _)⟩
  · intro hup
    exact ⟨_, congrArg RootPort.up (rootPort_setRootPort_same s port {}), exec_rpLinkDown_up hup⟩

end Sys2Proof.Machine
end

section
/-! PROOFS. Rings and operations as the state holds them (08 R215 to R223): what a queue pair, an event ring and an operation read as after
a change, which registers a queue pair's settling and a wake source write, and when an access finds the registers open. -/

namespace Sys2Proof.Machine

/-! ### Queue pairs, event rings and operations after a change -/

theorem getReg_of_regs_eq {s u : State} (h : u.regs = s.regs) (r : Reg) (i : Nat) : getReg u r i = getReg s r i := by
  rw [getReg, h, getReg]

section
variable (s : State) (n : Nat)

@[simp] theorem qpOf_setQp_same (x : Qp) : qpOf (setQp s n x) n = x := Tab.get_store_same _ _ _ _

@[simp] theorem getReg_setQp (x : Qp) (r : Reg) (i : Nat) : getReg (setQp s n x) r i = getReg s r i :=
  getReg_of_regs_eq rfl r i

@[simp] theorem getF_setQp (x : Qp) (f : Fld) (i : Nat) : getF (setQp s n x) f i = getF s f i :=
  getF_of_regs_eq rfl f i

theorem qpOf_bump (f : Fld) (i : Nat) : qpOf (bump s f i) n = qpOf s n := rfl

@[simp] theorem setQp_mem (x : Qp) : (setQp s n x).mem = s.mem := rfl
@[simp] theorem setQp_out (x : Qp) : (setQp s n x).out = s.out := rfl
@[simp] theorem setQp_ops (x : Qp) : (setQp s n x).rings.ops = s.rings.ops := rfl

@[simp] theorem getReg_setEvr (x : Evr) (r : Reg) (i : Nat) : getReg (setEvr s n x) r i = getReg s r i :=
  getReg_of_regs_eq rfl r i

@[simp] theorem getF_setEvr (x : Evr) (f : Fld) (i : Nat) : getF (setEvr s n x) f i = getF s f i :=
  getF_of_regs_eq rfl f i

@[simp] theorem setEvr_mem (x : Evr) : (setEvr s n x).mem = s.mem := rfl
@[simp] theorem setEvr_out (x : Evr) : (setEvr s n x).out = s.out := rfl

@[simp] theorem opOf_putOp_same (o : Op) : opOf (putOp s n o) n = some o := by
  rw [opOf, putOp, Tab.lookup_put, if_pos rfl]

/-- Of two stores of an operation the later stands. -/
theorem putOp_putOp (o o' : Op) : putOp (putOp s n o) n o' = putOp s n o' := by
  simp only [putOp, Tab.put_put]

theorem opOf_bump (f : Fld) (i : Nat) : opOf (bump s f i) n = opOf s n := rfl

end

/-! ### Fields at any index -/

/-- A write of a field leaves a field apart from it alone at every index. -/
theorem getF_setF_of_apart (s : State) {f g : Fld} (h : f.apart g) (i j n : Nat) : getF (setF s f i n) g j = getF s g j := by
  by_cases hj : j = i
  · rw [hj, getF_setF_apart s f g i n h]
  · exact getF_setF_other s f g i j n (.inr hj)

/-- Writes of fields at one index leave every register alone at another. -/
theorem getReg_foldl_setF_other (s : State) (l : List (Fld × Nat)) {i j : Nat} (h : j ≠ i) (r : Reg) :
    getReg (l.foldl (fun s f => setF s f.1 i f.2) s) r j = getReg s r j := by
  induction l generalizing s with
  | nil => rfl
  | cons f l ih => rw [List.foldl_cons, ih, getReg_setF_other _ _ _ _ _ _ (.inr h)]

/-- Writes of fields change nothing but registers. -/
theorem foldl_setF_only_regs (s : State) (l : List (Fld × Nat)) (i : Nat) :
    ∃ x, l.foldl (fun s f => setF s f.1 i f.2) s = { s with regs := x } := by
  induction l generalizing s with
  | nil => exact ⟨s.regs, rfl⟩
  | cons f l ih =>
    obtain ⟨x, h⟩ := ih (setF s f.1 i f.2)
    exact ⟨x, h⟩

/-! ### A queue pair that is settled (08 R223) -/

section
variable (s : State) (q : Nat)

/-- Settling a queue pair writes QP_STAT alone. -/
theorem qpSettle_eq : ∃ w b, qpSettle s q = setF (setF s Fld.qpStatWaiting q w) Fld.qpStatBackpressure q b := ⟨_, _, rfl⟩

/-- Settling a queue pair changes nothing but registers. -/
theorem qpSettle_only_regs : ∃ x, qpSettle s q = { s with regs := x } := by
  obtain ⟨w, b, h⟩ := qpSettle_eq s q
  exact ⟨_, h⟩

@[simp] theorem qpSettle_mem : (qpSettle s q).mem = s.mem := by
  obtain ⟨x, h⟩ := qpSettle_only_regs s q
  rw [h]

@[simp] theorem qpSettle_out : (qpSettle s q).out = s.out := by
  obtain ⟨x, h⟩ := qpSettle_only_regs s q
  rw [h]

@[simp] theorem qpSettle_rings : (qpSettle s q).rings = s.rings := by
  obtain ⟨x, h⟩ := qpSettle_only_regs s q
  rw [h]

@[simp] theorem opOf_qpSettle (n : Nat) : opOf (qpSettle s q) n = opOf s n := by
  rw [opOf, qpSettle_rings, opOf]

theorem getF_qpSettle {f : Fld} (hw : Fld.qpStatWaiting.apart f) (hb : Fld.qpStatBackpressure.apart f) (i : Nat) :
    getF (qpSettle s q) f i = getF s f i := by
  obtain ⟨w, b, h⟩ := qpSettle_eq s q
  rw [h, getF_setF_of_apart _ hb, getF_setF_of_apart _ hw]

theorem getReg_qpSettle_other (r : Reg) {i : Nat} (h : i ≠ q) : getReg (qpSettle s q) r i = getReg s r i := by
  obtain ⟨w, b, heq⟩ := qpSettle_eq s q
  rw [heq, getReg_setF_other _ _ _ _ _ _ (.inr h), getReg_setF_other _ _ _ _ _ _ (.inr h)]

end

/-! ### Accesses in and outside Normal mode (02 R58, R59) -/

section
variable {s : State} {req : Requester}

theorem gated_normal (h : mode s = 1) (req : Requester) (k : State → State) : gated s req k = k s := by
  simp [gated, hostClosed, h]

theorem gated_pf_closed (h : mode s ≠ 1) (hpf : Requester.isPf req = true) (k : State → State) :
    gated s req k = bump s Fld.pwrTarpDiscardCnt 0 := by
  cases req with
  | pf ep => simp [gated, hostClosed, h]
  | vf ep fn => simp [Requester.isPf] at hpf
  | thread t => simp [Requester.isPf] at hpf

end

/-! ### What a wake source leaves alone (02 R42 to R45) -/

/-- The registers that a wake source writes. -/
def wakeRegs : List Reg := [.pwrDomStat, .pwrWakePend, .pwrNapAbortCnt, .pwrWakeAfterPnrCnt]

/-- From one state to another the Ridge changes and, of the registers, those that a wake source writes; nothing else. -/
structure WakeOnly (s u : State) : Prop where
  getReg_eq : ∀ r i, r ∉ wakeRegs → getReg u r i = getReg s r i
  rest : ∃ g x, u = { s with ridge := g, regs := x }

namespace WakeOnly

variable {s u v : State}

theorem refl (s : State) : WakeOnly s s := ⟨fun _ _ _ => rfl, s.ridge, s.regs, rfl⟩

theorem trans (h : WakeOnly s u) (h' : WakeOnly u v) : WakeOnly s v := by
  obtain ⟨hreg, g, x, rfl⟩ := h
  obtain ⟨hreg', g', x', rfl⟩ := h'
  exact ⟨fun r i hr => (hreg' r i hr).trans (hreg r i hr), g', x', rfl⟩

theorem getF_eq (h : WakeOnly s u) {f : Fld} (hf : f.reg ∉ wakeRegs) (i : Nat) : getF u f i = getF s f i := by
  rw [getF, h.getReg_eq _ _ hf, getF]

theorem mem_eq (h : WakeOnly s u) : u.mem = s.mem := by
  obtain ⟨-, g, x, rfl⟩ := h
  rfl

theorem rings_eq (h : WakeOnly s u) : u.rings = s.rings := by
  obtain ⟨-, g, x, rfl⟩ := h
  rfl

theorem after_setF (h : WakeOnly s u) {f : Fld} (hf : f.reg ∈ wakeRegs) (i n : Nat) : WakeOnly s (setF u f i n) :=
  h.trans ⟨fun r j hr => getReg_setF_other u f r i j n (.inl fun e => hr (e ▸ hf)), u.ridge, _, rfl⟩

theorem after_setDom (h : WakeOnly s u) (d : Nat) (x : Dom) : WakeOnly s (setDom u d x) :=
  h.trans ⟨fun _ _ _ => rfl, _, u.regs, rfl⟩

theorem after_bump (h : WakeOnly s u) {f : Fld} (hf : f.reg ∈ wakeRegs) (i : Nat) : WakeOnly s (bump u f i) := h.after_setF hf i _

theorem after_setWakePend (h : WakeOnly s u) (d : Nat) (b : Bool) : WakeOnly s (setWakePend u d b) :=
  h.after_setF (show Reg.pwrWakePend ∈ wakeRegs by decide) _ _

theorem after_noteSrc (h : WakeOnly s u) (d src : Nat) : WakeOnly s (noteSrc u d src) := (h.after_setDom d _).after_setWakePend d true

theorem after_beginWake (h : WakeOnly s u) (d src : Nat) : WakeOnly s (beginWake u d src) :=
  ((h.after_noteSrc d src).after_setDom d _).after_setF (by decide) _ _

theorem after_reachRun (h : WakeOnly s u) (d : Nat) : WakeOnly s (reachRun u d) := by
  have hsrc : WakeOnly s (if (domOf u d).firstSrc = 0 then u else setF u Fld.pwrDomStatLastWakeSrc d (domOf u d).firstSrc) := by
    split
    · exact h
    · exact h.after_setF (by decide) _ _
  exact (((hsrc.after_setWakePend d false).after_setF (by decide) d 0).after_setF (by decide) d 0).after_setDom d _

theorem after_latchOne (h : WakeOnly s u) (d src : Nat) : WakeOnly s (latchOne u d src) := by
  unfold latchOne
  dsimp only
  split
  · exact h
  · split
    · exact h.after_noteSrc d src
    · split
      case h_1 =>
        split
        · exact h
        · exact (h.after_setF (by decide) d 0).after_setF (by decide) d src
        · exact h.after_beginWake d src
      case h_2 =>
        have hcount := h.after_bump (f := Fld.pwrNapAbortCnt) (by decide) 0
        split
        · exact (hcount.after_noteSrc d src).after_reachRun d
        · exact (hcount.after_setDom d _).after_beginWake d src
      case h_3 woken _ =>
        refine WakeOnly.after_noteSrc (WakeOnly.after_setDom ?_ d _) d src
        split
        · exact h
        · exact h.after_bump (by decide) 0
      case h_4 => exact h.after_noteSrc d src

theorem after_latchWake (h : WakeOnly s u) (d src : Nat) : WakeOnly s (latchWake u d src) := by
  unfold latchWake
  dsimp only
  split
  · exact (h.after_latchOne d src).after_latchOne purlin 7
  · exact h.after_latchOne d src

theorem of_wakeWatchers (s : State) (n : Nat) : WakeOnly s (wakeWatchers s n) := by
  have hfold (l : List Nat) (u : State) (h : WakeOnly s u) : WakeOnly s (l.foldl (fun s r => latchWake s r 2) u) := by
    induction l generalizing u with
    | nil => exact h
    | cons r l ih => exact ih _ (h.after_latchWake r 2)
  exact hfold _ s (.refl s)

end WakeOnly

end Sys2Proof.Machine
end

section
/-! PROOFS. Enabling, disabling and stopping queue pairs and event rings (08 R215 to R218; 02 R58, R59): the registers that an enable
writes, the writers that are refused, how a stop ends, and the statement assembled from them. -/

namespace Sys2Proof.Machine

/-! ### Enabling (08 R217) -/

section
variable {s : State} {n : Nat}

/-- The registers of queue pair `n` as an enable writes them. -/
def qpStarted (s : State) (n : Nat) : State :=
  [(Fld.qpSqHead, 0), (Fld.qpSqTail, 0), (Fld.qpCqTail, 0), (Fld.qpCqHead, 0), (Fld.qpCqTailPhase, 1), (Fld.qpStatCqFull, 0),
    (Fld.qpCtlEnable, 1), (Fld.qpStatState, 1)].foldl (fun s f => setF s f.1 n f.2) s

/-- The registers of event ring `n` as an enable writes them. -/
def evrStarted (s : State) (n : Nat) : State :=
  [(Fld.evrTail, 0), (Fld.evrHead, 0), (Fld.evrStatFull, 0), (Fld.evrStatLost, 0), (Fld.evrTailPhase, 1),
    (Fld.evrCtlEnable, 1)].foldl (fun s f => setF s f.1 n f.2) s

theorem qpStarted_only_regs (s : State) (n : Nat) : ∃ x, qpStarted s n = { s with regs := x } := foldl_setF_only_regs s _ n

theorem evrStarted_only_regs (s : State) (n : Nat) : ∃ x, evrStarted s n = { s with regs := x } := foldl_setF_only_regs s _ n

theorem getReg_qpStarted_other (s : State) {n i : Nat} (h : i ≠ n) (r : Reg) : getReg (qpStarted s n) r i = getReg s r i := by
  rw [qpStarted, getReg_foldl_setF_other s _ h]

theorem getReg_evrStarted_other (s : State) {n i : Nat} (h : i ≠ n) (r : Reg) : getReg (evrStarted s n) r i = getReg s r i := by
  rw [evrStarted, getReg_foldl_setF_other s _ h]

theorem qpEnable_starts (hst : getF s Fld.qpStatState n = 0 ∨ getF s Fld.qpStatState n = 3) (hok : qpEnableOk s n = true) :
    qpEnable s n = qpSettle (setQp (qpStarted s n) n {}) n := by
  have hidle : ¬ (getF s Fld.qpStatState n = 1 ∨ getF s Fld.qpStatState n = 2) := by omega
  simp only [qpEnable, hidle, hok, Bool.not_true, Bool.false_eq_true, if_false]
  rfl

/-- One that may not be used stays as it is (DESIGN CHOICE, log 101). -/
theorem qpEnable_refused (hst : getF s Fld.qpStatState n = 0) (hok : qpEnableOk s n = false) :
    qpEnable s n = bump s Fld.admDeniedCnt 0 := by
  simp [qpEnable, hst, hok, admDenied]

theorem evrEnable_starts (hoff : getF s Fld.evrCtlEnable n = 0) (hok : evrEnableOk s n = true) (howed : s.ridge.exitOwed = false) :
    evrEnable s n = setEvr (evrStarted s n) n {} := by
  simp only [evrEnable, flagF_eq_false hoff, hok, Bool.not_true, Bool.false_eq_true, if_false]
  obtain ⟨x, hregs⟩ := evrStarted_only_regs s n
  have hexit : (setEvr (evrStarted s n) n {}).ridge.exitOwed = false := by rw [hregs]; exact howed
  exact if_neg fun h => Bool.false_ne_true (hexit.symm.trans (Bool.and_elim_left h))

/-- An enabled queue pair's rings are empty, its phase is 1 and its CQ has room. -/
theorem getF_qpStarted (s : State) (n : Nat) :
    getF (qpStarted s n) Fld.qpStatState n = 1 ∧ getF (qpStarted s n) Fld.qpCtlEnable n = 1 ∧ getF (qpStarted s n) Fld.qpSqHead n = 0 ∧
    getF (qpStarted s n) Fld.qpSqTail n = 0 ∧ getF (qpStarted s n) Fld.qpCqHead n = 0 ∧ getF (qpStarted s n) Fld.qpCqTail n = 0 ∧
    getF (qpStarted s n) Fld.qpCqTailPhase n = 1 ∧ getF (qpStarted s n) Fld.qpStatCqFull n = 0 ∧
    getF (qpStarted s n) Fld.qpCtlKind n = getF s Fld.qpCtlKind n := by
  simp (disch := decide) only [qpStarted, List.foldl_cons, List.foldl_nil, getF_setF_apart, getF_setF_within, and_self]

theorem getF_evrStarted (s : State) (n : Nat) :
    getF (evrStarted s n) Fld.evrCtlEnable n = 1 ∧ getF (evrStarted s n) Fld.evrTail n = 0 ∧ getF (evrStarted s n) Fld.evrHead n = 0 ∧
    getF (evrStarted s n) Fld.evrTailPhase n = 1 ∧ getF (evrStarted s n) Fld.evrStatFull n = 0 ∧ getF (evrStarted s n) Fld.evrStatLost n = 0 := by
  simp (disch := decide) only [evrStarted, List.foldl_cons, List.foldl_nil, getF_setF_apart, getF_setF_within, and_self]

/-- RING_ENABLE of a queue pair by a PF. -/
theorem exec_ringEnable_qp {req : Requester} (hpf : Requester.isPf req = true) (hmode : mode s = 1) :
    exec (.ringEnable req false n) s = .next (qpEnable s n) := by
  show execRingEnable req false n s = _
  simp [execRingEnable, gated_normal hmode, ringWriter, hpf]

/-- RING_ENABLE of an event ring by a PF. -/
theorem exec_ringEnable_evr {req : Requester} (hpf : Requester.isPf req = true) (hmode : mode s = 1) :
    exec (.ringEnable req true n) s = .next (evrEnable s n) := by
  show execRingEnable req true n s = _
  simp [execRingEnable, gated_normal hmode, ringWriter, hpf]

theorem ringEnable_starts_qp {req : Requester} (hpf : Requester.isPf req = true) (hmode : mode s = 1)
    (hst : getF s Fld.qpStatState n = 0 ∨ getF s Fld.qpStatState n = 3) (hok : qpEnableOk s n = true) :
    ∃ u, exec (.ringEnable req false n) s = .next u ∧ getF u Fld.qpStatState n = 1 ∧ getF u Fld.qpCtlEnable n = 1 ∧
      getF u Fld.qpSqHead n = 0 ∧ getF u Fld.qpSqTail n = 0 ∧ getF u Fld.qpCqHead n = 0 ∧ getF u Fld.qpCqTail n = 0 ∧
      getF u Fld.qpCqTailPhase n = 1 ∧ getF u Fld.qpStatCqFull n = 0 ∧ getF u Fld.qpCtlKind n = getF s Fld.qpCtlKind n ∧
      (∀ r i, i ≠ n → getReg u r i = getReg s r i) ∧ u.mem = s.mem ∧ u.out = s.out ∧ u.rings.ops = s.rings.ops := by
  obtain ⟨hstate, hen, hsh, hst', hch, hct, hph, hfull, hkind⟩ := getF_qpStarted s n
  obtain ⟨x, hregs⟩ := qpStarted_only_regs s n
  refine ⟨_, by rw [exec_ringEnable_qp hpf hmode, qpEnable_starts hst hok], ?_⟩
  simp (disch := decide) only [getF_qpSettle, getF_setQp]
  refine ⟨hstate, hen, hsh, hst', hch, hct, hph, hfull, hkind, fun r i hi => ?_, by rw [qpSettle_mem, setQp_mem, hregs],
    by rw [qpSettle_out, setQp_out, hregs], by rw [qpSettle_rings, setQp_ops, hregs]⟩
  rw [getReg_qpSettle_other _ _ _ hi, getReg_setQp, getReg_qpStarted_other s hi]

theorem ringEnable_starts_evr {req : Requester} (hpf : Requester.isPf req = true) (hmode : mode s = 1)
    (hoff : getF s Fld.evrCtlEnable n = 0) (hok : evrEnableOk s n = true) (howed : s.ridge.exitOwed = false) :
    ∃ u, exec (.ringEnable req true n) s = .next u ∧ getF u Fld.evrCtlEnable n = 1 ∧ getF u Fld.evrTail n = 0 ∧
      getF u Fld.evrHead n = 0 ∧ getF u Fld.evrTailPhase n = 1 ∧ getF u Fld.evrStatFull n = 0 ∧ getF u Fld.evrStatLost n = 0 ∧
      (∀ r i, i ≠ n → getReg u r i = getReg s r i) ∧ u.mem = s.mem ∧ u.out = s.out := by
  obtain ⟨hen, htail, hhead, hph, hfull, hlost⟩ := getF_evrStarted s n
  obtain ⟨x, hregs⟩ := evrStarted_only_regs s n
  refine ⟨_, by rw [exec_ringEnable_evr hpf hmode, evrEnable_starts hoff hok howed], ?_⟩
  simp only [getF_setEvr, getReg_setEvr]
  exact ⟨hen, htail, hhead, hph, hfull, hlost, fun r i hi => getReg_evrStarted_other s hi r, by rw [setEvr_mem, hregs], by rw [setEvr_out, hregs]⟩

end

/-! ### Disabling, and writers that are refused (08 R216, R218) -/

section
variable {s : State} {n : Nat}

/-- RING_DISABLE of a queue pair by a PF. -/
theorem exec_ringDisable_qp {req : Requester} (hpf : Requester.isPf req = true) (hmode : mode s = 1) :
    exec (.ringDisable req false n) s = .next (qpDisable s n) := by
  show execRingDisable req false n s = _
  simp [execRingDisable, gated_normal hmode, ringWriter, hpf]

/-- RING_DISABLE of an event ring by a PF. -/
theorem exec_ringDisable_evr {req : Requester} (hpf : Requester.isPf req = true) (hmode : mode s = 1) :
    exec (.ringDisable req true n) s = .next (evrDisable s n) := by
  show execRingDisable req true n s = _
  simp [execRingDisable, gated_normal hmode, ringWriter, hpf]

theorem qpDisable_enabled (h : getF s Fld.qpStatState n = 1) : qpDisable s n = stopQp s n := if_pos h

theorem qpDisable_other (h : getF s Fld.qpStatState n ≠ 1) : qpDisable s n = s := if_neg h

theorem getReg_stopQp_other (s : State) (n : Nat) (r : Reg) {i : Nat} (h : i ≠ n) : getReg (stopQp s n) r i = getReg s r i := by
  rw [stopQp, getReg_setF_other _ _ _ _ _ _ (.inr h), getReg_setF_other _ _ _ _ _ _ (.inr h)]

theorem ringDisable_stops {req : Requester} (hpf : Requester.isPf req = true) (hmode : mode s = 1) (hon : getF s Fld.qpStatState n = 1) :
    ∃ u, exec (.ringDisable req false n) s = .next u ∧ getF u Fld.qpStatState n = 2 ∧ getF u Fld.qpCtlEnable n = 0 ∧
      getF u Fld.qpSqHead n = getF s Fld.qpSqHead n ∧ (∀ r i, i ≠ n → getReg u r i = getReg s r i) ∧ u.rings = s.rings ∧
      u.mem = s.mem := by
  refine ⟨_, by rw [exec_ringDisable_qp hpf hmode, qpDisable_enabled hon], ?_⟩
  simp (disch := decide) only [stopQp, getF_setF_apart, getF_setF_within, true_and]
  exact ⟨fun r i hi => getReg_stopQp_other s n r hi, rfl, rfl⟩

/-- A thread of another bay is no writer of a queue pair. -/
theorem ringWriter_other_bay {t : Tid} (h : bayOfTid s t.toNat ≠ bayOfQp s n) : ringWriter s (.thread t) false n = false := by
  cases hbay : bayOfTid s t.toNat with
  | none => simp [ringWriter, Requester.isPf, Requester.bay, hbay]
  | some b =>
    rw [hbay] at h
    simpa [ringWriter, Requester.isPf, Requester.bay, hbay] using Ne.symm h

theorem exec_ringEnable_refused {req : Requester} (hmode : mode s = 1) {evr : Bool} (h : ringWriter s req evr n = false) :
    exec (.ringEnable req evr n) s = .next (bump s Fld.admDeniedCnt 0) := by
  show execRingEnable req evr n s = _
  simp [execRingEnable, gated_normal hmode, h, admDenied]

theorem exec_ringDisable_refused {req : Requester} (hmode : mode s = 1) {evr : Bool} (h : ringWriter s req evr n = false) :
    exec (.ringDisable req evr n) s = .next (bump s Fld.admDeniedCnt 0) := by
  show execRingDisable req evr n s = _
  simp [execRingDisable, gated_normal hmode, h, admDenied]

end

/-! ### The end of a stop (08 R218, R240) -/

section
variable {s : State} {n : Nat}

/-- A stopping queue pair once those of its operations that are short of their commit points have ended: disabled if none is left. -/
def qpStopped (s : State) (n : Nat) : State :=
  if (qpOps (abortOps s (qpOps s n)) n).isEmpty then setF (abortOps s (qpOps s n)) Fld.qpStatState n 0 else abortOps s (qpOps s n)

theorem exec_ringStopDone_stopping (hst : getF s Fld.qpStatState n = 2)
    (hfree : ∀ ep fn, qpOwner s n = some (ep, fn) → (fnOf s ep fn).stopCause = 0) :
    exec (.ringStopDone false n) s = .next (qpStopped s n) := by
  show execRingStopDone false n s = _
  cases howner : qpOwner s n with
  | none => simp [execRingStopDone, hst, howner, qpStopped]
  | some f =>
    obtain ⟨ep, fn⟩ := f
    simp [execRingStopDone, hst, howner, hfree ep fn howner, qpStopped]

theorem qpStopped_idle (h : qpOps s n = []) : qpStopped s n = setF s Fld.qpStatState n 0 := by
  simp [qpStopped, abortOps, h]

variable {op : Nat} {o : Op}

theorem qpStopped_committed (h : qpOps s n = [op]) (ho : opOf s op = some o) (hst : o.st = .committed) : qpStopped s n = s := by
  simp [qpStopped, abortOps, h, ho, hst]

theorem qpStopped_aborts (h : qpOps s n = [op]) (ho : opOf s op = some o) (hst : o.st ≠ .committed) :
    qpStopped s n = if (qpOps (finishOp s op stAborted 0 0) n).isEmpty then setF (finishOp s op stAborted 0 0) Fld.qpStatState n 0
      else finishOp s op stAborted 0 0 := by
  simp [qpStopped, abortOps, h, ho, hst]

end

/-! ### The statement -/

/-- Settles O34: each clause is the law above of the command that it speaks of. -/
theorem ringEnableAndStop : Obligations.RingEnableAndStop := by
  unfold Obligations.RingEnableAndStop
  intro s req t n op o hpf hmode
  refine ⟨fun hst hok => ringEnable_starts_qp hpf hmode hst hok, fun hst hok => ?_,
    fun hoff hok howed => ringEnable_starts_evr hpf hmode hoff hok howed, fun hon => ringDisable_stops hpf hmode hon,
    fun hoff => ?_, ?_, fun hbay => ?_, fun hst hfree => ?_⟩
  · rw [exec_ringEnable_qp hpf hmode, qpEnable_refused hst hok]
  · rw [exec_ringDisable_qp hpf hmode, qpDisable_other hoff]
  · exact ⟨_, exec_ringDisable_evr hpf hmode, getF_setF_within _ _ _ (by decide) (by decide),
      fun r i hi => getReg_setF_other _ _ _ _ _ _ (.inr hi), rfl⟩
  · have hrefused := ringWriter_other_bay hbay
    exact ⟨exec_ringEnable_refused hmode hrefused, exec_ringDisable_refused hmode hrefused⟩
  · rw [exec_ringStopDone_stopping hst hfree]
    refine ⟨fun hnone => ⟨_, rfl, ?_⟩, fun h ho hc => ?_, fun h ho hc => ?_⟩
    · rw [qpStopped_idle hnone]
      exact ⟨getF_setF_within _ _ _ (by decide) (by decide), fun r i hi => getReg_setF_other _ _ _ _ _ _ (.inr hi), rfl, rfl⟩
    · rw [qpStopped_committed h ho hc]
    · rw [qpStopped_aborts h ho hc]

end Sys2Proof.Machine
end

section
/-! PROOFS. Doorbells of queue pairs and event rings, the CQ stall and the coalescing timer (08 R219 to R224, R228; 02 R59): what an accepted
field writes, what becomes of a discarded one, how a notification fires, and the statement assembled from them. -/

namespace Sys2Proof.Machine

/-! ### An accepted field (08 R222, R224) -/

section
variable (s : State) (n t : Nat)

/-- A queue pair once an sq_tail is taken, before the watchers of its unfetched bit are woken: the descriptors first covered have the
present time. -/
def tailTaken (s : State) (n t : Nat) : State :=
  let v := setF s Fld.qpSqTail n t
  let known := ((qpOf s n).arrivals.map (fun a => a.1)).sum
  if known < sqAvail v n then setQp v n { qpOf s n with arrivals := (qpOf s n).arrivals ++ [(sqAvail v n - known, s.ftime)] } else v

theorem takeTail_eq : takeTail s n t =
    if sqAvail s n = 0 ∧ 0 < sqAvail (setF s Fld.qpSqTail n t) n then wakeWatchers (tailTaken s n t) (bitUnfetched n) else tailTaken s n t :=
  rfl

theorem takeTail_wakes : WakeOnly (tailTaken s n t) (takeTail s n t) := by
  rw [takeTail_eq]
  split
  · exact .of_wakeWatchers _ _
  · exact .refl _

theorem tailTaken_regs : (tailTaken s n t).regs = (setF s Fld.qpSqTail n t).regs := by
  unfold tailTaken
  dsimp only
  split <;> rfl

theorem tailTaken_mem : (tailTaken s n t).mem = s.mem := by
  unfold tailTaken
  dsimp only
  split <;> rfl

/-- Of a queue pair's registers an accepted sq_tail writes its own alone. -/
theorem getF_takeTail {f : Fld} (hf : f.reg ∉ wakeRegs) (i : Nat) : getF (takeTail s n t) f i = getF (setF s Fld.qpSqTail n t) f i := by
  rw [(takeTail_wakes s n t).getF_eq hf, getF_of_regs_eq (tailTaken_regs s n t)]

theorem sqAvail_takeTail : sqAvail (takeTail s n t) n = sqAvail (setF s Fld.qpSqTail n t) n := by
  simp (disch := decide) only [sqAvail, qpDepth, getF_takeTail]

theorem takeTail_arrivals
    (h : ((qpOf s n).arrivals.map (fun a => a.1)).sum < sqAvail (takeTail s n t) n) : (qpOf (takeTail s n t) n).arrivals =
      (qpOf s n).arrivals ++ [(sqAvail (takeTail s n t) n - ((qpOf s n).arrivals.map (fun a => a.1)).sum, s.ftime)] := by
  rw [sqAvail_takeTail] at h ⊢
  have hrings : qpOf (takeTail s n t) n = qpOf (tailTaken s n t) n := by rw [qpOf, (takeTail_wakes s n t).rings_eq, qpOf]
  rw [hrings, tailTaken]
  dsimp only
  rw [if_pos h, qpOf_setQp_same]

theorem takeHead_regs : getF (takeHead s n t) Fld.qpCqHead n = getF (setF s Fld.qpCqHead n t) Fld.qpCqHead n ∧
    getF (takeHead s n t) Fld.qpCtlServiceRafter n = getF s Fld.qpCtlServiceRafter n := by
  unfold takeHead
  dsimp only
  split <;> simp (disch := decide) only [getF_setQp, getF_setF_apart, and_self]

theorem takeHead_mem : (takeHead s n t).mem = s.mem := by
  unfold takeHead
  dsimp only
  split <;> rfl

end

/-! ### A queue pair's doorbell (08 R220 to R222) -/

section
variable {s : State} {n : Nat} {v : Dword}

theorem exec_doorbellWrite_normal (hmode : mode s = 1) (req : Requester) : exec (.doorbellWrite req n v) s = .next (qpDoorbell s n v) :=
  congrArg _ (gated_normal hmode req _)

theorem qpDoorbell_tail (hon : getF s Fld.qpStatState n = 1) (hsq : v.getLsbD 31 = true) (hcq : v.getLsbD 63 = false)
    (ht : v.toNat % 65536 < qpDepth s n) :
    let w := takeTail s n (v.toNat % 65536)
    qpDoorbell s n v = latchWake (writeGlobal w (bitDoorbell n) true) (getF w Fld.qpCtlServiceRafter n) 1 := by
  simp only [qpDoorbell, hon, hsq, hcq, ht, decide_true, Bool.true_and, Bool.false_and, Bool.true_or, if_true, Bool.false_eq_true, if_false]

theorem qpDoorbell_head (hon : getF s Fld.qpStatState n = 1) (hsq : v.getLsbD 31 = false) (hcq : v.getLsbD 63 = true)
    (hspan : inSpan (qpDepth s n) (getF s Fld.qpCqHead n) (getF s Fld.qpCqTail n) (v.toNat / 2 ^ 32 % 65536) = true) :
    let w := takeHead s n (v.toNat / 2 ^ 32 % 65536)
    qpDoorbell s n v = latchWake (writeGlobal w (bitDoorbell n) true) (getF w Fld.qpCtlServiceRafter n) 1 := by
  simp only [qpDoorbell, hon, hsq, hcq, hspan, decide_true, Bool.true_and, Bool.false_and, Bool.and_self, Bool.or_true,
    if_true, Bool.false_eq_true, if_false]

theorem qpDoorbell_discarded (hsq : v.getLsbD 31 = true) (hcq : v.getLsbD 63 = false)
    (hbad : ¬ getF s Fld.qpStatState n = 1 ∨ qpDepth s n ≤ v.toNat % 65536) : qpDoorbell s n v = badDoorbell s false n v := by
  have hno : (decide (getF s Fld.qpStatState n = 1) && decide (v.toNat % 65536 < qpDepth s n)) = false := by
    rw [← Bool.decide_and, decide_eq_false_iff_not]
    omega
  simp only [qpDoorbell, hsq, hcq, hno, Bool.true_and, Bool.false_and, Bool.or_self, if_true, Bool.false_eq_true, if_false]

theorem qpDoorbell_no_field (hsq : v.getLsbD 31 = false) (hcq : v.getLsbD 63 = false) : qpDoorbell s n v = s := by
  simp only [qpDoorbell, hsq, hcq, Bool.false_and, Bool.or_self, Bool.false_eq_true, if_false]

theorem badDoorbell_qp (s : State) (n : Nat) (v : Dword) : badDoorbell s false n v =
    raiseR (bump s Fld.admDbBadCnt 0) none n { code := 0x0301, bay := (bayOfQp s n).getD 0xFF, aux8 := 0, aux16 := n, arg0 := v.toNat } := rfl

/-- DOORBELL_WRITE with an sq_tail below the depth of an enabled ring. -/
theorem doorbellWrite_takes_tail (hmode : mode s = 1) (req : Requester) (hon : getF s Fld.qpStatState n = 1) (hsq : v.getLsbD 31 = true)
    (hcq : v.getLsbD 63 = false) (ht : v.toNat % 65536 < qpDepth s n) :
    ∃ w, exec (.doorbellWrite req n v) s = .next (latchWake (writeGlobal w (bitDoorbell n) true) (getF w Fld.qpCtlServiceRafter n) 1) ∧
      getF w Fld.qpSqTail n = v.toNat % 65536 ∧ getF w Fld.qpSqHead n = getF s Fld.qpSqHead n ∧ w.mem = s.mem ∧
      (sqAvail w n > ((qpOf s n).arrivals.map (fun a => a.1)).sum → (qpOf w n).arrivals =
        (qpOf s n).arrivals ++ [(sqAvail w n - ((qpOf s n).arrivals.map (fun a => a.1)).sum, s.ftime)]) := by
  refine ⟨takeTail s n (v.toNat % 65536), by rw [exec_doorbellWrite_normal hmode, qpDoorbell_tail hon hsq hcq ht], ?_, ?_, ?_,
    takeTail_arrivals s n _⟩
  · exact (getF_takeTail _ _ _ (by decide) n).trans (getF_setF_within _ _ _ (by decide) (Nat.mod_lt _ (by decide)))
  · rw [getF_takeTail _ _ _ (by decide), getF_setF_apart _ _ _ _ _ (by decide)]
  · rw [(takeTail_wakes s n _).mem_eq, tailTaken_mem]

/-- DOORBELL_WRITE with a cq_head within the span; a doorbell of cq_head alone rings too (DEDUCED, log 102). -/
theorem doorbellWrite_takes_head (hmode : mode s = 1) (req : Requester) (hon : getF s Fld.qpStatState n = 1) (hsq : v.getLsbD 31 = false)
    (hcq : v.getLsbD 63 = true) (hh : v.toNat / 2 ^ 32 % 65536 < qpDepth s n)
    (hspan : (v.toNat / 2 ^ 32 % 65536 + qpDepth s n - getF s Fld.qpCqHead n) % qpDepth s n ≤
      (getF s Fld.qpCqTail n + qpDepth s n - getF s Fld.qpCqHead n) % qpDepth s n) :
    ∃ w, exec (.doorbellWrite req n v) s = .next (latchWake (writeGlobal w (bitDoorbell n) true) (getF s Fld.qpCtlServiceRafter n) 1) ∧
      getF w Fld.qpCqHead n = v.toNat / 2 ^ 32 % 65536 ∧ w.mem = s.mem := by
  obtain ⟨hhead, hrafter⟩ := takeHead_regs s n (v.toNat / 2 ^ 32 % 65536)
  refine ⟨takeHead s n (v.toNat / 2 ^ 32 % 65536), ?_, ?_, takeHead_mem s n _⟩
  · rw [exec_doorbellWrite_normal hmode, qpDoorbell_head hon hsq hcq (decide_eq_true ⟨hh, hspan⟩), hrafter]
  · exact hhead.trans (getF_setF_within _ _ _ (by decide) (Nat.mod_lt _ (by decide)))

end

/-! ### An event ring's doorbell (08 R220, R221, R228) -/

section
variable {s : State} {e : Nat} {v : Dword}

theorem exec_eventRingDoorbell_normal (hmode : mode s = 1) (req : Requester) :
    exec (.eventRingDoorbell req e v) s = .next (evrDoorbell s e v) := congrArg _ (gated_normal hmode req _)

theorem evrDoorbell_no_field (hv : v.getLsbD 31 = false) : evrDoorbell s e v = s := by
  simp only [evrDoorbell, hv, Bool.not_false, if_true]

theorem evrDoorbell_disabled (hv : v.getLsbD 31 = true) (hoff : getF s Fld.evrCtlEnable e = 0) : evrDoorbell s e v =
    evrPut (bump s Fld.admDbBadCnt 0) e { code := 0x0301, bay := (bayOfEvr s e).getD 0xFF, aux8 := 1, aux16 := e, arg0 := v.toNat } := by
  have hbad : evrDoorbell s e v = badDoorbell s true e v := by
    simp [evrDoorbell, hv, flagF_eq_false hoff]
  rw [hbad]
  rfl

/-- A slot that frees in a ring that is not full changes nothing else. -/
theorem evrFreed_not_full (h : getF s Fld.evrStatFull e = 0) : evrFreed s e = s := by
  simp [evrFreed, flagF_eq_false h]

theorem evrDoorbell_takes_head (hv : v.getLsbD 31 = true) (hon : getF s Fld.evrCtlEnable e = 1) (hfull : getF s Fld.evrStatFull e = 0)
    (hspan : inSpan (evrDepth s e) (getF s Fld.evrHead e) (getF s Fld.evrTail e) (v.toNat % 65536) = true) :
    evrDoorbell s e v = setF s Fld.evrHead e (v.toNat % 65536) := by
  have hfull' : getF (setF s Fld.evrHead e (v.toNat % 65536)) Fld.evrStatFull e = 0 := by
    rw [getF_setF_apart _ _ _ _ _ (by decide), hfull]
  simp [evrDoorbell, hv, flagF_eq_true hon, hspan, evrFreed_not_full hfull']

end

/-! ### The CQ stall and the coalescing timer (08 R219, R224) -/

section
variable {s : State} {n : Nat}

/-- A CQ stall, before its event: the limit runs on command (log 164). -/
def cqStalled (s : State) (n : Nat) : State := bump (setQp (setF s Fld.qpStatCqFull n 1) n { qpOf s n with stalled := true }) Fld.admCqStallCnt 0

theorem exec_cqStallTimeout_due (hon : getF s Fld.qpStatState n = 1) (havail : sqAvail s n ≠ 0) (hroom : ringRoom s n = false)
    (hfirst : (qpOf s n).stalled = false) : exec (.cqStallTimeout n) s =
      .next (raiseR (cqStalled s n) none n { code := 0x0302, bay := (bayOfQp s n).getD 0xFF, aux16 := n }) :=
  congrArg _ (if_neg (by simp [hon, havail, hroom, hfirst]))

theorem exec_cqStallTimeout_again (h : (qpOf s n).stalled = true) : exec (.cqStallTimeout n) s = .next s :=
  congrArg _ (if_pos (.inr (.inr (.inr h))))

theorem cqStalled_shows (s : State) (n : Nat) : getF (cqStalled s n) Fld.qpStatCqFull n = 1 ∧ (qpOf (cqStalled s n) n).stalled = true ∧
    getF (cqStalled s n) Fld.admCqStallCnt 0 = (getF s Fld.admCqStallCnt 0 + 1) % 2 ^ 64 ∧ (cqStalled s n).mem = s.mem := by
  refine ⟨?_, by rw [cqStalled, qpOf_bump, qpOf_setQp_same], ?_, by rw [cqStalled, bump_mem, setQp_mem, setF_mem]⟩
  · rw [cqStalled, bump, bumpN, getF_setF_other _ _ _ _ _ _ (.inl (by decide)), getF_setQp, getF_setF_within _ _ _ (by decide) (by decide)]
  · have hcnt := getF_bump_same (setQp (setF s Fld.qpStatCqFull n 1) n { qpOf s n with stalled := true }) Fld.admCqStallCnt 0
      ⟨by decide, by decide⟩
    rwa [getF_setQp, getF_setF_other _ _ _ _ _ _ (.inl (by decide))] at hcnt

/-- The announcement of a queue pair's completions when its coalescing time is over. -/
def qpAnnounced (s : State) (n : Nat) : State :=
  setQp (reach s ((qpOf s n).unannAt + getF s Fld.qpNotifyCoalUs n * 1000)) n { qpOf s n with unann := 0 }

/-- NOTIFY_COALESCE_TIMEOUT of a queue pair; its expiry moves fabric time (log 125). -/
theorem exec_notifyCoalesceTimeout_qp (hun : 0 < (qpOf s n).unann) (hus : getF s Fld.qpNotifyCoalUs n ≠ 0) :
    exec (.notifyCoalesceTimeout 0 n) s = .next (notify (qpAnnounced s n) (getF s Fld.qpNotifyMode n) (getF s Fld.qpNotifyTarget n)
      (getF s Fld.qpCtlEp n) (getF s Fld.qpCtlFunc n) ((bayOfQp s n).getD 0)) :=
  congrArg _ (if_neg (by omega))

theorem exec_notifyCoalesceTimeout_evr {e : Nat} (hun : 0 < (evrOf s e).unann) (hus : getF s Fld.evrNotifyCoalUs e ≠ 0) :
    exec (.notifyCoalesceTimeout 1 e) s = .next (evrFire (reach s ((evrOf s e).unannAt + getF s Fld.evrNotifyCoalUs e * 1000)) e) :=
  congrArg _ (if_neg (by omega))

theorem exec_notifyCoalesceTimeout_none (h : (qpOf s n).unann = 0) : exec (.notifyCoalesceTimeout 0 n) s = .next s :=
  congrArg _ (if_pos (.inl h))

variable {target ep fn bay : Nat}

theorem notify_off : notify s 0 target ep fn bay = s := rfl

theorem notify_msix (h : vecOpen s ep fn target = true) : notify s 1 target ep fn bay = emit s (.msix ep fn target) := if_pos h

theorem notify_flag : notify s 2 target ep fn bay = setFlag s bay target := rfl

end

/-! ### The statement -/

/-- Settles O35: each clause is the law above of the command that it speaks of. -/
theorem doorbellsAndNotices : Obligations.DoorbellsAndNotices := by
  unfold Obligations.DoorbellsAndNotices
  intro s req n e v
  refine ⟨fun hmode => doorbellWrite_takes_tail hmode req, fun hmode => doorbellWrite_takes_head hmode req,
    fun hmode hsq hcq hbad => ?_, fun hmode hsq hcq => ?_, fun hmode hpf => ⟨?_, ?_⟩, fun hmode hv hon hfull hh hspan => ?_,
    fun hmode hv hoff => ?_, fun hmode hv => ?_, fun hon havail hroom hfirst => ?_, exec_cqStallTimeout_again,
    fun hun hus => ⟨fun hm => ?_, fun hm hopen => ?_, fun hm hbay => ?_⟩, fun hun hus hm => ?_, exec_notifyCoalesceTimeout_none⟩
  · rw [exec_doorbellWrite_normal hmode, qpDoorbell_discarded hsq hcq hbad, badDoorbell_qp]
  · rw [exec_doorbellWrite_normal hmode, qpDoorbell_no_field hsq hcq]
  · exact congrArg _ (gated_pf_closed hmode hpf _)
  · exact congrArg _ (gated_pf_closed hmode hpf _)
  · refine ⟨_, by rw [exec_eventRingDoorbell_normal hmode, evrDoorbell_takes_head hv hon hfull (decide_eq_true ⟨hh, hspan⟩)],
      getF_setF_within _ _ _ (by decide) (Nat.mod_lt _ (by decide)), fun r i hr => getReg_setF_other _ _ _ _ _ _ hr, rfl⟩
  · rw [exec_eventRingDoorbell_normal hmode, evrDoorbell_disabled hv hoff]
  · rw [exec_eventRingDoorbell_normal hmode, evrDoorbell_no_field hv]
  · exact ⟨cqStalled s n, exec_cqStallTimeout_due hon havail hroom hfirst, cqStalled_shows s n⟩
  · rw [exec_notifyCoalesceTimeout_qp hun hus, hm, notify_off]
    rfl
  · have hopen' : vecOpen (qpAnnounced s n) (getF s Fld.qpCtlEp n) (getF s Fld.qpCtlFunc n) (getF s Fld.qpNotifyTarget n) = true := hopen
    rw [exec_notifyCoalesceTimeout_qp hun hus, hm, notify_msix hopen']
    rfl
  · rw [exec_notifyCoalesceTimeout_qp hun hus, hm, notify_flag, hbay]
    rfl
  · rw [exec_notifyCoalesceTimeout_evr hun hus]
    exact congrArg _ (congrArg (notify _ · _ _ _ _) hm)

end Sys2Proof.Machine
end

section
/-! PROOFS. Little-endian fields of byte lists (00 R8; 08 Table 8.4): a field of a concatenation, of fields laid out in rising order, and of
bytes that stand in memory. -/

namespace Sys2Proof.Machine

/-! ### Fields of concatenations -/

section
variable {xs ys : List Byte} {off n : Nat}

theorem leAt_append_left (h : off + n ≤ xs.length) : leAt (xs ++ ys) off n = leAt xs off n := by
  rw [leAt, leAt, List.drop_append_of_le_length (by omega), List.take_append_of_le_length (by rw [List.length_drop]; omega)]

theorem leAt_append_right (h : xs.length ≤ off) : leAt (xs ++ ys) off n = leAt ys (off - xs.length) n := by
  rw [leAt, leAt, List.drop_append, List.drop_eq_nil_of_le h, List.nil_append]

/-- A number's bytes read as the number, cut to their width. -/
theorem leAt_leBytes (n v : Nat) : leAt (leBytes n v) 0 n = v % 2 ^ (8 * n) := by
  rw [leAt, List.drop_zero, List.take_of_length_le (leBytes_length n v).le, leNat_leBytes]

/-- A field depends on its own bytes alone. -/
theorem leAt_congr (h : ∀ k, off ≤ k → k < off + n → xs[k]? = ys[k]?) : leAt xs off n = leAt ys off n := by
  have hbytes : (xs.drop off).take n = (ys.drop off).take n := by
    apply List.ext_getElem?
    intro i
    by_cases hi : i < n
    · rw [List.getElem?_take_of_lt hi, List.getElem?_take_of_lt hi, List.getElem?_drop, List.getElem?_drop, h _ (by omega) (by omega)]
    · rw [List.getElem?_take_eq_none (by omega), List.getElem?_take_eq_none (by omega)]
  rw [leAt, leAt, hbytes]

/-- A range of zero bytes. -/
theorem zeroAt_of_getElem? (h : ∀ k, off ≤ k → k < off + n → k < xs.length → xs[k]? = some 0) : zeroAt xs off n = true := by
  rw [zeroAt, List.all_eq_true]
  intro b hb
  obtain ⟨i, hi, rfl⟩ := List.getElem_of_mem hb
  obtain ⟨hlt, hlen⟩ : i < n ∧ off + i < xs.length := by
    rw [List.length_take, List.length_drop] at hi
    omega
  have hk := h (off + i) (by omega) (by omega) hlen
  rw [← List.getElem?_drop, ← List.getElem?_take_of_lt hlt, List.getElem?_eq_getElem hi, Option.some_inj] at hk
  rw [hk]
  rfl

end

/-! ### Chunks of one length -/

section
variable {m : Nat} {ls : List (List Byte)}

theorem length_flatten_of_chunks (h : ∀ c ∈ ls, c.length = m) : ls.flatten.length = m * ls.length := by
  rw [List.length_flatten, List.map_congr_left h, List.map_const', List.sum_replicate, smul_eq_mul, mul_comm]

/-- A field within one chunk of a list of chunks. -/
theorem leAt_flatten (h : ∀ c ∈ ls, c.length = m) {k : Nat} {c : List Byte} (hk : ls[k]? = some c) {off n : Nat} (hoff : off + n ≤ m) :
    leAt ls.flatten (m * k + off) n = leAt c off n := by
  induction ls generalizing k with
  | nil => simp at hk
  | cons d ls ih =>
    have hd : d.length = m := h d List.mem_cons_self
    rw [List.flatten_cons]
    cases k with
    | zero =>
      obtain rfl : d = c := Option.some_inj.1 hk
      rw [mul_zero, zero_add, leAt_append_left (by omega)]
    | succ k =>
      have hstart : m * (k + 1) + off - d.length = m * k + off := by rw [mul_add, hd]; omega
      rw [leAt_append_right (by rw [mul_add, hd]; omega), hstart, ih (fun c hc => h c (List.mem_cons_of_mem d hc)) hk]

end

/-! ### Fields laid out in rising order (08 Table 8.4) -/

section
variable {bs : List Byte} {f : Nat × Nat × Nat}

theorem layField_length (h : f.1 + f.2.1 ≤ bs.length) : (layField bs f).length = bs.length := by
  simp only [layField, List.length_append, List.length_take, List.length_drop, leBytes_length]
  omega

theorem layField_getElem?_outside {k : Nat} (h : f.1 + f.2.1 ≤ bs.length) (hk : k < f.1 ∨ f.1 + f.2.1 ≤ k) : (layField bs f)[k]? = bs[k]? := by
  have hlen : (bs.take f.1).length = f.1 := by rw [List.length_take]; omega
  rcases hk with hk | hk
  · rw [layField, List.append_assoc, List.getElem?_append_left (by omega), List.getElem?_take_of_lt hk]
  · have hpre : (bs.take f.1 ++ leBytes f.2.1 f.2.2).length = f.1 + f.2.1 := by rw [List.length_append, hlen, leBytes_length]
    rw [layField, List.getElem?_append_right (by omega), hpre, List.getElem?_drop, Nat.add_sub_cancel' hk]

theorem leAt_layField (h : f.1 + f.2.1 ≤ bs.length) (hv : f.2.2 < 2 ^ (8 * f.2.1)) : leAt (layField bs f) f.1 f.2.1 = f.2.2 := by
  have hlen : (bs.take f.1).length = f.1 := by rw [List.length_take]; omega
  rw [layField, List.append_assoc, leAt_append_right (by omega), hlen, Nat.sub_self, leAt_append_left (by rw [leBytes_length]; omega),
    leAt_leBytes, Nat.mod_eq_of_lt hv]

end

/-- Fields laid out from an offset on in rising order, each holding a value of its width, within 48 bytes. -/
def Laid : Nat → List (Nat × Nat × Nat) → Prop
  | lo, [] => lo ≤ 48
  | lo, f :: fs => lo ≤ f.1 ∧ f.2.2 < 2 ^ (8 * f.2.1) ∧ Laid (f.1 + f.2.1) fs

namespace Laid

variable {lo : Nat} {f : Nat × Nat × Nat} {fs : List (Nat × Nat × Nat)}

theorem le (h : Laid lo fs) : lo ≤ 48 := by
  induction fs generalizing lo with
  | nil => exact h
  | cons f fs ih =>
    obtain ⟨hlo, -, hrest⟩ := h
    have := ih hrest
    omega

/-- Every field begins at or past the offset. -/
theorem le_of_mem (h : Laid lo fs) (hf : f ∈ fs) : lo ≤ f.1 := by
  induction fs generalizing lo with
  | nil => simp at hf
  | cons g fs ih =>
    obtain ⟨hlo, -, hrest⟩ := h
    rcases List.mem_cons.1 hf with rfl | hf
    · exact hlo
    · have := ih hrest hf
      omega

variable {bs : List Byte}

theorem length_foldl (h : Laid lo fs) (hbs : bs.length = 48) : (fs.foldl layField bs).length = 48 := by
  induction fs generalizing lo bs with
  | nil => exact hbs
  | cons f fs ih =>
    obtain ⟨-, -, hrest⟩ := h
    exact ih hrest (by rw [layField_length (by have := hrest.le; omega), hbs])

theorem foldl_getElem?_outside (h : Laid lo fs) (hbs : bs.length = 48) {k : Nat} (hk : ∀ f ∈ fs, k < f.1 ∨ f.1 + f.2.1 ≤ k) :
    (fs.foldl layField bs)[k]? = bs[k]? := by
  induction fs generalizing lo bs with
  | nil => rfl
  | cons f fs ih =>
    obtain ⟨-, -, hrest⟩ := h
    have hfit : f.1 + f.2.1 ≤ bs.length := by have := hrest.le; omega
    rw [List.foldl_cons, ih hrest (by rw [layField_length hfit, hbs]) (fun g hg => hk g (List.mem_cons_of_mem f hg)),
      layField_getElem?_outside hfit (hk f List.mem_cons_self)]

/-- Each field reads as the value laid there: the later ones begin past its end. -/
theorem leAt_foldl (h : Laid lo fs) (hbs : bs.length = 48) (hf : f ∈ fs) : leAt (fs.foldl layField bs) f.1 f.2.1 = f.2.2 := by
  induction fs generalizing lo bs with
  | nil => simp at hf
  | cons g fs ih =>
    obtain ⟨-, hv, hrest⟩ := h
    have hfit : g.1 + g.2.1 ≤ bs.length := by have := hrest.le; omega
    have hlen : (layField bs g).length = 48 := by rw [layField_length hfit, hbs]
    rcases List.mem_cons.1 hf with rfl | hf
    · rw [← leAt_layField hfit hv]
      refine leAt_congr fun k _ hk => hrest.foldl_getElem?_outside hlen fun e he => ?_
      have := hrest.le_of_mem he
      omega
    · exact ih hrest hlen hf

end Laid

/-! ### Fields of bytes in memory -/

/-- A number read back from within bytes that were written. -/
theorem readLe_writeBytes_inside (s : State) (a : Nat) {bs : List Byte} {off n : Nat} (h : off + n ≤ bs.length) :
    readLe (writeBytes s a bs) (a + off) n = leAt bs off n := by
  have hbytes : readBytes (writeBytes s a bs) (a + off) n = (bs.drop off).take n := by
    apply List.ext_getElem
    · rw [readBytes, List.length_map, List.length_range, List.length_take, List.length_drop]
      omega
    · intro i hi _
      have hi : i < n := by simpa [readBytes] using hi
      simp only [readBytes, List.getElem_map, List.getElem_range, List.getElem_take, List.getElem_drop, Nat.add_assoc]
      exact readByte_writeBytes_inside s a (off + i) bs (by omega)
  rw [readLe, hbytes, leAt]

end Sys2Proof.Machine
end

section
/-! PROOFS. The device's fetch of a descriptor (08 R222 to R226, R230, R232, R241, Table 8.4; a row is the fetch itself, log 126): the bytes of
a row's descriptor, the operation that it becomes, how a fetched operation ends or waits, and the statement assembled from them. -/

namespace Sys2Proof.Machine

/-! ### A row's descriptor (08 Table 8.4) -/

section
variable {opcode flags : Nat} {opId : Dword} {fs : List (Nat × Nat × Nat)}

/-- The body of a row's descriptor. -/
def rowBody (fs : List (Nat × Nat × Nat)) : List Byte := fs.foldl layField (List.replicate 48 0)

section
variable (h : Laid 0 fs)
include h

theorem rowBody_length : (rowBody fs).length = 48 := h.length_foldl List.length_replicate

theorem leAt_rowBody {f : Nat × Nat × Nat} (hf : f ∈ fs) : leAt (rowBody fs) f.1 f.2.1 = f.2.2 := h.leAt_foldl List.length_replicate hf

/-- What no field covers is zero. -/
theorem rowBody_getElem?_outside {k : Nat} (hk : k < 48) (hout : ∀ f ∈ fs, k < f.1 ∨ f.1 + f.2.1 ≤ k) : (rowBody fs)[k]? = some 0 := by
  rw [rowBody, h.foldl_getElem?_outside List.length_replicate hout, List.getElem?_replicate_of_lt hk]

end

/-- The 16 bytes before the body. -/
def descHead (opcode : Nat) (opId : Dword) (flags : Nat) : List Byte :=
  leBytes 2 opcode ++ leBytes 1 flags ++ List.replicate 5 0 ++ leBytes 8 opId.toNat

theorem descHead_length : (descHead opcode opId flags).length = 16 := by
  simp [descHead]

theorem descBytes_eq : descBytes opcode opId flags fs = descHead opcode opId flags ++ rowBody fs := rfl

theorem leAt_descBytes_head {off n : Nat} (h : off + n ≤ 16) :
    leAt (descBytes opcode opId flags fs) off n = leAt (descHead opcode opId flags) off n := by
  rw [descBytes_eq, leAt_append_left (by rw [descHead_length]; exact h)]

theorem leAt_descBytes_opcode (h : opcode < 2 ^ 16) : leAt (descBytes opcode opId flags fs) 0 2 = opcode := by
  rw [leAt_descBytes_head (by decide), descHead, leAt_append_left (by simp), leAt_append_left (by simp), leAt_append_left (by simp),
    leAt_leBytes, Nat.mod_eq_of_lt h]

theorem leAt_descBytes_flags (h : flags < 2 ^ 8) : leAt (descBytes opcode opId flags fs) 2 1 = flags := by
  rw [leAt_descBytes_head (by decide), descHead, leAt_append_left (by simp), leAt_append_left (by simp), leAt_append_right (by simp),
    leBytes_length, leAt_leBytes, Nat.mod_eq_of_lt h]

theorem leAt_descBytes_opId : leAt (descBytes opcode opId flags fs) 8 8 = opId.toNat := by
  have hlen : (leBytes 2 opcode ++ leBytes 1 flags ++ List.replicate 5 (0 : Byte)).length = 8 := by simp
  rw [leAt_descBytes_head (by decide), descHead, leAt_append_right hlen.le, hlen, leAt_leBytes, Nat.mod_eq_of_lt opId.isLt]

theorem zeroAt_descBytes : zeroAt (descBytes opcode opId flags fs) 3 5 = true := by
  refine zeroAt_of_getElem? fun k hlo hhi _ => ?_
  have hlen : (leBytes 2 opcode ++ leBytes 1 flags).length = 3 := by simp
  rw [descBytes_eq, descHead, List.append_assoc, List.append_assoc, List.getElem?_append_right (by omega), hlen,
    List.getElem?_append_left (by rw [List.length_replicate]; omega), List.getElem?_replicate_of_lt (by omega)]

theorem take_drop_descBytes (h : (rowBody fs).length = 48) : ((descBytes opcode opId flags fs).drop 16).take 48 = rowBody fs := by
  rw [descBytes_eq, List.drop_left' descHead_length, List.take_of_length_le h.le]

/-- The operation of a row's descriptor. -/
def rowOp (q b t flags : Nat) (opId : Dword) (opcode : Nat) (body : List Byte) : Op :=
  { src := .ring q, opId := opId, opcode := opcode, fence := bitN flags 0, notifyNow := bitN flags 1, body := body, arrival := t, bay := b }

theorem descOp_descBytes (q b t : Nat) (hop : opcode < 2 ^ 16) (hflags : flags < 2 ^ 8) (hbody : (rowBody fs).length = 48) :
    descOp q b t (descBytes opcode opId flags fs) = rowOp q b t flags opId opcode (rowBody fs) := by
  rw [descOp, leAt_descBytes_opcode hop, leAt_descBytes_flags hflags, leAt_descBytes_opId, take_drop_descBytes hbody, BitVec.ofNat_toNat,
    BitVec.setWidth_eq, rowOp]

end

/-! ### What becomes of a fetched descriptor (08 R223, R225, R230, R232, Table 8.7) -/

/-- The state with an operation numbered and not yet admitted. -/
def enrolled (s : State) (o : Op) : State :=
  putOp { s with rings := { s.rings with nextOp := s.rings.nextOp + 1 } } s.rings.nextOp o

section
variable {s s' : State} {q b t : Nat} {o : Op} {d data : List Byte}

theorem fetchDesc_taken (h : fetchTake s q = some (t, b, false, s')) :
    fetchDesc s q d data = fetchedOp s' q (descOp q b t d) d data false := by
  simp only [fetchDesc, h]

/-- The opcodes of the engines' operations are none of NOP's and ABORT's. -/
theorem listed_bounds {opcode : Nat} (h : opcode ∈ listedOps) : 2 ≤ opcode ∧ opcode < 2 ^ 16 := by
  revert opcode
  decide

/-- A listed operation that its engine's check refuses. -/
theorem fetchedOp_bad (hop : o.opcode ∈ listedOps) (hflags : leAt d 2 1 < 4) (hzero : zeroAt d 3 5 = true) {st ext res : Nat}
    (hcheck : (engineOf o.opcode).check s o data = .bad st ext res) :
    fetchedOp s q o d data false = finishOp (enrolled s o) s.rings.nextOp st res ext := by
  obtain ⟨hmin, -⟩ := listed_bounds hop
  have hengine : ¬ (o.opcode = 0x0000 ∨ o.opcode = 0x0001) := by omega
  simp only [fetchedOp, hengine, List.contains_iff_mem.2 hop, hflags, hzero, hcheck, decide_true, Bool.and_self, Bool.not_true,
    Bool.false_eq_true, if_false]
  rfl

/-- A listed operation that passes its engine's check. -/
theorem fetchedOp_go (hop : o.opcode ∈ listedOps) (hflags : leAt d 2 1 < 4) (hzero : zeroAt d 3 5 = true) {pool cost partner aux : Nat}
    {bs : List Byte} (hcheck : (engineOf o.opcode).check s o data = .go pool cost partner bs aux) :
    fetchedOp s q o d data false =
      arriveOp startOf s { o with pool := pool, cost := cost, partner := partner, data := bs, aux := aux } := by
  obtain ⟨hmin, -⟩ := listed_bounds hop
  have hengine : ¬ (o.opcode = 0x0000 ∨ o.opcode = 0x0001) := by omega
  simp only [fetchedOp, hengine, List.contains_iff_mem.2 hop, hflags, hzero, hcheck, decide_true, Bool.and_self, Bool.not_true,
    Bool.false_eq_true, if_false]

/-- An opcode that no engine has (log 133). -/
theorem fetchedOp_unlisted (hop : o.opcode ∉ listedOps) (hmin : 2 ≤ o.opcode) :
    fetchedOp s q o d data false = finishOp (enrolled s o) s.rings.nextOp stBadOpcode 0 0 := by
  have hengine : ¬ (o.opcode = 0x0000 ∨ o.opcode = 0x0001) := by omega
  have hlisted : listedOps.contains o.opcode = false := Bool.eq_false_iff.2 (mt List.contains_iff_mem.1 hop)
  simp only [fetchedOp, hengine, hlisted, Bool.not_false, Bool.false_eq_true, if_true, if_false]
  rfl

/-- An operation decided at fetch: past its commit point, its wait over (log 127). -/
def decidedAtFetch (s : State) (o : Op) : Op := { o with st := .committed, queued := s.ftime - o.arrival }

theorem putOp_enrolled (o' : Op) : putOp (enrolled s o) s.rings.nextOp o' = enrolled s o' := putOp_putOp _ _ o o'

theorem fetchedOp_nop (hop : o.opcode = 0) (hflags : leAt d 2 1 < 4) (hzero : zeroAt d 3 5 = true) (hbody : zeroAt o.body 0 48 = true) :
    fetchedOp s q o d data false = finishOp (enrolled s (decidedAtFetch s o)) s.rings.nextOp 0 0 0 := by
  simp only [fetchedOp, eq_true hop, hflags, hzero, hbody, decide_true, Bool.and_self, Bool.not_true, Bool.false_eq_true, true_or, if_true,
    if_false, Bool.or_self]
  rw [← putOp_enrolled (o := o)]
  rfl

theorem fetchedOp_abort (hop : o.opcode = 1) (hflags : leAt d 2 1 < 4) (hzero : zeroAt d 3 5 = true) (hbody : zeroAt o.body 8 48 = true) :
    fetchedOp s q o d data false =
      abortOp (enrolled s (decidedAtFetch s o)) q s.rings.nextOp (BitVec.ofNat 64 (leAt o.body 0 8)) := by
  have hnop : ¬ o.opcode = 0 := by omega
  simp only [fetchedOp, eq_true hop, hflags, hzero, hbody, hnop, decide_true, Bool.and_self, Bool.not_true, Bool.false_eq_true, or_true, if_true,
    if_false, Bool.or_self]
  rw [← putOp_enrolled (o := o)]
  rfl

/-! ### ABORT of an op_id that the ring does not have (08 R241) -/

theorem Tab.eq_or_mem_of_mem_put {α : Type} {l : Tab α} {n : Nat} {v : α} {e : Nat × α} (h : e ∈ Tab.put l n v) : e = (n, v) ∨ e ∈ l := by
  induction l with
  | nil => exact .inl (List.mem_singleton.1 h)
  | cons x l ih =>
    obtain ⟨k, w⟩ := x
    rw [Tab.put] at h
    split_ifs at h
    · exact List.mem_cons.1 h
    · rcases List.mem_cons.1 h with h | h
      · exact .inl h
      · exact .inr (List.mem_cons_of_mem _ h)
    · rcases List.mem_cons.1 h with h | h
      · exact .inr (List.mem_cons.2 (.inl h))
      · exact (ih h).imp_right (List.mem_cons_of_mem _)

theorem opsWhere_eq_nil {p : Op → Bool} (h : ∀ e ∈ s.rings.ops, p e.2 = false) : opsWhere s p = [] := by
  rw [opsWhere, List.filter_eq_nil_iff.2 (fun e he => by rw [h e he]; exact Bool.false_ne_true), List.map_nil]

theorem abortOp_absent {target : Dword} (hself : o.opId ≠ target) (hring : ∀ e ∈ s.rings.ops, e.2.src = .ring q → e.2.opId ≠ target) :
    abortOp (enrolled s o) q s.rings.nextOp target =
      finishOp (enrolled s o) s.rings.nextOp stTooLate (if (qpOf s q).ended.contains target then 1 else 2) 0 := by
  have hnone : opsWhere (enrolled s o) (fun o => decide (o.src = .ring q) && o.opId == target) = [] := by
    refine opsWhere_eq_nil fun e he => ?_
    rw [Bool.and_eq_false_iff, decide_eq_false_iff_not, beq_eq_false_iff_ne]
    rcases Tab.eq_or_mem_of_mem_put he with rfl | he
    · exact .inr hself
    · exact not_or_of_imp (hring e he)
  simp only [abortOp, hnone, List.head?_nil]
  rfl

/-! ### An operation that waits for admission (08 R225, R230, R232) -/

theorem partnerRef_unlimited (h : getF s Fld.admPrecCount 0 = 0) (i : Nat) : partnerRef s i = .unlimited := if_pos h

theorem holdsTokens_unlimited (h : getF s Fld.admPrecCount 0 = 0) (o : Op) : holdsTokens s o = some true := by
  rw [holdsTokens, partnerRef_unlimited h]

theorem classOfOp_unlimited (h : getF s Fld.admPrecCount 0 = 0) (o : Op) : classOfOp s o = 1 := by
  rw [classOfOp, partnerRef_unlimited h]

/-- Without partner records an operation with a cost is left to wait. -/
theorem judge_waits {start : State → Nat → State} {n : Nat} (ho : opOf s n = some o) (hrec : getF s Fld.admPrecCount 0 = 0)
    (hcost : 1 ≤ o.cost) : judge start s n = s := by
  have hcost : o.cost ≠ 0 := by omega
  simp only [judge, ho, partnerRef_unlimited hrec, holdsTokens_unlimited hrec, classOfOp_unlimited hrec, hcost, false_and, if_false]
  split <;> rfl

/-- A new operation of a queue pair with a cost, without partner records. -/
theorem arriveOp_waits (hsrc : o.src = .ring q) (hrec : getF s Fld.admPrecCount 0 = 0) (hctx : ctxReady s o = true) (hcost : 1 ≤ o.cost) :
    arriveOp startOf s o = qpSettle (enrolled s o) q := by
  have hrec' : getF (enrolled s o) Fld.admPrecCount 0 = 0 := hrec
  have hctx' : ctxReady (enrolled s o) o = true := hctx
  have hmiss : missCount (enrolled s o) o.partner = enrolled s o := by rw [missCount, partnerRef_unlimited hrec']
  have harrive : arriveOp startOf s o =
      judge startOf (srcSettle (missCount (if ctxReady (enrolled s o) o then enrolled s o else bump (enrolled s o) Fld.xptCtxMissCnt 0) o.partner) o)
        s.rings.nextOp := rfl
  rw [harrive, if_pos hctx', hmiss, srcSettle, hsrc]
  refine judge_waits ?_ ?_ hcost
  · rw [opOf_qpSettle, enrolled, opOf_putOp_same]
  · rw [getF_qpSettle _ _ (by decide) (by decide), hrec']

end

/-! ### The rows -/

section
variable {s s' : State} {q b t flags opcode : Nat} {opId : Dword} {i : Instr} {fs : List (Nat × Nat × Nat)} {data : List Byte}

/-- What the fetch of a listed row's descriptor does: the operation that it becomes ends with the status of its engine's check, or enters
admission; with a cost and without partner records it waits there. -/
def FetchesRow (s s' : State) (q b t flags : Nat) (opId : Dword) (i : Instr) (opcode : Nat) (fs : List (Nat × Nat × Nat))
    (data : List Byte) : Prop :=
  ∃ body : List Byte, body.length = 48 ∧ (∀ f, f ∈ fs → leAt body f.1 f.2.1 = f.2.2) ∧
    (∀ k, k < 48 → (∀ f, f ∈ fs → k < f.1 ∨ f.1 + f.2.1 ≤ k) → body[k]? = some 0) ∧
    let o := rowOp q b t flags opId opcode body
    (∀ st ext res, (engineOf opcode).check s' o data = .bad st ext res →
      exec i s = .next (finishOp (enrolled s' o) s'.rings.nextOp st res ext)) ∧
    (∀ pool cost partner bs aux, (engineOf opcode).check s' o data = .go pool cost partner bs aux →
      let w := { o with pool := pool, cost := cost, partner := partner, data := bs, aux := aux }
      exec i s = .next (arriveOp startOf s' w) ∧
      (1 ≤ cost → getF s' Fld.admPrecCount 0 = 0 → ctxReady s' w = true → exec i s = .next (qpSettle (enrolled s' w) q)))

theorem fetchesRow (htake : fetchTake s q = some (t, b, false, s')) (hflags : flags < 4) (hexec : exec i s = ringRow s q opcode opId flags fs data)
    (hop : opcode ∈ listedOps) (hlaid : Laid 0 fs) : FetchesRow s s' q b t flags opId i opcode fs data := by
  have hflags' : leAt (descBytes opcode opId flags fs) 2 1 < 4 := by rwa [leAt_descBytes_flags (by omega)]
  have hfetched : exec i s = .next (fetchedOp s' q (rowOp q b t flags opId opcode (rowBody fs)) (descBytes opcode opId flags fs) data false) := by
    rw [hexec, ringRow, fetchDesc_taken htake, descOp_descBytes q b t (listed_bounds hop).2 (by omega) (rowBody_length hlaid)]
  refine ⟨rowBody fs, rowBody_length hlaid, fun f hf => leAt_rowBody hlaid hf, fun k hk hout => rowBody_getElem?_outside hlaid hk hout,
    fun st ext res hbad => ?_, fun pool cost partner bs aux hgo => ?_⟩
  · rw [hfetched, fetchedOp_bad hop hflags' zeroAt_descBytes hbad]
  · have harrives := hfetched.trans (congrArg _ (fetchedOp_go hop hflags' zeroAt_descBytes hgo))
    exact ⟨harrives, fun hcost hrec hctx => harrives.trans (congrArg _ (arriveOp_waits rfl hrec hctx hcost))⟩

/-- NOP. -/
theorem exec_nop_fetched (htake : fetchTake s q = some (t, b, false, s')) (hflags : flags < 4) :
    exec (.nop q opId flags) s =
      .next (finishOp (enrolled s' (decidedAtFetch s' (rowOp q b t flags opId 0 (rowBody [])))) s'.rings.nextOp 0 0 0) := by
  have hlaid : Laid 0 [] := Nat.zero_le 48
  have hflags' : leAt (descBytes 0 opId flags []) 2 1 < 4 := by rwa [leAt_descBytes_flags (by omega)]
  have hzero : zeroAt (rowBody []) 0 48 = true :=
    zeroAt_of_getElem? fun k _ hk _ => rowBody_getElem?_outside hlaid (by omega) (fun f hf => absurd hf List.not_mem_nil)
  show ringRow s q 0 opId flags [] [] = _
  rw [ringRow, fetchDesc_taken htake, descOp_descBytes q b t (by decide) (by omega) (rowBody_length hlaid),
    fetchedOp_nop rfl hflags' zeroAt_descBytes hzero]

/-- ABORT of an op_id that the ring does not have. -/
theorem exec_abort_absent {target : Dword} (htake : fetchTake s q = some (t, b, false, s')) (hflags : flags < 4) (hself : target ≠ opId)
    (hring : ∀ e ∈ s'.rings.ops, e.2.src = .ring q → e.2.opId ≠ target) :
    exec (.abort q opId flags target) s =
      .next (finishOp (enrolled s' (decidedAtFetch s' (rowOp q b t flags opId 1 (rowBody [(0, 8, target.toNat)])))) s'.rings.nextOp stTooLate
        (if (qpOf s' q).ended.contains target then 1 else 2) 0) := by
  have hlaid : Laid 0 [(0, 8, target.toNat)] := by simp only [Laid]; omega
  have hflags' : leAt (descBytes 1 opId flags [(0, 8, target.toNat)]) 2 1 < 4 := by rwa [leAt_descBytes_flags (by omega)]
  have htarget : leAt (rowBody [(0, 8, target.toNat)]) 0 8 = target.toNat := leAt_rowBody (f := (0, 8, target.toNat)) hlaid List.mem_cons_self
  have hzero : zeroAt (rowBody [(0, 8, target.toNat)]) 8 48 = true := by
    refine zeroAt_of_getElem? fun k hk _ hlen => rowBody_getElem?_outside hlaid (rowBody_length hlaid ▸ hlen) fun f hf => .inr ?_
    rw [List.mem_singleton.1 hf]
    exact hk
  show ringRow s q 1 opId flags [(0, 8, target.toNat)] [] = _
  rw [ringRow, fetchDesc_taken htake, descOp_descBytes q b t (by decide) (by omega) (rowBody_length hlaid),
    fetchedOp_abort rfl hflags' zeroAt_descBytes hzero]
  have htarget' : leAt (rowOp q b t flags opId 1 (rowBody [(0, 8, target.toNat)])).body 0 8 = target.toNat := htarget
  rw [htarget', BitVec.ofNat_toNat, BitVec.setWidth_eq, abortOp_absent hself.symm hring]

/-- DESCRIPTOR_FETCH of the entry at the head of the SQ. -/
theorem exec_descriptorFetch_taken (htake : fetchTake s q = some (t, b, false, s')) (host : List Byte) :
    exec (.descriptorFetch q host data) s =
      .next (fetchedOp s' q (descOp q b t (sqEntry s q host)) (sqEntry s q host) data false) := congrArg _ (fetchDesc_taken htake)

end

/-! ### The statement -/

/-- Settles O36: a listed row by the law of rows, where its fields lie in rising order within the body; NOP, ABORT and the entry that the SQ
holds by the laws above. -/
theorem operationsFetched : Obligations.OperationsFetched := by
  unfold Obligations.OperationsFetched
  intro s s' q b t flags opId host htake hflags
  have hrow {i : Instr} {opcode : Nat} {fs : List (Nat × Nat × Nat)} {data : List Byte}
      (hexec : exec i s = ringRow s q opcode opId flags fs data) (hop : opcode ∈ listedOps := by decide)
      (hlaid : Laid 0 fs := by simp only [Laid]; omega) : FetchesRow s s' q b t flags opId i opcode fs data :=
    fetchesRow htake hflags hexec hop hlaid
  refine ⟨fun _ _ _ => hrow rfl, fun _ _ _ _ _ _ => hrow rfl, fun _ _ _ _ => hrow rfl,
    fun _ _ _ _ _ _ _ _ _ _ _ _ _ => ⟨hrow rfl, hrow rfl, hrow rfl, hrow rfl, hrow rfl, hrow rfl, hrow rfl, hrow rfl, hrow rfl, hrow rfl,
      hrow rfl, hrow rfl, hrow rfl, hrow rfl⟩,
    fun _ _ _ _ _ _ => ⟨hrow rfl, hrow rfl, hrow rfl, hrow rfl⟩, fun _ _ _ _ _ => ⟨hrow rfl, hrow rfl, hrow rfl⟩,
    fun _ _ _ _ _ _ _ _ _ => ⟨hrow rfl, hrow rfl, hrow rfl, hrow rfl⟩, fun _ _ _ _ _ _ => ⟨hrow rfl, hrow rfl, hrow rfl, hrow rfl⟩,
    fun _ _ _ _ _ _ _ => ⟨hrow rfl, hrow rfl, hrow rfl⟩,
    ⟨_, rfl, rfl, rfl, rfl, rfl, exec_nop_fetched htake hflags⟩,
    fun target hself hring => ⟨_, rfl, rfl, rfl, rfl, exec_abort_absent htake hflags hself hring⟩, fun hunlisted hmin => ?_,
    fun hop hlow hhead hrest => ?_⟩
  · rw [exec_descriptorFetch_taken htake, fetchedOp_unlisted hunlisted hmin]
    rfl
  · have hzero : zeroAt (sqEntry s q host) 3 5 = true := zeroAt_of_getElem? fun k hlo hhi _ => hhead k hlo hhi
    have hbody : zeroAt (descOp q b t (sqEntry s q host)).body 0 48 = true := by
      refine zeroAt_of_getElem? fun k _ hk _ => ?_
      rw [descOp, List.getElem?_take_of_lt (by omega), List.getElem?_drop]
      exact hrest (16 + k) (by omega) (by omega)
    rw [exec_descriptorFetch_taken htake, fetchedOp_nop hop hlow hzero hbody]
    rfl

end Sys2Proof.Machine
end

section
/-! PROOFS. Admission, its wait limits, shedding and partner records (08 R229 to R237, Table 8.12): when an operation is served, refused or
left to wait, what a record holds once it is loaded again, and the statement assembled from them. -/

namespace Sys2Proof.Machine

/-! ### ADMISSION (08 R232, R233, R237) -/

section
variable {s : State} {n q : Nat} {o : Op}

theorem exec_admission_considered (ho : opOf s n = some o) (hc : considered s n o = true) :
    exec (.admission n) s = .next (if adReady s n o && !(classOfOp s o == 2 && shedsNow s o.pool) then
      (if servedBefore s n (servedAs s o) o.pool then s else serve s n o) else judge startOf s n) := by
  show execAdmission n s = _
  simp only [execAdmission, ho, hc, Bool.not_true, Bool.false_eq_true, if_false]

theorem exec_admission_other (ho : opOf s n = some o) (hc : considered s n o = false) : exec (.admission n) s = .next s := by
  show execAdmission n s = _
  simp only [execAdmission, ho, hc, Bool.not_false, if_true]

/-- Class E is served as E. -/
theorem servedAs_e (h : classOfOp s o = 1) : servedAs s o = 1 := by
  simp [servedAs, h]

/-- ADMISSION of a ready operation of class E: it is admitted, unless another goes first (log 132). -/
theorem exec_admission_e (ho : opOf s n = some o) (hc : considered s n o = true) (ht : holdsTokens s o = some true) (hb : behind s n o = false)
    (hcls : classOfOp s o = 1) :
    exec (.admission n) s = .next (if servedBefore s n 1 o.pool then s else admitOp startOf s n 1) := by
  have hready : adReady s n o = true := by simp [adReady, hc, ht, hb]
  rw [exec_admission_considered ho hc]
  simp [hready, hcls, servedAs_e hcls, serve]

/-- An operation whose record is invalid is refused for budget at once. -/
theorem exec_admission_bad (ho : opOf s n = some o) (hc : considered s n o = true) (hbad : partnerRef s o.partner = .bad) :
    exec (.admission n) s = .next (endEarly (bump s Fld.admRefBudgetCnt o.pool) n stRefBudget) := by
  have ht : holdsTokens s o = none := by rw [holdsTokens, hbad]
  have hready : adReady s n o = false := by simp [adReady, ht]
  rw [exec_admission_considered ho hc]
  simp only [hready, Bool.false_and, Bool.false_eq_true, if_false, judge, ho, hc, hbad, Bool.not_true, refuse, stRefBudget, if_true]

/-- An admitted operation (08 R232, R237). -/
def admitted (s : State) (n : Nat) (o : Op) (cls : Nat) : State :=
  bump (putOp s n { o with st := .admitted, judged := cls, queued := s.ftime - o.arrival }) Fld.admServedCnt o.pool

/-- A COPY of a queue pair, admitted without partner records: its work begins elsewhere. -/
theorem admitOp_copy (ho : opOf s n = some o) (hrec : getF s Fld.admPrecCount 0 = 0) (hop : o.opcode = 0x0100) (hsrc : o.src = .ring q) (cls : Nat) :
    admitOp startOf s n cls = qpSettle (admitted s n o cls) q := by
  have hcharge : charge s o = s := by rw [charge, partnerRef_unlimited hrec]
  have hop' : opOf (qpSettle (admitted s n o cls) q) n = some { o with st := .admitted, judged := cls, queued := s.ftime - o.arrival } := by
    rw [opOf_qpSettle, admitted, opOf_bump, opOf_putOp_same]
  have hstart : startOf (qpSettle (admitted s n o cls) q) n = qpSettle (admitted s n o cls) q := by
    simp only [startOf, hop', hsrc, hop]
    rfl
  have hserved : admitOp startOf s n cls = startOf (srcSettle (admitted s n o cls) o) n := by
    simp only [admitOp, ho, hcharge]
    rfl
  rw [hserved, srcSettle, hsrc, hstart]

theorem admission_admits_copy (ho : opOf s n = some o) (hc : considered s n o = true) (ht : holdsTokens s o = some true)
    (hb : behind s n o = false) (hcls : classOfOp s o = 1) (hturn : servedBefore s n 1 o.pool = false) (hop : o.opcode = 0x0100)
    (hsrc : o.src = .ring q) (hrec : getF s Fld.admPrecCount 0 = 0) :
    ∃ w, exec (.admission n) s = .next (qpSettle w q) ∧ opOf w n = some { o with st := .admitted, judged := 1, queued := s.ftime - o.arrival } ∧
      getF w Fld.admServedCnt o.pool = (getF s Fld.admServedCnt o.pool + 1) % 2 ^ 64 ∧ w.mem = s.mem ∧ w.ftime = s.ftime := by
  refine ⟨admitted s n o 1, ?_, by rw [admitted, opOf_bump, opOf_putOp_same], ?_, rfl, rfl⟩
  · rw [exec_admission_e ho hc ht hb hcls, hturn, admitOp_copy ho hrec hop hsrc]
    rfl
  · exact getF_bump_same _ _ _ ⟨by decide, by decide⟩

end

/-! ### ADMISSION_WAIT_EXPIRY (08 R235, R236, Table 8.12) -/

section
variable {s : State} {n : Nat} {o : Op}

theorem exec_admissionWaitExpiry_other (ho : opOf s n = some o) (hc : considered s n o = false) : exec (.admissionWaitExpiry n) s = .next s := by
  show execAdmissionWaitExpiry n s = _
  simp only [execAdmissionWaitExpiry, ho, hc, Bool.not_false, if_true]

/-- A wait of class E for capacity ends at its limit. -/
theorem exec_admissionWaitExpiry_capacity (ho : opOf s n = some o) (hc : considered s n o = true) (hrec : getF s Fld.admPrecCount 0 = 0)
    (hcap : poolCapped s o.pool = false) :
    exec (.admissionWaitExpiry n) s = .next (endEarly (bump (reach s (capEnd s o)) Fld.admRefCapCnt o.pool) n stRefCapacity) := by
  have hcls : classOfOp (reach s (capEnd s o)) o = 1 := classOfOp_unlimited hrec o
  have ho' : opOf (reach s (capEnd s o)) n = some o := ho
  show execAdmissionWaitExpiry n s = _
  simp [execAdmissionWaitExpiry, ho, hc, holdsTokens_unlimited hrec, hcap, capRefuse, hcls, refuseCap, refuse, ho', stRefCapacity]

/-- While the pool is capped the wait goes on. -/
theorem exec_admissionWaitExpiry_capped (ho : opOf s n = some o) (hc : considered s n o = true) (hrec : getF s Fld.admPrecCount 0 = 0)
    (hcap : poolCapped s o.pool = true) : exec (.admissionWaitExpiry n) s = .next s := by
  show execAdmissionWaitExpiry n s = _
  simp [execAdmissionWaitExpiry, ho, hc, holdsTokens_unlimited hrec, hcap]

/-- A wait of class G or E for tokens ends at its limit, where the bucket still lacks them. -/
theorem exec_admissionWaitExpiry_budget {p : Partner} (ho : opOf s n = some o) (hc : considered s n o = true)
    (hp : partnerRef s o.partner = .found p) (hcls : p.cls ≤ 1) (hlate : holdsTokens (reach s (budgetEnd s o)) o = some false)
    (hnow : holdsTokens s o = some false) :
    exec (.admissionWaitExpiry n) s = .next (endEarly (bump (reach s (budgetEnd s o)) Fld.admRefBudgetCnt o.pool) n stRefBudget) := by
  have hcls' : classOfOp s o ≠ 2 := by
    have hp' : classOfOp s o = p.cls := by rw [classOfOp, hp]
    omega
  have ho' : opOf (reach s (budgetEnd s o)) n = some o := ho
  show execAdmissionWaitExpiry n s = _
  simp [execAdmissionWaitExpiry, ho, hc, hnow, hp, hcls', hlate, refuse, ho', stRefBudget]

theorem capEnd_e (hcls : classOfOp s o = 1) :
    capEnd s o = Nat.max o.arrival (poolOf s o.pool).capLifted + getF s Fld.admPoolWaitEWaitMs o.pool * 1000000 := by
  simp [capEnd, hcls]

end

/-! ### Shedding (08 R234) -/

section
variable {s : State} {pool : Nat}

/-- A pool that begins to shed, past the target of its E operation that has waited since `q`; its expiry moves fabric time (log 125). -/
def shedding (s : State) (pool q : Nat) : State :=
  setF (reach s (q + getF s Fld.admPoolTgtETgtUs pool * 1000 + 1)) Fld.admPoolStatShedding pool 1

/-- SHEDDING_START with one E operation waiting, for tokens or for capacity (log 103). -/
theorem exec_sheddingStart_due {q : Nat} (hpool : pool < 7) (hcap : poolCapped s pool = false) (hoff : getF s Fld.admPoolStatShedding pool = 0)
    (hwait : eWaits s pool = [q]) : exec (.sheddingStart pool) s = .next (shedAll (shedding s pool q) pool) := by
  have hpool : ¬ 7 ≤ pool := by omega
  show execSheddingStart pool s = _
  simp only [execSheddingStart, hwait, hpool, hcap, flagF_eq_false hoff, Bool.false_eq_true, or_self, if_false]
  rfl

theorem exec_sheddingStart_none (h : eWaits s pool = []) : exec (.sheddingStart pool) s = .next s := by
  show execSheddingStart pool s = _
  simp only [execSheddingStart, h]

theorem exec_sheddingEnd_none (h : eWaits s pool = []) (hpool : pool < 7) :
    exec (.sheddingEnd pool) s = .next (setF s Fld.admPoolStatShedding pool 0) := by
  show execSheddingEnd pool s = _
  simp [execSheddingEnd, h, hpool]

end

/-! ### Partner records (08 R229, R230) -/

section
variable {s : State} {n i : Nat} {o : Op} {req : Requester} {v : Word}

/-- The one operation of another partner is not judged anew: only a record's own waiting operations are (log 131). -/
theorem judgePartner_other (hops : s.rings.ops = [(n, o)]) (hother : o.partner ≠ i) : judgePartner s false i = s := by
  have hnone : opsWhere s (fun o => decide (o.st = .waiting) && (false || o.partner == i)) = [] := by
    refine opsWhere_eq_nil fun e he => ?_
    rw [hops] at he
    simp [List.mem_singleton.1 he, hother]
  rw [judgePartner, hnone, List.foldl_nil]

/-- A record as it is loaded again: memory's, with the device's own tokens. -/
def reloaded (s : State) (i : Nat) (p : Partner) : Partner :=
  { readPartner s i with buckets := List.zipWith keepTokens (p.accrue s.ftime).buckets (readPartner s i).buckets }

/-- A partner's record cached. -/
def cachePartner (s : State) (i : Nat) (x : Partner) : State :=
  { s with rings := { s.rings with partners := Tab.put s.rings.partners i x } }

theorem lookup_cachePartner (s : State) (i : Nat) (x : Partner) (j : Nat) :
    Tab.lookup (cachePartner s i x).rings.partners j = if j = i then some x else Tab.lookup s.rings.partners j := Tab.lookup_put _ _ _ _

theorem partnerReload_cached {p : Partner} (h : Tab.lookup s.rings.partners i = some p) : partnerReload s i = cachePartner s i (reloaded s i p) := by
  simp only [partnerReload, h]
  rfl

theorem exec_partnerSync_one {p : Partner} (hmode : mode s = 1) (hpf : Requester.isPf req = true) (hgo : v.getLsbD 31 = true)
    (hone : v.getLsbD 30 = false) (hi : i = v.toNat % 2 ^ 20) (hp : Tab.lookup s.rings.partners i = some p) (hops : s.rings.ops = [(n, o)])
    (hother : o.partner ≠ i) : exec (.partnerSync req v) s = .next (cachePartner s i (reloaded s i p)) := by
  have hsync : partnerSync s v = judgePartner (partnerReload s i) false i := by
    simp only [partnerSync, hgo, hone, ← hi, Bool.not_true, Bool.false_eq_true, if_false, List.foldl_cons, List.foldl_nil]
  calc exec (.partnerSync req v) s = .next (if Requester.isPf req then partnerSync s v else admDenied s) := congrArg _ (gated_normal hmode req _)
    _ = .next (cachePartner s i (reloaded s i p)) := by
      rw [if_pos hpf, hsync, partnerReload_cached hp, judgePartner_other (s := cachePartner s i (reloaded s i p)) hops hother]

theorem exec_partnerSync_idle (hmode : mode s = 1) (hpf : Requester.isPf req = true) (hgo : v.getLsbD 31 = false) :
    exec (.partnerSync req v) s = .next s := by
  have hsync : partnerSync s v = s := by simp only [partnerSync, hgo, Bool.not_false, if_true]
  show execPartnerSync req v s = _
  rw [execPartnerSync, gated_normal hmode, if_pos hpf, hsync]

theorem exec_partnerSync_denied (hmode : mode s = 1) (hpf : Requester.isPf req = false) :
    exec (.partnerSync req v) s = .next (bump s Fld.admDeniedCnt 0) := by
  show execPartnerSync req v s = _
  rw [execPartnerSync, gated_normal hmode, if_neg (by rw [hpf]; exact Bool.false_ne_true), admDenied]

theorem exec_partnerRecordFill_miss {q : Nat} (hmiss : partnerRef s i = .miss) (hroom : s.rings.partners.length < 4096)
    (hops : s.rings.ops = [(n, o)]) (hother : o.partner ≠ i) :
    exec (.partnerRecordFill i q) s = .next (cachePartner s i (readPartner s i)) := by
  have hroom : ¬ 4096 ≤ s.rings.partners.length := by omega
  show execPartnerRecordFill i q s = _
  simp only [execPartnerRecordFill, hmiss, hroom, ne_eq, not_true_eq_false, if_false]
  exact congrArg _ (judgePartner_other (s := cachePartner s i (readPartner s i)) hops hother)

theorem exec_partnerRecordFill_cached {q : Nat} (h : partnerRef s i ≠ .miss) : exec (.partnerRecordFill i q) s = .next s :=
  congrArg _ (if_pos h)

end

/-! ### The statement -/

/-- Settles O37: each clause is the law above of the command that it speaks of. -/
theorem admissionSteps : Obligations.AdmissionSteps := by
  unfold Obligations.AdmissionSteps
  intro s req n q i pool o p v ho
  refine ⟨admission_admits_copy ho, fun hc ht hb hcls hturn => ?_, fun hc ht hb hcls hturn => ?_, exec_admission_bad ho,
    fun hc => ⟨exec_admission_other ho hc, exec_admissionWaitExpiry_other ho hc⟩, fun hc hrec hcap => ?_,
    exec_admissionWaitExpiry_capped ho, exec_admissionWaitExpiry_budget ho, fun hpool hcap hoff hwait => ?_,
    fun hnone => ⟨exec_sheddingStart_none hnone, exec_sheddingEnd_none hnone⟩, fun hmode hpf hgo hone hi hp hops hother => ?_,
    exec_partnerSync_idle, exec_partnerSync_denied, fun hmiss hroom hops hother => ?_, exec_partnerRecordFill_cached⟩
  · rw [exec_admission_e ho hc ht hb hcls, hturn]
    rfl
  · rw [exec_admission_e ho hc ht hb hcls, hturn]
    rfl
  · refine ⟨_, exec_admissionWaitExpiry_capacity ho hc hrec hcap, ?_, rfl, rfl⟩
    rw [capEnd_e (classOfOp_unlimited hrec o), reach]
  · exact ⟨_, exec_sheddingStart_due hpool hcap hoff hwait, getF_setF_within _ _ _ (by decide) (by decide), rfl, rfl⟩
  · refine ⟨_, reloaded s i p, exec_partnerSync_one hmode hpf hgo hone hi hp hops hother, ?_, rfl, rfl, rfl, rfl, rfl, rfl⟩
    rw [lookup_cachePartner, if_pos rfl]
  · refine ⟨_, exec_partnerRecordFill_miss hmiss hroom hops hother, ?_, fun j hj => ?_, rfl, rfl⟩
    · rw [lookup_cachePartner, if_pos rfl]
    · rw [lookup_cachePartner, if_neg hj]

end Sys2Proof.Machine
end

section
/-! PROOFS. COPY and the Gutter's operations (08 R226, R240, R242; 15 R445 to R447): an engine's write into device memory, how a COPY and a
flush end, what GSNAP and GCONN write, and the statement assembled from them. -/

namespace Sys2Proof.Machine

/-! ### Ranges in HBM -/

section
variable {a : Nat} (h : classOf a = some .hbm)
include h

theorem inHost_hbm : inHost a = false := by rw [inHost, h]; rfl

theorem rangeReach_hbm (s : State) (o : Op) (n : Nat) (k : AccKind) : rangeReach s o a n k = none := by rw [rangeReach, h]; rfl

theorem holdRange_hbm (s : State) (fn n : Nat) : holdRange s fn a n = s := by rw [holdRange, h]; rfl

/-- An engine's write to a range in HBM stores its bytes and meets no status. -/
theorem engWrite_hbm (s : State) (o : Op) (bs : List Byte) : engWrite s o a bs = .ok (writeBytes s a bs) := by
  rw [engWrite, rangeReach_hbm h, holdRange_hbm h]

theorem sourceBytes_hbm (s : State) (n : Nat) (host : List Byte) : sourceBytes s a n host = readBytes s a n := by
  rw [sourceBytes, inHost_hbm h]; rfl

end

section
variable (s : State) (a : Nat) (bs : List Byte)

theorem writeBytes_regs : (writeBytes s a bs).regs = s.regs := by
  obtain ⟨m, h⟩ := writeBytes_only_mem s a bs
  rw [h]

theorem writeBytes_gut : (writeBytes s a bs).gut = s.gut := by
  obtain ⟨m, h⟩ := writeBytes_only_mem s a bs
  rw [h]

theorem writeBytes_xpt : (writeBytes s a bs).xpt = s.xpt := by
  obtain ⟨m, h⟩ := writeBytes_only_mem s a bs
  rw [h]

@[simp] theorem readBytes_length (n : Nat) : (readBytes s a n).length = n := by
  rw [readBytes, List.length_map, List.length_range]

theorem getElem_readBytes {n i : Nat} (h : i < (readBytes s a n).length) : (readBytes s a n)[i] = readByte s (a + i) := by
  simp only [readBytes, List.getElem_map, List.getElem_range]

end

/-! ### The end of a COPY (08 R226, R240; 07 R204) -/

section
variable {s : State} {n opcode : Nat} {o : Op}

theorem running_admitted (ho : opOf s n = some o) (hop : o.opcode = opcode) (hst : o.st = .admitted) : running s n opcode = some o := by
  simp only [running, ho, hop, hst, and_self, if_true]

theorem running_other (ho : opOf s n = some o) (hst : o.st ≠ .admitted) : running s n opcode = none := by
  simp only [running, ho, hst, and_false, if_false]

theorem exec_copyDone_done (ho : opOf s n = some o) (hop : o.opcode = 0x0100) (hst : o.st = .admitted) (hsrc : classOf (copySrc o) = some .hbm)
    (hdst : classOf (copyDst o) = some .hbm) (host : List Byte) :
    exec (.copyDone n host 0) s = .next (finishOp (putOp (writeBytes s (copyDst o) (readBytes s (copySrc o) (copyLen o))) n
      { o with st := .committed }) n 0 (copyLen o) 0) := by
  show execCopyDone n host 0 s = _
  simp only [execCopyDone, running_admitted ho hop hst, rangeReach_hbm hsrc, holdRange_hbm hsrc, engWrite_hbm hdst, sourceBytes_hbm hsrc]
  rfl

/-- A COPY that fails at a range in a host window (1 to 3), or for an uncorrectable error (4). -/
theorem exec_copyDone_failed (ho : opOf s n = some o) (hop : o.opcode = 0x0100) (hst : o.st = .admitted) {failed : Nat} (hfail : failed ≠ 0)
    (hrange : ¬ (1 ≤ failed ∧ failed ≤ 3 ∧ inHost (copySrc o) = false ∧ inHost (copyDst o) = false)) (host : List Byte) :
    exec (.copyDone n host failed) s = .next (dataError s n failed) := by
  show execCopyDone n host failed s = _
  simp only [execCopyDone, running_admitted ho hop hst, if_neg hrange, if_pos hfail]

theorem exec_copyDone_other (ho : opOf s n = some o) (hst : o.st ≠ .admitted) (host : List Byte) (failed : Nat) :
    exec (.copyDone n host failed) s = .next s := by
  show execCopyDone n host failed s = _
  simp only [execCopyDone, running_other ho hst]

/-- The destination holds what the source held, also where the two overlap. -/
theorem readByte_copied_inside (s : State) (a b : Nat) {len i : Nat} (h : i < len) :
    readByte (writeBytes s b (readBytes s a len)) (b + i) = readByte s (a + i) := by
  rw [readByte_writeBytes_inside _ _ _ _ (by rwa [readBytes_length]), getElem_readBytes]

theorem readByte_copied_outside (s : State) (a b : Nat) {len x : Nat} (h : x < b ∨ b + len ≤ x) :
    readByte (writeBytes s b (readBytes s a len)) x = readByte s x :=
  readByte_writeBytes_outside _ _ _ _ (by rwa [readBytes_length])

end

/-! ### The end of a flush (15 R447) -/

section
variable {s : State} {n c t dl : Nat} {o : Op}

/-- A flush that is over, 2 µs past its time: fabric time moves there (log 125). -/
def flushed (s : State) (n t : Nat) : State :=
  { reach s (t + 2000) with gut := { s.gut with flushes := Tab.del s.gut.flushes n } }

theorem exec_gflushDone_flushing (ho : opOf s n = some o) (hop : o.opcode = 0x0802) (hst : o.st = .admitted)
    (hf : Tab.lookup s.gut.flushes n = some (c, t, dl)) :
    exec (.gflushDone n) s = .next (if dl < t + 2000 ∨ (chanOf s c).pkts.any (fun p => decide (p.1 ≤ t)) = true then s
      else finishOp (flushed s n t) n 0 (getF s Fld.gutChDtail c) 0) := by
  show execGflushDone n s = _
  simp only [execGflushDone, running_admitted ho hop hst, hf]
  rfl

theorem exec_gflushTimeout_flushing (ho : opOf s n = some o) (hop : o.opcode = 0x0802) (hst : o.st = .admitted)
    (hf : Tab.lookup s.gut.flushes n = some (c, t, dl)) : exec (.gflushTimeout n) s = .next (finishOp (reach s dl) n 0xB2 0 0) := by
  show execGflushTimeout n s = _
  simp only [execGflushTimeout, running_admitted ho hop hst, hf]

theorem exec_gflushDone_none (hf : Tab.lookup s.gut.flushes n = none) : exec (.gflushDone n) s = .next s := by
  show execGflushDone n s = _
  simp only [execGflushDone, hf]
  cases running s n 0x0802 <;> rfl

theorem exec_gflushTimeout_none (hf : Tab.lookup s.gut.flushes n = none) : exec (.gflushTimeout n) s = .next s := by
  show execGflushTimeout n s = _
  simp only [execGflushTimeout, hf]
  cases running s n 0x0802 <;> rfl

theorem gflushDone_flushes (ho : opOf s n = some o) (hop : o.opcode = 0x0802) (hst : o.st = .admitted)
    (hf : Tab.lookup s.gut.flushes n = some (c, t, dl)) (hdl : t + 2000 ≤ dl) (hdrained : ∀ p, p ∈ (chanOf s c).pkts → t < p.1) :
    ∃ u, exec (.gflushDone n) s = .next (finishOp u n 0 (getF s Fld.gutChDtail c) 0) ∧ u.ftime = Nat.max s.ftime (t + 2000) ∧
      Tab.lookup u.gut.flushes n = none ∧ u.regs = s.regs ∧ u.mem = s.mem ∧ u.rings = s.rings := by
  have hnone : (chanOf s c).pkts.any (fun p => decide (p.1 ≤ t)) = false := by
    rw [List.any_eq_false]
    intro p hp
    have := hdrained p hp
    rw [decide_eq_true_eq]
    omega
  refine ⟨flushed s n t, ?_, rfl, ?_, rfl, rfl, rfl⟩
  · rw [exec_gflushDone_flushing ho hop hst hf, if_neg (by simp only [hnone, Bool.false_eq_true, or_false]; omega)]
  · rw [flushed, Tab.lookup_del, if_pos rfl]

theorem gflushDone_waits (ho : opOf s n = some o) (hop : o.opcode = 0x0802) (hst : o.st = .admitted)
    (hf : Tab.lookup s.gut.flushes n = some (c, t, dl)) (hheld : ∃ p, p ∈ (chanOf s c).pkts ∧ p.1 ≤ t) :
    exec (.gflushDone n) s = .next s := by
  obtain ⟨p, hp, hle⟩ := hheld
  rw [exec_gflushDone_flushing ho hop hst hf, if_pos (.inr (List.any_eq_true.2 ⟨p, hp, decide_eq_true hle⟩))]

/-- GFLUSH, admitted. -/
theorem gutStart_gflush (ho : opOf s n = some o) (hop : o.opcode = 0x0802) : gutStart s n = gflushStart s n o := by
  simp only [gutStart, ho, hop]

theorem gflushStart_stopped (h : getF s Fld.gutChStatState (leAt o.body 0 1) ≠ 1) : gflushStart s n o = finishOp s n 0xB0 0 0 := if_pos h

theorem gflushStart_running (h : getF s Fld.gutChStatState (leAt o.body 0 1) = 1) : gflushStart s n o =
    { s with gut := { s.gut with flushes := Tab.put s.gut.flushes n (leAt o.body 0 1, leAt o.body 8 8, s.ftime + leAt o.body 0x10 4 * 1000) } } :=
  if_neg (not_not.2 h)

end

/-! ### GSNAP of the lateness bank (15 R445, Table 15.6) -/

section
variable {s : State} {n : Nat} {o : Op}

theorem rowImage_length (t : Tab Nat) (row : Nat) : (rowImage t row).length = 160 := by
  rw [rowImage, length_flatten_of_chunks (m := 8)]
  · rw [List.length_map, List.length_range]
  · simp

/-- A field of a row's image. -/
theorem leAt_rowImage (t : Tab Nat) (row : Nat) {f : Nat} (hf : f < 20) : leAt (rowImage t row) (8 * f) 8 = Tab.get 0 t (20 * row + f) % 2 ^ 64 := by
  have hchunk : ((List.range 20).map (fun i => leBytes 8 (Tab.get 0 t (20 * row + i))))[f]? = some (leBytes 8 (Tab.get 0 t (20 * row + f))) := by
    rw [List.getElem?_map, List.getElem?_range hf, Option.map_some]
  rw [rowImage, ← Nat.add_zero (8 * f), leAt_flatten (by simp) hchunk (by decide), leAt_leBytes]

/-- The 32 bytes before the rows. -/
def snapHead (s : State) (o : Op) : List Byte :=
  leBytes 4 0 ++ leBytes 4 (leAt o.body 4 4) ++ leBytes 4 (leAt o.body 8 4) ++ leBytes 4 0 ++ leBytes 8 s.ftime ++ leBytes 8 s.ftime

/-- What GSNAP of bank 0 writes. -/
def snapBytes (s : State) (o : Op) : List Byte :=
  snapHead s o ++ ((List.range (leAt o.body 8 4)).map (fun i => rowImage s.gut.late (leAt o.body 4 4 + i))).flatten

theorem snapHead_length : (snapHead s o).length = 32 := by
  simp only [snapHead, List.length_append, leBytes_length]

theorem snapBytes_length : (snapBytes s o).length = 32 + 160 * leAt o.body 8 4 := by
  rw [snapBytes, List.length_append, snapHead_length, length_flatten_of_chunks (m := 160), List.length_map, List.length_range]
  intro c hc
  obtain ⟨i, -, rfl⟩ := List.mem_map.1 hc
  exact rowImage_length _ _

theorem leAt_snapBytes {r f : Nat} (hr : r < leAt o.body 8 4) (hf : f < 20) :
    leAt (snapBytes s o) (32 + (160 * r + 8 * f)) 8 = Tab.get 0 s.gut.late (20 * (leAt o.body 4 4 + r) + f) % 2 ^ 64 := by
  have hrow : ((List.range (leAt o.body 8 4)).map (fun i => rowImage s.gut.late (leAt o.body 4 4 + i)))[r]? =
      some (rowImage s.gut.late (leAt o.body 4 4 + r)) := by
    rw [List.getElem?_map, List.getElem?_range hr, Option.map_some]
  have hrows : ∀ c ∈ (List.range (leAt o.body 8 4)).map (fun i => rowImage s.gut.late (leAt o.body 4 4 + i)), c.length = 160 := by
    intro c hc
    obtain ⟨i, -, rfl⟩ := List.mem_map.1 hc
    exact rowImage_length _ _
  rw [snapBytes, leAt_append_right (by rw [snapHead_length]; omega), snapHead_length, Nat.add_sub_cancel_left,
    leAt_flatten hrows hrow (by omega), leAt_rowImage _ _ hf]

theorem gutStart_gsnap (ho : opOf s n = some o) (hop : o.opcode = 0x0800) (hbank : leAt o.body 0 1 = 0) (hkeep : leAt o.body 1 1 = 0)
    (hdst : classOf (leAt o.body 16 8) = some .hbm) :
    gutStart s n = finishOp (writeBytes s (leAt o.body 16 8) (snapBytes s o)) n 0 (32 + 160 * leAt o.body 8 4) 0 := by
  have hstart : gutStart s n = gsnapStart s n o := by simp only [gutStart, ho, hop]
  have hbit : bitN (leAt o.body 1 1) 0 = false := by rw [hkeep]; rfl
  rw [hstart, gsnapStart]
  simp only [hbank, hbit, engWrite_hbm hdst, if_true, Bool.false_eq_true, if_false]
  exact congrArg (finishOp (writeBytes s (leAt o.body 16 8) (snapBytes s o)) n 0 · 0) snapBytes_length

theorem gsnap_writes_rows (ho : opOf s n = some o) (hop : o.opcode = 0x0800) (hbank : leAt o.body 0 1 = 0) (hkeep : leAt o.body 1 1 = 0)
    (hdst : classOf (leAt o.body 16 8) = some .hbm) :
    ∃ u, gutStart s n = finishOp u n 0 (32 + 160 * leAt o.body 8 4) 0 ∧
      (∀ r f, r < leAt o.body 8 4 → f < 20 → readLe u (leAt o.body 16 8 + 32 + 160 * r + 8 * f) 8 =
        Tab.get 0 s.gut.late (20 * (leAt o.body 4 4 + r) + f) % 2 ^ 64) ∧ u.gut.late = s.gut.late ∧ u.regs = s.regs := by
  refine ⟨_, gutStart_gsnap ho hop hbank hkeep hdst, fun r f hr hf => ?_, by rw [writeBytes_gut], writeBytes_regs _ _ _⟩
  rw [add_assoc, add_assoc, readLe_writeBytes_inside _ _ (by rw [snapBytes_length]; omega), leAt_snapBytes hr hf]

end

/-! ### GCONN (15 R446) -/

section
variable {s : State} {n : Nat} {o : Op}

/-- The open connections that a GCONN finds. -/
def connHits (s : State) (o : Op) : List (Nat × Conn) := gconnHits s (leAt o.body 0 4) (leAt o.body 4 4) (leAt o.body 8 8)

/-- The 16 bytes of a connection. -/
def connEntry (e : Nat × Conn) : List Byte := leBytes 4 e.1 ++ leBytes 1 e.2.st ++ leBytes 3 0 ++ leBytes 8 e.2.retx

theorem connEntry_length (e : Nat × Conn) : (connEntry e).length = 16 := by
  simp only [connEntry, List.length_append, leBytes_length]

theorem leAt_connEntry_number (e : Nat × Conn) : leAt (connEntry e) 0 4 = e.1 % 2 ^ 32 := by
  rw [connEntry, leAt_append_left (by simp), leAt_append_left (by simp), leAt_append_left (by simp), leAt_leBytes]

theorem leAt_connEntry_state (e : Nat × Conn) : leAt (connEntry e) 4 1 = e.2.st % 256 := by
  rw [connEntry, leAt_append_left (by simp), leAt_append_left (by simp), leAt_append_right (by simp), leBytes_length, leAt_leBytes]
  rfl

theorem leAt_connEntry_retx (e : Nat × Conn) : leAt (connEntry e) 8 8 = e.2.retx % 2 ^ 64 := by
  have hlen : (leBytes 4 e.1 ++ leBytes 1 e.2.st ++ leBytes 3 0).length = 8 := by simp
  rw [connEntry, leAt_append_right hlen.le, hlen, leAt_leBytes]

/-- Where the destination has room for every hit, each is written and the next to examine is past the range. -/
theorem gconnFound_all (hroom : (connHits s o).length ≤ leAt o.body 24 4 / 16) :
    gconnFound s o = (connHits s o, leAt o.body 0 4 + leAt o.body 4 4) := by
  have hnone : (connHits s o)[leAt o.body 24 4 / 16]? = none := List.getElem?_eq_none hroom
  have htake : (connHits s o).take (leAt o.body 24 4 / 16) = connHits s o := List.take_of_length_le hroom
  rw [connHits] at hnone htake
  simp only [gconnFound, hnone, htake, connHits]

theorem gutStart_gconn (ho : opOf s n = some o) (hop : o.opcode = 0x0801) (hdst : classOf (leAt o.body 16 8) = some .hbm)
    (hkeep : leAt o.body 28 1 = 0) (hroom : (connHits s o).length ≤ leAt o.body 24 4 / 16) :
    gutStart s n = finishOp (writeBytes s (leAt o.body 16 8) ((connHits s o).map connEntry).flatten) n 0
      ((connHits s o).length + (leAt o.body 0 4 + leAt o.body 4 4) * 2 ^ 32) 0 := by
  have hstart : gutStart s n = gconnStart s n o := by simp only [gutStart, ho, hop]
  have hbit : bitN (leAt o.body 28 1) 0 = false := by rw [hkeep]; rfl
  rw [hstart, gconnStart]
  simp only [gconnFound_all hroom, hbit, engWrite_hbm hdst, Bool.false_eq_true, if_false]
  rfl

theorem gconn_writes_hits (ho : opOf s n = some o) (hop : o.opcode = 0x0801) (hdst : classOf (leAt o.body 16 8) = some .hbm)
    (hkeep : leAt o.body 28 1 = 0) (hroom : (connHits s o).length ≤ leAt o.body 24 4 / 16) :
    ∃ u, gutStart s n = finishOp u n 0 ((connHits s o).length + (leAt o.body 0 4 + leAt o.body 4 4) * 2 ^ 32) 0 ∧
      (∀ j e, (connHits s o)[j]? = some e → readLe u (leAt o.body 16 8 + 16 * j) 4 = e.1 % 2 ^ 32 ∧
        readLe u (leAt o.body 16 8 + 16 * j + 4) 1 = e.2.st % 256 ∧ readLe u (leAt o.body 16 8 + 16 * j + 8) 8 = e.2.retx % 2 ^ 64) ∧
      u.xpt = s.xpt ∧ u.regs = s.regs := by
  refine ⟨_, gutStart_gconn ho hop hdst hkeep hroom, fun j e hj => ?_, writeBytes_xpt _ _ _, writeBytes_regs _ _ _⟩
  have hlen : ∀ c ∈ (connHits s o).map connEntry, c.length = 16 := by
    intro c hc
    obtain ⟨e, -, rfl⟩ := List.mem_map.1 hc
    exact connEntry_length e
  have hentry : ((connHits s o).map connEntry)[j]? = some (connEntry e) := by rw [List.getElem?_map, hj, Option.map_some]
  have hread {off k : Nat} (hoff : off + k ≤ 16) :
      readLe (writeBytes s (leAt o.body 16 8) ((connHits s o).map connEntry).flatten) (leAt o.body 16 8 + 16 * j + off) k =
        leAt (connEntry e) off k := by
    have hlt : j < (connHits s o).length := (List.getElem?_eq_some_iff.1 hj).1
    rw [add_assoc, readLe_writeBytes_inside _ _ (by rw [length_flatten_of_chunks hlen, List.length_map]; omega), leAt_flatten hlen hentry hoff]
  exact ⟨(hread (off := 0) (by decide)).trans (leAt_connEntry_number e), (hread (by decide)).trans (leAt_connEntry_state e),
    (hread (by decide)).trans (leAt_connEntry_retx e)⟩

end

/-! ### The statement -/

/-- Settles O40: each clause is the law above of the command, or of the start of the operation, that it speaks of. -/
theorem copyAndGutterOperations : Obligations.CopyAndGutterOperations := by
  unfold Obligations.CopyAndGutterOperations
  intro s n c t dl failed o host ho
  refine ⟨fun hop hst hsrc hdst => ?_, fun hop hst hmin hmax hhost => ?_, fun hop hst hfail => ?_,
    fun _ hst => exec_copyDone_other ho hst host failed,
    fun hop hst hf => ⟨gflushDone_flushes ho hop hst hf, gflushDone_waits ho hop hst hf, exec_gflushTimeout_flushing ho hop hst hf⟩,
    fun hf => ⟨exec_gflushDone_none hf, exec_gflushTimeout_none hf⟩, fun hop hc => ⟨fun hstop => ?_, fun hrun => ?_⟩,
    gsnap_writes_rows ho, gconn_writes_hits ho⟩
  · exact ⟨writeBytes s (copyDst o) (readBytes s (copySrc o) (copyLen o)), _, exec_copyDone_done ho hop hst hsrc hdst host,
      fun i hi => readByte_copied_inside s _ _ hi, fun x hx => readByte_copied_outside s _ _ hx, writeBytes_regs _ _ _, rfl⟩
  · have hrange : ¬ (1 ≤ failed ∧ failed ≤ 3 ∧ inHost (copySrc o) = false ∧ inHost (copyDst o) = false) := by
      rintro ⟨-, -, hsrc, hdst⟩
      exact Bool.false_ne_true (hhost.elim hsrc.symm.trans hdst.symm.trans)
    rw [exec_copyDone_failed ho hop hst (by omega) hrange, dataError, if_pos hmax]
    rfl
  · rw [exec_copyDone_failed ho hop hst (by omega) (by omega), dataError, if_neg (by omega)]
    rfl
  · rw [gutStart_gflush ho hop, gflushStart_stopped (by rwa [hc])]
  · rw [gutStart_gflush ho hop, gflushStart_running (by rwa [hc]), hc]
    exact ⟨by rw [Tab.lookup_put, if_pos rfl], rfl, rfl⟩

end Sys2Proof.Machine
end

section
/-! PROOFS. The commands on the rule tables (09 R262 to R267): what a write to TRUSS_RULE_CMD comes to, what staging and a commit leave,
each command's cases, and the statement assembled from them. -/

namespace Sys2Proof.Machine

/-! ### Fields of registers, and writes that only a PF may make (09 R265) -/

theorem getF_lt (s : State) (f : Fld) (i : Nat) : getF s f i < 2 ^ (f.hi - f.lo + 1) := fieldOf_lt _ _ _

/-- A counter that counts leaves a field apart from it alone. -/
theorem getF_bump_of_apart (s : State) {f g : Fld} (h : f.apart g) (i j : Nat) : getF (bump s f i) g j = getF s g j :=
  getF_setF_of_apart s h i j _

section
variable {s : State} (hmode : mode s = 1)
include hmode

theorem trussWrite_pf {req : Requester} (hpf : Requester.isPf req = true) (k : State → State) : trussWrite s req k = k s := by
  rw [trussWrite, gated_normal hmode, if_pos hpf]

theorem trussWrite_thread (tid : Tid) (k : State → State) : trussWrite s (.thread tid) k = bump s Fld.trussDeniedCnt 0 := by
  rw [trussWrite, gated_normal hmode]
  rfl

theorem ruleCmd_idle {req : Requester} (hpf : Requester.isPf req = true) (hidle : getF s Fld.trussRuleStatBusy 0 = 0) (k : State → State) :
    ruleCmd s req k = k s := by
  rw [ruleCmd, trussWrite_pf hmode hpf, flagF_eq_false hidle]
  rfl

theorem ruleCmd_busy {req : Requester} (hpf : Requester.isPf req = true) (hbusy : getF s Fld.trussRuleStatBusy 0 = 1) (k : State → State) :
    ruleCmd s req k = ruleStat s cmdBusy := by
  rw [ruleCmd, trussWrite_pf hmode hpf, flagF_eq_true hbusy]
  rfl

end

/-! ### The end of a command -/

/-- TRUSS_RULE_STAT shows `n`; the versions in use, memory and the outputs are those of `s`. -/
def RuleStatus (s u : State) (n : Nat) : Prop :=
  getF u Fld.trussRuleStatStatus 0 = n ∧ u.truss.cur = s.truss.cur ∧ u.truss.prev = s.truss.prev ∧ u.mem = s.mem ∧ u.out = s.out

/-- A command ends with a status and leaves the rule tables alone. -/
def RuleEnds (s : State) (i : Instr) (n : Nat) : Prop := ∃ u, exec i s = .next u ∧ RuleStatus s u n ∧ u.truss = s.truss

theorem getF_ruleStat (s : State) {n : Nat} (h : n < 8) : getF (ruleStat s n) Fld.trussRuleStatStatus 0 = n :=
  getF_setF_within s Fld.trussRuleStatStatus 0 ⟨by decide, by decide⟩ h

/-- A command that keeps the versions in use, memory and the outputs shows its status. -/
theorem ruleStatus_ruleStat {s u : State} {n : Nat} (hn : n < 8) (hcur : u.truss.cur = s.truss.cur) (hprev : u.truss.prev = s.truss.prev)
    (hmem : u.mem = s.mem) (hout : u.out = s.out) : RuleStatus s (ruleStat u n) n :=
  ⟨getF_ruleStat u hn, hcur, hprev, hmem, hout⟩

theorem ruleStat_truss (s : State) (n : Nat) : (ruleStat s n).truss = s.truss := rfl

theorem ruleEnds_of_exec {s : State} {i : Instr} {n : Nat} (h : exec i s = .next (ruleStat s n)) (hn : n < 8) : RuleEnds s i n :=
  ⟨_, h, ruleStatus_ruleStat hn rfl rfl rfl rfl, ruleStat_truss s n⟩

/-! ### Staging (09 R266) -/

/-- A state with other staged entries. -/
def withStaged (s : State) (rs : List Rule) : State :=
  { s with truss := { s.truss with staging := { s.truss.staging with rules := rs } } }

/-- A state with another staged miss action of a table. -/
def withMiss (s : State) (t : Nat) (a : Dword) : State :=
  { s with truss := { s.truss with staging := { s.truss.staging with miss := Tab.store 4 s.truss.staging.miss t a } } }

section
variable (s : State) (t : Nat) (a : Dword)

theorem withMiss_cur : (withMiss s t a).truss.cur = s.truss.cur := rfl
theorem withMiss_prev : (withMiss s t a).truss.prev = s.truss.prev := rfl
theorem withMiss_rules : (withMiss s t a).truss.staging.rules = s.truss.staging.rules := rfl
theorem withMiss_mem : (withMiss s t a).mem = s.mem := rfl
theorem withMiss_out : (withMiss s t a).out = s.out := rfl

theorem get_withMiss (x : Nat) :
    Tab.get 4 (withMiss s t a).truss.staging.miss x = if x = t then a else Tab.get 4 s.truss.staging.miss x := Tab.get_store _ _ _ _ _

end

/-- Entries of a table while the current version and staged entries both exist. -/
def bothVersions (s : State) (t : Nat) (rs : List Rule) : Nat :=
  (rs.filter (fun x => x.table == t)).length + (s.truss.cur.rules.filter (fun x => x.table == t && !rs.contains x)).length

section
variable {s : State} {t : Nat} {rs : List Rule}

theorem stageRules_within (hdiff : rulesDiffer s rs s.truss.cur.rules ≤ 65536) (hcap : bothVersions s t rs ≤ (tableDef s.truss.graph t).2.2.2) :
    stageRules s t rs = ruleStat (withStaged s rs) cmdOk :=
  if_neg (not_or.2 ⟨not_lt.2 hdiff, not_lt.2 hcap⟩)

theorem stageRules_tooMany (hdiff : 65536 < rulesDiffer s rs s.truss.cur.rules) : stageRules s t rs = ruleStat s cmdFull :=
  if_pos (.inl hdiff)

/-- Where the limits hold, a command that stages entries ends OK and has staged them. -/
theorem stages_of_exec {i : Instr} (h : exec i s = .next (stageRules s t rs)) (hdiff : rulesDiffer s rs s.truss.cur.rules ≤ 65536)
    (hcap : bothVersions s t rs ≤ (tableDef s.truss.graph t).2.2.2) :
    ∃ u, exec i s = .next u ∧ RuleStatus s u 0 ∧ u.truss.staging.rules = rs ∧ u.truss.staging.miss = s.truss.staging.miss :=
  ⟨_, h.trans (congrArg _ (stageRules_within hdiff hcap)), ruleStatus_ruleStat (by decide) rfl rfl rfl rfl, rfl, rfl⟩

end

/-! ### The commands while none waits -/

section
variable {s : State} {req : Requester} (hmode : mode s = 1) (hpf : Requester.isPf req = true) (hidle : getF s Fld.trussRuleStatBusy 0 = 0) (t : Nat)
include hmode hpf hidle

theorem exec_ruleAdd_idle : exec (.ruleAdd req t) s = .next
    (if !argOk s t || !actOk t (argAct s) then ruleStat s cmdBadArg
    else if holdsRule s s.truss.staging.rules (argRule s t) then ruleStat s cmdExists
    else stageRules s t (s.truss.staging.rules ++ [argRule s t])) :=
  congrArg _ (ruleCmd_idle hmode hpf hidle _)

theorem exec_ruleDelete_idle : exec (.ruleDelete req t) s = .next
    (if !argOk s t then ruleStat s cmdBadArg
    else if !holdsRule s s.truss.staging.rules (argRule s t) then ruleStat s cmdNotFound
    else stageRules s t (s.truss.staging.rules.filter (fun x => !sameRule (kindOfTable s t) x (argRule s t)))) :=
  congrArg _ (ruleCmd_idle hmode hpf hidle _)

theorem exec_ruleModify_idle : exec (.ruleModify req t) s = .next
    (if !argOk s t || !actOk t (argAct s) then ruleStat s cmdBadArg
    else if !holdsRule s s.truss.staging.rules (argRule s t) then ruleStat s cmdNotFound
    else stageRules s t (s.truss.staging.rules.map
      (fun x => if sameRule (kindOfTable s t) x (argRule s t) then { x with act := argAct s } else x))) :=
  congrArg _ (ruleCmd_idle hmode hpf hidle _)

/-- An argument that names no table, or a key out of its range. -/
theorem ruleCommands_badArg (h : argOk s t = false) :
    RuleEnds s (.ruleAdd req t) 5 ∧ RuleEnds s (.ruleDelete req t) 5 ∧ RuleEnds s (.ruleModify req t) 5 := by
  refine ⟨ruleEnds_of_exec (n := 5) ?_ (by decide), ruleEnds_of_exec (n := 5) ?_ (by decide), ruleEnds_of_exec (n := 5) ?_ (by decide)⟩
  · rw [exec_ruleAdd_idle hmode hpf hidle, h]; rfl
  · rw [exec_ruleDelete_idle hmode hpf hidle, h]; rfl
  · rw [exec_ruleModify_idle hmode hpf hidle, h]; rfl

theorem exec_ruleAdd_wellFormed (harg : argOk s t = true) (hact : actOk t (argAct s) = true) : exec (.ruleAdd req t) s = .next
    (if holdsRule s s.truss.staging.rules (argRule s t) then ruleStat s cmdExists
    else stageRules s t (s.truss.staging.rules ++ [argRule s t])) := by
  rw [exec_ruleAdd_idle hmode hpf hidle, harg, hact]
  rfl

theorem exec_ruleDelete_wellFormed (harg : argOk s t = true) : exec (.ruleDelete req t) s = .next
    (if !holdsRule s s.truss.staging.rules (argRule s t) then ruleStat s cmdNotFound
    else stageRules s t (s.truss.staging.rules.filter (fun x => !sameRule (kindOfTable s t) x (argRule s t)))) := by
  rw [exec_ruleDelete_idle hmode hpf hidle, harg]
  rfl

theorem exec_ruleModify_wellFormed (harg : argOk s t = true) (hact : actOk t (argAct s) = true) : exec (.ruleModify req t) s = .next
    (if !holdsRule s s.truss.staging.rules (argRule s t) then ruleStat s cmdNotFound
    else stageRules s t (s.truss.staging.rules.map
      (fun x => if sameRule (kindOfTable s t) x (argRule s t) then { x with act := argAct s } else x))) := by
  rw [exec_ruleModify_idle hmode hpf hidle, harg, hact]
  rfl

theorem exec_ruleSetMiss_idle : exec (.ruleSetMiss req t) s = .next
    (if s.truss.graph.isEmpty ∨ kindOfTable s t = 0 ∨ actOk t (argAct s) = false then ruleStat s cmdBadArg
    else ruleStat (withMiss s t (argAct s)) cmdOk) :=
  congrArg _ (ruleCmd_idle hmode hpf hidle _)

/-- An action that is not well formed for the table. -/
theorem ruleCommands_badAction (h : actOk t (argAct s) = false) :
    RuleEnds s (.ruleAdd req t) 5 ∧ RuleEnds s (.ruleModify req t) 5 ∧ RuleEnds s (.ruleSetMiss req t) 5 := by
  refine ⟨ruleEnds_of_exec (n := 5) ?_ (by decide), ruleEnds_of_exec (n := 5) ?_ (by decide), ruleEnds_of_exec (n := 5) ?_ (by decide)⟩
  · rw [exec_ruleAdd_idle hmode hpf hidle, h, Bool.not_false, Bool.or_true]; rfl
  · rw [exec_ruleModify_idle hmode hpf hidle, h, Bool.not_false, Bool.or_true]; rfl
  · rw [exec_ruleSetMiss_idle hmode hpf hidle, if_pos (.inr (.inr h))]; rfl

/-- A well-formed miss action is stored for its table alone. -/
theorem ruleSetMiss_stores (hgraph : s.truss.graph ≠ []) (hkind : kindOfTable s t ≠ 0) (hact : actOk t (argAct s) = true) :
    ∃ u, exec (.ruleSetMiss req t) s = .next u ∧ RuleStatus s u 0 ∧ Tab.get 4 u.truss.staging.miss t = argAct s ∧
      (∀ x, x ≠ t → Tab.get 4 u.truss.staging.miss x = Tab.get 4 s.truss.staging.miss x) ∧ u.truss.staging.rules = s.truss.staging.rules := by
  have hok : ¬ (s.truss.graph.isEmpty ∨ kindOfTable s t = 0 ∨ actOk t (argAct s) = false) := by
    simp only [List.isEmpty_iff, hgraph, hkind, hact, Bool.true_eq_false, or_self, not_false_eq_true]
  refine ⟨ruleStat (withMiss s t (argAct s)) cmdOk, by rw [exec_ruleSetMiss_idle hmode hpf hidle, if_neg hok],
    ruleStatus_ruleStat (by decide) (withMiss_cur s t _) (withMiss_prev s t _) (withMiss_mem s t _) (withMiss_out s t _), ?_, fun x hx => ?_,
    withMiss_rules s t _⟩
  · rw [ruleStat_truss, get_withMiss, if_pos rfl]
  · rw [ruleStat_truss, get_withMiss, if_neg hx]

theorem exec_ruleDiscard_idle :
    exec (.ruleDiscard req) s = .next (ruleStat { s with truss := { s.truss with staging := s.truss.cur } } cmdOk) :=
  congrArg _ (ruleCmd_idle hmode hpf hidle _)

/-- A commit that must wait for copies under the previous version. -/
def commitDeferred (s : State) : State :=
  bump { setF (ruleStat s cmdVersionBusy) Fld.trussRuleStatBusy 0 1 with truss := { s.truss with commitWaits := true } } Fld.trussVerBusyCnt 0

theorem exec_ruleCommitOp_idle : exec (.ruleCommitOp req) s = .next
    (if getF s Fld.trussVerPrevious 0 = 0 ∨ oldInflight s = 0 then commitRules s else commitDeferred s) :=
  congrArg _ (ruleCmd_idle hmode hpf hidle _)

end

/-! ### A commit (09 R267) -/

section
variable (s : State)

/-- The staged version made current, and the current one previous. -/
def versionsMoved (s : State) : State :=
  { s with truss := { s.truss with prev := s.truss.cur, cur := s.truss.staging, commitWaits := false } }

/-- What a commit leaves, before its event. -/
def rulesCommitted (s : State) : State :=
  bump (setF (ruleStat (setF (setF (versionsMoved s) Fld.trussVerPrevious 0 (getF s Fld.trussVerCurrent 0))
    Fld.trussVerCurrent 0 (nextVersion (getF s Fld.trussVerCurrent 0))) cmdOk) Fld.trussRuleStatBusy 0 0) Fld.trussCommitCnt 0

theorem commitRules_eq : commitRules s = raiseT (rulesCommitted s) srcSwitch
    { code := 0x0404, aux16 := nextVersion (getF s Fld.trussVerCurrent 0), arg0 := getF s Fld.trussVerCurrent 0 } := rfl

theorem rulesCommitted_truss : (rulesCommitted s).truss = (versionsMoved s).truss := by
  rw [rulesCommitted, bump_truss, setF_truss, ruleStat_truss, setF_truss, setF_truss]

theorem rulesCommitted_mem : (rulesCommitted s).mem = s.mem := by
  rw [rulesCommitted, bump_mem, setF_mem, ruleStat, setF_mem, setF_mem, setF_mem, versionsMoved]

theorem commitDeferred_truss : (commitDeferred s).truss = { s.truss with commitWaits := true } := by
  rw [commitDeferred, bump_truss]

theorem commitDeferred_mem : (commitDeferred s).mem = s.mem := by
  rw [commitDeferred, bump_mem, setF_mem, ruleStat, setF_mem]

theorem commitDeferred_out : (commitDeferred s).out = s.out := by
  rw [commitDeferred, bump_out, setF_out, ruleStat, setF_out]

theorem nextVersion_lt : nextVersion (getF s Fld.trussVerCurrent 0) < 2 ^ 16 := by
  have h : getF s Fld.trussVerCurrent 0 < 2 ^ 16 := getF_lt s _ 0
  unfold nextVersion
  split <;> omega

/-- The registers after a commit: both versions, TRUSS_RULE_STAT, and the count. -/
theorem getF_rulesCommitted :
    getF (rulesCommitted s) Fld.trussVerCurrent 0 = nextVersion (getF s Fld.trussVerCurrent 0) ∧
    getF (rulesCommitted s) Fld.trussVerPrevious 0 = getF s Fld.trussVerCurrent 0 ∧
    getF (rulesCommitted s) Fld.trussRuleStatStatus 0 = 0 ∧ getF (rulesCommitted s) Fld.trussRuleStatBusy 0 = 0 ∧
    getF (rulesCommitted s) Fld.trussCommitCnt 0 = (getF s Fld.trussCommitCnt 0 + 1) % 2 ^ 64 := by
  refine ⟨?_, ?_, ?_, ?_, ?_⟩ <;> simp (disch := decide) only [rulesCommitted, ruleStat, getF_bump_of_apart, getF_setF_of_apart]
  · exact getF_setF_within _ Fld.trussVerCurrent 0 ⟨by decide, by decide⟩ (nextVersion_lt s)
  · exact getF_setF_within _ Fld.trussVerPrevious 0 ⟨by decide, by decide⟩ (getF_lt s Fld.trussVerCurrent 0)
  · exact getF_setF_within _ Fld.trussRuleStatStatus 0 ⟨by decide, by decide⟩ (by decide)
  · exact getF_setF_within _ Fld.trussRuleStatBusy 0 ⟨by decide, by decide⟩ (by decide)
  · rw [getF_bump_same _ _ _ ⟨by decide, by decide⟩]
    simp (disch := decide) only [getF_setF_of_apart]
    rfl

/-- A commit that waits shows VERSION_BUSY and stays busy. -/
theorem getF_commitDeferred : getF (commitDeferred s) Fld.trussRuleStatStatus 0 = 6 ∧ getF (commitDeferred s) Fld.trussRuleStatBusy 0 = 1 := by
  have hregs {f : Fld} (h : Fld.trussVerBusyCnt.apart f) :
      getF (commitDeferred s) f 0 = getF (setF (ruleStat s cmdVersionBusy) Fld.trussRuleStatBusy 0 1) f 0 :=
    (getF_bump_of_apart _ h 0 0).trans (getF_of_regs_eq rfl f 0)
  constructor
  · rw [hregs (by decide), getF_setF_of_apart _ (by decide)]
    exact getF_ruleStat s (by decide)
  · rw [hregs (by decide)]
    exact getF_setF_within _ Fld.trussRuleStatBusy 0 ⟨by decide, by decide⟩ (by decide)

variable {s}

theorem exec_ruleCommitDeferred_ready (hwaits : s.truss.commitWaits = true) (hnone : oldInflight s = 0) :
    exec .ruleCommitDeferred s = .next (commitRules s) :=
  congrArg _ (if_pos ⟨hwaits, hnone⟩)

theorem exec_ruleCommitDeferred_other (h : s.truss.commitWaits = false ∨ oldInflight s ≠ 0) : exec .ruleCommitDeferred s = .next s := by
  have hnot : ¬ (s.truss.commitWaits = true ∧ oldInflight s = 0) := by
    rintro ⟨hwaits, hnone⟩
    exact h.elim (fun h => Bool.false_ne_true (h.symm.trans hwaits)) (fun h => h hnone)
  exact congrArg _ (if_neg hnot)

end

/-! ### The statement -/

/-- While a commit waits, every command ends BUSY. -/
theorem ruleCommands_busy {s : State} {req : Requester} (hmode : mode s = 1) (hpf : Requester.isPf req = true)
    (hbusy : getF s Fld.trussRuleStatBusy 0 = 1) (t : Nat) :
    RuleEnds s (.ruleAdd req t) 1 ∧ RuleEnds s (.ruleDelete req t) 1 ∧ RuleEnds s (.ruleModify req t) 1 ∧ RuleEnds s (.ruleSetMiss req t) 1 ∧
      RuleEnds s (.ruleDiscard req) 1 ∧ RuleEnds s (.ruleCommitOp req) 1 := by
  have hends {i : Instr} {k : State → State} (h : exec i s = .next (ruleCmd s req k)) : RuleEnds s i 1 :=
    ruleEnds_of_exec (h.trans (congrArg _ (ruleCmd_busy hmode hpf hbusy k))) (by decide)
  exact ⟨hends rfl, hends rfl, hends rfl, hends rfl, hends rfl, hends rfl⟩

/-- Settles O42: each clause is the law above of the command it speaks of. -/
theorem ruleTableCommands : Obligations.RuleTableCommands := by
  unfold Obligations.RuleTableCommands
  intro s req tid t r stg status ends
  refine ⟨fun hmode hpf hidle => ⟨fun harg hact hnew hdiff hcap => ?_, fun harg hact hnew hdiff => ?_, fun harg hact hheld => ?_,
    ruleCommands_badArg hmode hpf hidle t, ruleCommands_badAction hmode hpf hidle t, fun harg hnew => ⟨?_, fun hact => ?_⟩,
    fun harg hheld hdiff hcap => ?_, fun harg hact hheld hdiff hcap => ?_, ruleSetMiss_stores hmode hpf hidle t, ?_,
    fun hfree => ?_, fun hprev hold => ?_⟩, fun hmode hpf hbusy => ruleCommands_busy hmode hpf hbusy t,
    fun hmode => ⟨congrArg _ (trussWrite_thread hmode tid _), congrArg _ (trussWrite_thread hmode tid _)⟩,
    exec_ruleCommitDeferred_ready, exec_ruleCommitDeferred_other⟩
  · exact stages_of_exec (by rw [exec_ruleAdd_wellFormed hmode hpf hidle t harg hact, hnew]; rfl) hdiff hcap
  · have hfull := stageRules_tooMany (t := t) hdiff
    exact ruleEnds_of_exec (by rw [exec_ruleAdd_wellFormed hmode hpf hidle t harg hact, hnew]; exact congrArg _ hfull) (by decide)
  · exact ruleEnds_of_exec (by rw [exec_ruleAdd_wellFormed hmode hpf hidle t harg hact, hheld]; rfl) (by decide)
  · exact ruleEnds_of_exec (by rw [exec_ruleDelete_wellFormed hmode hpf hidle t harg, hnew]; rfl) (by decide)
  · exact ruleEnds_of_exec (by rw [exec_ruleModify_wellFormed hmode hpf hidle t harg hact, hnew]; rfl) (by decide)
  · obtain ⟨u, hexec, hstatus, hrules, -⟩ := stages_of_exec (by rw [exec_ruleDelete_wellFormed hmode hpf hidle t harg, hheld]; rfl) hdiff hcap
    exact ⟨u, hexec, hstatus, hrules⟩
  · obtain ⟨u, hexec, hstatus, hrules, -⟩ := stages_of_exec
      (by rw [exec_ruleModify_wellFormed hmode hpf hidle t harg hact, hheld]; rfl) hdiff hcap
    exact ⟨u, hexec, hstatus, hrules⟩
  · exact ⟨_, exec_ruleDiscard_idle hmode hpf hidle, ruleStatus_ruleStat (by decide) rfl rfl rfl rfl, rfl⟩
  · obtain ⟨hcur, hprev, hstat, hbusy, hcnt⟩ := getF_rulesCommitted s
    refine ⟨rulesCommitted s, ?_, ?_, ?_, hcur, hprev, hstat, hbusy, hcnt, rulesCommitted_mem s⟩
    · rw [exec_ruleCommitOp_idle hmode hpf hidle, if_pos hfree, commitRules_eq]
      rfl
    · rw [rulesCommitted_truss]; rfl
    · rw [rulesCommitted_truss]; rfl
  · obtain ⟨hstat, hbusy⟩ := getF_commitDeferred s
    refine ⟨commitDeferred s, ?_, ⟨hstat, ?_, ?_, commitDeferred_mem s, commitDeferred_out s⟩, hbusy, ?_⟩
    · rw [exec_ruleCommitOp_idle hmode hpf hidle, if_neg (not_or.2 ⟨hprev, hold⟩)]
    all_goals rw [commitDeferred_truss]

end Sys2Proof.Machine
end

section
/-! PROOFS. The eave switch (09 R273 to R277, Table 9.11; 10 Table 10.14): which learn is taken and what it does to the table, ageing, the
commands on the table, sub-ports that come up and go down, and the statement assembled from them. -/

namespace Sys2Proof.Machine

/-! ### Where an address is held (09 R245) -/

/-- An address that is no vport's is where the table has it. -/
theorem whereIs_of_not_vport {s : State} {key : Nat} (hv : vportByKey s key = none) :
    whereIs s key = (fdbOf s key).map (fun e => (e.port, e.static)) := by
  unfold whereIs
  rw [hv]

/-! ### Taking a learn (09 R273) -/

section
variable {s : State} {ts port key : Nat}

/-- A state whose learn pipeline has been emptied. -/
def learnsTaken (s : State) : State := { s with truss := { s.truss with learnQ := [] } }

theorem exec_learn_none (h : s.truss.learnQ = []) : exec .learn s = .next s := by
  show execLearn s = _
  rw [execLearn, h]
  rfl

theorem exec_learn_one (h : s.truss.learnQ = [(ts, port, key)]) : exec .learn s = .next (learnApply (learnsTaken s) ts port key) := by
  show execLearn s = _
  simp only [execLearn, h, learnNext, List.erase_cons_head, learnsTaken]

theorem learnNext_pair {a b : Nat × Nat × Nat} (h : a.1 < b.1 ∨ (a.1 = b.1 ∧ a.2.1 ≤ b.2.1)) : learnNext [a, b] = some a := by
  have hbefore : learnBefore a b = true := by
    rw [learnBefore, Bool.or_eq_true, Bool.and_eq_true, decide_eq_true_eq, beq_iff_eq, decide_eq_true_eq]
    exact h
  simp only [learnNext, hbefore, if_true]

end

/-! ### What a learn does (09 R274, R275) -/

section
variable {s : State} {ts port key : Nat} {e : FdbEnt}

theorem learnApply_vport {p : Nat} (h : vportByKey s key = some p) : learnApply s ts port key = bump s Fld.swSpoofCnt 0 := by
  unfold learnApply
  rw [h]

/-- A learn that no vport's address stands against. -/
theorem learnApply_absent (hv : vportByKey s key = none) (he : fdbOf s key = none) : learnApply s ts port key = learnNew s port key := by
  unfold learnApply
  rw [hv, he]

theorem learnApply_present (hv : vportByKey s key = none) (he : fdbOf s key = some e) : learnApply s ts port key =
    (if e.port = port then setFdb s (Tab.put s.truss.fdb key { e with hitAt := s.ftime })
    else if e.static then bump s Fld.swSpoofCnt 0
    else if e.flapping then bump s Fld.swFlapIgnoredCnt 0
    else learnMove s ts port key e) := by
  unfold learnApply
  rw [hv, he]

/-- With fewer than four entries in the table, every bucket has room. -/
theorem learnNew_room (h : s.truss.fdb.length < 4) : learnNew s port key =
    setFdb s (Tab.put s.truss.fdb key { port := port, static := false, flapping := false, moves := [], hitAt := s.ftime }) := by
  simp only [learnNew, if_neg (not_le.2 h), Bool.false_eq_true, if_false]

/-- What a move leaves, before its event. -/
def moved (s : State) (ts port key : Nat) (e : FdbEnt) : State :=
  bump (setFdb s (Tab.put s.truss.fdb key { e with port := port, moves := (ts, e.port) :: e.moves, hitAt := s.ftime })) Fld.swMoveCnt 0

theorem learnMove_early (h : e.moves.length < 4) : learnMove s ts port key e =
    raiseT (moved s ts port key e) srcSwitch { code := 0x0401, aux16 := port, arg0 := key, arg1 := e.port } := by
  have hnone : e.moves[3]? = none := List.getElem?_eq_none (by omega)
  have htake : ((ts, e.port) :: e.moves).take 4 = (ts, e.port) :: e.moves := List.take_of_length_le (by rw [List.length_cons]; omega)
  simp only [learnMove, hnone, htake]
  rfl

/-- What pinning an entry leaves, before its event. -/
def pinned (s : State) (p key : Nat) (e : FdbEnt) : State :=
  bump (setFdb s (Tab.put s.truss.fdb key { e with port := p, flapping := true, hitAt := s.ftime })) Fld.swFlapCnt 0

theorem learnMove_fifth {m1 m2 m3 : Nat × Nat} {t p : Nat} (h : e.moves = [m1, m2, m3, (t, p)]) (hsoon : ts < t + 1000000) :
    learnMove s ts port key e = raiseT (pinned s p key e) srcSwitch { code := 0x0402, aux16 := p, arg0 := key } := by
  have hfirst : e.moves[3]? = some (t, p) := by rw [h]; rfl
  simp only [learnMove, hfirst, if_pos hsoon]
  rfl

theorem lookup_moved : Tab.lookup (moved s ts port key e).truss.fdb key =
    some { e with port := port, moves := (ts, e.port) :: e.moves, hitAt := s.ftime } :=
  (Tab.lookup_put _ _ _ _).trans (if_pos rfl)

theorem lookup_pinned (p : Nat) : Tab.lookup (pinned s p key e).truss.fdb key = some { e with port := p, flapping := true, hitAt := s.ftime } :=
  (Tab.lookup_put _ _ _ _).trans (if_pos rfl)

theorem getF_moved : getF (moved s ts port key e) Fld.swMoveCnt 0 = (getF s Fld.swMoveCnt 0 + 1) % 2 ^ 64 :=
  getF_bump_same _ Fld.swMoveCnt 0 ⟨by decide, by decide⟩

theorem getF_pinned (p : Nat) : getF (pinned s p key e) Fld.swFlapCnt 0 = (getF s Fld.swFlapCnt 0 + 1) % 2 ^ 64 :=
  getF_bump_same _ Fld.swFlapCnt 0 ⟨by decide, by decide⟩

end

/-- A learn of a new address, one more hit on a known one, and the learns that are counted and ignored. -/
theorem learn_entry {s : State} {ts port key : Nat} {e : FdbEnt} (hq : s.truss.learnQ = [(ts, port, key)]) (hv : vportByKey s key = none)
    (he : fdbOf s key = some e) : exec .learn s = .next
      (if e.port = port then setFdb (learnsTaken s) (Tab.put s.truss.fdb key { e with hitAt := s.ftime })
      else if e.static then bump (learnsTaken s) Fld.swSpoofCnt 0
      else if e.flapping then bump (learnsTaken s) Fld.swFlapIgnoredCnt 0
      else learnMove (learnsTaken s) ts port key e) :=
  (exec_learn_one hq).trans (congrArg _ (learnApply_present (s := learnsTaken s) hv he))

/-- A move of a dynamic entry that is not pinned. -/
theorem learn_move {s : State} {ts port key : Nat} {e : FdbEnt} (hq : s.truss.learnQ = [(ts, port, key)]) (hv : vportByKey s key = none)
    (he : fdbOf s key = some e) (hport : e.port ≠ port) (hstatic : e.static = false) (hflap : e.flapping = false) :
    exec .learn s = .next (learnMove (learnsTaken s) ts port key e) := by
  rw [learn_entry hq hv he, if_neg hport, hstatic, hflap]
  rfl

/-! ### Ageing (09 R276) -/

section
variable {s : State} {vlan mac : Nat} {e : FdbEnt}

/-- A table that an entry has aged out of, at its time (log 125). -/
def aged (s : State) (key : Nat) (e : FdbEnt) : State :=
  setFdb (reach s (e.hitAt + getF s Fld.swCtlAgeS 0 * 1000000000)) (Tab.del s.truss.fdb key)

theorem exec_entryAgeing_present (he : fdbOf s (fdbKey vlan mac) = some e) : exec (.entryAgeing vlan mac) s = .next
    (if getF s Fld.swCtlAgeS 0 = 0 ∨ e.static = true ∨ e.flapping = true then s else aged s (fdbKey vlan mac) e) := by
  show execEntryAgeing vlan mac s = _
  simp only [execEntryAgeing, he]
  rfl

theorem lookup_aged (s : State) (key : Nat) (e : FdbEnt) (k : Nat) :
    Tab.lookup (aged s key e).truss.fdb k = if k = key then none else Tab.lookup s.truss.fdb k := Tab.lookup_del _ _ _

end

/-! ### The commands on the forwarding table (09 R277) -/

/-- SW_FDB_STAT shows the end of a command with status `n`; memory and the outputs are those of `s`. -/
def FdbStatus (s u : State) (n : Nat) : Prop :=
  getF u Fld.swFdbStatStatus 0 = n ∧ getF u Fld.swFdbStatBusy 0 = 0 ∧ u.mem = s.mem ∧ u.out = s.out

theorem fdbStatus_fdbStat {s u : State} {n : Nat} (hn : n < 8) (hmem : u.mem = s.mem) (hout : u.out = s.out) : FdbStatus s (fdbStat u n) n :=
  ⟨(getF_setF_of_apart _ (by decide) 0 0 0).trans (getF_setF_within u Fld.swFdbStatStatus 0 ⟨by decide, by decide⟩ hn),
    getF_setF_within _ Fld.swFdbStatBusy 0 ⟨by decide, by decide⟩ (by decide), hmem, hout⟩

/-- A command that finds nothing to do shows its status, and the forwarding table stays. -/
theorem fdbEnds_of_exec {s : State} {i : Instr} {n : Nat} (h : exec i s = .next (fdbStat s n)) (hn : n < 8) :
    ∃ u, exec i s = .next u ∧ FdbStatus s u n ∧ u.truss = s.truss :=
  ⟨_, h, fdbStatus_fdbStat hn rfl rfl, rfl⟩

section
variable {s : State} {req : Requester} {vlan : Nat} {e : FdbEnt} (hmode : mode s = 1) (hpf : Requester.isPf req = true)
include hmode hpf

theorem exec_fdbAddStatic_badPort (hport : 0x27F < getF s Fld.swFdbPort 0) : exec (.fdbAddStatic req vlan) s = .next (fdbStat s cmdBadArg) := by
  show execFdbAddStatic req vlan s = _
  simp only [execFdbAddStatic, trussWrite_pf hmode hpf, if_pos hport]

theorem exec_fdbAddStatic_held (hport : getF s Fld.swFdbPort 0 ≤ 0x27F) (he : fdbOf s (fdbArg s vlan) = some e) (hstatic : e.static = true) :
    exec (.fdbAddStatic req vlan) s = .next (fdbStat s cmdExists) := by
  show execFdbAddStatic req vlan s = _
  simp only [execFdbAddStatic, trussWrite_pf hmode hpf, if_neg (not_lt.2 hport), he, hstatic, Bool.or_true, if_true]

theorem exec_fdbAddStatic_free (hport : getF s Fld.swFdbPort 0 ≤ 0x27F) (hv : vportByKey s (fdbArg s vlan) = none)
    (he : fdbOf s (fdbArg s vlan) = none) : exec (.fdbAddStatic req vlan) s = .next (fdbStat (setFdb s (Tab.put s.truss.fdb (fdbArg s vlan)
      { port := getF s Fld.swFdbPort 0, static := true, flapping := false, moves := [], hitAt := s.ftime })) cmdOk) := by
  show execFdbAddStatic req vlan s = _
  simp only [execFdbAddStatic, trussWrite_pf hmode hpf, if_neg (not_lt.2 hport), hv, he, Option.isSome_none, Bool.or_false, Bool.false_eq_true,
    if_false]

theorem exec_fdbDelete_absent (he : fdbOf s (fdbArg s vlan) = none) : exec (.fdbDelete req vlan) s = .next (fdbStat s cmdNotFound) := by
  show execFdbDelete req vlan s = _
  simp only [execFdbDelete, trussWrite_pf hmode hpf, he, Option.isNone_none, if_true]

theorem exec_fdbDelete_present (he : fdbOf s (fdbArg s vlan) = some e) :
    exec (.fdbDelete req vlan) s = .next (fdbStat (setFdb s (Tab.del s.truss.fdb (fdbArg s vlan))) cmdOk) := by
  show execFdbDelete req vlan s = _
  simp only [execFdbDelete, trussWrite_pf hmode hpf, he, Option.isNone_some, Bool.false_eq_true, if_false]

theorem exec_fdbClearFlap_absent (he : fdbOf s (fdbArg s vlan) = none) : exec (.fdbClearFlap req vlan) s = .next (fdbStat s cmdNotFound) := by
  show execFdbClearFlap req vlan s = _
  simp only [execFdbClearFlap, trussWrite_pf hmode hpf, he]

theorem exec_fdbClearFlap_present (he : fdbOf s (fdbArg s vlan) = some e) : exec (.fdbClearFlap req vlan) s =
    .next (fdbStat (setFdb s (Tab.put s.truss.fdb (fdbArg s vlan) { e with flapping := false, moves := [], hitAt := s.ftime })) cmdOk) := by
  show execFdbClearFlap req vlan s = _
  simp only [execFdbClearFlap, trussWrite_pf hmode hpf, he]

theorem exec_fdbLookup_absent (hv : vportByKey s (fdbArg s vlan) = none) (he : fdbOf s (fdbArg s vlan) = none) :
    exec (.fdbLookup req vlan) s = .next (fdbStat s cmdNotFound) := by
  show execFdbLookup req vlan s = _
  simp only [execFdbLookup, trussWrite_pf hmode hpf, whereIs_of_not_vport hv, he, Option.map_none]

/-- SW_FDB_STAT as FDB_LOOKUP leaves it for an entry. -/
def fdbShown (s : State) (e : FdbEnt) : State :=
  fdbStat (setF (setF (setF s Fld.swFdbStatPort 0 e.port) Fld.swFdbStatStatic 0 (if e.static then 1 else 0)) Fld.swFdbStatFlapping 0
    (if e.flapping then 1 else 0)) cmdOk

theorem exec_fdbLookup_present (hv : vportByKey s (fdbArg s vlan) = none) (he : fdbOf s (fdbArg s vlan) = some e) :
    exec (.fdbLookup req vlan) s = .next (fdbShown s e) := by
  show execFdbLookup req vlan s = _
  simp only [execFdbLookup, trussWrite_pf hmode hpf, whereIs_of_not_vport hv, he, Option.map_some, fdbShown]

theorem exec_fdbFlush_pf : exec (.fdbFlush req) s =
    .next (fdbStat (setFdb s (s.truss.fdb.filter (fun x => x.2.static || x.2.port != getF s Fld.swFdbPort 0))) cmdOk) :=
  congrArg _ (trussWrite_pf hmode hpf _)

end

theorem fdbShown_status (s : State) (e : FdbEnt) : FdbStatus s (fdbShown s e) 0 :=
  fdbStatus_fdbStat (by decide) (by rw [setF_mem, setF_mem, setF_mem]) (by rw [setF_out, setF_out, setF_out])

theorem fdbShown_truss (s : State) (e : FdbEnt) : (fdbShown s e).truss = s.truss := by
  rw [fdbShown, fdbStat, setF_truss, setF_truss, setF_truss, setF_truss, setF_truss]

/-- The fields of SW_FDB_STAT that describe an entry. -/
theorem getF_fdbShown (s : State) {e : FdbEnt} (h : e.port < 1024) : getF (fdbShown s e) Fld.swFdbStatPort 0 = e.port ∧
    getF (fdbShown s e) Fld.swFdbStatStatic 0 = (if e.static then 1 else 0) ∧
    getF (fdbShown s e) Fld.swFdbStatFlapping 0 = (if e.flapping then 1 else 0) := by
  have hbit (b : Bool) : (if b then 1 else 0) < 2 := by cases b <;> decide
  refine ⟨?_, ?_, ?_⟩ <;> simp (disch := decide) only [fdbShown, fdbStat, getF_setF_of_apart]
  · exact getF_setF_within s Fld.swFdbStatPort 0 ⟨by decide, by decide⟩ h
  · exact getF_setF_within _ Fld.swFdbStatStatic 0 ⟨by decide, by decide⟩ (hbit e.static)
  · exact getF_setF_within _ Fld.swFdbStatFlapping 0 ⟨by decide, by decide⟩ (hbit e.flapping)

/-! ### Sub-ports (09 R270; 10 Table 10.14) -/

theorem mem_insertNat {a n : Nat} {l : List Nat} : a ∈ insertNat n l ↔ a = n ∨ a ∈ l := by
  induction l with
  | nil => rw [insertNat, List.mem_cons]
  | cons x xs ih =>
    rw [insertNat]
    split
    · exact List.mem_cons
    · split
      · next heq => rw [heq, List.mem_cons, or_self_left]
      · rw [List.mem_cons, ih, List.mem_cons, or_left_comm]

section
variable {s : State} {port : Nat}

theorem portUp_iff {p : Nat} : portUp s p = true ↔ p ∈ s.truss.portsUp := List.contains_iff_mem

/-- One more sub-port up. -/
def portRaised (s : State) (port : Nat) : State := { s with truss := { s.truss with portsUp := insertNat port s.truss.portsUp } }

/-- A sub-port down: what waited to leave by it is gone, and its pause state with it. -/
def portLowered (s : State) (port : Nat) : State :=
  { s with
    truss := { s.truss with portsUp := s.truss.portsUp.filter (· != port) }
    xpt := { s.xpt with pfc := Tab.keep (fun k => k / 8 != port) s.xpt.pfc, egress := s.xpt.egress.filter (fun e => e.1 != port) } }

theorem portUp_portRaised (q : Nat) : portUp (portRaised s port) q = true ↔ q = port ∨ portUp s q = true := by
  rw [portUp_iff, portUp_iff]
  exact mem_insertNat

theorem portUp_portLowered (q : Nat) : portUp (portLowered s port) q = true ↔ portUp s q = true ∧ q ≠ port := by
  rw [portUp_iff, portUp_iff]
  exact List.mem_filter.trans (and_congr_right' bne_iff_ne)

theorem mem_egress_portLowered (x : Nat × Nat × Out) : x ∈ (portLowered s port).xpt.egress ↔ x ∈ s.xpt.egress ∧ x.1 ≠ port :=
  List.mem_filter.trans (and_congr_right' bne_iff_ne)

theorem exec_linkUp_raises (hdown : portUp s port = false) (hexists : portExists s port = true) : exec (.linkUp port) s =
    .next (poolsSettle (limitWake (limitWake (limitWake (raiseD (portRaised s port) srcXpt { code := 0x0502, aux8 := port }) 76) 64)
      (65 + getF (raiseD (portRaised s port) srcXpt { code := 0x0502, aux8 := port }) Fld.trussPortCfgPipe port))) := by
  show execLinkUp port s = _
  rw [execLinkUp, hdown, hexists]
  rfl

theorem exec_linkUp_other (h : portUp s port = true ∨ portExists s port = false) : exec (.linkUp port) s = .next s := by
  have hskip : (portUp s port || !portExists s port) = true := by
    rw [Bool.or_eq_true, Bool.not_eq_true']
    exact h
  exact congrArg _ (if_pos hskip)

theorem exec_linkDown_lowers (hup : portUp s port = true) :
    exec (.linkDown port) s = .next (poolsSettle (raiseD (portLowered s port) srcXpt { code := 0x0501, aux8 := port })) := by
  show execLinkDown port s = _
  rw [execLinkDown, hup]
  rfl

theorem exec_linkDown_down (hdown : portUp s port = false) : exec (.linkDown port) s = .next s := by
  show execLinkDown port s = _
  rw [execLinkDown, hdown]
  rfl

end

/-! ### The statement -/

/-- Settles O43: each clause is the law above of the learn, the command or the sub-port's event that it speaks of. -/
theorem switchSteps : Obligations.SwitchSteps := by
  unfold Obligations.SwitchSteps
  intro s req tid ts port key vlan mac p e m1 m2 m3 t4 p4 hport64 s0
  refine ⟨fun hq hv => ⟨fun he hroom => ?_, fun he => ⟨fun hsame => ?_, fun hport hstatic => ?_, fun hport hstatic hflap => ?_,
      fun hport hstatic hflap hmoves => ?_, fun hport hstatic hflap hmoves hsoon => ?_⟩⟩,
    fun hq hv => (exec_learn_one hq).trans (congrArg _ (learnApply_vport (s := learnsTaken s) hv)),
    fun a b hq hbefore => by rw [hq, learnNext_pair hbefore], exec_learn_none,
    fun he => ⟨fun hage hstatic hflap => ?_, fun hkept => ?_⟩,
    fun hmode hpf => ⟨fun hport hv he => ?_, fun hport => fdbEnds_of_exec (exec_fdbAddStatic_badPort hmode hpf hport) (by decide),
      fun hport he hstatic => fdbEnds_of_exec (exec_fdbAddStatic_held hmode hpf hport he hstatic) (by decide), fun he => ?_, fun he => ?_, ?_⟩,
    fun hmode => ⟨congrArg _ (trussWrite_thread hmode tid _), congrArg _ (trussWrite_thread hmode tid _)⟩,
    fun hdown hexists => ?_, exec_linkUp_other, fun hup => ?_, exec_linkDown_down⟩
  · rw [exec_learn_one hq, learnApply_absent (s := learnsTaken s) hv he, learnNew_room (s := learnsTaken s) hroom]
    rfl
  · rw [learn_entry hq hv he, if_pos hsame]
    rfl
  · rw [learn_entry hq hv he, if_neg hport, hstatic]
    rfl
  · rw [learn_entry hq hv he, if_neg hport, hstatic, hflap]
    rfl
  · exact ⟨_, (learn_move hq hv he hport hstatic hflap).trans (congrArg _ (learnMove_early hmoves)), lookup_moved, getF_moved, rfl⟩
  · exact ⟨_, (learn_move hq hv he hport hstatic hflap).trans (congrArg _ (learnMove_fifth hmoves hsoon)), lookup_pinned p4, getF_pinned p4⟩
  · have hages : ¬ (getF s Fld.swCtlAgeS 0 = 0 ∨ e.static = true ∨ e.flapping = true) := by
      simp only [hage, hstatic, hflap, Bool.false_eq_true, or_self, not_false_eq_true]
    exact ⟨_, (exec_entryAgeing_present he).trans (congrArg _ (if_neg hages)), (lookup_aged s _ e _).trans (if_pos rfl), rfl,
      fun k hk => (lookup_aged s _ e k).trans (if_neg hk), rfl⟩
  · exact (exec_entryAgeing_present he).trans (congrArg _ (if_pos hkept))
  · exact ⟨_, exec_fdbAddStatic_free hmode hpf hport hv he, fdbStatus_fdbStat (by decide) rfl rfl, (Tab.lookup_put _ _ _ _).trans (if_pos rfl)⟩
  · exact ⟨fdbEnds_of_exec (exec_fdbDelete_absent hmode hpf he) (by decide), fdbEnds_of_exec (exec_fdbClearFlap_absent hmode hpf he) (by decide),
      fun hv => fdbEnds_of_exec (exec_fdbLookup_absent hmode hpf hv he) (by decide)⟩
  · refine ⟨⟨_, exec_fdbDelete_present hmode hpf he, fdbStatus_fdbStat (by decide) rfl rfl, (Tab.lookup_del _ _ _).trans (if_pos rfl)⟩,
      ⟨_, exec_fdbClearFlap_present hmode hpf he, fdbStatus_fdbStat (by decide) rfl rfl, (Tab.lookup_put _ _ _ _).trans (if_pos rfl)⟩,
      fun hv hnum => ?_⟩
    exact ⟨_, exec_fdbLookup_present hmode hpf hv he, fdbShown_status s e, fdbShown_truss s e, getF_fdbShown s hnum⟩
  · exact ⟨_, exec_fdbFlush_pf hmode hpf, fdbStatus_fdbStat (by decide) rfl rfl, rfl⟩
  · exact ⟨_, exec_linkUp_raises hdown hexists, (portUp_portRaised port).2 (.inl rfl),
      fun q hq => Bool.eq_iff_iff.2 ((portUp_portRaised q).trans (or_iff_right hq)), rfl⟩
  · exact ⟨_, exec_linkDown_lowers hup, Bool.eq_false_iff.2 fun h => ((portUp_portLowered port).1 h).2 rfl,
      fun q hq => Bool.eq_iff_iff.2 ((portUp_portLowered q).trans (and_iff_left hq)), mem_egress_portLowered, rfl⟩

end Sys2Proof.Machine
end

section
/-! PROOFS. Frames and copies (09 R244 to R260, R270): the parse of a header and its loop, a parse from its start, Reed's dispatch, return
and timeout, a frame from the wire and to it, a frame from a ring, and the statement assembled from them. -/

namespace Sys2Proof.Machine

/-! ### One header (09 R252) -/

section
variable {g n : List Byte} {c : Copy}

theorem hdrLen_fixed (h : nodeFlag n 0 = false) : hdrLen n c = .ok (leAt n 4 2) := by
  rw [hdrLen, h]
  rfl

theorem hdrSpan_short {hlen : Nat} (h : hlen < leAt n 2 2) : hdrSpan n c hlen = .error 1 := if_pos h

theorem hdrSpan_pastFrame {hlen : Nat} (hmin : leAt n 2 2 ≤ hlen) (h : c.frame.length < c.off + hlen) : hdrSpan n c hlen = .error 5 := by
  rw [hdrSpan, if_neg (not_lt.2 hmin), if_pos h]

theorem hdrSpan_past512 {hlen : Nat} (hmin : leAt n 2 2 ≤ hlen) (hframe : c.off + hlen ≤ c.frame.length) (h : 512 < c.off + hlen) :
    hdrSpan n c hlen = .error 4 := by
  rw [hdrSpan, if_neg (not_lt.2 hmin), if_neg (not_lt.2 hframe), if_pos h]

theorem hdrSpan_kept {hlen : Nat} (hmin : leAt n 2 2 ≤ hlen) (hframe : c.off + hlen ≤ c.frame.length) (h512 : c.off + hlen ≤ 512)
    (hnone : leAt n 0x0E 1 = 0) : hdrSpan n c hlen = .ok c.spanEnd := by
  rw [hdrSpan, if_neg (not_lt.2 hmin), if_neg (not_lt.2 hframe), if_neg (not_lt.2 h512), if_pos hnone]

theorem hdrNext_default (h : leAt n 0x14 1 = 0) : hdrNext g n c = .ok (leAt n 0x1C 2) := if_pos h

theorem parseHeader_deep (h : 24 ≤ c.depth) : parseHeader g n c = .error (3, c) := if_pos (by omega)

theorem parseHeader_badSpan {hlen e : Nat} (hdepth : c.depth < 24) (hlength : hdrLen n c = .ok hlen) (hspan : hdrSpan n c hlen = .error e) :
    parseHeader g n c = .error (e, c) := by
  simp only [parseHeader, if_neg (show ¬ 24 < c.depth + 1 by omega), hlength, hspan]

/-- A copy past a header of a length that leaves a span end and leads to a node. -/
def pastHeader (n : List Byte) (c : Copy) (hlen spanEnd next : Nat) : Copy :=
  { c with
    off := c.off + hlen
    depth := c.depth + 1
    spanEnd := spanEnd
    md := hdrExtract n c
    stack := c.stack ++ [(leAt n 0 1, c.off)]
    node := next }

theorem parseHeader_whole {hlen : Nat} (hdepth : c.depth < 24) (hlength : hdrLen n c = .ok hlen) (hspan : hdrSpan n c hlen = .ok c.spanEnd)
    (hkey : leAt n 0x14 1 = 0) : parseHeader g n c =
      .ok (pastHeader n c hlen c.spanEnd (leAt n 0x1C 2), nodeFlag n 1 || leAt n 0x1C 2 == 0xFFFE) := by
  simp only [parseHeader, if_neg (show ¬ 24 < c.depth + 1 by omega), hlength, hspan, hdrNext_default hkey, pastHeader]

/-- The port of the copy that a header leaves. -/
def portPast : Except (Nat × Copy) (Copy × Bool) → Nat
  | .error (_, d) => d.port
  | .ok (d, _) => d.port

theorem portPast_parseHeader (g n : List Byte) (c : Copy) : portPast (parseHeader g n c) = c.port := by
  unfold parseHeader
  split
  · rfl
  · split
    · rfl
    · split
      · rfl
      · dsimp only
        split <;> rfl

end

/-! ### The loop of R252 -/

section
variable {g : List Byte} {c d : Copy} (k : Nat)

theorem parseLoop_missing (h : nodeCount g ≤ c.node) : parseLoop g (k + 1) c = (c, .bad 6) := if_pos h

theorem parseLoop_reed (hnode : c.node < nodeCount g) (h : nodeFlag (nodeAt g c.node) 2 = true) : parseLoop g (k + 1) c = (c, .reed) := by
  rw [parseLoop, if_neg (not_le.2 hnode), if_pos h]

theorem parseLoop_error {e : Nat} (hnode : c.node < nodeCount g) (hplain : nodeFlag (nodeAt g c.node) 2 = false)
    (h : parseHeader g (nodeAt g c.node) c = .error (e, d)) : parseLoop g (k + 1) c = (d, .bad e) := by
  simp only [parseLoop, if_neg (not_le.2 hnode), hplain, Bool.false_eq_true, if_false, h]

theorem parseLoop_done (hnode : c.node < nodeCount g) (hplain : nodeFlag (nodeAt g c.node) 2 = false)
    (h : parseHeader g (nodeAt g c.node) c = .ok (d, true)) : parseLoop g (k + 1) c = (d, .done) := by
  simp only [parseLoop, if_neg (not_le.2 hnode), hplain, Bool.false_eq_true, if_false, h]

theorem parseLoop_port (g : List Byte) : ∀ (k : Nat) (c : Copy), (parseLoop g k c).1.port = c.port
  | 0, _ => rfl
  | k + 1, c => by
    have hport := portPast_parseHeader g (nodeAt g c.node) c
    rw [parseLoop]
    split
    · rfl
    · split
      · rfl
      · split
        case h_1 h => exact (congrArg portPast h).symm.trans hport
        case h_2 h => exact (congrArg portPast h).symm.trans hport
        case h_3 h => exact (parseLoop_port g k _).trans ((congrArg portPast h).symm.trans hport)

end

/-! ### A parse from its start (09 R247 to R253, R255) -/

/-- Ungating a domain writes what a wake source writes at most. -/
theorem WakeOnly.of_ungate (s : State) (d : Nat) : WakeOnly s (ungate s d) := by
  unfold ungate
  split
  · exact (WakeOnly.refl s).after_setF (by decide) d 0
  · exact .refl s

theorem ungate_truss (s : State) (d : Nat) : (ungate s d).truss = s.truss := by
  obtain ⟨-, g, x, h⟩ := WakeOnly.of_ungate s d
  rw [h]

theorem getF_ungate (s : State) (d : Nat) {f : Fld} (hf : f.reg ∉ wakeRegs) (i : Nat) : getF (ungate s d) f i = getF s f i :=
  (WakeOnly.of_ungate s d).getF_eq hf i

/-- A pipeline that has begun one more parse. -/
def pipeCounted (s : State) (pipe : Nat) : State := bump (ungate s (65 + pipe)) Fld.trussPipePktCnt pipe

section
variable (s : State) (pipe : Nat)

theorem pipeCounted_truss : (pipeCounted s pipe).truss = s.truss := ungate_truss s _

theorem pipeCounted_mem : (pipeCounted s pipe).mem = s.mem := (WakeOnly.of_ungate s _).mem_eq

theorem getF_pipeCounted {f : Fld} (hf : f.reg ∉ wakeRegs) (h : Fld.trussPipePktCnt.apart f) (i : Nat) :
    getF (pipeCounted s pipe) f i = getF s f i :=
  (getF_bump_of_apart _ h _ _).trans (getF_ungate s _ hf i)

theorem copyPipe_pipeCounted (c : Copy) : copyPipe (pipeCounted s pipe) c = copyPipe s c := by
  rw [copyPipe, getF_pipeCounted s pipe (by decide) (by decide), getF_pipeCounted s pipe (by decide) (by decide), copyPipe]

theorem reedWaiting_pipeCounted (p : Nat) : reedWaiting (pipeCounted s pipe) p = reedWaiting s p := by
  simp only [reedWaiting, copyPipe_pipeCounted, pipeCounted_truss]

end

/-- A copy as its parse begins. -/
def parseStart (s : State) (c : Copy) : Copy :=
  { c with version := getF s Fld.trussVerCurrent 0, node := copyStart s c, off := 0, depth := 0, spanEnd := c.frame.length, md := [], stack := [] }

/-- Where the parse of a copy comes to. -/
def parsed (s : State) (c : Copy) : Copy × ParseOut := parseLoop s.truss.graph 26 (parseStart s c)

section
variable {s : State} {k : Nat} {c : Copy} (hc : copyOf s k = some c)
include hc

theorem exec_trussParse_waiting (hstage : c.stage = 0) (hup : domUp s (65 + copyPipe s c) = true) : exec (.trussParse k) s = .next
    (if (parsed s c).2 = .reed ∧ 512 ≤ reedWaiting s (copyPipe s c) then s
    else afterParse (pipeCounted s (copyPipe s c)) k (parsed s c).1 (parsed s c).2) := by
  show execTrussParse k s = _
  have hgo : ¬ (c.stage ≠ 0 ∨ domUp s (65 + copyPipe s c) = false) := by
    simp only [hstage, hup, ne_eq, not_true, Bool.true_eq_false, or_self, not_false_eq_true]
  simp only [execTrussParse, hc, if_neg hgo]
  rfl

theorem exec_trussParse_other (hstage : c.stage ≠ 0) : exec (.trussParse k) s = .next s := by
  show execTrussParse k s = _
  simp only [execTrussParse, hc, if_pos (Or.inl hstage : c.stage ≠ 0 ∨ domUp s (65 + copyPipe s c) = false)]

theorem exec_reedDispatch_other (h : 256 ≤ reedBusy s) : exec (.reedDispatch k) s = .next s := by
  show execReedDispatch k s = _
  simp only [execReedDispatch, hc, h, true_or, or_true, if_true]

/-- The oldest copy that waits for Reed finds a processor. -/
theorem exec_reedDispatch_oldest (hstage : c.stage = 1) (hfirst : ∀ e, e ∈ s.truss.copies → e.2.stage = 1 → k ≤ e.1)
    (hfree : reedBusy s < 256) (hup : domUp s 64 = true) : exec (.reedDispatch k) s = .next (putCopy (ungate s 64) k { c with stage := 2, since := s.ftime }) := by
  have hnone : s.truss.copies.any (fun e => decide (e.1 < k) && e.2.stage == 1 && copyPipe s e.2 == copyPipe s c) = false := by
    rw [List.any_eq_false]
    intro e he hearlier
    simp only [Bool.and_eq_true, decide_eq_true_eq, beq_iff_eq] at hearlier
    obtain ⟨⟨hlt, hwaits⟩, -⟩ := hearlier
    exact absurd (hfirst e he hwaits) (not_le.2 hlt)
  show execReedDispatch k s = _
  simp only [execReedDispatch, hc, hstage, hnone, hup, not_le.2 hfree, ne_eq, not_true, Bool.false_eq_true, Bool.true_eq_false, or_self, if_false]

end

/-- A copy at a Reed node waits for a processor where the dispatch queue has room. -/
theorem afterParse_reed {s : State} {n : Nat} {c : Copy} (h : reedWaiting s (copyPipe s c) < 512) :
    afterParse s n c .reed = bump (ungate (putCopy s n { c with stage := 1 }) 64) Fld.trussReedPktCnt 0 := if_neg (not_le.2 h)

/-- A parse that comes to a Reed node hands its copy over and counts it. -/
theorem trussParse_hands_over {s : State} {k : Nat} {c : Copy} (hc : copyOf s k = some c) (hstage : c.stage = 0)
    (hup : domUp s (65 + copyPipe s c) = true) (hreed : (parsed s c).2 = .reed) (hroom : reedWaiting s (copyPipe s c) < 512) :
    ∃ u, exec (.trussParse k) s = .next u ∧ copyOf u k = some { (parsed s c).1 with stage := 1 } ∧
      getF u Fld.trussReedPktCnt 0 = (getF s Fld.trussReedPktCnt 0 + 1) % 2 ^ 64 ∧ u.mem = s.mem := by
  have hport : (parsed s c).1.port = c.port := parseLoop_port _ _ _
  have hpipe : copyPipe (pipeCounted s (copyPipe s c)) (parsed s c).1 = copyPipe s c := by
    rw [copyPipe_pipeCounted, copyPipe, hport, copyPipe]
  refine ⟨bump (ungate (putCopy (pipeCounted s (copyPipe s c)) k { (parsed s c).1 with stage := 1 }) 64) Fld.trussReedPktCnt 0, ?_, ?_, ?_, ?_⟩
  · rw [exec_trussParse_waiting hc hstage hup, if_neg fun h => not_le.2 hroom h.2, hreed,
      afterParse_reed (by rwa [hpipe, reedWaiting_pipeCounted])]
  · rw [copyOf, bump_truss, ungate_truss]
    exact (Tab.lookup_put _ _ _ _).trans (if_pos rfl)
  · rw [getF_bump_same _ _ _ ⟨by decide, by decide⟩, getF_ungate _ _ (by decide)]
    exact congrArg (fun x => (x + 1) % 2 ^ 64) (getF_pipeCounted s _ (f := Fld.trussReedPktCnt) (by decide) (by decide) 0)
  · rw [bump_mem, (WakeOnly.of_ungate _ _).mem_eq]
    exact pipeCounted_mem s _

/-! ### What a Reed program comes to (09 R257 to R260) -/

section
variable {s : State} {k : Nat} {c : Copy}

theorem reedReturn_breach {n g1 g4 g5 g6 cls : Nat} (h : returnBreach s.truss.graph c n g1 g4 g5 g6 = some cls) :
    reedReturn s k c n g1 g4 g5 g6 = afterParse s k c (.bad cls) := by
  simp only [reedReturn, h]

/-- The numbers of a return that R259 turns away before it looks at the frame. -/
def BadNumbers (c : Copy) (n g1 g5 g6 : Nat) : Prop := 2 < n ∨ g6 < 1 ∨ 8 < g6 ∨ g1 < c.off ∨ (n = 2 ∧ (g5 < 1 ∨ 6 < g5))

section
variable {g : List Byte} {n g1 g4 g5 g6 : Nat}

theorem returnBreach_numbers (h : BadNumbers c n g1 g5 g6) : returnBreach g c n g1 g4 g5 g6 = some 8 := if_pos h

theorem returnBreach_good (hnum : ¬ BadNumbers c n g1 g5 g6) : returnBreach g c n g1 g4 g5 g6 =
    (if 24 < c.depth + g6 then some 3
    else if c.frame.length < g1 then some 5
    else if 512 < g1 then some 4
    else if c.spanEnd < g4 ∨ g4 < g1 then some 2
    else if n = 0 ∧ nodeCount g ≤ g5 then some 6
    else none) := if_neg hnum

theorem returnBreach_depth (hnum : ¬ BadNumbers c n g1 g5 g6) (h : 24 < c.depth + g6) : returnBreach g c n g1 g4 g5 g6 = some 3 := by
  rw [returnBreach_good hnum, if_pos h]

theorem returnBreach_frame (hnum : ¬ BadNumbers c n g1 g5 g6) (hdepth : c.depth + g6 ≤ 24) (h : c.frame.length < g1) :
    returnBreach g c n g1 g4 g5 g6 = some 5 := by
  rw [returnBreach_good hnum, if_neg (not_lt.2 hdepth), if_pos h]

theorem returnBreach_past512 (hnum : ¬ BadNumbers c n g1 g5 g6) (hdepth : c.depth + g6 ≤ 24) (hframe : g1 ≤ c.frame.length) (h : 512 < g1) :
    returnBreach g c n g1 g4 g5 g6 = some 4 := by
  rw [returnBreach_good hnum, if_neg (not_lt.2 hdepth), if_neg (not_lt.2 hframe), if_pos h]

/-- A return that is good up to the offset it gives. -/
theorem returnBreach_offset (hnum : ¬ BadNumbers c n g1 g5 g6) (hdepth : c.depth + g6 ≤ 24) (hframe : g1 ≤ c.frame.length) (h512 : g1 ≤ 512) :
    returnBreach g c n g1 g4 g5 g6 =
      (if c.spanEnd < g4 ∨ g4 < g1 then some 2 else if n = 0 ∧ nodeCount g ≤ g5 then some 6 else none) := by
  rw [returnBreach_good hnum, if_neg (not_lt.2 hdepth), if_neg (not_lt.2 hframe), if_neg (not_lt.2 h512)]

end

/-- A copy past the headers that a program has taken. -/
def pastProgram (g : List Byte) (c : Copy) (g1 g4 g5 g6 : Nat) : Copy :=
  { c with depth := c.depth + g6, spanEnd := g4, off := g1, node := g5, stack := c.stack ++ [(leAt (nodeAt g c.node) 0 1, c.off)] }

theorem reedReturn_sound {n g1 g4 g5 g6 : Nat} (h : returnBreach s.truss.graph c n g1 g4 g5 g6 = none) :
    reedReturn s k c n g1 g4 g5 g6 = (if n = 2 then afterParse s k c (.bad g5)
      else if n = 1 then afterParse s k (pastProgram s.truss.graph c g1 g4 g5 g6) .done
      else afterParse s k (parseLoop s.truss.graph 26 (pastProgram s.truss.graph c g1 g4 g5 g6)).1
        (parseLoop s.truss.graph 26 (pastProgram s.truss.graph c g1 g4 g5 g6)).2) := by
  simp only [reedReturn, h]
  rfl

/-- The metadata of a program that is ended while it runs: how far it has come is free. -/
def freeMetadata (s : State) : Tab Byte :=
  (List.range 128).foldl (fun t i => Tab.store 0 t i (BitVec.ofNat 8 (Config.freeDword (s.freeCtr + i)).toNat)) []

variable (hc : copyOf s k = some c)
include hc

theorem exec_reedReturn_ret (hstage : c.stage = 2) {run : ReedRun}
    (hrun : reedProgram s.truss.reedProgs (leAt (nodeAt s.truss.graph c.node) 0x15 1) c = run) {n g1 g4 g5 g6 : Nat}
    (hret : run.how = .ret n g1 g4 g5 g6) : exec (.reedReturn k) s = .next (reedReturn s k { c with md := run.md } n g1 g4 g5 g6) := by
  show execReedReturn k s = _
  simp only [execReedReturn, hc, hstage, ne_eq, not_true, if_false, hrun, hret]

theorem exec_reedReturn_bad (hstage : c.stage = 2) {run : ReedRun}
    (hrun : reedProgram s.truss.reedProgs (leAt (nodeAt s.truss.graph c.node) 0x15 1) c = run) {cls : Nat} (hbad : run.how = .bad cls) :
    exec (.reedReturn k) s = .next (afterParse (reedLast s c run.cause) k { c with md := run.md } (.bad cls)) := by
  show execReedReturn k s = _
  simp only [execReedReturn, hc, hstage, ne_eq, not_true, if_false, hrun, hbad]

theorem exec_reedReturn_other (hstage : c.stage ≠ 2) : exec (.reedReturn k) s = .next s := by
  show execReedReturn k s = _
  simp only [execReedReturn, hc, if_pos hstage]

theorem exec_reedTimeout_other (hstage : c.stage ≠ 2) : exec (.reedTimeout k) s = .next s := by
  show execReedTimeout k s = _
  simp only [execReedTimeout, hc, if_pos hstage]

/-- 4 µs past its dispatch a program that still runs is ended; its metadata are free values. -/
theorem reedTimeout_running (hstage : c.stage = 2) : ∃ u d, exec (.reedTimeout k) s = .next (afterParse u k d (.bad 7)) ∧
    u.ftime = Nat.max s.ftime (c.since + 4000) ∧ d = { c with md := d.md } ∧ u.regs = s.regs := by
  refine ⟨{ reach s (c.since + 4000) with freeCtr := s.freeCtr + 128 }, { c with md := freeMetadata s }, ?_, rfl, rfl, rfl⟩
  show execReedTimeout k s = _
  simp only [execReedTimeout, hc, hstage, ne_eq, not_true, if_false, reach_freeCtr, freeMetadata]

end

theorem leAt_lt (bs : List Byte) (off n : Nat) : leAt bs off n < 2 ^ (8 * n) :=
  (leNat_lt _).trans_le (Nat.pow_le_pow_right (by decide) (Nat.mul_le_mul_left 8 (List.length_take_le n _)))

/-- The cause and the program of a trap, as TRUSS_REED_LAST keeps them. -/
theorem getF_reedLast (s : State) (c : Copy) (cause : Nat) :
    getF (reedLast s c (some cause)) Fld.trussReedLastCause 0 = cause % 32 ∧
    getF (reedLast s c (some cause)) Fld.trussReedLastProgram 0 = leAt (nodeAt s.truss.graph c.node) 0x15 1 :=
  ⟨(getF_setF_of_apart _ (by decide) 0 0 _).trans (getF_setF_same s Fld.trussReedLastCause 0 _ ⟨by decide, by decide⟩),
    getF_setF_within _ Fld.trussReedLastProgram 0 ⟨by decide, by decide⟩ (leAt_lt _ _ 1)⟩

/-! ### A frame from the wire (09 R244, R245, R248; 10 R311, R312) -/

section
variable {s : State} {port ts : Nat} {frame : List Byte}

theorem exec_frameReceived_down (hdown : portUp s port = false) : exec (.frameReceived port ts frame true) s = .next s := by
  show execFrameReceived port ts frame true s = _
  rw [execFrameReceived, hdown]
  rfl

theorem exec_frameReceived_bad {fcsOk : Bool} (hup : portUp s port = true) (h : fcsOk = false ∨ frame.length < 60 ∨ 9212 < frame.length) :
    exec (.frameReceived port ts frame fcsOk) s = .next (bump (ungate s 76) Fld.swRxErrCnt port) := by
  have hbad : (!fcsOk) = true ∨ frame.length + 4 < 64 ∨ 9216 < frame.length + 4 := by
    rw [Bool.not_eq_true']
    exact h.imp_right (Or.imp (by omega) (by omega))
  show execFrameReceived port ts frame fcsOk s = _
  simp only [execFrameReceived, hup, Bool.not_true, Bool.false_eq_true, if_false, if_pos hbad]

/-- A frame that the MAC's checks and the storm check let pass. -/
theorem exec_frameReceived_sound (hup : portUp s port = true) (hmin : 60 ≤ frame.length) (hmax : frame.length ≤ 9212)
    (hstorm : stormDrops s port (framePrio frame) = false) : exec (.frameReceived port ts frame true) s = .next
      (if bufferDrops s port (framePrio frame) frame.length then bump (ungate s 76) Fld.swRxDropCnt port
      else if flagF s Fld.swPortCfgLearn port && spoofed (ungate s 76) port frame then bump (ungate s 76) Fld.swSpoofCnt 0
      else switchFrame (if flagF s Fld.swPortCfgLearn port then learnAsk (ungate s 76) ts port (fdbKey (frameVlan frame) (srcMac frame))
        else ungate s 76) port (framePrio frame) frame) := by
  have hgood : ¬ (frame.length + 4 < 64 ∨ 9216 < frame.length + 4) := by omega
  have hlearn : flagF (ungate s 76) Fld.swPortCfgLearn port = flagF s Fld.swPortCfgLearn port := by
    rw [flagF, getF_ungate s 76 (by decide), flagF]
  show execFrameReceived port ts frame true s = _
  simp only [execFrameReceived, hup, Bool.not_true, Bool.false_eq_true, if_false, false_or, if_neg hgood, hstorm, hlearn]

end

/-! ### A frame to the wire (09 R245; 10 R311, R312, R314) -/

section
variable {s : State} {p q : Nat}

/-- A frame without an IP header leaves as it is. -/
theorem frameSend_noIp {f : List Byte} (h : ipAt f = none) : frameSend s (.frame p f) = emit s (.frame p f) := by
  simp only [frameSend, ceOut, h]

/-- At an egress where nothing waits and the priority cannot be paused, what arrives is discarded in a storm or leaves at once. -/
theorem egressOut_free (hup : portUp s p = true) (hpfc : pfcOn s p q = false) (hempty : s.xpt.egress = []) (o : Out) :
    egressOut s p q o = if stormOut s p q then bumpN s Fld.xptStormDropCnt 0 1 else frameSend s o := by
  have hqueued : egressOut s p q o = egressFlush { s with xpt := { s.xpt with egress := [(p, q, o)] } } p q := by
    simp only [egressOut, hup, hempty, Bool.not_true, Bool.false_eq_true, if_false, List.nil_append]
  have hopen : egressPaused { s with xpt := { s.xpt with egress := [(p, q, o)] } } p q = false := by
    rw [egressPaused, show pfcOn { s with xpt := { s.xpt with egress := [(p, q, o)] } } p q = false from hpfc, Bool.false_and, Bool.false_and]
  have hback : ({ s with xpt := { s.xpt with egress := [] } } : State) = s := by rw [← hempty]
  rw [hqueued, egressFlush, hopen]
  simp only [Bool.false_eq_true, if_false, List.filter_cons, List.filter_nil, beq_self_eq_true, Bool.and_self, Bool.not_true, if_true, hback,
    List.length_singleton, List.foldl_cons, List.foldl_nil]

theorem switchFrame_single {src : Nat} {f : List Byte} (hto : forwardTo s src f = [p]) (hext : p < 64) :
    switchFrame s src q f = frameOut s p q f := by
  rw [switchFrame, hto, List.foldl_cons, List.foldl_nil, isExternal, if_pos (decide_eq_true hext)]

end

/-! ### A frame from a ring (09 R246, R270) -/

section
variable {s : State} {n : Nat} {o : Op} (ho : opOf s n = some o) (hop : o.opcode = 0x0200) (hst : o.st = .admitted)
include ho hop hst

theorem exec_txDone_failed {failed : Nat} (h : failed ≠ 0) (host : List Byte) : exec (.txDone n host failed) s = .next (dataError s n failed) := by
  show execTxDone n host failed s = _
  simp only [execTxDone, running_admitted ho hop hst, if_pos h]

/-- A TX from device memory, whose frame `f` is: its checks in their order, and the frame that the switch takes. -/
theorem exec_txDone_hbm (hsrc : classOf (leAt o.body 0 8) = some .hbm) {f : List Byte}
    (hf : txFrame o (readBytes s (leAt o.body 0 8) (txLen o)) = f) (host : List Byte) : exec (.txDone n host 0) s = .next
      (if flagF s Fld.swVportCfgAntiSpoof (ringVport s o.qp) && srcMac f != vportMac s (ringVport s o.qp) then finishOp s n 0x43 0 0
      else if portDown s (ringVport s o.qp) f then finishOp s n 0x42 0 0
      else if (forwardTo s (ringVport s o.qp) f).any (fun p => isExternal p && egressPaused s p (txPrio o)) then s
      else finishOp (switchFrame (ungate (putOp s n { o with st := .committed }) 76) (ringVport s o.qp) (txPrio o) f) n 0 f.length 0) := by
  show execTxDone n host 0 s = _
  simp only [execTxDone, running_admitted ho hop hst, rangeReach_hbm hsrc, sourceBytes_hbm hsrc, holdRange_hbm hsrc, hf, finishOk, ne_eq, not_true,
    if_false]

end

/-- A TX that asks for no checksum and no tag sends its bytes, padded to 60. -/
theorem txFrame_plain {o : Op} (h : leAt o.body 12 2 % 8 = 0) (bs : List Byte) : txFrame o bs = bs ++ List.replicate (60 - bs.length) 0 := by
  have hflag {k : Nat} (hk : leAt o.body 12 2 / 2 ^ k % 2 = 0) : txFlag o k = false := by
    rw [txFlag, bitN, hk]
    rfl
  simp only [txFrame, hflag (k := 0) (by omega), hflag (k := 1) (by omega), hflag (k := 2) (by omega), Bool.false_eq_true, if_false]

/-- A command that comes to a program's return: the checks of R259 in their order, and where the parse goes on. -/
theorem return_checked {i : Instr} {s : State} {k : Nat} {c : Copy} {m g1 g4 g5 g6 : Nat}
    (hexec : exec i s = .next (reedReturn s k c m g1 g4 g5 g6)) :
    let ends (x : ParseOut) : Prop := exec i s = .next (afterParse s k c x)
    let first : Prop := BadNumbers c m g1 g5 g6
    let d : Copy := pastProgram s.truss.graph c g1 g4 g5 g6
    (first → ends (.bad 8)) ∧ (¬ first → 24 < c.depth + g6 → ends (.bad 3)) ∧
    (¬ first → c.depth + g6 ≤ 24 → c.frame.length < g1 → ends (.bad 5)) ∧
    (¬ first → c.depth + g6 ≤ 24 → g1 ≤ c.frame.length → 512 < g1 → ends (.bad 4)) ∧
    (¬ first → c.depth + g6 ≤ 24 → g1 ≤ c.frame.length → g1 ≤ 512 → (c.spanEnd < g4 ∨ g4 < g1) → ends (.bad 2)) ∧
    (¬ first → c.depth + g6 ≤ 24 → g1 ≤ c.frame.length → g1 ≤ 512 → g4 ≤ c.spanEnd → g1 ≤ g4 →
      (m = 0 → nodeCount s.truss.graph ≤ g5 → ends (.bad 6)) ∧
      (m = 0 → g5 < nodeCount s.truss.graph → exec i s =
        .next (afterParse s k (parseLoop s.truss.graph 26 d).1 (parseLoop s.truss.graph 26 d).2)) ∧
      (m = 2 → ends (.bad g5)) ∧ (m = 1 → exec i s = .next (afterParse s k d .done))) := by
  intro ends first d
  have hends {cls : Nat} (h : returnBreach s.truss.graph c m g1 g4 g5 g6 = some cls) : ends (.bad cls) := by
    rw [reedReturn_breach h] at hexec
    exact hexec
  refine ⟨fun h => hends (returnBreach_numbers h), fun hnum h => hends (returnBreach_depth hnum h),
    fun hnum hdepth h => hends (returnBreach_frame hnum hdepth h), fun hnum hdepth hframe h => hends (returnBreach_past512 hnum hdepth hframe h),
    fun hnum hdepth hframe h512 h => hends ((returnBreach_offset hnum hdepth hframe h512).trans (if_pos h)),
    fun hnum hdepth hframe h512 hspan hfrom => ?_⟩
  have hoffset : returnBreach s.truss.graph c m g1 g4 g5 g6 = if m = 0 ∧ nodeCount s.truss.graph ≤ g5 then some 6 else none :=
    (returnBreach_offset hnum hdepth hframe h512).trans (if_neg (not_or.2 ⟨not_lt.2 hspan, not_lt.2 hfrom⟩))
  have hsound (h : ¬ (m = 0 ∧ nodeCount s.truss.graph ≤ g5)) := reedReturn_sound (k := k) (hoffset.trans (if_neg h))
  refine ⟨fun hm hnode => hends (hoffset.trans (if_pos ⟨hm, hnode⟩)), fun hm hnode => ?_, fun hm => ?_, fun hm => ?_⟩
  · rw [hexec, hsound (by omega), if_neg (by omega), if_neg (by omega)]
  · rw [hsound (by omega), if_pos hm] at hexec
    exact hexec
  · rw [hexec, hsound (by omega), if_neg (by omega), if_pos hm]

/-! ### The statement -/

/-- Settles O41: each clause is the law above of the parse, the Reed program or the frame that it speaks of. -/
theorem framesParsedAndSent : Obligations.FramesParsedAndSent := by
  unfold Obligations.FramesParsedAndSent
  intro s k port ts p n c o frame host
  refine ⟨fun hc => ?_, ?_, fun ho hop hst => ?_⟩
  · intro g pipe nd c0 run
    have hparsed (hstage : c.stage = 0) : parsed s c = parseLoop g 26 c0 := congrArg (parseLoop g 26) (by rw [parseStart, hstage])
    refine ⟨fun hstage hup hplain => ?_, fun hstage hup hreed hroom => ?_, exec_trussParse_other hc, parseLoop_missing 25, parseLoop_reed 25,
      fun hnode hplain hfixed => ⟨fun hdeep => parseLoop_error 25 hnode hplain (parseHeader_deep hdeep), fun hdepth hshort => ?_,
        fun hdepth hmin hframe => ?_, fun hdepth hmin hframe h512 => ?_, fun hdepth hmin hframe h512 hspan hkey hends => ?_⟩,
      exec_reedDispatch_oldest hc, fun _ => exec_reedDispatch_other hc,
      fun hstage m g1 g4 g5 g6 hret => ?_,
      fun hstage cls cause hbad hcause => ⟨reedLast s c (some cause), ?_, getF_reedLast s c cause⟩, reedTimeout_running hc,
      fun hstage => ⟨exec_reedReturn_other hc hstage, exec_reedTimeout_other hc hstage⟩⟩
    · rw [← hparsed hstage] at hplain ⊢
      rw [exec_trussParse_waiting hc hstage hup, if_neg fun h => hplain h.1]
      rfl
    · rw [← hparsed hstage] at hreed ⊢
      exact trussParse_hands_over hc hstage hup hreed hroom
    · exact parseLoop_error 25 hnode hplain (parseHeader_badSpan hdepth (hdrLen_fixed hfixed) (hdrSpan_short hshort))
    · exact parseLoop_error 25 hnode hplain (parseHeader_badSpan hdepth (hdrLen_fixed hfixed) (hdrSpan_pastFrame hmin hframe))
    · exact parseLoop_error 25 hnode hplain (parseHeader_badSpan hdepth (hdrLen_fixed hfixed) (hdrSpan_past512 hmin hframe h512))
    · have hheader := parseHeader_whole (g := g) hdepth (hdrLen_fixed hfixed) (hdrSpan_kept hmin hframe h512 hspan) hkey
      rw [hends, Bool.true_or] at hheader
      exact ⟨_, parseLoop_done 25 hnode hplain hheader, rfl, rfl, rfl, rfl, rfl⟩
    · have hchecks := return_checked (exec_reedReturn_ret hc hstage (run := run) rfl hret)
      exact hchecks
    · rw [← hcause]
      exact exec_reedReturn_bad hc hstage (run := run) rfl hbad
  · intro q
    refine ⟨exec_frameReceived_down, fun hup => exec_frameReceived_bad hup (.inl rfl), fun hup hlen => exec_frameReceived_bad hup (.inr hlen),
      fun hup hmin hmax hstorm => ⟨fun hdrop => ?_, fun hkeep hlearn => ?_, fun hkeep hlearn hown => ?_, fun hkeep hlearn hspoof => ?_⟩,
      fun hto hext hup hip hpfc hempty => ?_⟩
    · rw [exec_frameReceived_sound hup hmin hmax hstorm, if_pos hdrop]
    · rw [exec_frameReceived_sound hup hmin hmax hstorm, hkeep, flagF_eq_false hlearn]
      rfl
    · rw [exec_frameReceived_sound hup hmin hmax hstorm, hkeep, flagF_eq_true hlearn, hown]
      rfl
    · rw [exec_frameReceived_sound hup hmin hmax hstorm, hkeep, flagF_eq_true hlearn, hspoof]
      rfl
    · rw [switchFrame_single hto hext, frameOut, egressOut_free hup hpfc hempty, frameSend_noIp hip]
      rfl
  · intro a len v f
    refine ⟨fun hsrc hflags => ?_, exec_txDone_failed ho hop hst (by decide) host, exec_txDone_failed ho hop hst (by decide) host⟩
    have hf : txFrame o (readBytes s a (txLen o)) = f := by rw [txFrame_plain hflags, readBytes_length]; rfl
    have hlen : f.length = Nat.max len 60 := by
      rw [List.length_append, readBytes_length, List.length_replicate]
      show len + (60 - len) = max len 60
      omega
    refine ⟨fun hanti hmac => ?_, fun hanti hdown => ?_, fun hanti hup hopen => ⟨_, ?_, rfl⟩⟩
    · rw [exec_txDone_hbm ho hop hst hsrc hf, flagF_eq_true hanti, Bool.true_and, if_pos (bne_iff_ne.2 hmac)]
    · rw [exec_txDone_hbm ho hop hst hsrc hf, flagF_eq_false hanti, hdown]
      rfl
    · rw [exec_txDone_hbm ho hop hst hsrc hf, flagF_eq_false hanti, hup, hopen, hlen]
      rfl

end Sys2Proof.Machine
end

section
/-! PROOFS. Nawyn links as the state holds them, and the arrival of a message (11 R328, R333 to R335): what a link reads as after a change,
how the flits of a message are taken, and where a message goes from there. -/

namespace Sys2Proof.Machine

/-! ### A link after a change -/

section
variable (s : State) (l : Nat)

@[simp] theorem linkOf_setLink_same (x : Link) : linkOf (setLink s l x) l = x := Tab.get_store_same _ _ _ _
@[simp] theorem linkOf_setF (f : Fld) (i n : Nat) : linkOf (setF s f i n) l = linkOf s l := rfl

@[simp] theorem getF_setLink (x : Link) (f : Fld) (i : Nat) : getF (setLink s l x) f i = getF s f i := rfl
@[simp] theorem setLink_mem (x : Link) : (setLink s l x).mem = s.mem := rfl
@[simp] theorem setLink_ftime (x : Link) : (setLink s l x).ftime = s.ftime := rfl

end

/-! ### The flits of a message (11 R328 to R330) -/

section
variable (s : State) (m : NHdr) (n : Nat)

/-- The flits of a message are counted and taken, and their credits are returned; the acknowledgement that came with them has yet to take
effect. -/
def flitsTaken : State :=
  setLink (bumpN (bumpN s Fld.nawynFlitRxCnt m.link n) Fld.nawynFecCorrCnt m.link m.corr) m.link
    { linkOf s m.link with
      rxSeq := ((linkOf s m.link).rxSeq + n) % 1024, rxAny := true, nakSent := false
      crRet := Tab.store 0 (linkOf s m.link).crRet m.tc ((Tab.get 0 (linkOf s m.link).crRet m.tc + n) % 256) }

theorem takeFlits_eq : takeFlits s m n =
    idleFlit (measureLate (ackEffects (flitsTaken s m n) m.link m.fa) m.link m.tc m.crs m.src) m.link := rfl

theorem linkOf_flitsTaken : (linkOf (flitsTaken s m n) m.link).rxSeq = ((linkOf s m.link).rxSeq + n) % 1024 ∧
    (linkOf (flitsTaken s m n) m.link).nakSent = false ∧
    Tab.get 0 (linkOf (flitsTaken s m n) m.link).crRet m.tc = (Tab.get 0 (linkOf s m.link).crRet m.tc + n) % 256 := by
  simp only [flitsTaken, linkOf_setLink_same, Tab.get_store_same, and_self]

theorem getF_flitsTaken_rxCnt : getF (flitsTaken s m n) Fld.nawynFlitRxCnt m.link = (getF s Fld.nawynFlitRxCnt m.link + n) % 2 ^ 64 := by
  rw [flitsTaken, getF_setLink, bumpN, getF_setF_of_apart _ (by decide)]
  exact getF_setF_same s Fld.nawynFlitRxCnt m.link _ ⟨by decide, by decide⟩

theorem flitsTaken_mem : (flitsTaken s m n).mem = s.mem := rfl

end

/-! ### Where a message goes (11 R333 to R335) -/

/-- The flits of a message with `len` bytes of payload have come and taken their effects. -/
abbrev messageTaken (s : State) (m : NHdr) (len : Nat) : State := takeFlits s m (msgFlits len)

/-- A routed message with `len` bytes of payload comes by an up link, and it is for this node. -/
def ArrivesHere (s : State) (m : NHdr) (len : Nat) : Prop :=
  (m.link < 16 ∧ getF s Fld.nawynLinkStatState m.link = 5) ∧ m.linkLocal = false ∧
  getF (messageTaken s m len) Fld.nawynLinkStatIdClash m.link = 0 ∧ nodeId (messageTaken s m len) ≠ 0xFFF ∧ m.dst ≠ 0xFFF ∧
  m.dst = nodeId (messageTaken s m len)

theorem ArrivesHere.routed {s : State} {m : NHdr} {len : Nat} (h : ArrivesHere s m len) : m.linkLocal = false := by
  obtain ⟨-, hrouted, -⟩ := h
  exact hrouted

section
variable {s : State} {m : NHdr} {bs : List Byte} (mtype : Nat) (k : State → State)

theorem nawynArrive_down (hlink : m.link < 16) (hdown : getF s Fld.nawynLinkStatState m.link ≠ 5) : nawynArrive s m mtype bs k = s := by
  rw [nawynArrive, if_neg (show m.link ≠ localLink from hlink.ne), if_pos hdown]

theorem nawynArrive_linkLocal (hup : m.link < 16 ∧ getF s Fld.nawynLinkStatState m.link = 5) (hlocal : m.linkLocal = true) :
    nawynArrive s m mtype bs k = k (messageTaken s m bs.length) := by
  rw [nawynArrive, if_neg (show m.link ≠ localLink from hup.1.ne), if_neg (not_not.2 hup.2)]
  exact if_pos hlocal

/-- A routed message to a node, where no node ID clashes. -/
theorem nawynArrive_routed (hup : m.link < 16 ∧ getF s Fld.nawynLinkStatState m.link = 5) (hrouted : m.linkLocal = false)
    (hclash : getF (messageTaken s m bs.length) Fld.nawynLinkStatIdClash m.link = 0)
    (hnode : nodeId (messageTaken s m bs.length) ≠ 0xFFF) (hdst : m.dst ≠ 0xFFF) :
    nawynArrive s m mtype bs k = if m.dst = nodeId (messageTaken s m bs.length) then k (messageTaken s m bs.length)
      else forwardMsg (messageTaken s m bs.length) m mtype bs := by
  have hgoes : ¬ (flagF (messageTaken s m bs.length) Fld.nawynLinkStatIdClash m.link = true ∨
      nodeId (messageTaken s m bs.length) = 0xFFF ∨ m.dst = 0xFFF) := by
    rw [flagF_eq_false hclash]
    exact not_or.2 ⟨Bool.false_ne_true, not_or.2 ⟨hnode, hdst⟩⟩
  rw [nawynArrive, if_neg (show m.link ≠ localLink from hup.1.ne), if_neg (not_not.2 hup.2)]
  simp only [hrouted, Bool.false_eq_true, if_false, if_neg hgoes]

theorem nawynArrive_here (h : ArrivesHere s m bs.length) : nawynArrive s m mtype bs k = k (messageTaken s m bs.length) := by
  obtain ⟨hup, hrouted, hclash, hnode, hdst, hhere⟩ := h
  rw [nawynArrive_routed mtype k hup hrouted hclash hnode hdst, if_pos hhere]

theorem nawynArrive_elsewhere (hup : m.link < 16 ∧ getF s Fld.nawynLinkStatState m.link = 5) (hrouted : m.linkLocal = false)
    (hclash : getF (messageTaken s m bs.length) Fld.nawynLinkStatIdClash m.link = 0)
    (hnode : nodeId (messageTaken s m bs.length) ≠ 0xFFF) (hdst : m.dst ≠ 0xFFF)
    (hother : m.dst ≠ nodeId (messageTaken s m bs.length)) :
    nawynArrive s m mtype bs k = forwardMsg (messageTaken s m bs.length) m mtype bs := by
  rw [nawynArrive_routed mtype k hup hrouted hclash hnode hdst, if_neg hother]

end

/-- A routed message that is dropped is UNDELIVERED to its source. -/
theorem dropArrived_routed {m : NHdr} (h : m.linkLocal = false) (s : State) (mtype len reason : Nat) :
    dropArrived s m mtype len reason = undeliver s m.tc (hdrBytes24 m mtype len) reason := by
  rw [dropArrived, h]
  rfl

/-- A routed message is answered by a message of the device's own to its source. -/
theorem replyMsg_routed {m : NHdr} (h : m.linkLocal = false) (s : State) (mtype status arg : Nat) (data : List Byte) :
    replyMsg s m mtype status arg data = sendOwn s m.src m.tc mtype status m.tag arg data := by
  rw [replyMsg, h]
  rfl

/-! ### A message for another node (11 R334, R335) -/

section
variable {s : State} {m : NHdr} {mtype : Nat} {bs : List Byte}

/-- A message as it is passed on: with one hop less, its crs cleared. -/
def forwarded (m : NHdr) (l mtype : Nat) (bs : List Byte) : NMsg :=
  { src := .own, link := l, tc := m.tc, data := bs, flits := msgFlits bs.length
    hdr := hdrBytes24 { m with hops := m.hops - 1, crs := 0 } mtype bs.length }

theorem forwardMsg_noHops (h : m.hops = 0) : forwardMsg s m mtype bs = dropArrived s m mtype bs.length 2 := if_pos h

theorem forwardMsg_noRoute (h : m.hops ≠ 0) (hroute : routeFor s m.dst = none) :
    forwardMsg s m mtype bs = dropArrived s m mtype bs.length 1 := by
  simp only [forwardMsg, if_neg h, hroute]

theorem forwardMsg_route (h : m.hops ≠ 0) {l : Nat} (hroute : routeFor s m.dst = some l)
    (hfits : fitsCourse s l m.tc (msgFlits bs.length) = true) : forwardMsg s m mtype bs = enqueueMsg s (forwarded m l mtype bs) := by
  simp only [forwardMsg, if_neg h, hroute, hfits, Bool.not_true, Bool.false_eq_true, if_false, forwarded]

end

end Sys2Proof.Machine
end

section
/-! PROOFS. Nawyn messages that arrive (11 R328, R333 to R340): what the device does with each one for itself, what ends a read, and the
statement assembled from them. -/

namespace Sys2Proof.Machine

/-! ### Bytes that a message leaves in memory -/

/-- In `u` the bytes `bs` stand from `a` on; every other byte is as in `t`. -/
def StoredFrom (t u : State) (a : Nat) (bs : List Byte) : Prop :=
  (∀ i (h : i < bs.length), readByte u (a + i) = bs[i]) ∧ ∀ b, b < a ∨ a + bs.length ≤ b → readByte u b = readByte t b

theorem storedFrom_writeBytes {t u : State} (h : ∀ b, readByte u b = readByte t b) (a : Nat) (bs : List Byte) :
    StoredFrom t (writeBytes u a bs) a bs :=
  ⟨fun i hi => readByte_writeBytes_inside u a i bs hi, fun b hb => (readByte_writeBytes_outside u a b bs hb).trans (h b)⟩

theorem WakeOnly.readByte_eq {s u : State} (h : WakeOnly s u) (b : Nat) : readByte u b = readByte s b := by
  obtain ⟨-, g, x, rfl⟩ := h
  rfl

theorem WakeOnly.readBytes_eq {s u : State} (h : WakeOnly s u) (a n : Nat) : readBytes u a n = readBytes s a n :=
  List.map_congr_left fun i _ => h.readByte_eq (a + i)

/-- An access through an aperture wakes what it reaches, and that alone. -/
theorem WakeOnly.of_aperture (s : State) (a : Nat) : WakeOnly s (wakeSram (touchPurlin s) a) := by
  have hpurlin : WakeOnly s (touchPurlin s) := by
    unfold touchPurlin
    split
    · exact (WakeOnly.refl s).after_latchOne purlin 7
    · exact .of_ungate s purlin
  unfold wakeSram
  split
  · exact hpurlin.after_latchWake _ 4
  · exact hpurlin

/-! ### Apertures (11 R336) -/

section
variable {s : State} {m : NHdr} {bs : List Byte} {a : Nat}

theorem exec_nawynWrite_open (h : ArrivesHere s m bs.length)
    (ha : aperAddr (messageTaken s m bs.length) m.src (m.arg % 2 ^ 38) bs.length true = some a) :
    exec (.nawynWrite m bs) s = .next (writeBytes (wakeSram (touchPurlin (messageTaken s m bs.length)) a) a bs) := by
  show execNawynWrite m bs s = _
  simp only [execNawynWrite, nawynArrive_here _ _ h, ha]

theorem exec_nawynWrite_closed (h : ArrivesHere s m bs.length)
    (ha : aperAddr (messageTaken s m bs.length) m.src (m.arg % 2 ^ 38) bs.length true = none) :
    exec (.nawynWrite m bs) s =
      .next (undeliver (bump (messageTaken s m bs.length) Fld.nawynAperFaultCnt 0) m.tc (hdrBytes24 m 1 bs.length) 3) := by
  show execNawynWrite m bs s = _
  simp only [execNawynWrite, nawynArrive_here _ _ h, ha, dropArrived_routed h.routed]

theorem exec_nawynReadReq_open (h : ArrivesHere s m 0)
    (ha : aperAddr (messageTaken s m 0) m.src (m.arg % 2 ^ 38) (m.arg / 2 ^ 38 % 2 ^ 21) false = some a) (host : List Byte)
    (failed : Bool) : exec (.nawynReadReq m host failed) s =
      .next (sendOwn (wakeSram (touchPurlin (messageTaken s m 0)) a) m.src m.tc 3 (if failed then 1 else 0) m.tag (m.arg % 2 ^ 38)
        (if failed then [] else readBytes (messageTaken s m 0) a (m.arg / 2 ^ 38 % 2 ^ 21))) := by
  have hlen : fieldOf m.arg 58 38 = m.arg / 2 ^ 38 % 2 ^ 21 := rfl
  show execNawynReadReq m host failed s = _
  simp only [execNawynReadReq, nawynArrive_here (bs := []) _ _ h, List.length_nil, hlen, ha, replyMsg_routed h.routed,
    (WakeOnly.of_aperture _ a).readBytes_eq]
  cases failed <;> rfl

theorem exec_nawynReadReq_closed (h : ArrivesHere s m 0)
    (ha : aperAddr (messageTaken s m 0) m.src (m.arg % 2 ^ 38) (m.arg / 2 ^ 38 % 2 ^ 21) false = none) (host : List Byte)
    (failed : Bool) : exec (.nawynReadReq m host failed) s =
      .next (sendOwn (bump (messageTaken s m 0) Fld.nawynAperFaultCnt 0) m.src m.tc 3 1 m.tag (m.arg % 2 ^ 38) []) := by
  have hlen : fieldOf m.arg 58 38 = m.arg / 2 ^ 38 % 2 ^ 21 := rfl
  show execNawynReadReq m host failed s = _
  simp only [execNawynReadReq, nawynArrive_here (bs := []) _ _ h, List.length_nil, hlen, ha, replyMsg_routed h.routed]

end

/-! ### Receive buffers (11 R339) -/

/-- The rafter that serves a queue pair is woken for a message to it (02 Table 2.3 source 4). -/
def rafterWoken (s : State) (q : Nat) : State := latchWake s (getF s Fld.qpCtlServiceRafter q) 4

section
variable {s : State} {m : NHdr} {mtype q n : Nat} {bs : List Byte} {o : Op}

theorem nrecv_none (h : nrecvFor (rafterWoken s q) q = none) : nrecv s m mtype q bs =
    dropArrived (rxDropEvent (bump (rafterWoken s q) Fld.nawynRxDropCnt 0) q m.src) m mtype bs.length 4 := by
  simp only [nrecv, rafterWoken] at h ⊢
  rw [h]

theorem nrecv_tooLong (h : nrecvFor (rafterWoken s q) q = some (n, o)) (hlong : leAt o.body 8 4 < bs.length) :
    nrecv s m mtype q bs = finishOp (rafterWoken s q) n 0x75 0 0 := by
  simp only [nrecv, rafterWoken] at h ⊢
  simp only [h, if_pos hlong]

/-- A message that fits its buffer in HBM stands in it when the NRECV_POST ends. -/
theorem nrecv_fits (h : nrecvFor (rafterWoken s q) q = some (n, o)) (hfits : bs.length ≤ leAt o.body 8 4)
    (hbm : classOf (leAt o.body 0 8) = some .hbm) : nrecv s m mtype q bs =
      finishOp (putOp (writeBytes (rafterWoken s q) (leAt o.body 0 8) bs) n { o with st := .committed }) n 0 bs.length 0 := by
  simp only [nrecv, rafterWoken] at h ⊢
  simp only [h, if_neg (not_lt.2 hfits), engWrite_hbm hbm, finishOk]

theorem exec_nawynSend_here (h : ArrivesHere s m bs.length) :
    exec (.nawynSend m bs) s = .next (nrecv (messageTaken s m bs.length) m 0 (m.arg % 4096) bs) :=
  congrArg _ (nawynArrive_here _ _ h)

end

/-! ### Read responses and the timeout of a read (11 R337) -/

section
variable {s : State} {m : NHdr} {bs : List Byte} {r : NRead} {n tag : Nat}

theorem exec_nawynReadResp_unknown (h : ArrivesHere s m bs.length)
    (hr : Tab.lookup (messageTaken s m bs.length).nawyn.reads m.tag = none) :
    exec (.nawynReadResp m bs) s = .next (bump (messageTaken s m bs.length) Fld.nawynLateRespCnt 0) := by
  show execNawynReadResp m bs s = _
  simp only [execNawynReadResp, nawynArrive_here _ _ h, hr]

theorem exec_nawynReadResp_known (h : ArrivesHere s m bs.length)
    (hr : Tab.lookup (messageTaken s m bs.length).nawyn.reads m.tag = some r) : exec (.nawynReadResp m bs) s = .next
      (if r.node ≠ m.src ∨ (m.status = 0 ∧ bs.length ≠ r.len) then bump (messageTaken s m bs.length) Fld.nawynLateRespCnt 0
      else if m.status ≠ 0 then readFails (messageTaken s m bs.length) m.tag r 0x74 7
      else readEnds (messageTaken s m bs.length) m.tag r bs) := by
  show execNawynReadResp m bs s = _
  simp only [execNawynReadResp, nawynArrive_here _ _ h, hr]

theorem readFails_op (hsrc : r.src = .op n) (status threadSt : Nat) :
    readFails s tag r status threadSt = finishOp (dropRead s tag) n status 0 0 := by
  simp only [readFails, hsrc]

/-- An operation's read into HBM: its data stand in memory when the operation ends. -/
theorem readEnds_op {o : Op} (hsrc : r.src = .op n) (ho : opOf s n = some o) (hbm : classOf r.laddr = some .hbm) : readEnds s tag r bs =
    finishOp (putOp (writeBytes (dropRead s tag) r.laddr bs) n { o with st := .committed }) n 0 bs.length 0 := by
  have ho' : opOf (dropRead s tag) n = some o := ho
  simp only [readEnds, hsrc, ho', engWrite_hbm hbm, finishOk]

theorem lookup_reads_dropRead (s : State) (tag : Nat) : Tab.lookup (dropRead s tag).nawyn.reads tag = none :=
  (Tab.lookup_del _ _ _).trans (if_pos rfl)

theorem writeBytes_nawyn (s : State) (a : Nat) (bs : List Byte) : (writeBytes s a bs).nawyn = s.nawyn := by
  obtain ⟨mem, h⟩ := writeBytes_only_mem s a bs
  rw [h]

theorem exec_readTimeout_known (hr : Tab.lookup s.nawyn.reads tag = some r) :
    exec (.readTimeout tag) s = .next (readFails (reach s r.deadline) tag r 0x71 5) := by
  show execReadTimeout tag s = _
  simp only [execReadTimeout, hr]

theorem exec_readTimeout_unknown (hr : Tab.lookup s.nawyn.reads tag = none) : exec (.readTimeout tag) s = .next s := by
  show execReadTimeout tag s = _
  simp only [execReadTimeout, hr]

end

/-! ### BOOT messages and unlisted types (02 Table 2.8; 11 R335, Table 11.5) -/

section
variable {s : State} {m : NHdr} {bs : List Byte} (hup : m.link < 16 ∧ getF s Fld.nawynLinkStatState m.link = 5) (hlocal : m.linkLocal = true)
include hup hlocal

theorem exec_bootMessage_noAttempt (ha : (messageTaken s m bs.length).ridge.attempt = none) :
    exec (.bootMessage m bs) s = .next (messageTaken s m bs.length) := by
  show execBootMessage m bs s = _
  simp only [execBootMessage, nawynArrive_linkLocal _ _ hup hlocal, ha]

/-- A BOOT message of the neighbour whose turn it is. -/
theorem exec_bootMessage_neighbour {a : Attempt} (ha : (messageTaken s m bs.length).ridge.attempt = some a) (hsrc : a.src = 5)
    (hlink : a.link = m.link) : exec (.bootMessage m bs) s =
      .next (mbxArrive (setAttempt (messageTaken s m bs.length) (some { a with tc := m.tc })) (pathNawyn m.link) bs 0) := by
  show execBootMessage m bs s = _
  simp only [execBootMessage, nawynArrive_linkLocal _ _ hup hlocal, ha, hlocal, hsrc, hlink, beq_self_eq_true, Bool.and_self, if_true]

end

section
variable {s : State} {m : NHdr} {mt : Byte} {bs : List Byte}

theorem exec_nawynBadMtype_unlisted (h : ArrivesHere s m bs.length) (hmt : listedMtype mt.toNat = false) :
    exec (.nawynBadMtype m mt bs) s =
      .next (undeliver (bump (messageTaken s m bs.length) Fld.nawynBadMtypeCnt 0) m.tc (hdrBytes24 m mt.toNat bs.length) 5) := by
  show execNawynBadMtype m mt bs s = _
  simp only [execNawynBadMtype, hmt, Bool.false_eq_true, if_false, nawynArrive_here _ _ h, dropArrived_routed h.routed]

theorem exec_nawynBadMtype_listed (hmt : listedMtype mt.toNat = true) : exec (.nawynBadMtype m mt bs) s = .next s :=
  congrArg _ (if_pos hmt)

end

/-! ### The statement -/

/-- Settles O48: each clause is the law above of the message, the read or the forwarding that it speaks of. -/
theorem nawynMessages : Obligations.NawynMessages := by
  unfold Obligations.NawynMessages
  intro s m bs host mt a n l2 o r t t0 up mine mine0 q w
  refine ⟨fun h ha => ?_, fun h ha => exec_nawynWrite_closed h ha, fun h ha => ?_, fun h ha => exec_nawynReadReq_closed h ha host false,
    fun h hbuf => ⟨fun hfits hbm => ?_, fun hlong => ?_⟩, fun h hbuf => ?_, fun h => congrArg _ (nawynArrive_here _ _ h),
    fun h hr => exec_nawynReadResp_unknown h hr, fun h hr hnode hsrc ho => ⟨fun hst hlen hbm => ?_, fun hst => ?_⟩, fun h hr hlate => ?_,
    fun hr hsrc => ?_, exec_readTimeout_unknown, fun h => congrArg _ (nawynArrive_here _ _ h),
    fun hup hlocal => ⟨exec_bootMessage_noAttempt hup hlocal, fun at_ ha hsrc hlink => exec_bootMessage_neighbour hup hlocal ha hsrc hlink⟩,
    fun h hmt => exec_nawynBadMtype_unlisted h hmt, exec_nawynBadMtype_listed, fun hup hrouted hclash hnode hdst hother => ?_,
    fun hlink hdown => ?_, fun hlink => ?_⟩
  · obtain ⟨hin, hout⟩ := storedFrom_writeBytes (WakeOnly.of_aperture t a).readByte_eq a bs
    exact ⟨_, exec_nawynWrite_open h ha, hin, hout⟩
  · exact ⟨_, (WakeOnly.of_aperture t0 a).mem_eq, exec_nawynReadReq_open h ha host false, exec_nawynReadReq_open h ha host true⟩
  · obtain ⟨hin, hout⟩ := storedFrom_writeBytes ((WakeOnly.refl t).after_latchWake _ 4).readByte_eq (leAt o.body 0 8) bs
    exact ⟨_, (exec_nawynSend_here h).trans (congrArg _ (nrecv_fits hbuf hfits hbm)), hin, hout⟩
  · exact (exec_nawynSend_here h).trans (congrArg _ (nrecv_tooLong hbuf hlong))
  · exact (exec_nawynSend_here h).trans (congrArg _ ((nrecv_none hbuf).trans (dropArrived_routed (ArrivesHere.routed h) _ _ _ _)))
  · obtain ⟨hin, hout⟩ := storedFrom_writeBytes (t := t) (u := dropRead t m.tag) (fun _ => rfl) r.laddr bs
    refine ⟨_, ?_, ?_, hin, hout⟩
    · rw [exec_nawynReadResp_known h hr, if_neg (not_or.2 ⟨not_not.2 hnode, fun hbad => hbad.2 hlen⟩), if_neg (not_not.2 hst),
        readEnds_op hsrc ho hbm]
    · rw [writeBytes_nawyn, lookup_reads_dropRead]
  · rw [exec_nawynReadResp_known h hr, if_neg (not_or.2 ⟨not_not.2 hnode, fun hbad => hst hbad.1⟩), if_pos hst, readFails_op hsrc]
  · rw [exec_nawynReadResp_known h hr, if_pos hlate]
  · rw [exec_readTimeout_known hr, readFails_op hsrc]
  · have hforward : exec (.nawynSend m bs) s = .next (forwardMsg t m 0 bs) :=
      congrArg _ (nawynArrive_elsewhere _ _ hup hrouted hclash hnode hdst hother)
    refine ⟨fun hhops => ?_, fun hhops hroute => ?_, fun hhops hroute hfits =>
      ⟨enqueueMsg t (forwarded m l2 0 bs), forwarded m l2 0 bs, ?_, rfl, rfl, rfl, rfl, rfl, rfl, rfl⟩⟩
    · rw [hforward, forwardMsg_noHops hhops, dropArrived_routed hrouted]
    · rw [hforward, forwardMsg_noRoute hhops hroute, dropArrived_routed hrouted]
    · rw [hforward, forwardMsg_route hhops hroute hfits]
  · have hstays (mtype : Nat) (k : State → State) := nawynArrive_down (bs := bs) mtype k hlink hdown
    exact ⟨congrArg _ (hstays _ _), congrArg _ (hstays _ _), congrArg _ (hstays _ _)⟩
  · obtain ⟨hseq, hnak, hret⟩ := linkOf_flitsTaken s m (msgFlits bs.length)
    exact ⟨_, takeFlits_eq s m _, hseq, hnak, hret, getF_flitsTaken_rxCnt s m _, flitsTaken_mem s m _⟩

end Sys2Proof.Machine
end

section
/-! PROOFS. Fabric time over Nawyn links and PTP timestamps (11 R341 to R344; 02 R58, R59; 11 R345): a written offset, TIME flits, the
timestamps and the lateness that a read removes. -/

namespace Sys2Proof.Machine

/-! ### Who writes and reads the Nawyn block (02 R58, R59; 11 R345) -/

section
variable {s : State} {req : Requester}

theorem nawynWrite_pf (hmode : mode s = 1) (hpf : Requester.isPf req = true) (k : State → State) : nawynWrite s req k = k s := by
  rw [nawynWrite, gated_normal hmode, if_pos hpf]

theorem nawynWrite_thread (hmode : mode s = 1) (tid : Tid) (k : State → State) :
    nawynWrite s (.thread tid) k = bump s Fld.nawynDeniedCnt 0 := by
  rw [nawynWrite, gated_normal hmode]
  rfl

theorem gatedRead_normal (hmode : mode s = 1) (v : State → Dword × State) :
    gatedRead s req v = emit (v s).2 (.answer req (some (v s).1)) := by
  simp [gatedRead, hostClosed, hmode]

theorem gatedRead_pf_closed (hmode : mode s ≠ 1) (hpf : Requester.isPf req = true) (v : State → Dword × State) :
    gatedRead s req v = emit s (.answer req (some (BitVec.allOnes 64))) := by
  cases req with
  | pf ep => simp [gatedRead, hostClosed, hmode]
  | vf ep fn => simp [Requester.isPf] at hpf
  | thread t => simp [Requester.isPf] at hpf

end

/-! ### A written offset (11 R343) -/

section
variable {s : State} {req : Requester} {v : Dword}

theorem signed64_natCast {n : Nat} (h : n < 2 ^ 64) : signed64 n = n := by
  rw [signed64, BitVec.ofInt_natCast, BitVec.toNat_ofNat, Nat.mod_eq_of_lt h]

/-- A whole number of ns, 1,000 or more, is stepped: what is left of the last offset and the fraction of a ns stay as they are. -/
theorem applyCorr_step {n : Nat} (hn : 1000 ≤ n) (hfrac : s.nawyn.frac < 1000000000) :
    applyCorr s ((n : Int) * 1000000000) false = timeStep s n := by
  have hfrac' : (((n : Int) * 1000000000 + s.nawyn.frac) % 1000000000).toNat = s.nawyn.frac := by omega
  have hns : (((n : Int) * 1000000000 + s.nawyn.frac) / 1000000000).toNat = n := by omega
  simp only [applyCorr, if_pos (show (1000000000000 : Int) ≤ n * 1000000000 by omega), hfrac', hns, Bool.false_eq_true, if_false]

theorem exec_timeOfsWrite_step (hmode : mode s = 1) (hpf : Requester.isPf req = true) (hv : 1000 ≤ v.toInt)
    (hfrac : s.nawyn.frac < 1000000000) : exec (.timeOfsWrite req v) s = .next
      (bump (raiseD { s with ftime := s.ftime + v.toNat } (srcTime s) { code := 0x0606, arg0 := v.toNat }) Fld.nawynTimeStepCnt 0) := by
  have hnat : v.toInt = v.toNat := by
    rw [BitVec.toInt_eq_toNat_cond] at hv ⊢
    split at hv <;> omega
  show execTimeOfsWrite req v s = _
  rw [execTimeOfsWrite, nawynWrite_pf hmode hpf, hnat, applyCorr_step (by omega) hfrac, timeStep, signed64_natCast v.isLt]
  rfl

theorem exec_timeOfsWrite_slew (hmode : mode s = 1) (hpf : Requester.isPf req = true) (hv : v.toInt < 1000) :
    exec (.timeOfsWrite req v) s = .next { s with nawyn := { s.nawyn with corr := s.nawyn.corr + v.toInt * 1000000000 } } := by
  show execTimeOfsWrite req v s = _
  rw [execTimeOfsWrite, nawynWrite_pf hmode hpf, applyCorr, if_neg (by omega)]
  rfl

end

/-! ### TIME flits (11 R342) -/

section
variable (s : State) (l : Nat)

/-- The five dwords of a TIME flit. -/
def timeWords : List Nat :=
  [s.ftime, (linkOf s l).lastRx, (linkOf s l).lastTx, (linkOf s l).active.elim 0 (fun c => c.id), (linkOf s l).active.elim 0 (fun c => c.armAt)]

theorem timePayload_eq : timePayload s l = ((timeWords s l).map (leBytes 8)).flatten := by
  simp only [timePayload, timeWords, List.map_cons, List.map_nil, List.flatten_cons, List.flatten_nil, List.append_nil, List.append_assoc]

theorem length_of_mem_timeWords {c : List Byte} (h : c ∈ (timeWords s l).map (leBytes 8)) : c.length = 8 := by
  obtain ⟨n, -, rfl⟩ := List.mem_map.1 h
  exact leBytes_length 8 n

theorem timePayload_length : (timePayload s l).length = 40 := by
  rw [timePayload_eq, length_flatten_of_chunks fun _ => length_of_mem_timeWords s l]
  rfl

theorem leAt_timePayload {k n : Nat} (h : (timeWords s l)[k]? = some n) : leAt (timePayload s l) (8 * k) 8 = n % 2 ^ 64 := by
  have hk : ((timeWords s l).map (leBytes 8))[k]? = some (leBytes 8 n) := by rw [List.getElem?_map, h]; rfl
  rw [timePayload_eq]
  exact (leAt_flatten (fun _ => length_of_mem_timeWords s l) hk (off := 0) (by decide)).trans (leAt_leBytes 8 n)

end

section
variable {s : State} {l : Nat}

theorem exec_timeFlitTick_up (hup : getF s Fld.nawynLinkStatState l = 5) : exec (.timeFlitTick l) s = .next (timeFlitOut s l) :=
  congrArg _ (if_pos hup)

/-- A flit that is sent leaves memory alone, and is the next output. -/
theorem emitFlit_out (s : State) (l ftype tc : Nat) (som eom : Bool) (seq : Nat) (payload : List Byte) :
    ∃ hd : FlitHead, hd.ftype = ftype ∧ (emitFlit s l ftype tc som eom seq payload).out = .flit l (flitBytes hd payload) :: s.out ∧
      (emitFlit s l ftype tc som eom seq payload).mem = s.mem := ⟨_, rfl, rfl, rfl⟩

/-- What the acknowledgement of a TIME flit leaves, with the times that the flit tells kept. -/
def timeKept (s : State) (l : Nat) (fa : FlitAck) (tTx : Nat) : State :=
  setLink (ackEffects (bump s Fld.nawynFlitRxCnt l) l fa) l
    { linkOf (ackEffects (bump s Fld.nawynFlitRxCnt l) l fa) l with
      lastTx := tTx, lastRx := (ackEffects (bump s Fld.nawynFlitRxCnt l) l fa).ftime }

theorem exec_timeFlit_up (hup : getF s Fld.nawynLinkStatState l = 5) (fa : FlitAck) (a b c : Dword) (id : Word) (v : Dword) :
    exec (.timeFlit l fa a b c id v) s =
      .next (courseCompare (timeMeasure (timeKept s l fa a.toNat) l a.toNat b.toNat c.toNat) l id.toNat v.toNat) :=
  congrArg _ (if_neg (not_not.2 hup))

theorem exec_timeFlit_down (hdown : getF s Fld.nawynLinkStatState l ≠ 5) (fa : FlitAck) (a b c : Dword) (id : Word) (v : Dword) :
    exec (.timeFlit l fa a b c id v) s = .next s := congrArg _ (if_pos hdown)

theorem timeMeasure_noEcho (a b : Nat) : timeMeasure s l a b 0 = s := rfl

/-- A flit that echoes one of the device's own, of a device that follows no link: the delay is shown, and nothing else changes. -/
theorem timeMeasure_echo {a b c : Nat} (hc : c ≠ 0) (hfollow : follower s = false) (hab : b ≤ a) (hca : c + (a - b) ≤ s.ftime) :
    timeMeasure s l a b c = setF s Fld.nawynLinkDelay l (Nat.min ((s.ftime - c - (a - b)) / 2) 0xFFFF) := by
  have hdelay : ((((s.ftime : Int) - c) - ((a : Int) - b)) / 2).toNat = (s.ftime - c - (a - b)) / 2 := by omega
  have hfollow' (n : Nat) : follower (setF s Fld.nawynLinkDelay l n) = false := by
    simp only [follower, flagF, getF_setF_of_apart s (show Fld.nawynLinkDelay.apart Fld.nawynTimeCtlUpEn by decide),
      getF_setF_of_apart s (show Fld.nawynLinkDelay.apart Fld.nawynTimeCtlRoot by decide)] at hfollow ⊢
    exact hfollow
  simp only [timeMeasure, if_neg hc, hdelay, hfollow', Bool.false_and, Bool.false_eq_true, if_false]

theorem getF_linkDelay_shown (n : Nat) : getF (setF s Fld.nawynLinkDelay l (Nat.min n 0xFFFF)) Fld.nawynLinkDelay l = Nat.min n 0xFFFF :=
  getF_setF_within s Fld.nawynLinkDelay l ⟨by decide, by decide⟩ ((Nat.min_le_right n 0xFFFF).trans_lt (by decide))

end

/-! ### PTP timestamps, and the largest lateness (11 R344, R352) -/

section
variable {s : State} {port mt sq : Nat} {tx : Bool}

theorem ptpInfo_eq : ptpInfo port tx mt sq = 1 + (if tx then 2 else 0) + port % 64 * 4 + mt % 16 * 256 + sq % 65536 * 65536 := by
  cases tx <;> rfl

theorem exec_ptpTimestamp_disabled (h : bitN (getReg s .nawynPtpEn 0).toNat port = false) :
    exec (.ptpTimestamp port tx mt sq) s = .next s := by
  show execPtpTimestamp port tx mt sq s = _
  rw [execPtpTimestamp, h]
  rfl

theorem exec_ptpTimestamp_enabled (h : bitN (getReg s .nawynPtpEn 0).toNat port = true) : exec (.ptpTimestamp port tx mt sq) s = .next
    (if 256 ≤ s.nawyn.ptp.length then bump s Fld.nawynPtpOvfCnt 0
    else { s with nawyn := { s.nawyn with ptp := s.nawyn.ptp ++ [(ptpInfo port tx mt sq, s.ftime)] } }) := by
  show execPtpTimestamp port tx mt sq s = _
  rw [execPtpTimestamp, h]
  rfl

/-- Whoever reads the oldest timestamp takes it. -/
theorem exec_ptpTimeRead_cons {req : Requester} (hmode : mode s = 1) {e : Nat × Nat} {es : List (Nat × Nat)} (h : s.nawyn.ptp = e :: es) :
    exec (.ptpTimeRead req) s =
      .next (emit { s with nawyn := { s.nawyn with ptp := es } } (.answer req (some (BitVec.ofNat 64 e.2)))) := by
  show execPtpTimeRead req s = _
  rw [execPtpTimeRead, gatedRead_normal hmode, ptpPop, h]

theorem exec_lateMaxRead_normal {req : Requester} (hmode : mode s = 1) (l : Nat) : exec (.lateMaxRead req l) s =
    .next (emit (setF s Fld.nawynLateMax l 0) (.answer req (some (BitVec.ofNat 64 (getF s Fld.nawynLateMax l))))) :=
  congrArg _ (gatedRead_normal hmode _)

end

end Sys2Proof.Machine
end

section
/-! PROOFS. Course schedules (11 R345 to R352; 15 R440): arming and activation, the start of a message, a window that ends without one, and
the statement assembled from them. -/

namespace Sys2Proof.Machine

/-! ### Arming a schedule (11 R345) -/

section
variable {s : State} {req : Requester} {l : Nat}

/-- The staged schedule of a link is pending. -/
def courseArmed (s : State) (l : Nat) : State :=
  setF (setLink s l { linkOf s l with pending := some (stagedCourse s l) }) Fld.nawynCrsStat l 1

theorem exec_courseArm_pf (hmode : mode s = 1) (hpf : Requester.isPf req = true) : exec (.courseArm req l) s = .next
    (if courseOk (stagedCourse s l) = false then setF s Fld.nawynCrsStat l 2
    else if (stagedCourse s l).armAt < s.ftime + 10000 then setF s Fld.nawynCrsStat l 3 else courseArmed s l) := by
  show execCourseArm req l s = _
  simp only [execCourseArm, nawynWrite_pf hmode hpf, Bool.not_eq_true', courseArmed]

theorem courseOk_iff {g : Course} : courseOk g = true ↔
    (1000 ≤ g.cycle ∧ g.cycle ≤ 1000000 ∧ winsOrdered g.wins = true ∧ ∀ z, z ∈ g.wins → z.2.1 ≤ g.cycle ∧ z.1 + 8 ≤ z.2.1) := by
  simp only [courseOk, Bool.and_eq_true, decide_eq_true_eq, List.all_eq_true, and_assoc]

end

/-! ### A schedule becomes active, or is removed (11 R345) -/

section
variable {s : State} {l : Nat} {g : Course}

/-- The pending schedule is taken at its arm time (log 125). -/
def courseTaken (s : State) (l : Nat) (g : Course) : State :=
  setF (setLink (reach s g.armAt) l { linkOf s l with pending := none }) Fld.nawynCrsStat l 0

theorem exec_courseActivation_pending (h : (linkOf s l).pending = some g) : exec (.courseActivation l) s =
    .next (if g.wins.isEmpty then courseEnd (courseTaken s l g) l else courseStart (courseTaken s l g) l g) := by
  show execCourseActivation l s = _
  simp only [execCourseActivation, h]
  rfl

theorem exec_courseActivation_none (h : (linkOf s l).pending = none) : exec (.courseActivation l) s = .next s := by
  show execCourseActivation l s = _
  simp only [execCourseActivation, h]

theorem getF_courseTaken {f : Fld} (h : Fld.nawynCrsStat.apart f) (i : Nat) : getF (courseTaken s l g) f i = getF s f i :=
  getF_setF_of_apart _ h _ _ _

theorem courseTaken_stat : getF (courseTaken s l g) Fld.nawynCrsStat l = 0 :=
  getF_setF_within _ Fld.nawynCrsStat l ⟨by decide, by decide⟩ (by decide)

theorem linkOf_courseTaken : linkOf (courseTaken s l g) l = { linkOf s l with pending := none } := by
  rw [courseTaken, linkOf_setF, linkOf_setLink_same]

theorem linkOf_courseEnd (s : State) (l : Nat) :
    linkOf (courseEnd s l) l = { linkOf s l with active := none, differs := 0, measured := [], ended := [] } := by
  rw [courseEnd, linkOf_setF, linkOf_setF, linkOf_setF, linkOf_setLink_same]

theorem getF_courseEnd (s : State) (l : Nat) : getF (courseEnd s l) Fld.nawynCrsActiveId l = 0 ∧
    getF (courseEnd s l) Fld.nawynLinkStatCourseActive l = 0 ∧ getF (courseEnd s l) Fld.nawynCrsStat l = getF s Fld.nawynCrsStat l := by
  refine ⟨getF_setF_within _ Fld.nawynCrsActiveId l ⟨by decide, by decide⟩ (by decide), ?_, ?_⟩
  · rw [courseEnd, getF_setF_of_apart _ (by decide), getF_setF_of_apart _ (by decide)]
    exact getF_setF_within _ Fld.nawynLinkStatCourseActive l ⟨by decide, by decide⟩ (by decide)
  · rw [courseEnd, getF_setF_of_apart _ (by decide), getF_setF_of_apart _ (by decide), getF_setF_of_apart _ (by decide), getF_setLink]

/-- The lateness rows of a link as a schedule becomes active: those of another schedule are cleared (15 R440). -/
def lateFor (s : State) (l : Nat) (g : Course) : State :=
  if Tab.get 0 s.gut.late (20 * (64 * l) + 19) = g.id then s else clearLate s l g.id

/-- What the activation of a schedule leaves, before its event. -/
def courseBegun (s : State) (l : Nat) (g : Course) : State :=
  setF (setF (setF (setLink (lateFor s l g) l { linkOf (lateFor s l g) l with active := some g, differs := 0, measured := [], ended := [] })
    Fld.nawynLinkStatCourseActive l (getF (lateFor s l g) Fld.nawynLinkCfgCourseEn l)) Fld.nawynLinkStatMismatch l 0) Fld.nawynCrsActiveId l g.id

theorem courseStart_eq (s : State) (l : Nat) (g : Course) : courseStart s l g =
    raiseD (courseBegun s l g) (srcNawyn l) { code := 0x0603, aux8 := l, arg0 := g.id, arg1 := g.armAt % 2 ^ 56 } := rfl

theorem lateFor_only_gut (s : State) (l : Nat) (g : Course) : ∃ x, lateFor s l g = { s with gut := x } := by
  unfold lateFor
  split
  · exact ⟨s.gut, rfl⟩
  · exact ⟨_, rfl⟩

theorem linkOf_courseBegun (s : State) (l : Nat) (g : Course) :
    linkOf (courseBegun s l g) l = { linkOf s l with active := some g, differs := 0, measured := [], ended := [] } := by
  obtain ⟨x, hlate⟩ := lateFor_only_gut s l g
  rw [courseBegun, linkOf_setF, linkOf_setF, linkOf_setF, linkOf_setLink_same, hlate]
  rfl

theorem getF_courseBegun (s : State) (l : Nat) (g : Course) : getF (courseBegun s l g) Fld.nawynCrsActiveId l = g.id % 2 ^ 32 ∧
    getF (courseBegun s l g) Fld.nawynLinkStatCourseActive l = getF s Fld.nawynLinkCfgCourseEn l := by
  obtain ⟨x, hlate⟩ := lateFor_only_gut s l g
  refine ⟨getF_setF_same _ Fld.nawynCrsActiveId l _ ⟨by decide, by decide⟩, ?_⟩
  rw [courseBegun, getF_setF_of_apart _ (by decide), getF_setF_of_apart _ (by decide), hlate]
  exact getF_setF_within _ Fld.nawynLinkStatCourseActive l ⟨by decide, by decide⟩ (getF_lt s Fld.nawynLinkCfgCourseEn l)

theorem courseBegun_frame (s : State) (l : Nat) (g : Course) : (courseBegun s l g).ftime = s.ftime ∧ (courseBegun s l g).mem = s.mem := by
  obtain ⟨x, hlate⟩ := lateFor_only_gut s l g
  constructor
  · rw [courseBegun, setF_ftime, setF_ftime, setF_ftime, setLink_ftime, hlate]
  · rw [courseBegun, setF_mem, setF_mem, setF_mem, setLink_mem, hlate]

end

/-! ### The start of a message (11 R331, R334, R348, R350) -/

section
variable {s : State} {l tc : Nat} {m : NMsg} {host : List Byte}

theorem exec_messageStart_none (h : firstWaiting s l tc = none) : exec (.messageStart l tc host) s = .next s := by
  show execMessageStart l tc host s = _
  simp only [execMessageStart, h]

/-- A waiting message on a link that is up and free. -/
theorem exec_messageStart_free (hl : l < 16) (h : firstWaiting s l tc = some m) (hup : getF s Fld.nawynLinkStatState l = 5)
    (hidle : sendingAt (linkOf s l) = none) (hbusy : (linkOf s l).busyPs ≤ s.ftime * 1000) :
    exec (.messageStart l tc host) s = .next (tryStart s l m host) := by
  have hfree : ¬ (getF s Fld.nawynLinkStatState l ≠ 5 ∨ (sendingAt (linkOf s l)).isSome = true ∨ s.ftime * 1000 < (linkOf s l).busyPs) := by
    rw [hidle]
    exact not_or.2 ⟨not_not.2 hup, not_or.2 ⟨Bool.false_ne_true, not_lt.2 hbusy⟩⟩
  show execMessageStart l tc host s = _
  simp only [execMessageStart, h, if_neg (show l ≠ localLink from hl.ne), if_neg hfree]

/-- A message to the device itself. -/
theorem exec_messageStart_local (h : firstWaiting s 16 tc = some m) : exec (.messageStart 16 tc host) s = .next (startLocal s m host) := by
  show execMessageStart 16 tc host s = _
  simp only [execMessageStart, h]
  rfl

/-- Without a schedule, active or pending, a class may start at any time. -/
theorem startSlot_free (hcourse : courseOf s l = none) (hpending : (linkOf s l).pending = none) : startSlot s l tc = some (none, 0) := by
  simp only [startSlot, hcourse, hpending]

/-- Without a schedule a message starts in the turn of its class. -/
theorem tryStart_turn (hcourse : courseOf s l = none) (hpending : (linkOf s l).pending = none) {wr : Tab Nat}
    (hturn : wrrTurn s l m.tc = some wr) : tryStart s l m host = startOn (setLink s l { linkOf s l with wrr := wr }) l m 0 host := by
  simp only [tryStart, startSlot_free hcourse hpending, endsBy, hcourse, hturn, Option.isSome_none, Bool.not_true, Bool.false_eq_true, if_false]

/-- A message whose payload the device has starts with it. -/
theorem startPayload_held (h : m.from_ = none) : startPayload s m host = .ok (m.data, s) := by
  simp only [startPayload, h]

/-- A message as it starts on a link: its crs is filled in. -/
def startedMsg (m : NMsg) (crs : Nat) : NMsg := { m with from_ := none, hdr := m.hdr.set 6 (BitVec.ofNat 8 crs) }

/-- A message has started on a link, and none of its flits is sent yet. -/
def startedOn (s : State) (l : Nat) (m : NMsg) (crs : Nat) : State :=
  setLink (takeWaiting s m) l { linkOf s l with
    started := (linkOf s l).started ++ [(startedMsg m crs, (startedMsg m crs).hdr ++ m.data)], busyPs := s.ftime * 1000 + m.flits * flitPs s l }

theorem startOn_held (h : m.from_ = none) (crs : Nat) : startOn s l m crs host = pumpLink (startedOn s l m crs) l := by
  simp only [startOn, startPayload_held h]
  rfl

theorem linkOf_startedOn (s : State) (l : Nat) (m : NMsg) (crs : Nat) : linkOf (startedOn s l m crs) l =
    { linkOf s l with
      started := (linkOf s l).started ++ [(startedMsg m crs, (startedMsg m crs).hdr ++ m.data)], busyPs := s.ftime * 1000 + m.flits * flitPs s l } :=
  linkOf_setLink_same _ _ _

theorem startedOn_frame (s : State) (l : Nat) (m : NMsg) (crs : Nat) :
    (startedOn s l m crs).nawyn.waiting = s.nawyn.waiting.erase m ∧ (startedOn s l m crs).mem = s.mem := ⟨rfl, rfl⟩

/-- A message of the device's own to itself is delivered at once. -/
theorem startLocal_own (hsrc : m.src = .own) (hfrom : m.from_ = none) : startLocal s m host =
    { s with nawyn := { s.nawyn with waiting := s.nawyn.waiting.erase m, locals := s.nawyn.locals ++ [m] } } := by
  have hmsg : ({ m with data := m.data, from_ := none } : NMsg) = m := by rw [← hfrom]
  have hcommit (u : State) : commitMsg u m = u := by simp only [commitMsg, hsrc]
  simp only [startLocal, startPayload_held hfrom, hcommit, takeWaiting]
  rw [hmsg]

end

/-! ### A window that ends without a message (11 R352, 15 R440) -/

section
variable {s : State} {l w k : Nat} {g : Course}

/-- A window has ended for the `k`-th time without a message, at `due`, when its last flit could have come (log 125). -/
def windowEmpty (s : State) (l w k : Nat) (due : Nat) : State :=
  let u := bump (setLink (reach s due) l { linkOf s l with ended := Tab.put (linkOf s l).ended w (k + 1) }) Fld.nawynWinEmptyCnt l
  { u with gut := { u.gut with late := rowAdd u.gut.late (64 * l + w) 17 1 } }

theorem exec_windowInstanceEnd_empty (hg : (linkOf s l).active = some g) {a b tc : Nat} (hwin : g.wins[w]? = some (a, b, tc))
    (hended : Tab.get 0 (linkOf s l).ended w ≤ k) (hmeasured : Tab.get 0 (linkOf s l).measured w ≤ k) :
    exec (.windowInstanceEnd l w k) s = .next (windowEmpty s l w k (g.armAt + k * g.cycle + b + getF s Fld.nawynLinkDelay l)) := by
  have hdue : ¬ (k + 1 ≤ Tab.get 0 (linkOf s l).ended w ∨ k + 1 < Tab.get 0 (linkOf s l).measured w) := by omega
  have hnone : k + 1 ≠ Tab.get 0 (linkOf s l).measured w := by omega
  show execWindowInstanceEnd l w k s = _
  simp only [execWindowInstanceEnd, hg, hwin, if_neg hdue, if_neg hnone, windowEmpty]

theorem exec_windowInstanceEnd_ended (hg : (linkOf s l).active = some g) (hended : k < Tab.get 0 (linkOf s l).ended w) :
    exec (.windowInstanceEnd l w k) s = .next s := by
  show execWindowInstanceEnd l w k s = _
  simp only [execWindowInstanceEnd, hg]
  cases g.wins[w]? with
  | none => rfl
  | some win => exact congrArg _ (if_pos (.inl hended))

theorem exec_windowInstanceEnd_none (hg : (linkOf s l).active = none) : exec (.windowInstanceEnd l w k) s = .next s := by
  show execWindowInstanceEnd l w k s = _
  simp only [execWindowInstanceEnd, hg]

theorem ended_windowEmpty (due : Nat) : Tab.get 0 (linkOf (windowEmpty s l w k due) l).ended w = k + 1 := by
  have hlink : linkOf (windowEmpty s l w k due) l = { linkOf s l with ended := Tab.put (linkOf s l).ended w (k + 1) } :=
    linkOf_setLink_same _ _ _
  rw [hlink, Tab.get_put, if_pos rfl]

theorem getF_windowEmpty (due : Nat) :
    getF (windowEmpty s l w k due) Fld.nawynWinEmptyCnt l = (getF s Fld.nawynWinEmptyCnt l + 1) % 2 ^ 64 :=
  getF_bump_same (setLink (reach s due) l { linkOf s l with ended := Tab.put (linkOf s l).ended w (k + 1) }) Fld.nawynWinEmptyCnt l
    ⟨by decide, by decide⟩

theorem late_windowEmpty (due : Nat) : Tab.get 0 (windowEmpty s l w k due).gut.late (20 * (64 * l + w) + 17) =
    (Tab.get 0 s.gut.late (20 * (64 * l + w) + 17) + 1) % 2 ^ 64 := Tab.get_store_same _ _ _ _

end

/-! ### The statement -/

/-- Settles O49: each clause is the law above of the write, the flit, the timestamp, the schedule or the message that it speaks of. -/
theorem nawynTimeAndCourses : Obligations.NawynTimeAndCourses := by
  unfold Obligations.NawynTimeAndCourses
  intro s req t l tc w k port mt sq tx v a b c id h e es m g wr host win hl x pf
  refine ⟨fun ⟨hpf, hmode⟩ hv hfrac => ⟨_, exec_timeOfsWrite_step hmode hpf hv hfrac, rfl, rfl⟩,
    fun ⟨hpf, hmode⟩ hv => exec_timeOfsWrite_slew hmode hpf hv,
    fun hmode => ⟨congrArg _ (nawynWrite_thread hmode t _), congrArg _ (nawynWrite_thread hmode t _)⟩, fun hup => ?_,
    fun hdown => ⟨congrArg _ (if_neg hdown), exec_timeFlit_down hdown h a b c id v⟩, fun hup => ?_, fun hc hfollow hab hca => ?_,
    timeMeasure_noEcho _ _, fun hen hroom => ?_, fun hen hfull => ?_, exec_ptpTimestamp_disabled, fun hmode hptp => exec_ptpTimeRead_cons hmode hptp,
    fun hmode hpf => ⟨congrArg _ (gatedRead_pf_closed hmode hpf _), congrArg _ (gatedRead_pf_closed hmode hpf _)⟩, fun hmode => ?_,
    fun ⟨hpf, hmode⟩ => ⟨fun hok hahead => ?_, fun hbad => ?_, fun hok hlate => ?_⟩, courseOk_iff, fun hp hwins => ?_, fun hp hwins => ?_,
    exec_courseActivation_none, exec_messageStart_none, fun hm htc hup hidle hbusy hcourse hpending hturn hfrom => ?_,
    fun hm hsrc hfrom => ?_, fun hg hwin hended hmeasured => ?_, exec_windowInstanceEnd_ended, exec_windowInstanceEnd_none⟩
  · obtain ⟨hd, htype, hout, hmem⟩ := emitFlit_out s l 3 0 false false 0 (timePayload s l)
    exact ⟨_, hd, timePayload s l, exec_timeFlitTick_up hup, htype, hout, timePayload_length s l, leAt_timePayload s l (k := 0) rfl,
      leAt_timePayload s l (k := 1) rfl, leAt_timePayload s l (k := 2) rfl, leAt_timePayload s l (k := 3) rfl,
      leAt_timePayload s l (k := 4) rfl, hmem⟩
  · exact ⟨timeKept s l h a.toNat, exec_timeFlit_up hup h a b c id v, by rw [timeKept, linkOf_setLink_same],
      by rw [timeKept, linkOf_setLink_same, setLink_ftime]⟩
  · exact ⟨_, timeMeasure_echo hc hfollow hab hca, getF_linkDelay_shown _, rfl, rfl⟩
  · rw [exec_ptpTimestamp_enabled hen, if_neg (not_le.2 hroom), ptpInfo_eq]
  · rw [exec_ptpTimestamp_enabled hen, if_pos hfull]
  · exact ⟨_, exec_lateMaxRead_normal hmode l, rfl, getF_setF_within s Fld.nawynLateMax l ⟨by decide, by decide⟩ (by decide),
      fun r i hr => getReg_setF_other s Fld.nawynLateMax r l i 0 hr, rfl⟩
  · refine ⟨courseArmed s l, ?_, ?_, ?_, getF_setF_within _ Fld.nawynCrsStat l ⟨by decide, by decide⟩ (by decide), rfl⟩
    · rw [exec_courseArm_pf hmode hpf, hok, if_neg (by decide), if_neg (not_lt.2 hahead)]
    all_goals rw [courseArmed, linkOf_setF, linkOf_setLink_same]
  · rw [exec_courseArm_pf hmode hpf, if_pos hbad]
  · rw [exec_courseArm_pf hmode hpf, hok, if_neg (by decide), if_pos hlate]
  · obtain ⟨hid, hactive, hstat⟩ := getF_courseEnd (courseTaken s l g) l
    refine ⟨courseEnd (courseTaken s l g) l, ?_, ?_, ?_, hid, hactive, hstat.trans courseTaken_stat, rfl, rfl⟩
    · rw [exec_courseActivation_pending hp, hwins]
      rfl
    all_goals rw [linkOf_courseEnd, linkOf_courseTaken]
  · obtain ⟨hid, hactive⟩ := getF_courseBegun (courseTaken s l g) l g
    obtain ⟨hftime, hmem⟩ := courseBegun_frame (courseTaken s l g) l g
    refine ⟨courseBegun (courseTaken s l g) l g, ?_, ?_, ?_, hid, hactive.trans (getF_courseTaken (by decide) l), hftime, hmem⟩
    · rw [exec_courseActivation_pending hp, if_neg (fun hempty => hwins (List.isEmpty_iff.1 hempty)), courseStart_eq]
    all_goals rw [linkOf_courseBegun, linkOf_courseTaken]
  · subst htc
    obtain ⟨hwaiting, hmem⟩ := startedOn_frame (setLink s l { x with wrr := wr }) l m 0
    refine ⟨startedOn (setLink s l { x with wrr := wr }) l m 0, ?_, hwaiting, ?_, ?_, ?_, hmem⟩
    · rw [exec_messageStart_free hl hm hup hidle hbusy, tryStart_turn hcourse hpending hturn, startOn_held hfrom]
    all_goals rw [linkOf_startedOn, linkOf_setLink_same]
    · rfl
    · rw [List.map_append]
      rfl
  · exact ⟨_, (exec_messageStart_local hm).trans (congrArg _ (startLocal_own hsrc hfrom)), rfl, rfl, rfl, rfl⟩
  · exact ⟨_, exec_windowInstanceEnd_empty hg hwin hended hmeasured, ended_windowEmpty _, getF_windowEmpty _, late_windowEmpty _, rfl, rfl⟩

end Sys2Proof.Machine
end

section
/-! PROOFS. A step and the queue (01); the Gutter's channels (15 R430 to R439): what an event that is told leaves of the Gutter, how a channel
settles, its enable and stop, the packets that it takes, its drain, and the statements assembled from them. -/

namespace Sys2Proof.Machine

/-! ### A step (01; log 1) -/

/-- Settles O1: a step takes the queue's front and is exec of it, by the definition of step. -/
theorem stepRunsFront : Obligations.StepRunsFront := fun _ _ _ => rfl

/-! ### What an event that is told leaves alone (08 R219, R228; 10 R321) -/

/-- From one state to another only what an entry of an event ring and its notice reach has changed. -/
def Told (s u : State) : Prop :=
  ∃ regs mem ridge rafters host rings out, u = { s with regs := regs, mem := mem, ridge := ridge, rafters := rafters, host := host, rings := rings, out := out }

namespace Told

variable {s u v : State}

theorem refl (s : State) : Told s s := ⟨_, _, _, _, _, _, _, rfl⟩

theorem update (h : Told s u) {regs mem ridge rafters host rings out} :
    Told s { u with regs := regs, mem := mem, ridge := ridge, rafters := rafters, host := host, rings := rings, out := out } := by
  obtain ⟨_, _, _, _, _, _, _, rfl⟩ := h
  exact ⟨_, _, _, _, _, _, _, rfl⟩

theorem ite {c : Prop} [Decidable c] (hu : Told s u) (hv : Told s v) : Told s (if c then u else v) := by
  split
  · exact hu
  · exact hv

theorem gut_eq (h : Told s u) : u.gut = s.gut := by
  obtain ⟨_, _, _, _, _, _, _, rfl⟩ := h
  rfl

theorem after_setF (h : Told s u) {f i n} : Told s (setF u f i n) := h.update

theorem after_bump (h : Told s u) {f i} : Told s (bump u f i) := h.after_setF

theorem after_wakeWatchers (h : Told s u) {n} : Told s (wakeWatchers u n) := by
  obtain ⟨-, g, x, e⟩ := WakeOnly.of_wakeWatchers u n
  rw [e]
  exact h.update

theorem after_setFlag (h : Told s u) {b i} : Told s (setFlag u b i) := .ite (.after_wakeWatchers (.ite h.update h.update)) (.ite h.update h.update)

theorem after_msix (h : Told s u) {ep fn vec} : Told s (msix u ep fn vec) := .ite h.update h.update

theorem after_notify (h : Told s u) {mode target ep fn bay} : Told s (notify u mode target ep fn bay) := .ite h.after_msix (.ite h.after_setFlag h)

theorem after_pmeEvent (h : Told s u) {ep fn sel} : Told s (pmeEvent u ep fn sel) := .ite h (.ite h (.ite (.ite h.update h.update) h.update))

theorem after_writeBytes (h : Told s u) {a bs} : Told s (writeBytes u a bs) := by
  obtain ⟨m, e⟩ := writeBytes_only_mem u a bs
  rw [e]
  exact h.update

theorem after_deviceWrite (h : Told s u) {a bs} : Told s (deviceWrite u a bs) := by
  unfold deviceWrite
  split
  · exact .ite h.after_writeBytes h
  · exact h.after_writeBytes

theorem after_setEvr (h : Told s u) {e x} : Told s (setEvr u e x) := h.update

theorem after_evrWrite (h : Told s u) {e ev} : Told s (evrWrite u e ev) := by
  refine .ite (.after_notify (.after_setEvr (.ite (.after_pmeEvent ?_) ?_))) (.ite (.after_pmeEvent ?_) ?_) <;>
  exact .after_setEvr (.ite (.after_setF (.after_setF (.after_deviceWrite h))) (.after_setF (.after_deviceWrite h)))

theorem after_evrPut (h : Told s u) {e ev} : Told s (evrPut u e ev) := by
  refine .ite h.after_bump (.ite h.after_evrWrite (.ite (.after_wakeWatchers ?_) ?_)) <;>
  exact .after_setEvr (.after_bump (.after_setF (.after_setF h)))

theorem after_putDev (h : Told s u) {ev} : Told s (putDev u ev) := .ite h.after_evrPut h.after_bump

end Told

/-! ### How a channel settles (15 R434, R435, R437, R438) -/

section
variable (s : State) (c : Nat)

@[simp] theorem chanOf_setChan_same (x : Chan) : chanOf (setChan s c x) c = x := Tab.get_store_same _ _ _ _
@[simp] theorem chanOf_setF (f : Fld) (i n : Nat) : chanOf (setF s f i n) c = chanOf s c := rfl
@[simp] theorem chanOf_bump (f : Fld) (i : Nat) : chanOf (bump s f i) c = chanOf s c := rfl
@[simp] theorem getF_setChan (x : Chan) (f : Fld) (i : Nat) : getF (setChan s c x) f i = getF s f i := rfl
@[simp] theorem getReg_setChan (x : Chan) (r : Reg) (i : Nat) : getReg (setChan s c x) r i = getReg s r i := rfl

/-- A look at the drain changes since when the ring has been without room, and GUT_CH_STAT. -/
theorem drainCheck_only : ∃ since x, (drainCheck s c = setChan s c { chanOf s c with noRoom := since } ∨
    drainCheck s c = setF (setChan s c { chanOf s c with noRoom := since }) Fld.gutChStatDrainStall c x) := by
  unfold drainCheck
  dsimp only
  split
  · split
    · exact ⟨none, 0, .inr rfl⟩
    · exact ⟨_, 0, .inl rfl⟩
  · exact ⟨none, 0, .inr rfl⟩

theorem drainCheck_flushes : (drainCheck s c).gut.flushes = s.gut.flushes := by
  obtain ⟨since, x, h | h⟩ := drainCheck_only s c <;> rw [h] <;> rfl

theorem drainCheck_mem : (drainCheck s c).mem = s.mem ∧ (drainCheck s c).memEpoch = s.memEpoch := by
  obtain ⟨since, x, h | h⟩ := drainCheck_only s c <;> rw [h] <;> exact ⟨rfl, rfl⟩

theorem chanOf_drainCheck : ∃ since, chanOf (drainCheck s c) c = { chanOf s c with noRoom := since } := by
  obtain ⟨since, x, h | h⟩ := drainCheck_only s c <;> exact ⟨since, by rw [h]; exact Tab.get_store_same _ _ _ _⟩

theorem getF_drainCheck {f : Fld} (h : Fld.gutChStatDrainStall.apart f) (i : Nat) : getF (drainCheck s c) f i = getF s f i := by
  obtain ⟨since, x, e | e⟩ := drainCheck_only s c <;> rw [e]
  · rfl
  · exact getF_setF_of_apart _ h _ _ _

theorem shedOnce_flushes : (shedOnce s c).gut.flushes = s.gut.flushes := by
  have hstep (l : Nat) : (shedStep s c l).gut = s.gut := (Told.refl s).after_setF.after_putDev.gut_eq
  unfold shedOnce
  dsimp only
  split
  · rw [hstep]
  · split
    · rw [hstep]
    · rfl

theorem chanSettle_flushes : (chanSettle s c).gut.flushes = s.gut.flushes := by
  rw [chanSettle]
  split
  · rw [setF_gut, drainCheck_flushes]
  · rw [shedOnce_flushes, shedOnce_flushes, shedOnce_flushes, setF_gut, drainCheck_flushes]

/-- A channel in MARK mode sheds nothing. -/
def markSettled (s : State) (c : Nat) : State := setF (drainCheck s c) Fld.gutChStatFillKib c (chanFill (drainCheck s c) c / 1024)

variable {s c}

theorem chanSettle_mark (h : getF s Fld.gutChCtlMode c = 1) : chanSettle s c = markSettled s c := by
  have hmode : flagF (markSettled s c) Fld.gutChCtlMode c = true :=
    flagF_eq_true ((getF_setF_of_apart _ (by decide) _ _ _).trans ((getF_drainCheck s c (by decide) c).trans h))
  exact if_pos hmode

theorem readByte_markSettled (s : State) (c b : Nat) : readByte (markSettled s c) b = readByte s b := by
  obtain ⟨hmem, hepoch⟩ := drainCheck_mem s c
  rw [readByte, markSettled, setF_mem, setF_memEpoch, hmem, hepoch, readByte]

theorem chanOf_markSettled : ∃ since, chanOf (markSettled s c) c = { chanOf s c with noRoom := since } := by
  rw [markSettled, chanOf_setF]
  exact chanOf_drainCheck s c

theorem getF_markSettled {f : Fld} (hstall : Fld.gutChStatDrainStall.apart f) (hfill : Fld.gutChStatFillKib.apart f) (i : Nat) :
    getF (markSettled s c) f i = getF s f i := by
  rw [markSettled, getF_setF_of_apart _ hfill, getF_drainCheck s c hstall]

theorem chanOverflow_none (h : (chanOf s c).ovf = none) : chanOverflow s c = s := by rw [chanOverflow, h]

end

/-! ### Writes of the block (15 R433, R438, R439, R448) -/

section
variable {s : State} {c : Nat} {req : Requester}

theorem gutWrite_pf (hmode : mode s = 1) (hpf : Requester.isPf req = true) (k : State → State) : gutWrite s req k = k s := by
  rw [gutWrite, gated_normal hmode, if_pos hpf]

theorem gutWrite_thread (hmode : mode s = 1) (t : Tid) (k : State → State) : gutWrite s (.thread t) k = bump s Fld.gutDeniedCnt 0 := by
  rw [gutWrite, gated_normal hmode]
  rfl

/-- A field that a mask keeps whole is read through it. -/
theorem fieldOf_and {m hi lo : Nat} (h : fieldOf m hi lo = 2 ^ (hi - lo + 1) - 1) (v : Nat) : fieldOf (v &&& m) hi lo = fieldOf v hi lo := by
  rw [fieldOf, Nat.and_div_two_pow, Nat.and_mod_two_pow]
  rw [fieldOf] at h
  rw [h, Nat.and_two_pow_sub_one_eq_mod, Nat.mod_mod, fieldOf]

/-- The enable bit set beside a field above it. -/
theorem fieldOf_or_one {hi lo : Nat} (h : 1 ≤ lo) (v : Nat) : fieldOf (v ||| 1) hi lo = fieldOf v hi lo := by
  have hone : 1 / 2 ^ lo = 0 := Nat.div_eq_of_lt (Nat.one_lt_two_pow (by omega))
  rw [fieldOf, Nat.or_div_two_pow, hone, Nat.or_zero, fieldOf]

theorem or_one_mod_two (v : Nat) : (v ||| 1) % 2 = 1 := by
  rw [← pow_one 2, Nat.or_mod_two_pow]
  rcases Nat.mod_two_eq_zero_or_one v with h | h <;> simp [h]

/-- GUT_CH_CTL as an enable leaves it. -/
theorem getF_putCtl (s : State) (c v : Nat) {f : Fld} (hreg : f.reg = .gutChCtl) (hkept : fieldOf 0x1FFFF03 f.hi f.lo = 2 ^ (f.hi - f.lo + 1) - 1) :
    getF (putCtl s c v) f c = fieldOf v f.hi f.lo := by
  have hlt : v &&& 0x1FFFF03 < 2 ^ 64 := Nat.and_lt_two_pow _ (by decide)
  rw [getF, hreg, putCtl, getReg_setReg_same, BitVec.toNat_ofNat, Nat.mod_eq_of_lt hlt, fieldOf_and hkept]

/-- A channel that an enable has started: nothing in its slice, its counters and its status cleared. -/
def chanCleared (s : State) (c v : Nat) : State :=
  clearReg (setF (setF (setF (setChan (putCtl s c v) c {}) Fld.gutChSeq c 0) Fld.gutChDhead c 0) Fld.gutChDtail c 0) .gutChStat c

theorem getReg_chanCleared_other (s : State) (v : Nat) (r : Reg) {i : Nat} (h : i ≠ c) : getReg (chanCleared s c v) r i = getReg s r i := by
  rw [chanCleared, clearReg, getReg_setReg, if_neg (fun e => h e.2), getReg_setF_other _ _ _ _ _ _ (.inr h), getReg_setF_other _ _ _ _ _ _ (.inr h),
    getReg_setF_other _ _ _ _ _ _ (.inr h), getReg_setChan, putCtl, getReg_setReg, if_neg (fun e => h e.2)]

theorem chanOf_chanCleared (s : State) (c v : Nat) : chanOf (chanCleared s c v) c = {} := chanOf_setChan_same (putCtl s c v) c {}

theorem getF_setReg_other {r : Reg} {f : Fld} (h : f.reg ≠ r) (s : State) (i j : Nat) (v : Dword) : getF (setReg s r i v) f j = getF s f j := by
  rw [getF, getReg_setReg, if_neg (fun e => h e.1), getF]

/-- What an enable leaves in the channel's control register and counters. -/
theorem getF_chanCleared (s : State) (c v : Nat) :
    (∀ f : Fld, f.reg = .gutChCtl → fieldOf 0x1FFFF03 f.hi f.lo = 2 ^ (f.hi - f.lo + 1) - 1 → getF (chanCleared s c v) f c = fieldOf v f.hi f.lo) ∧
    getF (chanCleared s c v) Fld.gutChSeq c = 0 ∧ getF (chanCleared s c v) Fld.gutChDhead c = 0 ∧ getF (chanCleared s c v) Fld.gutChDtail c = 0 := by
  have hstat {f : Fld} (h : f.reg ≠ .gutChStat) : getF (chanCleared s c v) f c =
      getF (setF (setF (setF (setChan (putCtl s c v) c {}) Fld.gutChSeq c 0) Fld.gutChDhead c 0) Fld.gutChDtail c 0) f c :=
    getF_setReg_other h _ _ _ _
  refine ⟨fun f hreg hkept => ?_, ?_, ?_, ?_⟩
  · have hother {r : Reg} (h : Reg.gutChCtl ≠ r) : f.reg ≠ r := hreg ▸ h
    rw [hstat (hother (by decide)), getF_setF_other _ _ _ _ _ _ (.inl (hother (by decide))), getF_setF_other _ _ _ _ _ _ (.inl (hother (by decide))),
      getF_setF_other _ _ _ _ _ _ (.inl (hother (by decide))), getF_setChan, getF_putCtl s c v hreg hkept]
  · rw [hstat (by decide), getF_setF_of_apart _ (by decide), getF_setF_of_apart _ (by decide), getF_setF_within _ _ _ (by decide) (by decide)]
  · rw [hstat (by decide), getF_setF_of_apart _ (by decide), getF_setF_within _ _ _ (by decide) (by decide)]
  · rw [hstat (by decide), getF_setF_within _ _ _ (by decide) (by decide)]

variable {v : Word} (hmode : mode s = 1) (hpf : Requester.isPf req = true)
include hmode hpf

theorem exec_channelEnable_pf : exec (.channelEnable req c v) s = .next (chanStart s c (v.toNat ||| 1)) := by
  have henable : bitN (v.toNat ||| 1) 0 = true := by simp [bitN, or_one_mod_two]
  show execChannelEnable req c v s = _
  rw [execChannelEnable, gutWrite_pf hmode hpf, chanCtlWrite, if_pos henable]

theorem exec_channelEnable_starts (hoff : getF s Fld.gutChCtlEnable c = 0) (hst : getF s Fld.gutChStatState c = 0)
    (hfits : sliceFits s c (v.toNat ||| 1) = true) (hring : drainRingOk s c = true) :
    exec (.channelEnable req c v) s = .next (gutterRun (latchWake (chanCleared s c (v.toNat ||| 1)) 78 7)) := by
  rw [exec_channelEnable_pf hmode hpf, chanStart, if_neg (by simp [flagF, hoff, hst, hfits, hring])]
  rfl

theorem exec_channelEnable_refused (h : sliceFits s c (v.toNat ||| 1) = false ∨ getF s Fld.gutChCtlEnable c = 1) :
    exec (.channelEnable req c v) s = .next (bump s Fld.gutDeniedCnt 0) := by
  rw [exec_channelEnable_pf hmode hpf, chanStart, if_pos (by rcases h with h | h <;> simp [flagF, h])]
  rfl

theorem exec_channelDisable_pf : exec (.channelDisable req c v) s = .next (chanStop s c (v.toNat / 2 * 2)) := by
  have hdisable : ¬ bitN (v.toNat / 2 * 2) 0 = true := by simp [bitN]
  show execChannelDisable req c v s = _
  rw [execChannelDisable, gutWrite_pf hmode hpf, chanCtlWrite, if_neg hdisable]

theorem exec_channelDisable_running (hst : getF s Fld.gutChStatState c = 1) (hfault : getF s Fld.gutChStatDrainFault c = 0) :
    exec (.channelDisable req c v) s = .next (setF (setF s Fld.gutChCtlEnable c 0) Fld.gutChStatState c 2) := by
  have hnone : flagF (setF s Fld.gutChCtlEnable c 0) Fld.gutChStatDrainFault c = false :=
    flagF_eq_false ((getF_setF_of_apart _ (by decide) _ _ _).trans hfault)
  rw [exec_channelDisable_pf hmode hpf, chanStop, if_pos hst]
  simp only [hnone, Bool.false_eq_true, if_false]

theorem exec_channelDisable_stopping (hst : getF s Fld.gutChStatState c = 2) : exec (.channelDisable req c v) s = .next s := by
  rw [exec_channelDisable_pf hmode hpf, chanStop, if_neg (by omega), if_pos hst]

theorem exec_dheadWrite_pf : exec (.dheadWrite req c v) s = .next (dheadSet s c v.toNat) := by
  show execDheadWrite req c v s = _
  rw [execDheadWrite, gutWrite_pf hmode hpf]

theorem exec_dheadWrite_within (hlt : v.toNat < drainSize s c)
    (hspan : (v.toNat + drainSize s c - getF s Fld.gutChDhead c) % drainSize s c ≤ drainUsed s c) :
    exec (.dheadWrite req c v) s = .next (drainCheck (setF s Fld.gutChDhead c v.toNat) c) := by
  rw [exec_dheadWrite_pf hmode hpf, dheadSet, if_pos ⟨hlt, hspan⟩]

theorem exec_dheadWrite_outside (h : drainSize s c ≤ v.toNat) : exec (.dheadWrite req c v) s = .next (bump s Fld.gutDeniedCnt 0) := by
  rw [exec_dheadWrite_pf hmode hpf, dheadSet, if_neg (by omega)]
  rfl

end

/-! ### The end of a stop (15 R439) -/

section
variable {s : State} {c : Nat}

/-- A channel disabled, before it shows its empty slice. -/
def chanEmptied (s : State) (c : Nat) : State :=
  setF (setF (setChan s c { chanOf s c with pkts := [], ovf := none, noRoom := none }) Fld.gutChStatState c 0) Fld.gutChStatOvfPending c 0

theorem chanDisabled_noFlushes (h : s.gut.flushes = []) : chanDisabled s c = chanSettle (chanEmptied s c) c := by
  have hnone : (chanSettle (chanEmptied s c) c).gut.flushes = [] := by
    rw [chanSettle_flushes, chanEmptied, setF_gut, setF_gut]
    exact h
  rw [chanDisabled, ← chanEmptied, endFlushes, hnone, List.filter_nil, List.foldl_nil]

theorem exec_channelStopDone_empty (hst : getF s Fld.gutChStatState c = 2) (hpkts : (chanOf s c).pkts = []) (hflush : s.gut.flushes = []) :
    exec (.channelStopDone c) s = .next (chanSettle (chanEmptied s c) c) := by
  show execChannelStopDone c s = _
  rw [execChannelStopDone, if_pos ⟨hst, hpkts⟩, chanDisabled_noFlushes hflush]

theorem exec_channelStopDone_other (hst : getF s Fld.gutChStatState c ≠ 2) : exec (.channelStopDone c) s = .next s := by
  show execChannelStopDone c s = _
  rw [execChannelStopDone, if_neg (fun e => hst e.1)]

theorem getF_chanEmptied (s : State) (c : Nat) :
    getF (chanEmptied s c) Fld.gutChStatState c = 0 ∧ getF (chanEmptied s c) Fld.gutChStatOvfPending c = 0 :=
  ⟨(getF_setF_of_apart _ (by decide) _ _ _).trans (getF_setF_within _ _ _ (by decide) (by decide)), getF_setF_within _ _ _ (by decide) (by decide)⟩

theorem chanOf_chanEmptied (s : State) (c : Nat) : chanOf (chanEmptied s c) c = { chanOf s c with pkts := [], ovf := none, noRoom := none } :=
  Tab.get_store_same _ _ _ _

end

/-! ### Packets (15 R430 to R434, Tables 15.1, 15.3) -/

section
variable {s : State} {c src typ : Nat} {payload : List Byte}

/-- The channel after the packet: the next sequence number, and the packet at the slice's end. -/
def packetTaken (s : State) (c : Nat) (p : List Byte) : State :=
  setChan (bump s Fld.gutChSeq c) c { chanOf s c with pkts := (chanOf s c).pkts ++ [(s.ftime, p)] }

/-- A packet's header (15 R432). -/
def packetHead (src typ prio seq time units : Nat) : List Byte :=
  leBytes 1 src ++ (leBytes 1 units ++ (leBytes 1 typ ++ (leBytes 1 prio ++ (leBytes 4 seq ++ leBytes 8 time))))

theorem packetHead_length (src typ prio seq time units : Nat) : (packetHead src typ prio seq time units).length = 16 := by
  simp only [packetHead, List.length_append, leBytes_length]

theorem tracePacket_eq (src typ prio seq time : Nat) (payload : List Byte) : tracePacket src typ prio seq time payload =
    packetHead src typ prio seq time (1 + (payload.length + 15) / 16) ++
      (payload ++ List.replicate (16 * ((payload.length + 15) / 16) - payload.length) 0) := by
  simp only [tracePacket, packetHead, List.append_assoc, Nat.add_sub_cancel_left]

theorem tracePacket_length (src typ prio seq time : Nat) (payload : List Byte) :
    (tracePacket src typ prio seq time payload).length = 16 * (1 + (payload.length + 15) / 16) := by
  simp only [tracePacket, List.length_append, leBytes_length, List.length_replicate]
  omega

theorem leAt_packetHead (src typ prio seq time units : Nat) :
    leAt (packetHead src typ prio seq time units) 0 1 = src % 2 ^ 8 ∧ leAt (packetHead src typ prio seq time units) 1 1 = units % 2 ^ 8 ∧
    leAt (packetHead src typ prio seq time units) 2 1 = typ % 2 ^ 8 ∧ leAt (packetHead src typ prio seq time units) 3 1 = prio % 2 ^ 8 ∧
    leAt (packetHead src typ prio seq time units) 4 4 = seq % 2 ^ 32 ∧ leAt (packetHead src typ prio seq time units) 8 8 = time % 2 ^ 64 := by
  simp (disch := simp) only [packetHead, leAt_append_left, leAt_append_right, leBytes_length, Nat.sub_self, Nat.reduceSub, leAt_leBytes, Nat.reduceMul, and_self]

/-- A packet's header stands before its payload. -/
theorem leAt_tracePacket (src typ prio seq time : Nat) (payload : List Byte) {off n : Nat} (h : off + n ≤ 16) :
    leAt (tracePacket src typ prio seq time payload) off n = leAt (packetHead src typ prio seq time (1 + (payload.length + 15) / 16)) off n := by
  rw [tracePacket_eq, leAt_append_left (by rwa [packetHead_length])]

theorem payload_tracePacket (src typ prio seq time : Nat) (payload : List Byte) :
    ((tracePacket src typ prio seq time payload).drop 16).take payload.length = payload := by
  rw [tracePacket_eq, List.drop_left' (packetHead_length _ _ _ _ _ _), List.take_left]

theorem chanOffer_taken (hst : getF s Fld.gutChStatState c = 1) (hovf : (chanOf s c).ovf = none) {prio : Nat}
    (hprio : getF s Fld.gutChCtlMode c = 1 ∨ getF s Fld.gutChStatShed c ≤ prio)
    (hroom : chanFill s c + 16 * (1 + (payload.length + 15) / 16) ≤ chanSize s c) : chanOffer s c src typ prio payload =
      chanSettle (packetTaken s c (tracePacket src typ prio (getF s Fld.gutChSeq c) s.ftime payload)) c := by
  have hseq {f : Fld} (h : Fld.gutChSeq.apart f) : getF (bump s Fld.gutChSeq c) f c = getF s f c := getF_bump_of_apart s h c c
  have hfits : chanFill (bump s Fld.gutChSeq c) c + (tracePacket src typ prio (getF s Fld.gutChSeq c) s.ftime payload).length ≤
      chanSize (bump s Fld.gutChSeq c) c := by
    rw [tracePacket_length, chanSize, hseq (by decide)]
    exact hroom
  rw [chanOffer, if_neg (not_not.2 hst), chanOverflow_none hovf]
  dsimp only [chanSeq]
  rw [if_neg]
  · rfl
  · rw [chanOf_bump, hovf, decide_eq_true hfits, flagF, hseq (by decide), hseq (by decide)]
    rcases hprio with h | h
    · simp [h]
    · split <;> simp [h]

theorem offer_enabled (hen : getF s Fld.gutSrcEnable src = 1) :
    offer s src typ payload = chanOffer s (getF s Fld.gutSrcChannel src) src typ (getF s Fld.gutSrcPriority src) payload := if_pos (flagF_eq_true hen)

theorem exec_tracePacketOffered_taken (hemits : sourceEmits s src typ payload = true) (hen : getF s Fld.gutSrcEnable src = 1)
    (hch : getF s Fld.gutSrcChannel src = c) (hst : getF s Fld.gutChStatState c = 1) (hovf : (chanOf s c).ovf = none)
    (hprio : getF s Fld.gutChCtlMode c = 1 ∨ getF s Fld.gutChStatShed c ≤ getF s Fld.gutSrcPriority src)
    (hroom : chanFill s c + 16 * (1 + (payload.length + 15) / 16) ≤ chanSize s c) : exec (.tracePacketOffered src typ payload) s =
      .next (chanSettle (packetTaken s c (tracePacket src typ (getF s Fld.gutSrcPriority src) (getF s Fld.gutChSeq c) s.ftime payload)) c) := by
  show execTracePacketOffered src typ payload s = _
  rw [execTracePacketOffered, if_pos hemits, offer_enabled hen, hch, chanOffer_taken hst hovf hprio hroom]

theorem exec_tracePacketOffered_disabled (hen : getF s Fld.gutSrcEnable src = 0) : exec (.tracePacketOffered src typ payload) s = .next s := by
  have hoffer : offer s src typ payload = s := if_neg (by simp [flagF, hen])
  show execTracePacketOffered src typ payload s = _
  rw [execTracePacketOffered, hoffer, ite_self]

theorem exec_gutMark_thread (s : State) (t : Tid) (n : Nat) (d : Dword) :
    exec (.gutMark (.thread t) n d) s = .next (offer s 46 0x40 (leBytes 8 d.toNat ++ leBytes 8 t.toNat)) := by
  have hopen : hostClosed s (.thread t) = false := by simp [hostClosed]
  show Host.Outcome.next (if hostClosed s (.thread t) = true then _ else _) = _
  rw [hopen]
  rfl

theorem exec_gutMark_pf (hmode : mode s = 1) (ep n : Nat) (d : Dword) :
    exec (.gutMark (.pf ep) n d) s = .next (offer s 46 0x40 (leBytes 8 d.toNat ++ leBytes 8 (0x2000 + ep))) := by
  show execGutMark (.pf ep) n d s = _
  rw [execGutMark, gated_normal hmode]
  rfl

end

/-! ### Draining (15 R437, R438) -/

section
variable {s : State} {c time : Nat} {p : List Byte} {rest : List (Nat × List Byte)}

/-- What a drain write asks of its channel: it runs without a fault in a Gutter that runs, and a packet waits. -/
structure Draining (s : State) (c time : Nat) (p : List Byte) (rest : List (Nat × List Byte)) : Prop where
  state : getF s Fld.gutChStatState c = 1
  fault : getF s Fld.gutChStatDrainFault c = 0
  dom : domState s 78 = 0
  pkts : (chanOf s c).pkts = (time, p) :: rest

theorem Draining.drains (h : Draining s c time p rest) : chanDrains s c = true := by
  simp [chanDrains, flagF, h.state, h.fault, domUp, h.dom]

theorem deviceWrite_below_hosts {a : Nat} (h : a < 0x1000000000000) (s : State) (bs : List Byte) : deviceWrite s a bs = writeBytes s a bs := by
  have hep : epOfClass (classOf a) = none := by
    unfold classOf
    split_ifs
    any_goals rfl
    all_goals omega
  rw [deviceWrite, hep]

/-- A packet that does not reach the ring's end is written in one piece. -/
theorem ringWrite_straight {base size at_ : Nat} (hlow : base + at_ < 0x1000000000000) (hfits : at_ + p.length ≤ size) (s : State) :
    ringWrite s base size at_ p = writeBytes s (base + at_) p := by
  rw [ringWrite, List.take_of_length_le (by omega), List.drop_eq_nil_of_le (by omega), deviceWrite_below_hosts hlow,
    deviceWrite_below_hosts (by omega), writeBytes]

theorem classOf_hbm_lt {a : Nat} (h : classOf a = some .hbm) : a < 0x20000000000 := by
  unfold classOf at h
  split_ifs at h with h1 h2 h3
  any_goals cases h
  exact h3.2

/-- The channel after a packet has gone to the ring, still unannounced. -/
def drainedChan (s : State) (c : Nat) (rest : List (Nat × List Byte)) : Chan :=
  { chanOf s c with pkts := rest, unann := (chanOf s c).unann + 1, unannAt := if (chanOf s c).unann = 0 then s.ftime else (chanOf s c).unannAt }

/-- The state after a packet has gone to the ring at DTAIL, which moves past it. -/
def packetDrained (s : State) (c : Nat) (p : List Byte) (rest : List (Nat × List Byte)) : State :=
  setChan (bump (setF (writeBytes s (drainBase s c + getF s Fld.gutChDtail c) p) Fld.gutChDtail c
    ((getF s Fld.gutChDtail c + p.length) % drainSize s c)) Fld.gutChPktCnt c) c (drainedChan s c rest)

theorem getF_packetDrained {f : Fld} (htail : Fld.gutChDtail.apart f) (hcnt : Fld.gutChPktCnt.apart f) (i : Nat) :
    getF (packetDrained s c p rest) f i = getF s f i := by
  rw [packetDrained, getF_setChan, getF_bump_of_apart _ hcnt, getF_setF_of_apart _ htail, getF_of_regs_eq (writeBytes_regs s _ p)]

theorem chanOf_packetDrained : chanOf (packetDrained s c p rest) c = drainedChan s c rest := by
  rw [packetDrained, chanOf_setChan_same]

theorem getF_packetDrained_dtail :
    getF (packetDrained s c p rest) Fld.gutChDtail c = (getF s Fld.gutChDtail c + p.length) % drainSize s c % 2 ^ 32 := by
  rw [packetDrained, getF_setChan, getF_bump_of_apart _ (by decide), getF_setF_same _ _ _ _ ⟨by decide, by decide⟩]
  rfl

theorem exec_drainWriteDone_drains (h : Draining s c time p rest) (hend : getF s Fld.gutChDtail c + p.length ≤ drainSize s c)
    (hroom : drainUsed s c + p.length < drainSize s c) (hring : classOf (drainBase s c) = some .hbm)
    (hcoal : (chanOf s c).unann + 1 < getF s Fld.gutChNotifyCoalCount c) (hovf : (chanOf s c).ovf = none) (hmark : getF s Fld.gutChCtlMode c = 1) :
    exec (.drainWriteDone c) s = .next (markSettled (packetDrained s c p rest) c) := by
  have htail : getF s Fld.gutChDtail c < 2 ^ 32 := getF_lt s Fld.gutChDtail c
  have hlow : drainBase s c + getF s Fld.gutChDtail c < 0x1000000000000 := by have := classOf_hbm_lt hring; omega
  have hfits : drainFits s c p = true := decide_eq_true hroom
  have hreach : reachStatus s (drainBase s c) 0 = none := by rw [reachStatus, hring]; rfl
  have hgut : chanOf (writeBytes s (drainBase s c + getF s Fld.gutChDtail c) p) c = chanOf s c := by rw [chanOf, writeBytes_gut, chanOf]
  have hftime : (writeBytes s (drainBase s c + getF s Fld.gutChDtail c) p).ftime = s.ftime := by
    obtain ⟨m, hm⟩ := writeBytes_only_mem s (drainBase s c + getF s Fld.gutChDtail c) p
    rw [hm]
  have hsize : drainSize (writeBytes s (drainBase s c + getF s Fld.gutChDtail c) p) c = drainSize s c := by
    rw [drainSize, getF_of_regs_eq (writeBytes_regs s _ p), drainSize]
  have hquiet : ¬ getF (packetDrained s c p rest) Fld.gutChNotifyCoalCount c ≤ (chanOf s c).unann + 1 := by
    rw [getF_packetDrained (by decide) (by decide)]
    omega
  have hsettle : chanSettle (packetDrained s c p rest) c = markSettled (packetDrained s c p rest) c :=
    chanSettle_mark ((getF_packetDrained (by decide) (by decide) c).trans hmark)
  have hnone : (chanOf (markSettled (packetDrained s c p rest) c) c).ovf = none := by
    obtain ⟨since, e⟩ := chanOf_markSettled (s := packetDrained s c p rest) (c := c)
    rw [e, chanOf_packetDrained]
    exact hovf
  show execDrainWriteDone c s = _
  simp only [execDrainWriteDone, h.pkts, h.drains, hfits, hreach, ringWrite_straight hlow hend, hsize, Bool.not_true, Bool.or_self, Bool.false_eq_true,
    if_false, chanOf_bump, chanOf_setF, hgut]
  simp only [bump_ftime, setF_ftime, hftime]
  simp only [packetDrained, drainedChan] at hquiet hsettle hnone ⊢
  rw [if_neg hquiet, hsettle, chanOverflow_none hnone, ite_self]

theorem exec_drainWriteDone_noRoom (h : Draining s c time p rest) (hfull : drainSize s c ≤ drainUsed s c + p.length) :
    exec (.drainWriteDone c) s = .next s := by
  have hfits : drainFits s c p = false := decide_eq_false (by omega)
  show execDrainWriteDone c s = _
  simp [execDrainWriteDone, h.pkts, hfits]

theorem exec_drainWriteDone_nothing (h : (chanOf s c).pkts = []) : exec (.drainWriteDone c) s = .next s := by
  show execDrainWriteDone c s = _
  simp only [execDrainWriteDone, h]

theorem exec_drainWriteFault_nothing (h : (chanOf s c).pkts = []) (status reason : Nat) : exec (.drainWriteFault c status reason) s = .next s := by
  show execDrainWriteFault c status reason s = _
  simp only [execDrainWriteFault, h]

/-- The fault shown and counted. -/
def faultShown (s : State) (c : Nat) : State := bump (setF s Fld.gutChStatDrainFault c 1) Fld.gutDrainFaultCnt 0

theorem exec_drainWriteFault_faults (h : Draining s c time p rest) (hroom : drainUsed s c + p.length < drainSize s c) (status reason : Nat) :
    exec (.drainWriteFault c status reason) s = .next (raiseD (faultShown s c) none
      { code := 0x0A04, aux8 := c, aux16 := status % 16 + reason % 16 * 256, arg0 := drainBase s c + getF s Fld.gutChDtail c } |>
      fun w => if getF w Fld.gutChStatState c = 2 then chanDisabled w c else w) := by
  have hfits : drainFits s c p = true := decide_eq_true hroom
  show execDrainWriteFault c status reason s = _
  simp only [execDrainWriteFault, h.pkts, h.drains, hfits, Bool.and_self, if_true]
  rfl

/-- The stall shown, at the time at which it has lasted GUT_CH_STALL (log 125). -/
def stallShown (s : State) (c time : Nat) : State := setF (reach s (time + getF s Fld.gutChStall c * 1000)) Fld.gutChStatDrainStall c 1

theorem exec_drainStallTimeout_stalls (h : Draining s c time p rest) (hnew : getF s Fld.gutChStatDrainStall c = 0)
    (hsince : (chanOf s c).noRoom = some time) : exec (.drainStallTimeout c) s = .next
      (raiseD (stallShown s c time) none { code := 0x0A03, aux8 := c, arg0 := getF s Fld.gutChDhead c, arg1 := getF s Fld.gutChDtail c }) := by
  have hkept {f : Fld} (hf : Fld.gutChStatDrainStall.apart f) : getF (stallShown s c time) f c = getF s f c := getF_setF_of_apart _ hf _ _ _
  show execDrainStallTimeout c s = _
  simp only [execDrainStallTimeout, hsince, h.drains, flagF_eq_false hnew, Bool.not_true, Bool.or_self, Bool.false_eq_true, if_false]
  show Host.Outcome.next (raiseD (stallShown s c time) none
    { code := 0x0A03, aux8 := c, arg0 := getF (stallShown s c time) Fld.gutChDhead c, arg1 := getF (stallShown s c time) Fld.gutChDtail c }) = _
  rw [hkept (by decide), hkept (by decide)]

theorem exec_drainStallTimeout_room (h : (chanOf s c).noRoom = none) : exec (.drainStallTimeout c) s = .next s := by
  show execDrainStallTimeout c s = _
  simp only [execDrainStallTimeout, h]

end

/-! ### The statement -/

/-- Settles O39: each clause is the law above of the write, the packet or the drain that it speaks of. DHEAD is a PF's to move (log 149), and a
stall is raised at the time it names (log 125). -/
theorem gutterChannels : Obligations.GutterChannels := by
  unfold Obligations.GutterChannels
  intro s req t c src typ status reason v d payload p time rest _ n dt ring clear
  have hdrain (h : clear) : Draining s c time p rest := ⟨h.1, h.2.1, h.2.2.1, h.2.2.2⟩
  refine ⟨fun hpf hmode => ⟨fun hoff hst hfits hring => ?_, fun h => exec_channelEnable_refused hmode hpf (.inl h),
      fun h => exec_channelEnable_refused hmode hpf (.inr h), exec_channelDisable_running hmode hpf, exec_channelDisable_stopping hmode hpf,
      exec_dheadWrite_within hmode hpf, exec_dheadWrite_outside hmode hpf⟩,
    fun hmode => ⟨congrArg _ (gutWrite_thread hmode t _), congrArg _ (gutWrite_thread hmode t _), congrArg _ (gutWrite_thread hmode t _)⟩,
    fun hst hpkts hflush => ?_, exec_channelStopDone_other, ⟨exec_gutMark_thread s t 8 d, fun hmode => exec_gutMark_pf hmode 1 8 d⟩,
    fun hemits hen hch hst hovf hprio => ?_, exec_tracePacketOffered_disabled,
    fun hclear hend hroom hring hcoal hovf hmark => ?_, fun hclear => exec_drainWriteDone_noRoom (hdrain hclear),
    fun h => ⟨exec_drainWriteDone_nothing h, exec_drainWriteFault_nothing h status reason⟩,
    fun hclear hroom => ?_, fun hclear hnew hsince => ?_, exec_drainStallTimeout_room⟩
  · obtain ⟨hctl, hseq, hhead, htail⟩ := getF_chanCleared s c (v.toNat ||| 1)
    refine ⟨_, exec_channelEnable_starts hmode hpf hoff hst hfits hring, ?_, ?_, ?_, hseq, hhead, htail, chanOf_chanCleared s c _,
      fun r i hi => getReg_chanCleared_other s _ r hi, rfl⟩
    · rw [hctl _ rfl (by decide)]
      simp [fieldOf, or_one_mod_two]
    · exact (hctl _ rfl (by decide)).trans (fieldOf_or_one (by decide) v.toNat)
    · exact (hctl _ rfl (by decide)).trans (fieldOf_or_one (by decide) v.toNat)
  · obtain ⟨hstate, hpending⟩ := getF_chanEmptied s c
    exact ⟨_, exec_channelStopDone_empty hst hpkts hflush, hstate, hpending, by rw [chanOf_chanEmptied], by rw [chanOf_chanEmptied], rfl⟩
  · intro units hroom
    obtain ⟨hsrc, hunits, htyp, hpr, hseq, htime⟩ := leAt_packetHead src typ (getF s Fld.gutSrcPriority src) (getF s Fld.gutChSeq c) s.ftime units
    have hhead {off n : Nat} := leAt_tracePacket src typ (getF s Fld.gutSrcPriority src) (getF s Fld.gutChSeq c) s.ftime payload (off := off) (n := n)
    have hprioLt : getF s Fld.gutSrcPriority src < 2 ^ 2 := getF_lt s Fld.gutSrcPriority src
    have hseqLt : getF s Fld.gutChSeq c < 2 ^ 32 := getF_lt s Fld.gutChSeq c
    exact ⟨_, _, exec_tracePacketOffered_taken hemits hen hch hst hovf hprio hroom, by rw [packetTaken, chanOf_setChan_same],
      tracePacket_length _ _ _ _ _ _, (hhead (by decide)).trans hsrc, (hhead (by decide)).trans hunits, (hhead (by decide)).trans htyp,
      (hhead (by decide)).trans (hpr.trans (Nat.mod_eq_of_lt (by omega))), (hhead (by decide)).trans (hseq.trans (Nat.mod_eq_of_lt hseqLt)),
      (hhead (by decide)).trans htime, payload_tracePacket _ _ _ _ _ _, getF_bump_same s Fld.gutChSeq c ⟨by decide, by decide⟩, rfl, rfl⟩
  · obtain ⟨since, hchan⟩ := chanOf_markSettled (s := packetDrained s c p rest) (c := c)
    have hmem (b : Nat) := readByte_markSettled (packetDrained s c p rest) c b
    refine ⟨_, exec_drainWriteDone_drains (hdrain hclear) hend hroom hring hcoal hovf hmark, ?_, ?_, ?_, ?_, ?_⟩
    · exact (List.map_congr_left fun i _ => hmem (ring + dt + i)).trans (readBytes_writeBytes s (ring + dt) p)
    · exact fun b hb => (hmem b).trans (readByte_writeBytes_outside s _ b p hb)
    · exact (getF_markSettled (by decide) (by decide) c).trans getF_packetDrained_dtail
    all_goals rw [hchan, chanOf_packetDrained, drainedChan]
  · exact ⟨_, exec_drainWriteFault_faults (hdrain hclear) hroom status reason,
      (getF_bump_of_apart _ (by decide) _ _).trans (getF_setF_within _ _ _ (by decide) (by decide)),
      (getF_bump_same _ _ _ ⟨by decide, by decide⟩).trans (by rw [getF_setF_of_apart _ (by decide)]; rfl), rfl⟩
  · exact ⟨_, exec_drainStallTimeout_stalls (hdrain hclear) hnew hsince, getF_setF_within _ _ _ (by decide) (by decide), rfl, rfl⟩

end Sys2Proof.Machine
end

section
/-! PROOFS. The Loft (12 R362 to R383): pools, the checks of appends and queries, their arrival over Nawyn and their ends, bias loads and
LOFT_ABORT, and the statement assembled from them. -/

namespace Sys2Proof.Machine

/-! ### Pools (12 R362, R386) -/

section
variable {s : State} {req : Requester} {i : Nat} {v : Word}

/-- A pool whose tail a write has moved, with its level shown. -/
def tailMoved (s : State) (i n : Nat) : State := poolShow (setF s Fld.loftPoolTail i n) i

theorem exec_loftPoolTailWrite_allowed (hmode : mode s = 1)
    (h : Requester.isPf req = true ∨ (loftOn s = true ∧ Requester.bay s req = some (ctlBay s))) :
    exec (.loftPoolTailWrite req i v) s = .next (tailMoved s i v.toNat) := by
  show execLoftPoolTailWrite req i v s = _
  rw [execLoftPoolTailWrite, gated_normal hmode, if_pos, tailMoved]
  rcases h with h | ⟨hon, hbay⟩
  · simp [h]
  · simp [hon, hbay]

theorem exec_loftPoolTailWrite_refused (hmode : mode s = 1) (hpf : Requester.isPf req = false) (hbay : Requester.bay s req ≠ some (ctlBay s)) :
    exec (.loftPoolTailWrite req i v) s = .next (bump s Fld.loftDeniedCnt 0) := by
  show execLoftPoolTailWrite req i v s = _
  rw [execLoftPoolTailWrite, gated_normal hmode, if_neg (by simp [hpf, hbay])]

theorem getF_tailMoved_tail (n : Nat) : getF (tailMoved s i n) Fld.loftPoolTail i = n % 2 ^ 20 := by
  rw [tailMoved, poolShow, getF_setF_of_apart _ (by decide), getF_setF_same _ _ _ _ ⟨by decide, by decide⟩]
  rfl

theorem getF_tailMoved_level (n : Nat) : getF (tailMoved s i n) Fld.loftPoolLevel i =
    (n % 2 ^ 20 + 2 ^ 20 - getF s Fld.loftPoolHead i) % 2 ^ poolLog2 s i % 2 ^ 20 := by
  rw [tailMoved, poolShow, getF_setF_same _ _ _ _ ⟨by decide, by decide⟩, poolLevelNow, getF_setF_same _ _ _ _ ⟨by decide, by decide⟩,
    getF_setF_of_apart _ (by decide), poolLog2, getF_setF_of_apart _ (by decide), poolLog2]
  rfl

theorem tailMoved_mem (n : Nat) : (tailMoved s i n).mem = s.mem := by rw [tailMoved, poolShow, setF_mem, setF_mem]
theorem tailMoved_out (n : Nat) : (tailMoved s i n).out = s.out := by rw [tailMoved, poolShow, setF_out, setF_out]

theorem getReg_tailMoved_other (n : Nat) {r : Reg} {j : Nat} (h : (r ≠ .loftPoolTail ∧ r ≠ .loftPoolLevel) ∨ j ≠ i) :
    getReg (tailMoved s i n) r j = getReg s r j := by
  rw [tailMoved, poolShow, getReg_setF_other _ _ _ _ _ _ (h.imp_left And.right), getReg_setF_other _ _ _ _ _ _ (h.imp_left And.left)]

end

/-! ### The checks of an append (12 R364, Table 12.6) -/

section
variable {s : State} {b : List Byte}

theorem checks_off (h : loftOn s = false) (room : Nat) : appendCheck s b = some 0x80 ∧ queryCheck s b room = some (0x80, 0) := by
  simp [appendCheck, queryCheck, h]

theorem appendCheck_header (hon : loftOn s = true) (h : aN b = 0 ∨ 4096 < aN b ∨ b.length < 32) : appendCheck s b = some 0x81 := by
  have hbad : b.length < 32 ∨ zeroAt b 0x0E 2 = false ∨ zeroAt b 0x12 2 = false ∨ zeroAt b 0x1C 4 = false ∨ aN b = 0 ∨ 4096 < aN b := by tauto
  simp only [appendCheck, hon, Bool.not_true, Bool.false_eq_true, if_false, if_pos hbad]

/-- An append's header that check 1 passes. -/
structure HeaderOk (b : List Byte) : Prop where
  whole : 32 ≤ b.length
  zeros : zeroAt b 0xE 2 = true ∧ zeroAt b 0x12 2 = true ∧ zeroAt b 0x1C 4 = true
  count : 1 ≤ aN b ∧ aN b ≤ 4096

theorem HeaderOk.passes (h : HeaderOk b) :
    ¬ (b.length < 32 ∨ zeroAt b 0x0E 2 = false ∨ zeroAt b 0x12 2 = false ∨ zeroAt b 0x1C 4 = false ∨ aN b = 0 ∨ 4096 < aN b) := by
  obtain ⟨hlen, ⟨h1, h2, h3⟩, hmin, hmax⟩ := h
  simp only [h1, h2, h3, Bool.true_eq_false, false_or]
  omega

section
variable (hon : loftOn s = true) (hdr : HeaderOk b)
include hon hdr

theorem appendCheck_unusable (h : ctxUsable s (aCtx b) = false) : appendCheck s b = some 0x82 := by
  simp only [appendCheck, hon, h, Bool.not_true, Bool.false_eq_true, if_false, if_neg hdr.passes, Bool.and_false, Bool.not_false, if_true]

theorem appendCheck_format (hctx : ctxUsable s (aCtx b) = true) (h : cFmt (ctxRec s (aCtx b)) ≠ leAt b 7 1) : appendCheck s b = some 0x81 := by
  simp only [appendCheck, hon, hctx, Bool.not_true, Bool.false_eq_true, if_false, if_neg hdr.passes, Bool.and_self, h.symm, ne_eq,
    not_false_eq_true, or_true, if_true]

variable (hctx : ctxUsable s (aCtx b) = true) (hfmt : cFmt (ctxRec s (aCtx b)) = leAt b 7 1) (hplain : leAt b 7 1 < 4)
  (hlen : b.length = 32 + 2 * aN b * cDim (ctxRec s (aCtx b)) * loftElemSize (leAt b 7 1))
include hctx hfmt hplain hlen

/-- Past check 2 an append of a format without scales is judged by its place. -/
theorem appendCheck_place : appendCheck s b =
    if cLayers (ctxRec s (aCtx b)) ≤ aLayer b ∨ cGroups (ctxRec s (aCtx b)) ≤ aGroup b then some 0x82
    else if !inSlices s (headAddr (ctxRec s (aCtx b)) (aLayer b) (aGroup b)) 32 then some 0x84
    else if bitN (leAt (ctxRec s (aCtx b)) 0 1) 1 then some 0x87
    else if aPos b ≠ chainEnd s (ctxRec s (aCtx b)) (aLayer b) (aGroup b) ∨ 2 ^ 48 < aPos b + aN b then some 0x85
    else none := by
  have hscale : scaleDiffers s (ctxRec s (aCtx b)) b = false := by
    have : (cFmt (ctxRec s (aCtx b)) == 4) = false := beq_eq_false_iff_ne.2 (by omega)
    simp [scaleDiffers, this]
  have hfits : ¬ (b.length ≠ 32 + 2 * aN b * cDim (ctxRec s (aCtx b)) * loftElemSize (cFmt (ctxRec s (aCtx b))) ∨
      leAt b 7 1 ≠ cFmt (ctxRec s (aCtx b))) := by
    rw [hfmt]
    exact not_or.2 ⟨not_not.2 hlen, not_not.2 rfl⟩
  have hnotE5 : ¬ (cFmt (ctxRec s (aCtx b)) = 4 ∧ (finite32 (leAt b 0x14 4) && finite32 (leAt b 0x18 4)) = false) := fun h => by omega
  simp only [appendCheck, hon, hctx, Bool.not_true, Bool.false_eq_true, if_false, if_neg hdr.passes, Bool.and_self, if_neg hfits, if_neg hnotE5, hscale]

theorem appendCheck_outside (h : cLayers (ctxRec s (aCtx b)) ≤ aLayer b ∨ cGroups (ctxRec s (aCtx b)) ≤ aGroup b) : appendCheck s b = some 0x82 := by
  rw [appendCheck_place hon hdr hctx hfmt hplain hlen, if_pos h]

variable (hlayer : aLayer b < cLayers (ctxRec s (aCtx b))) (hgroup : aGroup b < cGroups (ctxRec s (aCtx b)))
  (hhead : inSlices s (headAddr (ctxRec s (aCtx b)) (aLayer b) (aGroup b)) 32 = true)
include hlayer hgroup hhead

theorem appendCheck_chain : appendCheck s b =
    if bitN (leAt (ctxRec s (aCtx b)) 0 1) 1 then some 0x87
    else if aPos b ≠ chainEnd s (ctxRec s (aCtx b)) (aLayer b) (aGroup b) ∨ 2 ^ 48 < aPos b + aN b then some 0x85
    else none := by
  rw [appendCheck_place hon hdr hctx hfmt hplain hlen, if_neg (by omega), if_neg (by simp [hhead])]

end

theorem queryCheck_header (hon : loftOn s = true) (h : queryHeaderOk b = false) (room : Nat) : queryCheck s b room = some (0x81, 0) := by
  simp [queryCheck, hon, h]

theorem queryCheck_unusable (hon : loftOn s = true) (hdr : queryHeaderOk b = true) (hlen : 32 + 16 * qNseq b ≤ b.length)
    (hctx : ctxUsable s (qSeq b 0).1 = false) (room : Nat) : queryCheck s b room = some (0x82, 0) := by
  have hseq : 1 ≤ qNseq b := by
    simp only [queryHeaderOk, Bool.and_eq_true, decide_eq_true_eq] at hdr
    omega
  have hfirst : (List.range (qNseq b)).find? (fun i => !queryCtxOk s b i) = some 0 := by
    obtain ⟨n, hn⟩ := Nat.exists_eq_add_of_le' hseq
    rw [hn, List.range_succ_eq_map, List.find?_cons_of_pos]
    simp [queryCtxOk, hctx]
  have hwhole : ¬ b.length < 32 + 16 * qNseq b := by omega
  simp [queryCheck, hon, hdr, hwhole, hctx, hfirst]

end

/-! ### Arrival over Nawyn (12 R370, R381) -/

section
variable (w : State) (m : NHdr) (b : List Byte) (query : Bool)

/-- A request that has come over Nawyn, beside its operation. -/
def requestKept : State :=
  { w with loft := { w.loft with reqs := Tab.put w.loft.reqs w.rings.nextOp { kind := bit1 query, payload := b, link := m.link, linkLocal := m.linkLocal, tc := m.tc } } }

/-- The operation of a request that has come over Nawyn. -/
def requestOp : Op :=
  { src := .loft m.src m.tag, opcode := if query then 0x0500 else 0x0501, arrival := w.ftime, bay := ctlBay w, pool := 3, data := b, cost := if query then queryCost w b else appendCost b, partner := (nodePartner w m.src).getD 0 }

/-- What is known of an operation that has come over Nawyn and taken the next number. -/
theorem enrolled_request {o : Op} (hsrc : o.src = .loft m.src m.tag) (hdata : o.data = b) (hbay : o.bay = ctlBay w) (harr : o.arrival = w.ftime) :
    let u := enrolled (requestKept w m b query) o
    opOf u w.rings.nextOp = some o ∧ o.src = .loft m.src m.tag ∧ o.data = b ∧ o.bay = ctlBay w ∧ o.arrival = w.ftime ∧ u.rings.nextOp = w.rings.nextOp + 1 ∧
      u.mem = w.mem ∧ u.regs = w.regs :=
  ⟨opOf_putOp_same _ _ _, hsrc, hdata, hbay, harr, rfl, rfl, rfl⟩

theorem ctxRec_requestKept (c : Nat) : ctxRec (requestKept w m b query) c = ctxRec w c := rfl

theorem seqBounds_requestKept (d : List Byte) (i : Nat) : seqBounds (requestKept w m b query) d i = seqBounds w d i := by
  simp only [seqBounds, ctxRec_requestKept]
  rfl

theorem queryCost_requestKept (d : List Byte) : queryCost (requestKept w m b query) d = queryCost w d := by
  simp only [queryCost, queryBounds, funext (seqBounds_requestKept w m b query d), qRec, ctxRec_requestKept]
  rfl

variable {t : State} {m : NHdr} {b : List Byte} {query : Bool}

theorem loftArrive_meets {st r : Nat} (h : loftMeets (requestKept (latchWake t 73 4) m b query) m b query = some (st, r)) :
    loftArrive t m b query = finishOp (enrolled (requestKept (latchWake t 73 4) m b query)
      { requestOp (latchWake t 73 4) m b query with pool := 0x3F, cost := 0 }) (latchWake t 73 4).rings.nextOp st r 0 := by
  rw [requestKept] at h
  simp only [loftArrive, h]
  rfl

theorem loftArrive_full (h : loftMeets (requestKept (latchWake t 73 4) m b query) m b query = none)
    (hfull : getF (latchWake t 73 4) Fld.loftMaxWait 0 < loftWaiting (latchWake t 73 4)) :
    loftArrive t m b query = refuse (enrolled (requestKept (latchWake t 73 4) m b query) (requestOp (latchWake t 73 4) m b query))
      (latchWake t 73 4).rings.nextOp 0x21 := by
  rw [requestKept] at h
  simp only [loftArrive, h, decide_eq_true hfull, if_true]
  rfl

theorem loftArrive_noPartner (h : loftMeets (requestKept (latchWake t 73 4) m b query) m b query = none)
    (hroom : loftWaiting (latchWake t 73 4) ≤ getF (latchWake t 73 4) Fld.loftMaxWait 0) (hnode : getF (latchWake t 73 4) Fld.loftNodeEnable m.src = 0) :
    loftArrive t m b query = refuse (enrolled (requestKept (latchWake t 73 4) m b query) (requestOp (latchWake t 73 4) m b query))
      (latchWake t 73 4).rings.nextOp 0x20 := by
  have hnone : nodePartner (requestKept (latchWake t 73 4) m b query) m.src = none := 
    if_neg (by rw [show flagF (requestKept (latchWake t 73 4) m b query) Fld.loftNodeEnable m.src = flagF (latchWake t 73 4) Fld.loftNodeEnable m.src from rfl,
      flagF_eq_false hnode]; exact Bool.false_ne_true)
  rw [requestKept] at h hnone
  simp only [loftArrive, h, decide_eq_false (not_lt.2 hroom), hnone, Bool.false_eq_true, if_false, Option.isNone_none, if_true]
  rfl

theorem loftArrive_judged (h : loftMeets (requestKept (latchWake t 73 4) m b query) m b query = none)
    (hroom : loftWaiting (latchWake t 73 4) ≤ getF (latchWake t 73 4) Fld.loftMaxWait 0) (hnode : getF (latchWake t 73 4) Fld.loftNodeEnable m.src = 1) :
    loftArrive t m b query = arriveOp loftStart (requestKept (latchWake t 73 4) m b query) (requestOp (latchWake t 73 4) m b query) := by
  have hsome : nodePartner (requestKept (latchWake t 73 4) m b query) m.src = some (getF (latchWake t 73 4) Fld.loftNodePartner m.src) :=
    if_pos (flagF_eq_true hnode)
  rw [requestKept] at h hsome
  simp only [loftArrive, h, decide_eq_false (not_lt.2 hroom), hsome, Bool.false_eq_true, if_false, Option.isNone_some]
  rfl

theorem requestOp_partner (hnode : getF w Fld.loftNodeEnable m.src = 1) : (requestOp w m b query).partner = getF w Fld.loftNodePartner m.src := by
  have hsome : nodePartner w m.src = some (getF w Fld.loftNodePartner m.src) := if_pos (flagF_eq_true hnode)
  rw [requestOp, hsome]
  rfl

end

/-- A message comes for this node, by a link or from a neighbour (11 R333, R334). -/
def Comes (s : State) (m : NHdr) (len : Nat) : Prop :=
  m.link < 16 ∧ getF s Fld.nawynLinkStatState m.link = 5 ∧ (m.linkLocal = true ∨
    (getF (messageTaken s m len) Fld.nawynLinkStatIdClash m.link = 0 ∧ nodeId (messageTaken s m len) ≠ 0xFFF ∧ m.dst ≠ 0xFFF ∧
      m.dst = nodeId (messageTaken s m len)))

theorem nawynArrive_comes {s : State} {m : NHdr} {bs : List Byte} (h : Comes s m bs.length) (mtype : Nat) (k : State → State) :
    nawynArrive s m mtype bs k = k (messageTaken s m bs.length) := by
  obtain ⟨hlink, hup, hto⟩ := h
  cases hlocal : m.linkLocal with
  | true => exact nawynArrive_linkLocal mtype k ⟨hlink, hup⟩ hlocal
  | false =>
    rw [hlocal] at hto
    exact nawynArrive_here mtype k ⟨⟨hlink, hup⟩, hlocal, hto.resolve_left Bool.false_ne_true⟩

theorem exec_loftRequest {s : State} {m : NHdr} {b : List Byte} (h : Comes s m b.length) (query : Bool) :
    exec (if query then .loftQuery m b else .loftAppend m b) s = .next (loftArrive (messageTaken s m b.length) m b query) := by
  cases query with
  | true =>
    show execLoftQuery m b s = _
    rw [execLoftQuery, nawynArrive_comes h]
  | false =>
    show execLoftAppend m b s = _
    rw [execLoftAppend, nawynArrive_comes h]

/-! ### Ends of an append (12 R362, R364, R365) -/

section
variable {s : State} {r b : List Byte} {x : LReq}

/-- Nothing but memory differs from a state. -/
structure MemOnly (s u : State) : Prop where
  only : ∃ m, u = { s with mem := m }

section
variable {u v : State}

theorem MemOnly.refl : MemOnly s s := ⟨s.mem, rfl⟩

theorem MemOnly.after_writeBytes {a bs} (h : MemOnly s u) : MemOnly s (writeBytes u a bs) := by
  obtain ⟨m, rfl⟩ := h
  obtain ⟨m', h'⟩ := writeBytes_only_mem { s with mem := m } a bs
  exact ⟨m', h'⟩

theorem MemOnly.after_writeLe {a n k} (h : MemOnly s u) : MemOnly s (writeLe u a n k) := h.after_writeBytes

theorem MemOnly.ite {c : Prop} [Decidable c] (h : MemOnly s u) (h' : MemOnly s v) : MemOnly s (if c then u else v) := by
  split
  · exact h
  · exact h'

theorem MemOnly.after_foldl {α : Type} {f : State → α → State} {l : List α} (hf : ∀ u a, MemOnly s u → MemOnly s (f u a)) (h : MemOnly s u) :
    MemOnly s (l.foldl f u) := by
  induction l generalizing u with
  | nil => exact h
  | cons a l ih => exact ih (hf u a h)

theorem MemOnly.after_linkPage {p first} (h : MemOnly s u) : MemOnly s (linkPage u r b p first) := by
  have hpage {a bs k1 n1 v1 k2 n2 v2 k3 n3 v3} :
      MemOnly s (writeLe (writeLe (writeLe (writeBytes u a bs) k1 n1 v1) k2 n2 v2) k3 n3 v3) := .after_writeLe (.after_writeLe (.after_writeLe (.after_writeBytes h)))
  exact .after_writeLe (.ite (.after_writeLe hpage) (.after_writeLe hpage))

theorem MemOnly.after_linkPages {f ps} (h : MemOnly s u) : MemOnly s (linkPages u r b f ps) := by
  induction ps generalizing u with
  | nil => exact h
  | cons p ps ih =>
    rw [linkPages]
    exact ih (.after_linkPage h)

theorem MemOnly.after_beginSlate {st : State × List Nat} {f} (h : MemOnly s st.1) : MemOnly s (beginSlate r b st f).1 := by
  unfold beginSlate
  dsimp only
  split
  · exact h
  · dsimp only
    refine .after_writeBytes (.ite ?_ ?_)
    · exact .after_writeLe (.ite h (.after_writeLe h))
    · exact .ite h (.after_writeLe h)

theorem MemOnly.after_slates {st : State × List Nat} {fs : List Nat} (h : MemOnly s st.1) : MemOnly s (fs.foldl (beginSlate r b) st).1 := by
  induction fs generalizing st with
  | nil => exact h
  | cons f fs ih =>
    rw [List.foldl_cons]
    exact ih (.after_beginSlate h)

theorem MemOnly.after_writeToken {i} (h : MemOnly s u) : MemOnly s (writeToken r b u i) := by
  unfold writeToken
  dsimp only
  split
  · exact h
  · exact .after_writeBytes (.after_writeBytes h)

theorem MemOnly.after_writeCount {f} (h : MemOnly s u) : MemOnly s (writeCount r b u f) := by
  unfold writeCount
  split
  · exact h
  · exact .after_writeLe h

/-- An append's writes are writes of memory. -/
theorem appendWrites_memOnly : MemOnly s (appendWrites s r b x) :=
  .after_writeLe (.after_foldl (fun _ _ h => .after_writeCount h) (.after_foldl (fun _ _ h => .after_writeToken h) (.after_slates (.after_linkPages .refl))))

end

theorem appendWrites_chainEnd (hfit : aPos b + aN b < 2 ^ 64) :
    readLe (appendWrites s r b x) (headAddr r (aLayer b) (aGroup b) + 0x10) 8 = aPos b + aN b :=
  (readLe_writeLe _ _ _ _).trans (Nat.mod_eq_of_lt hfit)

theorem append_end_fits (b : List Byte) : aPos b + aN b < 2 ^ 64 := by
  have hpos : aPos b < 2 ^ 48 := leAt_lt b 8 6
  have hn : aN b < 2 ^ 16 := leAt_lt b 0x10 2
  omega

end

section
variable {s : State} {p : Nat} {o : Op} {x : LReq}

theorem appendStart_low (hpos : chainEnd s (ctxRec s (aCtx o.data)) (aLayer o.data) (aGroup o.data) = aPos o.data)
    (hlow : poolLevelNow s (leAt (ctxRec s (aCtx o.data)) 7 1 % 64) < (appendNeeds s (ctxRec s (aCtx o.data)) o.data).1 ∨
      poolLevelNow s (leAt (ctxRec s (aCtx o.data)) 8 1 % 64) < (appendNeeds s (ctxRec s (aCtx o.data)) o.data).2) :
    appendStart s p o x = finishOp (bump s Fld.loftNoSlateCnt 0) p 0x86 0 0 := by
  rw [appendStart, if_neg (not_not.2 hpos), if_pos hlow]

section
variable (ho : opOf s p = some o) (hx : lreqOf s p = some x) (hdom : domUp s 73 = true) (hop : o.opcode = 0x0501) (hst : o.st = .committed)
include ho hx hdom hop hst

theorem exec_loftAppendDone_bad {a : Nat} (hbad : badPop s (ctxRec s (aCtx o.data)) x = some a) :
    exec (.loftAppendDone p) s = .next (finishOp (badSlate s (aCtx o.data) a) p 0x84 0 0) := by
  show execLoftAppendDone p s = _
  simp only [execLoftAppendDone, ho, hx, hop, hst, hdom, hbad, ne_eq, not_true_eq_false, Bool.true_eq_false, or_self, if_false]

theorem exec_loftAppendDone_written (hgood : badPop s (ctxRec s (aCtx o.data)) x = none) : exec (.loftAppendDone p) s = .next
    (finishOk (appendWrites s (ctxRec s (aCtx o.data)) o.data x) p (aPos o.data + aN o.data)) := by
  show execLoftAppendDone p s = _
  simp only [execLoftAppendDone, ho, hx, hop, hst, hdom, hgood, ne_eq, not_true_eq_false, Bool.true_eq_false, or_self, if_false]

end

theorem exec_loftDone_gone (ho : opOf s p = none) :
    exec (.loftAppendDone p) s = .next s ∧ exec (.loftQueryDone p true) s = .next s ∧ exec (.lbiasLoadDone p) s = .next s := by
  have hrun (c : Nat) : running s p c = none := by rw [running, ho]
  refine ⟨?_, ?_, ?_⟩
  · show execLoftAppendDone p s = _
    rw [execLoftAppendDone, ho]
  · show execLoftQueryDone p true s = _
    rw [execLoftQueryDone, hrun]
  · show execLbiasLoadDone p s = _
    rw [execLbiasLoadDone, hrun]

end

/-- The fields of a slate's header (12 Table 12.2). -/
theorem slateHeader_fields (r b : List Byte) (f : Nat) :
    leAt (slateHeader r b f) 0 8 = f % 2 ^ 64 ∧ leAt (slateHeader r b f) 8 1 = 0 ∧ leAt (slateHeader r b f) 9 1 = cFmt r ∧
      leAt (slateHeader r b f) 0xA 2 = 0 ∧ leAt (slateHeader r b f) 0x14 2 = aLayer b ∧ leAt (slateHeader r b f) 0x18 4 = aCtx b ∧
      (slateHeader r b f).length = 64 := by
  have hfmt : cFmt r % 2 ^ 8 = cFmt r := Nat.mod_eq_of_lt (leAt_lt r 1 1)
  have hlayer : aLayer b % 2 ^ 16 = aLayer b := Nat.mod_eq_of_lt (leAt_lt b 4 2)
  have hctx : aCtx b % 2 ^ 32 = aCtx b := Nat.mod_eq_of_lt (leAt_lt b 0 4)
  simp (disch := simp) only [slateHeader, leAt_append_left, leAt_append_right, leBytes_length, Nat.sub_self, leAt_leBytes,
    Nat.reduceMul, List.length_append, List.length_replicate, hfmt, hlayer, hctx, Nat.zero_mod, Nat.reduceAdd, and_self]

/-! ### Ends of a query (12 R372 to R377) -/

section
variable {s : State} {p : Nat} {o : Op} {x : LReq}

section
variable (ho : running s p 0x0500 = some o) (hx : lreqOf s p = some x) (hsent : x.sent = false) (hdom : domUp s 73 = true)
include ho hx hsent hdom

theorem exec_loftQueryDone_memErr : exec (.loftQueryDone p true) s = .next (finishOp s p stMemError 0 0) := by
  show execLoftQueryDone p true s = _
  simp only [execLoftQueryDone, ho, hx, hsent, hdom, Bool.false_eq_true, Bool.true_eq_false, or_self, if_false, if_true]

theorem exec_loftQueryDone_badSlate {c a : Nat} (hrows : queryRows s o.data 0 x.bounds = .error (c, a)) :
    exec (.loftQueryDone p false) s = .next (finishOp (badSlate s c a) p 0x84 0 0) := by
  show execLoftQueryDone p false s = _
  simp only [execLoftQueryDone, ho, hx, hsent, hdom, hrows, Bool.false_eq_true, Bool.true_eq_false, or_self, if_false]

section
variable {rows : List (List Byte × Bool × Bool)} (hrows : queryRows s o.data 0 x.bounds = .ok rows)
include hrows

theorem exec_loftQueryDone_ring {q : Nat} (hsrc : o.src = .ring q) (hclass : classOf x.raddr = some .hbm) : exec (.loftQueryDone p false) s = .next
    (finishOk (putOp (writeBytes (queryCounts s x rows) x.raddr (resultBlock s p o x rows)) p { o with st := .committed }) p
      (resultBlock s p o x rows).length) := by
  show execLoftQueryDone p false s = _
  simp only [execLoftQueryDone, ho, hx, hsent, hdom, hrows, hsrc, engWrite_hbm hclass, Bool.false_eq_true, Bool.true_eq_false, or_self, if_false]

theorem exec_loftQueryDone_loft {node tag : Nat} (hsrc : o.src = .loft node tag) : exec (.loftQueryDone p false) s = .next
    (resultSend (queryCounts s x rows) p o x (resultBlock s p o x rows) node tag) := by
  show execLoftQueryDone p false s = _
  simp only [execLoftQueryDone, ho, hx, hsent, hdom, hrows, hsrc, Bool.false_eq_true, Bool.true_eq_false, or_self, if_false]

end
end

theorem getF_queryCounts_masked (rows : List (List Byte × Bool × Bool)) :
    getF (queryCounts s x rows) Fld.loftMaskedRowCnt 0 = (getF s Fld.loftMaskedRowCnt 0 + (rows.filter (fun r => r.2.1)).length) % 2 ^ 64 := by
  rw [queryCounts, bumpN, getF_setF_same _ _ _ _ ⟨by decide, by decide⟩, bumpN, bumpN, getF_setF_of_apart _ (by decide), getF_setF_of_apart _ (by decide)]
  rfl

theorem getF_queryCounts_tokens (rows : List (List Byte × Bool × Bool)) :
    getF (queryCounts s x rows) Fld.loftTokenCnt 0 = (getF s Fld.loftTokenCnt 0 + (loftSums x.bounds).2) % 2 ^ 64 := by
  rw [queryCounts, bumpN, getF_setF_of_apart _ (by decide), bumpN, getF_setF_same _ _ _ _ ⟨by decide, by decide⟩, bumpN, getF_setF_of_apart _ (by decide)]
  rfl

theorem getF_queryCounts_pads (rows : List (List Byte × Bool × Bool)) :
    getF (queryCounts s x rows) Fld.loftPadTokenCnt 0 = (getF s Fld.loftPadTokenCnt 0 + (loftSums x.bounds).1) % 2 ^ 64 := by
  rw [queryCounts, bumpN, getF_setF_of_apart _ (by decide), bumpN, getF_setF_of_apart _ (by decide), bumpN, getF_setF_same _ _ _ _ ⟨by decide, by decide⟩]
  rfl

end

/-! ### Bias loads (12 R375) -/

section
variable {s : State} {p k : Nat} {o : Op} {x : LReq}

theorem exec_lbiasLoadDone_judged (ho : running s p 0x0502 = some o) (hx : lreqOf s p = some x) (hdom : domUp s 73 = true)
    (hfree : ∀ j, j ∈ x.waitsFor → opOf s j = none) : exec (.lbiasLoadDone p) s = .next
      (if biasOk (x.payload.drop 1) then
        finishOk (biasLoaded { s with loft := { s.loft with bias := Tab.put s.loft.bias (leAt x.payload 0 1) (x.payload.drop 1) } } (leAt x.payload 0 1) true) p 0
       else
        finishOp (biasLoaded { s with loft := { s.loft with bias := Tab.del s.loft.bias (leAt x.payload 0 1) } } (leAt x.payload 0 1) false) p 0x89 0 0) := by
  have hnone : x.waitsFor.any (fun n => (opOf s n).isSome) = false :=
    List.any_eq_false.2 fun j hj => by rw [hfree j hj]; exact Bool.false_ne_true
  show execLbiasLoadDone p s = _
  simp only [execLbiasLoadDone, ho, hx, hnone, hdom, Bool.false_eq_true, Bool.true_eq_false, or_self, if_false]

/-- The loaded bit of a set below 32. -/
theorem bit_biasLoaded_low (hk : k < 32) (v : Bool) : bitN (getReg (biasLoaded s k v) .loftBiasLoadedLo 0).toNat k = v := by
  have hone : 2 ^ (k - k + 1) = 2 := by rw [Nat.sub_self]; rfl
  have hbit : getF (biasLoaded s k v) ⟨.loftBiasLoadedLo, k, k⟩ 0 = bit1 v % 2 ^ (k - k + 1) := by
    rw [biasLoaded, if_pos hk]
    exact getF_setF_same _ _ _ _ ⟨le_refl k, by show k < 64; omega⟩
  have hread : (getReg (biasLoaded s k v) .loftBiasLoadedLo 0).toNat / 2 ^ k % 2 ^ (k - k + 1) = bit1 v % 2 ^ (k - k + 1) := hbit
  rw [hone] at hread
  rw [bitN, hread]
  cases v <;> rfl

theorem biasSet_stored (bs : List Byte) (v : Bool) :
    biasSet (biasLoaded { s with loft := { s.loft with bias := Tab.put s.loft.bias k bs } } k v) k = some bs := by
  show (match Tab.lookup (Tab.put s.loft.bias k bs) k with | some bs => some bs | none => none) = some bs
  rw [Tab.lookup_put, if_pos rfl]

theorem biasSet_dropped (v : Bool) : biasSet (biasLoaded { s with loft := { s.loft with bias := Tab.del s.loft.bias k } } k v) k = none := by
  show (match Tab.lookup (Tab.del s.loft.bias k) k with | some bs => some bs | none => none) = none
  rw [Tab.lookup_del, if_pos rfl]

end

/-! ### LOFT_ABORT (12 R383) -/

section
variable {s : State} {m : NHdr} {p : Nat} {ns : List Nat} {o : Op} {x : LReq}

theorem exec_loftAbort (h : Comes s m 0) : exec (.loftAbort m) s = .next (loftAbortMsg (messageTaken s m 0) m) := by
  show execLoftAbort m s = _
  rw [execLoftAbort, nawynArrive_comes (bs := []) h]
  rfl

theorem loftAbortMsg_gone (h : loftTargets s m.src m.tag = []) :
    loftAbortMsg s m = replyMsg s m 0x25 0x25 (if s.loft.ended.contains (m.src, m.tag) then 1 else 2) [] := by
  simp only [loftAbortMsg, h, List.head?_nil, List.isEmpty_nil, Bool.true_and]

/-- A request whose result, handed to a link, no longer stands in the way of its end. -/
def recalled (s : State) (p : Nat) (x : LReq) : State :=
  { s with loft := { s.loft with reqs := Tab.put s.loft.reqs p { x with sent := false } } }

theorem loftAbortMsg_target (h : loftTargets s m.src m.tag = p :: ns) (ho : opOf s p = some o) (hx : lreqOf s p = some x) :
    loftAbortMsg s m = if o.st = .committed then replyMsg s m 0x25 0x25 0 []
      else replyMsg (finishOp (recalled s p x) p 0x24 0 0) m 0x25 0x24 0 [] := by
  simp only [loftAbortMsg, h, List.head?_cons, ho, hx]
  rfl

end

/-! ### The statement -/

/-- Settles O50: each write, arrival and end of the Loft. An append judged again at its admission is log 85, and an entry in range that is not
valid is log 86. -/
theorem loftCommands : Obligations.LoftCommands := by
  unfold Obligations.LoftCommands
  intro s req i p f v m b query st r k a c o x rows ns t t0 mine w n z cmd arrived
  have hexec (h : mine t) : exec cmd s = .next (loftArrive t m b query) := by
    cases query <;> exact exec_loftRequest (b := b) h _
  refine ⟨?_, fun hmode hpf hbay => exec_loftPoolTailWrite_refused hmode hpf hbay, ?_, ?_, ?_, ?_, fun h => checks_off h k, appendCheck_header, ?_,
    fun hon hdr => queryCheck_header hon hdr k, fun hon hdr hlen hctx => queryCheck_unusable hon hdr hlen hctx k, fun hpos hlow => appendStart_low hpos hlow,
    ?_, exec_loftDone_gone, slateHeader_fields _ b f, ?_, ?_, fun h hnil => ?_, ?_⟩
  · intro _ hmode hreq
    exact ⟨_, exec_loftPoolTailWrite_allowed hmode hreq, getF_tailMoved_tail _, getF_tailMoved_level _, fun r j h => getReg_tailMoved_other _ h, tailMoved_mem _, tailMoved_out _⟩
  · intro h hmeets
    exact ⟨_, _, (hexec h).trans (congrArg _ (loftArrive_meets hmeets)), enrolled_request w m b query rfl rfl rfl rfl, rfl, rfl⟩
  · intro h hmeets hfull
    exact ⟨_, _, (hexec h).trans (congrArg _ (loftArrive_full hmeets hfull)), enrolled_request w m b query rfl rfl rfl rfl, rfl⟩
  · intro h hmeets hroom hnode
    exact ⟨_, _, (hexec h).trans (congrArg _ (loftArrive_noPartner hmeets hroom hnode)), enrolled_request w m b query rfl rfl rfl rfl, rfl⟩
  · intro h hmeets hroom hnode
    refine ⟨requestOp w m b query, (hexec h).trans (congrArg _ (loftArrive_judged hmeets hroom hnode)), rfl, rfl, rfl, requestOp_partner w hnode,
      ?_, rfl, rfl⟩
    exact congrArg (if query then · else appendCost b) (queryCost_requestKept w m b query b).symm
  · intro hon hwhole h1 h2 h3 hmin hmax
    have hdr : HeaderOk b := ⟨hwhole, ⟨h1, h2, h3⟩, hmin, hmax⟩
    refine ⟨appendCheck_unusable hon hdr, appendCheck_format hon hdr, fun hctx hfmt hplain hlen => ⟨appendCheck_outside hon hdr hctx hfmt hplain hlen,
      fun hlayer hgroup hhead => ?_⟩⟩
    rw [appendCheck_chain hon hdr hctx hfmt hplain hlen hlayer hgroup hhead]
    refine ⟨fun hfrozen => if_pos hfrozen, fun hopen hpos => ?_, fun hopen hpos hend => ?_⟩
    · rw [hopen, if_neg Bool.false_ne_true, if_pos (.inl hpos)]
    · rw [hopen, if_neg Bool.false_ne_true, if_neg (not_or.2 ⟨not_not.2 hpos, not_lt.2 hend⟩)]
  · intro ho hx hdom hop hst
    refine ⟨fun hbad => exec_loftAppendDone_bad ho hx hdom hop hst hbad, fun hgood => ?_⟩
    refine ⟨_, exec_loftAppendDone_written ho hx hdom hop hst hgood, appendWrites_chainEnd (append_end_fits _), ?_⟩
    obtain ⟨mem, hmem⟩ := (appendWrites_memOnly (s := s) (r := ctxRec s (aCtx o.data)) (b := o.data) (x := x)).only
    rw [hmem]
    exact ⟨rfl, rfl, rfl, rfl⟩
  · intro ho hx hsent hdom
    refine ⟨exec_loftQueryDone_memErr ho hx hsent hdom, exec_loftQueryDone_badSlate ho hx hsent hdom, fun hrows hsrc hclass => ?_, fun hrows hsrc => ?_⟩
    · refine ⟨_, exec_loftQueryDone_ring ho hx hsent hdom hrows hsrc hclass, fun j h => readByte_writeBytes_inside _ _ _ _ h,
        fun y h => readByte_writeBytes_outside _ _ _ _ h, ?_, ?_⟩
      · rw [getF_of_regs_eq (writeBytes_regs _ _ _), getF_queryCounts_masked]
      · rw [getF_of_regs_eq (writeBytes_regs _ _ _), getF_queryCounts_tokens]
        rfl
    · exact ⟨_, exec_loftQueryDone_loft ho hx hsent hdom hrows hsrc, rfl, rfl, rfl, getF_queryCounts_pads rows⟩
  · intro ho hx hdom hfree hk
    rw [exec_lbiasLoadDone_judged ho hx hdom hfree]
    refine ⟨fun hok => ?_, fun hbad => ?_⟩
    · rw [if_pos hok]
      exact ⟨_, rfl, biasSet_stored _ _, bit_biasLoaded_low hk true, by rw [biasLoaded]; rfl⟩
    · rw [hbad, if_neg Bool.false_ne_true]
      exact ⟨_, rfl, biasSet_dropped _, bit_biasLoaded_low hk false, by rw [biasLoaded]; rfl⟩
  · rw [exec_loftAbort h, loftAbortMsg_gone hnil]
  · intro h hhead ho hx
    rw [exec_loftAbort h]
    refine ⟨fun hst => ?_, fun hst => ⟨recalled t0 p x, ?_, rfl, rfl, rfl⟩⟩
    · rw [loftAbortMsg_target hhead ho hx, if_pos hst]
    · rw [loftAbortMsg_target hhead ho hx, if_neg hst]

end Sys2Proof.Machine
end

section
/-! PROOFS. Underlay and Shingle (13 R387 to R404): the copy of a cut, the drain and its manifest, restores and UL_BASE_INV, and the statement
assembled from them. -/

namespace Sys2Proof.Machine

/-! ### Messages of the device's own to a node (11 R333 to R335) -/

/-- What a message of the device's own leaves: all but the queue of waiting messages and the count of those that fit no window. -/
structure Sent (s u : State) : Prop where
  rest : u.rings = s.rings ∧ u.ul = s.ul ∧ u.mem = s.mem ∧ u.loft = s.loft ∧ u.xpt = s.xpt ∧ u.stor = s.stor ∧ u.rafters = s.rafters
  field : ∀ {f : Fld} (i : Nat), Fld.nawynOversizeCnt.apart f → getF u f i = getF s f i

theorem sent_oversize (s : State) : Sent s (bump s Fld.nawynOversizeCnt 0) :=
  ⟨⟨rfl, rfl, rfl, rfl, rfl, rfl, rfl⟩, fun i h => getF_bump_of_apart s h 0 i⟩

theorem sent_enqueueMsg (s : State) (m : NMsg) : Sent s (enqueueMsg s m) :=
  ⟨⟨rfl, rfl, rfl, rfl, rfl, rfl, rfl⟩, fun _ _ => rfl⟩

theorem sent_sendOwn (s : State) (node tc mtype status tag arg : Nat) (data : List Byte) : Sent s (sendOwn s node tc mtype status tag arg data) := by
  unfold sendOwn sendNode
  cases routeFor s node with
  | none => exact ⟨⟨rfl, rfl, rfl, rfl, rfl, rfl, rfl⟩, fun _ _ => rfl⟩
  | some l =>
    dsimp only
    by_cases hover : (decide (l < 16) && !fitsCourse s l tc (msgFlits data.length)) = true
    · rw [if_pos hover]
      exact sent_oversize s
    · rw [if_neg hover]
      exact sent_enqueueMsg s _

/-! ### A cut's copy (13 R392 to R396) -/

section
variable {s : State} {m : NHdr} {c : CutCopy}

theorem exec_cutReady (h : ArrivesHere s m 0) : exec (.cutReady m) s = .next (cutReady (messageTaken s m 0) m) := by
  show execCutReady m s = _
  rw [execCutReady, nawynArrive_here (bs := []) _ _ h]
  rfl

theorem cutReady_noCopy (h : (latchWake s 77 4).ul.copy = none) : cutReady s m = bump (latchWake s 77 4) Fld.ulTokenBadCnt 0 := by
  simp only [cutReady, h]

/-- The group of a cut that a CUT_READY names: none of the plan's groups that lie on its node. -/
def NamesNone (cut : Cut) (m : NHdr) : Prop :=
  cut.id ≠ m.arg % 2 ^ 32 ∨ ∀ q, q ∈ cut.plan → q.group ≠ m.arg / 2 ^ 32 % 256 ∨ q.node ≠ m.src

theorem namesNone_iff (cut : Cut) (m : NHdr) : NamesNone cut m ↔
    (cut.id ≠ m.arg % 2 ^ 32 ∨ (cut.plan.any (fun r => r.group == m.arg / 2 ^ 32 % 256 && r.node == m.src)) = false) := by
  simp only [NamesNone, List.any_eq_false, Bool.and_eq_true, beq_iff_eq, not_and_or]

theorem cutReady_copying (h : (latchWake s 77 4).ul.copy = some c) : cutReady s m =
    if (copyingCut (latchWake s 77 4) c).id ≠ m.arg % 2 ^ 32 ∨
        ((copyingCut (latchWake s 77 4) c).plan.any (fun r => r.group == m.arg / 2 ^ 32 % 256 && r.node == m.src)) = false then
      bump (latchWake s 77 4) Fld.ulTokenBadCnt 0
    else if c.taken.contains (m.arg / 2 ^ 32 % 256) ∨ c.abandon.isSome = true then latchWake s 77 4
    else copyGroup { latchWake s 77 4 with ul := { (latchWake s 77 4).ul with copy := some { c with taken := c.taken ++ [m.arg / 2 ^ 32 % 256] } } }
      c.slot (m.arg / 2 ^ 32 % 256) (copyingCut (latchWake s 77 4) c).plan := by
  have hgroup : fieldOf m.arg 39 32 = m.arg / 2 ^ 32 % 256 := rfl
  simp only [cutReady, h, hgroup]

theorem cutReady_bad (h : (latchWake s 77 4).ul.copy = some c) (hnone : NamesNone (copyingCut (latchWake s 77 4) c) m) :
    cutReady s m = bump (latchWake s 77 4) Fld.ulTokenBadCnt 0 := by
  rw [cutReady_copying h, if_pos ((namesNone_iff _ m).1 hnone)]

variable {q : PlanRange} (h : (latchWake s 77 4).ul.copy = some c) (hid : (copyingCut (latchWake s 77 4) c).id = m.arg % 2 ^ 32)
  (hq : q ∈ (copyingCut (latchWake s 77 4) c).plan) (hgroup : q.group = m.arg / 2 ^ 32 % 256) (hnode : q.node = m.src)
include h hid hq hgroup hnode

omit h in
theorem cutReady_known : ¬ ((copyingCut (latchWake s 77 4) c).id ≠ m.arg % 2 ^ 32 ∨
    ((copyingCut (latchWake s 77 4) c).plan.any (fun r => r.group == m.arg / 2 ^ 32 % 256 && r.node == m.src)) = false) := by
  rw [← namesNone_iff]
  rintro (hbad | hbad)
  · exact hbad hid
  · exact (hbad q hq).elim (· hgroup) (· hnode)

theorem cutReady_ignored (htaken : m.arg / 2 ^ 32 % 256 ∈ c.taken ∨ c.abandon ≠ none) : cutReady s m = latchWake s 77 4 := by
  rw [cutReady_copying h, if_neg (cutReady_known hid hq hgroup hnode), if_pos]
  rwa [List.contains_iff_mem, Option.isSome_iff_ne_none]

theorem cutReady_taken (hfresh : m.arg / 2 ^ 32 % 256 ∉ c.taken) (hgoes : c.abandon = none) : cutReady s m =
    copyGroup { latchWake s 77 4 with ul := { (latchWake s 77 4).ul with copy := some { c with taken := c.taken ++ [m.arg / 2 ^ 32 % 256] } } }
      c.slot (m.arg / 2 ^ 32 % 256) (copyingCut (latchWake s 77 4) c).plan := by
  rw [cutReady_copying h, if_neg (cutReady_known hid hq hgroup hnode), if_neg]
  rw [List.contains_iff_mem, hgoes]
  simpa using hfresh

end

/-- The first `k` chunks of `n` bytes cover the first `k` MiB of them, or all. -/
theorem chunks_sum (n k : Nat) : ((List.range k).map (fun i => Nat.min 0x100000 (n - i * 0x100000))).sum = Nat.min (k * 0x100000) n := by
  induction k with
  | zero => simp
  | succ k ih =>
    rw [List.range_succ, List.map_append, List.sum_append, ih, List.map_singleton, List.sum_singleton]
    simp only [Nat.min_def]
    split <;> split <;> split <;> omega

theorem readChunks_sum (n : Nat) : ((readChunks n).map (fun k => k.2)).sum = n := by
  have hall : n ≤ (n + 0xFFFFF) / 0x100000 * 0x100000 := by omega
  rw [readChunks, List.map_map]
  exact (chunks_sum n _).trans (Nat.min_eq_right hall)

theorem readChunks_within {n : Nat} {k : Nat × Nat} (h : k ∈ readChunks n) : k.2 ≤ 1048576 ∧ k.1 + k.2 ≤ n := by
  obtain ⟨i, hi, rfl⟩ := List.mem_map.1 h
  have hbelow := List.mem_range.1 hi
  have hmin : Nat.min 0x100000 (n - i * 0x100000) ≤ n - i * 0x100000 := Nat.min_le_right _ _
  refine ⟨Nat.min_le_left _ _, ?_⟩
  show i * 0x100000 + Nat.min 0x100000 (n - i * 0x100000) ≤ n
  omega

/-! ### Slots (13 R389) -/

section
variable {s : State} {i : Nat}

theorem slotState_setSlot_same (hi : i < 2) {v : Nat} (hv : v < 4) : slotState (setSlot s i v) i = v := by
  refine getF_setF_within s ⟨.ulStat, 2 * i + 1, 2 * i⟩ 0 ⟨by show 2 * i ≤ 2 * i + 1; omega, by show 2 * i + 1 < 64; omega⟩ ?_
  rwa [show 2 * i + 1 - 2 * i + 1 = 2 by omega]

end

/-! ### Ends of a copy (13 R394 to R396) -/

section
variable {s : State} {c : CutCopy} {g : Nat} {o : Op}

theorem exec_copy_none (h : s.ul.copy = none) :
    exec (.groupCopyDone g) s = .next s ∧ exec .cutReadyTimeout s = .next s ∧ exec .cutAbandonComplete s = .next s := by
  refine ⟨?_, ?_, ?_⟩
  · show execGroupCopyDone g s = _
    rw [execGroupCopyDone, h]
  · show execCutReadyTimeout s = _
    rw [execCutReadyTimeout, h]
  · show execCutAbandonComplete s = _
    rw [execCutAbandonComplete, h]

/-- A copy with one group more copied. -/
def CutCopy.withCopied (c : CutCopy) (g : Nat) : CutCopy := { c with copied := c.copied ++ [g] }

/-- A group is copied: its bytes count, its node is told, and it stands among those copied. -/
def groupCopied (s : State) (c : CutCopy) (g : Nat) : State :=
  let rs := (copyingCut s c).plan.filter (fun r => r.group == g)
  let t := sendToken (bumpN s Fld.ulCopyByteCnt 0 (planLen rs)) ((rs.head?).elim 0 (fun r => r.node)) 0x42 ((copyingCut s c).id + g * 2 ^ 32) []
  { t with ul := { t.ul with copy := some (c.withCopied g) } }

theorem exec_groupCopyDone_ignored (h : s.ul.copy = some c) (hno : g ∉ c.taken ∨ g ∈ c.copied ∨ c.abandon ≠ none) :
    exec (.groupCopyDone g) s = .next s := by
  show execGroupCopyDone g s = _
  simp only [execGroupCopyDone, h]
  rw [if_pos]
  rw [Bool.not_eq_true', ← Bool.not_eq_true, List.contains_iff_mem, List.contains_iff_mem, Option.isSome_iff_ne_none]
  tauto

theorem exec_groupCopyDone_copied (h : s.ul.copy = some c) (htaken : g ∈ c.taken) (hfresh : g ∉ c.copied) (hgoes : c.abandon = none)
    (hreads : ∀ e, e ∈ c.reads → e.2 ≠ g) : exec (.groupCopyDone g) s = .next
      (if (planGroups (copyingCut s c).plan).all (fun g' => (c.withCopied g).copied.contains g') then
        cutDone (groupCopied s c g) (c.withCopied g) (copyingCut s c).plan else groupCopied s c g) := by
  have hnone : c.reads.any (fun e => e.2 == g) = false := List.any_eq_false.2 fun e he => by simpa using hreads e he
  show execGroupCopyDone g s = _
  simp only [execGroupCopyDone, h]
  rw [if_neg]
  · rfl
  · simp [htaken, hfresh, hgoes, hnone]

theorem planGroups_all {p : List PlanRange} {f : Nat → Bool} : (planGroups p).all f = true ↔ ∀ q, q ∈ p → f q.group = true := by
  simp [planGroups]

theorem copied_all {p : List PlanRange} : (planGroups p).all (fun g' => (c.withCopied g).copied.contains g') = true ↔
    ∀ q, q ∈ p → q.group ∈ c.copied ∨ q.group = g := by
  rw [planGroups_all]
  simp [CutCopy.withCopied]

/-- What a copied group leaves of a state. -/
theorem groupCopied_rest : (groupCopied s c g).rings = s.rings ∧ (groupCopied s c g).mem = s.mem ∧ (groupCopied s c g).loft = s.loft ∧
    (groupCopied s c g).xpt = s.xpt ∧ (groupCopied s c g).stor = s.stor ∧ (groupCopied s c g).rafters = s.rafters := by
  obtain ⟨hrings, -, hmem, hloft, hxpt, hstor, hraft⟩ := (sent_sendOwn (bumpN s Fld.ulCopyByteCnt 0
    (planLen ((copyingCut s c).plan.filter (fun r => r.group == g)))) _ _ _ _ _ _ _).rest
  exact ⟨hrings, hmem, hloft, hxpt, hstor, hraft⟩

theorem getF_groupCopied_bytes : getF (groupCopied s c g) Fld.ulCopyByteCnt 0 =
    (getF s Fld.ulCopyByteCnt 0 + planLen ((copyingCut s c).plan.filter (fun r => r.group == g))) % 2 ^ 64 := by
  refine ((sent_sendOwn _ _ _ _ _ _ _ _).field 0 (by decide)).trans ?_
  exact getF_setF_same s Fld.ulCopyByteCnt 0 _ ⟨by decide, by decide⟩

theorem getF_groupCopied_cuts : getF (groupCopied s c g) Fld.ulCutCnt 0 = getF s Fld.ulCutCnt 0 :=
  ((sent_sendOwn _ _ _ _ _ _ _ _).field 0 (by decide)).trans (getF_setF_of_apart s (by decide) 0 0 _)

/-- The slot of a cut that is copied, and the count of cuts. -/
def slotCopied (s : State) (c : CutCopy) : State := bump (setSlot { s with ul := { s.ul with copy := none } } c.slot 2) Fld.ulCutCnt 0

theorem cutDone_eq {plan : List PlanRange} (ho : opOf s c.op = some o) :
    cutDone s c plan = finishOp (putOp (slotCopied s c) c.op { o with st := .committed }) c.op 0 (planLen plan) 0 := by
  have ho' : opOf (slotCopied s c) c.op = some o := ho
  rw [slotCopied] at ho'
  simp only [cutDone, ho']
  rfl

theorem slotState_slotCopied (hslot : c.slot < 2) : slotState (slotCopied s c) c.slot = 2 :=
  (getF_setF_other _ _ _ _ _ _ (.inl (show Reg.ulStat ≠ Reg.ulCutCnt by decide))).trans (slotState_setSlot_same hslot (by decide))

theorem getF_slotCopied {f : Fld} {j : Nat} (hstat : f.reg ≠ .ulStat) (hcut : Fld.ulCutCnt.apart f) : getF (slotCopied s c) f j = getF s f j :=
  (getF_bump_of_apart _ hcut _ _).trans (getF_setF_other _ _ _ _ _ _ (.inl hstat))

theorem slotCopied_rest : (slotCopied s c).ul.copy = none ∧ (slotCopied s c).mem = s.mem ∧ (slotCopied s c).loft = s.loft ∧
    (slotCopied s c).xpt = s.xpt ∧ (slotCopied s c).stor = s.stor ∧ (slotCopied s c).rafters = s.rafters :=
  ⟨rfl, rfl, rfl, rfl, rfl, rfl⟩

theorem getF_slotCopied_cuts : getF (slotCopied s c) Fld.ulCutCnt 0 = (getF s Fld.ulCutCnt 0 + 1) % 2 ^ 64 := by
  refine (getF_bump_same _ Fld.ulCutCnt 0 ⟨by decide, by decide⟩).trans ?_
  rw [setSlot, getF_setF_other _ _ _ _ _ _ (.inl (show Reg.ulCutCnt ≠ Reg.ulStat by decide))]
  rfl

theorem exec_cutReadyTimeout_late (h : s.ul.copy = some c) (hgoes : c.abandon = none)
    (hfind : (planGroups (copyingCut s c).plan).find? (fun g => !c.taken.contains g) = some g) : exec .cutReadyTimeout s = .next
      { reach s c.deadline with ul := { s.ul with copy := some { c with abandon := some (0x95, 0, g, Nat.max s.ftime c.deadline + getF s Fld.nawynCtlReadTimeoutUs 0 * 1000) } } } := by
  show execCutReadyTimeout s = _
  simp only [execCutReadyTimeout, h, hfind, hgoes]
  rfl

theorem exec_cutReadyTimeout_ignored (h : s.ul.copy = some c) (hno : c.abandon ≠ none ∨ ∀ q, q ∈ (copyingCut s c).plan → q.group ∈ c.taken) :
    exec .cutReadyTimeout s = .next s := by
  show execCutReadyTimeout s = _
  simp only [execCutReadyTimeout, h]
  rcases hno with hab | hall
  · obtain ⟨a, ha⟩ := Option.ne_none_iff_exists'.1 hab
    simp only [ha]
    cases (planGroups (copyingCut s c).plan).find? (fun g => !c.taken.contains g) with
    | none => rfl
    | some g => rfl
  · have hnone : (planGroups (copyingCut s c).plan).find? (fun g => !c.taken.contains g) = none :=
      List.find?_eq_none.2 fun g hg => by
        have := (planGroups_all (f := fun g => c.taken.contains g)).2 (fun q hq => List.contains_iff_mem.2 (hall q hq))
        simpa using List.all_eq_true.1 this g hg
    simp only [hnone]

theorem exec_cutAbandonComplete_judged {st ext dl : Nat} (h : s.ul.copy = some c) (hab : c.abandon = some (st, ext, g, dl)) (ho : opOf s c.op = some o) :
    exec .cutAbandonComplete s = .next (finishOp (if c.reads.isEmpty then s else reach s dl) c.op st
      (refusalResult (if c.reads.isEmpty then s else reach s dl) c.op o st) ext) := by
  show execCutAbandonComplete s = _
  simp only [execCutAbandonComplete, h, hab, ho]

end

/-! ### The hash of a shingle has 16 bytes (13 R397) -/

section
variable {v m cv : List Word}

theorem b3G_length (v : List Word) (a b c d : Nat) (x y : Word) : (b3G v a b c d x y).length = v.length := by
  simp only [b3G, List.length_set]

theorem b3Round_length : (b3Round v m).length = v.length := by
  simp only [b3Round]
  exact List.foldlRecOn (motive := fun w : List Word => w.length = v.length) _ _ rfl fun w hw q _ => (b3G_length ..).trans hw

theorem b3Rounds_length (k : Nat) : ∀ v m : List Word, (b3Rounds k v m).length = v.length := by
  induction k with
  | zero => exact fun _ _ => rfl
  | succ k ih =>
    intro v m
    rw [b3Rounds, ih, b3Round_length]

theorem b3Compress_length (h : cv.length = 8) (t n flags : Nat) : (b3Compress cv m t n flags).length = 8 := by
  simp only [b3Compress, List.length_zipWith, List.length_take, List.length_drop, b3Rounds_length, List.length_append, h]
  rfl

theorem b3Chunk_length (t root k : Nat) : ∀ (fl : Nat) (cv : List Word) (bs : List Byte), cv.length = 8 → (b3Chunk t root k fl cv bs).length = 8 := by
  induction k with
  | zero => exact fun _ _ _ h => h
  | succ k ih =>
    intro fl cv bs h
    rw [b3Chunk]
    split
    · exact b3Compress_length h ..
    · exact ih _ _ _ (b3Compress_length h ..)

theorem b3Tree_length (h : Nat) : ∀ (root t : Nat) (bs : List Byte), (b3Tree root h t bs).length = 8 := by
  induction h with
  | zero => exact fun _ _ _ => b3Chunk_length _ _ _ _ _ _ rfl
  | succ h ih =>
    intro root t bs
    rw [b3Tree]
    split
    · exact ih ..
    · exact b3Compress_length rfl ..

theorem shingleHash_length (bs : List Byte) : (shingleHash bs).length = 16 := by
  have hwords : (blake3 bs).length = 32 := by
    simp only [blake3, List.length_flatten, List.map_map, Function.comp_def, leBytes_length, List.map_const', List.sum_replicate, b3Tree_length,
      smul_eq_mul]
  rw [shingleHash, List.length_take, hwords]
  rfl

theorem shingleEntry_length (bs : List Byte) (target cut loc : Nat) : (shingleEntry (shingleHash bs) target cut loc).length = 32 := by
  simp only [shingleEntry, List.length_append, shingleHash_length, leBytes_length]

end

/-! ### What a charge and a write leave of a state -/

/-- A charge for an operation's own write changes the partners' buckets alone. -/
theorem ulCharge_only (s : State) (o : Op) (n : Nat) : ∃ ps, ulCharge s o n = { s with rings := { s.rings with partners := ps } } := by
  unfold ulCharge charge
  split
  · exact ⟨_, rfl⟩
  · exact ⟨s.rings.partners, rfl⟩

theorem readByte_of_mem {s u : State} (hmem : u.mem = s.mem) (hepoch : u.memEpoch = s.memEpoch) (a : Nat) : readByte u a = readByte s a := by
  rw [readByte, readByte, hmem, hepoch]

theorem readBytes_of_mem {s u : State} (hmem : u.mem = s.mem) (hepoch : u.memEpoch = s.memEpoch) (a n : Nat) : readBytes u a n = readBytes s a n := by
  simp only [readBytes, readByte_of_mem hmem hepoch]

theorem rawLba_of_eq {s u : State} (hhost : u.host = s.host) (hstor : u.stor = s.stor) (port nsid off len : Nat) :
    rawLba u port nsid off len = rawLba s port nsid off len := by
  simp only [rawLba, ssdLba, hhost, hstor]

theorem targetWrite_ssd {s : State} {t : Target} {who : Who} {a len off b : Nat} (hkind : t.kind = 0)
    (hraw : rawLba s t.rootPort t.nsidConn off len = .ok b) :
    targetWrite s t who a len off = .ok (emit s (.ssd t.rootPort t.nsidConn 1 (off / b) (len / b) (readBytes s a len))) := by
  rw [targetWrite, if_pos hkind, hraw]

/-! ### The drain (13 R398 to R401) -/

section
variable {s : State} {d : Drain} {o : Op} {i status : Nat}

theorem exec_drain_none (h : s.ul.drain = none) :
    exec .shingleHashed s = .next s ∧ exec (.shingleWriteAck i status) s = .next s ∧ exec (.manifestBodyAck status) s = .next s ∧
      exec (.manifestHeaderAck status) s = .next s ∧ exec .ulDrainTimeoutExpiry s = .next s := by
  refine ⟨?_, ?_, ?_, ?_, ?_⟩
  · show execShingleHashed s = _
    rw [execShingleHashed, h]
  · show execShingleWriteAck i status s = _
    rw [execShingleWriteAck, h]
  · show execManifestBodyAck status s = _
    rw [execManifestBodyAck, h]
  · show execManifestHeaderAck status s = _
    rw [execManifestHeaderAck, h]
  · show execUlDrainTimeoutExpiry s = _
    rw [execUlDrainTimeoutExpiry, h]

/-- A drain goes on, its record replaced. -/
def drainKept (s : State) (d : Drain) : State := { s with ul := { s.ul with drain := some d } }

theorem drainKept_mem : (drainKept s d).mem = s.mem := rfl
theorem drainKept_drain : (drainKept s d).ul.drain = some d := rfl
theorem getF_drainKept (f : Fld) (j : Nat) : getF (drainKept s d) f j = getF s f j := rfl
theorem drainKept_rings : (drainKept s d).rings = s.rings := rfl
theorem drainKept_out : (drainKept s d).out = s.out := rfl
theorem drainKept_memEpoch : (drainKept s d).memEpoch = s.memEpoch := rfl

theorem drainSettle_open (h : d.next ≠ planShingles (drainCut s d).plan ∨ d.writes ≠ []) : drainSettle s d o = drainKept s d := by
  rw [drainSettle, if_neg (by tauto)]
  rfl

section
variable (hd : s.ul.drain = some d)
include hd

theorem exec_ulDrainTimeoutExpiry_late : exec .ulDrainTimeoutExpiry s = .next (finishOp (reach s d.deadline) d.op 0x99 0 0) := by
  show execUlDrainTimeoutExpiry s = _
  simp only [execUlDrainTimeoutExpiry, hd]

theorem exec_shingleWriteAck_unknown (h : i ∉ d.writes) : exec (.shingleWriteAck i status) s = .next s := by
  have hnot : d.writes.contains i = false := by simpa using h
  show execShingleWriteAck i status s = _
  simp only [execShingleWriteAck, hd, hnot, Bool.false_eq_true, if_false]
  cases opOf s d.op <;> rfl

variable (ho : opOf s d.op = some o)
include ho

theorem exec_shingleHashed_paused (h : s.ul.copy ≠ none ∨ planShingles (drainCut s d).plan ≤ d.next) : exec .shingleHashed s = .next s := by
  show execShingleHashed s = _
  simp only [execShingleHashed, hd, ho]
  rw [if_pos]
  rw [Option.isSome_iff_ne_none]
  tauto

theorem exec_shingleHashed_judged (hcopy : s.ul.copy = none) (hnext : d.next < planShingles (drainCut s d).plan) (hdom : domUp s 77 = true) :
    exec .shingleHashed s = .next
      (if !d.full && readBytes s (baseEntry s d.next) 16 == shingleHash (readBytes s (ulSlot s d.slot + shingleSize * d.next) shingleSize) then
        drainSettle (bump (writeBytes s (newEntry s d (drainCut s d).plan.length d.next) (readBytes s (baseEntry s d.next) 32)) Fld.ulHashedCnt 0)
          { d with next := d.next + 1 } o
       else shingleChanged s d o (shingleHash (readBytes s (ulSlot s d.slot + shingleSize * d.next) shingleSize))) := by
  show execShingleHashed s = _
  simp only [execShingleHashed, hd, ho]
  rw [if_neg]
  simp [hcopy, hdom, hnext]

theorem exec_shingleWriteAck_judged (h : i ∈ d.writes) (hkind : (shingleTarget s d i).kind = 0) : exec (.shingleWriteAck i status) s = .next
    (if status ≠ 0 then drainWriteFail s d status i else drainSettle (bump s Fld.ulChangedCnt 0) { d with writes := d.writes.erase i } o) := by
  show execShingleWriteAck i status s = _
  simp only [execShingleWriteAck, hd, ho, List.contains_iff_mem.2 h, if_true, targetAck, hkind]

theorem exec_manifestBodyAck_failed (hphase : d.phase = 2) (hkind : (manifestTo d).kind = 0) (hstatus : status ≠ 0) :
    exec (.manifestBodyAck status) s = .next (drainWriteFail s d status d.next) := by
  show execManifestBodyAck status s = _
  simp only [execManifestBodyAck, hd, ho, hphase, targetAck, hkind, if_true, if_pos hstatus]

theorem exec_manifestHeaderAck_judged (hphase : d.phase = 3) (hkind : (manifestTo d).kind = 0) : exec (.manifestHeaderAck status) s = .next
    (if status ≠ 0 then drainWriteFail s d status d.next else drainCommit s d o) := by
  show execManifestHeaderAck status s = _
  simp only [execManifestHeaderAck, hd, ho, hphase, targetAck, hkind, if_true]

theorem exec_manifestBodyAck_early (h : d.phase ≠ 2) : exec (.manifestBodyAck status) s = .next s := by
  show execManifestBodyAck status s = _
  simp only [execManifestBodyAck, hd, ho, if_neg h]

theorem exec_manifestHeaderAck_early (h : d.phase ≠ 3) : exec (.manifestHeaderAck status) s = .next s := by
  show execManifestHeaderAck status s = _
  simp only [execManifestHeaderAck, hd, ho, if_neg h]

end

/-- The target of the next changed shingle of a drain. -/
def nextTarget (d : Drain) : Target := d.targets.getD (d.changed % d.targets.length) (manifestTo d)

/-- The place in its target of the next changed shingle. -/
def nextPlace (d : Drain) : Nat := (nextTarget d).base + 65536 * (d.changed / d.targets.length)

theorem shingleSize_eq : shingleSize = 65536 := rfl

theorem shingleChanged_full {hash : List Byte} (h : (nextTarget d).len < 65536 * (d.changed / d.targets.length + 1)) :
    shingleChanged s d o hash = finishOp s d.op 0x98 0 0 := by
  simp only [shingleChanged]
  exact if_pos h

theorem shingleChanged_noTokens {hash : List Byte} (h : 65536 * (d.changed / d.targets.length + 1) ≤ (nextTarget d).len)
    (htok : ulTokens s o 65536 = false) : shingleChanged s d o hash = s := by
  have hroom : ¬ (d.targets.getD (d.changed % d.targets.length) (manifestTo d)).len < shingleSize * (d.changed / d.targets.length + 1) := not_lt.2 h
  have hnone : (!ulTokens s o shingleSize) = true := by rw [shingleSize_eq, htok]; rfl
  simp only [shingleChanged]
  rw [if_neg hroom, if_pos hnone]

/-- The new manifest has a changed shingle's entry, and the shingle counts as hashed. -/
def entryWritten (s : State) (d : Drain) (hash : List Byte) : State :=
  bump (writeBytes s (newEntry s d (drainCut s d).plan.length d.next)
    (shingleEntry hash (d.changed % d.targets.length) (drainCut s d).id (nextPlace d))) Fld.ulHashedCnt 0

/-- The drain's record once its next shingle goes to its target. -/
def Drain.sent (d : Drain) : Drain := { d with next := d.next + 1, changed := d.changed + 1, writes := d.writes ++ [d.next] }

theorem drainCut_of_ul {u : State} {d' : Drain} (hul : u.ul = s.ul) (hslot : d'.slot = d.slot) : drainCut u d' = drainCut s d := by
  rw [drainCut, drainCut, hul, hslot]

/-- What is read at a place of memory that has been written, and beside it. -/
theorem read_written {u : State} {a n : Nat} {bs : List Byte} (hmem : u.mem = (writeBytes s a bs).mem) (hepoch : u.memEpoch = s.memEpoch)
    (hlen : bs.length = n) : readBytes u a n = bs ∧ ∀ y, y < a ∨ a + n ≤ y → readByte u y = readByte s y := by
  have hkept : (writeBytes s a bs).memEpoch = s.memEpoch := by
    obtain ⟨m, hm⟩ := writeBytes_only_mem s a bs
    rw [hm]
  subst hlen
  refine ⟨?_, fun y hy => ?_⟩
  · rw [readBytes_of_mem hmem (hepoch.trans hkept.symm), readBytes_writeBytes]
  · rw [readByte_of_mem hmem (hepoch.trans hkept.symm), readByte_writeBytes_outside _ _ _ _ hy]

/-- The base's entry of an unchanged shingle stands in the new manifest, and the shingle counts as hashed. -/
def entryCopied (s : State) (d : Drain) : State :=
  bump (writeBytes s (newEntry s d (drainCut s d).plan.length d.next) (readBytes s (baseEntry s d.next) 32)) Fld.ulHashedCnt 0

theorem entryCopied_rest : (entryCopied s d).ul = s.ul ∧ (entryCopied s d).rings = s.rings ∧ (entryCopied s d).out = s.out ∧
    (entryCopied s d).memEpoch = s.memEpoch := by
  obtain ⟨m, hm⟩ := writeBytes_only_mem s (newEntry s d (drainCut s d).plan.length d.next) (readBytes s (baseEntry s d.next) 32)
  rw [entryCopied, hm]
  exact ⟨rfl, rfl, rfl, rfl⟩

theorem read_entryCopied (d' : Drain) :
    readBytes (drainKept (entryCopied s d) d') (newEntry s d (drainCut s d).plan.length d.next) 32 = readBytes s (baseEntry s d.next) 32 ∧
      ∀ y, y < newEntry s d (drainCut s d).plan.length d.next ∨ newEntry s d (drainCut s d).plan.length d.next + 32 ≤ y →
        readByte (drainKept (entryCopied s d) d') y = readByte s y := by
  obtain ⟨-, -, -, hepoch⟩ := entryCopied_rest (s := s) (d := d)
  refine read_written ?_ ?_ (readBytes_length _ _ _)
  · rw [drainKept_mem, entryCopied, bump_mem]
  · rw [drainKept_memEpoch, hepoch]

theorem getF_entryCopied_hashed : getF (entryCopied s d) Fld.ulHashedCnt 0 = (getF s Fld.ulHashedCnt 0 + 1) % 2 ^ 64 := by
  refine (getF_bump_same _ Fld.ulHashedCnt 0 ⟨by decide, by decide⟩).trans ?_
  rw [getF_of_regs_eq (writeBytes_regs _ _ _)]
  rfl

theorem exec_shingleHashed_same (hd : s.ul.drain = some d) (ho : opOf s d.op = some o) (hcopy : s.ul.copy = none)
    (hnext : d.next + 1 < planShingles (drainCut s d).plan) (hdom : domUp s 77 = true) (hpart : d.full = false)
    (hhash : readBytes s (baseEntry s d.next) 16 = shingleHash (readBytes s (ulSlot s d.slot + 65536 * d.next) 65536)) :
    exec .shingleHashed s = .next (drainKept (entryCopied s d) { d with next := d.next + 1 }) := by
  rw [← shingleSize_eq] at hhash
  have hsame : (!d.full && readBytes s (baseEntry s d.next) 16 ==
      shingleHash (readBytes s (ulSlot s d.slot + shingleSize * d.next) shingleSize)) = true := by rw [hpart, hhash, beq_self_eq_true]; rfl
  have hcut : drainCut (entryCopied s d) { d with next := d.next + 1 } = drainCut s d := drainCut_of_ul entryCopied_rest.1 rfl
  rw [exec_shingleHashed_judged hd ho hcopy (by omega) hdom, if_pos hsame]
  exact congrArg _ (drainSettle_open (s := entryCopied s d) (.inl (by rw [hcut]; exact hnext.ne)))

theorem exec_shingleHashed_changed (hd : s.ul.drain = some d) (ho : opOf s d.op = some o) (hcopy : s.ul.copy = none)
    (hnext : d.next + 1 < planShingles (drainCut s d).plan) (hdom : domUp s 77 = true)
    (hdiff : d.full = true ∨ readBytes s (baseEntry s d.next) 16 ≠ shingleHash (readBytes s (ulSlot s d.slot + 65536 * d.next) 65536)) :
    exec .shingleHashed s = .next (shingleChanged s d o (shingleHash (readBytes s (ulSlot s d.slot + 65536 * d.next) 65536))) := by
  rw [← shingleSize_eq] at hdiff ⊢
  rw [exec_shingleHashed_judged hd ho hcopy (by omega) hdom, if_neg]
  rw [Bool.and_eq_true, Bool.not_eq_true', beq_iff_eq]
  rcases hdiff with hfull | hdiff
  · simp [hfull]
  · exact fun h => hdiff h.2

theorem entryWritten_rest {hash : List Byte} : (entryWritten s d hash).ul = s.ul ∧ (entryWritten s d hash).rings = s.rings ∧
    (entryWritten s d hash).out = s.out ∧ (entryWritten s d hash).memEpoch = s.memEpoch ∧ (entryWritten s d hash).host = s.host ∧
    (entryWritten s d hash).stor = s.stor := by
  obtain ⟨m, hm⟩ := writeBytes_only_mem s (newEntry s d (drainCut s d).plan.length d.next)
    (shingleEntry hash (d.changed % d.targets.length) (drainCut s d).id (nextPlace d))
  rw [entryWritten, hm]
  exact ⟨rfl, rfl, rfl, rfl, rfl, rfl⟩

/-- A write of a drain to an SSD goes out, and the drain's record is replaced. -/
def writeSent (s : State) (o : Op) (n : Nat) (w : Out) (d : Drain) : State := drainKept (emit (ulCharge s o n) w) d

theorem writeSent_rest (n : Nat) (w : Out) : (writeSent s o n w d).ul.drain = some d ∧ (writeSent s o n w d).out = w :: s.out ∧
    (writeSent s o n w d).mem = s.mem ∧ (writeSent s o n w d).memEpoch = s.memEpoch ∧ (writeSent s o n w d).rings.ops = s.rings.ops := by
  obtain ⟨ps, hps⟩ := ulCharge_only s o n
  rw [writeSent, hps]
  exact ⟨rfl, rfl, rfl, rfl, rfl⟩

theorem ulCharge_kept (n : Nat) : (ulCharge s o n).mem = s.mem ∧ (ulCharge s o n).memEpoch = s.memEpoch ∧ (ulCharge s o n).host = s.host ∧
    (ulCharge s o n).stor = s.stor := by
  obtain ⟨ps, hps⟩ := ulCharge_only s o n
  rw [hps]
  exact ⟨rfl, rfl, rfl, rfl⟩

theorem read_writeSent {bs : List Byte} {w : Out} : let u := writeSent (entryWritten s d (shingleHash bs)) o 65536 w d.sent
    readBytes u (newEntry s d (drainCut s d).plan.length d.next) 32 =
        shingleEntry (shingleHash bs) (d.changed % d.targets.length) (drainCut s d).id (nextPlace d) ∧
      ∀ y, y < newEntry s d (drainCut s d).plan.length d.next ∨ newEntry s d (drainCut s d).plan.length d.next + 32 ≤ y → readByte u y = readByte s y := by
  obtain ⟨-, -, -, hepoch, -, -⟩ := entryWritten_rest (s := s) (d := d) (hash := shingleHash bs)
  obtain ⟨-, -, hmem, hepoch', -⟩ := writeSent_rest (s := entryWritten s d (shingleHash bs)) (o := o) (d := d.sent) 65536 w
  refine read_written (hmem.trans ?_) (hepoch'.trans hepoch) (shingleEntry_length _ _ _ _)
  rw [entryWritten, bump_mem]

theorem shingleChanged_written {hash : List Byte} {b : Nat} (h : 65536 * (d.changed / d.targets.length + 1) ≤ (nextTarget d).len)
    (htok : ulTokens s o 65536 = true) (hkind : (nextTarget d).kind = 0)
    (hraw : rawLba s (nextTarget d).rootPort (nextTarget d).nsidConn (nextPlace d) 65536 = .ok b) : ∃ x, shingleChanged s d o hash =
      writeSent (entryWritten s d hash) o 65536 (.ssd (nextTarget d).rootPort (nextTarget d).nsidConn 1 (nextPlace d / b) (65536 / b) x) d.sent := by
  obtain ⟨-, -, -, -, hhost, hstor⟩ := entryWritten_rest (s := s) (d := d) (hash := hash)
  obtain ⟨-, -, hhost', hstor'⟩ := ulCharge_kept (s := entryWritten s d hash) (o := o) 65536
  have hroom : ¬ (d.targets.getD (d.changed % d.targets.length) (manifestTo d)).len < shingleSize * (d.changed / d.targets.length + 1) := not_lt.2 h
  have hthere : ¬ (!ulTokens s o shingleSize) = true := by rw [shingleSize_eq, htok]; exact Bool.false_ne_true
  have hwrite (a : Nat) := targetWrite_ssd (who := .shingle d.next) (a := a) hkind
    ((rawLba_of_eq (hhost'.trans hhost) (hstor'.trans hstor) _ _ _ _).trans hraw)
  rw [← shingleSize_eq, entryWritten, nextPlace, nextTarget, ← shingleSize_eq] at hwrite
  simp only [shingleChanged]
  rw [if_neg hroom, if_neg hthere, hwrite]
  exact ⟨_, drainSettle_open (d := d.sent) (.inr (by simp [Drain.sent]))⟩

theorem exec_manifestBodyAck_written {b : Nat} (hd : s.ul.drain = some d) (ho : opOf s d.op = some o) (hphase : d.phase = 2)
    (hkind : (manifestTo d).kind = 0) (hraw : rawLba s (manifestTo d).rootPort (manifestTo d).nsidConn d.manifestOffset 64 = .ok b) :
    exec (.manifestBodyAck 0) s = .next (writeSent s o 64 (.ssd (manifestTo d).rootPort (manifestTo d).nsidConn 1 (d.manifestOffset / b) (64 / b)
      (readBytes s (ulArea s (newArea s)) 64)) { d with phase := 3 }) := by
  obtain ⟨hmem, hepoch, hhost, hstor⟩ := ulCharge_kept (s := s) (o := o) 64
  have hwrite := targetWrite_ssd (who := .manifest true) (a := ulArea s (newArea s)) hkind ((rawLba_of_eq hhost hstor _ _ _ _).trans hraw)
  rw [readBytes_of_mem hmem hepoch] at hwrite
  show execManifestBodyAck 0 s = _
  simp only [execManifestBodyAck, hd, ho, hphase, targetAck, hkind, hwrite, ne_eq, not_true_eq_false, if_true, if_false]
  rfl

/-- The registers show a drain's new manifest as the base. -/
def baseShown (s : State) (d : Drain) : State :=
  setF (setF (setF s Fld.ulStatBaseArea 0 (newArea s)) Fld.ulBaseCut 0 (drainCut s d).id) Fld.ulStatBaseValid 0 1

/-- The base moves to a drain's new manifest, and its slot is free. -/
def baseMoved (s : State) (d : Drain) : State :=
  setSlot { baseShown s d with ul := { s.ul with drain := none, slots := Tab.del s.ul.slots d.slot } } d.slot 0

theorem drainCommit_eq : drainCommit s d o = finishOp (putOp (bump (raiseD (baseMoved s d) srcUl
    { code := 0x0802, arg0 := (drainCut s d).id, arg1 := d.changed }) Fld.ulCommitCnt 0) d.op { o with st := .committed }) d.op 0
    (d.changed + if d.full then 2 ^ 63 else 0) 0 := by
  rw [show (if d.full = true then 2 ^ 63 else 0) = bit1 d.full * 2 ^ 63 by cases d.full <;> rfl]
  rfl

theorem slot_apart {i : Nat} (hi : i < 2) {f : Fld} (hf : f.lo ≤ f.hi) (h : 4 ≤ f.lo) : Fld.apart ⟨.ulStat, 2 * i + 1, 2 * i⟩ f :=
  ⟨by show 2 * i ≤ 2 * i + 1; omega, by show 2 * i + 1 < 64; omega, hf, .inr (.inl (by show 2 * i + 1 < f.lo; omega))⟩

theorem getF_baseMoved {f : Fld} (hslot : d.slot < 2) (hf : f.lo ≤ f.hi) (h : 4 ≤ f.lo ∨ f.reg ≠ .ulStat) (j : Nat) :
    getF (baseMoved s d) f j = getF (baseShown s d) f j := by
  have hkept (ul : Underlay) : getF { baseShown s d with ul := ul } f j = getF (baseShown s d) f j := getF_of_regs_eq rfl f j
  rw [baseMoved, setSlot]
  rcases h with hfar | hreg
  · rw [getF_setF_of_apart _ (slot_apart hslot hf hfar), hkept]
  · rw [getF_setF_other _ _ _ _ _ _ (.inl hreg), hkept]

theorem getF_baseShown : getF (baseShown s d) Fld.ulStatBaseValid 0 = 1 ∧
    getF (baseShown s d) Fld.ulStatBaseArea 0 = 1 - getF s Fld.ulStatBaseArea 0 ∧
    getF (baseShown s d) Fld.ulBaseCut 0 = (drainCut s d).id % 2 ^ 32 := by
  have harea : newArea s < 2 := by
    show 1 - baseArea s < 2
    omega
  rw [baseShown]
  refine ⟨getF_setF_within _ _ _ ⟨by decide, by decide⟩ (by decide), ?_, ?_⟩
  · rw [getF_setF_of_apart _ (by decide), getF_setF_of_apart _ (by decide), getF_setF_within _ _ _ ⟨by decide, by decide⟩ harea]
    rfl
  · rw [getF_setF_of_apart _ (by decide), getF_setF_same _ _ _ _ ⟨by decide, by decide⟩]
    rfl

theorem baseMoved_stat (hslot : d.slot < 2) : slotState (baseMoved s d) d.slot = 0 ∧ getF (baseMoved s d) Fld.ulStatBaseValid 0 = 1 ∧
    getF (baseMoved s d) Fld.ulStatBaseArea 0 = 1 - getF s Fld.ulStatBaseArea 0 ∧
    getF (baseMoved s d) Fld.ulBaseCut 0 = (drainCut s d).id % 2 ^ 32 := by
  refine ⟨slotState_setSlot_same hslot (by decide), ?_⟩
  rw [getF_baseMoved hslot (by decide) (.inl (by decide)), getF_baseMoved hslot (by decide) (.inl (by decide)),
    getF_baseMoved hslot (by decide) (.inr (by decide))]
  exact getF_baseShown

theorem baseMoved_rest : (baseMoved s d).ul.drain = none ∧ (baseMoved s d).mem = s.mem ∧ (baseMoved s d).rings = s.rings ∧
    (baseMoved s d).out = s.out := by
  rw [baseMoved, setSlot]
  refine ⟨rfl, ?_, ?_, ?_⟩
  · rw [setF_mem, baseShown, setF_mem, setF_mem, setF_mem]
  · rw [setF_rings, baseShown, setF_rings, setF_rings, setF_rings]
  · rw [setF_out, baseShown, setF_out, setF_out, setF_out]

end

/-! ### Restores (13 R404) -/

section
variable {s : State} {p node off l logical tgt loc : Nat} {o : Op} {r : Restore} {bs hash : List Byte}
  {rest : List (Nat × Nat × List Byte × Nat × Nat × Nat)}

/-- A restore whose first shingle still to read has been read. -/
def shingleTaken (s : State) (p : Nat) (r : Restore) (rest : List (Nat × Nat × List Byte × Nat × Nat × Nat)) : State :=
  { s with ul := { s.ul with restores := Tab.put s.ul.restores p { r with todo := rest, written := r.written + 1 } } }

/-- The target of the shingle that a restore reads is an SSD's namespace. -/
theorem target_isSsd (hkind : (r.targets[tgt]?).map (fun x => x.kind) = some 0) (t : Target) : (r.targets.getD tgt t).kind = 0 := by
  obtain ⟨x, hx, hzero⟩ := Option.map_eq_some_iff.1 hkind
  rw [List.getD_eq_getElem?_getD, hx]
  exact hzero

theorem sendNode_taken {src : NSrc} {tc : Nat} (hroute : routeFor s node = some l) (hfits : fitsCourse s l tc (msgFlits bs.length) = true) :
    sendNode s src node tc 1 0 0 off bs.length bs none = .ok (enqueueMsg s { src := src, link := l, tc := tc, data := bs, from_ := none, flits := msgFlits bs.length, hdr := msgHeader node 4 (nodeId s) false 1 0 bs.length 0 off }) := by
  simp only [sendNode, hroute, hfits, Bool.not_true, Bool.and_false, Bool.false_eq_true, if_false]

theorem sendNode_noRoute {src : NSrc} {tc : Nat} (hroute : routeFor s node = none) :
    sendNode s src node tc 1 0 0 off bs.length bs none = .error (0x70, s) := by
  simp only [sendNode, hroute]

section
variable (ho : running s p 0x0602 = some o) (hr : Tab.lookup s.ul.restores p = some r)
include ho hr

section
variable (htodo : r.todo = (tgt, loc, hash, logical, node, off) :: rest) (hkind : (r.targets[tgt]?).map (fun x => x.kind) = some 0)
include htodo hkind

theorem exec_restoreShingleRead_failed {status : Nat} (hstatus : status ≠ 0) :
    exec (.restoreShingleRead p bs status) s = .next (finishOp s p 0x97 0 status) := by
  show execRestoreShingleRead p bs status s = _
  simp only [execRestoreShingleRead, ho, hr, htodo, target_isSsd hkind, if_true, if_pos hstatus]

theorem exec_restoreShingleRead_differs (hhash : shingleHash bs ≠ hash) :
    exec (.restoreShingleRead p bs 0) s = .next (finishOp s p 0x9C logical 0) := by
  show execRestoreShingleRead p bs 0 s = _
  simp only [execRestoreShingleRead, ho, hr, htodo, target_isSsd hkind, if_true, if_pos hhash, ne_eq, not_true_eq_false, if_false]

/-- A shingle's WRITE waits to be sent to its node. -/
def shingleSent (s : State) (p : Nat) (r : Restore) (rest : List (Nat × Nat × List Byte × Nat × Nat × Nat)) (node l off : Nat) (bs : List Byte) : State :=
  enqueueMsg (shingleTaken s p r rest) { src := .restore p, link := l, tc := getF s Fld.ulCtlCopyTc 0, data := bs, from_ := none, flits := msgFlits bs.length, hdr := msgHeader node 4 (nodeId s) false 1 0 bs.length 0 off }

theorem exec_restoreShingleRead_sent (hhash : shingleHash bs = hash) (hroute : routeFor s node = some l)
    (hfits : fitsCourse s l (getF s Fld.ulCtlCopyTc 0) (msgFlits bs.length) = true) :
    exec (.restoreShingleRead p bs 0) s = .next (restRead (shingleSent s p r rest node l off bs) p o) := by
  have hsend := sendNode_taken (s := shingleTaken s p r rest) (bs := bs) (off := off) (src := .restore p) hroute hfits
  rw [shingleTaken] at hsend
  show execRestoreShingleRead p bs 0 s = _
  simp only [execRestoreShingleRead, ho, hr, htodo, target_isSsd hkind, if_true, if_neg (not_not.2 hhash), ne_eq, not_true_eq_false, if_false]
  exact congrArg _ (congrArg (fun e => match e with | .error (st, u) => finishOp u p st 0 0 | .ok u => restRead u p o) hsend)

theorem exec_restoreShingleRead_noRoute (hhash : shingleHash bs = hash) (hroute : routeFor s node = none) :
    exec (.restoreShingleRead p bs 0) s = .next (finishOp (shingleTaken s p r rest) p 0x70 0 0) := by
  have hsend := sendNode_noRoute (s := shingleTaken s p r rest) (bs := bs) (off := off) (src := .restore p) (tc := getF s Fld.ulCtlCopyTc 0) hroute
  show execRestoreShingleRead p bs 0 s = _
  simp only [execRestoreShingleRead, ho, hr, htodo, target_isSsd hkind, if_true, if_neg (not_not.2 hhash), ne_eq, not_true_eq_false, if_false]
  exact congrArg _ (congrArg (fun e => match e with | .error (st, u) => finishOp u p st 0 0 | .ok u => restRead u p o) hsend)

end

theorem exec_restoreWriteAck_judged : exec (.restoreWriteAck p) s = .next
    (if r.acked ≤ r.counted then s
     else if r.counted + 1 = r.total then
       finishOp (putOp { bump s Fld.ulRestoreCnt 0 with ul := { s.ul with restores := Tab.del s.ul.restores p } } p { o with st := .committed }) p 0 r.total 0
     else { bump s Fld.ulRestoreCnt 0 with ul := { s.ul with restores := Tab.put s.ul.restores p { r with counted := r.counted + 1 } } }) := by
  show execRestoreWriteAck p s = _
  simp only [execRestoreWriteAck, ho, hr]
  rfl

end

theorem getF_restored (ul : Underlay) : getF { bump s Fld.ulRestoreCnt 0 with ul := ul } Fld.ulRestoreCnt 0 = (getF s Fld.ulRestoreCnt 0 + 1) % 2 ^ 64 :=
  getF_bump_same s Fld.ulRestoreCnt 0 ⟨by decide, by decide⟩

end

/-! ### UL_BASE_INV (13 R387, R389) -/

section
variable {s : State} {req : Requester} {v : Word}

theorem exec_ulBaseInv_open (hmode : mode s = 1) : exec (.ulBaseInv req v) s = .next
    (if !Requester.isPf req ∨ (v.getLsbD 31 = true ∧ s.ul.drain.isSome = true) then bump s Fld.ulDeniedCnt 0
     else if v.getLsbD 31 then setF s Fld.ulStatBaseValid 0 0 else s) := by
  show execUlBaseInv req v s = _
  rw [execUlBaseInv, gated_normal hmode]

theorem exec_ulBaseInv_cleared (hpf : Requester.isPf req = true) (hmode : mode s = 1) (hv : v.getLsbD 31 = true) (hd : s.ul.drain = none) :
    exec (.ulBaseInv req v) s = .next (setF s Fld.ulStatBaseValid 0 0) := by
  simp [exec_ulBaseInv_open hmode, hpf, hv, hd]

theorem exec_ulBaseInv_denied (hmode : mode s = 1) (h : Requester.isPf req = false ∨ (v.getLsbD 31 = true ∧ s.ul.drain ≠ none)) :
    exec (.ulBaseInv req v) s = .next (bump s Fld.ulDeniedCnt 0) := by
  rw [exec_ulBaseInv_open hmode, if_pos]
  rwa [Option.isSome_iff_ne_none, Bool.not_eq_true']

theorem exec_ulBaseInv_nothing (hpf : Requester.isPf req = true) (hmode : mode s = 1) (hv : v.getLsbD 31 = false) :
    exec (.ulBaseInv req v) s = .next s := by
  rw [exec_ulBaseInv_open hmode, hpf, hv]
  simp

theorem slotState_baseInv {i : Nat} (hi : i < 2) : slotState (setF s Fld.ulStatBaseValid 0 0) i = slotState s i :=
  getF_setF_of_apart s ⟨by decide, by decide, by show 2 * i ≤ 2 * i + 1; omega, .inr (.inr (by show 2 * i + 1 < 4; omega))⟩ 0 0 0

end

/-! ### The statement -/

/-- Settles O51: each end and arrival of a cut, a drain and a restore. The group that a timeout names is log 87, the class of a restore's
WRITEs log 89, the manifest's header log 153, and the moves of fabric time at a limit log 125. -/
theorem underlayCommands : Obligations.UnderlayCommands := by
  unfold Obligations.UnderlayCommands
  intro s req v m c d o r g p i ext st dl status b tgt loc logical node off l n bs hash rest q t w mine mg plan others
  have hhere (h : mine) : ArrivesHere s m 0 := by
    obtain ⟨hlink, hup, hrouted, hclash, hid, hdst, hme⟩ := h
    exact ⟨⟨hlink, hup⟩, hrouted, hclash, hid, hdst, hme⟩
  have hexec (h : mine) : exec (.cutReady m) s = .next (cutReady t m) := exec_cutReady (hhere h)
  refine ⟨fun h hcopy => (hexec h).trans (congrArg _ (cutReady_noCopy hcopy)), fun h hcopy => ⟨fun hno => (hexec h).trans (congrArg _ (cutReady_bad hcopy hno)),
    fun hid hq hgroup hnode => ⟨fun hold => (hexec h).trans (congrArg _ (cutReady_ignored hcopy hid hq hgroup hnode hold)), fun hfresh hgoes =>
      ⟨_, (hexec h).trans (congrArg _ (cutReady_taken hcopy hid hq hgroup hnode hfresh hgoes)), rfl, rfl, rfl, rfl⟩⟩⟩,
    ⟨readChunks_sum n, fun k => readChunks_within⟩, exec_copy_none, ?_, exec_groupCopyDone_ignored, ?_, exec_cutReadyTimeout_ignored, ?_, exec_drain_none,
    exec_ulDrainTimeoutExpiry_late, ?_, ?_, exec_shingleWriteAck_unknown, ?_, ?_, ?_, ?_, exec_ulBaseInv_denied, exec_ulBaseInv_nothing⟩
  · intro hcopy htaken hfresh hgoes hreads
    have hdone := exec_groupCopyDone_copied hcopy htaken hfresh hgoes hreads
    obtain ⟨hrings, hmem, hloft, hxpt, hstor, hraft⟩ := groupCopied_rest (s := s) (c := c) (g := g)
    refine ⟨fun hall hslot ho => ?_, fun hq hnot hother => ?_⟩
    · have ho' : opOf (groupCopied s c g) c.op = some o := by rw [opOf, hrings]; exact ho
      rw [if_pos (copied_all.2 hall), cutDone_eq (c := c.withCopied g) ho'] at hdone
      obtain ⟨hcopy', hmem', hloft', hxpt', hstor', hraft'⟩ := slotCopied_rest (s := groupCopied s c g) (c := c.withCopied g)
      refine ⟨_, hdone, hcopy', slotState_slotCopied (c := c.withCopied g) hslot, ?_, ?_, hmem'.trans hmem, hloft'.trans hloft, hxpt'.trans hxpt,
        hstor'.trans hstor, hraft'.trans hraft⟩
      · rw [getF_slotCopied_cuts, getF_groupCopied_cuts]
      · rw [getF_slotCopied (by decide) (by decide), getF_groupCopied_bytes]
    · rw [if_neg (fun hall => (copied_all.1 hall q hq).elim hnot hother)] at hdone
      exact ⟨_, hdone, rfl, hrings, ⟨hmem, hloft, hxpt, hstor, hraft⟩, getF_groupCopied_bytes⟩
  · intro hcopy hgoes hfind
    exact ⟨_, exec_cutReadyTimeout_late hcopy hgoes hfind, rfl, rfl, rfl, rfl, rfl, rfl, rfl, rfl, rfl, rfl⟩
  · intro hcopy hab ho
    rw [exec_cutAbandonComplete_judged hcopy hab ho]
    refine ⟨fun hnil => by rw [hnil]; rfl, fun hsome => ?_⟩
    rw [if_neg (by rwa [List.isEmpty_iff])]
  · intro hd ho k a e tg h
    have hk : k = planShingles (drainCut s d).plan := rfl
    refine ⟨exec_shingleHashed_paused hd ho, fun hcopy hnext hdom => ?_⟩
    rw [hk] at hnext
    refine ⟨fun hpart hsame => ?_, fun hdiff => ?_⟩
    · obtain ⟨-, hrings, hout, -⟩ := entryCopied_rest (s := s) (d := d)
      obtain ⟨hread, hbeside⟩ := read_entryCopied (s := s) (d := d) { d with next := d.next + 1 }
      exact ⟨_, exec_shingleHashed_same hd ho hcopy hnext hdom hpart hsame, hread, hbeside, drainKept_drain, (getF_drainKept _ _).trans getF_entryCopied_hashed,
        drainKept_rings.trans hrings, drainKept_out.trans hout⟩
    · have hchanged : exec .shingleHashed s = .next (shingleChanged s d o h) := exec_shingleHashed_changed hd ho hcopy hnext hdom hdiff
      refine ⟨fun hfull => hchanged.trans (congrArg _ (shingleChanged_full hfull)), fun hroom htok => hchanged.trans (congrArg _ (shingleChanged_noTokens hroom htok)),
        fun hroom htok hkind hraw => ?_⟩
      obtain ⟨x, hx⟩ := shingleChanged_written (hash := h) hroom htok hkind hraw
      obtain ⟨-, hrings, hout, -, -, -⟩ := entryWritten_rest (s := s) (d := d) (hash := h)
      obtain ⟨hdrain, hout', -, -, hops⟩ := writeSent_rest (s := entryWritten s d h) (o := o) (d := d.sent) 65536
        (.ssd tg.rootPort tg.nsidConn 1 (nextPlace d / b) (65536 / b) x)
      obtain ⟨hread, hbeside⟩ := read_writeSent (s := s) (d := d) (o := o) (bs := readBytes s a 65536)
        (w := .ssd tg.rootPort tg.nsidConn 1 (nextPlace d / b) (65536 / b) x)
      exact ⟨_, x, hchanged.trans (congrArg _ hx), hdrain, hout'.trans (congrArg (List.cons _) hout), hread, hbeside,
        hops.trans (congrArg (·.ops) hrings)⟩
  · intro hd ho hi hkind
    refine ⟨fun hstatus => ?_, fun hmore => ?_, fun hlast hphase hnext => ?_⟩
    · rw [exec_shingleWriteAck_judged hd ho hi hkind, if_pos hstatus]
      rfl
    · rw [exec_shingleWriteAck_judged hd ho hi hkind, if_neg (not_not.2 rfl), drainSettle_open (.inr hmore)]
      exact ⟨_, rfl, rfl, getF_bump_same s Fld.ulChangedCnt 0 ⟨by decide, by decide⟩, rfl, rfl, rfl⟩
    · have hnone : d.writes.erase i = [] := by rw [hlast, List.erase_cons_head]
      rw [exec_shingleWriteAck_judged hd ho hi hkind, if_neg (not_not.2 rfl), hnone, drainSettle, if_pos ⟨hphase, hnext, rfl⟩]
  · intro hd ho hkind
    refine ⟨fun hphase hstatus => ?_, fun hphase hraw => ?_, exec_manifestBodyAck_early hd ho, exec_manifestHeaderAck_early hd ho, fun hphase hstatus => ?_,
      fun hphase hslot => ?_⟩
    · exact exec_manifestBodyAck_failed hd ho hphase hkind hstatus
    · obtain ⟨hdrain, hout, hmem, -, hops⟩ := writeSent_rest (s := s) (o := o) (d := { d with phase := 3 }) 64
        (.ssd (manifestTo d).rootPort (manifestTo d).nsidConn 1 (d.manifestOffset / b) (64 / b) (readBytes s (ulArea s (newArea s)) 64))
      exact ⟨_, exec_manifestBodyAck_written hd ho hphase hkind hraw, hdrain, hout, hmem, hops⟩
    · rw [exec_manifestHeaderAck_judged hd ho hphase hkind, if_pos hstatus]
      rfl
    · obtain ⟨hfree, hvalid, harea, hcut⟩ := baseMoved_stat (s := s) (d := d) hslot
      rw [exec_manifestHeaderAck_judged hd ho hphase hkind, if_neg (not_not.2 rfl), drainCommit_eq]
      obtain ⟨hdrain, hmem, hrings, hout⟩ := baseMoved_rest (s := s) (d := d)
      exact ⟨_, rfl, hdrain, hfree, hvalid, harea, hcut, hmem, hrings, hout⟩
  · intro ho hr htodo hkind
    refine ⟨exec_restoreShingleRead_failed ho hr htodo hkind, exec_restoreShingleRead_differs ho hr htodo hkind, fun hhash hroute hfits => ?_,
      fun hhash hroute => ⟨_, exec_restoreShingleRead_noRoute ho hr htodo hkind hhash hroute, rfl, rfl, rfl⟩⟩
    exact ⟨_, _, exec_restoreShingleRead_sent ho hr htodo hkind hhash hroute hfits, rfl, rfl, rfl, rfl,
      by rw [shingleSent, enqueueMsg, shingleTaken, Tab.lookup_put, if_pos rfl], rfl, rfl, rfl⟩
  · intro ho hr
    rw [exec_restoreWriteAck_judged ho hr]
    refine ⟨fun hnone => by rw [if_pos hnone], fun hmore hlast => ?_, fun hmore hopen => ?_⟩
    · rw [if_neg (not_le.2 hmore), if_pos hlast]
      exact ⟨_, rfl, by rw [Tab.lookup_del, if_pos rfl], getF_restored _, rfl, rfl, rfl, rfl, rfl, rfl⟩
    · rw [if_neg (not_le.2 hmore), if_neg hopen]
      exact ⟨_, rfl, by rw [Tab.lookup_put, if_pos rfl], getF_restored _, rfl, rfl, rfl, rfl, rfl, rfl⟩
  · intro hpf hmode hv hd
    exact ⟨_, exec_ulBaseInv_cleared hpf hmode hv hd, getF_setF_within s Fld.ulStatBaseValid 0 ⟨by decide, by decide⟩ (by decide),
      getF_setF_of_apart s (by decide) 0 0 0, slotState_baseInv (by decide), slotState_baseInv (by decide),
      fun x j hx => getReg_setF_other s _ x 0 j 0 (.inl hx), rfl, rfl, rfl, rfl, rfl⟩

end Sys2Proof.Machine
end

section
/-! PROOFS. The storage service (14 R407 to R417): the fetch of every command, what an admitted admin command does, and the statement of the
two. -/

namespace Sys2Proof.Machine

/-! ### Controllers (14 R407) -/

section
variable {s : State} {c : Nat} {x : Ctrl}

@[simp] theorem ctrlOf_setCtrl_same : ctrlOf (setCtrl s c x) c = x := Tab.get_store_same _ _ _ _

theorem ctrlOf_setCtrl_other {y : Nat} (h : y ≠ c) : ctrlOf (setCtrl s c x) y = ctrlOf s y := Tab.get_store_ne _ _ _ h

end

/-! ### The fetch of a command (14 R409, R413, R416) -/

section
variable {s u : State} {n : NCmd} {t : Nat} {r : Bool}

theorem fetchGate_normal {bay : Nat} (h : fetchGate s bay = some r) : mode s = 1 := by
  by_contra hmode
  rw [fetchGate, if_pos hmode] at h
  exact absurd h (by simp)

/-- A submission queue whose next command has been fetched. -/
def Sq.fetched (q : Sq) (rest : List (Nat × Nat)) : Sq := { q with head := (q.head + 1) % q.size, arrivals := rest }

/-- What a fetch needs, and what it changes. -/
theorem nvmeFetch_some (h : nvmeFetch s n = some (t, r, u)) :
    flagF s Fld.storCtlEnable 0 = true ∧ ctrlEnabled (ctrlOf s n.ctrl) = true ∧ mode s = 1 ∧ ∃ q rest, Tab.lookup (ctrlOf s n.ctrl).sqs n.sq = some q ∧
      u = setCtrl s n.ctrl { ctrlOf s n.ctrl with sqs := Tab.put (ctrlOf s n.ctrl).sqs n.sq (q.fetched rest) } := by
  simp only [nvmeFetch] at h
  split at h
  · cases h
  next hopen =>
    simp only [Bool.or_eq_true, Bool.not_eq_true', not_or, Bool.not_eq_false] at hopen
    obtain ⟨⟨hon, hen⟩, -⟩ := hopen
    split at h
    next refused q hgate hq =>
      split at h
      · split at h
        · cases h
        · obtain ⟨-, -, rfl⟩ := h
          exact ⟨hon, hen, fetchGate_normal hgate, q, _, hq, rfl⟩
      · cases h
    · cases h

theorem nvmeFetch_closed (h : mode s ≠ 1 ∨ getF s Fld.storCtlEnable 0 = 0 ∨ bitN (ctrlOf s n.ctrl).cc 0 = false ∨
    Tab.lookup (ctrlOf s n.ctrl).sqs n.sq = none) : nvmeFetch s n = none := by
  rw [Option.eq_none_iff_forall_ne_some]
  rintro ⟨t, r, u⟩ hf
  obtain ⟨hon, hen, hmode, q, rest, hq, -⟩ := nvmeFetch_some hf
  rcases h with h | h | h | h
  · exact h hmode
  · rw [flagF_eq_false h] at hon
    exact Bool.false_ne_true hon
  · rw [ctrlEnabled, h] at hen
    exact Bool.false_ne_true hen
  · rw [h] at hq
    cases hq

theorem nvmeFetch_rest (h : nvmeFetch s n = some (t, r, u)) : u.mem = s.mem ∧ u.regs = s.regs ∧ u.rings = s.rings ∧ u.out = s.out := by
  obtain ⟨-, -, -, q, rest, -, rfl⟩ := nvmeFetch_some h
  exact ⟨rfl, rfl, rfl, rfl⟩

theorem nvmeFetch_head (h : nvmeFetch s n = some (t, r, u)) : ∃ q, Tab.lookup (ctrlOf s n.ctrl).sqs n.sq = some q ∧
    (Tab.lookup (ctrlOf u n.ctrl).sqs n.sq).map (fun q => q.head) = some ((q.head + 1) % q.size) ∧ (ctrlOf u n.ctrl).cqs = (ctrlOf s n.ctrl).cqs := by
  obtain ⟨-, -, -, q, rest, hq, rfl⟩ := nvmeFetch_some h
  refine ⟨q, hq, ?_, by rw [ctrlOf_setCtrl_same]⟩
  rw [ctrlOf_setCtrl_same, Tab.lookup_put, if_pos rfl]
  rfl

end

/-! ### The operation of a command (14 R413) -/

section
variable {s u : State} {n : NCmd} {t opc : Nat} {data : List Byte} {admin : Bool} {bad : Option Nat}

/-- A state with the record of a fetched command. -/
def commandKept (u : State) (b : Backend) : State := { u with stor := { u.stor with cmds := Tab.put u.stor.cmds u.rings.nextOp b } }

/-- The operation of a fetched command, before it is admitted. -/
def commandOp (u : State) (b : Backend) (t : Nat) : Op :=
  { src := .nvme b.cmd.ctrl b.cmd.sq b.cmd.cid, opcode := 0x4000 + b.opc, arrival := t, bay := getF u Fld.storCtlBay 0, partner := getF u Fld.storCtrlPartner b.cmd.ctrl }

/-- The record of a command of an opcode. -/
def commandOf (n : NCmd) (admin : Bool) (opc : Nat) (data : List Byte) : Backend := { cmd := n, opc := if admin then 0x100 + opc else opc, data := data }

theorem nvmeArrive_other (h : admin ≠ (n.sq == 0)) : nvmeArrive s n admin opc data bad = s := if_pos h

theorem nvmeArrive_none (h : nvmeFetch s n = none) : nvmeArrive s n admin opc data bad = s := by
  rw [nvmeArrive, h]
  exact ite_self s

section
variable (hkind : admin = (n.sq == 0))
include hkind

theorem nvmeArrive_refused (h : nvmeFetch s n = some (t, true, u)) : nvmeArrive s n admin opc data bad =
    endEarly (enrolled (commandKept u (commandOf n admin opc data)) (commandOp u (commandOf n admin opc data) t)) u.rings.nextOp 0x23 := by
  rw [nvmeArrive, if_neg (not_not.2 hkind), h]
  rfl

theorem nvmeArrive_bad {st : Nat} (h : nvmeFetch s n = some (t, false, u))
    (hbad : bad.or (if admin then none else ioBad u (commandOf n admin opc data)) = some st) : nvmeArrive s n admin opc data bad =
    nvmeFail (enrolled (commandKept u (commandOf n admin opc data)) (commandOp u (commandOf n admin opc data) t)) u.rings.nextOp st := by
  rw [commandOf] at hbad
  rw [nvmeArrive, if_neg (not_not.2 hkind), h]
  simp only [Bool.false_eq_true, if_false, hbad]
  rfl

theorem nvmeArrive_judged (h : nvmeFetch s n = some (t, false, u))
    (hgood : bad.or (if admin then none else ioBad u (commandOf n admin opc data)) = none) : nvmeArrive s n admin opc data bad =
    arriveOp nvmeStart (commandKept u (commandOf n admin opc data)) { commandOp u (commandOf n admin opc data) t with
      pool := 4, cost := nvmeCost (commandKept u (commandOf n admin opc data)) (commandOf n admin opc data) } := by
  rw [commandOf] at hgood
  rw [nvmeArrive, if_neg (not_not.2 hkind), h]
  simp only [Bool.false_eq_true, if_false, hgood]
  rfl

end

/-- What is known of a command's operation that has taken the next number. -/
theorem enrolled_command {b : Backend} {r : Bool} (h : nvmeFetch s n = some (t, r, u)) : let x := enrolled (commandKept u b) (commandOp u b t)
    opOf x u.rings.nextOp = some (commandOp u b t) ∧ x.rings.nextOp = u.rings.nextOp + 1 ∧ x.mem = s.mem ∧ x.regs = s.regs ∧ x.out = s.out := by
  obtain ⟨hmem, hregs, -, hout⟩ := nvmeFetch_rest h
  exact ⟨opOf_putOp_same _ _ _, rfl, hmem, hregs, hout⟩

theorem nvmeCost_admin (b : Backend) (h : 0x100 ≤ b.opc) : nvmeCost s b = 0 := if_pos h

theorem nvmeCost_still (h : opc = 0 ∨ opc = 9) : nvmeCost s (commandOf n false opc data) = 4096 := by
  rcases h with rfl | rfl <;> rfl

theorem nvmeCost_moving (h : opc = 1 ∨ opc = 2 ∨ opc = 8) :
    nvmeCost s (commandOf n false opc data) = Nat.max 4096 ((n.cdw12 % 65536 + 1) * nsLba (nsWords s n.ctrl (n.nsid - 1))) := by
  rcases h with rfl | rfl | rfl <;> rfl

/-- The rows of the admin commands, with their opcodes (14 Table 14.2). -/
noncomputable def adminRows (n : NCmd) : List (Instr × Nat) :=
  [(.deleteIoSubmissionQueue n, 0), (.createIoSubmissionQueue n, 1), (.getLogPage n, 2), (.deleteIoCompletionQueue n, 4), (.createIoCompletionQueue n, 5), (.identify n, 6), (.nvmeAbort n, 8), (.setFeatures n, 9), (.getFeatures n, 10), (.asynchronousEventRequest n, 12)]

/-- The rows of the I/O commands, with their opcodes and data (14 Table 14.3). -/
noncomputable def ioRows (n : NCmd) (data : List Byte) : List (Instr × Nat × List Byte) :=
  [(.nvmeFlush n, 0, []), (.nvmeWrite n data, 1, data), (.nvmeRead n, 2, []), (.writeZeroes n, 8, []), (.datasetManagement n data, 9, data)]

theorem exec_adminRow (s : State) (n : NCmd) : ∀ e, e ∈ adminRows n → exec e.1 s = .next (nvmeArrive s n true e.2 [] none) := by
  simp only [adminRows, List.forall_mem_cons]
  exact ⟨rfl, rfl, rfl, rfl, rfl, rfl, rfl, rfl, rfl, rfl, fun _ h => absurd h List.not_mem_nil⟩

theorem exec_ioRow (s : State) (n : NCmd) (data : List Byte) :
    ∀ e, e ∈ ioRows n data → exec e.1 s = .next (nvmeArrive s n false e.2.1 e.2.2 none) := by
  simp only [ioRows, List.forall_mem_cons]
  exact ⟨rfl, rfl, rfl, rfl, rfl, fun _ h => absurd h List.not_mem_nil⟩

theorem nvmeCost_ioRow (s : State) (n : NCmd) (data : List Byte) : ∀ e, e ∈ ioRows n data → nvmeCost s (commandOf n false e.2.1 e.2.2) =
    if e.2.1 = 0 ∨ e.2.1 = 9 then 4096 else Nat.max 4096 ((n.cdw12 % 65536 + 1) * nsLba (nsWords s n.ctrl (n.nsid - 1))) := by
  simp only [ioRows, List.forall_mem_cons]
  exact ⟨nvmeCost_still (.inl rfl), nvmeCost_moving (.inl rfl), nvmeCost_moving (.inr (.inl rfl)), nvmeCost_moving (.inr (.inr rfl)),
    nvmeCost_still (.inr rfl), fun _ h => absurd h List.not_mem_nil⟩

theorem exec_invalidCommandOpcode_listed {op : Byte} (h : opcodeListed (n.sq == 0) op.toNat = true) : exec (.invalidCommandOpcode n op) s = .next s := by
  show execInvalidCommandOpcode n op s = _
  rw [execInvalidCommandOpcode, if_pos h]

theorem exec_invalidCommandOpcode_other {op : Byte} (h : opcodeListed (n.sq == 0) op.toNat = false) :
    exec (.invalidCommandOpcode n op) s = .next (nvmeArrive s n (n.sq == 0) op.toNat [] (some 0x1801)) := by
  show execInvalidCommandOpcode n op s = _
  rw [execInvalidCommandOpcode, if_neg (by rw [h]; exact Bool.false_ne_true)]
  rfl

theorem ioBad_noNamespace {b : Backend} (h : nsOf u b.cmd.ctrl b.cmd.nsid = none) : ioBad u b = some 0x180B := by
  rw [ioBad, h]
  rfl

theorem ioBad_tooLong {ns : List Nat} (h : nsOf u n.ctrl n.nsid = some ns) (hlba : nsLba ns = 4096) (hlen : 32 ≤ n.cdw12 % 65536) :
    ioBad u { cmd := n, opc := 1, data := data } = some 0x1802 := by
  have hlong : 131072 < cmdNlb n * nsLba ns := by
    rw [hlba, cmdNlb]
    omega
  simp only [ioBad, h]
  rw [if_pos (show movesLbas 1 = true from rfl), if_pos ⟨by decide, hlong⟩]
  rfl

end

/-! ### Admin commands (14 Table 14.2) -/

section
variable {s : State} {num : Nat} {o : Op} {b : Backend}

theorem nvmeStart_admin (ho : opOf s num = some o) (hb : Tab.lookup s.stor.cmds num = some b) (h : 0x100 ≤ b.opc) : nvmeStart s num = adminStart s num b := by
  simp only [nvmeStart, ho, hb, if_pos h]

theorem adminStart_deleteSq (h : b.opc = 0x100) : adminStart s num b = nvmeEither s num (deleteSq s b.cmd) := by
  have hopc : b.opc - 0x100 = 0 := by rw [h]
  unfold adminStart
  simp only [hopc]

theorem adminStart_createSq (h : b.opc = 0x101) : adminStart s num b = nvmeEither s num (createSq s b.cmd) := by
  have hopc : b.opc - 0x100 = 1 := by rw [h]
  unfold adminStart
  simp only [hopc]

theorem adminStart_deleteCq (h : b.opc = 0x104) : adminStart s num b = nvmeEither s num (deleteCq s b.cmd) := by
  have hopc : b.opc - 0x100 = 4 := by rw [h]
  unfold adminStart
  simp only [hopc]

theorem adminStart_createCq (h : b.opc = 0x105) : adminStart s num b = nvmeEither s num (createCq s b.cmd) := by
  have hopc : b.opc - 0x100 = 5 := by rw [h]
  unfold adminStart
  simp only [hopc]

theorem adminStart_abort (h : b.opc = 0x108) : adminStart s num b = abortCmd s num b.cmd := by
  have hopc : b.opc - 0x100 = 8 := by rw [h]
  unfold adminStart
  simp only [hopc]

theorem adminStart_event (h : b.opc = 0x10C) : adminStart s num b = awaitEvent s num b.cmd := by
  have hopc : b.opc - 0x100 = 12 := by rw [h]
  unfold adminStart
  simp only [hopc]


theorem adminStart_setFeatures (h : b.opc = 0x109) : adminStart s num b =
    if featBad b then nvmeFail s num 0x1802 else finishOp (setCtrl s b.cmd.ctrl { ctrlOf s b.cmd.ctrl with
        feats := Tab.store (featDefault (featKey (b.cmd.cdw10 % 256) b.cmd.cdw11)) (ctrlOf s b.cmd.ctrl).feats (featKey (b.cmd.cdw10 % 256) b.cmd.cdw11) b.cmd.cdw11 })
      num 0 (if b.cmd.cdw10 % 256 = 0x07 then featValue (ctrlOf s b.cmd.ctrl) (b.cmd.cdw10 % 256) (featKey (b.cmd.cdw10 % 256) b.cmd.cdw11) else 0) 0 := by
  have hopc : b.opc - 0x100 = 9 := by rw [h]
  unfold adminStart
  simp only [hopc]
  rfl

theorem adminStart_getFeatures (h : b.opc = 0x10A) : adminStart s num b = if featBad b then nvmeFail s num 0x1802
    else finishOp s num 0 (featValue (ctrlOf s b.cmd.ctrl) (b.cmd.cdw10 % 256) (featKey (b.cmd.cdw10 % 256) b.cmd.cdw11)) 0 := by
  have hopc : b.opc - 0x100 = 10 := by rw [h]
  unfold adminStart
  simp only [hopc]
  rfl

theorem featBad_notOffered (h : b.cmd.cdw10 % 256 = 2) : featBad b = true := by
  rw [featBad, h]
  rfl

end

section
variable {s : State} {n : NCmd}

/-- Fields of the word that names a queue (14 Table 14.2): its ID, and its size less 1 or a CID. -/
theorem high_half (v : Nat) : fieldOf v 31 16 = v / 65536 % 65536 := rfl

theorem bit0_of_odd {v : Nat} (h : v % 2 = 1) : bitN v 0 = true := by
  rw [bitN, Nat.pow_zero, Nat.div_one, h]
  rfl

/-- A queue that a Create command names lies where a queue may. -/
structure QueueOk (s : State) (n : NCmd) : Prop where
  id : 1 ≤ n.cdw10 % 65536 ∧ n.cdw10 % 65536 ≤ 64
  size : 1 ≤ n.cdw10 / 65536 % 65536 ∧ n.cdw10 / 65536 % 65536 < 4096
  whole : n.cdw11 % 2 = 1
  page : n.prp1 % ctrlPage (ctrlOf s n.ctrl) = 0

theorem createSq_made {k : Cq} (h : QueueOk s n) (hfree : Tab.lookup (ctrlOf s n.ctrl).sqs (n.cdw10 % 65536) = none)
    (hcq : n.cdw11 / 65536 % 65536 ≠ 0) (hk : Tab.lookup (ctrlOf s n.ctrl).cqs (n.cdw11 / 65536 % 65536) = some k) :
    createSq s n = .ok (setCtrl s n.ctrl { ctrlOf s n.ctrl with sqs := Tab.put (ctrlOf s n.ctrl).sqs (n.cdw10 % 65536) { size := n.cdw10 / 65536 % 65536 + 1, base := n.prp1, cq := n.cdw11 / 65536 % 65536 } }) := by
  obtain ⟨hid, hsize, hwhole, hpage⟩ := h
  simp only [createSq, high_half, hfree, hk, bit0_of_odd hwhole, hpage, Option.isSome_none, Option.isNone_some, Bool.false_eq_true, Bool.true_eq_false, or_false,
    ne_eq, not_true_eq_false, or_self, if_false, if_neg hcq]
  rw [if_neg (by omega), if_neg (by omega)]

theorem createCq_made (h : QueueOk s n) (hfree : Tab.lookup (ctrlOf s n.ctrl).cqs (n.cdw10 % 65536) = none) (hvec : n.cdw11 / 65536 % 65536 < 32) :
    createCq s n = .ok (setCtrl s n.ctrl { ctrlOf s n.ctrl with cqs := Tab.put (ctrlOf s n.ctrl).cqs (n.cdw10 % 65536) { size := n.cdw10 / 65536 % 65536 + 1, base := n.prp1, vec := n.cdw11 / 65536 % 65536, ien := bitN n.cdw11 1 } }) := by
  obtain ⟨hid, hsize, hwhole, hpage⟩ := h
  simp only [createCq, high_half, hfree, bit0_of_odd hwhole, hpage, Option.isSome_none, Bool.false_eq_true, Bool.true_eq_false, or_false,
    ne_eq, not_true_eq_false, or_self, if_false]
  rw [if_neg (by omega), if_neg (by omega)]
  exact if_neg (not_le.2 hvec)

theorem deleteCq_named {k : Cq} (hid : n.cdw10 % 65536 ≠ 0) (hk : Tab.lookup (ctrlOf s n.ctrl).cqs (n.cdw10 % 65536) = some k) :
    deleteCq s n = if (ctrlOf s n.ctrl).sqs.any (fun e => e.2.cq == n.cdw10 % 65536) then .error 0x190C
      else .ok (setCtrl s n.ctrl { ctrlOf s n.ctrl with cqs := Tab.del (ctrlOf s n.ctrl).cqs (n.cdw10 % 65536) }) := by
  simp only [deleteCq, hid, hk, Option.isNone_some, Bool.false_eq_true, or_self, if_false]
  rfl

theorem deleteSq_unknown (h : n.cdw10 % 65536 = 0 ∨ Tab.lookup (ctrlOf s n.ctrl).sqs (n.cdw10 % 65536) = none) : deleteSq s n = .error 0x1901 := by
  simp only [deleteSq, Option.isNone_iff_eq_none, if_pos h]
  rfl

end

section
variable {s : State} {num : Nat} {n : NCmd}

theorem abortCmd_gone (h : (opsWhere s (fun o => decide (o.src = .nvme n.ctrl (n.cdw10 % 65536) (n.cdw10 / 65536 % 65536)))).find? (fun m => m != num) = none) :
    abortCmd s num n = finishOp s num 0 1 0 := by
  rw [← high_half] at h
  simp only [abortCmd, h]
  rfl

theorem abortCmd_target {c : Nat} (hsq : n.cdw10 % 65536 ≠ 0)
    (h : (opsWhere s (fun o => decide (o.src = .nvme n.ctrl (n.cdw10 % 65536) (n.cdw10 / 65536 % 65536)))).find? (fun m => m != num) = some c) :
    abortCmd s num n = finishOp (finishOp s c 0x24 0 0) num 0 0 0 := by
  rw [← high_half] at h
  simp only [abortCmd, h, if_neg hsq]
  rfl

theorem awaitEvent_kept {ev : Nat} {rest : List Nat} (h : (ctrlOf s n.ctrl).events = ev :: rest) :
    awaitEvent s num n = finishOp (setCtrl s n.ctrl { ctrlOf s n.ctrl with events := rest }) num 0 ev 0 := by
  simp only [awaitEvent, h]
  rfl

theorem awaitEvent_waits (h : (ctrlOf s n.ctrl).events = []) : awaitEvent s num n =
    if 4 ≤ (ctrlOf s n.ctrl).aers.length then nvmeFail s num 0x1905 else setCtrl s n.ctrl { ctrlOf s n.ctrl with aers := (ctrlOf s n.ctrl).aers ++ [n.cid] } := by
  simp only [awaitEvent, h]
  rfl

end

/-- Settles O52: what a fetch makes of every command, and what an admitted admin command does. The statuses are log 91, Abort and Asynchronous
Event Requests log 151, a feature's default log 92, and the namespace read at the fetch log 90. -/
theorem storageCommandsFetched : Obligations.StorageCommandsFetched := by
  unfold Obligations.StorageCommandsFetched
  intro s u n data op t st num c q k b o ev rest admin io num' rec_ mine ended x0 adm id
  have hadmin {opc : Nat} (h : adm opc) : nvmeStart s num = adminStart s num b := by
    obtain ⟨ho, hb, hopc, -⟩ := h
    exact nvmeStart_admin ho hb (by omega)
  have hended {b : Backend} {r : Bool} (hb : b.cmd = n) (h : nvmeFetch s n = some (t, r, u)) :
      ended (enrolled (commandKept u b) (commandOp u b t)) (commandOp u b t) := by
    obtain ⟨ho, hnext, hmem, hregs, hout⟩ := enrolled_command (b := b) h
    subst hb
    exact ⟨ho, ⟨rfl, rfl, rfl, rfl⟩, hnext, hmem, hregs, hout⟩
  refine ⟨fun e he hsq hf => ?_, fun e he hsq hf => ?_, fun e he hno => ?_, fun e he hsq hf hgood => ?_, fun e he hsq hf hbad => ?_, fun e he hsq hf => ?_,
    fun e he hno => ?_, exec_invalidCommandOpcode_listed, fun hop hf => ?_, fun hf => ?_, nvmeFetch_closed, fun h => ⟨ioBad_noNamespace h, ioBad_noNamespace h⟩,
    fun hns hlen => ?_, ?_⟩
  · have hkind : true = (n.sq == 0) := (beq_iff_eq.2 hsq).symm
    exact ⟨_, (exec_adminRow s n e he).trans (congrArg _ (nvmeArrive_judged hkind hf rfl)), ⟨rfl, rfl, rfl, rfl⟩, rfl, nvmeCost_admin _ (Nat.le_add_right _ _), by
      rw [commandOp, commandOf, if_pos rfl, ← Nat.add_assoc]⟩
  · have hkind : true = (n.sq == 0) := (beq_iff_eq.2 hsq).symm
    exact ⟨_, _, (exec_adminRow s n e he).trans (congrArg _ (nvmeArrive_refused hkind hf)), hended rfl hf⟩
  · rw [exec_adminRow s n e he]
    rcases hno with hf | hsq
    · rw [nvmeArrive_none hf]
    · rw [nvmeArrive_other (by simpa using hsq)]
  · have hkind : false = (n.sq == 0) := (beq_eq_false_iff_ne.2 hsq).symm
    refine ⟨_, (exec_ioRow s n data e he).trans (congrArg _ (nvmeArrive_judged hkind hf hgood)), ⟨rfl, rfl, rfl, rfl⟩, rfl, rfl, ?_⟩
    exact nvmeCost_ioRow (commandKept u (commandOf n false e.2.1 e.2.2)) n data e he
  · have hkind : false = (n.sq == 0) := (beq_eq_false_iff_ne.2 hsq).symm
    exact ⟨_, _, (exec_ioRow s n data e he).trans (congrArg _ (nvmeArrive_bad hkind hf hbad)), hended rfl hf⟩
  · have hkind : false = (n.sq == 0) := (beq_eq_false_iff_ne.2 hsq).symm
    exact ⟨_, _, (exec_ioRow s n data e he).trans (congrArg _ (nvmeArrive_refused hkind hf)), hended rfl hf⟩
  · rw [exec_ioRow s n data e he]
    rcases hno with hf | hsq
    · rw [nvmeArrive_none hf]
    · rw [nvmeArrive_other (by simp [hsq])]
  · exact ⟨_, _, (exec_invalidCommandOpcode_other hop).trans (congrArg _ (nvmeArrive_bad rfl hf rfl)), hended rfl hf⟩
  · obtain ⟨hon, hen, hmode, -⟩ := nvmeFetch_some hf
    obtain ⟨hmem, hregs, hrings, -⟩ := nvmeFetch_rest hf
    obtain ⟨q, hq, hhead, hcqs⟩ := nvmeFetch_head hf
    have hbit : getF s Fld.storCtlEnable 0 < 2 := getF_lt s Fld.storCtlEnable 0
    have hset : getF s Fld.storCtlEnable 0 ≠ 0 := fun h => by simp [flagF, h] at hon
    exact ⟨q, hq, hmem, hregs, hrings, hmode, by omega, hen, hhead, hcqs⟩
  · obtain ⟨ns, hns, hlba⟩ := Option.map_eq_some_iff.1 hns
    exact ioBad_tooLong hns hlba hlen
  refine ⟨?_, ?_, ?_, ?_, ?_, ?_, ?_, ?_, ?_, ?_, ?_, ?_, ?_⟩
  · intro h hmin hmax hfree hs1 hs2 hwhole hpage hcq hk
    rw [hadmin h]
    obtain ⟨-, -, hopc, rfl⟩ := h
    rw [adminStart_createSq hopc, createSq_made ⟨⟨hmin, hmax⟩, ⟨hs1, hs2⟩, hwhole, hpage⟩ hfree hcq hk]
    refine ⟨_, rfl, ?_, ?_⟩
    · rw [ctrlOf_setCtrl_same, Tab.lookup_put, if_pos rfl]
    · rw [ctrlOf_setCtrl_same]
  · intro h hmin hmax hfree hs1 hs2 hwhole hpage hvec
    rw [hadmin h]
    obtain ⟨-, -, hopc, rfl⟩ := h
    rw [adminStart_createCq hopc, createCq_made ⟨⟨hmin, hmax⟩, ⟨hs1, hs2⟩, hwhole, hpage⟩ hfree hvec]
    refine ⟨_, rfl, ?_, ?_⟩
    · rw [ctrlOf_setCtrl_same, Tab.lookup_put, if_pos rfl]
      rfl
    · rw [ctrlOf_setCtrl_same]
  · intro h hid hk hunused
    have hnone : x0.sqs.any (fun e => e.2.cq == id) = false := List.any_eq_false.2 fun e he => by simpa using hunused e he
    rw [hadmin h]
    obtain ⟨-, -, hopc, rfl⟩ := h
    rw [adminStart_deleteCq hopc, deleteCq_named hid hk, hnone]
    refine ⟨_, rfl, ?_, ?_⟩
    · rw [ctrlOf_setCtrl_same, Tab.lookup_del, if_pos rfl]
    · rw [ctrlOf_setCtrl_same]
  · intro h hid hk hq hused
    have hany : x0.sqs.any (fun e => e.2.cq == id) = true := List.any_eq_true.2 ⟨(c, q), hq, beq_iff_eq.2 hused⟩
    rw [hadmin h]
    obtain ⟨-, -, hopc, rfl⟩ := h
    rw [adminStart_deleteCq hopc, deleteCq_named hid hk, hany]
    rfl
  · intro h hno
    rw [hadmin h]
    obtain ⟨-, -, hopc, rfl⟩ := h
    rw [adminStart_deleteSq hopc, deleteSq_unknown hno]
    rfl
  · intro h hgood hfid
    rw [hadmin h]
    obtain ⟨-, -, hopc, rfl⟩ := h
    rw [adminStart_setFeatures hopc, hgood, if_neg Bool.false_ne_true, if_neg hfid]
    refine ⟨_, rfl, ?_, rfl, rfl⟩
    rw [ctrlOf_setCtrl_same, featOf, Tab.get_store_same]
  · intro h hgood hfid
    rw [hadmin h]
    obtain ⟨-, -, hopc, rfl⟩ := h
    rw [adminStart_getFeatures hopc, hgood, if_neg Bool.false_ne_true, featValue, if_neg hfid]
  · intro h hfid
    rcases h with h | h
    · rw [hadmin h]
      obtain ⟨-, -, hopc, rfl⟩ := h
      rw [adminStart_setFeatures hopc, if_pos (featBad_notOffered hfid)]
    · rw [hadmin h]
      obtain ⟨-, -, hopc, rfl⟩ := h
      rw [adminStart_getFeatures hopc, if_pos (featBad_notOffered hfid)]
  · intro h hgone
    rw [hadmin h]
    obtain ⟨-, -, hopc, rfl⟩ := h
    rw [adminStart_abort hopc, abortCmd_gone hgone]
  · intro h hid htarget
    rw [hadmin h]
    obtain ⟨-, -, hopc, rfl⟩ := h
    rw [adminStart_abort hopc, abortCmd_target hid htarget]
  · intro h hev
    rw [hadmin h]
    obtain ⟨-, -, hopc, rfl⟩ := h
    rw [adminStart_event hopc, awaitEvent_kept hev]
    exact ⟨_, rfl, by rw [ctrlOf_setCtrl_same]⟩
  · intro h hev hroom
    rw [hadmin h]
    obtain ⟨-, -, hopc, rfl⟩ := h
    rw [adminStart_event hopc, awaitEvent_waits hev, if_neg (not_le.2 hroom)]
    exact ⟨_, rfl, by rw [ctrlOf_setCtrl_same], rfl, rfl⟩
  · intro h hev hfull
    rw [hadmin h]
    obtain ⟨-, -, hopc, rfl⟩ := h
    rw [adminStart_event hopc, awaitEvent_waits hev, if_pos hfull]

end Sys2Proof.Machine
end

section
/-! PROOFS. The storage data path (14 R410 to R417): doorbells, namespace entries, where an I/O command goes and its completion, and the
statement assembled from them. -/

namespace Sys2Proof.Machine

/-! ### Doorbells (14 R413, R416) -/

section
variable {s : State} {c sq tail ep fn : Nat} {q : Sq}

theorem exec_nvmeSqDoorbell_normal (hc : ctrlFn s c = some (ep, fn)) (hmode : mode s = 1) :
    exec (.nvmeSqDoorbell c sq tail) s = .next (sqDoorbell s c sq tail) := by
  show execNvmeSqDoorbell c sq tail s = _
  simp only [execNvmeSqDoorbell, hc, gated_normal hmode]

theorem exec_nvmeSqDoorbell_closed (hc : ctrlFn s c = some (ep, fn)) (hmode : mode s ≠ 1) :
    exec (.nvmeSqDoorbell c sq tail) s = .next (bump s Fld.pwrTarpDiscardCnt 0) := by
  have hclosed : hostClosed s (.vf ep fn) = true := by simp [hostClosed, hmode]
  show execNvmeSqDoorbell c sq tail s = _
  simp only [execNvmeSqDoorbell, hc, gated, hclosed, if_true]

/-- A submission queue with a new tail: the commands it is first to cover arrive now. -/
def Sq.rung (q : Sq) (tail now : Nat) : Sq := { q with tail := tail, arrivals := q.arrivals ++ [((tail + q.size - q.tail) % q.size, now)] }

theorem sqDoorbell_rung (hen : ctrlEnabled (ctrlOf s c) = true) (hlive : ctrlLive s c = true) (hq : Tab.lookup (ctrlOf s c).sqs sq = some q)
    (htail : tail < q.size) :
    sqDoorbell s c sq tail = setCtrl s c { ctrlOf s c with sqs := Tab.put (ctrlOf s c).sqs sq (q.rung tail s.ftime) } := by
  simp only [sqDoorbell, hen, hlive, hq, if_neg (not_le.2 htail), Bool.not_true, Bool.or_self, Bool.false_eq_true, if_false]
  rfl

theorem sqDoorbell_ignored (h : ctrlEnabled (ctrlOf s c) = false ∨ ctrlLive s c = false ∨ Tab.lookup (ctrlOf s c).sqs sq = none) :
    sqDoorbell s c sq tail = s := by
  rcases h with h | h | h
  · simp only [sqDoorbell, h, Bool.not_false, Bool.true_or, if_true]
  · simp only [sqDoorbell, h, Bool.not_false, Bool.or_true, if_true]
  · simp only [sqDoorbell, h, ite_self]

theorem sqDoorbell_beyond (hq : Tab.lookup (ctrlOf s c).sqs sq = some q) (htail : q.size ≤ tail) : sqDoorbell s c sq tail = s := by
  simp only [sqDoorbell, hq, if_pos htail]
  exact ite_self s

end

/-! ### Namespace entries (14 R410, R429) -/

section
variable {s : State} {req : Requester} {c k : Nat} {v : Word}

/-- A namespace's entry with its first word written. -/
def entryStored (s : State) (i v : Nat) : State := setReg s .storNsCtl i (BitVec.ofNat 64 (v % 2 ^ 32 &&& 0x1070F))

theorem exec_namespaceValidWrite_normal (hmode : mode s = 1) : exec (.namespaceValidWrite req c k v) s = .next (nsCtlWrite s req c k v.toNat) := by
  show execNamespaceValidWrite req c k v s = _
  rw [execNamespaceValidWrite, gated_normal hmode]

theorem nsCtlWrite_denied {v : Nat} (h : storWriter s req = false ∨ (bitN v 0 = true ∧ nsFit s (v :: (nsWords s c k).drop 1) = false)) :
    nsCtlWrite s req c k v = bump s Fld.storDeniedCnt 0 := by
  simp only [nsCtlWrite]
  rw [if_pos]
  · rfl
  · rcases h with h | ⟨h, hfit⟩
    · rw [h]; rfl
    · rw [h, hfit, Bool.or_eq_true]; exact .inr rfl

theorem nsCtlWrite_stored {v : Nat} (hreq : storWriter s req = true) (hfit : bitN v 0 = false ∨ nsFit s (v :: (nsWords s c k).drop 1) = true) :
    nsCtlWrite s req c k v = if flagF s Fld.storNsCtlValid (16 * c + k) = bitN v 0 then entryStored s (16 * c + k) v
      else ctrlEvent (entryStored s (16 * c + k) v) c 0x040002 := by
  simp only [nsCtlWrite]
  rw [if_neg]
  · rfl
  · rw [hreq]
    rcases hfit with h | h
    · simp [h]
    · rw [h, Bool.not_true, Bool.and_false, Bool.or_self]
      exact Bool.false_ne_true

theorem bitN_zero (v : Nat) : bitN v 0 = decide (v % 2 = 1) := by
  rw [bitN, Nat.pow_zero, Nat.div_one]
  rfl

theorem flagF_eq_bitN {f : Fld} {i v : Nat} (hf : f.hi = f.lo) : flagF s f i = bitN v 0 ↔ getF s f i = v % 2 := by
  have hlt : getF s f i < 2 := by
    have := getF_lt s f i
    rwa [hf, Nat.sub_self] at this
  rw [flagF, bitN_zero, Bool.eq_iff_iff, bne_iff_ne, decide_eq_true_eq]
  omega

/-- The fields of an entry's first word, once it is stored. -/
theorem getF_entryStored {i v hi lo : Nat} (hmask : fieldOf 0x1070F hi lo = 2 ^ (hi - lo + 1) - 1) (hhi : hi < 32) (hlo : lo ≤ hi) :
    getF (entryStored s i v) ⟨.storNsCtl, hi, lo⟩ i = v / 2 ^ lo % 2 ^ (hi - lo + 1) := by
  have hread : (getReg (entryStored s i v) .storNsCtl i).toNat = v % 2 ^ 32 &&& 0x1070F := by
    rw [entryStored, getReg_setReg, if_pos ⟨rfl, rfl⟩, BitVec.toNat_ofNat]
    exact Nat.mod_eq_of_lt (lt_of_le_of_lt Nat.and_le_right (by decide))
  rw [getF, hread]
  refine Nat.eq_of_testBit_eq fun j => ?_
  have hbit := congrArg (fun x => x.testBit j) hmask
  simp only [fieldOf, Nat.testBit_mod_two_pow, Nat.testBit_div_two_pow, Nat.testBit_two_pow_sub_one] at hbit
  simp only [fieldOf, Nat.testBit_mod_two_pow, Nat.testBit_div_two_pow, Nat.testBit_and]
  by_cases hj : j < hi - lo + 1
  · simp only [hj, decide_true, Bool.true_and] at hbit ⊢
    rw [Nat.add_comm] at hbit
    have h32 : lo + j < 32 := by omega
    simp [hbit, h32, Nat.add_comm]
  · simp [hj]

theorem getReg_entryStored_other {i n j : Nat} {r : Reg} (h : r ≠ .storNsCtl ∨ j ≠ i) : getReg (entryStored s i n) r j = getReg s r j := by
  rw [entryStored, getReg_setReg, if_neg (by tauto)]

theorem nsFit_plain {ns : List Nat} (hlocal : nsRemote ns = false) (hplain : nsEncrypts ns = false) : nsFit s ns = true ↔
    ∃ lbas, Tab.lookup s.stor.ssdNs (nsPort ns * 2 ^ 32 + ns.getD 1 0) = some (nsBit ns 3, lbas) ∧ nsBase ns + nsLbas ns ≤ lbas := by
  have hkey : ioKey s (getF s Fld.storCtlBay 0) ns = .ok none := by rw [ioKey, hplain]; rfl
  simp only [nsFit, hlocal, hkey, Bool.false_eq_true, if_false, Bool.and_true]
  cases hns : Tab.lookup s.stor.ssdNs (nsPort ns * 2 ^ 32 + ns.getD 1 0) with
  | none => simp
  | some e =>
    obtain ⟨big, lbas⟩ := e
    simp only [Bool.and_eq_true, beq_iff_eq, decide_eq_true_eq, Option.some.injEq, Prod.mk.injEq]
    constructor
    · rintro ⟨hbig, hfit⟩
      exact ⟨lbas, ⟨hbig, rfl⟩, hfit⟩
    · rintro ⟨l, ⟨hbig, rfl⟩, hfit⟩
      exact ⟨hbig, hfit⟩

end

/-! ### Asynchronous events (14 R410) -/

section
variable {s : State} {c ev : Nat}

theorem ctrlEvent_kept (h : (ctrlOf s c).aers = []) : ev ∈ (ctrlOf (ctrlEvent s c ev) c).events ∧ (ctrlEvent s c ev).regs = s.regs ∧
    (ctrlEvent s c ev).mem = s.mem := by
  simp only [ctrlEvent, h]
  split
  next hold => exact ⟨List.contains_iff_mem.1 hold, rfl, rfl⟩
  next hnew =>
    refine ⟨?_, rfl, rfl⟩
    rw [ctrlOf_setCtrl_same]
    exact List.mem_append_right _ (List.mem_singleton.2 rfl)

theorem ctrlEvent_delivered {cid op : Nat} {rest : List Nat} (h : (ctrlOf s c).aers = cid :: rest) (hop : aerOp s c cid = some op) :
    ctrlEvent s c ev = finishOp (setCtrl s c { ctrlOf s c with aers := rest }) op 0 ev 0 := by
  have hop' : aerOp (setCtrl s c { ctrlOf s c with aers := rest }) c cid = some op := hop
  simp only [ctrlEvent, h, hop']
  rfl

end

/-! ### Where an I/O command goes (14 R410 to R412, R417) -/

section
variable {s : State} {op bay lbas : Nat} {big : Bool} {b : Backend} {ns : List Nat} {key : Option (List Byte)}

/-- A state whose record of a command holds the namespace's entry. -/
def entryRead (s : State) (op : Nat) (b : Backend) (ns : List Nat) : State :=
  { s with stor := { s.stor with cmds := Tab.put s.stor.cmds op { b with ns := ns } } }

theorem lookup_entryRead : Tab.lookup (entryRead s op b ns).stor.cmds op = some { b with ns := ns } := by
  rw [entryRead, Tab.lookup_put, if_pos rfl]

theorem ioStart_bad {st : Nat} (h : ioBad s b = some st) : ioStart s op bay b = nvmeFail s op st := by
  simp only [ioStart, h]

section
variable (hgood : ioBad s b = none) (hns : nsOf s b.cmd.ctrl b.cmd.nsid = some ns)
include hgood hns

theorem ioStart_noKey {st : Nat} (hkey : ioKey s bay ns = .error st) : ioStart s op bay b = nvmeFail s op st := by
  simp only [ioStart, hgood, hns, hkey]

theorem ioStart_local (hkey : ioKey s bay ns = .ok key) (hlocal : nsRemote ns = false) :
    ioStart s op bay b = ioLocal (entryRead s op b ns) op { b with ns := ns } ns (ioData { b with ns := ns } ns key) := by
  simp only [ioStart, hgood, hns, hkey, hlocal, Bool.false_eq_true, if_false]
  rfl

end

theorem ioKey_plain (h : nsEncrypts ns = false) : ioKey s bay ns = .ok none := by
  rw [ioKey, h]
  rfl

theorem ioKey_missing (h : nsEncrypts ns = true) (hk : keyOfHandle s (nsKey ns) = none) : ioKey s bay ns = .error 0xA0 := by
  rw [ioKey, h, hk]
  rfl

theorem ioKey_found {kb : Key} (h : nsEncrypts ns = true) (hk : keyOfHandle s (nsKey ns) = some kb) :
    ioKey s bay ns = if kb.kind = 1 ∧ keyPermits kb bay = true then .ok (some kb.bytes) else .error 0xA1 := by
  rw [ioKey, h, hk]
  rfl

theorem ssdLba_down {port nsid : Nat} (h : (Tab.get {} s.host.rootPorts port).up = false) : ssdLba s port nsid = .error 0xA5 := by
  rw [ssdLba, h]
  rfl

theorem ssdLba_up {port nsid : Nat} (hup : (Tab.get {} s.host.rootPorts port).up = true)
    (hns : Tab.lookup s.stor.ssdNs (port * 2 ^ 32 + nsid) = some (big, lbas)) : ssdLba s port nsid = .ok (if big then 4096 else 512) := by
  simp only [ssdLba, hup, hns, Bool.not_true, Bool.false_eq_true, if_false]

theorem ioLocal_down {data : List Byte} (h : (Tab.get {} s.host.rootPorts (nsPort ns)).up = false) : ioLocal s op b ns data = backendFail s op := by
  rw [ioLocal, ssdLba_down h]
  exact if_pos rfl

theorem ioLocal_moves {data : List Byte} (hup : (Tab.get {} s.host.rootPorts (nsPort ns)).up = true)
    (hns : Tab.lookup s.stor.ssdNs (nsPort ns * 2 ^ 32 + ns.getD 1 0) = some (big, lbas)) (hmoves : movesLbas b.opc = true) :
    ioLocal s op b ns data = emit s (.ssd (nsPort ns) (ns.getD 1 0) (if b.opc = 8 then 1 else b.opc) (nsBase ns + cmdSlba b.cmd) (b.cmd.cdw12 % 65536 + 1) data) := by
  simp only [ioLocal, ssdLba_up hup hns, hmoves, if_true]
  rfl

theorem ioData_withNs : ioData { b with ns := ns } ns key = ioData b ns key := rfl

theorem ioStart_moves (hgood : ioBad s b = none) (hns : nsOf s b.cmd.ctrl b.cmd.nsid = some ns) (hkey : ioKey s bay ns = .ok key)
    (hlocal : nsRemote ns = false) (hup : (Tab.get {} s.host.rootPorts (nsPort ns)).up = true)
    (hssd : Tab.lookup s.stor.ssdNs (nsPort ns * 2 ^ 32 + ns.getD 1 0) = some (big, lbas)) (hmoves : movesLbas b.opc = true) :
    ioStart s op bay b = emit (entryRead s op b ns) (.ssd (nsPort ns) (ns.getD 1 0) (if b.opc = 8 then 1 else b.opc) (nsBase ns + cmdSlba b.cmd)
      (b.cmd.cdw12 % 65536 + 1) (ioData b ns key)) := by
  rw [ioStart_local hgood hns hkey hlocal, ioData_withNs]
  exact ioLocal_moves (b := { b with ns := ns }) hup hssd hmoves

theorem sized_whole {bs : List Byte} {n : Nat} (h : bs.length = n) : sized bs n = bs := by
  rw [sized, ← h, List.take_length, Nat.sub_self, List.replicate_zero, List.append_nil]

theorem ioData_read (h : b.opc = 2) : ioData b ns key = [] := by
  simp only [ioData, h]
  rfl

theorem ioData_write (h : b.opc = 1) (hlen : b.data.length = (b.cmd.cdw12 % 65536 + 1) * nsLba ns) : ioData b ns none = b.data := by
  simp only [ioData, h]
  rw [if_pos (show 1 = opcWrite from rfl), cmdNlb, sized_whole hlen]
  rfl

theorem ioData_zeroes {bytes : List Byte} (h : b.opc = 8) : ioData b ns (some bytes) =
    xtsUnits true bytes (nsLba ns) (cmdSlba b.cmd) (List.replicate ((b.cmd.cdw12 % 65536 + 1) * nsLba ns) 0) := by
  simp only [ioData, h]
  rfl

theorem backendFail_running (hb : Tab.lookup s.stor.cmds op = some b) (hrun : b.ended = false) :
    backendFail s op = backendForget (finishOp (bump s Fld.storBackendErrCnt 0) op 0xA5 0 0) op := by
  simp only [backendFail, hb, hrun, Bool.false_eq_true, if_false]

end

/-! ### Completions of back-ends (14 R411 to R415) -/

section
variable {s : State} {op sct sc : Nat} {dnr : Bool} {data : List Byte} {b : Backend}

theorem exec_backendCompletion_unknown (h : Tab.lookup s.stor.cmds op = none) : exec (.backendCompletion op sct sc dnr data) s = .next s := by
  show execBackendCompletion op sct sc dnr data s = _
  simp only [execBackendCompletion, h]

section
variable (hb : Tab.lookup s.stor.cmds op = some b)
include hb

theorem exec_backendCompletion_unsent (h : b.ns = []) : exec (.backendCompletion op sct sc dnr data) s = .next s := by
  show execBackendCompletion op sct sc dnr data s = _
  simp only [execBackendCompletion, hb, h, List.isEmpty_nil, true_or, if_true]

theorem exec_backendCompletion_local (h : b.ns ≠ []) (hlocal : nsRemote b.ns = false) :
    exec (.backendCompletion op sct sc dnr data) s = .next (ioEnd s op b sct sc dnr data) := by
  have hsome : b.ns.isEmpty = false := by rwa [← Bool.not_eq_true, List.isEmpty_iff]
  show execBackendCompletion op sct sc dnr data s = _
  simp only [execBackendCompletion, hb, hsome, hlocal, Bool.false_eq_true, false_and, or_self, if_false]

end

theorem ioEnd_ended (h : b.ended = true) : ioEnd s op b sct sc dnr data = backendForget s op := by
  rw [ioEnd, if_pos h]

section
variable (hrun : b.ended = false)
include hrun

theorem ioEnd_reported : ioEnd s op b 2 sc dnr data = nvmeFail (bump s Fld.storBackendErrCnt 0) op (0x1200 + sc + (if dnr then 0x800 else 0)) := by
  rw [ioEnd, hrun, if_neg Bool.false_ne_true, if_pos rfl, ioError]

theorem ioEnd_failed (htype : sct ≠ 2) (hbad : sct ≠ 0 ∨ sc ≠ 0) :
    ioEnd s op b sct sc dnr data = nvmeFail (bump s Fld.storBackendErrCnt 0) op 0xA6 := by
  rw [ioEnd, hrun, if_neg Bool.false_ne_true, if_neg htype, if_pos hbad, ioError]

/-- A command that ends well counts, with its bytes. -/
def ioCounted (s : State) (b : Backend) : State :=
  bumpN (bump s Fld.storCmdCnt 0) Fld.storByteCnt 0 (if movesLbas b.opc then cmdNlb b.cmd * nsLba b.ns else 0)

theorem ioEnd_done (hopc : b.opc ≠ 2) : ioEnd s op b 0 0 dnr data = finishOp (ioCounted s b) op 0 0 0 := by
  rw [ioEnd, hrun, if_neg Bool.false_ne_true, if_neg (by decide), if_neg (by decide), if_neg (show ¬ b.opc = opcRead from hopc), ioDone]
  rfl

theorem ioEnd_read {o : Op} (hopc : b.opc = 2) (ho : opOf s op = some o) (hplain : nsEncrypts b.ns = false) : ioEnd s op b 0 0 dnr data =
    (prpWrite s b.cmd (sized data ((b.cmd.cdw12 % 65536 + 1) * nsLba b.ns))).elim (nvmeFail s op stHostError) (fun u => finishOp (ioCounted u b) op 0 0 0) := by
  have hdone (u : State) : ioDone u op b = finishOp (ioCounted u b) op 0 0 0 := rfl
  rw [ioEnd, hrun, if_neg Bool.false_ne_true, if_neg (by decide), if_neg (by decide), if_pos (show b.opc = opcRead from hopc), ho, ioKey_plain hplain]
  simp only [ioCrypt, cmdNlb, hdone]
  cases prpWrite s b.cmd (sized data ((b.cmd.cdw12 % 65536 + 1) * nsLba b.ns)) with
  | none => rfl
  | some u => rfl

end

theorem getF_ioCounted_cmds : getF (ioCounted s b) Fld.storCmdCnt 0 = (getF s Fld.storCmdCnt 0 + 1) % 2 ^ 64 := by
  rw [ioCounted, bumpN, getF_setF_of_apart _ (by decide), getF_bump_same _ _ _ ⟨by decide, by decide⟩]
  rfl

theorem getF_ioCounted_bytes : getF (ioCounted s b) Fld.storByteCnt 0 =
    (getF s Fld.storByteCnt 0 + if movesLbas b.opc then cmdNlb b.cmd * nsLba b.ns else 0) % 2 ^ 64 := by
  rw [ioCounted, bumpN, getF_setF_same _ _ _ _ ⟨by decide, by decide⟩, getF_bump_of_apart _ (by decide)]
  rfl

end

/-- The fields of an entry of a completion queue. -/
theorem cqeBytes_fields (dw0 dw1 head sq cid st : Nat) (phase : Bool) :
    leAt (cqeBytes dw0 dw1 head sq cid st phase) 0 4 = dw0 % 2 ^ 32 ∧ leAt (cqeBytes dw0 dw1 head sq cid st phase) 4 4 = dw1 % 2 ^ 32 ∧
      leAt (cqeBytes dw0 dw1 head sq cid st phase) 8 2 = head % 2 ^ 16 ∧ leAt (cqeBytes dw0 dw1 head sq cid st phase) 10 2 = sq % 2 ^ 16 ∧
      leAt (cqeBytes dw0 dw1 head sq cid st phase) 12 2 = cid % 2 ^ 16 ∧
      leAt (cqeBytes dw0 dw1 head sq cid st phase) 14 2 = (st * 2 + if phase then 1 else 0) % 2 ^ 16 := by
  simp (disch := simp) only [cqeBytes, leAt_append_left, leAt_append_right, leBytes_length, Nat.sub_self, leAt_leBytes,
    Nat.reduceMul, List.length_append, Nat.reduceAdd, and_self]

/-- Settles O53: doorbells, namespace entries, where an I/O command goes, and the completions of its back-end. The places of fields are log 91,
encrypted Write Zeroes log 150, and a key of the other kind log 94. -/
theorem storageDataPath : Obligations.StorageDataPath := by
  unfold Obligations.StorageDataPath
  intro s u req c sq tail ep fn k op sct sc st bay lbas big dnr v q b o data kb ns cid rest x i pf bytes
  refine ⟨fun hc hmode => ?_, fun hc hmode => exec_nvmeSqDoorbell_closed hc hmode, ?_, ?_, ?_, fun h => ⟨_, rfl, ctrlEvent_kept h⟩,
    fun h hop => ⟨_, ctrlEvent_delivered h hop, by rw [ctrlOf_setCtrl_same], rfl⟩, nsFit_plain, ?_, ?_, backendFail_running, ioStart_bad,
    exec_backendCompletion_unknown, exec_backendCompletion_unsent, ?_, cqeBytes_fields 5 6 7 8 9 st true⟩
  · have hexec := exec_nvmeSqDoorbell_normal (sq := sq) (tail := tail) hc hmode
    refine ⟨fun hen hlive hq htail => ?_, fun hno => ?_, fun hq htail => ?_⟩
    · rw [hexec, sqDoorbell_rung hen hlive hq htail]
      refine ⟨_, rfl, ?_, fun y hy => ?_, fun y hy => ctrlOf_setCtrl_other hy, rfl, rfl, rfl, rfl⟩
      · rw [ctrlOf_setCtrl_same, Tab.lookup_put, if_pos rfl]
        rfl
      · rw [ctrlOf_setCtrl_same, Tab.lookup_put, if_neg hy]
    · rw [hexec, sqDoorbell_ignored hno]
    · rw [hexec, sqDoorbell_beyond hq htail]
  · intro _ _ hmode hreq hfit
    have hwriter : storWriter s req = true := by
      rw [storWriter, Bool.or_eq_true, beq_iff_eq]
      exact hreq
    have hfit' : bitN v.toNat 0 = false ∨ nsFit s (v.toNat :: (nsWords s c k).drop 1) = true :=
      hfit.imp_left fun h => by rw [bitN_zero, h]; rfl
    have hexec := (exec_namespaceValidWrite_normal (req := req) (c := c) (k := k) (v := v) hmode).trans
      (congrArg _ (nsCtlWrite_stored hwriter hfit'))
    have hvalid := flagF_eq_bitN (s := s) (f := Fld.storNsCtlValid) (i := i) (v := v.toNat) rfl
    refine ⟨entryStored s i v.toNat, ?_, getF_entryStored rfl (by decide) (by decide), getF_entryStored rfl (by decide) (by decide),
      getF_entryStored rfl (by decide) (by decide), getF_entryStored rfl (by decide) (by decide), getF_entryStored rfl (by decide) (by decide),
      fun r j h => getReg_entryStored_other h, rfl, rfl, rfl, fun hsame => ?_, fun hother => ?_⟩
    · rw [getF_entryStored rfl (by decide) (by decide), Nat.pow_zero, Nat.div_one]
      rfl
    · rw [hexec, if_pos (hvalid.2 hsame)]
    · rw [hexec, if_neg (mt hvalid.1 hother)]
  · intro hpf hodd hbad
    obtain ⟨hmode, -⟩ := hpf
    have hset : bitN v.toNat 0 = true := by rw [bitN_zero, hodd]; rfl
    rw [exec_namespaceValidWrite_normal hmode, nsCtlWrite_denied (.inr ⟨hset, hbad⟩)]
  · intro hmode hpf hbay
    have hwriter : storWriter s req = false := by simp [storWriter, hpf, hbay]
    rw [exec_namespaceValidWrite_normal hmode, nsCtlWrite_denied (.inl hwriter)]
  · intro hgood hns hlocal hup hssd
    refine ⟨fun hplain hopc => ?_, fun hplain hopc hlen => ?_, fun henc hkb hkind hpermit hopc => ?_⟩
    · have hgo := ioStart_moves (op := op) hgood hns (ioKey_plain (bay := bay) hplain) hlocal hup hssd (by rw [hopc]; rfl)
      rw [ioData_read hopc, if_neg (by rw [hopc]; decide), hopc] at hgo
      exact ⟨_, hgo, rfl, lookup_entryRead, rfl, rfl, rfl⟩
    · have hgo := ioStart_moves (op := op) hgood hns (ioKey_plain (bay := bay) hplain) hlocal hup hssd (by rw [hopc]; rfl)
      rw [ioData_write hopc hlen, if_neg (by rw [hopc]; decide), hopc] at hgo
      exact ⟨_, hgo, rfl, rfl⟩
    · have hgo := ioStart_moves (op := op) hgood hns ((ioKey_found (bay := bay) henc hkb).trans (if_pos ⟨hkind, hpermit⟩)) hlocal hup hssd
        (by rw [hopc]; rfl)
      rw [ioData_zeroes hopc, if_pos hopc] at hgo
      exact ⟨_, hgo, rfl, rfl⟩
  · intro hgood hns
    refine ⟨fun henc hkb => ioStart_noKey hgood hns (ioKey_missing henc hkb), fun henc hkb hbad => ?_, fun hplain hlocal hdown => ?_⟩
    · have hnot : ¬ (kb.kind = 1 ∧ keyPermits kb bay = true) := by
        rintro ⟨hkind, hpermit⟩
        rcases hbad with h | h
        · exact h hkind
        · rw [h] at hpermit
          exact Bool.false_ne_true hpermit
      exact ioStart_noKey hgood hns ((ioKey_found henc hkb).trans (if_neg hnot))
    · exact ⟨_, (ioStart_local hgood hns (ioKey_plain hplain) hlocal).trans (ioLocal_down hdown), lookup_entryRead, rfl, rfl, rfl⟩
  · intro hb hsent hlocal
    refine ⟨fun hended => ?_, fun hrun htype => ?_, fun hrun htype hbad => ?_, fun hrun hopc => ?_, fun hrun hopc ho hplain => ?_⟩
    · rw [exec_backendCompletion_local hb hsent hlocal, ioEnd_ended hended]
    · rw [exec_backendCompletion_local hb hsent hlocal, htype, ioEnd_reported hrun]
    · rw [exec_backendCompletion_local hb hsent hlocal, ioEnd_failed hrun htype hbad]
    · rw [exec_backendCompletion_local hb hsent hlocal, ioEnd_done hrun hopc]
      exact ⟨_, rfl, getF_ioCounted_cmds, getF_ioCounted_bytes, rfl, rfl, rfl⟩
    · rw [exec_backendCompletion_local hb hsent hlocal, ioEnd_read hrun hopc ho hplain]
      refine ⟨fun hw => by rw [hw]; rfl, fun hw => ?_⟩
      rw [hw]
      exact ⟨_, rfl, getF_ioCounted_cmds, rfl, rfl⟩

end Sys2Proof.Machine
end

section
/-! PROOFS. Security (14 R421 to R427): keys, the rollback floor, the SPDM responder and IDE streams, and the statement assembled from them. -/

namespace Sys2Proof.Machine

/-! ### Keys and the rollback floor (14 R421, R426) -/

section
variable {s : State} {n h i : Nat} {o : Op} {k : Key}

@[simp] theorem keyAt_setKey_same : keyAt (setKey s i k) i = k := Tab.get_store_same _ _ _ _

theorem keyAt_setKey_other {j : Nat} (hj : j ≠ i) : keyAt (setKey s i k) j = keyAt s j := Tab.get_store_ne _ _ _ hj

theorem keyOfHandle_eq (s : State) (h : Nat) : keyOfHandle s h =
    if h < 2 ^ 20 ∧ (keyAt s (h % 4096)).kind ≠ 0 ∧ (keyAt s (h % 4096)).gen = h / 4096 then some (keyAt s (h % 4096)) else none := rfl

theorem keyOfHandle_some (hk : keyOfHandle s h = some k) : k.kind ≠ 0 ∧ k.gen = h / 4096 ∧ h < 2 ^ 20 ∧ k = keyAt s (h % 4096) := by
  rw [keyOfHandle_eq] at hk
  split at hk
  next hgood =>
    obtain ⟨hh, hkind, hgen⟩ := hgood
    obtain rfl := Option.some.inj hk
    exact ⟨hkind, hgen, hh, rfl⟩
  · cases hk

theorem keyOfHandle_erased (gen : Nat) : keyOfHandle (setKey s (h % 4096) { gen := gen }) h = none := by
  rw [keyOfHandle_eq, keyAt_setKey_same, if_neg]
  rintro ⟨-, hkind, -⟩
  exact hkind rfl

theorem exec_keyDestroyDone_other (h : running s n 0x0701 = none) : exec (.keyDestroyDone n) s = .next s := by
  show execKeyDestroyDone n s = _
  simp only [execKeyDestroyDone, h]

theorem exec_keyDestroyDone_noKey (ho : running s n 0x0701 = some o) (hk : keyOfHandle s (leAt o.body 0 4) = none) :
    exec (.keyDestroyDone n) s = .next (finishOp s n 0xA0 0 0) := by
  show execKeyDestroyDone n s = _
  simp only [execKeyDestroyDone, ho, hk]

theorem exec_keyDestroyDone_key (ho : running s n 0x0701 = some o) (hh : leAt o.body 0 4 = h) (hk : keyOfHandle s h = some k) :
    exec (.keyDestroyDone n) s = .next (if keyUsed s h then s else finishOp (setKey s (h % 4096) { gen := k.gen }) n 0 0 0) := by
  show execKeyDestroyDone n s = _
  simp only [execKeyDestroyDone, ho, hh, hk]
  rfl

theorem exec_floorStepBlown_idle (h : s.stor.blowing = none) : exec .floorStepBlown s = .next s := by
  show execFloorStepBlown s = _
  simp only [execFloorStepBlown, h]

/-- The floor's fuses with one step more blown, towards a target. -/
def floorRaised (s : State) (t n : Nat) : State :=
  { s with stor := { s.stor with fuseFloor := s.stor.fuseFloor + 1, blowing := if t ≤ s.stor.fuseFloor + 1 then none else some (t, n) } }

theorem exec_floorStepBlown_raised {t n : Nat} (h : s.stor.blowing = some (t, n)) (hops : ∀ e, e ∈ s.rings.ops → e.2.opcode ≠ 0x0703) :
    exec .floorStepBlown s = .next (floorRaised s t n) := by
  have hnone (f : Nat) : s.rings.ops.filter (fun e => e.2.opcode == 0x0703 && decide (e.2.st = .committed ∧ e.2.aux ≤ f)) = [] :=
    List.filter_eq_nil_iff.2 fun e he => by simp [hops e he]
  show execFloorStepBlown s = _
  simp only [execFloorStepBlown, h, hnone, List.foldl_nil]
  rfl

end

/-! ### Requests of the SPDM responder (14 R422, Table 14.7) -/

section
variable {s : State} {ep : Nat} {r : SpdmReq} {k : State → State}

@[simp] theorem spdmOf_setSpdm_same (x : Spdm) : spdmOf (setSpdm s ep x) ep = x := Tab.get_store_same _ _ _ _

theorem spdmError_eq (s : State) (ep e : Nat) : spdmError s ep e =
    { s with out := .spdm ep (leBytes 1 0x12 ++ leBytes 1 0x7F ++ leBytes 1 e ++ leBytes 1 0) :: s.out } := by
  rw [spdmError, spdmSend, List.append_nil]
  rfl

/-- An endpoint's link is up. -/
def LinkIsUp (s : State) (ep : Nat) : Prop := getF s Fld.identEpLinkLinkUp ep = 1

/-- A request that the responder handles: its link is up, and the session that carries it, if one does, exists. -/
def Handled (s : State) (ep : Nat) (r : SpdmReq) : Prop :=
  LinkIsUp s ep ∧ (r.session = none ∨ ∃ id, r.session = some id ∧ ∃ y, y ∈ (spdmOf s ep).sessions ∧ y.id = id)

theorem spdmRow_down (h : ¬ LinkIsUp s ep) : spdmRow s ep r k = .next s := by
  rw [spdmRow, if_pos (by rw [linkUp_false h]; rfl)]

theorem spdmRow_noSession {id : Nat} (hup : LinkIsUp s ep) (hid : r.session = some id) (hnone : ∀ y, y ∈ (spdmOf s ep).sessions → y.id ≠ id) :
    spdmRow s ep r k = .next (spdmError s ep 0x04) := by
  have hany : (spdmOf s ep).sessions.any (fun y => y.id == id) = false := List.any_eq_false.2 fun y hy => by simpa using hnone y hy
  simp only [spdmRow, flagF_eq_true hup, hid, hany, Bool.not_true, Bool.false_eq_true, if_false]

theorem spdmRow_handled (h : Handled s ep r) : spdmRow s ep r k = .next (k s) := by
  obtain ⟨hup, hid | ⟨id, hid, y, hy, hyid⟩⟩ := h
  · simp only [spdmRow, flagF_eq_true hup, hid, Bool.not_true, Bool.false_eq_true, if_false]
  · have hany : (spdmOf s ep).sessions.any (fun y => y.id == id) = true := List.any_eq_true.2 ⟨y, hy, beq_iff_eq.2 hyid⟩
    simp only [spdmRow, flagF_eq_true hup, hid, hany, Bool.not_true, Bool.false_eq_true, if_false, if_true]

theorem negotiated_early (hstep : (spdmOf s ep).step ≠ 3) (hid : r.session = none) : negotiated s ep r k = spdmError s ep 0x04 := by
  rw [negotiated, if_neg (by simp [hstep, hid])]

theorem negotiated_done (hstep : (spdmOf s ep).step = 3) : negotiated s ep r k = k s := if_pos (.inl hstep)

theorem inSession_outside {k : Nat → State → State} (h : r.session = none) : inSession s ep r k = spdmError s ep 0x04 := by
  simp only [inSession, h]

theorem inSession_some {k : Nat → State → State} {id : Nat} (h : r.session = some id) :
    inSession s ep r k = if sessionUp s ep id then k id s else spdmError s ep 0x04 := by
  simp only [inSession, h]

/-- The rows of the SPDM requests, and of those that need the algorithms negotiated. -/
noncomputable def spdmRows (ep : Nat) (r : SpdmReq) : List Instr :=
  [.getVersion ep r, .getCapabilities ep r, .negotiateAlgorithms ep r, .getDigests ep r, .getCertificate ep r, .challenge ep r, .getMeasurements ep r, .keyExchange ep r, .finish ep r, .heartbeat ep r, .keyUpdate ep r, .endSession ep r]
noncomputable def negotiatedRows (ep : Nat) (r : SpdmReq) : List Instr :=
  [.getDigests ep r, .getCertificate ep r, .challenge ep r, .getMeasurements ep r, .keyExchange ep r]

theorem exec_spdmRow (s : State) (ep : Nat) (r : SpdmReq) : ∀ c, c ∈ spdmRows ep r → ∃ k, exec c s = spdmRow s ep r k := by
  simp only [spdmRows, List.forall_mem_cons]
  exact ⟨⟨_, show execGetVersion ep r s = _ from rfl⟩, ⟨_, show execGetCapabilities ep r s = _ from rfl⟩, ⟨_, show execNegotiateAlgorithms ep r s = _ from rfl⟩,
    ⟨_, show execGetDigests ep r s = _ from rfl⟩, ⟨_, show execGetCertificate ep r s = _ from rfl⟩, ⟨_, show execChallenge ep r s = _ from rfl⟩,
    ⟨_, show execGetMeasurements ep r s = _ from rfl⟩, ⟨_, show execKeyExchange ep r s = _ from rfl⟩, ⟨_, show execFinish ep r s = _ from rfl⟩,
    ⟨_, show execHeartbeat ep r s = _ from rfl⟩, ⟨_, show execKeyUpdate ep r s = _ from rfl⟩, ⟨_, show execEndSession ep r s = _ from rfl⟩, fun _ h => absurd h List.not_mem_nil⟩

theorem exec_negotiatedRow (s : State) (ep : Nat) (r : SpdmReq) :
    ∀ c, c ∈ negotiatedRows ep r → ∃ k, exec c s = spdmRow s ep r (fun t => negotiated t ep r k) := by
  simp only [negotiatedRows, List.forall_mem_cons]
  exact ⟨⟨_, rfl⟩, ⟨_, rfl⟩, ⟨_, rfl⟩, ⟨_, rfl⟩, ⟨_, rfl⟩, fun _ h => absurd h List.not_mem_nil⟩

end

/-! ### Responses -/

/-- A response leaves all but what it sends, an endpoint's responder and the free values it draws. -/
def Spared (s u : State) : Prop := u.regs = s.regs ∧ u.mem = s.mem ∧ u.rings = s.rings ∧ u.stor.ide = s.stor.ide ∧ u.stor.keys = s.stor.keys

/-- A response of SPDM 1.2 goes out. -/
def Said (s u : State) (ep code p1 p2 : Nat) : Prop :=
  ∃ b, u.out = .spdm ep (leBytes 1 0x12 ++ leBytes 1 code ++ leBytes 1 p1 ++ leBytes 1 p2 ++ b) :: s.out

section
variable {s : State} {ep : Nat} {x : Spdm} (code p1 p2 : Nat) (body : List Byte)

/-- A response by a responder that a request has changed, after some free values. -/
theorem answered_changed (n : Nat) (bs : List Byte) :
    Said s (spdmSend (hostDraw (setSpdm s ep x) n).2 ep 0x12 code p1 p2 bs) ep code p1 p2 ∧
      spdmOf (spdmSend (hostDraw (setSpdm s ep x) n).2 ep 0x12 code p1 p2 bs) ep = x ∧
      Spared s (spdmSend (hostDraw (setSpdm s ep x) n).2 ep 0x12 code p1 p2 bs) :=
  ⟨⟨bs, rfl⟩, spdmOf_setSpdm_same x, rfl, rfl, rfl, rfl, rfl⟩

theorem answered_set : Said s (spdmSend (setSpdm s ep x) ep 0x12 code p1 p2 body) ep code p1 p2 ∧
    spdmOf (spdmSend (setSpdm s ep x) ep 0x12 code p1 p2 body) ep = x ∧ Spared s (spdmSend (setSpdm s ep x) ep 0x12 code p1 p2 body) :=
  ⟨⟨body, rfl⟩, spdmOf_setSpdm_same x, rfl, rfl, rfl, rfl, rfl⟩

theorem answered_free (n : Nat) : Said s (spdmFree s ep code p1 p2 body n) ep code p1 p2 ∧ spdmOf (spdmFree s ep code p1 p2 body n) ep = spdmOf s ep ∧
    Spared s (spdmFree s ep code p1 p2 body n) :=
  ⟨⟨_, rfl⟩, rfl, rfl, rfl, rfl, rfl, rfl⟩

theorem answered_plain : Said s (spdmSend s ep 0x12 code p1 p2 body) ep code p1 p2 ∧ spdmOf (spdmSend s ep 0x12 code p1 p2 body) ep = spdmOf s ep ∧
    Spared s (spdmSend s ep 0x12 code p1 p2 body) :=
  ⟨⟨body, rfl⟩, rfl, rfl, rfl, rfl, rfl, rfl⟩

theorem answered_drawn (n : Nat) : Said s (spdmSend (hostDraw s n).2 ep 0x12 code p1 p2 body) ep code p1 p2 ∧
    spdmOf (spdmSend (hostDraw s n).2 ep 0x12 code p1 p2 body) ep = spdmOf s ep ∧ Spared s (spdmSend (hostDraw s n).2 ep 0x12 code p1 p2 body) :=
  ⟨⟨body, rfl⟩, rfl, rfl, rfl, rfl, rfl, rfl⟩

end

/-- Only free values are drawn from one state to another. -/
def DrawnOnly (s u : State) : Prop := ∃ c, u = { s with freeCtr := c }

theorem drawnOnly_hostDraw (s : State) (n : Nat) : DrawnOnly s (hostDraw s n).2 := ⟨_, rfl⟩

theorem DrawnOnly.trans {s u v : State} (h : DrawnOnly s u) (h' : DrawnOnly u v) : DrawnOnly s v := by
  obtain ⟨c, rfl⟩ := h
  obtain ⟨c', rfl⟩ := h'
  exact ⟨c', rfl⟩

theorem drawnOnly_measurement (s : State) (i : Nat) : DrawnOnly s (measurement s i).2 := by
  unfold measurement
  split
  · exact ⟨s.freeCtr, rfl⟩
  · exact ⟨s.freeCtr, rfl⟩
  · exact ⟨s.freeCtr, rfl⟩
  · exact drawnOnly_hostDraw s 48

theorem drawnOnly_measurementBlocks (is : List Nat) : ∀ s, DrawnOnly s (measurementBlocks s is).2 := by
  induction is with
  | nil => exact fun s => ⟨s.freeCtr, rfl⟩
  | cons i is ih => exact fun s => (drawnOnly_measurement s i).trans (ih _)

theorem DrawnOnly.answered {s u : State} (h : DrawnOnly s u) (ep code p1 p2 : Nat) (body : List Byte) :
    Said s (spdmSend u ep 0x12 code p1 p2 body) ep code p1 p2 ∧ spdmOf (spdmSend u ep 0x12 code p1 p2 body) ep = spdmOf s ep ∧
      Spared s (spdmSend u ep 0x12 code p1 p2 body) := by
  obtain ⟨c, rfl⟩ := h
  exact ⟨⟨body, rfl⟩, rfl, rfl, rfl, rfl, rfl, rfl⟩

/-! ### Sessions -/

/-- Of five numbers one is not in use by fewer than five sessions. -/
theorem freeSession_free {x : Spdm} (h : x.sessions.length < 5) (req : Nat) : ∀ y, y ∈ x.sessions → y.id ≠ req + freeSession x req * 65536 := by
  cases hfind : (List.range 5).find? (fun k => !x.sessions.any (fun y => y.id == req + k * 65536)) with
  | some k =>
    have hk := List.find?_some hfind
    have hfree : freeSession x req = k := by rw [freeSession, hfind]; rfl
    rw [hfree]
    intro y hy hid
    simp only [Bool.not_eq_true', List.any_eq_false, beq_iff_eq] at hk
    exact hk y hy hid
  | none =>
    exfalso
    have hused := List.find?_eq_none.1 hfind
    have hnodup : ((List.range 5).map (fun k => req + k * 65536)).Nodup :=
      List.nodup_range.map fun a b hab => by
        have : req + a * 65536 = req + b * 65536 := hab
        omega
    have hsub : (List.range 5).map (fun k => req + k * 65536) ⊆ x.sessions.map (fun y => y.id) := by
      intro v hv
      obtain ⟨k, hk, rfl⟩ := List.mem_map.1 hv
      have := hused k hk
      simp only [Bool.not_eq_true', Bool.not_eq_false, List.any_eq_true, beq_iff_eq] at this
      obtain ⟨y, hy, hid⟩ := this
      exact List.mem_map.2 ⟨y, hy, hid⟩
    have hle := (List.subperm_of_subset hnodup hsub).length_le
    rw [List.length_map, List.length_map, List.length_range] at hle
    omega

section
variable {s : State} {ep sid : Nat}

theorem sessionUp_iff : sessionUp s ep sid = true ↔ ∃ y, y ∈ (spdmOf s ep).sessions ∧ y.id = sid ∧ y.established = true := by
  simp [sessionUp]

/-- A session, established if it has an ID. -/
def Session.up (id : Nat) (y : Session) : Session := if y.id = id then { y with established := true } else y

theorem sessionUp_established {t : State} (h : ∃ y, y ∈ (spdmOf s ep).sessions ∧ y.id = sid)
    (ht : (spdmOf t ep).sessions = (spdmOf s ep).sessions.map (Session.up sid)) : sessionUp t ep sid = true := by
  obtain ⟨y, hy, hid⟩ := h
  refine sessionUp_iff.2 ⟨Session.up sid y, by rw [ht]; exact List.mem_map_of_mem hy, ?_, ?_⟩
  · rw [Session.up, if_pos hid]
    exact hid
  · rw [Session.up, if_pos hid]

end

/-! ### IDE streams (14 R424, Table 14.8) -/

section
variable {s : State} {ep sid stream sub : Nat} {ks rx : Bool} {key : List Byte} {k : State → State}

@[simp] theorem ideOf_setIde_same (x : Ide) : ideOf (setIde s ep stream x) ep stream = x := Tab.get_store_same _ _ _ _

theorem ideRow_open (hup : LinkIsUp s ep) (hs : sessionUp s ep sid = true) : ideRow s ep sid k = .next (k s) := by
  rw [ideRow, flagF_eq_true hup, hs]
  rfl

theorem ideRow_closed (h : ¬ (LinkIsUp s ep ∧ sessionUp s ep sid = true)) : ideRow s ep sid k = .next s := by
  rw [ideRow, if_neg]
  rw [Bool.and_eq_true]
  rintro ⟨hup, hs⟩
  exact h ⟨by_contra fun hdown => by rw [linkUp_false hdown] at hup; exact Bool.false_ne_true hup, hs⟩

theorem exec_ideRows_closed {port : Nat} (h : ¬ (LinkIsUp s ep ∧ sessionUp s ep sid = true)) : exec (.query ep sid port) s = .next s ∧
    exec (.keyProg ep sid stream ks rx sub key) s = .next s ∧ exec (.kSetGo ep sid stream ks rx sub) s = .next s ∧
    exec (.kSetStop ep sid stream ks rx sub) s = .next s := by
  refine ⟨?_, ?_, ?_, ?_⟩
  · show execQuery ep sid port s = _
    rw [execQuery, ideRow_closed h]
  · show execKeyProg ep sid stream ks rx sub key s = _
    rw [execKeyProg, ideRow_closed h]
  · show execKSetGo ep sid stream ks rx sub s = _
    rw [execKSetGo, ideRow_closed h]
  · show execKSetStop ep sid stream ks rx sub s = _
    rw [execKSetStop, ideRow_closed h]

theorem exec_query_open {port : Nat} (hup : LinkIsUp s ep) (hs : sessionUp s ep sid = true) : exec (.query ep sid port) s = .next
    (emit (hostDraw s 4).2 (.spdm ep (leBytes 1 1 ++ leBytes 1 0 ++ leBytes 1 port ++ (hostDraw s 4).1))) := by
  show execQuery ep sid port s = _
  rw [execQuery, ideRow_open hup hs]

theorem setGoing_iff {x : Ide} {ks : Bool} : setGoing x ks = true ↔ ∀ d b, b < 3 → (ks, d, b) ∈ x.going := by
  simp only [setGoing, List.all_eq_true, List.contains_iff_mem]
  constructor
  · intro h d b hb
    exact h d (by cases d <;> decide) b (by interval_cases b <;> decide)
  · intro h d _ b hb
    refine h d b ?_
    simp only [List.mem_cons, List.not_mem_nil, or_false] at hb
    omega

theorem ideSettle_secure {x : Ide} : (ideSettle x).secure = true ↔ ∃ k, ∀ d b, b < 3 → (k, d, b) ∈ x.going := by
  rw [Bool.exists_bool, ← setGoing_iff, ← setGoing_iff]
  exact Bool.or_eq_true_iff

/-- The keys of a stream without those of one sub-stream of a key set. -/
def keysBeside (x : Ide) (ks rx : Bool) (sub : Nat) : List (Bool × Bool × Nat × List Byte) :=
  x.keys.filter (fun k => !(k.1 == ks && k.2.1 == rx && k.2.2.1 == sub))

theorem mem_keysBeside {x : Ide} {e : Bool × Bool × Nat × List Byte} :
    e ∈ keysBeside x ks rx sub ↔ e ∈ x.keys ∧ (e.1 ≠ ks ∨ e.2.1 ≠ rx ∨ e.2.2.1 ≠ sub) := by
  simp only [keysBeside, List.mem_filter, Bool.not_eq_true', Bool.and_eq_false_iff, beq_eq_false_iff_ne, or_assoc]

theorem hasKey_iff {x : Ide} : x.keys.any (fun k => k.1 == ks && k.2.1 == rx && k.2.2.1 == sub) = true ↔ ∃ key, (ks, rx, sub, key) ∈ x.keys := by
  simp only [List.any_eq_true, Bool.and_eq_true, beq_iff_eq]
  constructor
  · rintro ⟨⟨a, b, c, key⟩, hmem, ⟨rfl, rfl⟩, rfl⟩
    exact ⟨key, hmem⟩
  · rintro ⟨key, hmem⟩
    exact ⟨_, hmem, ⟨rfl, rfl⟩, rfl⟩

/-- A stream with a sub-stream started, stopped. -/
def started (x : Ide) (ks rx : Bool) (sub : Nat) : Ide :=
  ideSettle { x with going := (ks, rx, sub) :: x.going.filter (fun g => !(g.2.1 == rx && g.2.2 == sub)) }
def stopped (x : Ide) (ks rx : Bool) (sub : Nat) : Ide :=
  ideSettle { x with keys := keysBeside x ks rx sub, going := x.going.filter (fun g => decide (g ≠ (ks, rx, sub))) }

section
variable (hup : LinkIsUp s ep) (hs : sessionUp s ep sid = true)
include hup hs

theorem exec_keyProg_kept (hlen : key.length = 40) (hsub : sub ≤ 2) : exec (.keyProg ep sid stream ks rx sub key) s = .next
    (ideSend (setIde s ep stream { ideOf s ep stream with keys := (ks, rx, sub, key) :: keysBeside (ideOf s ep stream) ks rx sub }) ep 3 stream 0 ks rx sub) := by
  show execKeyProg ep sid stream ks rx sub key s = _
  rw [execKeyProg, ideRow_open hup hs]
  simp only [hlen, ne_eq, not_true_eq_false, if_false, if_neg (not_lt.2 hsub)]
  rfl

theorem exec_keyProg_bad (hbad : key.length ≠ 40 ∨ 2 < sub) : ∃ st, exec (.keyProg ep sid stream ks rx sub key) s = .next (ideSend s ep 3 stream st ks rx sub) := by
  show ∃ st, execKeyProg ep sid stream ks rx sub key s = _
  rw [execKeyProg, ideRow_open hup hs]
  by_cases hlen : key.length = 40
  · exact ⟨3, by simp only [hlen, ne_eq, not_true_eq_false, if_false, if_pos (hbad.resolve_left (not_not.2 hlen))]⟩
  · exact ⟨1, by simp only [ne_eq, hlen, not_false_eq_true, if_true]⟩

theorem exec_kSetGo_started (hkey : (ks, rx, sub, key) ∈ (ideOf s ep stream).keys) : exec (.kSetGo ep sid stream ks rx sub) s = .next
    (ideSend (setIde s ep stream (started (ideOf s ep stream) ks rx sub)) ep 6 stream 0 ks rx sub) := by
  show execKSetGo ep sid stream ks rx sub s = _
  rw [execKSetGo, ideRow_open hup hs]
  simp only [hasKey_iff.2 ⟨key, hkey⟩, if_true]
  rfl

theorem exec_kSetGo_noKey (hnone : ∀ k, (ks, rx, sub, k) ∉ (ideOf s ep stream).keys) :
    exec (.kSetGo ep sid stream ks rx sub) s = .next (ideSend s ep 6 stream 0 ks rx sub) := by
  show execKSetGo ep sid stream ks rx sub s = _
  rw [execKSetGo, ideRow_open hup hs]
  exact congrArg _ (if_neg fun hany => by
    obtain ⟨k, hk⟩ := hasKey_iff.1 hany
    exact hnone k hk)

theorem exec_kSetStop_stopped : exec (.kSetStop ep sid stream ks rx sub) s = .next
    (ideSend (setIde s ep stream (stopped (ideOf s ep stream) ks rx sub)) ep 6 stream 0 ks rx sub) := by
  show execKSetStop ep sid stream ks rx sub s = _
  rw [execKSetStop, ideRow_open hup hs]
  rfl

end

/-- A stream goes Insecure, and its root port's function reports it. -/
def ideFailed (s : State) (ep stream : Nat) : State :=
  bump (emit (setIde s ep stream { ideOf s ep stream with secure := false, going := [] }) (.aer ep 0)) Fld.secIdeFailCnt 0

theorem exec_ideCheckFailed_insecure (h : (ideOf s ep stream).secure = false) : exec (.ideCheckFailed ep stream) s = .next s := by
  show execIdeCheckFailed ep stream s = _
  simp only [execIdeCheckFailed, h, Bool.not_false, if_true]

theorem exec_ideCheckFailed_secure (h : (ideOf s ep stream).secure = true) : exec (.ideCheckFailed ep stream) s = .next
    (failRequests (raiseD (ideFailed s ep stream) srcSec { code := 0x0902, aux8 := ep, aux16 := stream }) ep 1 (stream == 0)) := by
  show execIdeCheckFailed ep stream s = _
  simp only [execIdeCheckFailed, h, Bool.not_true, Bool.false_eq_true, if_false]
  rfl

theorem ideOf_ideFailed : ideOf (ideFailed s ep stream) ep stream = { ideOf s ep stream with secure := false, going := [] } :=
  ideOf_setIde_same _

theorem getF_ideFailed : getF (ideFailed s ep stream) Fld.secIdeFailCnt 0 = (getF s Fld.secIdeFailCnt 0 + 1) % 2 ^ 64 :=
  getF_bump_same _ Fld.secIdeFailCnt 0 ⟨by decide, by decide⟩

end

/-! ### What each request does -/

section
variable {s : State} {ep sid : Nat} {r : SpdmReq}

section
variable (h : Handled s ep r)
include h

theorem exec_getVersion_handled : exec (.getVersion ep r) s = .next
    (spdmSend (setSpdm s ep { step := 1 }) ep 0x10 0x04 0 0 (leBytes 1 0 ++ leBytes 1 1 ++ leBytes 2 0x1200)) := by
  show execGetVersion ep r s = _
  rw [execGetVersion, spdmRow_handled h]

theorem exec_getCapabilities_next (hstep : (spdmOf s ep).step = 1) : ∃ bs, exec (.getCapabilities ep r) s = .next
    (spdmSend (hostDraw (setSpdm s ep { spdmOf s ep with step := 2 }) 1).2 ep 0x12 0x61 0 0 bs) := by
  show ∃ bs, execGetCapabilities ep r s = _
  rw [execGetCapabilities, spdmRow_handled h, if_pos hstep]
  exact ⟨_, rfl⟩

theorem exec_getCapabilities_early (hstep : (spdmOf s ep).step ≠ 1) : exec (.getCapabilities ep r) s = .next (spdmError s ep 4) := by
  show execGetCapabilities ep r s = _
  rw [execGetCapabilities, spdmRow_handled h, if_neg hstep]

theorem exec_negotiateAlgorithms_next (hstep : (spdmOf s ep).step = 2) : ∃ bs, exec (.negotiateAlgorithms ep r) s = .next
    (spdmSend (setSpdm s ep { spdmOf s ep with step := 3 }) ep 0x12 0x63 3 0 bs) := by
  show ∃ bs, execNegotiateAlgorithms ep r s = _
  rw [execNegotiateAlgorithms, spdmRow_handled h, if_pos hstep]
  exact ⟨_, rfl⟩

theorem exec_negotiateAlgorithms_early (hstep : (spdmOf s ep).step ≠ 2) : exec (.negotiateAlgorithms ep r) s = .next (spdmError s ep 4) := by
  show execNegotiateAlgorithms ep r s = _
  rw [execNegotiateAlgorithms, spdmRow_handled h, if_neg hstep]

section
variable (hstep : (spdmOf s ep).step = 3)
include hstep

theorem exec_getDigests_negotiated : exec (.getDigests ep r) s = .next (spdmFree s ep 0x01 0 1 [] 48) := by
  show execGetDigests ep r s = _
  rw [execGetDigests, spdmRow_handled h, negotiated_done hstep]

theorem exec_getCertificate_slot0 (hslot : r.param1 = 0) : ∃ n bs, exec (.getCertificate ep r) s = .next
    (spdmSend (hostDraw s n).2 ep 0x12 0x02 0 0 bs) := by
  show ∃ n bs, execGetCertificate ep r s = _
  rw [execGetCertificate, spdmRow_handled h, negotiated_done hstep, hslot, if_neg (by decide)]
  exact ⟨_, _, rfl⟩

theorem exec_challenge_slot0 (hslot : r.param1 = 0) : ∃ n, exec (.challenge ep r) s = .next (spdmFree s ep 0x03 0 1 [] n) := by
  show ∃ n, execChallenge ep r s = _
  rw [execChallenge, spdmRow_handled h, negotiated_done hstep, hslot, if_neg (by decide)]
  exact ⟨_, rfl⟩

theorem exec_slot1 (hslot : r.param1 = 1) : exec (.getCertificate ep r) s = .next (spdmError s ep 1) ∧
    exec (.challenge ep r) s = .next (spdmError s ep 1) := by
  constructor
  · show execGetCertificate ep r s = _
    rw [execGetCertificate, spdmRow_handled h, negotiated_done hstep, hslot, if_pos (by decide)]
  · show execChallenge ep r s = _
    rw [execChallenge, spdmRow_handled h, negotiated_done hstep, hslot, if_pos (by decide)]

theorem exec_getMeasurements_offered (hindex : r.param2.toNat ≤ 5 ∨ r.param2 = 0xFF) : ∃ u bs, DrawnOnly s u ∧
    exec (.getMeasurements ep r) s = .next (spdmSend u ep 0x12 0x60 (if r.param2 = 0 then 5 else 0) 0 bs) := by
  have hnot : ¬ (5 < r.param2.toNat ∧ r.param2.toNat ≠ 0xFF) := by
    rintro ⟨hbig, hother⟩
    rcases hindex with h | h
    · omega
    · exact hother (by rw [h]; rfl)
  have hzero : (if r.param2.toNat = 0 then 5 else 0) = if r.param2 = 0 then 5 else 0 := by
    simp only [← BitVec.toNat_inj]
    rfl
  show ∃ u bs, _ ∧ execGetMeasurements ep r s = _
  rw [execGetMeasurements, spdmRow_handled h, negotiated_done hstep]
  simp only [if_neg hnot, hzero]
  exact ⟨_, _, (drawnOnly_measurementBlocks _ s).trans (drawnOnly_hostDraw _ _), rfl⟩

theorem exec_getMeasurements_unknown (hbig : 5 < r.param2.toNat) (hother : r.param2 ≠ 0xFF) :
    exec (.getMeasurements ep r) s = .next (spdmError s ep 1) := by
  have hbad : 5 < r.param2.toNat ∧ r.param2.toNat ≠ 0xFF := ⟨hbig, fun h => hother (BitVec.eq_of_toNat_eq h)⟩
  show execGetMeasurements ep r s = _
  rw [execGetMeasurements, spdmRow_handled h, negotiated_done hstep]
  exact congrArg _ (if_pos hbad)

/-- The session that a KEY_EXCHANGE begins. -/
def newSession (x : Spdm) (r : SpdmReq) : Session := { id := leAt r.body 0 2 + freeSession x (leAt r.body 0 2) * 65536, established := false }

theorem exec_keyExchange_begun (hroom : (spdmOf s ep).sessions.length < 4) : ∃ n bs, exec (.keyExchange ep r) s = .next
    (spdmFree (setSpdm s ep { spdmOf s ep with sessions := (spdmOf s ep).sessions ++ [newSession (spdmOf s ep) r] }) ep 0x64 0 0 bs n) := by
  show ∃ n bs, execKeyExchange ep r s = _
  rw [execKeyExchange, spdmRow_handled h, negotiated_done hstep]
  simp only [if_neg (not_le.2 hroom)]
  exact ⟨_, _, rfl⟩

theorem exec_keyExchange_full (hfull : 4 ≤ (spdmOf s ep).sessions.length) : exec (.keyExchange ep r) s = .next (spdmError s ep 10) := by
  show execKeyExchange ep r s = _
  rw [execKeyExchange, spdmRow_handled h, negotiated_done hstep]
  exact congrArg _ (if_pos hfull)

end

theorem exec_finish_in (hid : r.session = some sid) : exec (.finish ep r) s = .next
    (if sessionUp s ep sid then spdmError s ep 4 else
      spdmSend (setSpdm s ep { spdmOf s ep with sessions := (spdmOf s ep).sessions.map (Session.up sid) }) ep 0x12 0x65 0 0 []) := by
  show execFinish ep r s = _
  rw [execFinish, spdmRow_handled h, hid]
  rfl

theorem exec_finish_outside (hid : r.session = none) : exec (.finish ep r) s = .next (spdmError s ep 4) := by
  show execFinish ep r s = _
  rw [execFinish, spdmRow_handled h, hid]

theorem exec_heartbeat_handled : exec (.heartbeat ep r) s = .next (inSession s ep r (fun _ s => spdmSend s ep 0x12 0x68 0 0 [])) := by
  show execHeartbeat ep r s = _
  rw [execHeartbeat, spdmRow_handled h]

theorem exec_keyUpdate_handled : exec (.keyUpdate ep r) s = .next
    (inSession s ep r (fun _ s => spdmSend s ep 0x12 0x69 r.param1.toNat r.param2.toNat [])) := by
  show execKeyUpdate ep r s = _
  rw [execKeyUpdate, spdmRow_handled h]

theorem exec_endSession_in (hid : r.session = some sid) : exec (.endSession ep r) s = .next
    (if sessionUp s ep sid then
      spdmSend (setSpdm s ep { spdmOf s ep with sessions := (spdmOf s ep).sessions.filter (fun y => y.id != sid) }) ep 0x12 0x6C 0 0 []
     else spdmError s ep 4) := by
  show execEndSession ep r s = _
  rw [execEndSession, spdmRow_handled h, inSession_some hid]

theorem exec_spdmUnsupported {code : Byte} (hcode : code.toNat ∉ spdmCodes) :
    exec (.spdmUnsupportedRequest ep r code) s = .next (spdmError s ep 7) := by
  show execSpdmUnsupportedRequest ep r code s = _
  rw [execSpdmUnsupportedRequest, if_neg (by rwa [List.contains_iff_mem]), spdmRow_handled h]

end

theorem exec_spdmListed {code : Byte} (hcode : code.toNat ∈ spdmCodes) : exec (.spdmUnsupportedRequest ep r code) s = .next s := by
  show execSpdmUnsupportedRequest ep r code s = _
  rw [execSpdmUnsupportedRequest, if_pos (List.contains_iff_mem.2 hcode)]

theorem handled_of_sessionUp (hup : LinkIsUp s ep) (hid : r.session = some sid) (hs : sessionUp s ep sid = true) : Handled s ep r := by
  obtain ⟨y, hy, hyid, -⟩ := sessionUp_iff.1 hs
  exact ⟨hup, .inr ⟨sid, hid, y, hy, hyid⟩⟩

theorem Handled.session (h : Handled s ep r) (hid : r.session = some sid) : ∃ y, y ∈ (spdmOf s ep).sessions ∧ y.id = sid := by
  obtain ⟨-, hnone | ⟨id, hid', hy⟩⟩ := h
  · rw [hid] at hnone
    cases hnone
  · obtain rfl := Option.some.inj (hid.symm.trans hid')
    exact hy

end

/-! ### The statement -/

/-- Settles O54: keys, the floor's fuses, the responder's requests and IDE streams. The layouts of SPDM and of IDE_KM, and the number of a new
session, are log 97. -/
theorem securityCommands : Obligations.SecurityCommands := by
  unfold Obligations.SecurityCommands
  intro s ep sid stream sub n h tt nn port r code o k ks rx key x up fine said same err rows tables ide km
  have herr (e : Nat) : spdmError s ep e = err e := spdmError_eq s ep e
  have hkm (h : km) : LinkIsUp s ep ∧ sessionUp s ep sid = true := h
  refine ⟨exec_keyDestroyDone_other, fun ho hh hk => ⟨fun hused => ?_, fun hfree => ?_⟩, exec_keyDestroyDone_noKey, keyOfHandle_some, exec_floorStepBlown_idle,
    fun hblow hops => ⟨_, exec_floorStepBlown_raised hblow hops, rfl, rfl, rfl, rfl, rfl⟩, fun c hc hdown => ?_, fun c id hc hup hid hnone => ?_, fun hf => ?_,
    fun hf hstep => ?_, fun hf hstep => ?_, fun hf hstep => ?_, fun hf hstep => ?_, fun c hc hup hid hstep => ?_, fun hf hstep hslot => ?_, fun hf hstep hslot => ?_,
    fun hf hid hdown => ?_, fun hup hid hs => ?_, fun hup hid => ?_, fun hf hcode => ?_, exec_spdmListed, fun hno => ?_, fun h => ?_, fun h hlen hsub => ?_,
    fun h hbad => ?_, fun h hkey => ?_, fun h hnone => ?_, fun h => ?_, exec_ideCheckFailed_insecure,
    fun hsec => ⟨_, exec_ideCheckFailed_secure hsec, by rw [ideOf_ideFailed], by rw [ideOf_ideFailed], rfl, getF_ideFailed, rfl⟩⟩
  · rw [exec_keyDestroyDone_key ho hh hk, if_pos hused]
  · rw [exec_keyDestroyDone_key ho hh hk, hfree]
    exact ⟨_, rfl, keyOfHandle_erased _, by rw [keyAt_setKey_same], by rw [keyAt_setKey_same], fun i hi => keyAt_setKey_other hi, rfl, rfl⟩
  · obtain ⟨k, hrow⟩ := exec_spdmRow s ep r c hc
    rw [hrow, spdmRow_down hdown]
  · obtain ⟨k, hrow⟩ := exec_spdmRow s ep r c hc
    rw [hrow, spdmRow_noSession hup hid hnone, herr]
  · exact ⟨_, exec_getVersion_handled hf, spdmOf_setSpdm_same _, rfl, rfl, rfl, rfl, rfl, rfl⟩
  · obtain ⟨bs, hexec⟩ := exec_getCapabilities_next hf hstep
    exact ⟨_, hexec, answered_changed 0x61 0 0 1 bs⟩
  · rw [exec_getCapabilities_early hf hstep, herr]
  · obtain ⟨bs, hexec⟩ := exec_negotiateAlgorithms_next hf hstep
    exact ⟨_, hexec, answered_set 0x63 3 0 bs⟩
  · rw [exec_negotiateAlgorithms_early hf hstep, herr]
  · obtain ⟨k, hrow⟩ := exec_negotiatedRow s ep r c hc
    rw [hrow, spdmRow_handled ⟨hup, .inl hid⟩, negotiated_early hstep hid, herr]
  · obtain ⟨n, bs, hcert⟩ := exec_getCertificate_slot0 hf hstep hslot
    obtain ⟨n', hchal⟩ := exec_challenge_slot0 hf hstep hslot
    refine ⟨⟨_, exec_getDigests_negotiated hf hstep, answered_free 0x01 0 1 [] 48⟩, ⟨_, hcert, answered_drawn 0x02 0 0 bs n⟩, ⟨_, hchal, answered_free 0x03 0 1 [] n'⟩,
      fun hindex => ?_, fun hbig hother => ?_, fun hroom => ?_, fun hfull => ?_⟩
    · obtain ⟨u, bs, hdrawn, hexec⟩ := exec_getMeasurements_offered hf hstep hindex
      exact ⟨_, hexec, hdrawn.answered ep 0x60 _ 0 bs⟩
    · rw [exec_getMeasurements_unknown hf hstep hbig hother, herr]
    · obtain ⟨n, bs, hexec⟩ := exec_keyExchange_begun hf hstep hroom
      obtain ⟨hsaid, -, hregs, hmem, hrings, hide, hkeys⟩ := answered_free (s := setSpdm s ep { x with sessions := x.sessions ++ [newSession x r] }) (ep := ep)
        0x64 0 0 bs n
      exact ⟨_, newSession x r, hexec, hsaid, spdmOf_setSpdm_same _, rfl, freeSession_free (by omega) _, hregs, hmem, hrings, hide, hkeys⟩
    · rw [exec_keyExchange_full hf hstep hfull, herr]
  · rw [← herr]
    exact exec_slot1 hf hstep hslot
  · have hout : inSession s ep r = fun _ => spdmError s ep 4 := funext fun k => by rw [inSession_some hid, hdown]; rfl
    have hfinish := exec_finish_in hf hid
    rw [hdown, if_neg Bool.false_ne_true] at hfinish
    refine ⟨⟨_, hfinish, (answered_set 0x65 0 0 []).1, sessionUp_established (Handled.session hf hid) ?_, ?_, (answered_set 0x65 0 0 []).2.2⟩, ?_, ?_, ?_⟩
    · exact congrArg Spdm.sessions (spdmOf_setSpdm_same _)
    · rw [(answered_set 0x65 0 0 []).2.1, List.length_map]
    · rw [exec_heartbeat_handled hf, hout, herr]
    · rw [exec_keyUpdate_handled hf, hout, herr]
    · rw [exec_endSession_in hf hid, hdown, if_neg Bool.false_ne_true, herr]
  · have hf : Handled s ep r := handled_of_sessionUp hup hid hs
    have hin (k : Nat → State → State) : inSession s ep r k = k sid s := by rw [inSession_some hid, if_pos hs]
    refine ⟨?_, ⟨_, (exec_heartbeat_handled hf).trans (congrArg _ (hin _)), answered_plain 0x68 0 0 []⟩,
      ⟨_, (exec_keyUpdate_handled hf).trans (congrArg _ (hin _)), answered_plain 0x69 _ _ []⟩, ?_⟩
    · rw [exec_finish_in hf hid, if_pos hs, herr]
    · have hend := exec_endSession_in hf hid
      rw [if_pos hs] at hend
      obtain ⟨hsaid, hafter, hspared⟩ := answered_set (s := s) (ep := ep) (x := { x with sessions := x.sessions.filter (fun y => y.id != sid) }) 0x6C 0 0 []
      refine ⟨_, hend, hsaid, fun y => ?_, hspared⟩
      rw [hafter, List.mem_filter, bne_iff_ne]
  · have hf : Handled s ep r := ⟨hup, .inl hid⟩
    rw [exec_finish_outside hf hid, exec_heartbeat_handled hf, inSession_outside hid, herr]
    exact ⟨rfl, rfl⟩
  · rw [exec_spdmUnsupported hf hcode, herr]
  · exact exec_ideRows_closed hno
  · obtain ⟨hup, hs⟩ := hkm h
    exact ⟨_, _, exec_query_open hup hs, rfl, rfl, rfl⟩
  · obtain ⟨hup, hs⟩ := hkm h
    refine ⟨_, exec_keyProg_kept hup hs hlen hsub, ?_⟩
    have hstream : ideOf (ideSend (setIde s ep stream { ide with keys := (ks, rx, sub, key) :: keysBeside ide ks rx sub }) ep 3 stream 0 ks rx sub) ep stream =
        { ide with keys := (ks, rx, sub, key) :: keysBeside ide ks rx sub } := ideOf_setIde_same _
    rw [hstream]
    refine ⟨List.mem_cons_self, fun k hk => ?_, fun e he => ?_, rfl, rfl, rfl, rfl, rfl⟩
    · rcases List.mem_cons.1 hk with heq | hold
      · simpa using heq
      · simpa using (mem_keysBeside.1 hold).2
    · rw [List.mem_cons, mem_keysBeside]
      refine ⟨fun hmem => ?_, fun hold => .inr ⟨hold, he⟩⟩
      rcases hmem with rfl | ⟨hold, -⟩
      · simp at he
      · exact hold
  · obtain ⟨hup, hs⟩ := hkm h
    obtain ⟨st, hexec⟩ := exec_keyProg_bad (key := key) (stream := stream) (ks := ks) (rx := rx) hup hs hbad
    exact ⟨_, hexec, rfl, rfl⟩
  · obtain ⟨hup, hs⟩ := hkm h
    refine ⟨_, exec_kSetGo_started hup hs hkey, ?_⟩
    have hstream : ideOf (ideSend (setIde s ep stream (started ide ks rx sub)) ep 6 stream 0 ks rx sub) ep stream = started ide ks rx sub := ideOf_setIde_same _
    rw [hstream]
    exact ⟨List.mem_cons_self, rfl, ideSettle_secure, rfl, rfl⟩
  · obtain ⟨hup, hs⟩ := hkm h
    exact ⟨_, exec_kSetGo_noKey hup hs hnone, rfl, rfl⟩
  · obtain ⟨hup, hs⟩ := hkm h
    refine ⟨_, exec_kSetStop_stopped hup hs, ?_⟩
    have hstream : ideOf (ideSend (setIde s ep stream (stopped ide ks rx sub)) ep 6 stream 0 ks rx sub) ep stream = stopped ide ks rx sub := ideOf_setIde_same _
    rw [hstream]
    refine ⟨fun k hk => ?_, fun hgo => ?_, ideSettle_secure, rfl, rfl⟩
    · simpa using (mem_keysBeside.1 hk).2
    · simpa using (List.mem_filter.1 hgo).2

end Sys2Proof.Machine
end
